-- ==== Sys2Proof/Word.lean ====
section
/-! DEFINITION. The word types of the device and their plainest conversions. -/

namespace Sys2Proof

/-- A register of the map (R7). -/
abbrev Word := BitVec 32

/-- A byte of a frame, a window or a memory. -/
abbrev Byte := BitVec 8

/-- A 64-bit value or counter (R13, R15). -/
abbrev DWord := BitVec 64

/-- A count of 1.25 ns ticks of the fabric clock. -/
abbrev Ticks := Nat

/-- The three access paths of the register map (R424). -/
inductive Path where
  | pcie
  | spi
  | fw
  deriving DecidableEq, Repr

/-- The code of a path in MQ_CFG.owner and in the posted-write log (R445, R432). -/
def Path.code : Path → Nat
  | .pcie => 0
  | .spi => 1
  | .fw => 2

end Sys2Proof
end

