-- ==== Sys2Proof/Machine/Tbl.lean ====
section
/-! DEFINITION. Sparse tables: lists of (key, value) pairs with keys strictly rising. A table with a default lists no
entry equal to its default, so that equal contents are equal data. -/

namespace Sys2Proof.Machine

/-- A sparse table. -/
abbrev Tbl (α : Type) := List (Nat × α)

/-- The entry listed at a key. -/
def tblFind {α : Type} : Tbl α → Nat → Option α
  | [], _ => none
  | (k', v) :: t, k => if k = k' then some v else tblFind t k

/-- List an entry at a key, in its place. -/
def tblPut {α : Type} : Tbl α → Nat → α → Tbl α
  | [], k, v => [(k, v)]
  | (k', v') :: t, k, v =>
    if k < k' then (k, v) :: (k', v') :: t
    else if k = k' then (k, v) :: t
    else (k', v') :: tblPut t k v

/-- Remove the entry at a key. -/
def tblDel {α : Type} : Tbl α → Nat → Tbl α
  | [], _ => []
  | (k', v') :: t, k => if k = k' then tblDel t k else (k', v') :: tblDel t k

/-- The value at a key of a table whose unlisted keys hold `d`. -/
def tblGet {α : Type} (t : Tbl α) (d : α) (k : Nat) : α := (tblFind t k).getD d

/-- Set the value at a key of a table whose unlisted keys hold `d`. -/
def tblSet {α : Type} [DecidableEq α] (t : Tbl α) (d : α) (k : Nat) (v : α) : Tbl α :=
  if v = d then tblDel t k else tblPut t k v

/-- Keep the entries of which `p` holds. -/
def tblKeep {α : Type} (p : Nat → α → Bool) (t : Tbl α) : Tbl α := t.filter fun e => p e.1 e.2

/-- Keys strictly rising, all above `b` (none: no bound). -/
def tblRising {α : Type} : Option Nat → Tbl α → Bool
  | _, [] => true
  | none, (k, _) :: t => tblRising (some k) t
  | some b, (k, _) :: t => decide (b < k) && tblRising (some k) t

/-- The canonical form of a table. -/
def tblWf {α : Type} (t : Tbl α) : Bool := tblRising none t

/-- The smallest key from `lo` that is not listed. -/
def tblFree {α : Type} (t : Tbl α) : Nat → Nat → Option Nat
  | _, 0 => none
  | lo, n + 1 => if (tblFind t lo).isNone then some lo else tblFree t (lo + 1) n

end Sys2Proof.Machine
end

