-- ==== Sys2Proof/Machine/RegMap.lean ====
section
/-! DEFINITION. The register map of chapter "Register map" (R457 to R463): one constructor of `Reg` for each kind of
register, with its address, its instances, its fields with the access type of R8 and the range of R487, and its reset
value. A register of several instances is addressed as base + s1 * a + s2 * b, and its instance number is a * c2 + b. -/

namespace Sys2Proof.Machine

/-- The access type of a field (R8). -/
inductive Acc where
  | rw | ro | roc | w1c | wo | rws
  deriving DecidableEq, Repr

/-- The values that a field takes (R487). -/
inductive Chk where
  | any
  | rng (lo hi : Nat)
  | srng (width : Nat) (lo hi : Int)
  | zeroOr (lo hi : Nat)
  | mult (m lo hi : Nat)
  deriving DecidableEq, Repr

/-- A field value `v` is allowed (R487). -/
def Chk.ok : Chk → Nat → Bool
  | .any, _ => true
  | .rng lo hi, v => lo ≤ v && v ≤ hi
  | .srng w lo hi, v => let i := (BitVec.ofNat w v).toInt; lo ≤ i && i ≤ hi
  | .zeroOr lo hi, v => v == 0 || (lo ≤ v && v ≤ hi)
  | .mult m lo hi, v => v % m == 0 && lo ≤ v && v ≤ hi

/-- One row of a field map. -/
structure FieldInfo where
  hi  : Nat
  lo  : Nat
  acc : Acc
  chk : Chk
  deriving DecidableEq, Repr

/-- The register block an offset belongs to (R457). -/
inductive Blk where
  | glb | evt | hbr | mgt | cfg | nvs | upd | mac | phy | cls | fdb | sky | hrb | qmg | sch | tga | tim | can | lin
  | tss | cip | key | red | mem | pwr
  deriving DecidableEq, Repr

/-- Address, instances and fields of a kind of register. -/
structure RegInfo where
  blk    : Blk
  base   : Nat
  s1     : Nat
  c1     : Nat
  s2     : Nat
  c2     : Nat
  fields : List FieldInfo
  deriving DecidableEq, Repr

/-- The kinds of register. -/
inductive Reg where
  | glbChipId | glbOpState | glbLsCtrl | glbLsStat | glbLsCfg | glbLsBist | glbFaultRec | glbFaultTime
  | glbSafeCfg | evtStat | evtLogCfg | evtRaise | evtVecCfg | evtRoute | hbrPcieStat | hbrPwSeq
  | hbrPwFence | hbrSideband | hbrSidebandSeen | hbrDmaCfg | hbrPwLog0 | hbrPwLog1 | hbrPwLog2 | hbrPwLog3
  | hbrPwLog4 | hbrPwLog5 | hbrPwLog6 | hbrPwLog7 | hbrAspiCfg0 | hbrAspiCfg1 | hbrAspiCfg2 | hbrPfLast
  | hbrTxRingBase | hbrTxRingCfg | hbrTxRingHead | hbrTxRingTail | hbrRxRingBase | hbrRxRingCfg | hbrRxRingHead | hbrRxRingTail
  | mgtSpiCfg | mqCfg | mqStat | mqCmd | mqPop | cfgBootStat | cfgMinCause | cfgBootCfg
  | cfgRestart | cfgShadowCtrl | cfgLoadStat | cfgSwapCtrl | cfgSwapStat | cfgEpoch | cfgBdcResult | cfgBdcQsel
  | cfgBdcBound | cfgBdcQattr | cfgSwapFenced | cfgSwapFenceLim | cfgBootHist | nvsStoreCmd | nvsStoreLen | nvsStoreStat
  | updCmd | updArg | updStat | updIdle | updTrialCfg | updVerify | updDigest | macPortCfg
  | macPortStat | macFwdCtrl | macMaxFrame | macMdioCfg | macMdioCmd | macMdioData | clsParseCfg | clsSomeipPort
  | clsHashSeed | clsDscpMap | clsEntCmd | clsEntIndex | clsEntStat | clsEntData | clsLoadResult | clsCtTmo0
  | clsCtTmo1 | clsCtTmo2 | clsCtCount | clsPrioCfg | fdbGlbCfg | fdbRmacLo | fdbRmacHi | fdbHashSeed
  | fdbAgeCfg | fdbLearnCfg | fdbFlapCfg | fdbStrReset | fdbEntCmd | fdbEntIndex | fdbEntStat | fdbFlushSel
  | fdbFloodMask | fdbFlapLast0 | fdbFlapLast1 | fdbFlapLast2 | fdbEntData | fdbLoadResult | fdbPortCfg | fdbWinSel
  | skyCtrl | skyStatus | skyFaultRec | skyResvMask | skyStealCfg | skyCellLim | skyCellUsed | skyMqCfg
  | skyLoadResult | skyHomeMap | hrbCfg | hrbStatus | hrbHwm | qmgPoolUsed | qmgPoolHwm | qmgSharedSize
  | qmgSharedUsed | qmgSharedHwm | qmgLoadResult | qmgPortLim | qmgPortUsed | qmgPortHwm | qmgClassMap | qmgQLim
  | qmgQCol | qmgQCtrl | qmgQStat | qmgSLim | qmgSCol | qmgSCtrl | qmgSStat | schPortCfg
  | schTbRate | schSTbRate | schTbDepth | schSTbDepth | schTbLevel | schSTbLevel | schCbsSlope | schCbsHi
  | schCbsCredit | schWfqW | schMaxwait | mtrCtrl | mtrCir | mtrPir | mtrCbs | mtrEbs
  | mtrCLevel | mtrELevel | schGateCfg | schGateList | schGateCycle | schGateBase | schGateOper | schGateAdmin0
  | schGateAdmin1 | schGateOper0 | schGateOper1 | tgaCfg | tgaAdminBase | tgaAdminCycle | tgaAdminExt | tgaAdminLen
  | tgaOperBase | tgaOperCycle | tgaOperExt | tgaOperLen | tgaChangeTime | tgaStat | tgaPreemptCfg | tgaPreemptStat
  | tgaLoadResult | tgaAdminEntry | tgaOperEntry | timCtrl | timStat | timStandbyDur | timLt | timSnapLt
  | timSnapDom | timDomCfg | timDomFreq | timDomTime | timDomSet | timDomStep | timDomSlew | timDomSlewCfg
  | timDomStat | timDomSlewRem | timPortCfg | timTxtsStat | timTxtsPop | timLatTx | timLatRx | timTxtsHead
  | timTscCfg | timTscStorm | timTscStat | timTscPop | timTscHead | timPpsCfg | timPpsStart | timPpsPeriod
  | timPpsWidth | timPpsStat | canCtrl | canNbt | canDbt | canXbt | canTdc | canPwm
  | canTxCfg | canBoCfg | canStat | canLpfCfg | canLpfMask | canLpfDataLo | canLpfDataHi | canLpfCtl
  | canLpfStat | canLoadResult | linCtrl | linSched | linStat | linTable | linFrame | linSlot
  | tssPhyCfg | tssPlcaCtrl | tssPlcaTmr | tssPlcaStat | cipArbCfg | cipCtxSplit | cipTrngStat | cipVbStat
  | cipJobCmd | cipJobArg | cipJobStat | cipKcmd | cipKcmdStat | cipBypassEt | cipLoadResult | cipSecyCfg
  | cipSecyRwin | cipTxsci | cipTxscCtrl | cipSecyPnthr | cipTxSa0 | cipTxSaSsci | cipTxSaSalt | cipTxSaNextPn
  | cipRxSa0 | cipRxSaSsci | cipRxSaSalt | cipRxSaNextPn | cipRxSc0 | cipRxScSci | keyLcStat | keyLcCtr
  | keyAttCtr | keyUid | keyCmd | keyCmdStat | keySlotSel | keySlotAttr | keySlotCtr | keySlotGen
  | keySlotStat | redCfg | redHbCfg | redHbKick | redStat | redSeqSkip | redPartnerUid | redLoadResult
  | memScrubCfg | memScrubStat | memCeLog0 | memCeLog1 | memCeLogLt | memUeLog0 | memUeLog1 | memUeLogLt
  | memFlipCtrl | memFlipAddr | memWeakLast0 | memWeakLast1 | memRepairSel | memFlipD | memRepairStat | memLoadResult
  | pwrCtrl | pwrStat | pwrWakeEn | pwrWakeEn2 | pwrWakeSrc | pwrTimer | pwrRingCfg | pwrRingCfg1
  | pwrEntryCfg | pwrInhCfg | pwrWakeoutCfg | pwrTc10Cfg | pwrFrStat | pwrWakeAll0 | pwrWakeAll1 | pwrVetoLog0
  | pwrVetoLog1 | pwrVetoLogLt | pwrLoadResult | pwrMember0 | pwrMember1 | pwrMember2 | pwrMember3
  deriving DecidableEq, Repr

/-- Ports with a SecY (the ports that carry MACsec): P0 to P11, P14, P15 and P17. -/
def secyPort (n : Nat) : Bool := n ≤ 11 || n == 14 || n == 15 || n == 17

/-- The latency row of R205 at reset, in picoseconds: port instance `i / 3`, row `i % 3`; rows that do not exist are 0. -/
def latReset (i : Nat) (tx : Bool) : Nat :=
  let p := i / 3
  let pick := fun (l : List (Nat × Nat)) =>
    match l[i % 3]? with
    | some (t, r) => if tx then t else r
    | none => 0
  if p ≤ 3 then pick [(780000, 1120000), (1460000, 2140000), (2820000, 4180000)]
  else if p ≤ 11 then pick [(340000, 610000), (300000, 520000)]
  else if p ≤ 13 then pick [(480000, 1050000)]
  else pick [(32000, 25600), (44800, 41600), (64000, 56000)]

/-- Address, instances and fields of each kind of register. -/
def Reg.info : Reg → RegInfo
  | .glbChipId => ⟨.glb, 0x000000, 0, 1, 0, 1, [⟨31, 16, .roc, .any⟩, ⟨15, 12, .roc, .any⟩, ⟨11, 8, .roc, .any⟩, ⟨7, 4, .ro, .any⟩]⟩
  | .glbOpState => ⟨.glb, 0x000010, 0, 1, 0, 1, [⟨23, 16, .ro, .any⟩, ⟨11, 8, .ro, .any⟩, ⟨3, 0, .ro, .any⟩]⟩
  | .glbLsCtrl => ⟨.glb, 0x000100, 0, 1, 0, 1, [⟨31, 31, .rws, .any⟩, ⟨30, 30, .rws, .any⟩]⟩
  | .glbLsStat => ⟨.glb, 0x000104, 0, 1, 0, 1, [⟨31, 30, .ro, .any⟩]⟩
  | .glbLsCfg => ⟨.glb, 0x000108, 0, 1, 0, 1, [⟨9, 0, .rw, .rng 1 1000⟩]⟩
  | .glbLsBist => ⟨.glb, 0x00010C, 0, 1, 0, 1, [⟨31, 31, .ro, .any⟩, ⟨30, 30, .ro, .any⟩, ⟨7, 0, .ro, .any⟩]⟩
  | .glbFaultRec => ⟨.glb, 0x000110, 0, 1, 0, 1, [⟨31, 28, .ro, .any⟩, ⟨27, 24, .ro, .any⟩, ⟨23, 22, .ro, .any⟩]⟩
  | .glbFaultTime => ⟨.glb, 0x000118, 4, 2, 0, 1, [⟨31, 0, .ro, .any⟩]⟩
  | .glbSafeCfg => ⟨.glb, 0x000120, 0, 1, 0, 1, [⟨31, 31, .ro, .any⟩, ⟨5, 4, .rw, .rng 0 2⟩, ⟨3, 2, .rw, .rng 0 2⟩, ⟨1, 0, .rw, .rng 0 2⟩]⟩
  | .evtStat => ⟨.evt, 0x010000, 4, 16, 0, 1, [⟨31, 0, .w1c, .any⟩]⟩
  | .evtLogCfg => ⟨.evt, 0x010080, 0, 1, 0, 1, [⟨31, 31, .rw, .any⟩, ⟨5, 0, .rw, .rng 0 47⟩]⟩
  | .evtRaise => ⟨.evt, 0x010084, 0, 1, 0, 1, [⟨8, 0, .wo, .any⟩]⟩
  | .evtVecCfg => ⟨.evt, 0x010100, 4, 32, 0, 1, [⟨15, 0, .rw, .any⟩]⟩
  | .evtRoute => ⟨.evt, 0x011000, 4, 512, 0, 1, [⟨31, 31, .rw, .any⟩, ⟨30, 30, .rw, .any⟩, ⟨29, 27, .rw, .rng 0 4⟩, ⟨4, 0, .rw, .any⟩]⟩
  | .hbrPcieStat => ⟨.hbr, 0x020000, 0, 1, 0, 1, [⟨31, 31, .ro, .any⟩, ⟨7, 4, .ro, .any⟩, ⟨3, 0, .ro, .any⟩]⟩
  | .hbrPwSeq => ⟨.hbr, 0x020010, 0, 1, 0, 1, [⟨31, 0, .ro, .any⟩]⟩
  | .hbrPwFence => ⟨.hbr, 0x020014, 0, 1, 0, 1, [⟨3, 0, .w1c, .any⟩]⟩
  | .hbrSideband => ⟨.hbr, 0x020040, 0, 1, 0, 1, [⟨13, 0, .ro, .any⟩]⟩
  | .hbrSidebandSeen => ⟨.hbr, 0x020044, 0, 1, 0, 1, [⟨13, 0, .w1c, .any⟩]⟩
  | .hbrDmaCfg => ⟨.hbr, 0x020050, 0, 1, 0, 1, [⟨0, 0, .rw, .any⟩]⟩
  | .hbrPwLog0 => ⟨.hbr, 0x020100, 32, 8, 0, 1, [⟨31, 31, .w1c, .any⟩, ⟨30, 28, .ro, .any⟩, ⟨27, 24, .ro, .any⟩, ⟨23, 0, .ro, .any⟩]⟩
  | .hbrPwLog1 => ⟨.hbr, 0x020104, 32, 8, 0, 1, [⟨31, 0, .ro, .any⟩]⟩
  | .hbrPwLog2 => ⟨.hbr, 0x020108, 32, 8, 0, 1, [⟨31, 16, .ro, .any⟩, ⟨15, 8, .ro, .any⟩, ⟨3, 0, .ro, .any⟩]⟩
  | .hbrPwLog3 => ⟨.hbr, 0x02010C, 32, 8, 0, 1, [⟨31, 0, .ro, .any⟩]⟩
  | .hbrPwLog4 => ⟨.hbr, 0x020110, 32, 8, 0, 1, [⟨31, 0, .ro, .any⟩]⟩
  | .hbrPwLog5 => ⟨.hbr, 0x020114, 32, 8, 0, 1, [⟨31, 0, .ro, .any⟩]⟩
  | .hbrPwLog6 => ⟨.hbr, 0x020118, 32, 8, 0, 1, [⟨7, 0, .ro, .any⟩]⟩
  | .hbrPwLog7 => ⟨.hbr, 0x02011C, 32, 8, 0, 1, []⟩
  | .hbrAspiCfg0 => ⟨.hbr, 0x020200, 16, 4, 0, 1, [⟨31, 31, .rw, .any⟩, ⟨30, 30, .rw, .any⟩, ⟨29, 29, .rw, .any⟩, ⟨28, 27, .rw, .rng 0 2⟩, ⟨26, 25, .rw, .rng 0 2⟩, ⟨24, 23, .rw, .any⟩, ⟨22, 20, .rw, .any⟩, ⟨15, 8, .rw, .any⟩, ⟨7, 0, .rw, .any⟩]⟩
  | .hbrAspiCfg1 => ⟨.hbr, 0x020204, 16, 4, 0, 1, [⟨31, 24, .rw, .any⟩, ⟨23, 16, .rw, .any⟩, ⟨15, 8, .rw, .any⟩]⟩
  | .hbrAspiCfg2 => ⟨.hbr, 0x020208, 16, 4, 0, 1, [⟨15, 8, .rw, .any⟩, ⟨7, 0, .rw, .any⟩]⟩
  | .hbrPfLast => ⟨.hbr, 0x020280, 4, 4, 0, 1, [⟨23, 0, .ro, .any⟩]⟩
  | .hbrTxRingBase => ⟨.hbr, 0x021000, 64, 8, 4, 2, [⟨31, 0, .rw, .any⟩]⟩
  | .hbrTxRingCfg => ⟨.hbr, 0x021008, 64, 8, 0, 1, [⟨31, 31, .rw, .any⟩, ⟨19, 16, .rw, .rng 4 12⟩, ⟨15, 0, .ro, .any⟩]⟩
  | .hbrTxRingHead => ⟨.hbr, 0x02100C, 64, 8, 0, 1, [⟨11, 0, .ro, .any⟩]⟩
  | .hbrTxRingTail => ⟨.hbr, 0x021010, 64, 8, 0, 1, [⟨11, 0, .rw, .any⟩]⟩
  | .hbrRxRingBase => ⟨.hbr, 0x021200, 64, 8, 4, 2, [⟨31, 0, .rw, .any⟩]⟩
  | .hbrRxRingCfg => ⟨.hbr, 0x021208, 64, 8, 0, 1, [⟨31, 31, .rw, .any⟩, ⟨19, 16, .rw, .rng 4 12⟩, ⟨15, 0, .rw, .mult 256 256 16384⟩]⟩
  | .hbrRxRingHead => ⟨.hbr, 0x02120C, 64, 8, 0, 1, [⟨11, 0, .ro, .any⟩]⟩
  | .hbrRxRingTail => ⟨.hbr, 0x021210, 64, 8, 0, 1, [⟨11, 0, .rw, .any⟩]⟩
  | .mgtSpiCfg => ⟨.mgt, 0x030000, 0, 1, 0, 1, [⟨0, 0, .rw, .any⟩]⟩
  | .mqCfg => ⟨.mgt, 0x031000, 64, 48, 0, 1, [⟨31, 31, .rw, .any⟩, ⟨30, 29, .rw, .rng 0 2⟩, ⟨3, 0, .rw, .rng 4 12⟩]⟩
  | .mqStat => ⟨.mgt, 0x031004, 64, 48, 0, 1, [⟨31, 28, .ro, .any⟩, ⟨27, 27, .ro, .any⟩, ⟨26, 26, .ro, .any⟩, ⟨25, 13, .ro, .any⟩, ⟨12, 0, .ro, .any⟩]⟩
  | .mqCmd => ⟨.mgt, 0x031008, 64, 48, 0, 1, [⟨31, 28, .wo, .any⟩, ⟨12, 0, .wo, .any⟩]⟩
  | .mqPop => ⟨.mgt, 0x034000, 16, 48, 4, 4, [⟨31, 0, .ro, .any⟩]⟩
  | .cfgBootStat => ⟨.cfg, 0x040000, 0, 1, 0, 1, [⟨31, 30, .ro, .any⟩, ⟨29, 29, .ro, .any⟩, ⟨28, 28, .ro, .any⟩, ⟨27, 27, .ro, .any⟩, ⟨26, 26, .ro, .any⟩, ⟨25, 25, .ro, .any⟩, ⟨24, 24, .ro, .any⟩, ⟨23, 20, .ro, .any⟩, ⟨19, 16, .ro, .any⟩, ⟨9, 8, .ro, .any⟩]⟩
  | .cfgMinCause => ⟨.cfg, 0x040004, 0, 1, 0, 1, [⟨31, 31, .ro, .any⟩, ⟨30, 30, .ro, .any⟩, ⟨23, 16, .ro, .any⟩, ⟨15, 8, .ro, .any⟩]⟩
  | .cfgBootCfg => ⟨.cfg, 0x040008, 0, 1, 0, 1, [⟨31, 16, .rw, .rng 10 3600⟩, ⟨15, 0, .rw, .rng 30 65535⟩]⟩
  | .cfgRestart => ⟨.cfg, 0x040010, 0, 1, 0, 1, [⟨31, 31, .rws, .any⟩, ⟨3, 2, .rw, .any⟩, ⟨1, 0, .rw, .any⟩]⟩
  | .cfgShadowCtrl => ⟨.cfg, 0x040100, 0, 1, 0, 1, [⟨31, 31, .rws, .any⟩, ⟨30, 30, .rws, .any⟩, ⟨0, 0, .rw, .any⟩]⟩
  | .cfgLoadStat => ⟨.cfg, 0x040104, 0, 1, 0, 1, [⟨31, 31, .ro, .any⟩, ⟨30, 30, .ro, .any⟩, ⟨23, 16, .ro, .any⟩, ⟨0, 0, .ro, .any⟩]⟩
  | .cfgSwapCtrl => ⟨.cfg, 0x040108, 0, 1, 0, 1, [⟨31, 31, .rws, .any⟩, ⟨30, 30, .rws, .any⟩, ⟨29, 29, .rw, .any⟩]⟩
  | .cfgSwapStat => ⟨.cfg, 0x04010C, 0, 1, 0, 1, [⟨31, 31, .ro, .any⟩, ⟨30, 30, .ro, .any⟩, ⟨29, 29, .w1c, .any⟩]⟩
  | .cfgEpoch => ⟨.cfg, 0x040110, 0, 1, 0, 1, [⟨31, 0, .ro, .any⟩]⟩
  | .cfgBdcResult => ⟨.cfg, 0x040200, 0, 1, 0, 1, [⟨31, 31, .ro, .any⟩, ⟨27, 16, .ro, .any⟩, ⟨7, 0, .ro, .any⟩]⟩
  | .cfgBdcQsel => ⟨.cfg, 0x040204, 0, 1, 0, 1, [⟨12, 12, .rw, .any⟩, ⟨11, 0, .rw, .any⟩]⟩
  | .cfgBdcBound => ⟨.cfg, 0x040208, 0, 1, 0, 1, [⟨31, 0, .ro, .any⟩]⟩
  | .cfgBdcQattr => ⟨.cfg, 0x04020C, 0, 1, 0, 1, [⟨2, 2, .ro, .any⟩, ⟨1, 1, .ro, .any⟩, ⟨0, 0, .ro, .any⟩]⟩
  | .cfgSwapFenced => ⟨.cfg, 0x040210, 0, 1, 0, 1, [⟨17, 0, .ro, .any⟩]⟩
  | .cfgSwapFenceLim => ⟨.cfg, 0x040214, 0, 1, 0, 1, [⟨13, 0, .rw, .rng 100 10000⟩]⟩
  | .cfgBootHist => ⟨.cfg, 0x040400, 32, 8, 4, 8, [⟨31, 0, .ro, .any⟩]⟩
  | .nvsStoreCmd => ⟨.nvs, 0x050000, 0, 1, 0, 1, [⟨31, 31, .rws, .any⟩, ⟨19, 16, .rw, .any⟩, ⟨15, 0, .rw, .any⟩]⟩
  | .nvsStoreLen => ⟨.nvs, 0x050004, 0, 1, 0, 1, [⟨10, 0, .rw, .any⟩]⟩
  | .nvsStoreStat => ⟨.nvs, 0x050008, 0, 1, 0, 1, [⟨31, 28, .ro, .any⟩]⟩
  | .updCmd => ⟨.upd, 0x060000, 0, 1, 0, 1, [⟨31, 31, .rws, .any⟩, ⟨27, 24, .rw, .any⟩, ⟨23, 16, .rw, .any⟩, ⟨10, 0, .rw, .any⟩]⟩
  | .updArg => ⟨.upd, 0x060004, 0, 1, 0, 1, [⟨31, 0, .rw, .any⟩]⟩
  | .updStat => ⟨.upd, 0x060008, 0, 1, 0, 1, [⟨31, 28, .ro, .any⟩, ⟨27, 25, .ro, .any⟩, ⟨24, 24, .ro, .any⟩, ⟨23, 16, .ro, .any⟩, ⟨15, 15, .ro, .any⟩, ⟨10, 0, .ro, .any⟩]⟩
  | .updIdle => ⟨.upd, 0x06000C, 0, 1, 0, 1, [⟨31, 0, .ro, .any⟩]⟩
  | .updTrialCfg => ⟨.upd, 0x060010, 0, 1, 0, 1, [⟨15, 0, .rw, .rng 60 65535⟩]⟩
  | .updVerify => ⟨.upd, 0x060014, 0, 1, 0, 1, [⟨7, 0, .ro, .any⟩]⟩
  | .updDigest => ⟨.upd, 0x060020, 4, 8, 0, 1, [⟨31, 0, .ro, .any⟩]⟩
  | .macPortCfg => ⟨.mac, 0x080000, 4096, 18, 0, 1, [⟨31, 31, .rw, .any⟩, ⟨27, 24, .rw, .any⟩, ⟨23, 23, .rw, .any⟩]⟩
  | .macPortStat => ⟨.mac, 0x080004, 4096, 18, 0, 1, [⟨31, 31, .ro, .any⟩, ⟨27, 24, .ro, .any⟩]⟩
  | .macFwdCtrl => ⟨.mac, 0x080040, 4096, 18, 0, 1, [⟨1, 1, .rw, .any⟩, ⟨0, 0, .rw, .any⟩]⟩
  | .macMaxFrame => ⟨.mac, 0x080044, 4096, 18, 0, 1, [⟨13, 0, .rw, .rng 64 9216⟩]⟩
  | .macMdioCfg => ⟨.mac, 0x09F000, 0, 1, 0, 1, [⟨7, 0, .rw, .rng 19 255⟩]⟩
  | .macMdioCmd => ⟨.mac, 0x09F004, 0, 1, 0, 1, [⟨31, 31, .rws, .any⟩, ⟨30, 30, .rw, .any⟩, ⟨25, 21, .rw, .any⟩, ⟨20, 16, .rw, .any⟩, ⟨15, 0, .rw, .any⟩]⟩
  | .macMdioData => ⟨.mac, 0x09F008, 0, 1, 0, 1, [⟨15, 0, .rw, .any⟩]⟩
  | .clsParseCfg => ⟨.cls, 0x100000, 0, 1, 0, 1, [⟨31, 16, .rw, .any⟩, ⟨0, 0, .rw, .any⟩]⟩
  | .clsSomeipPort => ⟨.cls, 0x100010, 4, 8, 0, 1, [⟨31, 31, .rw, .any⟩, ⟨16, 16, .rw, .any⟩, ⟨15, 0, .rw, .any⟩]⟩
  | .clsHashSeed => ⟨.cls, 0x100040, 0, 1, 0, 1, [⟨31, 0, .rw, .any⟩]⟩
  | .clsDscpMap => ⟨.cls, 0x100060, 4, 8, 0, 1, [⟨23, 0, .rw, .any⟩]⟩
  | .clsEntCmd => ⟨.cls, 0x100100, 0, 1, 0, 1, [⟨31, 31, .rws, .any⟩, ⟨27, 24, .rw, .any⟩, ⟨19, 18, .rw, .any⟩, ⟨17, 16, .rw, .any⟩]⟩
  | .clsEntIndex => ⟨.cls, 0x100104, 0, 1, 0, 1, [⟨17, 0, .rw, .any⟩]⟩
  | .clsEntStat => ⟨.cls, 0x100108, 0, 1, 0, 1, [⟨31, 28, .ro, .any⟩, ⟨17, 0, .ro, .any⟩]⟩
  | .clsEntData => ⟨.cls, 0x100140, 4, 16, 0, 1, [⟨31, 0, .rw, .any⟩]⟩
  | .clsLoadResult => ⟨.cls, 0x100180, 0, 1, 0, 1, [⟨31, 31, .ro, .any⟩, ⟨23, 8, .ro, .any⟩, ⟨7, 0, .ro, .any⟩]⟩
  | .clsCtTmo0 => ⟨.cls, 0x100300, 0, 1, 0, 1, [⟨31, 16, .rw, .rng 1 65535⟩, ⟨15, 0, .rw, .rng 1 65535⟩]⟩
  | .clsCtTmo1 => ⟨.cls, 0x100304, 0, 1, 0, 1, [⟨31, 16, .rw, .rng 1 65535⟩, ⟨15, 0, .rw, .rng 1 65535⟩]⟩
  | .clsCtTmo2 => ⟨.cls, 0x100308, 0, 1, 0, 1, [⟨31, 16, .rw, .rng 1 65535⟩, ⟨15, 0, .rw, .rng 1 65535⟩]⟩
  | .clsCtCount => ⟨.cls, 0x100310, 0, 1, 0, 1, [⟨17, 0, .ro, .any⟩]⟩
  | .clsPrioCfg => ⟨.cls, 0x100400, 4, 56, 0, 1, [⟨4, 2, .rw, .any⟩, ⟨1, 0, .rw, .rng 0 2⟩]⟩
  | .fdbGlbCfg => ⟨.fdb, 0x140000, 0, 1, 0, 1, [⟨1, 1, .rw, .any⟩, ⟨0, 0, .rw, .any⟩]⟩
  | .fdbRmacLo => ⟨.fdb, 0x140004, 0, 1, 0, 1, [⟨31, 0, .rw, .any⟩]⟩
  | .fdbRmacHi => ⟨.fdb, 0x140008, 0, 1, 0, 1, [⟨15, 0, .rw, .any⟩]⟩
  | .fdbHashSeed => ⟨.fdb, 0x140010, 0, 1, 0, 1, [⟨31, 0, .rw, .any⟩]⟩
  | .fdbAgeCfg => ⟨.fdb, 0x140020, 0, 1, 0, 1, [⟨15, 0, .rw, .zeroOr 10 32767⟩]⟩
  | .fdbLearnCfg => ⟨.fdb, 0x140024, 0, 1, 0, 1, [⟨31, 31, .rw, .any⟩, ⟨25, 20, .rw, .rng 0 47⟩, ⟨19, 10, .rw, .rng 0 1000⟩, ⟨9, 0, .rw, .rng 1 1023⟩]⟩
  | .fdbFlapCfg => ⟨.fdb, 0x140028, 0, 1, 0, 1, [⟨31, 16, .rw, .rng 10 65535⟩, ⟨15, 0, .rw, .rng 1 65535⟩]⟩
  | .fdbStrReset => ⟨.fdb, 0x140050, 0, 1, 0, 1, [⟨11, 0, .wo, .any⟩]⟩
  | .fdbEntCmd => ⟨.fdb, 0x140100, 0, 1, 0, 1, [⟨31, 31, .rws, .any⟩, ⟨27, 24, .rw, .any⟩]⟩
  | .fdbEntIndex => ⟨.fdb, 0x140104, 0, 1, 0, 1, [⟨16, 0, .rw, .any⟩]⟩
  | .fdbEntStat => ⟨.fdb, 0x140108, 0, 1, 0, 1, [⟨31, 28, .ro, .any⟩, ⟨16, 0, .ro, .any⟩]⟩
  | .fdbFlushSel => ⟨.fdb, 0x140110, 0, 1, 0, 1, [⟨31, 31, .rw, .any⟩, ⟨30, 30, .rw, .any⟩, ⟨23, 18, .rw, .any⟩, ⟨11, 0, .rw, .any⟩]⟩
  | .fdbFloodMask => ⟨.fdb, 0x140030, 4, 3, 0, 1, [⟨17, 0, .rw, .any⟩]⟩
  | .fdbFlapLast0 => ⟨.fdb, 0x140040, 0, 1, 0, 1, [⟨31, 0, .ro, .any⟩]⟩
  | .fdbFlapLast1 => ⟨.fdb, 0x140044, 0, 1, 0, 1, [⟨31, 16, .ro, .any⟩, ⟨11, 0, .ro, .any⟩]⟩
  | .fdbFlapLast2 => ⟨.fdb, 0x140048, 0, 1, 0, 1, [⟨5, 0, .ro, .any⟩]⟩
  | .fdbEntData => ⟨.fdb, 0x140140, 4, 4, 0, 1, [⟨31, 0, .rw, .any⟩]⟩
  | .fdbLoadResult => ⟨.fdb, 0x140180, 0, 1, 0, 1, [⟨31, 31, .ro, .any⟩, ⟨23, 8, .ro, .any⟩, ⟨7, 0, .ro, .any⟩]⟩
  | .fdbPortCfg => ⟨.fdb, 0x140400, 4, 18, 0, 1, [⟨28, 24, .rw, .any⟩, ⟨23, 23, .rw, .any⟩, ⟨22, 22, .rw, .any⟩, ⟨21, 21, .rw, .any⟩, ⟨20, 20, .rw, .any⟩, ⟨19, 19, .rw, .any⟩, ⟨18, 18, .rw, .any⟩, ⟨11, 0, .rw, .any⟩]⟩
  | .fdbWinSel => ⟨.fdb, 0x140800, 4, 12, 0, 1, [⟨31, 31, .rw, .any⟩, ⟨23, 16, .rw, .any⟩, ⟨5, 0, .rw, .any⟩]⟩
  | .skyCtrl => ⟨.sky, 0x180000, 0, 1, 0, 1, [⟨31, 31, .rws, .any⟩, ⟨30, 30, .rws, .any⟩, ⟨20, 16, .rw, .any⟩]⟩
  | .skyStatus => ⟨.sky, 0x180004, 0, 1, 0, 1, [⟨31, 0, .ro, .any⟩]⟩
  | .skyFaultRec => ⟨.sky, 0x180008, 0, 1, 0, 1, [⟨31, 28, .ro, .any⟩, ⟨20, 16, .ro, .any⟩]⟩
  | .skyResvMask => ⟨.sky, 0x18000C, 0, 1, 0, 1, [⟨31, 0, .rw, .any⟩]⟩
  | .skyStealCfg => ⟨.sky, 0x180010, 0, 1, 0, 1, [⟨31, 31, .rw, .any⟩, ⟨12, 8, .rw, .rng 1 31⟩, ⟨6, 0, .rw, .rng 1 127⟩]⟩
  | .skyCellLim => ⟨.sky, 0x180014, 0, 1, 0, 1, [⟨16, 0, .rw, .rng 64 32768⟩]⟩
  | .skyCellUsed => ⟨.sky, 0x180018, 0, 1, 0, 1, [⟨16, 0, .ro, .any⟩]⟩
  | .skyMqCfg => ⟨.sky, 0x18001C, 0, 1, 0, 1, [⟨31, 31, .rw, .any⟩, ⟨5, 0, .rw, .rng 0 47⟩]⟩
  | .skyLoadResult => ⟨.sky, 0x180020, 0, 1, 0, 1, [⟨31, 31, .ro, .any⟩, ⟨23, 8, .ro, .any⟩, ⟨7, 0, .ro, .any⟩]⟩
  | .skyHomeMap => ⟨.sky, 0x180100, 4, 64, 0, 1, [⟨28, 24, .rw, .any⟩, ⟨20, 16, .rw, .any⟩, ⟨12, 8, .rw, .any⟩, ⟨4, 0, .rw, .any⟩]⟩
  | .hrbCfg => ⟨.hrb, 0x1C0000, 0, 1, 0, 1, [⟨31, 20, .rw, .rng 16 4095⟩, ⟨19, 0, .rw, .rng 1000 1000000⟩]⟩
  | .hrbStatus => ⟨.hrb, 0x1C0004, 0, 1, 0, 1, [⟨29, 16, .ro, .any⟩, ⟨12, 0, .ro, .any⟩]⟩
  | .hrbHwm => ⟨.hrb, 0x1C0008, 0, 1, 0, 1, [⟨29, 16, .rw, .any⟩, ⟨12, 0, .rw, .any⟩]⟩
  | .qmgPoolUsed => ⟨.qmg, 0x200000, 0, 1, 0, 1, [⟨16, 0, .ro, .any⟩]⟩
  | .qmgPoolHwm => ⟨.qmg, 0x200004, 0, 1, 0, 1, [⟨16, 0, .rw, .any⟩]⟩
  | .qmgSharedSize => ⟨.qmg, 0x200008, 0, 1, 0, 1, [⟨16, 0, .ro, .any⟩]⟩
  | .qmgSharedUsed => ⟨.qmg, 0x20000C, 0, 1, 0, 1, [⟨16, 0, .ro, .any⟩]⟩
  | .qmgSharedHwm => ⟨.qmg, 0x200010, 0, 1, 0, 1, [⟨16, 0, .rw, .any⟩]⟩
  | .qmgLoadResult => ⟨.qmg, 0x200080, 0, 1, 0, 1, [⟨31, 31, .ro, .any⟩, ⟨23, 8, .ro, .any⟩, ⟨7, 0, .ro, .any⟩]⟩
  | .qmgPortLim => ⟨.qmg, 0x200100, 4, 18, 0, 1, [⟨31, 31, .rw, .any⟩, ⟨16, 0, .rw, .rng 8 65536⟩]⟩
  | .qmgPortUsed => ⟨.qmg, 0x200180, 4, 18, 0, 1, [⟨16, 0, .ro, .any⟩]⟩
  | .qmgPortHwm => ⟨.qmg, 0x200200, 4, 18, 0, 1, [⟨16, 0, .rw, .any⟩]⟩
  | .qmgClassMap => ⟨.qmg, 0x200400, 4, 18, 0, 1, [⟨23, 0, .rw, .any⟩]⟩
  | .qmgQLim => ⟨.qmg, 0x201000, 16, 144, 0, 1, [⟨31, 16, .rw, .rng 8 65535⟩, ⟨15, 0, .rw, .any⟩]⟩
  | .qmgQCol => ⟨.qmg, 0x201004, 16, 144, 0, 1, [⟨31, 16, .rw, .any⟩, ⟨15, 0, .rw, .any⟩]⟩
  | .qmgQCtrl => ⟨.qmg, 0x201008, 16, 144, 0, 1, [⟨31, 31, .roc, .any⟩, ⟨30, 30, .rw, .any⟩, ⟨29, 24, .roc, .any⟩, ⟨22, 20, .roc, .any⟩, ⟨13, 0, .rw, .any⟩]⟩
  | .qmgQStat => ⟨.qmg, 0x20100C, 16, 144, 0, 1, [⟨31, 16, .ro, .any⟩, ⟨15, 0, .ro, .any⟩]⟩
  | .qmgSLim => ⟨.qmg, 0x202000, 16, 1024, 0, 1, [⟨31, 16, .rw, .rng 8 65535⟩, ⟨15, 0, .rw, .any⟩]⟩
  | .qmgSCol => ⟨.qmg, 0x202004, 16, 1024, 0, 1, [⟨31, 16, .rw, .any⟩, ⟨15, 0, .rw, .any⟩]⟩
  | .qmgSCtrl => ⟨.qmg, 0x202008, 16, 1024, 0, 1, [⟨31, 31, .rw, .any⟩, ⟨30, 30, .rw, .any⟩, ⟨29, 24, .rw, .any⟩, ⟨22, 20, .rw, .any⟩, ⟨13, 0, .rw, .any⟩]⟩
  | .qmgSStat => ⟨.qmg, 0x20200C, 16, 1024, 0, 1, [⟨31, 16, .ro, .any⟩, ⟨15, 0, .ro, .any⟩]⟩
  | .schPortCfg => ⟨.sch, 0x240000, 4, 18, 0, 1, [⟨18, 16, .rw, .any⟩, ⟨14, 12, .rw, .any⟩, ⟨8, 8, .rw, .any⟩, ⟨7, 0, .rw, .srng 8 (-32) 63⟩]⟩
  | .schTbRate => ⟨.sch, 0x241000, 32, 144, 0, 1, [⟨31, 31, .rw, .any⟩, ⟨23, 0, .rw, .any⟩]⟩
  | .schSTbRate => ⟨.sch, 0x244000, 16, 1024, 0, 1, [⟨31, 31, .rw, .any⟩, ⟨23, 0, .rw, .any⟩]⟩
  | .schTbDepth => ⟨.sch, 0x241004, 32, 144, 0, 1, [⟨19, 0, .rw, .any⟩]⟩
  | .schSTbDepth => ⟨.sch, 0x244004, 16, 1024, 0, 1, [⟨19, 0, .rw, .any⟩]⟩
  | .schTbLevel => ⟨.sch, 0x241008, 32, 144, 0, 1, [⟨31, 0, .ro, .any⟩]⟩
  | .schSTbLevel => ⟨.sch, 0x244008, 16, 1024, 0, 1, [⟨31, 0, .ro, .any⟩]⟩
  | .schCbsSlope => ⟨.sch, 0x24100C, 32, 144, 0, 1, [⟨31, 31, .rw, .any⟩, ⟨23, 0, .rw, .any⟩]⟩
  | .schCbsHi => ⟨.sch, 0x241010, 32, 144, 0, 1, [⟨19, 0, .rw, .any⟩]⟩
  | .schCbsCredit => ⟨.sch, 0x241014, 32, 144, 0, 1, [⟨31, 0, .ro, .any⟩]⟩
  | .schWfqW => ⟨.sch, 0x241018, 32, 144, 0, 1, [⟨9, 0, .rw, .rng 1 1023⟩]⟩
  | .schMaxwait => ⟨.sch, 0x24101C, 32, 144, 0, 1, [⟨31, 31, .ro, .any⟩, ⟨15, 0, .rw, .any⟩]⟩
  | .mtrCtrl => ⟨.sch, 0x250000, 64, 2048, 0, 1, [⟨31, 31, .rw, .any⟩, ⟨30, 30, .rw, .any⟩, ⟨29, 29, .rw, .any⟩, ⟨28, 28, .rw, .any⟩, ⟨27, 27, .w1c, .any⟩, ⟨26, 25, .rw, .rng 0 2⟩, ⟨24, 24, .rw, .any⟩, ⟨23, 23, .rw, .any⟩, ⟨22, 20, .rw, .any⟩, ⟨19, 17, .rw, .any⟩]⟩
  | .mtrCir => ⟨.sch, 0x250004, 64, 2048, 0, 1, [⟨23, 0, .rw, .any⟩]⟩
  | .mtrPir => ⟨.sch, 0x250008, 64, 2048, 0, 1, [⟨23, 0, .rw, .any⟩]⟩
  | .mtrCbs => ⟨.sch, 0x25000C, 64, 2048, 0, 1, [⟨19, 0, .rw, .any⟩]⟩
  | .mtrEbs => ⟨.sch, 0x250010, 64, 2048, 0, 1, [⟨19, 0, .rw, .any⟩]⟩
  | .mtrCLevel => ⟨.sch, 0x250014, 64, 2048, 0, 1, [⟨31, 0, .ro, .any⟩]⟩
  | .mtrELevel => ⟨.sch, 0x250018, 64, 2048, 0, 1, [⟨31, 0, .ro, .any⟩]⟩
  | .schGateCfg => ⟨.sch, 0x270000, 64, 256, 0, 1, [⟨31, 31, .rw, .any⟩, ⟨30, 30, .rws, .any⟩, ⟨29, 29, .rw, .any⟩, ⟨28, 28, .rw, .any⟩, ⟨27, 27, .w1c, .any⟩, ⟨26, 26, .w1c, .any⟩, ⟨25, 24, .rw, .any⟩]⟩
  | .schGateList => ⟨.sch, 0x270004, 64, 256, 0, 1, [⟨27, 16, .rw, .any⟩, ⟨11, 0, .rw, .any⟩]⟩
  | .schGateCycle => ⟨.sch, 0x270008, 64, 256, 0, 1, [⟨31, 0, .rw, .any⟩]⟩
  | .schGateBase => ⟨.sch, 0x27000C, 64, 256, 4, 3, [⟨31, 0, .rw, .any⟩]⟩
  | .schGateOper => ⟨.sch, 0x270018, 64, 256, 0, 1, [⟨31, 30, .ro, .any⟩, ⟨27, 16, .ro, .any⟩, ⟨11, 0, .ro, .any⟩]⟩
  | .schGateAdmin0 => ⟨.sch, 0x274000, 8, 2048, 0, 1, [⟨31, 31, .rw, .any⟩, ⟨30, 0, .rw, .any⟩]⟩
  | .schGateAdmin1 => ⟨.sch, 0x274004, 8, 2048, 0, 1, [⟨31, 0, .rw, .any⟩]⟩
  | .schGateOper0 => ⟨.sch, 0x278000, 8, 2048, 0, 1, [⟨31, 31, .ro, .any⟩, ⟨30, 0, .ro, .any⟩]⟩
  | .schGateOper1 => ⟨.sch, 0x278004, 8, 2048, 0, 1, [⟨31, 0, .ro, .any⟩]⟩
  | .tgaCfg => ⟨.tga, 0x280000, 256, 16, 0, 1, [⟨31, 31, .rw, .any⟩, ⟨30, 30, .rws, .any⟩, ⟨29, 29, .rws, .any⟩, ⟨25, 24, .rw, .any⟩, ⟨23, 16, .rw, .any⟩]⟩
  | .tgaAdminBase => ⟨.tga, 0x280004, 256, 16, 4, 3, [⟨31, 0, .rw, .any⟩]⟩
  | .tgaAdminCycle => ⟨.tga, 0x280010, 256, 16, 0, 1, [⟨31, 0, .rw, .any⟩]⟩
  | .tgaAdminExt => ⟨.tga, 0x280014, 256, 16, 0, 1, [⟨31, 0, .rw, .any⟩]⟩
  | .tgaAdminLen => ⟨.tga, 0x280018, 256, 16, 0, 1, [⟨10, 0, .rw, .any⟩]⟩
  | .tgaOperBase => ⟨.tga, 0x280020, 256, 16, 4, 3, [⟨31, 0, .ro, .any⟩]⟩
  | .tgaOperCycle => ⟨.tga, 0x28002C, 256, 16, 0, 1, [⟨31, 0, .ro, .any⟩]⟩
  | .tgaOperExt => ⟨.tga, 0x280030, 256, 16, 0, 1, [⟨31, 0, .ro, .any⟩]⟩
  | .tgaOperLen => ⟨.tga, 0x280034, 256, 16, 0, 1, [⟨10, 0, .ro, .any⟩]⟩
  | .tgaChangeTime => ⟨.tga, 0x280038, 256, 16, 4, 3, [⟨31, 0, .ro, .any⟩]⟩
  | .tgaStat => ⟨.tga, 0x280044, 256, 16, 0, 1, [⟨31, 31, .ro, .any⟩, ⟨30, 30, .ro, .any⟩, ⟨29, 29, .w1c, .any⟩, ⟨28, 28, .ro, .any⟩, ⟨27, 27, .w1c, .any⟩, ⟨25, 24, .ro, .any⟩, ⟨23, 16, .ro, .any⟩, ⟨9, 0, .ro, .any⟩]⟩
  | .tgaPreemptCfg => ⟨.tga, 0x280050, 256, 16, 0, 1, [⟨31, 31, .rw, .any⟩, ⟨30, 30, .rw, .any⟩, ⟨29, 28, .rw, .any⟩, ⟨23, 16, .rw, .rng 1 128⟩, ⟨7, 0, .rw, .any⟩]⟩
  | .tgaPreemptStat => ⟨.tga, 0x280054, 256, 16, 0, 1, [⟨31, 31, .ro, .any⟩, ⟨30, 28, .ro, .any⟩]⟩
  | .tgaLoadResult => ⟨.tga, 0x281000, 0, 1, 0, 1, [⟨31, 31, .ro, .any⟩, ⟨23, 8, .ro, .any⟩, ⟨7, 0, .ro, .any⟩]⟩
  | .tgaAdminEntry => ⟨.tga, 0x290000, 4096, 16, 4, 1024, [⟨31, 24, .rw, .any⟩, ⟨23, 0, .rw, .any⟩]⟩
  | .tgaOperEntry => ⟨.tga, 0x2A0000, 4096, 16, 4, 1024, [⟨31, 24, .ro, .any⟩, ⟨23, 0, .ro, .any⟩]⟩
  | .timCtrl => ⟨.tim, 0x2C0000, 0, 1, 0, 1, [⟨31, 31, .rws, .any⟩]⟩
  | .timStat => ⟨.tim, 0x2C0004, 0, 1, 0, 1, [⟨31, 31, .w1c, .any⟩]⟩
  | .timStandbyDur => ⟨.tim, 0x2C0008, 0, 1, 0, 1, [⟨31, 0, .ro, .any⟩]⟩
  | .timLt => ⟨.tim, 0x2C0010, 4, 2, 0, 1, [⟨31, 0, .ro, .any⟩]⟩
  | .timSnapLt => ⟨.tim, 0x2C0020, 4, 2, 0, 1, [⟨31, 0, .ro, .any⟩]⟩
  | .timSnapDom => ⟨.tim, 0x2C0030, 16, 4, 4, 3, [⟨31, 0, .ro, .any⟩]⟩
  | .timDomCfg => ⟨.tim, 0x2C0100, 64, 4, 0, 1, [⟨31, 31, .rw, .any⟩, ⟨7, 0, .rw, .rng 0 127⟩]⟩
  | .timDomFreq => ⟨.tim, 0x2C0104, 64, 4, 0, 1, [⟨31, 0, .rw, .srng 32 (-1024000000) 1024000000⟩]⟩
  | .timDomTime => ⟨.tim, 0x2C0108, 64, 4, 4, 3, [⟨31, 0, .ro, .any⟩]⟩
  | .timDomSet => ⟨.tim, 0x2C0114, 64, 4, 4, 3, [⟨31, 0, .rw, .any⟩]⟩
  | .timDomStep => ⟨.tim, 0x2C0120, 64, 4, 4, 2, [⟨31, 0, .rw, .any⟩]⟩
  | .timDomSlew => ⟨.tim, 0x2C0128, 64, 4, 0, 1, [⟨31, 0, .wo, .any⟩]⟩
  | .timDomSlewCfg => ⟨.tim, 0x2C012C, 64, 4, 0, 1, [⟨9, 0, .rw, .rng 1 1000⟩]⟩
  | .timDomStat => ⟨.tim, 0x2C0130, 64, 4, 0, 1, [⟨31, 31, .ro, .any⟩, ⟨15, 0, .ro, .any⟩]⟩
  | .timDomSlewRem => ⟨.tim, 0x2C0134, 64, 4, 0, 1, [⟨31, 0, .ro, .any⟩]⟩
  | .timPortCfg => ⟨.tim, 0x2C1000, 256, 16, 0, 1, [⟨31, 31, .rw, .any⟩, ⟨1, 0, .rw, .any⟩]⟩
  | .timTxtsStat => ⟨.tim, 0x2C1004, 256, 16, 0, 1, [⟨4, 0, .ro, .any⟩]⟩
  | .timTxtsPop => ⟨.tim, 0x2C1008, 256, 16, 0, 1, [⟨0, 0, .wo, .any⟩]⟩
  | .timLatTx => ⟨.tim, 0x2C1010, 256, 16, 8, 3, [⟨31, 0, .rw, .any⟩]⟩
  | .timLatRx => ⟨.tim, 0x2C1014, 256, 16, 8, 3, [⟨31, 0, .rw, .any⟩]⟩
  | .timTxtsHead => ⟨.tim, 0x2C1040, 256, 16, 4, 8, [⟨31, 0, .ro, .any⟩]⟩
  | .timTscCfg => ⟨.tim, 0x2C2000, 128, 8, 0, 1, [⟨31, 31, .rw, .any⟩, ⟨30, 29, .rw, .rng 1 3⟩, ⟨27, 26, .rw, .any⟩]⟩
  | .timTscStorm => ⟨.tim, 0x2C2004, 128, 8, 0, 1, [⟨31, 16, .rw, .any⟩, ⟨15, 0, .rw, .rng 1 65535⟩]⟩
  | .timTscStat => ⟨.tim, 0x2C2008, 128, 8, 0, 1, [⟨31, 31, .w1c, .any⟩, ⟨4, 0, .ro, .any⟩]⟩
  | .timTscPop => ⟨.tim, 0x2C200C, 128, 8, 0, 1, [⟨0, 0, .wo, .any⟩]⟩
  | .timTscHead => ⟨.tim, 0x2C2020, 128, 8, 4, 8, [⟨31, 0, .ro, .any⟩]⟩
  | .timPpsCfg => ⟨.tim, 0x2C3000, 64, 2, 0, 1, [⟨31, 31, .rw, .any⟩, ⟨30, 30, .rws, .any⟩, ⟨29, 29, .rw, .any⟩, ⟨28, 27, .rw, .any⟩]⟩
  | .timPpsStart => ⟨.tim, 0x2C3004, 64, 2, 4, 3, [⟨31, 0, .rw, .any⟩]⟩
  | .timPpsPeriod => ⟨.tim, 0x2C3010, 64, 2, 0, 1, [⟨31, 0, .rw, .any⟩]⟩
  | .timPpsWidth => ⟨.tim, 0x2C3014, 64, 2, 0, 1, [⟨31, 0, .rw, .any⟩]⟩
  | .timPpsStat => ⟨.tim, 0x2C3018, 64, 2, 0, 1, [⟨31, 31, .ro, .any⟩, ⟨30, 30, .w1c, .any⟩]⟩
  | .canCtrl => ⟨.can, 0x300000, 2048, 16, 0, 1, [⟨31, 31, .rw, .any⟩, ⟨30, 29, .rw, .rng 0 2⟩, ⟨28, 28, .rw, .any⟩, ⟨27, 27, .rw, .any⟩, ⟨26, 26, .rw, .any⟩, ⟨25, 25, .rw, .any⟩, ⟨23, 23, .rw, .any⟩, ⟨22, 22, .rw, .any⟩, ⟨21, 21, .rw, .any⟩]⟩
  | .canNbt => ⟨.can, 0x300004, 2048, 16, 0, 1, [⟨31, 26, .rw, .rng 1 32⟩, ⟨25, 17, .rw, .rng 2 256⟩, ⟨16, 9, .rw, .rng 2 128⟩, ⟨7, 0, .rw, .rng 1 255⟩]⟩
  | .canDbt => ⟨.can, 0x300008, 2048, 16, 0, 1, [⟨31, 26, .rw, .rng 1 32⟩, ⟨23, 16, .rw, .rng 2 64⟩, ⟨12, 8, .rw, .rng 2 16⟩, ⟨4, 0, .rw, .rng 1 31⟩]⟩
  | .canXbt => ⟨.can, 0x30000C, 2048, 16, 0, 1, [⟨31, 26, .rw, .rng 1 32⟩, ⟨23, 16, .rw, .rng 2 64⟩, ⟨12, 8, .rw, .rng 2 16⟩, ⟨4, 0, .rw, .rng 1 31⟩]⟩
  | .canTdc => ⟨.can, 0x300010, 2048, 16, 0, 1, [⟨31, 31, .rw, .any⟩, ⟨23, 16, .rw, .any⟩, ⟨15, 8, .ro, .any⟩, ⟨7, 0, .rw, .any⟩]⟩
  | .canPwm => ⟨.can, 0x300014, 2048, 16, 0, 1, [⟨23, 16, .rw, .any⟩, ⟨15, 8, .rw, .rng 1 63⟩, ⟨7, 0, .rw, .rng 1 63⟩]⟩
  | .canTxCfg => ⟨.can, 0x300018, 2048, 16, 0, 1, [⟨15, 0, .rw, .any⟩]⟩
  | .canBoCfg => ⟨.can, 0x30001C, 2048, 16, 0, 1, [⟨31, 31, .rws, .any⟩, ⟨15, 0, .rw, .any⟩]⟩
  | .canStat => ⟨.can, 0x300020, 2048, 16, 0, 1, [⟨31, 30, .ro, .any⟩, ⟨29, 29, .ro, .any⟩, ⟨23, 16, .ro, .any⟩, ⟨15, 8, .ro, .any⟩, ⟨6, 0, .ro, .any⟩]⟩
  | .canLpfCfg => ⟨.can, 0x300040, 2048, 16, 0, 1, [⟨31, 31, .rw, .any⟩, ⟨30, 30, .rw, .any⟩, ⟨29, 29, .rw, .any⟩, ⟨28, 0, .rw, .any⟩]⟩
  | .canLpfMask => ⟨.can, 0x300044, 2048, 16, 0, 1, [⟨28, 0, .rw, .any⟩]⟩
  | .canLpfDataLo => ⟨.can, 0x300048, 2048, 16, 0, 1, [⟨31, 0, .rw, .any⟩]⟩
  | .canLpfDataHi => ⟨.can, 0x30004C, 2048, 16, 0, 1, [⟨31, 0, .rw, .any⟩]⟩
  | .canLpfCtl => ⟨.can, 0x300050, 2048, 16, 0, 1, [⟨27, 24, .rw, .rng 0 8⟩, ⟨20, 16, .rw, .any⟩, ⟨13, 12, .rw, .any⟩]⟩
  | .canLpfStat => ⟨.can, 0x300054, 2048, 16, 0, 1, [⟨31, 31, .w1c, .any⟩, ⟨30, 30, .w1c, .any⟩, ⟨29, 29, .w1c, .any⟩, ⟨4, 0, .ro, .any⟩]⟩
  | .canLoadResult => ⟨.can, 0x308000, 0, 1, 0, 1, [⟨31, 31, .ro, .any⟩, ⟨23, 8, .ro, .any⟩, ⟨7, 0, .ro, .any⟩]⟩
  | .linCtrl => ⟨.lin, 0x340000, 4096, 8, 0, 1, [⟨31, 31, .rw, .any⟩, ⟨30, 30, .rw, .any⟩, ⟨29, 29, .rw, .any⟩, ⟨28, 24, .rw, .rng 13 26⟩, ⟨23, 22, .rw, .any⟩, ⟨15, 0, .rw, .rng 1000 20000⟩]⟩
  | .linSched => ⟨.lin, 0x340004, 4096, 8, 0, 1, [⟨31, 31, .rws, .any⟩, ⟨10, 8, .ro, .any⟩, ⟨2, 0, .rw, .any⟩]⟩
  | .linStat => ⟨.lin, 0x340008, 4096, 8, 0, 1, [⟨31, 30, .ro, .any⟩, ⟨23, 16, .ro, .any⟩, ⟨15, 8, .ro, .any⟩]⟩
  | .linTable => ⟨.lin, 0x340020, 4096, 8, 4, 8, [⟨31, 31, .rw, .any⟩, ⟨22, 16, .rw, .any⟩, ⟨7, 0, .rw, .rng 1 128⟩]⟩
  | .linFrame => ⟨.lin, 0x340100, 4096, 8, 4, 64, [⟨31, 30, .rw, .rng 0 2⟩, ⟨29, 29, .rw, .any⟩, ⟨28, 28, .rw, .any⟩, ⟨27, 24, .rw, .any⟩, ⟨3, 0, .rw, .rng 1 8⟩]⟩
  | .linSlot => ⟨.lin, 0x340400, 4096, 8, 4, 128, [⟨31, 30, .rw, .rng 0 2⟩, ⟨29, 24, .rw, .any⟩, ⟨23, 20, .rw, .any⟩, ⟨15, 0, .rw, .any⟩]⟩
  | .tssPhyCfg => ⟨.tss, 0x360000, 4096, 2, 0, 1, [⟨31, 31, .rw, .any⟩, ⟨30, 30, .rw, .any⟩]⟩
  | .tssPlcaCtrl => ⟨.tss, 0x360004, 4096, 2, 0, 1, [⟨31, 31, .rw, .any⟩, ⟨15, 8, .rw, .rng 0 254⟩, ⟨7, 0, .rw, .rng 1 255⟩]⟩
  | .tssPlcaTmr => ⟨.tss, 0x360008, 4096, 2, 0, 1, [⟨31, 24, .rw, .rng 1 255⟩, ⟨23, 16, .rw, .any⟩, ⟨15, 8, .rw, .rng 1 255⟩]⟩
  | .tssPlcaStat => ⟨.tss, 0x36000C, 4096, 2, 0, 1, [⟨31, 31, .ro, .any⟩]⟩
  | .cipArbCfg => ⟨.cip, 0x380000, 0, 1, 0, 1, [⟨23, 16, .rw, .rng 1 255⟩, ⟨15, 8, .rw, .rng 1 255⟩, ⟨7, 0, .rw, .rng 1 255⟩]⟩
  | .cipCtxSplit => ⟨.cip, 0x380004, 0, 1, 0, 1, [⟨25, 16, .rw, .any⟩, ⟨9, 0, .rw, .any⟩]⟩
  | .cipTrngStat => ⟨.cip, 0x380010, 0, 1, 0, 1, [⟨31, 31, .ro, .any⟩, ⟨30, 30, .w1c, .any⟩]⟩
  | .cipVbStat => ⟨.cip, 0x380020, 0, 1, 0, 1, [⟨28, 16, .rw, .any⟩, ⟨12, 0, .ro, .any⟩]⟩
  | .cipJobCmd => ⟨.cip, 0x380100, 0, 1, 0, 1, [⟨31, 31, .rws, .any⟩, ⟨27, 24, .rw, .any⟩, ⟨23, 16, .rw, .any⟩, ⟨9, 0, .rw, .any⟩]⟩
  | .cipJobArg => ⟨.cip, 0x380104, 0, 1, 0, 1, [⟨31, 24, .rw, .any⟩, ⟨13, 13, .rw, .any⟩, ⟨12, 0, .rw, .any⟩]⟩
  | .cipJobStat => ⟨.cip, 0x380108, 0, 1, 0, 1, [⟨31, 28, .ro, .any⟩]⟩
  | .cipKcmd => ⟨.cip, 0x380200, 0, 1, 0, 1, [⟨31, 31, .rws, .any⟩, ⟨27, 24, .rw, .any⟩, ⟨23, 16, .rw, .any⟩, ⟨15, 15, .rw, .any⟩, ⟨9, 0, .rw, .any⟩]⟩
  | .cipKcmdStat => ⟨.cip, 0x380204, 0, 1, 0, 1, [⟨31, 28, .ro, .any⟩]⟩
  | .cipBypassEt => ⟨.cip, 0x380030, 4, 4, 0, 1, [⟨15, 0, .rw, .any⟩]⟩
  | .cipLoadResult => ⟨.cip, 0x380180, 0, 1, 0, 1, [⟨31, 31, .ro, .any⟩, ⟨23, 8, .ro, .any⟩, ⟨7, 0, .ro, .any⟩]⟩
  | .cipSecyCfg => ⟨.cip, 0x381000, 256, 18, 0, 1, [⟨31, 31, .rw, .any⟩, ⟨30, 30, .rw, .any⟩, ⟨29, 29, .rw, .any⟩, ⟨28, 27, .rw, .rng 0 2⟩, ⟨26, 26, .rw, .any⟩, ⟨25, 25, .rw, .any⟩, ⟨24, 24, .rw, .any⟩, ⟨23, 23, .rw, .any⟩, ⟨22, 22, .rw, .any⟩, ⟨21, 20, .rw, .any⟩, ⟨19, 19, .rw, .any⟩, ⟨18, 18, .rw, .any⟩, ⟨17, 14, .rw, .any⟩]⟩
  | .cipSecyRwin => ⟨.cip, 0x381004, 256, 18, 0, 1, [⟨29, 0, .rw, .any⟩]⟩
  | .cipTxsci => ⟨.cip, 0x381008, 256, 18, 4, 2, [⟨31, 0, .rw, .any⟩]⟩
  | .cipTxscCtrl => ⟨.cip, 0x381010, 256, 18, 0, 1, [⟨1, 0, .rw, .any⟩]⟩
  | .cipSecyPnthr => ⟨.cip, 0x381018, 256, 18, 4, 2, [⟨31, 0, .rw, .any⟩]⟩
  | .cipTxSa0 => ⟨.cip, 0x384000, 32, 72, 0, 1, [⟨31, 31, .rw, .any⟩, ⟨30, 30, .ro, .any⟩]⟩
  | .cipTxSaSsci => ⟨.cip, 0x384004, 32, 72, 0, 1, [⟨31, 0, .rw, .any⟩]⟩
  | .cipTxSaSalt => ⟨.cip, 0x384008, 32, 72, 4, 3, [⟨31, 0, .rw, .any⟩]⟩
  | .cipTxSaNextPn => ⟨.cip, 0x384018, 32, 72, 4, 2, [⟨31, 0, .rw, .any⟩]⟩
  | .cipRxSa0 => ⟨.cip, 0x388000, 32, 1024, 0, 1, [⟨31, 31, .rw, .any⟩, ⟨30, 30, .ro, .any⟩]⟩
  | .cipRxSaSsci => ⟨.cip, 0x388004, 32, 1024, 0, 1, [⟨31, 0, .rw, .any⟩]⟩
  | .cipRxSaSalt => ⟨.cip, 0x388008, 32, 1024, 4, 3, [⟨31, 0, .rw, .any⟩]⟩
  | .cipRxSaNextPn => ⟨.cip, 0x388018, 32, 1024, 4, 2, [⟨31, 0, .rw, .any⟩]⟩
  | .cipRxSc0 => ⟨.cip, 0x386000, 16, 256, 0, 1, [⟨31, 31, .rw, .any⟩, ⟨30, 25, .rw, .any⟩]⟩
  | .cipRxScSci => ⟨.cip, 0x386004, 16, 256, 4, 2, [⟨31, 0, .rw, .any⟩]⟩
  | .keyLcStat => ⟨.key, 0x3C0000, 0, 1, 0, 1, [⟨28, 28, .ro, .any⟩, ⟨25, 24, .ro, .any⟩, ⟨3, 0, .ro, .any⟩]⟩
  | .keyLcCtr => ⟨.key, 0x3C0004, 0, 1, 0, 1, [⟨31, 0, .ro, .any⟩]⟩
  | .keyAttCtr => ⟨.key, 0x3C0008, 0, 1, 0, 1, [⟨31, 0, .ro, .any⟩]⟩
  | .keyUid => ⟨.key, 0x3C0010, 4, 4, 0, 1, [⟨31, 0, .roc, .any⟩]⟩
  | .keyCmd => ⟨.key, 0x3C0100, 0, 1, 0, 1, [⟨31, 31, .rws, .any⟩, ⟨27, 24, .rw, .any⟩, ⟨8, 0, .rw, .any⟩]⟩
  | .keyCmdStat => ⟨.key, 0x3C0104, 0, 1, 0, 1, [⟨31, 28, .ro, .any⟩, ⟨7, 0, .ro, .any⟩]⟩
  | .keySlotSel => ⟨.key, 0x3C0110, 0, 1, 0, 1, [⟨7, 0, .rw, .any⟩]⟩
  | .keySlotAttr => ⟨.key, 0x3C0114, 0, 1, 0, 1, [⟨31, 31, .ro, .any⟩, ⟨30, 30, .ro, .any⟩, ⟨29, 29, .ro, .any⟩, ⟨28, 28, .ro, .any⟩, ⟨23, 16, .ro, .any⟩, ⟨12, 12, .ro, .any⟩, ⟨11, 11, .ro, .any⟩, ⟨10, 10, .ro, .any⟩, ⟨9, 9, .ro, .any⟩, ⟨8, 8, .ro, .any⟩, ⟨6, 6, .ro, .any⟩, ⟨5, 5, .ro, .any⟩, ⟨4, 4, .ro, .any⟩, ⟨3, 3, .ro, .any⟩, ⟨2, 2, .ro, .any⟩, ⟨1, 1, .ro, .any⟩, ⟨0, 0, .ro, .any⟩, ⟨31, 0, .ro, .any⟩]⟩
  | .keySlotCtr => ⟨.key, 0x3C0118, 0, 1, 0, 1, [⟨31, 0, .ro, .any⟩]⟩
  | .keySlotGen => ⟨.key, 0x3C011C, 0, 1, 0, 1, [⟨31, 0, .ro, .any⟩]⟩
  | .keySlotStat => ⟨.key, 0x3C0120, 0, 1, 0, 1, [⟨31, 31, .ro, .any⟩, ⟨30, 30, .ro, .any⟩, ⟨1, 0, .ro, .any⟩]⟩
  | .redCfg => ⟨.red, 0x400000, 0, 1, 0, 1, [⟨31, 31, .rw, .any⟩, ⟨30, 30, .rw, .any⟩, ⟨29, 29, .rw, .any⟩, ⟨15, 0, .rw, .rng 0 60000⟩]⟩
  | .redHbCfg => ⟨.red, 0x400004, 0, 1, 0, 1, [⟨31, 24, .rw, .rng 1 100⟩, ⟨23, 12, .rw, .rng 2 500⟩, ⟨11, 0, .rw, .rng 100 998⟩]⟩
  | .redHbKick => ⟨.red, 0x400008, 0, 1, 0, 1, [⟨0, 0, .wo, .any⟩]⟩
  | .redStat => ⟨.red, 0x40000C, 0, 1, 0, 1, [⟨31, 29, .ro, .any⟩, ⟨28, 28, .ro, .any⟩, ⟨27, 27, .ro, .any⟩, ⟨26, 26, .ro, .any⟩, ⟨25, 25, .ro, .any⟩, ⟨24, 24, .ro, .any⟩, ⟨22, 20, .ro, .any⟩]⟩
  | .redSeqSkip => ⟨.red, 0x400010, 0, 1, 0, 1, [⟨6, 0, .rw, .rng 0 63⟩]⟩
  | .redPartnerUid => ⟨.red, 0x400020, 4, 4, 0, 1, [⟨31, 0, .ro, .any⟩]⟩
  | .redLoadResult => ⟨.red, 0x400180, 0, 1, 0, 1, [⟨31, 31, .ro, .any⟩, ⟨23, 8, .ro, .any⟩, ⟨7, 0, .ro, .any⟩]⟩
  | .memScrubCfg => ⟨.mem, 0x440000, 0, 1, 0, 1, [⟨31, 31, .rw, .any⟩, ⟨15, 0, .rw, .rng 100 60000⟩]⟩
  | .memScrubStat => ⟨.mem, 0x440004, 0, 1, 0, 1, [⟨31, 31, .w1c, .any⟩, ⟨15, 0, .ro, .any⟩]⟩
  | .memCeLog0 => ⟨.mem, 0x440010, 0, 1, 0, 1, [⟨31, 31, .w1c, .any⟩, ⟨30, 28, .ro, .any⟩, ⟨27, 22, .ro, .any⟩, ⟨21, 16, .ro, .any⟩, ⟨15, 8, .ro, .any⟩, ⟨7, 4, .ro, .any⟩]⟩
  | .memCeLog1 => ⟨.mem, 0x440014, 0, 1, 0, 1, [⟨23, 0, .ro, .any⟩]⟩
  | .memCeLogLt => ⟨.mem, 0x440018, 4, 2, 0, 1, [⟨31, 0, .ro, .any⟩]⟩
  | .memUeLog0 => ⟨.mem, 0x440020, 0, 1, 0, 1, [⟨31, 31, .w1c, .any⟩, ⟨30, 28, .ro, .any⟩, ⟨27, 22, .ro, .any⟩, ⟨21, 16, .ro, .any⟩, ⟨15, 8, .ro, .any⟩, ⟨7, 4, .ro, .any⟩]⟩
  | .memUeLog1 => ⟨.mem, 0x440024, 0, 1, 0, 1, [⟨23, 0, .ro, .any⟩]⟩
  | .memUeLogLt => ⟨.mem, 0x440028, 4, 2, 0, 1, [⟨31, 0, .ro, .any⟩]⟩
  | .memFlipCtrl => ⟨.mem, 0x440040, 0, 1, 0, 1, [⟨31, 31, .rws, .any⟩, ⟨30, 30, .rw, .any⟩, ⟨29, 29, .wo, .any⟩, ⟨27, 22, .rw, .any⟩, ⟨21, 16, .rw, .any⟩, ⟨15, 8, .rw, .any⟩]⟩
  | .memFlipAddr => ⟨.mem, 0x440044, 0, 1, 0, 1, [⟨23, 0, .rw, .any⟩]⟩
  | .memWeakLast0 => ⟨.mem, 0x440060, 0, 1, 0, 1, [⟨31, 31, .w1c, .any⟩, ⟨27, 22, .ro, .any⟩, ⟨21, 16, .ro, .any⟩]⟩
  | .memWeakLast1 => ⟨.mem, 0x440064, 0, 1, 0, 1, [⟨23, 0, .ro, .any⟩]⟩
  | .memRepairSel => ⟨.mem, 0x440070, 0, 1, 0, 1, [⟨5, 0, .rw, .any⟩]⟩
  | .memFlipD => ⟨.mem, 0x440048, 4, 2, 0, 1, [⟨31, 0, .rw, .any⟩]⟩
  | .memRepairStat => ⟨.mem, 0x440074, 0, 1, 0, 1, [⟨31, 24, .ro, .any⟩, ⟨23, 16, .ro, .any⟩, ⟨15, 8, .ro, .any⟩, ⟨7, 0, .ro, .any⟩]⟩
  | .memLoadResult => ⟨.mem, 0x440180, 0, 1, 0, 1, [⟨31, 31, .ro, .any⟩, ⟨23, 8, .ro, .any⟩, ⟨7, 0, .ro, .any⟩]⟩
  | .pwrCtrl => ⟨.pwr, 0x480000, 0, 1, 0, 1, [⟨31, 31, .rws, .any⟩, ⟨30, 30, .rw, .any⟩, ⟨29, 29, .rw, .any⟩, ⟨28, 28, .rws, .any⟩, ⟨27, 26, .rw, .rng 1 2⟩]⟩
  | .pwrStat => ⟨.pwr, 0x480004, 0, 1, 0, 1, [⟨31, 30, .ro, .any⟩, ⟨29, 29, .w1c, .any⟩, ⟨15, 0, .ro, .any⟩]⟩
  | .pwrWakeEn => ⟨.pwr, 0x480010, 0, 1, 0, 1, [⟨29, 29, .rw, .any⟩, ⟨27, 16, .rw, .any⟩, ⟨15, 0, .rw, .any⟩]⟩
  | .pwrWakeEn2 => ⟨.pwr, 0x480014, 0, 1, 0, 1, [⟨15, 12, .rw, .any⟩, ⟨11, 8, .rw, .any⟩, ⟨7, 0, .rw, .any⟩]⟩
  | .pwrWakeSrc => ⟨.pwr, 0x480018, 0, 1, 0, 1, [⟨31, 31, .w1c, .any⟩, ⟨30, 30, .ro, .any⟩, ⟨23, 16, .ro, .any⟩]⟩
  | .pwrTimer => ⟨.pwr, 0x480024, 0, 1, 0, 1, [⟨23, 0, .rw, .rng 1 16777215⟩]⟩
  | .pwrRingCfg => ⟨.pwr, 0x480040, 0, 1, 0, 1, [⟨29, 24, .rw, .rng 0 32⟩, ⟨23, 16, .rw, .rng 1 255⟩, ⟨15, 8, .rw, .rng 1 255⟩, ⟨7, 0, .rw, .any⟩]⟩
  | .pwrRingCfg1 => ⟨.pwr, 0x480044, 0, 1, 0, 1, [⟨31, 16, .rw, .rng 1 65535⟩, ⟨11, 0, .rw, .any⟩]⟩
  | .pwrEntryCfg => ⟨.pwr, 0x480048, 0, 1, 0, 1, [⟨15, 8, .rw, .rng 1 3⟩, ⟨7, 0, .rw, .rng 1 15⟩]⟩
  | .pwrInhCfg => ⟨.pwr, 0x480060, 0, 1, 0, 1, [⟨1, 1, .rw, .any⟩, ⟨0, 0, .ro, .any⟩]⟩
  | .pwrWakeoutCfg => ⟨.pwr, 0x480064, 0, 1, 0, 1, [⟨31, 31, .rw, .any⟩, ⟨23, 16, .rw, .rng 1 255⟩, ⟨4, 0, .rw, .any⟩]⟩
  | .pwrTc10Cfg => ⟨.pwr, 0x480070, 0, 1, 0, 1, [⟨27, 16, .rw, .any⟩, ⟨11, 0, .rw, .any⟩]⟩
  | .pwrFrStat => ⟨.pwr, 0x480074, 0, 1, 0, 1, [⟨27, 16, .ro, .any⟩, ⟨11, 0, .ro, .any⟩]⟩
  | .pwrWakeAll0 => ⟨.pwr, 0x48001C, 0, 1, 0, 1, [⟨29, 29, .w1c, .any⟩, ⟨27, 16, .w1c, .any⟩, ⟨15, 0, .w1c, .any⟩]⟩
  | .pwrWakeAll1 => ⟨.pwr, 0x480020, 0, 1, 0, 1, [⟨15, 12, .w1c, .any⟩, ⟨11, 8, .w1c, .any⟩, ⟨7, 0, .w1c, .any⟩]⟩
  | .pwrVetoLog0 => ⟨.pwr, 0x480050, 0, 1, 0, 1, [⟨31, 31, .w1c, .any⟩, ⟨23, 16, .ro, .any⟩, ⟨15, 8, .ro, .any⟩]⟩
  | .pwrVetoLog1 => ⟨.pwr, 0x480054, 0, 1, 0, 1, [⟨31, 16, .ro, .any⟩]⟩
  | .pwrVetoLogLt => ⟨.pwr, 0x480058, 4, 2, 0, 1, [⟨31, 0, .ro, .any⟩]⟩
  | .pwrLoadResult => ⟨.pwr, 0x480180, 0, 1, 0, 1, [⟨31, 31, .ro, .any⟩, ⟨23, 8, .ro, .any⟩, ⟨7, 0, .ro, .any⟩]⟩
  | .pwrMember0 => ⟨.pwr, 0x480400, 16, 32, 0, 1, [⟨31, 31, .rw, .any⟩, ⟨30, 30, .rw, .any⟩, ⟨29, 29, .rw, .any⟩, ⟨28, 28, .rw, .any⟩, ⟨27, 22, .rw, .any⟩]⟩
  | .pwrMember1 => ⟨.pwr, 0x480404, 16, 32, 0, 1, [⟨31, 0, .rw, .any⟩]⟩
  | .pwrMember2 => ⟨.pwr, 0x480408, 16, 32, 0, 1, [⟨31, 0, .rw, .any⟩]⟩
  | .pwrMember3 => ⟨.pwr, 0x48040C, 16, 32, 0, 1, [⟨31, 31, .ro, .any⟩, ⟨23, 16, .ro, .any⟩, ⟨15, 8, .ro, .any⟩]⟩

/-- The reset value of instance `i` of a register (the Reset columns of the field maps and of the index). -/
def Reg.resetNat (r : Reg) (i : Nat) : Nat :=
  match r with
  | .glbChipId => 0x96402020
  | .glbOpState => 0x00000001
  | .glbLsCfg => 0x00000064
  | .glbSafeCfg => 0x00000015
  | .evtRoute => if i = 34 then 0x48000000 else 0x40000000
  | .hbrSideband => 0x0000023F
  | .hbrAspiCfg0 => 0x00001300
  | .hbrAspiCfg1 => 0x02030500
  | .hbrTxRingCfg => 0x00040000
  | .hbrRxRingCfg => 0x00040800
  | .mqCfg => 0x40000004
  | .cfgBootStat => 0
  | .cfgBootCfg => 0x003C012C
  | .cfgEpoch => 0
  | .cfgBdcResult => 0x0FFF0000
  | .cfgBdcBound => 0xFFFFFFFF
  | .cfgSwapFenceLim => 0x000003E8
  | .nvsStoreCmd => 0x00070000
  | .nvsStoreLen => 0x00000008
  | .updStat => 0
  | .updIdle => 0
  | .updTrialCfg => 0x00000258
  | .macPortCfg => if i = 16 ∨ i = 17 then 0x80000000 else 0
  | .macFwdCtrl => if i = 16 then 0 else 3
  | .macMaxFrame => 0x000005F2
  | .macMdioCfg => 0x0000004F
  | .clsParseCfg => 0x91000000
  | .clsHashSeed => 0xFFFFFFFF
  | .clsDscpMap => i * 0x249249
  | .clsLoadResult => 0x00FFFF00
  | .clsCtTmo0 => 0x001E0078
  | .clsCtTmo1 => 0x1C2000B4
  | .clsCtTmo2 => 0x0258000A
  | .clsPrioCfg => if i < 18 then 1 else 0
  | .fdbHashSeed => 0xFFFFFFFF
  | .fdbAgeCfg => 0x0000012C
  | .fdbLearnCfg => 0x80019014
  | .fdbFlapCfg => 0x03E80004
  | .fdbFloodMask => 0x0003FFFF
  | .fdbLoadResult => 0x00FFFF00
  | .fdbPortCfg => 0x00CC0001
  | .skyStatus => 0xFFFFFFFF
  | .skyStealCfg => 0x80000804
  | .skyCellLim => 0x00002000
  | .skyLoadResult => 0x00FFFF00
  | .skyHomeMap => ((4 * i + 3) % 32) * 0x1000000 + ((4 * i + 2) % 32) * 0x10000 + ((4 * i + 1) % 32) * 0x100 + (4 * i) % 32
  | .hrbCfg => 0x1000C350
  | .qmgSharedSize => 0x0000DE00
  | .qmgLoadResult => 0x00FFFF00
  | .qmgPortLim => 0x00010000
  | .qmgClassMap => 0x00FAC688
  | .qmgQLim => 0x01000000
  | .qmgQCol => 0x01000000
  | .qmgQCtrl => 0x80000000 + (i / 8) * 0x1000000 + (i % 8) * 0x100000
  | .qmgSLim => 0x01000000
  | .qmgSCol => 0x01000000
  | .qmgSCtrl => 0
  | .schPortCfg => 0x00040014
  | .schWfqW => 0x00000001
  | .tgaCfg => 0x00FF0000
  | .tgaAdminCycle => 0x000F4240
  | .tgaAdminLen => 0x00000001
  | .tgaStat => 0x00FF0000
  | .tgaPreemptCfg => 0x000A00FF
  | .tgaLoadResult => 0x00FFFF00
  | .tgaAdminEntry => 0xFF0F4240
  | .timDomCfg => i
  | .timDomSlewCfg => 0x00000064
  | .timLatTx => latReset i true
  | .timLatRx => latReset i false
  | .timTscCfg => 0x20000000
  | .timTscStorm => 0x001003E8
  | .timPpsPeriod => 0x3B9ACA00
  | .timPpsWidth => 0x05F5E100
  | .canCtrl => 0x00C00000
  | .canNbt => 0x087E2010
  | .canDbt => 0x040E0505
  | .canXbt => 0x040E0505
  | .canBoCfg => 0x00000064
  | .canLpfMask => 0x1FFFFFFF
  | .canLpfCtl => 0x001F2000
  | .canLoadResult => 0x00FFFF00
  | .linCtrl => 0x0D004B00
  | .linFrame => 0x00000008
  | .linSlot => 0x00002710
  | .tssPlcaCtrl => 0x0000FF08
  | .tssPlcaTmr => 0x20008000
  | .cipArbCfg => 0x00080401
  | .cipCtxSplit => 0x02000300
  | .cipLoadResult => 0x00FFFF00
  | .cipSecyCfg => if secyPort i then 0x04CC0000 else 0
  | .cipSecyPnthr => if secyPort (i / 2) ∧ i % 2 = 0 then 0xC0000000 else 0
  | .cipTxSaNextPn => if i % 2 = 0 then 1 else 0
  | .cipRxSaNextPn => if i % 2 = 0 then 1 else 0
  | .keyLcStat => 0
  | .keyLcCtr => 0
  | .keyAttCtr => 0
  | .keyUid => 0
  | .keySlotAttr => 0
  | .keySlotCtr => 0
  | .keySlotGen => 0
  | .keySlotStat => 0
  | .redCfg => 0x200001F4
  | .redHbCfg => 0x020141F4
  | .redSeqSkip => 0x00000008
  | .redLoadResult => 0x00FFFF00
  | .memScrubCfg => 0x800003E8
  | .memRepairStat => 0
  | .memLoadResult => 0x00FFFF00
  | .pwrCtrl => 0x04000000
  | .pwrWakeEn => 0
  | .pwrWakeEn2 => 0
  | .pwrWakeSrc => 0
  | .pwrTimer => 0
  | .pwrRingCfg => 0x00140300
  | .pwrRingCfg1 => 0x003C0000
  | .pwrEntryCfg => 0x0000020A
  | .pwrInhCfg => 0x00000003
  | .pwrWakeoutCfg => 0x000A001F
  | .pwrFrStat => 0
  | .pwrLoadResult => 0x00FFFF00
  | _ => 0

/-- The registers of block GLB. -/
def regsOfGLB : List Reg :=
  [.glbChipId, .glbOpState, .glbLsCtrl, .glbLsStat, .glbLsCfg, .glbLsBist, .glbFaultRec, .glbFaultTime,
   .glbSafeCfg]

/-- The registers of block EVT. -/
def regsOfEVT : List Reg :=
  [.evtStat, .evtLogCfg, .evtRaise, .evtVecCfg, .evtRoute]

/-- The registers of block HBR. -/
def regsOfHBR : List Reg :=
  [.hbrPcieStat, .hbrPwSeq, .hbrPwFence, .hbrSideband, .hbrSidebandSeen, .hbrDmaCfg, .hbrPwLog0, .hbrPwLog1,
   .hbrPwLog2, .hbrPwLog3, .hbrPwLog4, .hbrPwLog5, .hbrPwLog6, .hbrPwLog7, .hbrAspiCfg0, .hbrAspiCfg1,
   .hbrAspiCfg2, .hbrPfLast, .hbrTxRingBase, .hbrTxRingCfg, .hbrTxRingHead, .hbrTxRingTail, .hbrRxRingBase, .hbrRxRingCfg,
   .hbrRxRingHead, .hbrRxRingTail]

/-- The registers of block MGT. -/
def regsOfMGT : List Reg :=
  [.mgtSpiCfg, .mqCfg, .mqStat, .mqCmd, .mqPop]

/-- The registers of block CFG. -/
def regsOfCFG : List Reg :=
  [.cfgBootStat, .cfgMinCause, .cfgBootCfg, .cfgRestart, .cfgShadowCtrl, .cfgLoadStat, .cfgSwapCtrl, .cfgSwapStat,
   .cfgEpoch, .cfgBdcResult, .cfgBdcQsel, .cfgBdcBound, .cfgBdcQattr, .cfgSwapFenced, .cfgSwapFenceLim, .cfgBootHist]

/-- The registers of block NVS. -/
def regsOfNVS : List Reg :=
  [.nvsStoreCmd, .nvsStoreLen, .nvsStoreStat]

/-- The registers of block UPD. -/
def regsOfUPD : List Reg :=
  [.updCmd, .updArg, .updStat, .updIdle, .updTrialCfg, .updVerify, .updDigest]

/-- The registers of block MAC. -/
def regsOfMAC : List Reg :=
  [.macPortCfg, .macPortStat, .macFwdCtrl, .macMaxFrame, .macMdioCfg, .macMdioCmd, .macMdioData]

/-- The registers of block CLS. -/
def regsOfCLS : List Reg :=
  [.clsParseCfg, .clsSomeipPort, .clsHashSeed, .clsDscpMap, .clsEntCmd, .clsEntIndex, .clsEntStat, .clsEntData,
   .clsLoadResult, .clsCtTmo0, .clsCtTmo1, .clsCtTmo2, .clsCtCount, .clsPrioCfg]

/-- The registers of block FDB. -/
def regsOfFDB : List Reg :=
  [.fdbGlbCfg, .fdbRmacLo, .fdbRmacHi, .fdbHashSeed, .fdbAgeCfg, .fdbLearnCfg, .fdbFlapCfg, .fdbStrReset,
   .fdbEntCmd, .fdbEntIndex, .fdbEntStat, .fdbFlushSel, .fdbFloodMask, .fdbFlapLast0, .fdbFlapLast1, .fdbFlapLast2,
   .fdbEntData, .fdbLoadResult, .fdbPortCfg, .fdbWinSel]

/-- The registers of block SKY. -/
def regsOfSKY : List Reg :=
  [.skyCtrl, .skyStatus, .skyFaultRec, .skyResvMask, .skyStealCfg, .skyCellLim, .skyCellUsed, .skyMqCfg,
   .skyLoadResult, .skyHomeMap]

/-- The registers of block HRB. -/
def regsOfHRB : List Reg :=
  [.hrbCfg, .hrbStatus, .hrbHwm]

/-- The registers of block QMG. -/
def regsOfQMG : List Reg :=
  [.qmgPoolUsed, .qmgPoolHwm, .qmgSharedSize, .qmgSharedUsed, .qmgSharedHwm, .qmgLoadResult, .qmgPortLim, .qmgPortUsed,
   .qmgPortHwm, .qmgClassMap, .qmgQLim, .qmgQCol, .qmgQCtrl, .qmgQStat, .qmgSLim, .qmgSCol,
   .qmgSCtrl, .qmgSStat]

/-- The registers of block SCH. -/
def regsOfSCH : List Reg :=
  [.schPortCfg, .schTbRate, .schSTbRate, .schTbDepth, .schSTbDepth, .schTbLevel, .schSTbLevel, .schCbsSlope,
   .schCbsHi, .schCbsCredit, .schWfqW, .schMaxwait, .mtrCtrl, .mtrCir, .mtrPir, .mtrCbs,
   .mtrEbs, .mtrCLevel, .mtrELevel, .schGateCfg, .schGateList, .schGateCycle, .schGateBase, .schGateOper,
   .schGateAdmin0, .schGateAdmin1, .schGateOper0, .schGateOper1]

/-- The registers of block TGA. -/
def regsOfTGA : List Reg :=
  [.tgaCfg, .tgaAdminBase, .tgaAdminCycle, .tgaAdminExt, .tgaAdminLen, .tgaOperBase, .tgaOperCycle, .tgaOperExt,
   .tgaOperLen, .tgaChangeTime, .tgaStat, .tgaPreemptCfg, .tgaPreemptStat, .tgaLoadResult, .tgaAdminEntry, .tgaOperEntry]

/-- The registers of block TIM. -/
def regsOfTIM : List Reg :=
  [.timCtrl, .timStat, .timStandbyDur, .timLt, .timSnapLt, .timSnapDom, .timDomCfg, .timDomFreq,
   .timDomTime, .timDomSet, .timDomStep, .timDomSlew, .timDomSlewCfg, .timDomStat, .timDomSlewRem, .timPortCfg,
   .timTxtsStat, .timTxtsPop, .timLatTx, .timLatRx, .timTxtsHead, .timTscCfg, .timTscStorm, .timTscStat,
   .timTscPop, .timTscHead, .timPpsCfg, .timPpsStart, .timPpsPeriod, .timPpsWidth, .timPpsStat]

/-- The registers of block CAN. -/
def regsOfCAN : List Reg :=
  [.canCtrl, .canNbt, .canDbt, .canXbt, .canTdc, .canPwm, .canTxCfg, .canBoCfg,
   .canStat, .canLpfCfg, .canLpfMask, .canLpfDataLo, .canLpfDataHi, .canLpfCtl, .canLpfStat, .canLoadResult]

/-- The registers of block LIN. -/
def regsOfLIN : List Reg :=
  [.linCtrl, .linSched, .linStat, .linTable, .linFrame, .linSlot]

/-- The registers of block TSS. -/
def regsOfTSS : List Reg :=
  [.tssPhyCfg, .tssPlcaCtrl, .tssPlcaTmr, .tssPlcaStat]

/-- The registers of block CIP. -/
def regsOfCIP : List Reg :=
  [.cipArbCfg, .cipCtxSplit, .cipTrngStat, .cipVbStat, .cipJobCmd, .cipJobArg, .cipJobStat, .cipKcmd,
   .cipKcmdStat, .cipBypassEt, .cipLoadResult, .cipSecyCfg, .cipSecyRwin, .cipTxsci, .cipTxscCtrl, .cipSecyPnthr,
   .cipTxSa0, .cipTxSaSsci, .cipTxSaSalt, .cipTxSaNextPn, .cipRxSa0, .cipRxSaSsci, .cipRxSaSalt, .cipRxSaNextPn,
   .cipRxSc0, .cipRxScSci]

/-- The registers of block KEY. -/
def regsOfKEY : List Reg :=
  [.keyLcStat, .keyLcCtr, .keyAttCtr, .keyUid, .keyCmd, .keyCmdStat, .keySlotSel, .keySlotAttr,
   .keySlotCtr, .keySlotGen, .keySlotStat]

/-- The registers of block RED. -/
def regsOfRED : List Reg :=
  [.redCfg, .redHbCfg, .redHbKick, .redStat, .redSeqSkip, .redPartnerUid, .redLoadResult]

/-- The registers of block MEM. -/
def regsOfMEM : List Reg :=
  [.memScrubCfg, .memScrubStat, .memCeLog0, .memCeLog1, .memCeLogLt, .memUeLog0, .memUeLog1, .memUeLogLt,
   .memFlipCtrl, .memFlipAddr, .memWeakLast0, .memWeakLast1, .memRepairSel, .memFlipD, .memRepairStat, .memLoadResult]

/-- The registers of block PWR. -/
def regsOfPWR : List Reg :=
  [.pwrCtrl, .pwrStat, .pwrWakeEn, .pwrWakeEn2, .pwrWakeSrc, .pwrTimer, .pwrRingCfg, .pwrRingCfg1,
   .pwrEntryCfg, .pwrInhCfg, .pwrWakeoutCfg, .pwrTc10Cfg, .pwrFrStat, .pwrWakeAll0, .pwrWakeAll1, .pwrVetoLog0,
   .pwrVetoLog1, .pwrVetoLogLt, .pwrLoadResult, .pwrMember0, .pwrMember1, .pwrMember2, .pwrMember3]

/-- Every kind of register. -/
def Reg.all : List Reg :=
  regsOfGLB ++ regsOfEVT ++ regsOfHBR ++ regsOfMGT ++ regsOfCFG ++ regsOfNVS ++ regsOfUPD ++ regsOfMAC ++ regsOfCLS ++ regsOfFDB ++ regsOfSKY ++ regsOfHRB ++ regsOfQMG ++ regsOfSCH ++ regsOfTGA ++ regsOfTIM ++ regsOfCAN ++ regsOfLIN ++ regsOfTSS ++ regsOfCIP ++ regsOfKEY ++ regsOfRED ++ regsOfMEM ++ regsOfPWR

/-- The number of instances. -/
def Reg.count (r : Reg) : Nat := r.info.c1 * r.info.c2

/-- The BAR0 offset of instance `i`. -/
def Reg.addr (r : Reg) (i : Nat) : Nat :=
  r.info.base + r.info.s1 * (i / r.info.c2) + r.info.s2 * (i % r.info.c2)

/-- The instance of `r` that stands at an offset, if one does. -/
def Reg.instAt (r : Reg) (off : Nat) : Option Nat :=
  let f := r.info
  if off < f.base then none else
  let d := off - f.base
  let a := if f.c1 = 1 then 0 else d / f.s1
  let e := d - f.s1 * a
  let b := if f.c2 = 1 then 0 else e / f.s2
  if a < f.c1 ∧ b < f.c2 ∧ e = f.s2 * b then some (a * f.c2 + b) else none

/-- The register at an offset of the map (R457, the register index). -/
def Reg.ofAddr (off : Nat) : Option (Reg × Nat) :=
  Reg.all.findSome? fun r => (r.instAt off).map fun i => (r, i)

/-- A field of a kind of register: its bits. -/
structure RegField where
  reg : Reg
  hi  : Nat
  lo  : Nat
  deriving DecidableEq, Repr

/-- The width of a field. -/
def RegField.width (f : RegField) : Nat := f.hi - f.lo + 1

end Sys2Proof.Machine

/-! The fields by name: `F.<register>_<field>`. -/

namespace Sys2Proof.Machine.F

def glbChipId_part_number : RegField := ⟨.glbChipId, 31, 16⟩
def glbChipId_step_letter : RegField := ⟨.glbChipId, 15, 12⟩
def glbChipId_step_digit : RegField := ⟨.glbChipId, 11, 8⟩
def glbChipId_temp_grade : RegField := ⟨.glbChipId, 7, 4⟩
def glbOpState_entry_cause : RegField := ⟨.glbOpState, 23, 16⟩
def glbOpState_prev_state : RegField := ⟨.glbOpState, 11, 8⟩
def glbOpState_state : RegField := ⟨.glbOpState, 3, 0⟩
def glbLsCtrl_split : RegField := ⟨.glbLsCtrl, 31, 31⟩
def glbLsCtrl_repair : RegField := ⟨.glbLsCtrl, 30, 30⟩
def glbLsStat_mode : RegField := ⟨.glbLsStat, 31, 30⟩
def glbLsCfg_split_max_ms : RegField := ⟨.glbLsCfg, 9, 0⟩
def glbLsBist_done : RegField := ⟨.glbLsBist, 31, 31⟩
def glbLsBist_pass : RegField := ⟨.glbLsBist, 30, 30⟩
def glbLsBist_lane_fail : RegField := ⟨.glbLsBist, 7, 0⟩
def glbFaultRec_code : RegField := ⟨.glbFaultRec, 31, 28⟩
def glbFaultRec_sub : RegField := ⟨.glbFaultRec, 27, 24⟩
def glbFaultRec_ss : RegField := ⟨.glbFaultRec, 23, 22⟩
def glbFaultTime_lt : RegField := ⟨.glbFaultTime, 31, 0⟩
def glbSafeCfg_lock : RegField := ⟨.glbSafeCfg, 31, 31⟩
def glbSafeCfg_clk_ss : RegField := ⟨.glbSafeCfg, 5, 4⟩
def glbSafeCfg_evt_ss : RegField := ⟨.glbSafeCfg, 3, 2⟩
def glbSafeCfg_ls_ss : RegField := ⟨.glbSafeCfg, 1, 0⟩
def evtStat_stat : RegField := ⟨.evtStat, 31, 0⟩
def evtLogCfg_en : RegField := ⟨.evtLogCfg, 31, 31⟩
def evtLogCfg_mq : RegField := ⟨.evtLogCfg, 5, 0⟩
def evtRaise_src : RegField := ⟨.evtRaise, 8, 0⟩
def evtVecCfg_holdoff_us : RegField := ⟨.evtVecCfg, 15, 0⟩
def evtRoute_log : RegField := ⟨.evtRoute, 31, 31⟩
def evtRoute_fw : RegField := ⟨.evtRoute, 30, 30⟩
def evtRoute_dest : RegField := ⟨.evtRoute, 29, 27⟩
def evtRoute_vector : RegField := ⟨.evtRoute, 4, 0⟩
def hbrPcieStat_link_up : RegField := ⟨.hbrPcieStat, 31, 31⟩
def hbrPcieStat_width : RegField := ⟨.hbrPcieStat, 7, 4⟩
def hbrPcieStat_speed : RegField := ⟨.hbrPcieStat, 3, 0⟩
def hbrPwSeq_seq : RegField := ⟨.hbrPwSeq, 31, 0⟩
def hbrPwFence_fence : RegField := ⟨.hbrPwFence, 3, 0⟩
def hbrSideband_pins : RegField := ⟨.hbrSideband, 13, 0⟩
def hbrSidebandSeen_pins : RegField := ⟨.hbrSidebandSeen, 13, 0⟩
def hbrDmaCfg_dma_en : RegField := ⟨.hbrDmaCfg, 0, 0⟩
def hbrPwLog0_valid : RegField := ⟨.hbrPwLog0, 31, 31⟩
def hbrPwLog0_path : RegField := ⟨.hbrPwLog0, 30, 28⟩
def hbrPwLog0_cause : RegField := ⟨.hbrPwLog0, 27, 24⟩
def hbrPwLog0_offset : RegField := ⟨.hbrPwLog0, 23, 0⟩
def hbrPwLog1_data : RegField := ⟨.hbrPwLog1, 31, 0⟩
def hbrPwLog2_req_id : RegField := ⟨.hbrPwLog2, 31, 16⟩
def hbrPwLog2_tag : RegField := ⟨.hbrPwLog2, 15, 8⟩
def hbrPwLog2_be : RegField := ⟨.hbrPwLog2, 3, 0⟩
def hbrPwLog3_seq : RegField := ⟨.hbrPwLog3, 31, 0⟩
def hbrPwLog4_lt : RegField := ⟨.hbrPwLog4, 31, 0⟩
def hbrPwLog5_lt : RegField := ⟨.hbrPwLog5, 31, 0⟩
def hbrPwLog6_far_sts : RegField := ⟨.hbrPwLog6, 7, 0⟩
def hbrAspiCfg0_en : RegField := ⟨.hbrAspiCfg0, 31, 31⟩
def hbrAspiCfg0_stop_on_err : RegField := ⟨.hbrAspiCfg0, 30, 30⟩
def hbrAspiCfg0_chk_en : RegField := ⟨.hbrAspiCfg0, 29, 29⟩
def hbrAspiCfg0_width : RegField := ⟨.hbrAspiCfg0, 28, 27⟩
def hbrAspiCfg0_addr_bytes : RegField := ⟨.hbrAspiCfg0, 26, 25⟩
def hbrAspiCfg0_cs : RegField := ⟨.hbrAspiCfg0, 24, 23⟩
def hbrAspiCfg0_pf_len : RegField := ⟨.hbrAspiCfg0, 22, 20⟩
def hbrAspiCfg0_clk_div : RegField := ⟨.hbrAspiCfg0, 15, 8⟩
def hbrAspiCfg0_wr_delay_us : RegField := ⟨.hbrAspiCfg0, 7, 0⟩
def hbrAspiCfg1_wr_op : RegField := ⟨.hbrAspiCfg1, 31, 24⟩
def hbrAspiCfg1_rd_op : RegField := ⟨.hbrAspiCfg1, 23, 16⟩
def hbrAspiCfg1_sts_op : RegField := ⟨.hbrAspiCfg1, 15, 8⟩
def hbrAspiCfg2_sts_mask : RegField := ⟨.hbrAspiCfg2, 15, 8⟩
def hbrAspiCfg2_sts_val : RegField := ⟨.hbrAspiCfg2, 7, 0⟩
def hbrPfLast_offset : RegField := ⟨.hbrPfLast, 23, 0⟩
def hbrTxRingBase_base : RegField := ⟨.hbrTxRingBase, 31, 0⟩
def hbrTxRingCfg_en : RegField := ⟨.hbrTxRingCfg, 31, 31⟩
def hbrTxRingCfg_size_log : RegField := ⟨.hbrTxRingCfg, 19, 16⟩
def hbrTxRingCfg_bufsz : RegField := ⟨.hbrTxRingCfg, 15, 0⟩
def hbrTxRingHead_head : RegField := ⟨.hbrTxRingHead, 11, 0⟩
def hbrTxRingTail_tail : RegField := ⟨.hbrTxRingTail, 11, 0⟩
def hbrRxRingBase_base : RegField := ⟨.hbrRxRingBase, 31, 0⟩
def hbrRxRingCfg_en : RegField := ⟨.hbrRxRingCfg, 31, 31⟩
def hbrRxRingCfg_size_log : RegField := ⟨.hbrRxRingCfg, 19, 16⟩
def hbrRxRingCfg_bufsz : RegField := ⟨.hbrRxRingCfg, 15, 0⟩
def hbrRxRingHead_head : RegField := ⟨.hbrRxRingHead, 11, 0⟩
def hbrRxRingTail_tail : RegField := ⟨.hbrRxRingTail, 11, 0⟩
def mgtSpiCfg_quad : RegField := ⟨.mgtSpiCfg, 0, 0⟩
def mqCfg_en : RegField := ⟨.mqCfg, 31, 31⟩
def mqCfg_owner : RegField := ⟨.mqCfg, 30, 29⟩
def mqCfg_depth_log : RegField := ⟨.mqCfg, 3, 0⟩
def mqStat_result : RegField := ⟨.mqStat, 31, 28⟩
def mqStat_mark_valid : RegField := ⟨.mqStat, 27, 27⟩
def mqStat_overwrite : RegField := ⟨.mqStat, 26, 26⟩
def mqStat_held : RegField := ⟨.mqStat, 25, 13⟩
def mqStat_count : RegField := ⟨.mqStat, 12, 0⟩
def mqCmd_op : RegField := ⟨.mqCmd, 31, 28⟩
def mqCmd_n : RegField := ⟨.mqCmd, 12, 0⟩
def mqPop_word : RegField := ⟨.mqPop, 31, 0⟩
def cfgBootStat_run_slot : RegField := ⟨.cfgBootStat, 31, 30⟩
def cfgBootStat_cset_slot : RegField := ⟨.cfgBootStat, 29, 29⟩
def cfgBootStat_trial : RegField := ⟨.cfgBootStat, 28, 28⟩
def cfgBootStat_cset_trial : RegField := ⟨.cfgBootStat, 27, 27⟩
def cfgBootStat_fallback : RegField := ⟨.cfgBootStat, 26, 26⟩
def cfgBootStat_fast : RegField := ⟨.cfgBootStat, 25, 25⟩
def cfgBootStat_primary : RegField := ⟨.cfgBootStat, 24, 24⟩
def cfgBootStat_state_a : RegField := ⟨.cfgBootStat, 23, 20⟩
def cfgBootStat_state_b : RegField := ⟨.cfgBootStat, 19, 16⟩
def cfgBootStat_fsc : RegField := ⟨.cfgBootStat, 9, 8⟩
def cfgMinCause_valid : RegField := ⟨.cfgMinCause, 31, 31⟩
def cfgMinCause_min_cfg : RegField := ⟨.cfgMinCause, 30, 30⟩
def cfgMinCause_reason : RegField := ⟨.cfgMinCause, 23, 16⟩
def cfgMinCause_code : RegField := ⟨.cfgMinCause, 15, 8⟩
def cfgBootCfg_stable_s : RegField := ⟨.cfgBootCfg, 31, 16⟩
def cfgBootCfg_cset_confirm_s : RegField := ⟨.cfgBootCfg, 15, 0⟩
def cfgRestart_go : RegField := ⟨.cfgRestart, 31, 31⟩
def cfgRestart_slot_sel : RegField := ⟨.cfgRestart, 3, 2⟩
def cfgRestart_kind : RegField := ⟨.cfgRestart, 1, 0⟩
def cfgShadowCtrl_load : RegField := ⟨.cfgShadowCtrl, 31, 31⟩
def cfgShadowCtrl_discard : RegField := ⟨.cfgShadowCtrl, 30, 30⟩
def cfgShadowCtrl_slot : RegField := ⟨.cfgShadowCtrl, 0, 0⟩
def cfgLoadStat_done : RegField := ⟨.cfgLoadStat, 31, 31⟩
def cfgLoadStat_busy : RegField := ⟨.cfgLoadStat, 30, 30⟩
def cfgLoadStat_code : RegField := ⟨.cfgLoadStat, 23, 16⟩
def cfgLoadStat_slot : RegField := ⟨.cfgLoadStat, 0, 0⟩
def cfgSwapCtrl_swap_go : RegField := ⟨.cfgSwapCtrl, 31, 31⟩
def cfgSwapCtrl_confirm : RegField := ⟨.cfgSwapCtrl, 30, 30⟩
def cfgSwapCtrl_trial : RegField := ⟨.cfgSwapCtrl, 29, 29⟩
def cfgSwapStat_cleanup : RegField := ⟨.cfgSwapStat, 31, 31⟩
def cfgSwapStat_trial_pending : RegField := ⟨.cfgSwapStat, 30, 30⟩
def cfgSwapStat_reverted : RegField := ⟨.cfgSwapStat, 29, 29⟩
def cfgEpoch_epoch : RegField := ⟨.cfgEpoch, 31, 0⟩
def cfgBdcResult_done : RegField := ⟨.cfgBdcResult, 31, 31⟩
def cfgBdcResult_stream_idx : RegField := ⟨.cfgBdcResult, 27, 16⟩
def cfgBdcResult_detail_code : RegField := ⟨.cfgBdcResult, 7, 0⟩
def cfgBdcQsel_set_sel : RegField := ⟨.cfgBdcQsel, 12, 12⟩
def cfgBdcQsel_stream_idx : RegField := ⟨.cfgBdcQsel, 11, 0⟩
def cfgBdcBound_bound_ns : RegField := ⟨.cfgBdcBound, 31, 0⟩
def cfgBdcQattr_legacy_end : RegField := ⟨.cfgBdcQattr, 2, 2⟩
def cfgBdcQattr_express_ct : RegField := ⟨.cfgBdcQattr, 1, 1⟩
def cfgBdcQattr_admitted : RegField := ⟨.cfgBdcQattr, 0, 0⟩
def cfgSwapFenced_fenced : RegField := ⟨.cfgSwapFenced, 17, 0⟩
def cfgSwapFenceLim_limit_us : RegField := ⟨.cfgSwapFenceLim, 13, 0⟩
def cfgBootHist_word : RegField := ⟨.cfgBootHist, 31, 0⟩
def nvsStoreCmd_go : RegField := ⟨.nvsStoreCmd, 31, 31⟩
def nvsStoreCmd_region : RegField := ⟨.nvsStoreCmd, 19, 16⟩
def nvsStoreCmd_offset : RegField := ⟨.nvsStoreCmd, 15, 0⟩
def nvsStoreLen_len : RegField := ⟨.nvsStoreLen, 10, 0⟩
def nvsStoreStat_result : RegField := ⟨.nvsStoreStat, 31, 28⟩
def updCmd_go : RegField := ⟨.updCmd, 31, 31⟩
def updCmd_op : RegField := ⟨.updCmd, 27, 24⟩
def updCmd_source : RegField := ⟨.updCmd, 23, 16⟩
def updCmd_chunk : RegField := ⟨.updCmd, 10, 0⟩
def updArg_crc : RegField := ⟨.updArg, 31, 0⟩
def updStat_result : RegField := ⟨.updStat, 31, 28⟩
def updStat_sess_state : RegField := ⟨.updStat, 27, 25⟩
def updStat_cset : RegField := ⟨.updStat, 24, 24⟩
def updStat_owner_src : RegField := ⟨.updStat, 23, 16⟩
def updStat_owner_host : RegField := ⟨.updStat, 15, 15⟩
def updStat_received : RegField := ⟨.updStat, 10, 0⟩
def updIdle_idle_s : RegField := ⟨.updIdle, 31, 0⟩
def updTrialCfg_confirm_s : RegField := ⟨.updTrialCfg, 15, 0⟩
def updVerify_code : RegField := ⟨.updVerify, 7, 0⟩
def updDigest_digest : RegField := ⟨.updDigest, 31, 0⟩
def macPortCfg_en : RegField := ⟨.macPortCfg, 31, 31⟩
def macPortCfg_mode : RegField := ⟨.macPortCfg, 27, 24⟩
def macPortCfg_t1_master : RegField := ⟨.macPortCfg, 23, 23⟩
def macPortStat_link_up : RegField := ⟨.macPortStat, 31, 31⟩
def macPortStat_oper_mode : RegField := ⟨.macPortStat, 27, 24⟩
def macFwdCtrl_ct_rx_en : RegField := ⟨.macFwdCtrl, 1, 1⟩
def macFwdCtrl_ct_tx_en : RegField := ⟨.macFwdCtrl, 0, 0⟩
def macMaxFrame_max_len : RegField := ⟨.macMaxFrame, 13, 0⟩
def macMdioCfg_clk_div : RegField := ⟨.macMdioCfg, 7, 0⟩
def macMdioCmd_go : RegField := ⟨.macMdioCmd, 31, 31⟩
def macMdioCmd_rd : RegField := ⟨.macMdioCmd, 30, 30⟩
def macMdioCmd_prtad : RegField := ⟨.macMdioCmd, 25, 21⟩
def macMdioCmd_devad : RegField := ⟨.macMdioCmd, 20, 16⟩
def macMdioCmd_regad : RegField := ⟨.macMdioCmd, 15, 0⟩
def macMdioData_data : RegField := ⟨.macMdioData, 15, 0⟩
def clsParseCfg_tpid_alt : RegField := ⟨.clsParseCfg, 31, 16⟩
def clsParseCfg_tpid_alt_en : RegField := ⟨.clsParseCfg, 0, 0⟩
def clsSomeipPort_en : RegField := ⟨.clsSomeipPort, 31, 31⟩
def clsSomeipPort_tcp : RegField := ⟨.clsSomeipPort, 16, 16⟩
def clsSomeipPort_port : RegField := ⟨.clsSomeipPort, 15, 0⟩
def clsHashSeed_seed : RegField := ⟨.clsHashSeed, 31, 0⟩
def clsDscpMap_prio : RegField := ⟨.clsDscpMap, 23, 0⟩
def clsEntCmd_go : RegField := ⟨.clsEntCmd, 31, 31⟩
def clsEntCmd_op : RegField := ⟨.clsEntCmd, 27, 24⟩
def clsEntCmd_table : RegField := ⟨.clsEntCmd, 19, 18⟩
def clsEntCmd_bank : RegField := ⟨.clsEntCmd, 17, 16⟩
def clsEntIndex_index : RegField := ⟨.clsEntIndex, 17, 0⟩
def clsEntStat_result : RegField := ⟨.clsEntStat, 31, 28⟩
def clsEntStat_index : RegField := ⟨.clsEntStat, 17, 0⟩
def clsEntData_word : RegField := ⟨.clsEntData, 31, 0⟩
def clsLoadResult_done : RegField := ⟨.clsLoadResult, 31, 31⟩
def clsLoadResult_rule_ord : RegField := ⟨.clsLoadResult, 23, 8⟩
def clsLoadResult_detail_code : RegField := ⟨.clsLoadResult, 7, 0⟩
def clsCtTmo0_new_s : RegField := ⟨.clsCtTmo0, 31, 16⟩
def clsCtTmo0_closing_s : RegField := ⟨.clsCtTmo0, 15, 0⟩
def clsCtTmo1_est_tcp_s : RegField := ⟨.clsCtTmo1, 31, 16⟩
def clsCtTmo1_est_udp_s : RegField := ⟨.clsCtTmo1, 15, 0⟩
def clsCtTmo2_est_ip_s : RegField := ⟨.clsCtTmo2, 31, 16⟩
def clsCtTmo2_closed_s : RegField := ⟨.clsCtTmo2, 15, 0⟩
def clsCtCount_live : RegField := ⟨.clsCtCount, 17, 0⟩
def clsPrioCfg_default_prio : RegField := ⟨.clsPrioCfg, 4, 2⟩
def clsPrioCfg_trust : RegField := ⟨.clsPrioCfg, 1, 0⟩
def fdbGlbCfg_v6_en : RegField := ⟨.fdbGlbCfg, 1, 1⟩
def fdbGlbCfg_v4_en : RegField := ⟨.fdbGlbCfg, 0, 0⟩
def fdbRmacLo_mac_lo : RegField := ⟨.fdbRmacLo, 31, 0⟩
def fdbRmacHi_mac_hi : RegField := ⟨.fdbRmacHi, 15, 0⟩
def fdbHashSeed_seed : RegField := ⟨.fdbHashSeed, 31, 0⟩
def fdbAgeCfg_age_s : RegField := ⟨.fdbAgeCfg, 15, 0⟩
def fdbLearnCfg_en : RegField := ⟨.fdbLearnCfg, 31, 31⟩
def fdbLearnCfg_mq : RegField := ⟨.fdbLearnCfg, 25, 20⟩
def fdbLearnCfg_move_hold_ms : RegField := ⟨.fdbLearnCfg, 19, 10⟩
def fdbLearnCfg_pend_tmo_ms : RegField := ⟨.fdbLearnCfg, 9, 0⟩
def fdbFlapCfg_flap_win_ms : RegField := ⟨.fdbFlapCfg, 31, 16⟩
def fdbFlapCfg_flap_thr : RegField := ⟨.fdbFlapCfg, 15, 0⟩
def fdbStrReset_stream_idx : RegField := ⟨.fdbStrReset, 11, 0⟩
def fdbEntCmd_go : RegField := ⟨.fdbEntCmd, 31, 31⟩
def fdbEntCmd_op : RegField := ⟨.fdbEntCmd, 27, 24⟩
def fdbEntIndex_index : RegField := ⟨.fdbEntIndex, 16, 0⟩
def fdbEntStat_result : RegField := ⟨.fdbEntStat, 31, 28⟩
def fdbEntStat_index : RegField := ⟨.fdbEntStat, 16, 0⟩
def fdbFlushSel_by_port : RegField := ⟨.fdbFlushSel, 31, 31⟩
def fdbFlushSel_by_fid : RegField := ⟨.fdbFlushSel, 30, 30⟩
def fdbFlushSel_port : RegField := ⟨.fdbFlushSel, 23, 18⟩
def fdbFlushSel_fid : RegField := ⟨.fdbFlushSel, 11, 0⟩
def fdbFloodMask_mask : RegField := ⟨.fdbFloodMask, 17, 0⟩
def fdbFlapLast0_mac_hi : RegField := ⟨.fdbFlapLast0, 31, 0⟩
def fdbFlapLast1_mac_lo : RegField := ⟨.fdbFlapLast1, 31, 16⟩
def fdbFlapLast1_fid : RegField := ⟨.fdbFlapLast1, 11, 0⟩
def fdbFlapLast2_port : RegField := ⟨.fdbFlapLast2, 5, 0⟩
def fdbEntData_word : RegField := ⟨.fdbEntData, 31, 0⟩
def fdbLoadResult_done : RegField := ⟨.fdbLoadResult, 31, 31⟩
def fdbLoadResult_item_ord : RegField := ⟨.fdbLoadResult, 23, 8⟩
def fdbLoadResult_detail_code : RegField := ⟨.fdbLoadResult, 7, 0⟩
def fdbPortCfg_sid_methods : RegField := ⟨.fdbPortCfg, 28, 24⟩
def fdbPortCfg_stream_par_drop : RegField := ⟨.fdbPortCfg, 23, 23⟩
def fdbPortCfg_flush_on_down : RegField := ⟨.fdbPortCfg, 22, 22⟩
def fdbPortCfg_static_sa_drop : RegField := ⟨.fdbPortCfg, 21, 21⟩
def fdbPortCfg_hairpin : RegField := ⟨.fdbPortCfg, 20, 20⟩
def fdbPortCfg_learn_en : RegField := ⟨.fdbPortCfg, 19, 19⟩
def fdbPortCfg_ingress_filter : RegField := ⟨.fdbPortCfg, 18, 18⟩
def fdbPortCfg_pvid : RegField := ⟨.fdbPortCfg, 11, 0⟩
def fdbWinSel_copy : RegField := ⟨.fdbWinSel, 31, 31⟩
def fdbWinSel_table_id : RegField := ⟨.fdbWinSel, 23, 16⟩
def fdbWinSel_page : RegField := ⟨.fdbWinSel, 5, 0⟩
def skyCtrl_restore : RegField := ⟨.skyCtrl, 31, 31⟩
def skyCtrl_retire : RegField := ⟨.skyCtrl, 30, 30⟩
def skyCtrl_restore_idx : RegField := ⟨.skyCtrl, 20, 16⟩
def skyStatus_healthy : RegField := ⟨.skyStatus, 31, 0⟩
def skyFaultRec_cause : RegField := ⟨.skyFaultRec, 31, 28⟩
def skyFaultRec_skerry : RegField := ⟨.skyFaultRec, 20, 16⟩
def skyResvMask_mask : RegField := ⟨.skyResvMask, 31, 0⟩
def skyStealCfg_en : RegField := ⟨.skyStealCfg, 31, 31⟩
def skyStealCfg_span : RegField := ⟨.skyStealCfg, 12, 8⟩
def skyStealCfg_min_depth : RegField := ⟨.skyStealCfg, 6, 0⟩
def skyCellLim_limit : RegField := ⟨.skyCellLim, 16, 0⟩
def skyCellUsed_used : RegField := ⟨.skyCellUsed, 16, 0⟩
def skyMqCfg_en : RegField := ⟨.skyMqCfg, 31, 31⟩
def skyMqCfg_mq : RegField := ⟨.skyMqCfg, 5, 0⟩
def skyLoadResult_done : RegField := ⟨.skyLoadResult, 31, 31⟩
def skyLoadResult_item_ord : RegField := ⟨.skyLoadResult, 23, 8⟩
def skyLoadResult_detail_code : RegField := ⟨.skyLoadResult, 7, 0⟩
def skyHomeMap_e3 : RegField := ⟨.skyHomeMap, 28, 24⟩
def skyHomeMap_e2 : RegField := ⟨.skyHomeMap, 20, 16⟩
def skyHomeMap_e1 : RegField := ⟨.skyHomeMap, 12, 8⟩
def skyHomeMap_e0 : RegField := ⟨.skyHomeMap, 4, 0⟩
def hrbCfg_flow_slot_lim : RegField := ⟨.hrbCfg, 31, 20⟩
def hrbCfg_hold_ns : RegField := ⟨.hrbCfg, 19, 0⟩
def hrbStatus_slots_used : RegField := ⟨.hrbStatus, 29, 16⟩
def hrbStatus_ctx_used : RegField := ⟨.hrbStatus, 12, 0⟩
def hrbHwm_slots_hwm : RegField := ⟨.hrbHwm, 29, 16⟩
def hrbHwm_ctx_hwm : RegField := ⟨.hrbHwm, 12, 0⟩
def qmgPoolUsed_used : RegField := ⟨.qmgPoolUsed, 16, 0⟩
def qmgPoolHwm_hwm : RegField := ⟨.qmgPoolHwm, 16, 0⟩
def qmgSharedSize_size : RegField := ⟨.qmgSharedSize, 16, 0⟩
def qmgSharedUsed_used : RegField := ⟨.qmgSharedUsed, 16, 0⟩
def qmgSharedHwm_hwm : RegField := ⟨.qmgSharedHwm, 16, 0⟩
def qmgLoadResult_done : RegField := ⟨.qmgLoadResult, 31, 31⟩
def qmgLoadResult_item_ord : RegField := ⟨.qmgLoadResult, 23, 8⟩
def qmgLoadResult_detail_code : RegField := ⟨.qmgLoadResult, 7, 0⟩
def qmgPortLim_host_en : RegField := ⟨.qmgPortLim, 31, 31⟩
def qmgPortLim_limit : RegField := ⟨.qmgPortLim, 16, 0⟩
def qmgPortUsed_used : RegField := ⟨.qmgPortUsed, 16, 0⟩
def qmgPortHwm_hwm : RegField := ⟨.qmgPortHwm, 16, 0⟩
def qmgClassMap_map : RegField := ⟨.qmgClassMap, 23, 0⟩
def qmgQLim_limit : RegField := ⟨.qmgQLim, 31, 16⟩
def qmgQLim_min : RegField := ⟨.qmgQLim, 15, 0⟩
def qmgQCol_yel_limit : RegField := ⟨.qmgQCol, 31, 16⟩
def qmgQCol_red_limit : RegField := ⟨.qmgQCol, 15, 0⟩
def qmgQCtrl_valid : RegField := ⟨.qmgQCtrl, 31, 31⟩
def qmgQCtrl_resv_only : RegField := ⟨.qmgQCtrl, 30, 30⟩
def qmgQCtrl_port : RegField := ⟨.qmgQCtrl, 29, 24⟩
def qmgQCtrl_class : RegField := ⟨.qmgQCtrl, 22, 20⟩
def qmgQCtrl_max_frame : RegField := ⟨.qmgQCtrl, 13, 0⟩
def qmgQStat_copies : RegField := ⟨.qmgQStat, 31, 16⟩
def qmgQStat_cells : RegField := ⟨.qmgQStat, 15, 0⟩
def qmgSLim_limit : RegField := ⟨.qmgSLim, 31, 16⟩
def qmgSLim_min : RegField := ⟨.qmgSLim, 15, 0⟩
def qmgSCol_yel_limit : RegField := ⟨.qmgSCol, 31, 16⟩
def qmgSCol_red_limit : RegField := ⟨.qmgSCol, 15, 0⟩
def qmgSCtrl_valid : RegField := ⟨.qmgSCtrl, 31, 31⟩
def qmgSCtrl_resv_only : RegField := ⟨.qmgSCtrl, 30, 30⟩
def qmgSCtrl_port : RegField := ⟨.qmgSCtrl, 29, 24⟩
def qmgSCtrl_class : RegField := ⟨.qmgSCtrl, 22, 20⟩
def qmgSCtrl_max_frame : RegField := ⟨.qmgSCtrl, 13, 0⟩
def qmgSStat_copies : RegField := ⟨.qmgSStat, 31, 16⟩
def qmgSStat_cells : RegField := ⟨.qmgSStat, 15, 0⟩
def schPortCfg_wfq_hi : RegField := ⟨.schPortCfg, 18, 16⟩
def schPortCfg_wfq_lo : RegField := ⟨.schPortCfg, 14, 12⟩
def schPortCfg_wfq_en : RegField := ⟨.schPortCfg, 8, 8⟩
def schPortCfg_len_ovh : RegField := ⟨.schPortCfg, 7, 0⟩
def schTbRate_en : RegField := ⟨.schTbRate, 31, 31⟩
def schTbRate_rate_kbps : RegField := ⟨.schTbRate, 23, 0⟩
def schSTbRate_en : RegField := ⟨.schSTbRate, 31, 31⟩
def schSTbRate_rate_kbps : RegField := ⟨.schSTbRate, 23, 0⟩
def schTbDepth_depth : RegField := ⟨.schTbDepth, 19, 0⟩
def schSTbDepth_depth : RegField := ⟨.schSTbDepth, 19, 0⟩
def schTbLevel_level : RegField := ⟨.schTbLevel, 31, 0⟩
def schSTbLevel_level : RegField := ⟨.schSTbLevel, 31, 0⟩
def schCbsSlope_en : RegField := ⟨.schCbsSlope, 31, 31⟩
def schCbsSlope_idle_kbps : RegField := ⟨.schCbsSlope, 23, 0⟩
def schCbsHi_hi_credit : RegField := ⟨.schCbsHi, 19, 0⟩
def schCbsCredit_credit : RegField := ⟨.schCbsCredit, 31, 0⟩
def schWfqW_weight : RegField := ⟨.schWfqW, 9, 0⟩
def schMaxwait_urgent : RegField := ⟨.schMaxwait, 31, 31⟩
def schMaxwait_max_wait_us : RegField := ⟨.schMaxwait, 15, 0⟩
def mtrCtrl_en : RegField := ⟨.mtrCtrl, 31, 31⟩
def mtrCtrl_mode : RegField := ⟨.mtrCtrl, 30, 30⟩
def mtrCtrl_colour_aware : RegField := ⟨.mtrCtrl, 29, 29⟩
def mtrCtrl_mark_all_red_en : RegField := ⟨.mtrCtrl, 28, 28⟩
def mtrCtrl_mark_all_red : RegField := ⟨.mtrCtrl, 27, 27⟩
def mtrCtrl_yellow_act : RegField := ⟨.mtrCtrl, 26, 25⟩
def mtrCtrl_red_act : RegField := ⟨.mtrCtrl, 24, 24⟩
def mtrCtrl_pcp_en : RegField := ⟨.mtrCtrl, 23, 23⟩
def mtrCtrl_yel_pcp : RegField := ⟨.mtrCtrl, 22, 20⟩
def mtrCtrl_red_pcp : RegField := ⟨.mtrCtrl, 19, 17⟩
def mtrCir_cir : RegField := ⟨.mtrCir, 23, 0⟩
def mtrPir_pir : RegField := ⟨.mtrPir, 23, 0⟩
def mtrCbs_cbs : RegField := ⟨.mtrCbs, 19, 0⟩
def mtrEbs_ebs : RegField := ⟨.mtrEbs, 19, 0⟩
def mtrCLevel_level : RegField := ⟨.mtrCLevel, 31, 0⟩
def mtrELevel_level : RegField := ⟨.mtrELevel, 31, 0⟩
def schGateCfg_en : RegField := ⟨.schGateCfg, 31, 31⟩
def schGateCfg_commit : RegField := ⟨.schGateCfg, 30, 30⟩
def schGateCfg_closed_inv_rx_en : RegField := ⟨.schGateCfg, 29, 29⟩
def schGateCfg_octets_exc_en : RegField := ⟨.schGateCfg, 28, 28⟩
def schGateCfg_closed_inv_rx : RegField := ⟨.schGateCfg, 27, 27⟩
def schGateCfg_octets_exc : RegField := ⟨.schGateCfg, 26, 26⟩
def schGateCfg_domain : RegField := ⟨.schGateCfg, 25, 24⟩
def schGateList_list_base : RegField := ⟨.schGateList, 27, 16⟩
def schGateList_list_len : RegField := ⟨.schGateList, 11, 0⟩
def schGateCycle_cycle_ns : RegField := ⟨.schGateCycle, 31, 0⟩
def schGateBase_base : RegField := ⟨.schGateBase, 31, 0⟩
def schGateOper_oper_dom : RegField := ⟨.schGateOper, 31, 30⟩
def schGateOper_list_base : RegField := ⟨.schGateOper, 27, 16⟩
def schGateOper_list_len : RegField := ⟨.schGateOper, 11, 0⟩
def schGateAdmin0_open : RegField := ⟨.schGateAdmin0, 31, 31⟩
def schGateAdmin0_interval_ns : RegField := ⟨.schGateAdmin0, 30, 0⟩
def schGateAdmin1_octet_max : RegField := ⟨.schGateAdmin1, 31, 0⟩
def schGateOper0_open : RegField := ⟨.schGateOper0, 31, 31⟩
def schGateOper0_interval_ns : RegField := ⟨.schGateOper0, 30, 0⟩
def schGateOper1_octet_max : RegField := ⟨.schGateOper1, 31, 0⟩
def tgaCfg_en : RegField := ⟨.tgaCfg, 31, 31⟩
def tgaCfg_commit : RegField := ⟨.tgaCfg, 30, 30⟩
def tgaCfg_cancel : RegField := ⟨.tgaCfg, 29, 29⟩
def tgaCfg_dom : RegField := ⟨.tgaCfg, 25, 24⟩
def tgaCfg_idle_gates : RegField := ⟨.tgaCfg, 23, 16⟩
def tgaAdminBase_base : RegField := ⟨.tgaAdminBase, 31, 0⟩
def tgaAdminCycle_cycle_ns : RegField := ⟨.tgaAdminCycle, 31, 0⟩
def tgaAdminExt_ext_ns : RegField := ⟨.tgaAdminExt, 31, 0⟩
def tgaAdminLen_list_len : RegField := ⟨.tgaAdminLen, 10, 0⟩
def tgaOperBase_base : RegField := ⟨.tgaOperBase, 31, 0⟩
def tgaOperCycle_cycle_ns : RegField := ⟨.tgaOperCycle, 31, 0⟩
def tgaOperExt_ext_ns : RegField := ⟨.tgaOperExt, 31, 0⟩
def tgaOperLen_list_len : RegField := ⟨.tgaOperLen, 10, 0⟩
def tgaChangeTime_time : RegField := ⟨.tgaChangeTime, 31, 0⟩
def tgaStat_pending : RegField := ⟨.tgaStat, 31, 31⟩
def tgaStat_oper_valid : RegField := ⟨.tgaStat, 30, 30⟩
def tgaStat_base_past : RegField := ⟨.tgaStat, 29, 29⟩
def tgaStat_busy : RegField := ⟨.tgaStat, 28, 28⟩
def tgaStat_idle : RegField := ⟨.tgaStat, 27, 27⟩
def tgaStat_oper_dom : RegField := ⟨.tgaStat, 25, 24⟩
def tgaStat_cur_gates : RegField := ⟨.tgaStat, 23, 16⟩
def tgaStat_cur_entry : RegField := ⟨.tgaStat, 9, 0⟩
def tgaPreemptCfg_en : RegField := ⟨.tgaPreemptCfg, 31, 31⟩
def tgaPreemptCfg_verify_dis : RegField := ⟨.tgaPreemptCfg, 30, 30⟩
def tgaPreemptCfg_add_frag_size : RegField := ⟨.tgaPreemptCfg, 29, 28⟩
def tgaPreemptCfg_verify_ms : RegField := ⟨.tgaPreemptCfg, 23, 16⟩
def tgaPreemptCfg_express_mask : RegField := ⟨.tgaPreemptCfg, 7, 0⟩
def tgaPreemptStat_active : RegField := ⟨.tgaPreemptStat, 31, 31⟩
def tgaPreemptStat_verify_status : RegField := ⟨.tgaPreemptStat, 30, 28⟩
def tgaLoadResult_done : RegField := ⟨.tgaLoadResult, 31, 31⟩
def tgaLoadResult_item_ord : RegField := ⟨.tgaLoadResult, 23, 8⟩
def tgaLoadResult_detail_code : RegField := ⟨.tgaLoadResult, 7, 0⟩
def tgaAdminEntry_gates : RegField := ⟨.tgaAdminEntry, 31, 24⟩
def tgaAdminEntry_interval_ns : RegField := ⟨.tgaAdminEntry, 23, 0⟩
def tgaOperEntry_gates : RegField := ⟨.tgaOperEntry, 31, 24⟩
def tgaOperEntry_interval_ns : RegField := ⟨.tgaOperEntry, 23, 0⟩
def timCtrl_snap : RegField := ⟨.timCtrl, 31, 31⟩
def timStat_resumed : RegField := ⟨.timStat, 31, 31⟩
def timStandbyDur_dur : RegField := ⟨.timStandbyDur, 31, 0⟩
def timLt_lt : RegField := ⟨.timLt, 31, 0⟩
def timSnapLt_lt : RegField := ⟨.timSnapLt, 31, 0⟩
def timSnapDom_time : RegField := ⟨.timSnapDom, 31, 0⟩
def timDomCfg_en : RegField := ⟨.timDomCfg, 31, 31⟩
def timDomCfg_ptp_dom : RegField := ⟨.timDomCfg, 7, 0⟩
def timDomFreq_freq_adj : RegField := ⟨.timDomFreq, 31, 0⟩
def timDomTime_time : RegField := ⟨.timDomTime, 31, 0⟩
def timDomSet_time : RegField := ⟨.timDomSet, 31, 0⟩
def timDomStep_step : RegField := ⟨.timDomStep, 31, 0⟩
def timDomSlew_amount_ns : RegField := ⟨.timDomSlew, 31, 0⟩
def timDomSlewCfg_slew_ppm : RegField := ⟨.timDomSlewCfg, 9, 0⟩
def timDomStat_slewing : RegField := ⟨.timDomStat, 31, 31⟩
def timDomStat_step_count : RegField := ⟨.timDomStat, 15, 0⟩
def timDomSlewRem_rem_ns : RegField := ⟨.timDomSlewRem, 31, 0⟩
def timPortCfg_owner : RegField := ⟨.timPortCfg, 31, 31⟩
def timPortCfg_def_dom : RegField := ⟨.timPortCfg, 1, 0⟩
def timTxtsStat_count : RegField := ⟨.timTxtsStat, 4, 0⟩
def timTxtsPop_pop : RegField := ⟨.timTxtsPop, 0, 0⟩
def timLatTx_tx_lat : RegField := ⟨.timLatTx, 31, 0⟩
def timLatRx_rx_lat : RegField := ⟨.timLatRx, 31, 0⟩
def timTxtsHead_word : RegField := ⟨.timTxtsHead, 31, 0⟩
def timTscCfg_en : RegField := ⟨.timTscCfg, 31, 31⟩
def timTscCfg_edge : RegField := ⟨.timTscCfg, 30, 29⟩
def timTscCfg_dom : RegField := ⟨.timTscCfg, 27, 26⟩
def timTscStorm_storm_max : RegField := ⟨.timTscStorm, 31, 16⟩
def timTscStorm_storm_win_us : RegField := ⟨.timTscStorm, 15, 0⟩
def timTscStat_locked : RegField := ⟨.timTscStat, 31, 31⟩
def timTscStat_count : RegField := ⟨.timTscStat, 4, 0⟩
def timTscPop_pop : RegField := ⟨.timTscPop, 0, 0⟩
def timTscHead_word : RegField := ⟨.timTscHead, 31, 0⟩
def timPpsCfg_en : RegField := ⟨.timPpsCfg, 31, 31⟩
def timPpsCfg_commit : RegField := ⟨.timPpsCfg, 30, 30⟩
def timPpsCfg_pol : RegField := ⟨.timPpsCfg, 29, 29⟩
def timPpsCfg_dom : RegField := ⟨.timPpsCfg, 28, 27⟩
def timPpsStart_start : RegField := ⟨.timPpsStart, 31, 0⟩
def timPpsPeriod_period_ns : RegField := ⟨.timPpsPeriod, 31, 0⟩
def timPpsWidth_width_ns : RegField := ⟨.timPpsWidth, 31, 0⟩
def timPpsStat_active : RegField := ⟨.timPpsStat, 31, 31⟩
def timPpsStat_late : RegField := ⟨.timPpsStat, 30, 30⟩
def canCtrl_en : RegField := ⟨.canCtrl, 31, 31⟩
def canCtrl_mode : RegField := ⟨.canCtrl, 30, 29⟩
def canCtrl_fd_en : RegField := ⟨.canCtrl, 28, 28⟩
def canCtrl_xl_en : RegField := ⟨.canCtrl, 27, 27⟩
def canCtrl_xl_es_dis : RegField := ⟨.canCtrl, 26, 26⟩
def canCtrl_pwm_en : RegField := ⟨.canCtrl, 25, 25⟩
def canCtrl_bo_auto : RegField := ⟨.canCtrl, 23, 23⟩
def canCtrl_bo_flush : RegField := ⟨.canCtrl, 22, 22⟩
def canCtrl_brs : RegField := ⟨.canCtrl, 21, 21⟩
def canNbt_nbrp : RegField := ⟨.canNbt, 31, 26⟩
def canNbt_ntseg1 : RegField := ⟨.canNbt, 25, 17⟩
def canNbt_ntseg2 : RegField := ⟨.canNbt, 16, 9⟩
def canNbt_nsjw : RegField := ⟨.canNbt, 7, 0⟩
def canDbt_dbrp : RegField := ⟨.canDbt, 31, 26⟩
def canDbt_dtseg1 : RegField := ⟨.canDbt, 23, 16⟩
def canDbt_dtseg2 : RegField := ⟨.canDbt, 12, 8⟩
def canDbt_dsjw : RegField := ⟨.canDbt, 4, 0⟩
def canXbt_dbrp : RegField := ⟨.canXbt, 31, 26⟩
def canXbt_dtseg1 : RegField := ⟨.canXbt, 23, 16⟩
def canXbt_dtseg2 : RegField := ⟨.canXbt, 12, 8⟩
def canXbt_dsjw : RegField := ⟨.canXbt, 4, 0⟩
def canTdc_tdc_en : RegField := ⟨.canTdc, 31, 31⟩
def canTdc_tdc_offset : RegField := ⟨.canTdc, 23, 16⟩
def canTdc_tdc_meas : RegField := ⟨.canTdc, 15, 8⟩
def canTdc_tdc_filter : RegField := ⟨.canTdc, 7, 0⟩
def canPwm_pwm_o : RegField := ⟨.canPwm, 23, 16⟩
def canPwm_pwm_l : RegField := ⟨.canPwm, 15, 8⟩
def canPwm_pwm_s : RegField := ⟨.canPwm, 7, 0⟩
def canTxCfg_max_age_us : RegField := ⟨.canTxCfg, 15, 0⟩
def canBoCfg_recover : RegField := ⟨.canBoCfg, 31, 31⟩
def canBoCfg_bo_delay_ms : RegField := ⟨.canBoCfg, 15, 0⟩
def canStat_fc_state : RegField := ⟨.canStat, 31, 30⟩
def canStat_lpf_active : RegField := ⟨.canStat, 29, 29⟩
def canStat_tec : RegField := ⟨.canStat, 23, 16⟩
def canStat_rec : RegField := ⟨.canStat, 15, 8⟩
def canStat_txq_frames : RegField := ⟨.canStat, 6, 0⟩
def canLpfCfg_en : RegField := ⟨.canLpfCfg, 31, 31⟩
def canLpfCfg_wup_en : RegField := ⟨.canLpfCfg, 30, 30⟩
def canLpfCfg_ide : RegField := ⟨.canLpfCfg, 29, 29⟩
def canLpfCfg_wuf_id : RegField := ⟨.canLpfCfg, 28, 0⟩
def canLpfMask_mask : RegField := ⟨.canLpfMask, 28, 0⟩
def canLpfDataLo_dmask : RegField := ⟨.canLpfDataLo, 31, 0⟩
def canLpfDataHi_dmask : RegField := ⟨.canLpfDataHi, 31, 0⟩
def canLpfCtl_dlc : RegField := ⟨.canLpfCtl, 27, 24⟩
def canLpfCtl_fec_thr : RegField := ⟨.canLpfCtl, 20, 16⟩
def canLpfCtl_rate : RegField := ⟨.canLpfCtl, 13, 12⟩
def canLpfStat_wuf_hit : RegField := ⟨.canLpfStat, 31, 31⟩
def canLpfStat_wup_hit : RegField := ⟨.canLpfStat, 30, 30⟩
def canLpfStat_fec_ovf : RegField := ⟨.canLpfStat, 29, 29⟩
def canLpfStat_fec : RegField := ⟨.canLpfStat, 4, 0⟩
def canLoadResult_done : RegField := ⟨.canLoadResult, 31, 31⟩
def canLoadResult_item_ord : RegField := ⟨.canLoadResult, 23, 8⟩
def canLoadResult_detail_code : RegField := ⟨.canLoadResult, 7, 0⟩
def linCtrl_en : RegField := ⟨.linCtrl, 31, 31⟩
def linCtrl_master : RegField := ⟨.linCtrl, 30, 30⟩
def linCtrl_auto_baud : RegField := ⟨.linCtrl, 29, 29⟩
def linCtrl_brk_bits : RegField := ⟨.linCtrl, 28, 24⟩
def linCtrl_delim : RegField := ⟨.linCtrl, 23, 22⟩
def linCtrl_baud_bps : RegField := ⟨.linCtrl, 15, 0⟩
def linSched_switch : RegField := ⟨.linSched, 31, 31⟩
def linSched_cur_table : RegField := ⟨.linSched, 10, 8⟩
def linSched_next_table : RegField := ⟨.linSched, 2, 0⟩
def linStat_state : RegField := ⟨.linStat, 31, 30⟩
def linStat_cur_entry : RegField := ⟨.linStat, 23, 16⟩
def linStat_last_pid : RegField := ⟨.linStat, 15, 8⟩
def linTable_valid : RegField := ⟨.linTable, 31, 31⟩
def linTable_base : RegField := ⟨.linTable, 22, 16⟩
def linTable_len : RegField := ⟨.linTable, 7, 0⟩
def linFrame_dir : RegField := ⟨.linFrame, 31, 30⟩
def linFrame_enh_cs : RegField := ⟨.linFrame, 29, 29⟩
def linFrame_queue : RegField := ⟨.linFrame, 28, 28⟩
def linFrame_group : RegField := ⟨.linFrame, 27, 24⟩
def linFrame_len : RegField := ⟨.linFrame, 3, 0⟩
def linSlot_type : RegField := ⟨.linSlot, 31, 30⟩
def linSlot_frame_id : RegField := ⟨.linSlot, 29, 24⟩
def linSlot_aux : RegField := ⟨.linSlot, 23, 20⟩
def linSlot_slot_us : RegField := ⟨.linSlot, 15, 0⟩
def tssPhyCfg_en : RegField := ⟨.tssPhyCfg, 31, 31⟩
def tssPhyCfg_plca_strict : RegField := ⟨.tssPhyCfg, 30, 30⟩
def tssPlcaCtrl_en : RegField := ⟨.tssPlcaCtrl, 31, 31⟩
def tssPlcaCtrl_node_id : RegField := ⟨.tssPlcaCtrl, 15, 8⟩
def tssPlcaCtrl_node_cnt : RegField := ⟨.tssPlcaCtrl, 7, 0⟩
def tssPlcaTmr_to_timer : RegField := ⟨.tssPlcaTmr, 31, 24⟩
def tssPlcaTmr_burst_cnt : RegField := ⟨.tssPlcaTmr, 23, 16⟩
def tssPlcaTmr_burst_tmr : RegField := ⟨.tssPlcaTmr, 15, 8⟩
def tssPlcaStat_plca_status : RegField := ⟨.tssPlcaStat, 31, 31⟩
def cipArbCfg_w_sky : RegField := ⟨.cipArbCfg, 23, 16⟩
def cipArbCfg_w_ctrl : RegField := ⟨.cipArbCfg, 15, 8⟩
def cipArbCfg_w_host : RegField := ⟨.cipArbCfg, 7, 0⟩
def cipCtxSplit_ctrl_base : RegField := ⟨.cipCtxSplit, 25, 16⟩
def cipCtxSplit_host_base : RegField := ⟨.cipCtxSplit, 9, 0⟩
def cipTrngStat_ready : RegField := ⟨.cipTrngStat, 31, 31⟩
def cipTrngStat_health_fail : RegField := ⟨.cipTrngStat, 30, 30⟩
def cipVbStat_hwm_blk : RegField := ⟨.cipVbStat, 28, 16⟩
def cipVbStat_used_blk : RegField := ⟨.cipVbStat, 12, 0⟩
def cipJobCmd_go : RegField := ⟨.cipJobCmd, 31, 31⟩
def cipJobCmd_op : RegField := ⟨.cipJobCmd, 27, 24⟩
def cipJobCmd_key_slot : RegField := ⟨.cipJobCmd, 23, 16⟩
def cipJobCmd_ctx : RegField := ⟨.cipJobCmd, 9, 0⟩
def cipJobArg_alg : RegField := ⟨.cipJobArg, 31, 24⟩
def cipJobArg_aad : RegField := ⟨.cipJobArg, 13, 13⟩
def cipJobArg_len : RegField := ⟨.cipJobArg, 12, 0⟩
def cipJobStat_result : RegField := ⟨.cipJobStat, 31, 28⟩
def cipKcmd_go : RegField := ⟨.cipKcmd, 31, 31⟩
def cipKcmd_op : RegField := ⟨.cipKcmd, 27, 24⟩
def cipKcmd_key_slot : RegField := ⟨.cipKcmd, 23, 16⟩
def cipKcmd_rx : RegField := ⟨.cipKcmd, 15, 15⟩
def cipKcmd_sa : RegField := ⟨.cipKcmd, 9, 0⟩
def cipKcmdStat_result : RegField := ⟨.cipKcmdStat, 31, 28⟩
def cipBypassEt_ethertype : RegField := ⟨.cipBypassEt, 15, 0⟩
def cipLoadResult_done : RegField := ⟨.cipLoadResult, 31, 31⟩
def cipLoadResult_item_ord : RegField := ⟨.cipLoadResult, 23, 8⟩
def cipLoadResult_detail_code : RegField := ⟨.cipLoadResult, 7, 0⟩
def cipSecyCfg_en : RegField := ⟨.cipSecyCfg, 31, 31⟩
def cipSecyCfg_protect : RegField := ⟨.cipSecyCfg, 30, 30⟩
def cipSecyCfg_confid : RegField := ⟨.cipSecyCfg, 29, 29⟩
def cipSecyCfg_offset : RegField := ⟨.cipSecyCfg, 28, 27⟩
def cipSecyCfg_send_sci : RegField := ⟨.cipSecyCfg, 26, 26⟩
def cipSecyCfg_use_es : RegField := ⟨.cipSecyCfg, 25, 25⟩
def cipSecyCfg_use_scb : RegField := ⟨.cipSecyCfg, 24, 24⟩
def cipSecyCfg_validate : RegField := ⟨.cipSecyCfg, 23, 23⟩
def cipSecyCfg_replay_protect : RegField := ⟨.cipSecyCfg, 22, 22⟩
def cipSecyCfg_suite : RegField := ⟨.cipSecyCfg, 21, 20⟩
def cipSecyCfg_bypass_ptp : RegField := ⟨.cipSecyCfg, 19, 19⟩
def cipSecyCfg_bypass_eapol : RegField := ⟨.cipSecyCfg, 18, 18⟩
def cipSecyCfg_bypass_et_en : RegField := ⟨.cipSecyCfg, 17, 14⟩
def cipSecyRwin_window : RegField := ⟨.cipSecyRwin, 29, 0⟩
def cipTxsci_sci : RegField := ⟨.cipTxsci, 31, 0⟩
def cipTxscCtrl_enc_an : RegField := ⟨.cipTxscCtrl, 1, 0⟩
def cipSecyPnthr_pn_thr : RegField := ⟨.cipSecyPnthr, 31, 0⟩
def cipTxSa0_in_use : RegField := ⟨.cipTxSa0, 31, 31⟩
def cipTxSa0_key_ok : RegField := ⟨.cipTxSa0, 30, 30⟩
def cipTxSaSsci_ssci : RegField := ⟨.cipTxSaSsci, 31, 0⟩
def cipTxSaSalt_salt : RegField := ⟨.cipTxSaSalt, 31, 0⟩
def cipTxSaNextPn_next_pn : RegField := ⟨.cipTxSaNextPn, 31, 0⟩
def cipRxSa0_in_use : RegField := ⟨.cipRxSa0, 31, 31⟩
def cipRxSa0_key_ok : RegField := ⟨.cipRxSa0, 30, 30⟩
def cipRxSaSsci_ssci : RegField := ⟨.cipRxSaSsci, 31, 0⟩
def cipRxSaSalt_salt : RegField := ⟨.cipRxSaSalt, 31, 0⟩
def cipRxSaNextPn_next_pn : RegField := ⟨.cipRxSaNextPn, 31, 0⟩
def cipRxSc0_valid : RegField := ⟨.cipRxSc0, 31, 31⟩
def cipRxSc0_port : RegField := ⟨.cipRxSc0, 30, 25⟩
def cipRxScSci_sci : RegField := ⟨.cipRxScSci, 31, 0⟩
def keyLcStat_dbg_open : RegField := ⟨.keyLcStat, 28, 28⟩
def keyLcStat_dbg_fail : RegField := ⟨.keyLcStat, 25, 24⟩
def keyLcStat_lc_state : RegField := ⟨.keyLcStat, 3, 0⟩
def keyLcCtr_lc_ctr : RegField := ⟨.keyLcCtr, 31, 0⟩
def keyAttCtr_att_ctr : RegField := ⟨.keyAttCtr, 31, 0⟩
def keyUid_uid : RegField := ⟨.keyUid, 31, 0⟩
def keyCmd_go : RegField := ⟨.keyCmd, 31, 31⟩
def keyCmd_op : RegField := ⟨.keyCmd, 27, 24⟩
def keyCmd_len : RegField := ⟨.keyCmd, 8, 0⟩
def keyCmdStat_result : RegField := ⟨.keyCmdStat, 31, 28⟩
def keyCmdStat_slot : RegField := ⟨.keyCmdStat, 7, 0⟩
def keySlotSel_slot : RegField := ⟨.keySlotSel, 7, 0⟩
def keySlotAttr_valid : RegField := ⟨.keySlotAttr, 31, 31⟩
def keySlotAttr_key256 : RegField := ⟨.keySlotAttr, 30, 30⟩
def keySlotAttr_wr_lock : RegField := ⟨.keySlotAttr, 29, 29⟩
def keySlotAttr_prov_only : RegField := ⟨.keySlotAttr, 28, 28⟩
def keySlotAttr_auth_slot : RegField := ⟨.keySlotAttr, 23, 16⟩
def keySlotAttr_img_digest : RegField := ⟨.keySlotAttr, 12, 12⟩
def keySlotAttr_debug_auth : RegField := ⟨.keySlotAttr, 11, 11⟩
def keySlotAttr_attest : RegField := ⟨.keySlotAttr, 10, 10⟩
def keySlotAttr_kdf_parent : RegField := ⟨.keySlotAttr, 9, 9⟩
def keySlotAttr_upd_auth : RegField := ⟨.keySlotAttr, 8, 8⟩
def keySlotAttr_u_ctx_wrap : RegField := ⟨.keySlotAttr, 6, 6⟩
def keySlotAttr_u_mka : RegField := ⟨.keySlotAttr, 5, 5⟩
def keySlotAttr_u_gcm : RegField := ⟨.keySlotAttr, 4, 4⟩
def keySlotAttr_u_cmac : RegField := ⟨.keySlotAttr, 3, 3⟩
def keySlotAttr_c_host : RegField := ⟨.keySlotAttr, 2, 2⟩
def keySlotAttr_c_ctrl : RegField := ⟨.keySlotAttr, 1, 1⟩
def keySlotAttr_c_sky : RegField := ⟨.keySlotAttr, 0, 0⟩
def keySlotAttr_attr : RegField := ⟨.keySlotAttr, 31, 0⟩
def keySlotCtr_ctr : RegField := ⟨.keySlotCtr, 31, 0⟩
def keySlotGen_gen : RegField := ⟨.keySlotGen, 31, 0⟩
def keySlotStat_empty : RegField := ⟨.keySlotStat, 31, 31⟩
def keySlotStat_ecc_fail : RegField := ⟨.keySlotStat, 30, 30⟩
def keySlotStat_last_upd : RegField := ⟨.keySlotStat, 1, 0⟩
def redCfg_en : RegField := ⟨.redCfg, 31, 31⟩
def redCfg_home_hi : RegField := ⟨.redCfg, 30, 30⟩
def redCfg_pair_port : RegField := ⟨.redCfg, 29, 29⟩
def redCfg_rebound_ms : RegField := ⟨.redCfg, 15, 0⟩
def redHbCfg_kick_ms : RegField := ⟨.redHbCfg, 31, 24⟩
def redHbCfg_loss_us : RegField := ⟨.redHbCfg, 23, 12⟩
def redHbCfg_confirm_us : RegField := ⟨.redHbCfg, 11, 0⟩
def redHbKick_kick : RegField := ⟨.redHbKick, 0, 0⟩
def redStat_role : RegField := ⟨.redStat, 31, 29⟩
def redStat_partner_alive : RegField := ⟨.redStat, 28, 28⟩
def redStat_link_up : RegField := ⟨.redStat, 27, 27⟩
def redStat_digest_eq : RegField := ⟨.redStat, 26, 26⟩
def redStat_eligible : RegField := ⟨.redStat, 25, 25⟩
def redStat_home : RegField := ⟨.redStat, 24, 24⟩
def redStat_partner_role : RegField := ⟨.redStat, 22, 20⟩
def redSeqSkip_seq_skip : RegField := ⟨.redSeqSkip, 6, 0⟩
def redPartnerUid_uid : RegField := ⟨.redPartnerUid, 31, 0⟩
def redLoadResult_done : RegField := ⟨.redLoadResult, 31, 31⟩
def redLoadResult_item_ord : RegField := ⟨.redLoadResult, 23, 8⟩
def redLoadResult_detail_code : RegField := ⟨.redLoadResult, 7, 0⟩
def memScrubCfg_en : RegField := ⟨.memScrubCfg, 31, 31⟩
def memScrubCfg_period_ms : RegField := ⟨.memScrubCfg, 15, 0⟩
def memScrubStat_late : RegField := ⟨.memScrubStat, 31, 31⟩
def memScrubStat_last_pass_ms : RegField := ⟨.memScrubStat, 15, 0⟩
def memCeLog0_valid : RegField := ⟨.memCeLog0, 31, 31⟩
def memCeLog0_type : RegField := ⟨.memCeLog0, 30, 28⟩
def memCeLog0_mem_id : RegField := ⟨.memCeLog0, 27, 22⟩
def memCeLog0_instance : RegField := ⟨.memCeLog0, 21, 16⟩
def memCeLog0_syndrome : RegField := ⟨.memCeLog0, 15, 8⟩
def memCeLog0_source : RegField := ⟨.memCeLog0, 7, 4⟩
def memCeLog1_addr : RegField := ⟨.memCeLog1, 23, 0⟩
def memCeLogLt_lt : RegField := ⟨.memCeLogLt, 31, 0⟩
def memUeLog0_valid : RegField := ⟨.memUeLog0, 31, 31⟩
def memUeLog0_type : RegField := ⟨.memUeLog0, 30, 28⟩
def memUeLog0_mem_id : RegField := ⟨.memUeLog0, 27, 22⟩
def memUeLog0_instance : RegField := ⟨.memUeLog0, 21, 16⟩
def memUeLog0_syndrome : RegField := ⟨.memUeLog0, 15, 8⟩
def memUeLog0_source : RegField := ⟨.memUeLog0, 7, 4⟩
def memUeLog1_addr : RegField := ⟨.memUeLog1, 23, 0⟩
def memUeLogLt_lt : RegField := ⟨.memUeLogLt, 31, 0⟩
def memFlipCtrl_arm : RegField := ⟨.memFlipCtrl, 31, 31⟩
def memFlipCtrl_addr_en : RegField := ⟨.memFlipCtrl, 30, 30⟩
def memFlipCtrl_cancel : RegField := ⟨.memFlipCtrl, 29, 29⟩
def memFlipCtrl_mem_id : RegField := ⟨.memFlipCtrl, 27, 22⟩
def memFlipCtrl_instance : RegField := ⟨.memFlipCtrl, 21, 16⟩
def memFlipCtrl_chk_mask : RegField := ⟨.memFlipCtrl, 15, 8⟩
def memFlipAddr_addr : RegField := ⟨.memFlipAddr, 23, 0⟩
def memWeakLast0_valid : RegField := ⟨.memWeakLast0, 31, 31⟩
def memWeakLast0_mem_id : RegField := ⟨.memWeakLast0, 27, 22⟩
def memWeakLast0_instance : RegField := ⟨.memWeakLast0, 21, 16⟩
def memWeakLast1_row : RegField := ⟨.memWeakLast1, 23, 0⟩
def memRepairSel_mem_id : RegField := ⟨.memRepairSel, 5, 0⟩
def memFlipD_dmask : RegField := ⟨.memFlipD, 31, 0⟩
def memRepairStat_fuse_rows : RegField := ⟨.memRepairStat, 31, 24⟩
def memRepairStat_field_rows : RegField := ⟨.memRepairStat, 23, 16⟩
def memRepairStat_pending : RegField := ⟨.memRepairStat, 15, 8⟩
def memRepairStat_spare_free : RegField := ⟨.memRepairStat, 7, 0⟩
def memLoadResult_done : RegField := ⟨.memLoadResult, 31, 31⟩
def memLoadResult_item_ord : RegField := ⟨.memLoadResult, 23, 8⟩
def memLoadResult_detail_code : RegField := ⟨.memLoadResult, 7, 0⟩
def pwrCtrl_commit : RegField := ⟨.pwrCtrl, 31, 31⟩
def pwrCtrl_hold : RegField := ⟨.pwrCtrl, 30, 30⟩
def pwrCtrl_sleep_req : RegField := ⟨.pwrCtrl, 29, 29⟩
def pwrCtrl_wake_out : RegField := ⟨.pwrCtrl, 28, 28⟩
def pwrCtrl_target : RegField := ⟨.pwrCtrl, 27, 26⟩
def pwrStat_ring_state : RegField := ⟨.pwrStat, 31, 30⟩
def pwrStat_commit_fail : RegField := ⟨.pwrStat, 29, 29⟩
def pwrStat_round : RegField := ⟨.pwrStat, 15, 0⟩
def pwrWakeEn_timer_en : RegField := ⟨.pwrWakeEn, 29, 29⟩
def pwrWakeEn_t1_en : RegField := ⟨.pwrWakeEn, 27, 16⟩
def pwrWakeEn_can_en : RegField := ⟨.pwrWakeEn, 15, 0⟩
def pwrWakeEn2_win_pol : RegField := ⟨.pwrWakeEn2, 15, 12⟩
def pwrWakeEn2_win_en : RegField := ⟨.pwrWakeEn2, 11, 8⟩
def pwrWakeEn2_lin_en : RegField := ⟨.pwrWakeEn2, 7, 0⟩
def pwrWakeSrc_valid : RegField := ⟨.pwrWakeSrc, 31, 31⟩
def pwrWakeSrc_late : RegField := ⟨.pwrWakeSrc, 30, 30⟩
def pwrWakeSrc_src_code : RegField := ⟨.pwrWakeSrc, 23, 16⟩
def pwrTimer_wake_s : RegField := ⟨.pwrTimer, 23, 0⟩
def pwrRingCfg_member_cnt : RegField := ⟨.pwrRingCfg, 29, 24⟩
def pwrRingCfg_reply_ms : RegField := ⟨.pwrRingCfg, 23, 16⟩
def pwrRingCfg_veto_thr : RegField := ⟨.pwrRingCfg, 15, 8⟩
def pwrRingCfg_force_rounds : RegField := ⟨.pwrRingCfg, 7, 0⟩
def pwrRingCfg1_retry_s : RegField := ⟨.pwrRingCfg1, 31, 16⟩
def pwrRingCfg1_vid : RegField := ⟨.pwrRingCfg1, 11, 0⟩
def pwrEntryCfg_lps_ms : RegField := ⟨.pwrEntryCfg, 15, 8⟩
def pwrEntryCfg_commit_hold : RegField := ⟨.pwrEntryCfg, 7, 0⟩
def pwrInhCfg_sleep_off : RegField := ⟨.pwrInhCfg, 1, 1⟩
def pwrInhCfg_inh : RegField := ⟨.pwrInhCfg, 0, 0⟩
def pwrWakeoutCfg_pol : RegField := ⟨.pwrWakeoutCfg, 31, 31⟩
def pwrWakeoutCfg_width_ms : RegField := ⟨.pwrWakeoutCfg, 23, 16⟩
def pwrWakeoutCfg_src_mask : RegField := ⟨.pwrWakeoutCfg, 4, 0⟩
def pwrTc10Cfg_tc10_en : RegField := ⟨.pwrTc10Cfg, 27, 16⟩
def pwrTc10Cfg_wup_fwd : RegField := ⟨.pwrTc10Cfg, 11, 0⟩
def pwrFrStat_fr_ok : RegField := ⟨.pwrFrStat, 27, 16⟩
def pwrFrStat_coef_valid : RegField := ⟨.pwrFrStat, 11, 0⟩
def pwrWakeAll0_timer : RegField := ⟨.pwrWakeAll0, 29, 29⟩
def pwrWakeAll0_t1 : RegField := ⟨.pwrWakeAll0, 27, 16⟩
def pwrWakeAll0_can : RegField := ⟨.pwrWakeAll0, 15, 0⟩
def pwrWakeAll1_win_pol : RegField := ⟨.pwrWakeAll1, 15, 12⟩
def pwrWakeAll1_win : RegField := ⟨.pwrWakeAll1, 11, 8⟩
def pwrWakeAll1_lin : RegField := ⟨.pwrWakeAll1, 7, 0⟩
def pwrVetoLog0_valid : RegField := ⟨.pwrVetoLog0, 31, 31⟩
def pwrVetoLog0_member : RegField := ⟨.pwrVetoLog0, 23, 16⟩
def pwrVetoLog0_reason : RegField := ⟨.pwrVetoLog0, 15, 8⟩
def pwrVetoLog1_round : RegField := ⟨.pwrVetoLog1, 31, 16⟩
def pwrVetoLogLt_lt : RegField := ⟨.pwrVetoLogLt, 31, 0⟩
def pwrLoadResult_done : RegField := ⟨.pwrLoadResult, 31, 31⟩
def pwrLoadResult_item_ord : RegField := ⟨.pwrLoadResult, 23, 8⟩
def pwrLoadResult_detail_code : RegField := ⟨.pwrLoadResult, 7, 0⟩
def pwrMember0_valid : RegField := ⟨.pwrMember0, 31, 31⟩
def pwrMember0_kind : RegField := ⟨.pwrMember0, 30, 30⟩
def pwrMember0_may_force : RegField := ⟨.pwrMember0, 29, 29⟩
def pwrMember0_down_ok : RegField := ⟨.pwrMember0, 28, 28⟩
def pwrMember0_port : RegField := ⟨.pwrMember0, 27, 22⟩
def pwrMember1_addr1 : RegField := ⟨.pwrMember1, 31, 0⟩
def pwrMember2_addr2 : RegField := ⟨.pwrMember2, 31, 0⟩
def pwrMember3_excluded : RegField := ⟨.pwrMember3, 31, 31⟩
def pwrMember3_last_reason : RegField := ⟨.pwrMember3, 23, 16⟩
def pwrMember3_consec : RegField := ⟨.pwrMember3, 15, 8⟩

end Sys2Proof.Machine.F
end

