-- ==== Sys2Proof/Machine/TypesSet.lean ====
section
/-! DEFINITION. What a configuration set (CSET) holds, as the loader reads it. The spec gives the header of an image and the
types of its sections (R398), but no layout of the sections: `Config.csetBody` reads them (assumption 23). -/

namespace Sys2Proof.Machine

/-- A reserved stream (R58). -/
structure StreamDecl where
  idx     : Nat
  inPort  : Nat
  /-- egress ports, each with the class declared there -/
  egr     : List (Nat × Nat)
  /-- L_s, and the maximum length as received, L_in (R59) -/
  maxLen  : Nat
  lenIn   : Nat
  /-- n_s -/
  frames  : Nat
  /-- r_s in bit/s -/
  rate    : Nat
  /-- D_req in ns -/
  bound   : Nat
  express : Bool
  /-- Skerry budget, and the Skerry profile that steers its frames -/
  budget  : Option Nat
  prof    : Option Nat
  /-- every item of R58 that is not optional is declared -/
  whole   : Bool
  deriving DecidableEq, Repr

/-- A route: address family, prefix, prefix length, result word (R124, R125). -/
structure Route where
  v6   : Bool
  addr : Nat
  len  : Nat
  res  : Word
  deriving DecidableEq, Repr

/-- The content of a set, in the order of its sections. -/
structure Cset where
  /-- registers, by kind and instance -/
  regs    : List (Reg × Nat × Word)
  /-- entries of tables with one copy per parity: table ID, index, words -/
  tabs    : List (Nat × Nat × List Word)
  /-- rules: bank and entry -/
  rules   : List (Nat × List Word)
  /-- static FDB entries, host routes, identification entries, legacy map entries -/
  fdb     : List (List Word)
  hosts   : List (List Word)
  sids    : List (List Word)
  map     : List (List Word)
  routes  : List Route
  streams : List StreamDecl
  /-- burst in bytes that the set declares for the token bucket of a class queue (R184) -/
  bursts  : List (Nat × Nat)
  /-- largest frame and largest burst count of the other nodes at P12 and P13 (R268) -/
  segs    : List (Nat × Nat × Nat)
  /-- persistence section: LIN routes, and Ethernet entries as table ID 0x11 or 0x10, index, words (R413) -/
  linRoutes : List (List Word)
  minEth  : List (Nat × Nat × List Word)
  deriving DecidableEq, Repr, Inhabited

/-- The minimal configuration in MRAM (R413): the SHA-256 of its source set; registers, legacy map entries and LIN routes, and
Ethernet entries. -/
structure MinCfg where
  src  : List Byte
  regs : List (Reg × Nat × Word)
  fast : List (List Word)
  lin  : List (List Word)
  eth  : List (Nat × Nat × List Word)
  deriving DecidableEq, Repr

end Sys2Proof.Machine
end

