-- ==== Sys2Proof/Machine/TypesSys.lean ====
section
/-! DEFINITION. The plain data types of the device's control side: operating states, time base, host bridge, message
queues, memory integrity, power, start-up and update, control pair and pairing. Each type cites the rules that give it. -/

namespace Sys2Proof.Machine

/-! ## Operating states (R26) -/

/-- The six operating states. -/
inductive Op where
  | off | boot | run | minimal | standby | sleep
  deriving DecidableEq, Repr

/-- The state codes of GLB_OP_STATE. -/
def Op.code : Op → Nat
  | .off => 0 | .boot => 1 | .run => 2 | .minimal => 3 | .standby => 4 | .sleep => 5

/-- The safe states of R336, in rising severity (R339). -/
inductive SafeSt where
  | forward | quiet | linkDown
  deriving DecidableEq, Repr

/-- The code of a safe state (R336). -/
def SafeSt.code : SafeSt → Nat
  | .forward => 0 | .quiet => 1 | .linkDown => 2

/-- The safe state of a code; the reserved code 3 never stands in GLB_SAFE_CFG (R487). -/
def SafeSt.ofCode : Nat → SafeSt
  | 0 => .forward
  | 1 => .quiet
  | _ => .linkDown

/-! ## Time base (R196 to R222) -/

/-- One gPTP domain clock. `val` is seconds, nanoseconds and fraction as one count of 2^-48 ns (R197). `rem` is the slew
remainder in units of 1.25e-6 ns, the time a slew of 1 ppm adds in one tick (R200). -/
structure Dom where
  val     : Nat
  rem     : Int
  slewing : Bool
  deriving DecidableEq, Repr

/-- A domain clock at its reset value. -/
def Dom.reset : Dom := ⟨0, 0, false⟩

/-- A record of eight words in the layout of R207 or R217. -/
abbrev Rec8 := List Word

/-- The open record of a capture input (R214). -/
structure TscOpen where
  ltTick : Nat
  dom    : Nat
  domVal : Nat
  rising : Bool
  merge  : Nat
  level  : Bool
  deriving DecidableEq, Repr

/-- A capture input (R212 to R217). -/
structure Tsc where
  level    : Bool
  openRec  : Option TscOpen
  winStart : Nat
  winCnt   : Nat
  seq      : Nat
  lost     : Bool
  fifo     : List Rec8
  /-- a record whose window has ended and that has not closed yet: it closes before the open one (R214) -/
  closing  : Option TscOpen
  /-- the words of TIM_TSC_CFG and TIM_TSC_STORM before the writes of a tick, and the tick: those writes take effect after it (R217) -/
  old      : Option (Word × Word × Nat)
  /-- position of the head of the FIFO in memory 0x0F -/
  head     : Nat
  /-- the tick at which the level was recognised (R212) -/
  levelAt  : Option Nat
  deriving DecidableEq, Repr

/-- A capture input at its reset value. -/
def Tsc.reset : Tsc := ⟨false, none, 0, 0, 0, false, [], none, none, 0, none⟩

/-- A schedule of a periodic output: start in ns, period, width, domain (R218). -/
structure PpsSched where
  start  : Nat
  period : Nat
  width  : Nat
  dom    : Nat
  deriving DecidableEq, Repr

/-- A periodic output: its running and pending schedules, the next target in ns, and the tick its pulse began (R218 to R220). -/
structure Pps where
  run     : Option PpsSched
  pend    : Option PpsSched
  next    : Nat
  active  : Bool
  /-- the domain time in ns at which the active pulse began -/
  began   : Nat
  deriving DecidableEq, Repr

/-- A periodic output at its reset value. -/
def Pps.reset : Pps := ⟨none, none, 0, false, 0⟩

/-- A committed set or step of a domain, at the tick of its commit (R199): the new time or the step in ns. -/
structure Jump where
  at_ : Nat
  dom : Nat
  set : Bool
  ns  : Int
  deriving DecidableEq, Repr

/-- The time base: ticks of LT since the entry into BOOT (R196), the domains, the port and capture queues, the positions of the heads
of the port queues in memory 0x0F, and the sets, steps and rates that have not taken effect. -/
structure Tim where
  lt    : Ticks
  doms  : Tbl Dom
  txts  : Tbl (List Rec8)
  tsc   : Tbl Tsc
  pps   : Tbl Pps
  heads : Tbl Nat
  jumps : List Jump
  /-- the words of TIM_DOM_FREQ and TIM_DOM_SLEW_CFG of a domain before the writes of a tick: they rule until LT leaves it (R198, R200) -/
  rates : Tbl (Option (Word × Word))
  /-- the domains in the last 15 ticks, latest first (R213) -/
  past  : List (List Nat)
  deriving DecidableEq, Repr

/-! ## Message queues (R445 to R449) -/

/-- An item of a message queue: four words. -/
structure MqItem where
  words : List Word
  deriving DecidableEq, Repr

/-- The mark of a queue (R448). -/
inductive Mark where
  | none
  | valid (at_ : Nat)
  | lost
  deriving DecidableEq, Repr

/-- A message queue: `f` is F modulo 2^32, `items` the items from F to W - 1, `held` is Rd - F (R446). -/
structure Mq where
  f     : Nat
  items : List MqItem
  held  : Nat
  mark  : Mark
  deriving DecidableEq, Repr

/-- A message queue at its reset value. -/
def Mq.reset : Mq := ⟨0, [], 0, .none⟩

/-! ## Host bridge (R424 to R444) -/

/-- The read-ahead buffer of a path for an auxiliary SPI window (R431). -/
structure PfBuf where
  /-- peripheral address of the first word still unread -/
  addr  : Nat
  words : List Word
  /-- LT tick of the read-ahead -/
  since : Nat
  deriving DecidableEq, Repr

/-- The items that one access path has of its own (R424): posted-write sequence number, fences, read-ahead buffers. -/
structure PathSt where
  seq   : Nat
  fence : Nat
  pf    : Tbl PfBuf
  deriving DecidableEq, Repr

/-- A path at its reset value. -/
def PathSt.reset : PathSt := ⟨0, 0, []⟩

/-- One entry of the MSI-X table of BAR2, its pending bit, and the tick of its last message (R427, R453). -/
structure MsixVec where
  addrLo  : Word
  addrHi  : Word
  data    : Word
  masked  : Bool
  pending : Bool
  last    : Option Nat
  deriving DecidableEq, Repr

/-- An MSI-X vector after PERST_N: masked, nothing pending. -/
def MsixVec.reset : MsixVec := ⟨0, 0, 0, true, false, none⟩

/-- A posted write that waits in its path's queue (R424, R437): whether it targets the MSI-X table, its offset, its dwords with their byte
enables, its EP bit, requester ID and tag, its sequence number (R434), and the status bytes that a peripheral will return for it. -/
structure Posted where
  bar2  : Bool
  addr  : Nat
  data  : List (Word × Nat)
  ep    : Bool
  reqId : Nat
  tag   : Nat
  seq   : Nat
  far   : List Byte
  deriving DecidableEq, Repr

/-- The host bridge: the paths, the MSI-X table, the level of PERST_N, and of the management SPI port whether its last frame
failed its CRC; the posted writes that wait on it and on PCIe, oldest first (R424, R437); whether a READ of the port is being served
(R438), and whether the PCIe link is in L2 (R443). -/
structure Hbr where
  paths     : Tbl PathSt
  msix      : Tbl MsixVec
  perstLow  : Bool
  spiCrcErr : Bool
  spiQ      : List Posted
  pcieQ     : List Posted
  reading   : Bool
  l2        : Bool
  deriving DecidableEq, Repr

/-! ## Memory integrity (R357 to R372) -/

/-- The condition of a stored word that is not clean (R358, R359). -/
inductive WordErr where
  | correctable
  | uncorrectable
  | poison
  deriving DecidableEq, Repr

/-- An entry of the repeat tracker (R364). -/
structure TrkEnt where
  inst  : Nat
  addr  : Nat
  count : Nat
  since : Nat
  deriving DecidableEq, Repr

/-- An entry of a merge buffer (R362): which of the 8 bytes are written, and their values. -/
structure MergeEnt where
  mem   : Nat
  inst  : Nat
  addr  : Nat
  bytes : List (Option Byte)
  /-- LT tick of the last write into the entry -/
  last  : Nat
  deriving DecidableEq, Repr

/-- Memory integrity state. Words that are not clean are keyed by memory, instance and word address. -/
structure Mem where
  /-- words that hold an error, with the syndrome that a read finds -/
  errs    : Tbl (WordErr × Nat)
  /-- repeat trackers by memory ID -/
  trk     : Tbl (List TrkEnt)
  /-- merge-buffer entries, oldest first -/
  merge   : List MergeEnt
  /-- table entries whose parity failure has been detected and is not repaired, by memory and index (R367) -/
  parity  : Tbl Bool
  /-- 64-bit words written through the merge buffers -/
  words   : Tbl (List Byte)
  /-- LT tick at which the scrubber's pass started, and the duration in ms of the pass before it -/
  passAt  : Option Nat
  /-- rows added since this BOOT, by memory ID -/
  pendingRows : Tbl Nat
  /-- power-up time at which the last row was added -/
  rowAt   : Option Nat
  deriving DecidableEq, Repr

/-- Memory integrity state at entry into BOOT. -/
def Mem.reset : Mem := ⟨[], [], [], [], [], none, [], none⟩

/-! ## Power and wake (R373 to R395) -/

/-- The sleep ring states of PWR_STAT.ring_state. -/
inductive RingSt where
  | idle | round | committed | entering
  deriving DecidableEq, Repr

/-- The code of a ring state. -/
def RingSt.code : RingSt → Nat
  | .idle => 0 | .round => 1 | .committed => 2 | .entering => 3

/-- The sleep ring of the device (R384 to R387). -/
structure Ring where
  st       : RingSt
  round    : Nat
  /-- members whose consent has been received in this round -/
  consent  : List Nat
  /-- the member whose RETURN is awaited, and the tick its BALL was sent -/
  await    : Option (Nat × Nat)
  /-- a wake request was raised since the round began (R385) -/
  woken    : Bool
  /-- every member has consented: the commit may be attempted -/
  allIn    : Bool
  /-- end tick of the last failed round, for retry_s; none before the first round -/
  lastEnd  : Option Nat
  /-- the accepted commit: its tick -/
  commitAt : Nat
  /-- ports that have sent LPS and wait for its acknowledgment, and the tick LPS was sent -/
  lpsWait  : List Nat
  lpsAt    : Nat
  /-- the state that the commit leads to: SLEEP, else STANDBY -/
  toSleep  : Bool
  /-- the accepted commit of this tick, whose COMMIT frames go out as LT leaves it: fsc as it was before (R385) -/
  fresh    : Option Nat
  deriving DecidableEq, Repr

/-- The sleep ring at reset. -/
def Ring.reset : Ring := ⟨.idle, 0, [], none, false, false, none, 0, [], 0, false, none⟩

/-- The values saved for a T1 port in the AON retention store (R389). -/
structure CoefSave where
  rate : Nat
  /-- the signature of the link partner taken from the last training -/
  sig  : Word
  /-- the equaliser and echo-canceller coefficients: a value that the PHY finds in training -/
  coef : Word
  deriving DecidableEq, Repr

/-- Power state. The AON part survives every reset except the loss of VDD_AON. -/
structure Pwr where
  ring      : Ring
  /-- AON: saved PHY values by port -/
  coef      : Tbl CoefSave
  /-- AON: the wake latched after a commit, taken in the target state (R386) -/
  latched   : Option Nat
  /-- AON: level last recognised on each WAKE_INn -/
  winLevel  : Tbl Bool
  /-- tick at which the WAKE_OUT pulse began -/
  wakeOut   : Option Nat
  /-- tick at which the present SLEEP or STANDBY was entered -/
  enteredAt : Nat
  /-- in STANDBY, the retained contents are lost (R378) -/
  retLost   : Bool
  /-- the retained fast-start path stands (R28) -/
  fastOk    : Bool
  /-- members for which RING_NODE_STUCK has been raised (R395) -/
  stuckSeen : List Nat
  /-- AON: the level of INH (R390) -/
  inh       : Bool
  /-- a wake edge has been taken in STANDBY or SLEEP, with the source code: the clocks are on their way -/
  waking    : Option Nat
  /-- ports with saved values that have not come up since the wake (R389) -/
  retrain   : List Nat
  /-- AON: the idle counter of the update session (R417): the tick from which it counts, and the seconds counted before it -/
  idleAt    : Nat
  idle0     : Nat
  deriving DecidableEq, Repr

/-- Power state after the first application of VDD_AON. -/
def Pwr.reset : Pwr := ⟨Ring.reset, [], none, [], none, 0, false, false, [], true, none, [], 0, 0⟩

/-! ## Start-up, configuration sets and update (R396 to R423) -/

/-- The states of a FWIM slot in the boot control record (R403). -/
inductive SlotSt where
  | empty | receiving | verified | armed | trial | good | rejected
  deriving DecidableEq, Repr

/-- The code of a slot state. -/
def SlotSt.code : SlotSt → Nat
  | .empty => 0 | .receiving => 1 | .verified => 2 | .armed => 3 | .trial => 4 | .good => 5 | .rejected => 6

/-- A recorded configuration set: its slot and the SHA-256 of the set (R403, R410). -/
structure CsetRef where
  slot   : Nat
  digest : List Byte
  deriving DecidableEq, Repr

/-- The boot control record in MRAM (R402, R403, R410). -/
structure BootRec where
  fsc       : Nat
  primary   : Nat
  stA       : SlotSt
  stB       : SlotSt
  secMin    : Nat
  active    : Option CsetRef
  epoch     : Nat
  prev      : Option CsetRef
  csetTrial : Bool
  bootCount : Nat
  deriving DecidableEq, Repr

/-- The two copies of a record of MRAM (R415): the sequence number and the content of each readable copy. -/
structure Copies (α : Type) where
  a : Option (Nat × α)
  b : Option (Nat × α)
  deriving DecidableEq, Repr

/-- The two copies of the boot control record. -/
abbrev BootCopies := Copies BootRec

/-- The session states of UPD_STAT.sess_state. -/
inductive SessSt where
  | none | receiving | verifying | verified | failed | aborted | expired
  deriving DecidableEq, Repr

/-- The code of a session state. -/
def SessSt.code : SessSt → Nat
  | .none => 0 | .receiving => 1 | .verifying => 2 | .verified => 3 | .failed => 4 | .aborted => 5 | .expired => 6

/-- The owner of an update session: host path or device firmware, and the source identifier (R416). -/
structure UpdOwner where
  host : Bool
  src  : Nat
  deriving DecidableEq, Repr

/-- The update session record in MRAM (R416 to R420). -/
structure Session where
  st     : SessSt
  cset   : Bool
  owner  : UpdOwner
  joined : List UpdOwner
  digest : List Byte
  size   : Nat
  slot   : Nat
  /-- chunks received -/
  bitmap : List Nat
  /-- idle seconds, as stored last (R417) -/
  idle   : Nat
  deriving DecidableEq, Repr

/-- No update session. -/
def Session.reset : Session := ⟨.none, false, ⟨false, 0⟩, [], [], 0, 0, [], 0⟩

/-- The progress of the start in BOOT (R401). -/
structure BootRun where
  /-- the tick of step 4 of the running attempt; none before it -/
  attempt  : Option Nat
  /-- the injection test of R333 has passed -/
  bistOk   : Bool
  /-- the FWIM has been started: its slot, image version, security version -/
  fwim     : Option (Nat × Nat × Nat)
  /-- the CSET has been accepted and its tables written: its slot -/
  cset     : Option Nat
  /-- this BOOT is a fast start (R392), and its subset is live -/
  fast     : Bool
  fastOn   : Bool
  fallback : Bool
  reverted : Bool
  /-- code, detail and item of the last refusal -/
  code     : Nat
  detail   : Nat
  ord      : Nat
  /-- entry cause of this BOOT -/
  cause    : Nat
  /-- attempts in this BOOT -/
  tries    : Nat
  /-- cause and reason of an entry into MINIMAL that waits for the lock of a PLL (R25) -/
  minWait  : Option (Nat × Nat)
  deriving DecidableEq, Repr

/-- Nothing started. -/
def BootRun.reset : BootRun := ⟨none, false, none, none, false, false, false, false, 0, 0, 0, 0, 0, none⟩

/-- A shadow configuration set (R409). -/
structure Shadow where
  slot   : Nat
  digest : List Byte
  ver    : Nat
  set    : Cset
  deriving DecidableEq, Repr

/-- Start-up and update state that lives outside MRAM. -/
structure Boot where
  run      : BootRun
  /-- the FWIM that runs: slot (3 = boot ROM), image version, security version, trial -/
  runSlot  : Nat
  fwimVer  : Nat
  fwimSec  : Nat
  /-- SHA-256 of the FWIM that runs, as the loader checked it -/
  fwimDig  : List Byte
  fwTrial  : Bool
  /-- set version of the active CSET -/
  csetVer  : Nat
  fallback : Bool
  fast     : Bool
  /-- tick of the entry into RUN -/
  runAt    : Nat
  /-- a shadow load is running: its slot -/
  loading  : Option Nat
  shadow   : Option Shadow
  /-- the load that is running, or the shadow, is the revert of a CSET trial (R411) -/
  reverting : Bool
  /-- tick of the swap that started the CSET trial -/
  trialAt  : Option Nat
  /-- cleanup after a swap runs (R410) -/
  cleanup  : Bool
  /-- the active set, as the loader read it -/
  set      : Option Cset
  deriving DecidableEq, Repr

/-- Start-up state at entry into BOOT. -/
def Boot.reset : Boot := ⟨BootRun.reset, 3, 0, 0, List.replicate 32 0, false, 0, false, false, 0, none, none, false, none, false, none⟩

/-- One record of the boot history: its 32 bytes (R408). -/
abbrev HistRec := List Byte

/-- The MRAM regions of R412 that this chapter gives content. Key, repair and settings content stand beside them. -/
structure Mram where
  boot     : BootCopies
  hist     : List HistRec
  /-- the update session record -/
  sess     : Copies Session
  /-- bytes of SETTINGS, FRESH and USER written by STORE, by MRAM offset -/
  bytes    : Tbl Byte
  /-- the minimal configuration, if it was ever written -/
  minCfg   : Option MinCfg
  /-- the header of the minimal configuration: its content hash is valid -/
  minHdr   : Copies Bool
  /-- rows of the field repair map: memory ID, instance and first word address -/
  repair   : List (Nat × Nat × Nat)
  /-- entries of that map that fail their check value, which a loss of power has torn (R365) -/
  torn     : List (Nat × Nat × Nat)
  deriving DecidableEq, Repr

/-! ## Control pair and paired devices (R325 to R356) -/

/-- The modes of GLB_LS_STAT. -/
inductive LsMode where
  | lockstep | splitting | split | repairing
  deriving DecidableEq, Repr

/-- The code of a mode. -/
def LsMode.code : LsMode → Nat
  | .lockstep => 0 | .splitting => 1 | .split => 2 | .repairing => 3

/-- The control pair: its mode, whether its cores are halted, and the safe state that holds. -/
structure Pair where
  mode    : LsMode
  splitAt : Nat
  halted  : Bool
  safe    : Option SafeSt
  /-- tick at which transmission stopped in QUIET or LINK_DOWN: a frame that a legacy channel received by then is finished (R336) -/
  safeAt  : Nat
  deriving DecidableEq, Repr

/-- The control pair at entry into BOOT. -/
def Pair.reset : Pair := ⟨.lockstep, 0, false, none, 0⟩

/-- The roles of RED_STAT (R347, R348). -/
inductive Role where
  | detached | discover | active | standby | faulted
  deriving DecidableEq, Repr

/-- The code of a role. -/
def Role.code : Role → Nat
  | .detached => 0 | .discover => 1 | .active => 2 | .standby => 3 | .faulted => 4

/-- The role of a code. -/
def Role.ofCode : Nat → Role
  | 1 => .discover
  | 2 => .active
  | 3 => .standby
  | 4 => .faulted
  | _ => .detached

/-- A STATUS payload of the pair link (R346). -/
structure PairStatus where
  uid    : List Byte
  role   : Role
  alive  : Bool
  safe   : Bool
  split  : Bool
  epoch  : Nat
  digest : List Byte
  deriving DecidableEq, Repr

/-- Pairing state (R344 to R354). -/
structure Red where
  role      : Role
  /-- tick of the last kick, if one has been written since the entry into RUN -/
  kickAt    : Option Nat
  /-- tick of the last edge of REDLINK_B; heartbeat lost when `hbLost` -/
  edgeAt    : Nat
  hbLost    : Bool
  /-- tick at which the takeover confirmation began -/
  confirmAt : Option Nat
  /-- tick of the last STATUS received, and its content -/
  statusAt  : Option Nat
  partner   : Option PairStatus
  /-- tick of the last STATUS sent -/
  sentAt    : Option Nat
  digestEq  : Bool
  /-- tick since which the rebound conditions hold without a break -/
  healthyAt : Option Nat
  /-- REBOUND_REQ sent, and the partner has neither handed over nor shown since that it stays ACTIVE -/
  reboundReq : Bool
  /-- ticks of the takeovers of the last 600 s -/
  takeovers : List Nat
  /-- tick of the entry into DISCOVER -/
  discoverAt : Nat
  /-- last sequence number echoed, by stream -/
  echoSeq   : Tbl Nat
  /-- numbering stopped for a handover (R353) -/
  stopped   : Bool
  deriving DecidableEq, Repr

/-- Pairing state at entry into BOOT. -/
def Red.reset : Red :=
  ⟨.detached, none, 0, false, none, none, none, none, false, none, false, [], 0, [], false⟩

end Sys2Proof.Machine
end

