-- ==== Sys2Proof/Machine/TypesNet.lean ====
section
/-! DEFINITION. The plain data types of the switching side: frames and copies, ports, queues, Skerries and Harbour, tide
tables and stream gates, legacy channels, keys and cipher contexts. Each type cites the rules that give it. -/

namespace Sys2Proof.Machine

/-! ## Frames -/

/-- What the parser finds in a frame (R68, R75): its kind (R78), its parse flags, the field values that are present, and
the byte offsets that the edits of R93 and R94 use. -/
structure Parse where
  kind  : Nat
  flags : Nat
  vals  : List (Nat × Nat)
  /-- number of VLAN tags recognised -/
  tags  : Nat
  rtag  : Option Nat
  l3    : Option Nat
  l4    : Option Nat
  sip   : Option Nat
  trunc : Bool
  deriving DecidableEq, Repr

/-- The parse record of a frame received on a legacy channel (R73), and its data. For LIN, `ident` is the protected
identifier. -/
structure LegRec where
  ident : Nat
  ide   : Bool
  fmt   : Nat
  vcid  : Nat
  sdt   : Nat
  acc   : Nat
  sec   : Bool
  data  : List Byte
  deriving DecidableEq, Repr

/-- A frame in the device. -/
structure Frm where
  inPort : Nat
  epoch  : Nat
  ord    : Nat
  kind   : Nat
  prio   : Nat
  /-- flow key (R79), direction bit, flow hash (R80) -/
  key    : List Byte
  dir    : Bool
  hash   : Nat
  /-- the frame as received, after MACsec removal, without its FCS -/
  orig   : List Byte
  /-- the frame after the edits of R93, without its FCS -/
  bytes  : List Byte
  leg    : Option LegRec
  /-- the tail has been received and the frame checked -/
  tail   : Bool
  bad    : Bool
  /-- MAC_MAX_FRAME.max_len and MAC_FWD_CTRL.ct_rx_en when its first byte arrived (R47) -/
  maxLen : Nat
  ctRx   : Bool
  /-- ports whose MAC_FWD_CTRL.ct_tx_en was 1 then, as a bitmap -/
  ctTx   : Nat
  /-- received with an SMD-S (R241) -/
  smdS   : Bool
  /-- steered to a Skerry, or built by one -/
  steer  : Bool
  tsReq  : Bool
  /-- SecTAG and ICV bytes removed; the frame was held for verification -/
  sec    : Nat
  held   : Bool
  stream : Option Nat
  /-- the stream queue that the stream named when it was identified, with its port and class (R54, R168) -/
  squeue : Option (Nat × Nat × Nat)
  /-- the alternative TPID when its parse started (R54) -/
  alt    : Option Nat
  /-- sequence number of the R-TAG (R128) -/
  seq    : Option Nat
  colour : Nat
  dei    : Bool
  pcp    : Option Nat
  /-- forwarding VID of an Ethernet frame -/
  fvid   : Nat
  stamp  : Rec8
  /-- provisional length that stage 6 tested, with the meters and the gate it debited (R189) -/
  prov   : Option Nat
  /-- meters that it debited: committed bucket, excess or peak bucket -/
  mtrs   : List (Nat × Bool × Bool)
  /-- the gate that counted it, and the window start of the interval -/
  gate   : Option (Nat × Int)
  /-- Harbour slot -/
  slot   : Option Nat
  /-- LT in ns of its first bit -/
  arr    : Nat
  /-- a copy has begun transmission -/
  begun  : Bool
  /-- counted in MAC_RX_CT_FRAMES -/
  ctDone : Bool
  /-- reception goes on -/
  inRx   : Bool
  /-- references from queues, transmitters, the Skerry array and the Harbour -/
  refs   : Nat
  /-- the cells of the packet buffer that hold its bytes, in order (assumption 18) -/
  at_    : List Nat
  deriving DecidableEq, Repr

/-- Egress tagging of a copy (R108, R128, R193): no outer tag, or the VID of the outer tag, with the PCP of a tag that is
added; the PCP and DEI that a meter sets; the R-TAG: left, removed, or carrying a sequence number. -/
structure Egr where
  untag : Bool
  vid   : Nat
  prio  : Nat
  pcp   : Option Nat
  dei   : Bool
  rtag  : Option (Option Nat)
  deriving DecidableEq, Repr

/-- How a copy leaves (R93, R108): as received (a mirror copy), as R93 left it, or tagged for its port. -/
inductive Xf where
  | asReceived
  | plain
  | tagged (e : Egr)
  deriving DecidableEq, Repr

/-- A copy of a frame in an egress queue. `q` is the queue: 0 to 143 a class queue, 144 + k stream queue k. -/
structure Copy where
  frm   : Nat
  port  : Nat
  q     : Nat
  cls   : Nat
  k     : Nat
  ct    : Bool
  xf    : Xf
  epoch : Nat
  deriving DecidableEq, Repr

/-- A copy in transmission. -/
structure TxCopy where
  cp     : Copy
  /-- LT tick and eighth of a tick of its timestamp point, and the domain values then -/
  atTick : Nat
  frac   : Nat
  doms   : List Nat
  /-- latency correction at its timestamp point in ps (R205) -/
  lat    : Int
  /-- eighths of a tick until its timestamp point, while it is ahead: the end of preamble and start delimiter (R204) -/
  due    : Option Nat
  /-- it started under R234: a hold ends it before its gate closes -/
  under  : Bool
  /-- the domain time in ns at which a hold stopped it until its gate next opens (R234) -/
  hold   : Option Int
  /-- its gate has closed while it was in transmission (R235) -/
  late   : Bool
  /-- tick at which the fragment on the wire began -/
  fragAt : Nat
  /-- bytes sent in ended fragments, and the count of the next continuation -/
  sent   : Nat
  frags  : Nat
  /-- no bytes are on the wire: cut by preemption or by a hold, and waiting to resume -/
  paused : Bool
  /-- a preemption request or a hold has reached the MAC, when the fragment had sent this number of bytes -/
  cut    : Option Nat
  /-- the frame was found bad after this copy began, with the bytes that had been received (R44) -/
  stomp  : Option Nat
  /-- protected by MACsec, with its packet number, SA and key (R280) -/
  pn     : Option (Nat × Nat × List Byte)
  /-- attempts that a collision has ended on a segment without PLCA (R266) -/
  tries  : Nat
  deriving DecidableEq, Repr

/-- A frame in reception on a port. -/
structure RxSt where
  atTick : Nat
  frac   : Nat
  doms   : List Nat
  /-- latency correction at its timestamp point in ps (R205) -/
  lat    : Int
  maxLen : Nat
  ctRx   : Bool
  ctTx   : Nat
  smdS   : Bool
  /-- the frame after its lookup -/
  frm    : Option Nat
  /-- bytes received, without the FCS, while no frame record exists -/
  got    : List Byte
  /-- the SecTAG decision of R277: a frame to be verified, with its SA, packet number and key -/
  hold   : Option (Nat × Nat × List Byte)
  /-- passed without verification: length of the SecTAG and its short length, both to be removed with the ICV -/
  strip  : Option (Nat × Nat)
  /-- dropped by a rule before its end: only R41 counts remain -/
  gone   : Bool
  /-- byte max_len + 1 has arrived -/
  past   : Bool
  /-- fragments of a preempted frame: continuation fragments received -/
  frags  : Nat
  tsReq  : Bool
  deriving DecidableEq, Repr

/-- A frame in the verify buffer, whole, waiting for its ICV check (R39). -/
structure HeldFrm where
  rx    : RxSt
  bytes : List Byte
  deriving DecidableEq, Repr

/-- The state of preemption verification on a port (R238). -/
structure Verify where
  status   : Nat
  active   : Bool
  attempts : Nat
  since    : Nat
  deriving DecidableEq, Repr

/-- A port P0 to P17. -/
structure PortSt where
  rx     : Option RxSt
  /-- a frame in reception that began with an SMD-S (R241) -/
  rxp    : Option RxSt
  held   : List HeldFrm
  exp    : Option TxCopy
  pre    : Option TxCopy
  ver    : Verify
  /-- head copies deferred before a closing, by frame and queue, with the time of the deferral and that of the closing (R232) -/
  defer  : List (Nat × Int × Int)
  /-- SA whose PN_THRESH has been raised -/
  pnDone : List Nat
  /-- rate in kbit/s at which RATE_CHANGE was last evaluated -/
  latRow : Nat
  /-- the signature of the link partner, taken from the last training (R389) -/
  sig    : Word
  deriving DecidableEq, Repr

/-- A port at reset. -/
def PortSt.reset : PortSt := ⟨none, none, [], none, none, ⟨0, false, 0, 0⟩, [], [], 0, 0⟩

/-- The scheduler state of a class queue: fair-queuing tags, starvation timer in ticks (R187, R188). -/
structure QSched where
  s      : Nat
  f      : Nat
  timer  : Nat
  urgent : Bool
  /-- tick at which it became urgent -/
  urgAt  : Nat
  deriving DecidableEq, Repr

/-- Scheduler state at reset. -/
def QSched.reset : QSched := ⟨0, 0, 0, false, 0⟩

/-! ## Skerries, Harbour and freshness (R136 to R166) -/

/-- A descriptor of a steered frame. -/
structure Desc where
  frm    : Nat
  prof   : Nat
  slot   : Nat
  /-- destination proposal: ports and legacy channels, and how the copy to each leaves; empty stands for 63 -/
  dest   : List (Nat × Xf)
  stolen : Bool
  deriving DecidableEq, Repr

/-- A running descriptor: its start tick, and the window of the thread's data memory: the first 256 bytes of the frame (R136). -/
structure Running where
  d      : Desc
  since  : Nat
  window : List Byte
  deriving DecidableEq, Repr

/-- A Skerry: normal and reserved queues, and what its threads run. -/
structure Skerry where
  norm    : List Desc
  resv    : List Desc
  threads : Tbl Running
  /-- tick of the last instruction completed while work was held -/
  lastRun : Nat
  /-- tick of the last probe for a descriptor to steal (R146) -/
  probeAt : Option Nat
  deriving DecidableEq, Repr

/-- A Skerry at reset. -/
def Skerry.reset : Skerry := ⟨[], [], [], 0, none⟩

/-- An output of a Harbour slot: one copy to a port, a frame, and for a legacy output its translation entry. -/
structure SlotOut where
  frm  : Nat
  port : Nat
  xf   : Xf
  xlt  : Option Nat
  deriving DecidableEq, Repr

/-- The states of a Harbour slot that is not FREE (R150). -/
inductive SlotState where
  /-- with the planned outputs of a frame that is not steered, whose buffer write is not complete -/
  | pending (plan : Option (List SlotOut))
  | ready (outs : List SlotOut)
  | void
  deriving DecidableEq, Repr

/-- A Harbour slot: flow context, sequence number, frame; its frame was steered. -/
structure Slot where
  ctx : Nat
  seq : Nat
  frm : Nat
  sky : Bool
  st  : SlotState
  deriving DecidableEq, Repr

/-- A flow context (R148): flow key, direction, ingress port; hold timer: the slot sequence it runs for and its start (R151). -/
structure Ctx where
  key  : List Byte
  dir  : Bool
  port : Nat
  next : Nat
  hold : Option (Nat × Nat)
  deriving DecidableEq, Repr

/-- An output of an EMIT verdict: destination, 63 for the destination proposal, the bytes of an Ethernet frame or a legacy frame, and
its translation entry. -/
structure SkyOut where
  port  : Nat
  bytes : List Byte
  leg   : Option LegRec
  xlt   : Option Nat
  deriving DecidableEq, Repr

/-- How a thread ends a descriptor (R137). `translate` is the work of a translation program under R154 to R157, R161, R285 and
R286, which the model does: `wraps` holds, for each Ethernet frame built, the bytes between its tag and its payload, over
which the model writes the fields that the spec gives; `gw` is the entry that CAN_GW takes, for which the spec states no key.
`poison` is a read of a poisoned cell (R140). -/
inductive SkyVerdict where
  | pass (edited : Option (List Byte))
  | emit (outs : List SkyOut)
  | drop (cause : Fin 13) (xlt : Option (BitVec 12))
  | trap
  | translate (wraps : List (List Byte)) (gw : Option (BitVec 12))
  | poison
  deriving DecidableEq, Repr

/-! ## Tide tables and stream gates (R190, R223 to R231) -/

/-- A gate schedule: base and cycle in ns, extension, domain, and its entries with their intervals. For a tide table the
number is the gate byte; for a stream gate it is the open bit, with the octet limit. -/
structure Sched where
  base    : Nat
  cycle   : Nat
  ext     : Nat
  dom     : Nat
  /-- gates, interval in ns, octet limit -/
  entries : List (Nat × Nat × Nat)
  deriving DecidableEq, Repr

/-- A tide table of a port, or a stream gate: running and pending schedules, change time, entry in force. -/
structure Tide where
  run    : Option Sched
  pend   : Option (Sched × Nat)
  entry  : Nat
  gates  : Nat
  /-- tick until which the copy-back after a takeover lasts -/
  busy   : Option Nat
  /-- octets counted in the entry in force (R191) -/
  octets : Nat
  /-- start of the window in force, in ns of its domain -/
  winAt  : Int
  /-- start of the window for which idle_gates stand in for a poisoned entry (R369) -/
  bad    : Option Int
  deriving DecidableEq, Repr

/-- A tide table at reset: all gates open. -/
def Tide.reset : Tide := ⟨none, none, 0, 255, none, 0, 0, none⟩

/-! ## Legacy channels (R245 to R265) -/

/-- A frame in a CAN transmit queue, or a data set of a LIN publish entry. -/
structure LegTx where
  leg  : LegRec
  ord  : Nat
  /-- tick of admission -/
  at_  : Nat
  /-- its place in memory 0x0F -/
  pos  : Nat
  deriving DecidableEq, Repr

/-- A CAN channel: fault confinement, queue, kept ordinals by identifier. -/
structure Can where
  tec    : Nat
  rec_   : Nat
  /-- 0 error-active, 1 error-passive, 2 bus-off, 3 recovering -/
  fc     : Nat
  /-- tick of the entry into bus-off -/
  offAt  : Nat
  txq    : List LegTx
  /-- the frame offered to arbitration -/
  offer  : Option LegTx
  ords   : Tbl Nat
  /-- the channel has observed 11 recessive bits and takes part in bus activity -/
  joined : Bool
  deriving DecidableEq, Repr

/-- A frame in the receive FIFO of a legacy channel (R248, R257): its virtual port, the ticks of its stamp and of its reception, and its
place in the FIFO. -/
structure LegIn where
  port : Nat
  leg  : LegRec
  sof  : Nat
  at_  : Nat
  pos  : Nat
  deriving DecidableEq, Repr

/-- A CAN channel at reset. -/
def Can.reset : Can := ⟨0, 0, 0, 0, [], none, [], false⟩

/-- A LIN channel. -/
structure Lin where
  /-- publish data by frame identifier -/
  pub    : Tbl (List LegTx)
  /-- identifiers whose state data has been sent at least once -/
  sent   : List Nat
  ords   : Tbl Nat
  /-- the running table, its entry index, and the tick at which the slot started -/
  table  : Nat
  idx    : Nat
  slotAt : Option Nat
  /-- interrupted table and entry while collision resolution runs -/
  back   : Option (Nat × Nat)
  /-- identifier whose response is awaited -/
  wait   : Option Nat
  /-- the awaited response belongs to an event-triggered slot -/
  event  : Bool
  /-- that slot saw a collision -/
  coll   : Bool
  /-- the table that a switch has selected -/
  sw     : Option Nat
  sleep  : Bool
  /-- last protected identifier seen, and the tick of the last bus activity -/
  pid    : Nat
  lastAt : Nat
  deriving DecidableEq, Repr

/-- A LIN channel at reset. -/
def Lin.reset : Lin := ⟨[], [], [], 0, 0, none, none, none, false, false, none, false, 0, 0⟩

/-! ## Keys and cipher contexts (R271 to R324) -/

/-- A key slot (R296), with ecc_fail and last_upd of KEY_SLOT_STAT. -/
structure KeySlot where
  key    : List Byte
  attr   : Word
  ctr    : Nat
  gen    : Nat
  digest : List Byte
  ecc    : Bool
  last   : Nat
  deriving DecidableEq, Repr

/-- A key slot that has never been written. -/
def KeySlot.empty : KeySlot := ⟨List.replicate 32 0, 0, 0, 0, List.replicate 32 0, false, 0⟩

/-- A record as MRAM holds it, encrypted and authenticated: the key under which it is sealed, and what that key opens. No other key opens
it (DESIGN CHOICE, assumption 75: the spec names no sealing algorithm). -/
structure SlotRec where
  under : List Byte
  body  : KeySlot
  deriving DecidableEq, Repr

/-- The journal of R313 as MRAM holds it: the target slot, and the prepared record once it is stored. -/
structure Journal where
  slot : Nat
  prep : Option SlotRec
  deriving DecidableEq, Repr

/-- The key store: the root secret, the SRAM mirror of the slots, and what else MRAM holds: journal, life cycle and its intent, counters,
the least security version, the records of the slots (R296), and the key under which the life-cycle record is authenticated (R302). -/
structure KeyStore where
  root    : Option (List Byte)
  slots   : Tbl KeySlot
  journal : Option Journal
  lc      : Nat
  lcCtr   : Nat
  lcGoal  : Option (Nat × Nat)
  attCtr  : Nat
  secMin  : Nat
  recs    : Tbl SlotRec
  lcUnder : List Byte
  deriving DecidableEq, Repr

/-- The key store of a device that has never started: BLANK. -/
def KeyStore.factory : KeyStore := ⟨none, [], none, 0, 0, none, 0, 0, [], []⟩

/-- Debug state since the entry into BOOT (R320). -/
structure Dbg where
  open_ : Bool
  fails : Nat
  chal  : Option (List Byte)
  deriving DecidableEq, Repr

/-- A cipher context (R289, R290): algorithm, whether data has begun, key size, owner class, key slot and its generation,
bytes processed, counter block, GHASH accumulator or CMAC chaining value, SHA state, and the bytes of the partial block. -/
structure CipCtx where
  alg     : Nat
  aadDone : Bool
  key256  : Bool
  cls     : Nat
  slot    : Nat
  gen     : Nat
  dataLen : Nat
  aadLen  : Nat
  ctr     : List Byte
  acc     : List Byte
  sha     : List Byte
  part    : List Byte
  deriving DecidableEq, Repr

/-- The engine's MKA pairs and SA keys, and the TRNG (R283, R293). -/
structure Cip where
  /-- ICK and KEK by CAK slot, longest ago first -/
  mka   : List (Nat × List Byte × List Byte)
  /-- SAK by SA: TX SA number, or 1024 + RX SA number -/
  sak   : Tbl (List Byte)
  ctx   : Tbl CipCtx
  trngBad : Bool
  deriving DecidableEq, Repr

/-- The engine at reset. -/
def Cip.reset : Cip := ⟨[], [], [], false⟩

/-! ## The switching side as a whole -/

/-- A pending-notice filter entry (R113). -/
structure Pend where
  fid   : Nat
  mac   : Nat
  port  : Nat
  cont  : Bool
  since : Nat
  deriving DecidableEq, Repr

/-- A fence after a swap (R56): its port, the new epoch, and the tick of the swap. -/
structure Fence where
  port  : Nat
  epoch : Nat
  since : Nat
  deriving DecidableEq, Repr

/-- State of the switching side that is not registers. -/
structure Net where
  /-- tables by table ID, copy and entry (R133); unlisted entries are as after reset -/
  tabs   : Tbl (List Word)
  /-- content that the loader last wrote to an entry: the golden copy of R367, by the same key -/
  golden : Tbl (List Word)
  /-- contract of the reserved streams of the set of a parity, by 4096 * parity + stream: bound and CFG_BDC_QATTR (R59, R67) -/
  contract : Tbl (Nat × Nat)
  /-- shadow copies of the registers that have one copy per parity (R130) -/
  shadow : Tbl Word
  ports  : Tbl PortSt
  frames : Tbl Frm
  nextF  : Nat
  /-- classification ordinal of the next frame (R136) -/
  ord    : Nat
  queues : Tbl (List Copy)
  /-- token-bucket levels of enabled buckets, in 1/6,400,000 byte, by queue -/
  levels : Tbl Int
  /-- credits of enabled CBS classes, in the same unit -/
  credit : Tbl Int
  qsched : Tbl QSched
  /-- virtual time of a port's fair-queuing group -/
  vtime  : Tbl Nat
  /-- committed and excess or peak levels of enabled meters, in the same unit -/
  meters : Tbl (Int × Int)
  fences : List Fence
  /-- seconds that the counts of R89 and R119 have been advanced by (R377) -/
  ageOff : Nat
  pend   : List Pend
  flapAt : Nat
  flapN  : Nat
  /-- streams' last pass ticks, for reset_ms (R129) -/
  lastOk : Tbl Nat
  sky    : Tbl Skerry
  slots  : Tbl Slot
  ctxs   : Tbl Ctx
  /-- last ordinal released from a translation entry (R153) -/
  xltOrd : Tbl Nat
  /-- successful COMMITs of a role-1 freshness entry since its last store (R287) -/
  commits : Tbl Nat
  tides  : Tbl Tide
  gates  : Tbl Tide
  can    : Tbl Can
  lin    : Tbl Lin
  /-- the receive FIFOs of the legacy channels, in order of reception (R248, R257) -/
  legRx  : List LegIn
  cip    : Cip
  dbg    : Dbg
  deriving DecidableEq, Repr

/-- The switching side at entry into BOOT. -/
def Net.reset : Net :=
  ⟨[], [], [], [], [], [], 0, 0, [], [], [], [], [], [], [], 0, [], 0, 0, [], [], [], [], [], [], [], [], [], [], [], Cip.reset,
    ⟨false, 0, none⟩⟩

end Sys2Proof.Machine
end

