-- ==== Sys2Proof/Machine/TypesOut.lean ====
section
/-! DEFINITION. Operand types of the commands of the control side, and what the device is seen to send. -/

namespace Sys2Proof.Machine

/-- A PCIe memory write (R428): target offset, dwords with their byte enables, EP bit, requester ID and tag. `far` holds, for each
dword, the status byte that a peripheral returns when its write is checked (R430). `bar2` targets the MSI-X table of R427. -/
structure MWr where
  bar2  : Bool
  addr  : BitVec 24
  data  : List (Word × BitVec 4)
  ep    : Bool
  reqId : BitVec 16
  tag   : BitVec 8
  far   : List Byte
  deriving DecidableEq, Repr

/-- A PCIe memory read (R428): target offset, the byte enables of each dword, and the peripheral words of an auxiliary SPI window,
in the order in which the master reads them (R430, R431). `bar2` targets the MSI-X table of R427; `cfg` is a configuration read (R477). -/
structure MRd where
  bar2 : Bool
  addr : BitVec 24
  bes  : List (BitVec 4)
  far  : List Word
  cfg  : Bool := false
  deriving DecidableEq, Repr

/-- The requests that the endpoint does not support (R428). -/
inductive UrKind where
  | lockedRead | ioRead | ioWrite | atomicOp | readOutside | writeOutside
  deriving DecidableEq, Repr

/-- What nature has done to a stored word since it was last read (R357): nothing, one bit, two bits, or the parity of a
table entry, with the syndrome that a read finds. -/
inductive Upset where
  | none
  | single (syndrome : Byte)
  | double (syndrome : Byte)
  | parity
  deriving DecidableEq, Repr

/-- The items that a split checker may reach, and any other (R341). -/
inductive CheckerAccess where
  | dataTcmUpper
  | ospiRead
  | shaUnit
  | gcmJob
  | repair
  | other
  deriving DecidableEq, Repr

/-- The end of a frame as the MAC receives it: a receive error inside it (R41), and its FCS, as a number whose low byte comes first. -/
structure RxTail where
  err : Bool
  fcs : BitVec 32
  deriving DecidableEq, Repr

/-- An mPacket that continues a preempted frame: its fragment count, its bytes, and whether its mCRC holds; or an mPacket with an
unknown SMD; or the mCRC that ends the first fragment of a frame, with the bytes of the fragment since the last command; or one that
fails (R241). -/
inductive RxFrag where
  | cont (count : Fin 4) (bytes : List Byte) (good : Bool)
  | unknownSmd
  | first (bytes : List Byte)
  | firstBad
  deriving DecidableEq, Repr

/-- What a grant reads in error (R359, R369, R370): nothing, a word of cell `idx` of the frame, or of its queue descriptor. -/
inductive TxRead where
  | clean
  | cell (idx : Fin 36) (addr : BitVec 24) (upset : Upset)
  | desc (addr : BitVec 24) (upset : Upset)
  deriving DecidableEq, Repr

/-- The limits of R175. -/
inductive LimReg where
  | queueLimit | queueColour | port | skyCells
  deriving DecidableEq, Repr

/-- What IEEE 802.3 makes of a write through the PHY mirror (R463): the register is not defined for the PHY, the write would change
speed or role, it is a PMA/PMD reset, or it is any other write. -/
inductive PhyWrite where
  | undefined | speedOrRole | reset | other
  deriving DecidableEq, Repr

/-- The high-water registers of the buffer (R177). -/
inductive HwmReg where
  | pool | shared | port
  deriving DecidableEq, Repr

/-- The kinds of CAN error that are counted (R249). -/
inductive CanErr where
  | bit | stuff | crc | form | ack
  deriving DecidableEq, Repr

/-- What ISO 11898-1 adds to an error counter for an error: nothing, 1, or 8. -/
inductive CanStep where
  | none | one | eight
  deriving DecidableEq, Repr

/-- The errors of a LIN response other than its checksum (R257). -/
inductive LinErr where
  | none | bit | framing | sync
  deriving DecidableEq, Repr

/-- What JTAG asks for (R3, R319): IDCODE, BYPASS, boundary scan, a register access, control-pair debug, or a factory test mode. -/
inductive JtagOp where
  | idcode | bypass | samplePreload | extest
  | regRead (off : BitVec 24)
  | regWrite (off : BitVec 24) (data : Word)
  | coreDebug | factoryTest
  deriving DecidableEq, Repr

/-- What becomes of a STORE (R414): it is read back as written, with a mismatch, its source data is poisoned, or a loss of power cuts it,
which leaves the 64-bit words of the mask new and the others old. -/
inductive StoreRes where
  | ok | mismatch | poisoned
  | cut (new : BitVec 128)
  deriving DecidableEq, Repr

/-- How a transmission ended: complete, stomped under R44, or lost under R46. -/
inductive TxEnd where
  | complete | stomped | aborted
  deriving DecidableEq, Repr

/-- What the device sends, drives or answers. The model keeps these in order of occurrence, newest first. -/
inductive Out where
  /-- an MSI-X message of a vector (R453) -/
  | msix (v : Nat)
  /-- device firmware is notified of a source (R451) -/
  | fwNotify (src : Nat)
  /-- a read on a path returned a word -/
  | regRead (path : Path) (off : Nat) (data : Word)
  /-- a PCIe completion with the bytes that the byte enables select, lowest offset first, and its EP bit (R7, R428) -/
  | completion (bytes : List Byte) (ep : Bool)
  /-- a PCIe completion with Completer Abort -/
  | completerAbort
  /-- a PCIe completion with Unsupported Request -/
  | unsupportedRequest
  /-- bytes sent on the management SPI port -/
  | spi (bytes : List Byte)
  /-- a transaction on ASPI_CS[cs] -/
  | aspi (cs : Nat) (bytes : List Byte)
  /-- an Ethernet frame sent at a port, and how it ended -/
  | eth (port : Nat) (bytes : List Byte) (how : TxEnd)
  /-- an mPacket of a preempted copy at a port, without its mCRC: with an SMD-S, or with an SMD-C and its fragment count (R239). The
  whole frame follows as `eth` when its last mPacket has been sent. -/
  | fragment (port : Nat) (count : Option Nat) (bytes : List Byte)
  /-- a frame delivered to the control pair through P17, with its receive record, ingress port and bytes -/
  | control (stamp : List Word) (inPort : Nat) (bytes : List Byte)
  /-- a pair-link frame (R346) -/
  | pairLink (bytes : List Byte)
  /-- a CAN frame sent on a channel; `brs`: it switches to the data bit rate (R246) -/
  | can (ch : Nat) (brs : Bool) (leg : LegRec)
  /-- a LIN header or response on a channel -/
  | lin (ch : Nat) (bytes : List Byte)
  /-- a dominant pulse of 1 ms that wakes the bus of a LIN channel (R260) -/
  | linWake (ch : Nat)
  /-- LPS, an acknowledgment or refusal of LPS, WUP or WUR on a T1 port (R388) -/
  | lps (port : Nat)
  | lpsAck (port : Nat)
  | lpsRefuse (port : Nat)
  | wup (port : Nat)
  | wur (port : Nat)
  /-- OSPI_RESET_N is driven to a level (R480) -/
  | ospiReset (high : Bool)
  /-- a Clause 45 access on MDIO: write flag, port address, device, register, data (R462) -/
  | mdio (rd : Bool) (prtad devad regad data : Nat)
  /-- a verify or respond mPacket (R238) -/
  | mpacket (port : Nat) (respond : Bool)
  /-- a completed descriptor of a transmit ring, with the status that its eop descriptor carries (R441) -/
  | txDesc (ring idx : Nat) (status : Option Nat)
  /-- a completed descriptor of a receive ring: sop, eop, status, and bytes written to its buffer (R442) -/
  | rxDesc (ring idx : Nat) (sop eop : Bool) (status bytes : Nat)
  /-- what a receive ring wrote for a frame, over its buffers: metadata and frame (R442) -/
  | rxFrame (ring : Nat) (bytes : List Byte)
  /-- what GEN or COMMIT returns to a program: a value, or STALE (R155) -/
  | fresh (v : Option Nat)
  /-- a frame of a legacy channel delivered at P17 or P16: its port, receive record (R206), ingress port, identifier and data -/
  | legacyAt (port : Nat) (stamp : List Word) (inPort ident : Nat) (data : List Byte)
  /-- a read of JTAG (R3, R319) -/
  | jtag (data : Word)
  | jtagRefused
  /-- JTAG enters a scan or debug mode that is open -/
  | jtagOpen
  /-- bus error to the split checker (R341) -/
  | checkerBusError
  deriving DecidableEq, Repr

end Sys2Proof.Machine
end

