-- ==== Sys2Proof/Syntax.lean ====
section
/-! DEFINITION. The commands of the device: one constructor for each row of spec/opcode_table.json, with its operands.
The table gives the rows no operands: these are the model's own (assumption 1). -/

namespace Sys2Proof

open Sys2Proof.Machine

/-- The commands and events that change the device. -/
inductive Instr where
  /-- SUPPLIES_VALID (R26). All rails needed for BOOT become valid while RST_N is high, and the device leaves OFF for BOOT with entry cause 0x00. -/
  | suppliesValid (ioA : Bool := false) (ioB : Bool := true)
  /-- RST_N_ASSERT (R28). RST_N goes low, which holds the device in reset and, in SLEEP or STANDBY, discards the retained tables and the fast-start path. -/
  | rstNAssert
  /-- RST_N_RELEASE (R26). RST_N rises after a low phase, and the device enters BOOT with entry cause 0x01. -/
  | rstNRelease
  /-- SUPPLIES_LOST (R374). VDD_AON, or a rail that the current state needs, falls below its lost level, and the device goes to OFF. -/
  | suppliesLost (aon : Bool)
  /-- ROOT_PLL_LOCK (R25). The root PLL reports lock, which lets BOOT proceed, or lets the wake sequence continue. -/
  | rootPllLock (laneFail : BitVec 8)
  /-- ROOT_PLL_LOSS_OF_LOCK (R25). The root PLL loses lock after BOOT, which raises a clock-loss fault on FAULT_N and applies the safe state of the clock class. -/
  | rootPllLossOfLock
  /-- PHY_PLL_LOSS_OF_LOCK (R25). A PHY or SerDes PLL loses lock, which takes that port down and raises an event of that port. -/
  | phyPllLossOfLock (p : Fin 16) (rest : List Byte := [])
  /-- RETENTION_SUPPLY_FAULT (R378). The retention array voltage falls below 0.58 V in STANDBY, so the retained contents count as lost and the next exit goes to BOOT with entry cause 0x09. -/
  | retentionSupplyFault (railsPresent : Bool)
  /-- BOOT_ATTEMPT_START (R402). At step 4 the boot ROM reads the boot control record, applies the failed-start counter, opens a history record and starts an attempt, or enters MINIMAL. -/
  | bootAttemptStart
  /-- FLASH_READ_TIMEOUT (R397). A flash read that has not completed within 1 ms fails the start with FLASH_READ. -/
  | flashReadTimeout
  /-- BOOT_ATTEMPT_TIMEOUT (R402). Step 11 is not reached within 200 ms of step 4, so the attempt fails and is recorded. -/
  | bootAttemptTimeout
  /-- FWIM_LOAD_COMPLETE (R401). The FWIM body has been loaded, hashed and checked, and the control pair starts the FWIM. -/
  | fwimLoadComplete
  /-- CSET_LOAD_COMPLETE (R400). The CSET body has been read, hashed and section-checked, and its tables are written under the stored epoch. -/
  | csetLoadComplete
  /-- FAST_START_CONFIG_READY (R392). After a wake from SLEEP, the fast-start subset has been read from MRAM and checked, and the legacy map and the CAN channels are configured. -/
  | fastStartConfigReady
  /-- STABLE_TIMER_EXPIRY (R402). The device has stayed in RUN for stable_s with a GOOD FWIM and no CSET trial, so fsc is stored as 0. -/
  | stableTimerExpiry
  /-- REGISTER_WRITE (R8). A write to a register that has no row of its own updates its fields by their access types. -/
  | registerWrite (path : Path) (off : BitVec 24) (data : Word)
  /-- LOW_WORD_READ_CAPTURE (R13). A read of the low word of a 64-bit pair, or of word 0 of a PTP value, captures the whole value into the holding register of the path. -/
  | lowWordReadCapture (path : Path) (off : BitVec 24)
  /-- HIGH_WORD_STAGE_WRITE (R14). A write of the high word of a 64-bit pair, or of word 1 or 2 of a PTP value, loads the staging register of the path. -/
  | highWordStageWrite (path : Path) (off : BitVec 24) (data : Word)
  /-- LOW_WORD_COMMIT_WRITE (R14). A write of the low word commits it together with the staged high word in one cycle and empties the staging register. -/
  | lowWordCommitWrite (path : Path) (off : BitVec 24) (data : Word)
  /-- PTP_VALUE_COMMIT (R16). A write of word 0 of a PTP-format value commits it with the staged words 1 and 2. -/
  | ptpValueCommit (path : Path) (off : BitVec 24) (data : Word)
  /-- RX_FRAME_START (R41). A start delimiter arrives while the link is up, which begins a frame and its residence. -/
  | rxFrameStart (p : Fin 16) (frac : Fin 8) (smdS : Bool)
  /-- RX_LOOKUP_START (R34). The 128th byte or the last byte has been received, so parsing, classification, lookup, policing and admission start. -/
  | rxLookupStart (p : Fin 16) (pre : Bool) (bytes : List Byte) (tail : Option RxTail) (ahead : Fin 17 := 16)
  /-- RX_OVERSIZE_DETECTED (R42). Byte max_len + 1 of a frame arrives, so the frame is found bad and its copies are dropped or stomped. -/
  | rxOversizeDetected (p : Fin 16) (pre : Bool) (rest : List Byte)
  /-- RX_FRAME_END (R41). The tail of a frame is received and classified for receive error, oversize, runt and FCS error. -/
  | rxFrameEnd (p : Fin 16) (pre : Bool) (rest : List Byte) (tail : RxTail)
  /-- MACSEC_ICV_CHECK_DONE (R39). The ICV check of a frame held in the verify buffer completes, so the frame passes to the packet buffer or is dropped under the SecY steps. -/
  | macsecIcvCheckDone (p : Fin 18) (addr : BitVec 24) (upset : Upset)
  /-- BUFFER_WRITE_COMPLETE (R149). The buffer write of a sequenced frame that is not steered completes, which makes its slot READY. -/
  | bufferWriteComplete (slot : BitVec 13)
  /-- TX_OPPORTUNITY (R181). At a transmission opportunity the scheduler grants one eligible copy. -/
  | txOpportunity (p : Fin 18) (frac : Fin 8) (rd : TxRead)
  /-- TX_COPY_END (R182). A copy's transmission ends: buckets are debited, fair-queuing tags update and the cells are freed. -/
  | txCopyEnd (p : Fin 18) (express : Bool) (frac : Fin 8) (col : Option Bool := none)
  /-- FRAGMENT_END (R239). A preemptable fragment ends with its mCRC at a legal cut point after a preemption request or a hold. -/
  | fragmentEnd (p : Fin 16) (sent : BitVec 14) (frac : Fin 8) (more : List Byte := [])
  /-- LINK_UP (R461). The link of a port comes up at its operational rate, which selects the latency row and starts preemption verification. -/
  | linkUp (p : Fin 16) (mode : BitVec 4) (fast : Bool) (sig : BitVec 32 := 0)
  /-- LINK_DOWN (R174). The link of a port goes down: the copy in transmission is lost and the queued copies are dropped. -/
  | linkDown (p : Fin 16) (rest : List Byte := [])
  /-- FENCE_LIMIT_EXPIRY (R57). The fence limit elapses, and older-epoch frames still waiting at a fenced port are dropped. -/
  | fenceLimitExpiry (p : Fin 18)
  /-- CLS_INSERT (R97). The INSERT command inserts the staged rule entry into a bank. -/
  | clsInsert (path : Path) (table bank : BitVec 2)
  /-- CLS_DELETE (R97). The DELETE command deletes the rule or connection entry that matches the staged words. -/
  | clsDelete (path : Path) (table bank : BitVec 2)
  /-- CLS_READ (R97). The READ command copies the entry at CLS_ENT_INDEX into the staging registers. -/
  | clsRead (path : Path) (table : BitVec 2)
  /-- CLS_SET_ACTION (R97). The SET_ACTION command replaces the action words of a rule entry in one write. -/
  | clsSetAction (path : Path) (table : BitVec 2)
  /-- CLS_SET_EPOCH (R97). The SET_EPOCH command replaces the ep_mask of a rule entry. -/
  | clsSetEpoch (path : Path) (table : BitVec 2)
  /-- CLS_FLUSH (R97). The FLUSH command deletes every connection entry. -/
  | clsFlush (path : Path) (table : BitVec 2)
  /-- CT_ENTRY_EXPIRY (R89). The age of a connection entry reaches the timeout of its state, so lookups treat the entry as absent. -/
  | ctEntryExpiry (n : BitVec 18)
  /-- CT_SWEEP_DELETE (R89). The background sweep deletes an expired connection entry and counts it. -/
  | ctSweepDelete (n : BitVec 18)
  /-- EPOCH_CLEANUP (R100). After a swap has drained the old epoch, the loader deletes the entries that carry only the old parity. -/
  | epochCleanup
  /-- FDB_INSERT (R132). The INSERT command places a static FDB entry. -/
  | fdbInsert (path : Path)
  /-- FDB_DELETE (R132). The DELETE command removes the FDB entry that matches the key and ep_mask. -/
  | fdbDelete (path : Path)
  /-- FDB_READ (R132). The READ command copies an FDB entry into the staging registers. -/
  | fdbRead (path : Path)
  /-- FDB_FLUSH (R121). The FLUSH command deletes the dynamic entries and filter entries that match FDB_FLUSH_SEL. -/
  | fdbFlush (path : Path)
  /-- FDB_LEARN (R115). The LEARN command inserts, refreshes or moves a dynamic entry, or returns FULL, STATIC or HELD. -/
  | fdbLearn (path : Path)
  /-- PENDING_FILTER_TIMEOUT (R113). A pending-notice filter entry is released when pend_tmo_ms has elapsed since its allocation. -/
  | pendingFilterTimeout (fid : BitVec 12) (mac : BitVec 48)
  /-- FDB_ENTRY_EXPIRY (R119). A dynamic FDB entry reaches age_s, so lookups treat it as absent. -/
  | fdbEntryExpiry (n : BitVec 17)
  /-- FDB_SWEEP_DELETE (R119). The sweep deletes an expired FDB entry and counts it in FDB_AGE_DEL. -/
  | fdbSweepDelete (n : BitVec 17)
  /-- FDB_HOLD_ELAPSE (R116). The move hold of an entry elapses, and the sweep sets its hold_stamp to 0x7FF. -/
  | fdbHoldElapse (n : BitVec 17)
  /-- FLAP_WINDOW_END (R117). A flap window ends, and a new window starts with a count of 0. -/
  | flapWindowEnd
  /-- STREAM_RESET_WRITE (R129). A write of a stream index to FDB_STR_RESET sets rst for that stream. -/
  | streamResetWrite (path : Path) (data : Word)
  /-- RECOVERY_RESET_TIMEOUT (R129). reset_ms passes with no frame passed, so the recovery of the stream enters reset. -/
  | recoveryResetTimeout (k : BitVec 12)
  /-- PARITY_REPAIR (R367). Device firmware repairs a parity-failed table entry from the golden copy, or deletes it when it has no golden origin. -/
  | parityRepair (tab : BitVec 8) (copy : Fin 2) (n : BitVec 18)
  /-- SKERRY_THREAD_TAKE (R136). An idle thread takes the next descriptor from its queue and starts the profile's program. -/
  | skerryThreadTake (k : Fin 32) (t : Fin 4)
  /-- SKERRY_DESCRIPTOR_DONE (R137). A thread ends a descriptor with one verdict, which the Harbour applies to the slot. -/
  | skerryDescriptorDone (k : Fin 32) (t : Fin 4) (v : SkyVerdict)
  /-- SKERRY_WATCHDOG (R139). A thread's watchdog reaches its limit, so the thread is stopped and the slot becomes void. -/
  | skerryWatchdog (k : Fin 32) (t : Fin 4)
  /-- STEAL_PROBE (R146). Every 8 cycles a thief probes victims and takes at most one stealable descriptor. -/
  | stealProbe (k : Fin 32)
  /-- HARBOUR_RELEASE (R150). A flow's READY head is released to its egress queues, or its VOID head is freed. -/
  | harbourRelease (ctx : BitVec 13)
  /-- HARBOUR_HOLD_TIMEOUT (R151). The hold timer of a PENDING head expires, so the head becomes VOID. -/
  | harbourHoldTimeout (ctx : BitVec 13)
  /-- FRESHNESS_GEN (R155). GEN increments the freshness value of an entry for an ordinal above last_ord, or returns STALE. -/
  | freshnessGen (idx : BitVec 12) (ord : BitVec 64) (fail : BitVec 8 := 0)
  /-- FRESHNESS_COMMIT (R155). COMMIT raises the freshness value of an entry to a higher received value, or returns STALE. -/
  | freshnessCommit (idx : BitVec 12) (v : BitVec 64) (fail : BitVec 8 := 0)
  /-- SKERRY_STALL_TIMEOUT (R159). No thread of a Skerry completes an instruction for 10 µs while its queues hold work, which is fault 0x4. -/
  | skerryStallTimeout (k : Fin 32)
  /-- SKERRY_FAULT (R160). A Skerry fault takes the Skerry out of service, voids its slots and rehomes its map entries. -/
  | skerryFault (k : Fin 32) (cause : Fin 3)
  /-- SKERRY_RETIRE (R159). SKY_CTRL.retire faults the selected Skerry with cause 0x5. -/
  | skerryRetire (path : Path) (k : Fin 32)
  /-- SKERRY_RESTORE (R161). SKY_CTRL.restore reloads, clears and self-tests a Skerry and returns it to service on success. -/
  | skerryRestore (path : Path) (k : Fin 32) (selfTest : Bool)
  /-- HOME_MAP_WRITE (R143). A home-map write redirects later descriptors, and an entry that names an unhealthy Skerry keeps its old value. -/
  | homeMapWrite (path : Path) (n : BitVec 6) (data : Word)
  /-- HOST_EN_WRITE (R174). A change of QMG_PORT_LIM16.host_en takes P16 up or down and raises LINK_CHANGE. -/
  | hostEnWrite (path : Path) (data : Word)
  /-- QUEUE_LIMIT_WRITE (R175). A change of a queue or port limit applies to later admissions, and a write that would overcommit the pool is ignored. -/
  | queueLimitWrite (path : Path) (which : LimReg) (q : Fin 1168) (data : Word)
  /-- HWM_WRITE (R177). A write to a high-water register loads the current occupancy. -/
  | hwmWrite (path : Path) (which : HwmReg) (p : Fin 18) (data : Word)
  /-- SHAPER_RATE_WRITE (R183). A new bucket rate takes effect at once, and the level, debt included, is kept. -/
  | shaperRateWrite (path : Path) (q : Fin 1168) (data : Word)
  /-- SHAPER_DEPTH_WRITE (R183). A new bucket depth clamps a level that lies above it. -/
  | shaperDepthWrite (path : Path) (q : Fin 1168) (data : Word)
  /-- CBS_SLOPE_WRITE (R185). A change of idle_kbps keeps the credit and applies the new slopes from the write. -/
  | cbsSlopeWrite (path : Path) (q : Fin 144) (data : Word)
  /-- STARVATION_TIMEOUT (R188). The starvation timer of a best-effort queue reaches max_wait_us, and the queue becomes urgent. -/
  | starvationTimeout (q : Fin 144)
  /-- METER_PARAM_WRITE (R192). A meter write that lowers a burst size clamps the bucket level, and a rate write applies the new rate from that cycle. -/
  | meterParamWrite (path : Path) (m : BitVec 11) (word : Fin 5) (data : Word)
  /-- STREAM_GATE_COMMIT (R190). SCH_GATE_CFG.commit starts the takeover of a stream gate's admin list. -/
  | streamGateCommit (path : Path) (g : Fin 256) (data : Word)
  /-- STREAM_GATE_ENTRY_CHANGE (R190). A new stream-gate entry comes into force at its window start, and its octet count starts again. -/
  | streamGateEntryChange (g : Fin 256)
  /-- DOMAIN_CFG_WRITE (R211). A write of TIM_DOM_CFG enables or disables a domain, or is refused when two enabled domains would share ptp_dom. -/
  | domainCfgWrite (path : Path) (d : Fin 4) (data : Word)
  /-- DOMAIN_FREQ_WRITE (R198). A valid freq_adj write changes the domain rate from the next tick. -/
  | domainFreqWrite (path : Path) (d : Fin 4) (data : Word)
  /-- DOMAIN_SET (R199). A committed TIM_DOM_SET sets the domain time, cancels any slew and raises TIME_STEP. -/
  | domainSet (path : Path) (d : Fin 4) (ns : Word)
  /-- DOMAIN_STEP (R199). A committed TIM_DOM_STEP steps the domain time, or is ignored when out of range. -/
  | domainStep (path : Path) (d : Fin 4) (lo : Word)
  /-- DOMAIN_SLEW_START (R200). A write to TIM_DOM_SLEW starts a slew of amount_ns and replaces any slew in progress. -/
  | domainSlewStart (path : Path) (d : Fin 4) (amount : Word)
  /-- SLEW_RATE_WRITE (R200). A write of slew_ppm changes the rate of a running slew from the next tick. -/
  | slewRateWrite (path : Path) (d : Fin 4) (data : Word)
  /-- SLEW_END (R200). The slew remainder reaches or crosses zero, so the slew ends. -/
  | slewEnd (d : Fin 4)
  /-- TIME_SNAPSHOT (R201). TIM_CTRL.snap copies LT and all four domains, taken at one tick, into the snapshot registers. -/
  | timeSnapshot (path : Path)
  /-- TXTS_POP (R210). A pop from the owner path removes the head transmit-timestamp entry. -/
  | txtsPop (path : Path) (p : Fin 16) (data : Word)
  /-- TSC_EDGE (R212). A capture input recognises a selected edge, which opens or joins a record and is counted by the storm guard. -/
  | tscEdge (n : Fin 8) (rising : Bool) (ticks : Nat := 16)
  /-- TSC_RECORD_CLOSE (R214). A capture record closes 120 ns after its first edge and enters the FIFO, or is discarded when the FIFO is full. -/
  | tscRecordClose (n : Fin 8)
  /-- TSC_STORM_WINDOW_END (R215). A storm window ends, and the edge count starts again. -/
  | tscStormWindowEnd (n : Fin 8)
  /-- TSC_REARM (R215). A write of 1 to locked clears the lockout and starts a new window. -/
  | tscRearm (path : Path) (n : Fin 8) (data : Word)
  /-- TSC_POP (R217). A pop removes the head capture record. -/
  | tscPop (path : Path) (n : Fin 8) (data : Word)
  /-- TSC_CFG_WRITE (R217). A capture configuration change takes effect at the next tick, and en = 0 discards the open record. -/
  | tscCfgWrite (path : Path) (n : Fin 8) (data : Word)
  /-- PPS_COMMIT (R219). A commit checks the output schedule and makes it pending, or refuses it. -/
  | ppsCommit (path : Path) (m : Fin 2) (data : Word)
  /-- PPS_EDGE (R218). A target of the output schedule is reached, and the active edge is driven. -/
  | ppsEdge (m : Fin 2)
  /-- PPS_PULSE_END (R218). A pulse has been active for W, and the output returns to its inactive level. -/
  | ppsPulseEnd (m : Fin 2)
  /-- TIDE_COMMIT (R227). TGA_CFG.commit checks the admin table, makes it pending and computes the change time. -/
  | tideCommit (path : Path) (p : Fin 16) (data : Word)
  /-- TIDE_CANCEL (R229). TGA_CFG.cancel discards a pending takeover. -/
  | tideCancel (path : Path) (p : Fin 16) (data : Word)
  /-- TIDE_TAKEOVER (R228). At the change time the pending table takes over, and entry 0 comes into force. -/
  | tideTakeover (p : Fin 16)
  /-- TIDE_BUSY_END (R229). The copy-back after a takeover completes, and the admin registers become writable again. -/
  | tideBusyEnd (p : Fin 16)
  /-- TIDE_ENTRY_CHANGE (R225). A new tide-table entry comes into force at the first tick at or after its window start. -/
  | tideEntryChange (p : Fin 16)
  /-- PREEMPT_HOLD (R234). At t_close − H the preemptable MAC is held, so the current fragment ends before the gate closes. -/
  | preemptHold (p : Fin 16)
  /-- VERIFY_MPACKET_TIMER (R238). verify_ms elapses, so a verify mPacket is sent, or verification fails after the third. -/
  | verifyMpacketTimer (p : Fin 16)
  /-- VERIFY_MPACKET_RX (R238). A received verify mPacket is answered with a respond mPacket. -/
  | verifyMpacketRx (p : Fin 16)
  /-- RESPOND_MPACKET_RX (R238). A received respond mPacket makes preemption active. -/
  | respondMpacketRx (p : Fin 16)
  /-- RX_CONTINUATION_FRAGMENT (R241). A continuation fragment is received and reassembled, or the reassembly fails. -/
  | rxContinuationFragment (p : Fin 16) (frag : RxFrag)
  /-- CAN_FRAME_RX (R248). A CAN controller hands a valid received frame to classification, or drops it. -/
  | canFrameRx (ch : Fin 16) (leg : LegRec) (rtr stall : Bool) (ago : BitVec 32)
  /-- CAN_ERROR (R249). A CAN controller detects a bus error, updates fault confinement and counts the error. -/
  | canError (ch : Fin 16) (e : CanErr) (tx : Bool) (step : CanStep)
  /-- CAN_BUSOFF_DELAY_EXPIRY (R249). bo_delay_ms elapses with bo_auto set, so the recovery sequence starts. -/
  | canBusoffDelayExpiry (ch : Fin 16)
  /-- CAN_RECOVER (R249). CAN_BO_CFG.recover starts the bus-off recovery sequence. -/
  | canRecover (path : Path) (ch : Fin 16) (data : Word)
  /-- CAN_RECOVERY_COMPLETE (R249). The recovery sequence completes, and the channel is error-active with TEC and REC at 0. -/
  | canRecoveryComplete (ch : Fin 16)
  /-- LEGACY_TX_OFFER (R250). A frame offered to a CAN transmit queue is admitted or dropped by state, bus-off, format, order and room. -/
  | legacyTxOffer (ch : Fin 16) (leg : LegRec) (ord : BitVec 64)
  /-- CAN_TX_COMPLETE (R250). A CAN frame completes transmission, and the controller chooses the next frame to offer. -/
  | canTxComplete (ch : Fin 16)
  /-- CAN_ARB_LOST (R250). A CAN frame loses arbitration, and the controller chooses again. -/
  | canArbLost (ch : Fin 16)
  /-- LIN_TX_OFFER (R258). A frame offered to a LIN channel becomes publish data, or is dropped. -/
  | linTxOffer (ch : Fin 8) (leg : LegRec) (ord : BitVec 64)
  /-- LIN_SLOT_START (R259). A LIN master starts the next schedule slot and sends its header. -/
  | linSlotStart (ch : Fin 8)
  /-- LIN_HEADER_RX (R260). A LIN slave receives a header and answers a published identifier. -/
  | linHeaderRx (ch : Fin 8) (pid : Byte)
  /-- LIN_RESPONSE_RX (R257). A LIN response is received and delivered, or dropped as an error. -/
  | linResponseRx (ch : Fin 8) (data : List Byte) (sum : Byte) (e : LinErr) (stall : Bool) (ago : BitVec 32)
  /-- LIN_SCHED_SWITCH (R259). LIN_SCHED.switch selects next_table from the end of the current slot. -/
  | linSchedSwitch (path : Path) (ch : Fin 8) (data : Word)
  /-- LIN_BUS_IDLE (R260). A LIN slave sees no bus activity for 4 s, enters bus sleep and raises LIN_IDLE. -/
  | linBusIdle (ch : Fin 8)
  /-- LIN_WAKEUP_SIGNAL (R260). A dominant level of 150 µs on LINn_RX is a wake-up signal. -/
  | linWakeupSignal (ch : Fin 8)
  /-- LPF_WAKEUP_FRAME (R263). The low-power filter matches a wake-up frame, sets wuf_hit and raises the wake request. -/
  | lpfWakeupFrame (ch : Fin 16) (ide : Bool) (ident : BitVec 29) (dlc : Fin 16) (data : List Byte)
  /-- LPF_WAKEUP_PATTERN (R263). The low-power filter detects the wake-up pattern and raises the wake request. -/
  | lpfWakeupPattern (ch : Fin 16)
  /-- LPF_FEC_OVERFLOW (R264). The frame error counter would pass fec_thr, so the filter raises the wake request. -/
  | lpfFecOverflow (ch : Fin 16)
  /-- PLCA_BEACON_LOSS (R267). A PLCA follower loses the beacon, clears plca_status and falls back or stays silent. -/
  | plcaBeaconLoss (k : Fin 2)
  /-- PLCA_BEACON_RX (R267). A received beacon sets plca_status. -/
  | plcaBeaconRx (k : Fin 2)
  /-- ENC_AN_WRITE (R281). A write of enc_an switches the transmit SA for later copies, or is refused. -/
  | encAnWrite (path : Path) (p : Fin 18) (data : Word)
  /-- DERIVE_MKA (R283). DERIVE_MKA derives the ICK and KEK of a CAK slot. -/
  | deriveMka (path : Path) (slot : Byte)
  /-- MKPDU_ICV (R283). MKPDU_ICV computes the ICV of an MKPDU under the ICK. -/
  | mkpduIcv (path : Path) (slot : Byte)
  /-- UNWRAP_SAK (R283). UNWRAP_SAK unwraps a SAK under the KEK and loads it into an SA. -/
  | unwrapSak (path : Path) (slot : Byte) (rx : Bool) (sa : BitVec 10)
  /-- GEN_SAK (R283). GEN_SAK draws a SAK, loads it into an SA and returns it wrapped. -/
  | genSak (path : Path) (slot : Byte) (rx : Bool) (sa : BitVec 10)
  /-- CLEAR_SA (R283). CLEAR_SA erases the key of an SA and clears in_use. -/
  | clearSa (path : Path) (rx : Bool) (sa : BitVec 10)
  /-- JOB_INIT (R288). INIT starts an algorithm in a context slot under a key slot. -/
  | jobInit (path : Path) (slot : Byte) (c : BitVec 10)
  /-- JOB_UPDATE (R288). UPDATE processes len bytes of the window in a context. -/
  | jobUpdate (path : Path) (slot : Byte) (c : BitVec 10)
  /-- JOB_FINAL (R288). FINAL completes a context and returns the tag or digest. -/
  | jobFinal (path : Path) (slot : Byte) (c : BitVec 10)
  /-- JOB_SAVE_WRAP (R291). SAVE_WRAP writes a context, wrapped under a key slot, into the window. -/
  | jobSaveWrap (path : Path) (slot : Byte) (c : BitVec 10)
  /-- JOB_RESTORE_WRAP (R292). RESTORE_WRAP checks a wrapped context and restores it into a slot. -/
  | jobRestoreWrap (path : Path) (slot : Byte) (c : BitVec 10)
  /-- JOB_ECDSA_VERIFY (R288). ECDSA_VERIFY verifies a P-256 signature. -/
  | jobEcdsaVerify (path : Path)
  /-- JOB_RANDOM (R288). RANDOM returns len bytes from the TRNG. -/
  | jobRandom (path : Path)
  /-- TRNG_HEALTH_FAIL (R293). A TRNG health test fails, so output stops and random requests return ENTROPY. -/
  | trngHealthFail
  /-- TRNG_HEALTH_RECOVER (R293). 1024 consecutive samples pass, and TRNG output resumes. -/
  | trngHealthRecover
  /-- KEY_UPDATE (R308). UPDATE checks an update message and commits the new key through the journal. -/
  | keyUpdate (path : Path) (data : Word) (stores : Fin 5)
  /-- KEY_LC_CHANGE (R316). LC_CHANGE checks a life-cycle message and performs the transition. -/
  | keyLcChange (path : Path) (data : Word) (cut : Bool)
  /-- KEY_ATTEST (R321). ATTEST builds and MACs the attestation response after storing the counter. -/
  | keyAttest (path : Path) (data : Word) (stored : Bool)
  /-- DEBUG_CHAL (R320). DEBUG_CHAL places a fresh challenge in the window. -/
  | debugChal (path : Path) (data : Word)
  /-- DEBUG_UNLOCK (R320). DEBUG_UNLOCK checks the response and opens debug, or counts a failure. -/
  | debugUnlock (path : Path) (data : Word)
  /-- REFEREE_MISMATCH (R335). The Referee sees a lane differ, halts both cores, drives FAULT_N and applies the safe state. -/
  | refereeMismatch (lanes : BitVec 8)
  /-- REFEREE_FAULT (R332). A rail code or delay-register parity error is a Referee fault with the lockstep safe state. -/
  | refereeFault (parity : Bool) (lane : Fin 8)
  /-- SAFE_CFG_WRITE (R338). The first write of GLB_SAFE_CFG after BOOT sets lock, and later writes are ignored. -/
  | safeCfgWrite (path : Path) (data : Word)
  /-- LS_SPLIT (R340). GLB_LS_CTRL.split masks the lanes and releases the checker to run on its own. -/
  | lsSplit (path : Path)
  /-- CHECKER_ACCESS_DENIED (R341). A split checker's access outside its allowed items returns a bus error and is counted. -/
  | checkerAccessDenied (access : CheckerAccess)
  /-- LS_REPAIR (R342). A re-pair stops the checker, resets both cores, runs the injection test and restores lockstep. -/
  | lsRepair (path : Path) (checker : Bool) (laneFail : BitVec 8)
  /-- LS_SPLIT_TIMEOUT (R342). The pair has been split for split_max_ms, so a re-pair starts. -/
  | lsSplitTimeout (laneFail : BitVec 8)
  /-- HB_KICK (R345). A write to RED_HB_KICK keeps the device alive for the heartbeat. -/
  | hbKick (path : Path) (data : Word)
  /-- HB_KICK_TIMEOUT (R345). No kick arrives within kick_ms, so the device is no longer alive and REDLINK_A is held low. -/
  | hbKickTimeout
  /-- HB_LOSS (R345). No edge on REDLINK_B for loss_us raises HB_LOSS and starts the takeover confirmation. -/
  | hbLoss
  /-- REDLINK_B_EDGE (R349). An edge on REDLINK_B aborts a pending takeover. -/
  | redlinkBEdge
  /-- PAIR_STATUS_SEND (R346). The RED hardware sends STATUS every 100 µs and at every change of role or flags. -/
  | pairStatusSend
  /-- PAIR_STATUS_RX (R349). A received STATUS settles the role, triggers a takeover or resolves a dual active. -/
  | pairStatusRx (st : PairStatus)
  /-- PAIR_ECHO_RX (R347). An ECHO is classified with its carried number on a STANDBY, or dropped as late. -/
  | pairEchoRx (stream : BitVec 16) (seq : BitVec 16) (port : BitVec 8) (bytes : List Byte)
  /-- PAIR_FRESH_RX (R347). A FRESH message is applied as COMMIT on a STANDBY. -/
  | pairFreshRx (idx : BitVec 16) (fv : BitVec 64)
  /-- DISCOVER_TIMEOUT (R348). No STATUS arrives within 200 ms in DISCOVER, so the device becomes ACTIVE alone. -/
  | discoverTimeout
  /-- TAKEOVER_CONFIRM_TIMEOUT (R349). After heartbeat loss no STATUS arrives for confirm_us, so the takeover commits. -/
  | takeoverConfirmTimeout
  /-- REBOUND_TIMER_EXPIRY (R353). A home STANDBY has been healthy for rebound_ms, so it sends REBOUND_REQ. -/
  | reboundTimerExpiry
  /-- REBOUND_REQ_RX (R353). An ACTIVE stops numbering, sends HANDOVER and becomes STANDBY, or refuses the rebound. -/
  | reboundReqRx
  /-- HANDOVER_RX (R353). The home device takes role ACTIVE on receipt of HANDOVER. -/
  | handoverRx
  /-- SCRUB_PASS_START (R361). A scrubber pass starts each period_ms, or at once when the previous pass was late. -/
  | scrubPassStart (lastMs : BitVec 16)
  /-- SCRUB_READ (R361). The scrubber reads a word or checks an entry and handles any error it finds. -/
  | scrubRead (mem : Fin 22) (inst : Fin 32) (addr : BitVec 24) (upset : Upset)
  /-- PARTIAL_WRITE (R362). A write narrower than 64 bits enters or merges into the merge buffer. -/
  | partialWrite (mem : Fin 22) (inst : Fin 32) (addr : BitVec 24) (bytes : List (Option Byte))
  /-- MERGE_IDLE_FLUSH (R362). A merge-buffer entry is flushed after its port has been idle for 32 cycles. -/
  | mergeIdleFlush (mem : Fin 22)
  /-- CELL_AUDIT (R370). The cell audit returns cells that no holder still owns to the free pool. -/
  | cellAudit
  /-- FLIP_ARM (R371). MEM_FLIP_CTRL.arm makes the next matching write be stored with the masks applied. -/
  | flipArm (path : Path) (data : Word)
  /-- FLIP_CANCEL (R371). MEM_FLIP_CTRL.cancel disarms the flip mask. -/
  | flipCancel (path : Path) (data : Word)
  /-- WAKE_IN_EDGE (R380). A WAKE_INn edge to the active level is recognised as a wake edge. -/
  | wakeInEdge (n : Fin 4) (level : Bool)
  /-- SLEEP_TIMER_EXPIRY (R379). wake_s elapses since the state entry, which is a wake source. -/
  | sleepTimerExpiry
  /-- TC10_WUP_DETECT (R388). A WUP detected on the MDI in SLEEP or STANDBY is a wake source. -/
  | tc10WupDetect (p : Fin 12)
  /-- TC10_WUR_RX (R388). A WUR received on an active link is a wake request of that port. -/
  | tc10WurRx (p : Fin 12)
  /-- RING_ROUND_START (R384). A sleep ring round starts, the device tests its own consent and sends the first BALL. -/
  | ringRoundStart (idle writing : Bool)
  /-- RING_RETURN_RX (R384). A member's RETURN is recorded as consent, or ends the round as a veto. -/
  | ringReturnRx (member : Fin 32) (round : BitVec 16) (verdict : BitVec 8)
  /-- RING_REPLY_TIMEOUT (R384). No RETURN arrives within reply_ms, so the round ends with reason 0xFE. -/
  | ringReplyTimeout
  /-- PWR_COMMIT (R385). PWR_CTRL.commit is accepted at the commit point, or refused after a wake request. -/
  | pwrCommit (path : Path) (data : Word)
  /-- COMMIT_HOLD_END (R387). commit_hold ends, so go-to-sleep is sent, legacy queues are dropped and LPS is sent. -/
  | commitHoldEnd
  /-- LPS_ACK_RX (R387). A link partner acknowledges LPS during sleep entry. -/
  | lpsAckRx (p : Fin 12)
  /-- LPS_TIMEOUT (R387). lps_ms elapses without acknowledgment, and the port sleeps anyway. -/
  | lpsTimeout (p : Fin 12)
  /-- LPS_RX (R388). A received LPS is acknowledged only during a round by a consenting member, otherwise refused. -/
  | lpsRx (p : Fin 12)
  /-- WAKE_OUT_WRITE (R390). PWR_CTRL.wake_out drives one WAKE_OUT pulse. -/
  | wakeOutWrite (path : Path) (data : Word)
  /-- WAKE_OUT_PULSE_END (R390). A WAKE_OUT pulse ends after width_ms. -/
  | wakeOutPulseEnd
  /-- CFG_RESTART_RESTART (R407). Restart kind RESTART enters BOOT with entry cause 0x07. -/
  | cfgRestartRestart (path : Path) (data : Word)
  /-- CFG_RESTART_RETRY (R407). Restart kind RETRY in MINIMAL clears fsc and enters BOOT with entry cause 0x08. -/
  | cfgRestartRetry (path : Path) (data : Word)
  /-- SHADOW_LOAD (R409). CFG_SHADOW_CTRL.load loads a CSET slot as the shadow set, or is refused with BUSY. -/
  | shadowLoad (path : Path) (data : Word)
  /-- SHADOW_LOAD_COMPLETE (R400). The shadow load finishes its checks and reports done with a code in CFG_LOAD_STAT. -/
  | shadowLoadComplete
  /-- SHADOW_DISCARD (R409). CFG_SHADOW_CTRL.discard removes a loaded shadow set. -/
  | shadowDiscard (path : Path) (data : Word)
  /-- SWAP (R410). swap_go stores the new active set and makes epoch E + 1 active at one classification cycle. -/
  | swap (path : Path) (data : Word)
  /-- SWAP_CONFIRM (R411). CFG_SWAP_CTRL.confirm ends a CSET trial. -/
  | swapConfirm (path : Path) (data : Word)
  /-- CSET_CONFIRM_TIMEOUT (R411). cset_confirm_s elapses without confirm, so the previous set is swapped back. -/
  | csetConfirmTimeout
  /-- NVS_STORE (R414). NVS_STORE_CMD.go writes the staging buffer into an MRAM region and reads it back. -/
  | nvsStore (path : Path) (data : Word) (res : StoreRes)
  /-- UPD_OPEN (R416). OPEN opens, joins or refuses an update session. -/
  | updOpen (path : Path) (data : Word)
  /-- UPD_CHUNK (R418). CHUNK checks and programs one 4 KiB chunk and stores its bitmap bit. -/
  | updChunk (path : Path) (data : Word) (good : Bool)
  /-- UPD_VERIFY_COMPLETE (R420). After the last chunk, the slot is checked and the session ends VERIFIED or FAILED. -/
  | updVerifyComplete
  /-- UPD_ABORT (R419). ABORT from the owner ends the session ABORTED. -/
  | updAbort (path : Path) (data : Word)
  /-- UPD_ARM (R422). ARM arms a verified FWIM slot, or loads a verified CSET as shadow. -/
  | updArm (path : Path) (data : Word)
  /-- UPD_CONFIRM (R422). CONFIRM makes a trial FWIM GOOD and primary and raises sec_min. -/
  | updConfirm (path : Path) (data : Word)
  /-- UPD_IDLE_STORE (R417). Every 3600 s the session idle count is stored in the session record. -/
  | updIdleStore
  /-- FWIM_TRIAL_TIMEOUT (R422). confirm_s elapses in RUN without CONFIRM, so the device restarts and rejects the trial. -/
  | fwimTrialTimeout
  /-- PCIE_MWR (R428). A PCIe memory write to BAR0 takes effect dword by dword, or fails. -/
  | pcieMwr (t : MWr) (stall : Bool := false)
  /-- PCIE_MRD (R428). A PCIe memory read is served dword by dword, or completed with Completer Abort. -/
  | pcieMrd (t : MRd)
  /-- PCIE_UNSUPPORTED (R428). A locked read, I/O request, AtomicOp or request outside the BARs is answered with Unsupported Request. -/
  | pcieUnsupported (kind : UrKind)
  /-- PCIE_LINK_CHANGE (R450). The PCIe link goes up or down and raises PCIE_LINK. -/
  | pcieLinkChange (up : Bool) (width : BitVec 4) (speed : BitVec 4) (l2 : Bool := false)
  /-- SPI_WRITE_FRAME (R437). A management SPI WRITE frame enters the write buffer and takes effect as one request. -/
  | spiWriteFrame (bytes : List Byte) (far : List Byte) (stall : Bool)
  /-- SPI_READ_FRAME (R437). A management SPI READ frame is served after earlier writes and returns status, data and CRC. -/
  | spiReadFrame (bytes : List Byte) (far : List Word)
  /-- SPI_STATUS_FRAME (R437). A STATUS frame returns the status byte. -/
  | spiStatusFrame (complete : Bool)
  /-- ASPI_WINDOW_WRITE (R430). A write to an auxiliary SPI window sends a peripheral write and may check its status. -/
  | aspiWindowWrite (path : Path) (w : Fin 4) (off : BitVec 20) (data : Word) (be : BitVec 4) (reqId : BitVec 16) (tag : BitVec 8) (sts : Byte)
  /-- ASPI_WINDOW_READ (R430). A read of an auxiliary SPI window reads the peripheral word and may read ahead. -/
  | aspiWindowRead (path : Path) (w : Fin 4) (off : BitVec 20) (words : List Word)
  /-- PREFETCH_TIMEOUT (R431). 10 µs after a read-ahead, the buffer is discarded and unread words are counted. -/
  | prefetchTimeout (path : Path) (w : Fin 4)
  /-- PW_FENCE_CLEAR (R435). A write of 1 to a bit of HBR_PW_FENCE clears the fence of the path. -/
  | pwFenceClear (path : Path) (data : Word)
  /-- PERST_ASSERT (R443). PERST_N low resets the PCIe core, stops the rings and takes P16 down. -/
  | perstAssert
  /-- PERST_RELEASE (R477). PERST_N rises, and the endpoint becomes ready to train. -/
  | perstRelease
  /-- TX_RING_TAIL_WRITE (R440). Host software advances the tail of a transmit ring, which hands descriptors to the device. -/
  | txRingTailWrite (path : Path) (r : Fin 8) (data : Word)
  /-- DMA_TX_FETCH_DONE (R441). The fetch of a transmit frame completes, the frame enters P16 and the descriptor is written back. -/
  | dmaTxFetchDone (r : Fin 8) (ndesc : BitVec 12) (tsReq : Bool) (bytes : List Byte) (poisoned : Bool)
  /-- RX_RING_TAIL_WRITE (R442). Host software advances the tail of a receive ring, which frees descriptors for P16 copies. -/
  | rxRingTailWrite (path : Path) (r : Fin 8) (data : Word)
  /-- DMA_ERROR (R443). A DMA access ends in error or timeout, so the ring is stopped and DMA_ERR is raised. -/
  | dmaError (rx : Bool) (r : Fin 8) (writable : Bool)
  /-- SIDEBAND_CHANGE (R444). A side-band ball changes level and sets its seen bit. -/
  | sidebandChange (ball : Fin 14) (level : Bool)
  /-- MQ_CFG_WRITE (R445). A write of MQ_CFG configures or enables a queue, and clearing en discards its items. -/
  | mqCfgWrite (path : Path) (k : Fin 48) (data : Word)
  /-- MQ_POP (R446). A read of MQ_POP3 by the owner advances Rd past the item read. -/
  | mqPop (path : Path) (k : Fin 48)
  /-- MQ_MARK (R448). MARK sets the mark to Rd. -/
  | mqMark (path : Path) (k : Fin 48)
  /-- MQ_REWIND (R448). REWIND returns Rd to the mark, or reports NO_MARK or MARK_LOST. -/
  | mqRewind (path : Path) (k : Fin 48)
  /-- MQ_RELEASE (R448). RELEASE frees n read items. -/
  | mqRelease (path : Path) (k : Fin 48) (n : BitVec 13)
  /-- MQ_RESET (R448). RESET sets F, Rd and M to W. -/
  | mqReset (path : Path) (k : Fin 48)
  /-- EVT_RAISE (R451). A write to EVT_RAISE raises a source as if its block had raised it. -/
  | evtRaise (path : Path) (src : BitVec 9)
  /-- EVT_ROUTE_WRITE (R454). A route write changes the routing of later rises, and a FAULT_N route is protected. -/
  | evtRouteWrite (path : Path) (src : BitVec 9) (data : Word)
  /-- MSIX_HOLDOFF_END (R453). The hold-off of a vector ends, and one message is sent for a pending request. -/
  | msixHoldoffEnd (v : Fin 32)
  /-- MSIX_UNMASK (R453). Clearing the mask of a vector sends one message for a pending request. -/
  | msixUnmask (v : Fin 32)
  /-- MDIO_ACCESS (R462). MAC_MDIO_CMD.go sends a Clause 45 address frame and a read or write frame. -/
  | mdioAccess (path : Path) (data : Word) (answer : Option (BitVec 16))
  /-- PHY_MIRROR_WRITE (R463). A write to the PHY mirror acts on the integrated PHY, or is ignored with ACCESS_ERR. -/
  | phyMirrorWrite (path : Path) (p : Fin 14) (page : Fin 4) (r : BitVec 10) (data : Word) (what : PhyWrite)
  /-- PORT_CFG_WRITE (R461). A write of MAC_PORT_CFG enables or disables a port or changes its mode while the port is disabled. -/
  | portCfgWrite (path : Path) (p : Fin 18) (data : Word)
  /-- VDD_AON_VALID (R390). VDD_AON becomes valid for the first time after its loss, so INH is driven high and every register, with the AON fields at zero, takes its reset value. -/
  | vddAonValid
  /-- PHY_PLL_LOCK (R25). An enabled PHY or SerDes PLL reports lock, which lets BOOT complete and lets that port train again. -/
  | phyPllLock (p : Fin 16)
  /-- STREAM_GATE_TAKEOVER (R190). At its change time the pending admin list of a stream gate takes over, and its entry 0 comes into force. -/
  | streamGateTakeover (g : Fin 256)
  /-- JTAG_ACCESS (R319). A JTAG instruction or a debug or register access by JTAG is taken, or refused according to the life-cycle state. -/
  | jtagAccess (op : JtagOp) (testEn : Bool := false)
  /-- CONTROL_PORT_FRAME_IN (R206). The control pair hands a frame to the switch through P17, where it is stamped and enters parsing and lookup. -/
  | controlPortFrameIn (tsReq : Bool) (bytes : List Byte)
  /-- CAN_INTEGRATION_COMPLETE (R247). After being enabled, after a swap or after a takeover, a CAN channel observes 11 recessive bits and joins bus activity, so routing resumes. -/
  | canIntegrationComplete (ch : Fin 16)
  /-- LPF_FRAME_END (R264). The low-power filter finishes decoding a frame: fec is incremented for an erroneous frame and decremented for a correct one, and an ignored FD or XL frame ends after 11 recessive bits. -/
  | lpfFrameEnd (ch : Fin 16) (good ignored : Bool)
  deriving DecidableEq, Repr

end Sys2Proof
end

