-- ==== Sys2Proof/Config.lean ====
section
/-! DEFINITION. What an implementation fixes and the spec leaves open: free values, as constants without a body. -/

namespace Sys2Proof.Config

/-- A free word: draw `n` of the state's counter of free values. -/
opaque freeWord : Nat → Word

/-- A free byte: byte `i` of draw `n`. -/
opaque freeByte : Nat → Nat → Byte

/-- Byte `i` of draw `n` of the true random number generator (R293, R302). -/
opaque trng : Nat → Nat → Byte

/-- The rows of memory `m` repaired by fuses, and its spare rows for field repair (R366). -/
opaque fuseRows : Nat → Nat
opaque spareRows : Nat → Nat

/-- The SECDED syndrome of a word stored with a data mask and a check mask (R357): the code is not given. -/
opaque syndrome : Nat → Nat → Byte

/-- What a trie result of the reserved type means (R124): the spec gives the code no meaning. -/
opaque reservedRoute : Word → Word

/-- The rate of the always-on oscillator in Hz above its least, 30.31 kHz, by draw (R475): at most nominal. -/
opaque aonHz : Nat → Fin 2459

/-- The lanes that fail the injection test of a re-pair which a frame's freshness store starts (R333, R342), by draw. -/
opaque laneFail : Nat → BitVec 8

/-- Whether a word of the control pair's memories that is in error is read by the split checker, by draw (R369). -/
opaque byChecker : Nat → Bool

/-- Whether the register at an offset of the PHY block is defined for the PHY of its port (R463). -/
opaque phyDefined : Nat → Bool

/-- What IEEE 802.3 makes of a write of a defined register at an offset of the PHY block, with the word last written there (R463): it would
change speed or role, it is a PMA/PMD reset, or it is any other. -/
opaque phyWrite : Nat → Word → Word → Fin 3

/-- A word of the PCIe configuration space that the spec does not give, by draw and offset (R426). -/
opaque pcieCfg : Nat → Nat → Word

/-- What a read of the PHY mirror returns: draw, offset, and the word last written there (R463). -/
opaque phyRead : Nat → Nat → Word → BitVec 16

/-- What the sections of a configuration set hold, by type and content (R398): the spec gives no layout of them. -/
opaque csetBody : List (Nat × List Byte) → Machine.Cset

/-- W_p in ns, which a FWIM declares for a program (R139): by the SHA-256 of the FWIM and the program. -/
opaque progTime : List Byte → Nat → Nat

/-- The phase of the edges of REDLINK_A within 1 us, in ticks of LT (R345). -/
opaque redlinkPhase : Nat

/-- Byte `i` of the SHA-256 of the boot ROM (R406). -/
opaque romByte : Nat → Byte

end Sys2Proof.Config
end

