-- ==== Sys2Proof/Machine/Bits.lean ====
section
/-! DEFINITION. Bit fields, byte order and check values: the helpers that every block uses. -/

namespace Sys2Proof.Machine

/-- Bits [hi:lo] of a word. -/
def getBits (w : Word) (hi lo : Nat) : Nat := w.toNat / 2 ^ lo % 2 ^ (hi - lo + 1)

/-- The word with bits [hi:lo] replaced by the low bits of `v`. -/
def putBits (w : Word) (hi lo v : Nat) : Word :=
  BitVec.ofNat 32 (w.toNat % 2 ^ lo + (v % 2 ^ (hi - lo + 1)) * 2 ^ lo + w.toNat / 2 ^ (hi + 1) * 2 ^ (hi + 1))

/-- Bit `b` of a word. -/
def getBit (w : Word) (b : Nat) : Bool := w.getLsbD b

/-- A two's complement value of `n` bits. -/
def signed (n v : Nat) : Int := (BitVec.ofNat n v).toInt

/-- The value of a byte string, most significant byte first (R6). -/
def beNat (bs : List Byte) : Nat := bs.foldl (fun a b => a * 256 + b.toNat) 0

/-- The `n` bytes of a value, most significant byte first (R6). -/
def beBytes : Nat → Nat → List Byte
  | 0, _ => []
  | n + 1, v => BitVec.ofNat 8 (v / 256 ^ n) :: beBytes n v

/-- The value of a byte string, least significant byte first. -/
def leNat : List Byte → Nat
  | [] => 0
  | b :: bs => b.toNat + 256 * leNat bs

/-- The `n` bytes of a value, least significant byte first. -/
def leBytes : Nat → Nat → List Byte
  | 0, _ => []
  | n + 1, v => BitVec.ofNat 8 v :: leBytes n (v / 256)

/-- Byte `i` of a byte string; bytes beyond its end read as zero. -/
def byteAt (bs : List Byte) (i : Nat) : Byte := bs.getD i 0

/-- Bytes `i` to `i + n - 1` of a byte string. -/
def bytesAt (bs : List Byte) (i n : Nat) : List Byte := (bs.drop i).take n

/-- The big-endian value of bytes `i` to `i + n - 1`. -/
def fieldAt (bs : List Byte) (i n : Nat) : Nat := beNat (bytesAt bs i n)

/-- One bit of a CRC whose register shifts left: `w` bits wide, polynomial `poly`. -/
def crcLeftBit (w poly : Nat) (r : Nat) : Nat :=
  let r2 := r * 2
  if r / 2 ^ (w - 1) % 2 = 1 then (r2 % 2 ^ w) ^^^ poly else r2 % 2 ^ w

/-- One bit of a CRC whose register shifts right: reflected polynomial `poly`. -/
def crcRightBit (poly : Nat) (r : Nat) : Nat :=
  if r % 2 = 1 then (r / 2) ^^^ poly else r / 2

/-- The CRC-8 of the management SPI port: polynomial 0x2F, initial value 0xFF, final XOR 0xFF (R436). -/
def crc8 (bs : List Byte) : Byte :=
  let r := bs.foldl (fun r b => (List.range 8).foldl (fun r _ => crcLeftBit 8 0x2F r) (r ^^^ b.toNat)) 0xFF
  BitVec.ofNat 8 (r ^^^ 0xFF)

/-- The register of a reflected 32-bit CRC after the bytes. -/
def crc32Run (poly init : Nat) (bs : List Byte) : Nat :=
  bs.foldl (fun r b => (List.range 8).foldl (fun r _ => crcRightBit poly r) (r ^^^ b.toNat)) init

/-- CRC-32C with initial value all ones and a final inversion (R396). -/
def crc32c (bs : List Byte) : Nat := crc32Run 0x82F63B78 0xFFFFFFFF bs ^^^ 0xFFFFFFFF

/-- The FCS of IEEE 802.3 over the bytes of a frame, as a number whose low byte is sent first. -/
def crc32 (bs : List Byte) : Nat := crc32Run 0xEDB88320 0xFFFFFFFF bs ^^^ 0xFFFFFFFF

/-- The big-endian dwords of a byte string. -/
def wordsOf : List Byte → List Word
  | a :: b :: c :: d :: t => BitVec.ofNat 32 (beNat [a, b, c, d]) :: wordsOf t
  | _ => []

/-- The bytes of dwords, most significant first. -/
def bytesOf (ws : List Word) : List Byte := ws.flatMap fun w => beBytes 4 w.toNat

/-- Ticks of 1.25 ns in a number of microseconds, milliseconds and seconds. -/
def tkUs (n : Nat) : Nat := n * 800
def tkMs (n : Nat) : Nat := n * 800000
def tkS (n : Nat) : Nat := n * 800000000

/-- Whole ticks that cover a number of nanoseconds. -/
def tkNs (n : Nat) : Nat := (n * 4 + 4) / 5

end Sys2Proof.Machine
end

