-- ==== Sys2Proof/Machine/EvtMap.lean ====
section
/-! DEFINITION. The event sources of R450: source number 32 * group + bit. -/

namespace Sys2Proof.Machine.Ev

open Sys2Proof.Machine

/-- The ACCESS_ERR source of a block (R450). -/
def accessErr : Blk → Nat
  | .glb => 0 | .evt => 5 | .hbr => 32 | .mgt => 33
  | .tim => 128 | .tga => 176 | .mac => 177 | .phy => 178
  | .can => 250 | .lin => 251 | .tss => 252
  | .cls => 256 | .fdb => 257 | .sky => 258 | .hrb => 259 | .qmg => 260 | .sch => 261
  | .cip => 340 | .key => 341 | .mem => 357 | .red => 391
  | .pwr => 422 | .cfg => 423 | .nvs => 424 | .upd => 425

def faultRec : Nat := 1
def lsSplit : Nat := 2
def lsSplitTmo : Nat := 3
def lsRepair : Nat := 4
def pwFail : Nat := 34
def pwFence : Nat := 35
def pfDiscard : Nat := 36
def dmaErr : Nat := 37
def pcieLink : Nat := 38
def mspiErr : Nat := 39
def mqLost : Nat := 40
def mqMarkLost : Nat := 41
def dmaRx (r : Nat) : Nat := 48 + r
def dmaTx (r : Nat) : Nat := 56 + r
def linkChange (n : Nat) : Nat := 64 + n
def rateChange (n : Nat) : Nat := 96 + n
def preemptChange (n : Nat) : Nat := 112 + n
def timeStep : Nat := 129
def timeResumed : Nat := 130
def tscLockout (n : Nat) : Nat := 136 + n
def tscOvf (n : Nat) : Nat := 144 + n
def txtsOvf (n : Nat) : Nat := 160 + n
def tideTakeover (n : Nat) : Nat := 192 + n
def tideIdle (n : Nat) : Nat := 208 + n
def canBusoff (n : Nat) : Nat := 224 + n
def linIdle (n : Nat) : Nat := 240 + n
def plcaChange (p : Nat) : Nat := 248 + p
def macFlap : Nat := 262
def skyFault : Nat := 263
def queueReset : Nat := 264
def pnThresh (n : Nat) : Nat := 288 + n
def pnExhaust (n : Nat) : Nat := 320 + n
def saEcc : Nat := 338
def trngFail : Nat := 339
def memCe : Nat := 352
def memUe : Nat := 353
def memWeak : Nat := 354
def memRepairFull : Nat := 355
def memReload : Nat := 356
def hbLoss : Nat := 384
def pairMismatch : Nat := 385
def redlinkFault : Nat := 386
def pairTakeover : Nat := 387
def pairDualActive : Nat := 388
def pairRebound : Nat := 389
def reboundRefused : Nat := 390
def wake : Nat := 416
def ringVeto : Nat := 417
def ringNodeStuck : Nat := 418
def ringForce : Nat := 419
def csetSwap : Nat := 420
def csetRevert : Nat := 421
def mqNonempty (k : Nat) : Nat := 448 + k

/-- The sources that the table of R450 lists: only these ever rise. -/
def listed (s : Nat) : Bool :=
  let g := s / 32
  let b := s % 32
  match g with
  | 0 => b ≤ 5
  | 1 => b ≤ 9 || 16 ≤ b
  | 2 => b ≤ 16
  | 3 => true
  | 4 => b ≤ 2 || (8 ≤ b && b ≤ 23)
  | 5 => b ≤ 18
  | 6 => true
  | 7 => b ≤ 28
  | 8 => b ≤ 8
  | 9 => b ≤ 17
  | 10 => b ≤ 21
  | 11 => b ≤ 5
  | 12 => b ≤ 7
  | 13 => b ≤ 9
  | 14 => true
  | 15 => b ≤ 15
  | _ => false

end Sys2Proof.Machine.Ev
end

