-- ==== Sys2Proof/Machine/CtrMap.lean ====
section
/-! DEFINITION. The 64-bit statistics counters of the map (R15, R460), each under the rule that lists it. -/

namespace Sys2Proof.Machine

/-- The kinds of counter. -/
inductive Ctr where
  | macRxCtFrames | macDropRxerr | macDropOversize | macDropRunt | macDropFcs | macRxCtBad
  | macTxCtFrames | macTxStomp | macTxAbort | macDropFence | clsDropRule | clsDropDefault
  | clsDropCtInvalid | clsDropCtFull | clsDropPushLen | clsDropParity | clsTrap | clsCtCreate
  | clsCtExpire | clsRwSkip | clsParseTrunc | fdbFloodUu | fdbFloodMc | fdbFloodBc
  | fdbDropVlanIn | fdbDropVlanOut | fdbDropSamePort | fdbDropEmpty | fdbDropSaStatic | fdbDropDa
  | fdbDropNoRoute | fdbDropRoute | fdbTrapTtl | fdbTrapLocal | fdbDropParity | fdbDropEgrLen
  | fdbNoticePosted | fdbNoticeSupp | fdbNoticeLost | fdbLearnFail | fdbFlapCount | fdbAgeDel
  | skyDropCause | skyKFrames | skyKStolenIn | skyKStolenOut | skyKDropQfull | skyKWdog
  | skyKFaults | hrbReleased | hrbVoid | hrbHoldTmo | hrbLate | hrbDropNoSlot
  | hrbDropNoCtx | hrbDropFlowLim | hrbDropLegOrder | qmgQEnq | qmgQTx | qmgQDropQlim
  | qmgQDropColour | qmgQDropPort | qmgQDropPool | qmgQDropMaxf | qmgQDropLink | mtrGreen
  | mtrYellow | mtrRedPass | mtrRedDrop | gatePass | gateDropClosed | gateDropOctets
  | schDropSdu | schDropGate | schDropMeterRed | schMarkYellow | schMarkRed | schUrgentGrant
  | schDropMeterYellow | timTxtsDrop | timTxtsTaken | timTscEdges | timTscMerged | timTscOvf
  | timTscLockouts | timPpsEdges | tgaDeferFit | tgaTxHold | tgaTxPreempt | tgaTxFrags
  | tgaLateEnd | tgaRxFrags | tgaRxAssyOk | tgaRxAssyErr | tgaRxSmdErr | canRxFrames
  | canRxDropOvf | canRxDropRtr | canTxFrames | canTxDropFull | canTxDropOrder | canTxDropAge
  | canTxDropBusoff | canTxDropFmt | canTxDropState | canErrBit | canErrStuff | canErrCrc
  | canErrForm | canErrAck | canArbLost | canBusoff | canMapMiss | canMapDrop
  | canMapDropEcc | linRxFrames | linTxFrames | linTxReplaced | linTxDropFull | linTxDropOrder
  | linTxDropState | linTxDropNopub | linErrNoResp | linErrChecksum | linErrBit | linErrFraming
  | linErrSync | linEtfCollision | linRxDropOvf | tssCol | tssLateCol | tssSymbolErr
  | tssJabber | tssPlcaLoss | cipInOk | cipInDelayed | cipInLate | cipInNotValid
  | cipInInvalid | cipInNotUsingSa | cipInUnusedSa | cipInUntagged | cipInNoTag | cipInBadTag
  | cipInNoSci | cipInUnknownSci | cipInBypass | cipOutProtected | cipOutEncrypted | cipOutBypass
  | cipOutTooLong | cipTxDropPn | cipVbPoison | cipKeyDenied | cipCtxRestoreFail | cipTrngHealthFail
  | keyUpdOk | keyUpdFail | keyLcFail | keyAttest | keyDbgFail | glbFaults
  | glbLsSplits | glbLsSplitTmo | glbLsDenied | redTakeovers | redRebounds | redEchoTx
  | redEchoRx | redEchoLate | redStbySupp | redHandoverDrop | redPlForeign | redHbGlitch
  | redDualActive | memCe | memUe | memPoisonUse | memWeak | memPoisonDrop
  | memQResetDrop | memReloads | memReloadNone | memTrkFull | memRepairFull | memFlipApplied
  | pwrRounds | pwrCommits | pwrAbortWake | pwrVetoes | pwrForced | pwrLateWakes
  | pwrLpsNoack | pwrLpsRefused | pwrFrFallback | pwrWurRx | cfgSwaps | cfgLoadRefused
  | cfgCsetReverts | cfgFailedStarts | nvsStores | nvsStoreFail | updChunksOk | updChunksDup
  | updChunksFail | updSessionsFail | hbrPwFail | hbrPwLogLost | hbrPwFenced | hbrNpErr
  | hbrDmaErr | hbrPfDiscard | mgtSpiErr | mqPosted | mqRefused | mqLost
  | mqMarkLost
  deriving DecidableEq, Repr

/-- Where a kind of counter stands: (offset of instance 0, stride, number of instances), range after range. -/
def Ctr.ranges : Ctr → List (Nat × Nat × Nat)
  | .macRxCtFrames => [(0x080100, 4096, 18)]  -- MAC_RX_CT_FRAMES, R48
  | .macDropRxerr => [(0x080108, 4096, 18)]  -- MAC_DROP_RXERR, R48
  | .macDropOversize => [(0x080110, 4096, 18)]  -- MAC_DROP_OVERSIZE, R48
  | .macDropRunt => [(0x080118, 4096, 18)]  -- MAC_DROP_RUNT, R48
  | .macDropFcs => [(0x080120, 4096, 18)]  -- MAC_DROP_FCS, R48
  | .macRxCtBad => [(0x080128, 4096, 18)]  -- MAC_RX_CT_BAD, R48
  | .macTxCtFrames => [(0x080130, 4096, 18)]  -- MAC_TX_CT_FRAMES, R48
  | .macTxStomp => [(0x080138, 4096, 18)]  -- MAC_TX_STOMP, R48
  | .macTxAbort => [(0x080140, 4096, 18)]  -- MAC_TX_ABORT, R48
  | .macDropFence => [(0x080148, 4096, 18)]  -- MAC_DROP_FENCE, R48
  | .clsDropRule => [(0x100200, 0, 1)]  -- CLS_DROP_RULE, R103
  | .clsDropDefault => [(0x100208, 0, 1)]  -- CLS_DROP_DEFAULT, R103
  | .clsDropCtInvalid => [(0x100210, 0, 1)]  -- CLS_DROP_CT_INVALID, R103
  | .clsDropCtFull => [(0x100218, 0, 1)]  -- CLS_DROP_CT_FULL, R103
  | .clsDropPushLen => [(0x100220, 0, 1)]  -- CLS_DROP_PUSH_LEN, R103
  | .clsDropParity => [(0x100228, 0, 1)]  -- CLS_DROP_PARITY, R103
  | .clsTrap => [(0x100230, 0, 1)]  -- CLS_TRAP, R103
  | .clsCtCreate => [(0x100238, 0, 1)]  -- CLS_CT_CREATE, R103
  | .clsCtExpire => [(0x100240, 0, 1)]  -- CLS_CT_EXPIRE, R103
  | .clsRwSkip => [(0x100248, 0, 1)]  -- CLS_RW_SKIP, R103
  | .clsParseTrunc => [(0x100250, 0, 1)]  -- CLS_PARSE_TRUNC, R103
  | .fdbFloodUu => [(0x140200, 0, 1)]  -- FDB_FLOOD_UU, R135
  | .fdbFloodMc => [(0x140208, 0, 1)]  -- FDB_FLOOD_MC, R135
  | .fdbFloodBc => [(0x140210, 0, 1)]  -- FDB_FLOOD_BC, R135
  | .fdbDropVlanIn => [(0x140218, 0, 1)]  -- FDB_DROP_VLAN_IN, R135
  | .fdbDropVlanOut => [(0x140220, 0, 1)]  -- FDB_DROP_VLAN_OUT, R135
  | .fdbDropSamePort => [(0x140228, 0, 1)]  -- FDB_DROP_SAME_PORT, R135
  | .fdbDropEmpty => [(0x140230, 0, 1)]  -- FDB_DROP_EMPTY, R135
  | .fdbDropSaStatic => [(0x140238, 0, 1)]  -- FDB_DROP_SA_STATIC, R135
  | .fdbDropDa => [(0x140240, 0, 1)]  -- FDB_DROP_DA, R135
  | .fdbDropNoRoute => [(0x140248, 0, 1)]  -- FDB_DROP_NO_ROUTE, R135
  | .fdbDropRoute => [(0x140250, 0, 1)]  -- FDB_DROP_ROUTE, R135
  | .fdbTrapTtl => [(0x140258, 0, 1)]  -- FDB_TRAP_TTL, R135
  | .fdbTrapLocal => [(0x140260, 0, 1)]  -- FDB_TRAP_LOCAL, R135
  | .fdbDropParity => [(0x140268, 0, 1)]  -- FDB_DROP_PARITY, R135
  | .fdbDropEgrLen => [(0x140270, 0, 1)]  -- FDB_DROP_EGR_LEN, R135
  | .fdbNoticePosted => [(0x140278, 0, 1)]  -- FDB_NOTICE_POSTED, R135
  | .fdbNoticeSupp => [(0x140280, 0, 1)]  -- FDB_NOTICE_SUPP, R135
  | .fdbNoticeLost => [(0x140288, 0, 1)]  -- FDB_NOTICE_LOST, R135
  | .fdbLearnFail => [(0x140290, 0, 1)]  -- FDB_LEARN_FAIL, R135
  | .fdbFlapCount => [(0x140298, 0, 1)]  -- FDB_FLAP_COUNT, R135
  | .fdbAgeDel => [(0x1402A0, 0, 1)]  -- FDB_AGE_DEL, R135
  | .skyDropCause => [(0x180208, 8, 12)]  -- SKY_DROP_CAUSE, R165
  | .skyKFrames => [(0x181000, 64, 32)]  -- SKY_K_FRAMES, R165
  | .skyKStolenIn => [(0x181008, 64, 32)]  -- SKY_K_STOLEN_IN, R165
  | .skyKStolenOut => [(0x181010, 64, 32)]  -- SKY_K_STOLEN_OUT, R165
  | .skyKDropQfull => [(0x181018, 64, 32)]  -- SKY_K_DROP_QFULL, R165
  | .skyKWdog => [(0x181020, 64, 32)]  -- SKY_K_WDOG, R165
  | .skyKFaults => [(0x181028, 64, 32)]  -- SKY_K_FAULTS, R165
  | .hrbReleased => [(0x1C0100, 0, 1)]  -- HRB_RELEASED, R165
  | .hrbVoid => [(0x1C0108, 0, 1)]  -- HRB_VOID, R165
  | .hrbHoldTmo => [(0x1C0110, 0, 1)]  -- HRB_HOLD_TMO, R165
  | .hrbLate => [(0x1C0118, 0, 1)]  -- HRB_LATE, R165
  | .hrbDropNoSlot => [(0x1C0120, 0, 1)]  -- HRB_DROP_NO_SLOT, R165
  | .hrbDropNoCtx => [(0x1C0128, 0, 1)]  -- HRB_DROP_NO_CTX, R165
  | .hrbDropFlowLim => [(0x1C0130, 0, 1)]  -- HRB_DROP_FLOW_LIM, R165
  | .hrbDropLegOrder => [(0x1C0138, 0, 1)]  -- HRB_DROP_LEG_ORDER, R165
  | .qmgQEnq => [(0x210000, 64, 144), (0x220000, 64, 1024)]  -- QMG_Q_ENQ, R195
  | .qmgQTx => [(0x210008, 64, 144), (0x220008, 64, 1024)]  -- QMG_Q_TX, R195
  | .qmgQDropQlim => [(0x210010, 64, 144), (0x220010, 64, 1024)]  -- QMG_Q_DROP_QLIM, R195
  | .qmgQDropColour => [(0x210018, 64, 144), (0x220018, 64, 1024)]  -- QMG_Q_DROP_COLOUR, R195
  | .qmgQDropPort => [(0x210020, 64, 144), (0x220020, 64, 1024)]  -- QMG_Q_DROP_PORT, R195
  | .qmgQDropPool => [(0x210028, 64, 144), (0x220028, 64, 1024)]  -- QMG_Q_DROP_POOL, R195
  | .qmgQDropMaxf => [(0x210030, 64, 144), (0x220030, 64, 1024)]  -- QMG_Q_DROP_MAXF, R195
  | .qmgQDropLink => [(0x210038, 64, 144), (0x220038, 64, 1024)]  -- QMG_Q_DROP_LINK, R195
  | .mtrGreen => [(0x250020, 64, 2048)]  -- MTR_GREEN, R195
  | .mtrYellow => [(0x250028, 64, 2048)]  -- MTR_YELLOW, R195
  | .mtrRedPass => [(0x250030, 64, 2048)]  -- MTR_RED_PASS, R195
  | .mtrRedDrop => [(0x250038, 64, 2048)]  -- MTR_RED_DROP, R195
  | .gatePass => [(0x270020, 64, 256)]  -- GATE_PASS, R195
  | .gateDropClosed => [(0x270028, 64, 256)]  -- GATE_DROP_CLOSED, R195
  | .gateDropOctets => [(0x270030, 64, 256)]  -- GATE_DROP_OCTETS, R195
  | .schDropSdu => [(0x240800, 0, 1)]  -- SCH_DROP_SDU, R195
  | .schDropGate => [(0x240808, 0, 1)]  -- SCH_DROP_GATE, R195
  | .schDropMeterRed => [(0x240810, 0, 1)]  -- SCH_DROP_METER_RED, R195
  | .schMarkYellow => [(0x240818, 0, 1)]  -- SCH_MARK_YELLOW, R195
  | .schMarkRed => [(0x240820, 0, 1)]  -- SCH_MARK_RED, R195
  | .schUrgentGrant => [(0x240828, 0, 1)]  -- SCH_URGENT_GRANT, R195
  | .schDropMeterYellow => [(0x240830, 0, 1)]  -- SCH_DROP_METER_YELLOW, R195
  | .timTxtsDrop => [(0x2C1080, 256, 16)]  -- TIM_TXTS_DROP, R222
  | .timTxtsTaken => [(0x2C1088, 256, 16)]  -- TIM_TXTS_TAKEN, R222
  | .timTscEdges => [(0x2C2040, 128, 8)]  -- TIM_TSC_EDGES, R222
  | .timTscMerged => [(0x2C2048, 128, 8)]  -- TIM_TSC_MERGED, R222
  | .timTscOvf => [(0x2C2050, 128, 8)]  -- TIM_TSC_OVF, R222
  | .timTscLockouts => [(0x2C2058, 128, 8)]  -- TIM_TSC_LOCKOUTS, R222
  | .timPpsEdges => [(0x2C3020, 64, 2)]  -- TIM_PPS_EDGES, R222
  | .tgaDeferFit => [(0x280080, 256, 16)]  -- TGA_DEFER_FIT, R244
  | .tgaTxHold => [(0x280088, 256, 16)]  -- TGA_TX_HOLD, R244
  | .tgaTxPreempt => [(0x280090, 256, 16)]  -- TGA_TX_PREEMPT, R244
  | .tgaTxFrags => [(0x280098, 256, 16)]  -- TGA_TX_FRAGS, R244
  | .tgaLateEnd => [(0x2800A0, 256, 16)]  -- TGA_LATE_END, R244
  | .tgaRxFrags => [(0x2800A8, 256, 16)]  -- TGA_RX_FRAGS, R244
  | .tgaRxAssyOk => [(0x2800B0, 256, 16)]  -- TGA_RX_ASSY_OK, R244
  | .tgaRxAssyErr => [(0x2800B8, 256, 16)]  -- TGA_RX_ASSY_ERR, R244
  | .tgaRxSmdErr => [(0x2800C0, 256, 16)]  -- TGA_RX_SMD_ERR, R244
  | .canRxFrames => [(0x300100, 2048, 16)]  -- CAN_RX_FRAMES, R270
  | .canRxDropOvf => [(0x300108, 2048, 16)]  -- CAN_RX_DROP_OVF, R270
  | .canRxDropRtr => [(0x300110, 2048, 16)]  -- CAN_RX_DROP_RTR, R270
  | .canTxFrames => [(0x300118, 2048, 16)]  -- CAN_TX_FRAMES, R270
  | .canTxDropFull => [(0x300120, 2048, 16)]  -- CAN_TX_DROP_FULL, R270
  | .canTxDropOrder => [(0x300128, 2048, 16)]  -- CAN_TX_DROP_ORDER, R270
  | .canTxDropAge => [(0x300130, 2048, 16)]  -- CAN_TX_DROP_AGE, R270
  | .canTxDropBusoff => [(0x300138, 2048, 16)]  -- CAN_TX_DROP_BUSOFF, R270
  | .canTxDropFmt => [(0x300140, 2048, 16)]  -- CAN_TX_DROP_FMT, R270
  | .canTxDropState => [(0x300148, 2048, 16)]  -- CAN_TX_DROP_STATE, R270
  | .canErrBit => [(0x300150, 2048, 16)]  -- CAN_ERR_BIT, R270
  | .canErrStuff => [(0x300158, 2048, 16)]  -- CAN_ERR_STUFF, R270
  | .canErrCrc => [(0x300160, 2048, 16)]  -- CAN_ERR_CRC, R270
  | .canErrForm => [(0x300168, 2048, 16)]  -- CAN_ERR_FORM, R270
  | .canErrAck => [(0x300170, 2048, 16)]  -- CAN_ERR_ACK, R270
  | .canArbLost => [(0x300178, 2048, 16)]  -- CAN_ARB_LOST, R270
  | .canBusoff => [(0x300180, 2048, 16)]  -- CAN_BUSOFF, R270
  | .canMapMiss => [(0x308100, 0, 1)]  -- CAN_MAP_MISS, R270
  | .canMapDrop => [(0x308108, 0, 1)]  -- CAN_MAP_DROP, R270
  | .canMapDropEcc => [(0x308110, 0, 1)]  -- CAN_MAP_DROP_ECC, R270
  | .linRxFrames => [(0x340800, 4096, 8)]  -- LIN_RX_FRAMES, R270
  | .linTxFrames => [(0x340808, 4096, 8)]  -- LIN_TX_FRAMES, R270
  | .linTxReplaced => [(0x340810, 4096, 8)]  -- LIN_TX_REPLACED, R270
  | .linTxDropFull => [(0x340818, 4096, 8)]  -- LIN_TX_DROP_FULL, R270
  | .linTxDropOrder => [(0x340820, 4096, 8)]  -- LIN_TX_DROP_ORDER, R270
  | .linTxDropState => [(0x340828, 4096, 8)]  -- LIN_TX_DROP_STATE, R270
  | .linTxDropNopub => [(0x340830, 4096, 8)]  -- LIN_TX_DROP_NOPUB, R270
  | .linErrNoResp => [(0x340838, 4096, 8)]  -- LIN_ERR_NO_RESP, R270
  | .linErrChecksum => [(0x340840, 4096, 8)]  -- LIN_ERR_CHECKSUM, R270
  | .linErrBit => [(0x340848, 4096, 8)]  -- LIN_ERR_BIT, R270
  | .linErrFraming => [(0x340850, 4096, 8)]  -- LIN_ERR_FRAMING, R270
  | .linErrSync => [(0x340858, 4096, 8)]  -- LIN_ERR_SYNC, R270
  | .linEtfCollision => [(0x340860, 4096, 8)]  -- LIN_ETF_COLLISION, R270
  | .linRxDropOvf => [(0x340868, 4096, 8)]  -- LIN_RX_DROP_OVF, R270
  | .tssCol => [(0x360100, 4096, 2)]  -- TSS_COL, R270
  | .tssLateCol => [(0x360108, 4096, 2)]  -- TSS_LATE_COL, R270
  | .tssSymbolErr => [(0x360110, 4096, 2)]  -- TSS_SYMBOL_ERR, R270
  | .tssJabber => [(0x360118, 4096, 2)]  -- TSS_JABBER, R270
  | .tssPlcaLoss => [(0x360120, 4096, 2)]  -- TSS_PLCA_LOSS, R270
  | .cipInOk => [(0x381020, 256, 18)]  -- CIP_IN_OK, R295
  | .cipInDelayed => [(0x381028, 256, 18)]  -- CIP_IN_DELAYED, R295
  | .cipInLate => [(0x381030, 256, 18)]  -- CIP_IN_LATE, R295
  | .cipInNotValid => [(0x381038, 256, 18)]  -- CIP_IN_NOT_VALID, R295
  | .cipInInvalid => [(0x381040, 256, 18)]  -- CIP_IN_INVALID, R295
  | .cipInNotUsingSa => [(0x381048, 256, 18)]  -- CIP_IN_NOT_USING_SA, R295
  | .cipInUnusedSa => [(0x381050, 256, 18)]  -- CIP_IN_UNUSED_SA, R295
  | .cipInUntagged => [(0x381058, 256, 18)]  -- CIP_IN_UNTAGGED, R295
  | .cipInNoTag => [(0x381060, 256, 18)]  -- CIP_IN_NO_TAG, R295
  | .cipInBadTag => [(0x381068, 256, 18)]  -- CIP_IN_BAD_TAG, R295
  | .cipInNoSci => [(0x381070, 256, 18)]  -- CIP_IN_NO_SCI, R295
  | .cipInUnknownSci => [(0x381078, 256, 18)]  -- CIP_IN_UNKNOWN_SCI, R295
  | .cipInBypass => [(0x381080, 256, 18)]  -- CIP_IN_BYPASS, R295
  | .cipOutProtected => [(0x381088, 256, 18)]  -- CIP_OUT_PROTECTED, R295
  | .cipOutEncrypted => [(0x381090, 256, 18)]  -- CIP_OUT_ENCRYPTED, R295
  | .cipOutBypass => [(0x381098, 256, 18)]  -- CIP_OUT_BYPASS, R295
  | .cipOutTooLong => [(0x3810A0, 256, 18)]  -- CIP_OUT_TOO_LONG, R295
  | .cipTxDropPn => [(0x3810A8, 256, 18)]  -- CIP_TX_DROP_PN, R295
  | .cipVbPoison => [(0x380800, 0, 1)]  -- CIP_VB_POISON, R295
  | .cipKeyDenied => [(0x380808, 0, 1)]  -- CIP_KEY_DENIED, R295
  | .cipCtxRestoreFail => [(0x380810, 0, 1)]  -- CIP_CTX_RESTORE_FAIL, R295
  | .cipTrngHealthFail => [(0x380818, 0, 1)]  -- CIP_TRNG_HEALTH_FAIL, R295
  | .keyUpdOk => [(0x3C0800, 0, 1)]  -- KEY_UPD_OK, R324
  | .keyUpdFail => [(0x3C0808, 0, 1)]  -- KEY_UPD_FAIL, R324
  | .keyLcFail => [(0x3C0810, 0, 1)]  -- KEY_LC_FAIL, R324
  | .keyAttest => [(0x3C0818, 0, 1)]  -- KEY_ATTEST, R324
  | .keyDbgFail => [(0x3C0820, 0, 1)]  -- KEY_DBG_FAIL, R324
  | .glbFaults => [(0x000800, 0, 1)]  -- GLB_FAULTS, R356
  | .glbLsSplits => [(0x000808, 0, 1)]  -- GLB_LS_SPLITS, R356
  | .glbLsSplitTmo => [(0x000810, 0, 1)]  -- GLB_LS_SPLIT_TMO, R356
  | .glbLsDenied => [(0x000818, 0, 1)]  -- GLB_LS_DENIED, R356
  | .redTakeovers => [(0x400100, 0, 1)]  -- RED_TAKEOVERS, R356
  | .redRebounds => [(0x400108, 0, 1)]  -- RED_REBOUNDS, R356
  | .redEchoTx => [(0x400110, 0, 1)]  -- RED_ECHO_TX, R356
  | .redEchoRx => [(0x400118, 0, 1)]  -- RED_ECHO_RX, R356
  | .redEchoLate => [(0x400120, 0, 1)]  -- RED_ECHO_LATE, R356
  | .redStbySupp => [(0x400128, 0, 1)]  -- RED_STBY_SUPP, R356
  | .redHandoverDrop => [(0x400130, 0, 1)]  -- RED_HANDOVER_DROP, R356
  | .redPlForeign => [(0x400138, 0, 1)]  -- RED_PL_FOREIGN, R356
  | .redHbGlitch => [(0x400140, 0, 1)]  -- RED_HB_GLITCH, R356
  | .redDualActive => [(0x400148, 0, 1)]  -- RED_DUAL_ACTIVE, R356
  | .memCe => [(0x441000, 32, 22)]  -- MEM_CE, R372
  | .memUe => [(0x441008, 32, 22)]  -- MEM_UE, R372
  | .memPoisonUse => [(0x441010, 32, 22)]  -- MEM_POISON_USE, R372
  | .memWeak => [(0x441018, 32, 22)]  -- MEM_WEAK, R372
  | .memPoisonDrop => [(0x440800, 0, 1)]  -- MEM_POISON_DROP, R372
  | .memQResetDrop => [(0x440808, 0, 1)]  -- MEM_Q_RESET_DROP, R372
  | .memReloads => [(0x440810, 0, 1)]  -- MEM_RELOADS, R372
  | .memReloadNone => [(0x440818, 0, 1)]  -- MEM_RELOAD_NONE, R372
  | .memTrkFull => [(0x440820, 0, 1)]  -- MEM_TRK_FULL, R372
  | .memRepairFull => [(0x440828, 0, 1)]  -- MEM_REPAIR_FULL, R372
  | .memFlipApplied => [(0x440830, 0, 1)]  -- MEM_FLIP_APPLIED, R372
  | .pwrRounds => [(0x480800, 0, 1)]  -- PWR_ROUNDS, R395
  | .pwrCommits => [(0x480808, 0, 1)]  -- PWR_COMMITS, R395
  | .pwrAbortWake => [(0x480810, 0, 1)]  -- PWR_ABORT_WAKE, R395
  | .pwrVetoes => [(0x480818, 0, 1)]  -- PWR_VETOES, R395
  | .pwrForced => [(0x480820, 0, 1)]  -- PWR_FORCED, R395
  | .pwrLateWakes => [(0x480828, 0, 1)]  -- PWR_LATE_WAKES, R395
  | .pwrLpsNoack => [(0x480830, 0, 1)]  -- PWR_LPS_NOACK, R395
  | .pwrLpsRefused => [(0x480838, 0, 1)]  -- PWR_LPS_REFUSED, R395
  | .pwrFrFallback => [(0x480840, 0, 1)]  -- PWR_FR_FALLBACK, R395
  | .pwrWurRx => [(0x480848, 0, 1)]  -- PWR_WUR_RX, R395
  | .cfgSwaps => [(0x040800, 0, 1)]  -- CFG_SWAPS, R423
  | .cfgLoadRefused => [(0x040808, 0, 1)]  -- CFG_LOAD_REFUSED, R423
  | .cfgCsetReverts => [(0x040810, 0, 1)]  -- CFG_CSET_REVERTS, R423
  | .cfgFailedStarts => [(0x040818, 0, 1)]  -- CFG_FAILED_STARTS, R423
  | .nvsStores => [(0x050800, 0, 1)]  -- NVS_STORES, R423
  | .nvsStoreFail => [(0x050808, 0, 1)]  -- NVS_STORE_FAIL, R423
  | .updChunksOk => [(0x060800, 0, 1)]  -- UPD_CHUNKS_OK, R423
  | .updChunksDup => [(0x060808, 0, 1)]  -- UPD_CHUNKS_DUP, R423
  | .updChunksFail => [(0x060810, 0, 1)]  -- UPD_CHUNKS_FAIL, R423
  | .updSessionsFail => [(0x060818, 0, 1)]  -- UPD_SESSIONS_FAIL, R423
  | .hbrPwFail => [(0x020800, 0, 1)]  -- HBR_PW_FAIL, R456
  | .hbrPwLogLost => [(0x020808, 0, 1)]  -- HBR_PW_LOG_LOST, R456
  | .hbrPwFenced => [(0x020810, 0, 1)]  -- HBR_PW_FENCED, R456
  | .hbrNpErr => [(0x020818, 0, 1)]  -- HBR_NP_ERR, R456
  | .hbrDmaErr => [(0x020820, 0, 1)]  -- HBR_DMA_ERR, R456
  | .hbrPfDiscard => [(0x020900, 8, 4)]  -- HBR_PF_DISCARD, R456
  | .mgtSpiErr => [(0x030800, 0, 1)]  -- MGT_SPI_ERR, R456
  | .mqPosted => [(0x031020, 64, 48)]  -- MQ_POSTED, R456
  | .mqRefused => [(0x031028, 64, 48)]  -- MQ_REFUSED, R456
  | .mqLost => [(0x031030, 64, 48)]  -- MQ_LOST, R456
  | .mqMarkLost => [(0x031038, 64, 48)]  -- MQ_MARK_LOST, R456

/-- The counters of block MAC. -/
def ctrsOfMAC : List Ctr :=
  [.macRxCtFrames, .macDropRxerr, .macDropOversize, .macDropRunt, .macDropFcs, .macRxCtBad, .macTxCtFrames,
   .macTxStomp, .macTxAbort, .macDropFence]

/-- The counters of block CLS. -/
def ctrsOfCLS : List Ctr :=
  [.clsDropRule, .clsDropDefault, .clsDropCtInvalid, .clsDropCtFull, .clsDropPushLen, .clsDropParity, .clsTrap,
   .clsCtCreate, .clsCtExpire, .clsRwSkip, .clsParseTrunc]

/-- The counters of block FDB. -/
def ctrsOfFDB : List Ctr :=
  [.fdbFloodUu, .fdbFloodMc, .fdbFloodBc, .fdbDropVlanIn, .fdbDropVlanOut, .fdbDropSamePort, .fdbDropEmpty,
   .fdbDropSaStatic, .fdbDropDa, .fdbDropNoRoute, .fdbDropRoute, .fdbTrapTtl, .fdbTrapLocal, .fdbDropParity,
   .fdbDropEgrLen, .fdbNoticePosted, .fdbNoticeSupp, .fdbNoticeLost, .fdbLearnFail, .fdbFlapCount, .fdbAgeDel]

/-- The counters of block SKY. -/
def ctrsOfSKY : List Ctr :=
  [.skyDropCause, .skyKFrames, .skyKStolenIn, .skyKStolenOut, .skyKDropQfull, .skyKWdog, .skyKFaults]

/-- The counters of block HRB. -/
def ctrsOfHRB : List Ctr :=
  [.hrbReleased, .hrbVoid, .hrbHoldTmo, .hrbLate, .hrbDropNoSlot, .hrbDropNoCtx, .hrbDropFlowLim,
   .hrbDropLegOrder]

/-- The counters of block QMG. -/
def ctrsOfQMG : List Ctr :=
  [.qmgQEnq, .qmgQTx, .qmgQDropQlim, .qmgQDropColour, .qmgQDropPort, .qmgQDropPool, .qmgQDropMaxf,
   .qmgQDropLink]

/-- The counters of block SCH. -/
def ctrsOfSCH : List Ctr :=
  [.mtrGreen, .mtrYellow, .mtrRedPass, .mtrRedDrop, .gatePass, .gateDropClosed, .gateDropOctets,
   .schDropSdu, .schDropGate, .schDropMeterRed, .schMarkYellow, .schMarkRed, .schUrgentGrant, .schDropMeterYellow]

/-- The counters of block TIM. -/
def ctrsOfTIM : List Ctr :=
  [.timTxtsDrop, .timTxtsTaken, .timTscEdges, .timTscMerged, .timTscOvf, .timTscLockouts, .timPpsEdges]

/-- The counters of block TGA. -/
def ctrsOfTGA : List Ctr :=
  [.tgaDeferFit, .tgaTxHold, .tgaTxPreempt, .tgaTxFrags, .tgaLateEnd, .tgaRxFrags, .tgaRxAssyOk,
   .tgaRxAssyErr, .tgaRxSmdErr]

/-- The counters of block CAN. -/
def ctrsOfCAN : List Ctr :=
  [.canRxFrames, .canRxDropOvf, .canRxDropRtr, .canTxFrames, .canTxDropFull, .canTxDropOrder, .canTxDropAge,
   .canTxDropBusoff, .canTxDropFmt, .canTxDropState, .canErrBit, .canErrStuff, .canErrCrc, .canErrForm,
   .canErrAck, .canArbLost, .canBusoff, .canMapMiss, .canMapDrop, .canMapDropEcc]

/-- The counters of block LIN. -/
def ctrsOfLIN : List Ctr :=
  [.linRxFrames, .linTxFrames, .linTxReplaced, .linTxDropFull, .linTxDropOrder, .linTxDropState, .linTxDropNopub,
   .linErrNoResp, .linErrChecksum, .linErrBit, .linErrFraming, .linErrSync, .linEtfCollision, .linRxDropOvf]

/-- The counters of block TSS. -/
def ctrsOfTSS : List Ctr :=
  [.tssCol, .tssLateCol, .tssSymbolErr, .tssJabber, .tssPlcaLoss]

/-- The counters of block CIP. -/
def ctrsOfCIP : List Ctr :=
  [.cipInOk, .cipInDelayed, .cipInLate, .cipInNotValid, .cipInInvalid, .cipInNotUsingSa, .cipInUnusedSa,
   .cipInUntagged, .cipInNoTag, .cipInBadTag, .cipInNoSci, .cipInUnknownSci, .cipInBypass, .cipOutProtected,
   .cipOutEncrypted, .cipOutBypass, .cipOutTooLong, .cipTxDropPn, .cipVbPoison, .cipKeyDenied, .cipCtxRestoreFail,
   .cipTrngHealthFail]

/-- The counters of block KEY. -/
def ctrsOfKEY : List Ctr :=
  [.keyUpdOk, .keyUpdFail, .keyLcFail, .keyAttest, .keyDbgFail]

/-- The counters of block GLB. -/
def ctrsOfGLB : List Ctr :=
  [.glbFaults, .glbLsSplits, .glbLsSplitTmo, .glbLsDenied]

/-- The counters of block RED. -/
def ctrsOfRED : List Ctr :=
  [.redTakeovers, .redRebounds, .redEchoTx, .redEchoRx, .redEchoLate, .redStbySupp, .redHandoverDrop,
   .redPlForeign, .redHbGlitch, .redDualActive]

/-- The counters of block MEM. -/
def ctrsOfMEM : List Ctr :=
  [.memCe, .memUe, .memPoisonUse, .memWeak, .memPoisonDrop, .memQResetDrop, .memReloads,
   .memReloadNone, .memTrkFull, .memRepairFull, .memFlipApplied]

/-- The counters of block PWR. -/
def ctrsOfPWR : List Ctr :=
  [.pwrRounds, .pwrCommits, .pwrAbortWake, .pwrVetoes, .pwrForced, .pwrLateWakes, .pwrLpsNoack,
   .pwrLpsRefused, .pwrFrFallback, .pwrWurRx]

/-- The counters of block CFG. -/
def ctrsOfCFG : List Ctr :=
  [.cfgSwaps, .cfgLoadRefused, .cfgCsetReverts, .cfgFailedStarts]

/-- The counters of block NVS. -/
def ctrsOfNVS : List Ctr :=
  [.nvsStores, .nvsStoreFail]

/-- The counters of block UPD. -/
def ctrsOfUPD : List Ctr :=
  [.updChunksOk, .updChunksDup, .updChunksFail, .updSessionsFail]

/-- The counters of block HBR. -/
def ctrsOfHBR : List Ctr :=
  [.hbrPwFail, .hbrPwLogLost, .hbrPwFenced, .hbrNpErr, .hbrDmaErr, .hbrPfDiscard]

/-- The counters of block MGT. -/
def ctrsOfMGT : List Ctr :=
  [.mgtSpiErr, .mqPosted, .mqRefused, .mqLost, .mqMarkLost]

/-- Every kind of counter. -/
def Ctr.all : List Ctr :=
  ctrsOfMAC ++ ctrsOfCLS ++ ctrsOfFDB ++ ctrsOfSKY ++ ctrsOfHRB ++ ctrsOfQMG ++ ctrsOfSCH ++ ctrsOfTIM ++ ctrsOfTGA ++ ctrsOfCAN ++ ctrsOfLIN ++ ctrsOfTSS ++ ctrsOfCIP ++ ctrsOfKEY ++ ctrsOfGLB ++ ctrsOfRED ++ ctrsOfMEM ++ ctrsOfPWR ++ ctrsOfCFG ++ ctrsOfNVS ++ ctrsOfUPD ++ ctrsOfHBR ++ ctrsOfMGT

/-- The instance of a counter whose low word stands at an offset. -/
def Ctr.instIn : List (Nat × Nat × Nat) → Nat → Nat → Option Nat
  | [], _, _ => none
  | (base, stride, n) :: rest, first, off =>
    let j := if n = 1 then 0 else (off - base) / stride
    if base ≤ off ∧ j < n ∧ off = base + stride * j then some (first + j)
    else Ctr.instIn rest (first + n) off

/-- The counter whose low word stands at an offset of the map. -/
def Ctr.ofAddr (off : Nat) : Option (Ctr × Nat) :=
  Ctr.all.findSome? fun c => (Ctr.instIn c.ranges 0 off).map fun i => (c, i)

end Sys2Proof.Machine
end

