-- ==== Sys2Proof/Machine/State.lean ====
section
/-! DEFINITION. The state of the device, its faults and refusals, and the state right after reset. -/

namespace Sys2Proof.Machine

/-- The reasons a step ends in a fault. No rule of the spec gives the block a condition in which it stops: the faults of
R332 are states of the running device. -/
inductive Fault where
  /-- raised by no command: kept so that the type is inhabited; safe -/
  | unused
  deriving DecidableEq, Repr

/-- The reasons a command has no meaning. -/
inductive Refusal where
  /-- the dispatcher, for a command that is not modelled yet; safe -/
  | notModelled (mnemonic : String)
  deriving DecidableEq, Repr

/-- Supplies, resets and clocks as the pins and PLLs show them. -/
structure Phys where
  aonValid   : Bool
  railsValid : Bool
  rstLow     : Bool
  /-- RST_N has risen while rails were not valid -/
  rstPend    : Bool
  rootLock   : Bool
  /-- ports whose PLL reports lock -/
  phyLock    : List Nat
  /-- words last written through the PHY mirror, by offset in the PHY block (R463) -/
  phyRegs    : Tbl Word
  /-- VDDIO_A, VDDIO_B: the level that the bank has detected is 3.3 V (R467) -/
  vddioA     : Bool
  vddioB     : Bool
  /-- mode of the octal-SPI interface, as the flags of the directory: bit 0 8D-8D-8D reads, bit 1 4-byte addressing (R396, R397) -/
  ospi       : Nat
  /-- level driven on OSPI_RESET_N, none while the ball is high impedance (R480) -/
  ospiRst    : Option Bool
  /-- level of TEST_EN (R472) -/
  testEn     : Bool
  deriving DecidableEq, Repr

/-- The state of the device. -/
structure State where
  /-- commands that wait, first in, first out: the model's own -/
  pending : List Instr
  /-- ticks of 1.25 ns that have passed since the model began: the model's own clock for intervals that cross BOOT -/
  now     : Ticks
  /-- draws taken from the free values of Config: the model's own -/
  free    : Nat
  /-- what the device has sent, newest first: the model's own -/
  out     : List Out
  phys    : Phys
  op      : Op
  /-- state left by the last transition, and its entry cause (R26, GLB_OP_STATE) -/
  prevOp  : Op
  cause   : Nat
  /-- RUN or MINIMAL, whichever STANDBY was entered from (R26) -/
  leftOp  : Op
  /-- registers that differ from their reset value, by key -/
  regs    : Tbl Word
  /-- statistics counters that are not zero, by key (R15, R460) -/
  ctrs    : Tbl DWord
  /-- holding registers of R13 and staging registers of R14 and R16, by path and offset -/
  hold    : Tbl Word
  stage   : Tbl Word
  tim     : Tim
  hbr     : Hbr
  mqs     : Tbl Mq
  mem     : Mem
  pwr     : Pwr
  boot    : Boot
  mram    : Mram
  /-- bytes of the NOR flash that are not erased -/
  flash   : Tbl Byte
  /-- data windows and staging buffers of the paths, by path and BAR0 offset -/
  win     : Tbl Byte
  pair    : Pair
  red     : Red
  net     : Net
  /-- MRAM content of the key store (R296, R315) -/
  keys    : KeyStore
  deriving DecidableEq, Repr

/-- The boot control record of a device that has never started: assumption 5. -/
def BootRec.factory : BootRec := ⟨0, 0, .empty, .empty, 0, none, 0, none, false, 0⟩

/-- The MRAM of a device that has never started: assumption 5. -/
def Mram.factory : Mram :=
  ⟨⟨some (1, BootRec.factory), some (0, BootRec.factory)⟩, [], ⟨some (1, Session.reset), some (0, Session.reset)⟩, [], none,
    ⟨some (1, false), some (0, false)⟩, [], []⟩

/-- The machine right after reset: VDD_AON has been applied, all rails are valid, RST_N is high, and the device has
entered BOOT from OFF with entry cause 0x00 (R26). -/
def State.reset : State where
  pending := []
  now := 0
  free := 0
  out := []
  phys := ⟨true, true, false, false, false, [], [], false, true, 0, none, false⟩
  op := .boot
  prevOp := .off
  cause := 0
  leftOp := .run
  regs := []
  ctrs := []
  hold := []
  stage := []
  tim := ⟨0, [], [], [], [], [], [], [], []⟩
  hbr := ⟨[], [], false, false, [], [], false, false⟩
  mqs := []
  mem := Mem.reset
  pwr := Pwr.reset
  boot := Boot.reset
  mram := Mram.factory
  flash := []
  win := []
  pair := Pair.reset
  red := Red.reset
  net := Net.reset
  keys := KeyStore.factory

end Sys2Proof.Machine
end

