-- ==== Sys2Proof/Machine/Ops.lean ====
section
/-! DEFINITION. The shared operations: registers, counters, message queues, events, faults and safe states, and the
entry into BOOT. -/

namespace Sys2Proof.Machine

open Sys2Proof

/-! ## Registers and counters -/

/-- The key of an instance of a register. -/
def regKey (r : Reg) (i : Nat) : Nat := i * 512 + r.ctorIdx

/-- The key of an instance of a counter. -/
def ctrKey (c : Ctr) (i : Nat) : Nat := i * 512 + c.ctorIdx

/-- The reset word of an instance of a register. -/
def Reg.reset (r : Reg) (i : Nat) : Word := BitVec.ofNat 32 (r.resetNat i)

/-- The stored value of an instance of a register. -/
def State.rd (s : State) (r : Reg) (i : Nat := 0) : Word := tblGet s.regs (r.reset i) (regKey r i)

/-- Store the value of an instance of a register. -/
def State.wr (s : State) (r : Reg) (i : Nat) (w : Word) : State :=
  { s with regs := tblSet s.regs (r.reset i) (regKey r i) w }

/-- A field of a register. -/
def State.fld (s : State) (f : RegField) (i : Nat := 0) : Nat := getBits (s.rd f.reg i) f.hi f.lo

/-- A field of a register is not zero. -/
def State.on (s : State) (f : RegField) (i : Nat := 0) : Bool := s.fld f i != 0

/-- Set a field of a register. -/
def State.setFld (s : State) (f : RegField) (i : Nat) (v : Nat) : State :=
  s.wr f.reg i (putBits (s.rd f.reg i) f.hi f.lo v)

/-- The value that a written word gives a field. -/
def RegField.of (f : RegField) (w : Word) : Nat := getBits w f.hi f.lo

/-- The value of a counter. -/
def State.ctr (s : State) (c : Ctr) (i : Nat := 0) : DWord := tblGet s.ctrs 0 (ctrKey c i)

/-- Add to a counter; it wraps at 2^64 (R15). -/
def State.bumpBy (s : State) (c : Ctr) (i : Nat) (n : Nat) : State :=
  { s with ctrs := tblSet s.ctrs 0 (ctrKey c i) (s.ctr c i + BitVec.ofNat 64 n) }

/-- Count one. -/
def State.bump (s : State) (c : Ctr) (i : Nat := 0) : State := s.bumpBy c i 1

/-- Count one when a condition holds. -/
def State.bumpIf (s : State) (b : Bool) (c : Ctr) (i : Nat := 0) : State := if b then s.bump c i else s

/-- The device sends something. -/
def State.emit (s : State) (o : Out) : State := { s with out := o :: s.out }

/-- Draw a free word. -/
def State.drawWord (s : State) : Word × State := (Config.freeWord s.free, { s with free := s.free + 1 })

/-- Draw `n` bytes of the true random number generator. -/
def State.drawTrng (s : State) (n : Nat) : List Byte × State :=
  ((List.range n).map (Config.trng s.free), { s with free := s.free + 1 })

/-- LT in whole nanoseconds: floor(ticks * 1.25) (R196). -/
def State.ltNs (s : State) : Nat := s.tim.lt * 5 / 4

/-! ## Field semantics of a register write (R8 to R10, R487) -/

/-- The registers of a writable value in PTP format. -/
def ptpReg (r : Reg) : Bool := r == .timPpsStart || r == .timDomSet || r == .tgaAdminBase || r == .schGateBase

/-- What a write offers to instance `i` of a register: bits [31:16] of word 2 of a PTP value are reserved (R10, R16). -/
def ptpData (r : Reg) (i : Nat) (data : Word) : Word := if ptpReg r && i % 3 == 2 then data &&& 0xFFFF else data

/-- The effect of a write on the fields of a register: the new word, and whether a value was not allowed. -/
def mergeFields (data : Word) : List FieldInfo → Word × Bool → Word × Bool
  | [], acc => acc
  | f :: fs, (w, e) =>
    let v := getBits data f.hi f.lo
    match f.acc with
    | .rw => if f.chk.ok v then mergeFields data fs (putBits w f.hi f.lo v, e) else mergeFields data fs (w, true)
    | .w1c => mergeFields data fs (w &&& ~~~(data &&& putBits 0 f.hi f.lo (2 ^ (f.hi - f.lo + 1) - 1)), e)
    | _ => mergeFields data fs (w, e)

/-! ## Words of the memories (R357, R371) -/

/-- The key of a word of a memory: memory ID, instance, word address. -/
def memKey (mem inst addr : Nat) : Nat := (mem * 64 + inst) * 16777216 + addr

/-- The memory carries parity per entry, not SECDED (R357). -/
def memParity (mem : Nat) : Bool := 16 ≤ mem

/-- The error recorded at a word. -/
def State.memErr (s : State) (mem inst addr : Nat) : Option (WordErr × Nat) := tblFind s.mem.errs (memKey mem inst addr)

/-- Record or clear the error at a word. -/
def State.setMemErr (s : State) (mem inst addr : Nat) (e : Option (WordErr × Nat)) : State :=
  { s with mem := { s.mem with errs := match e with
    | some x => tblPut s.mem.errs (memKey mem inst addr) x
    | none => tblDel s.mem.errs (memKey mem inst addr) } }

/-- The bits set in a number, up to `n` bits. -/
def popcount (n v : Nat) : Nat := (List.range n).foldl (fun c i => c + v / 2 ^ i % 2) 0

/-- The error that a flip mask leaves in a stored word (R371). Three bits or more lie outside what R357 says of the code: the
model takes them as uncorrectable (assumption 12). -/
def flipError (parity : Bool) (d chk : Nat) : Option (WordErr × Nat) :=
  let n := popcount 64 d + popcount 8 chk
  let y := (Config.syndrome d chk).toNat
  if parity then (if (popcount 64 d + chk % 2) % 2 = 1 then some (.uncorrectable, 0) else none)
  else if d = 0 ∧ chk = 255 then some (.poison, 255)
  else if n = 0 then none
  else if n = 1 then some (.correctable, y)
  else some (if y = 255 then .poison else .uncorrectable, y)

/-- The data mask of the flip mask. -/
def State.flipData (s : State) : Nat := (s.rd .memFlipD 1).toNat * 4294967296 + (s.rd .memFlipD 0).toNat

/-- The flip mask is armed for a memory, and for an address where it names one (R371). -/
def State.flipArmed (s : State) (mem inst : Nat) (at_ : Nat → Bool) : Bool :=
  s.on F.memFlipCtrl_arm && s.fld F.memFlipCtrl_mem_id == mem && s.fld F.memFlipCtrl_instance == inst
    && (!s.on F.memFlipCtrl_addr_en || at_ (s.rd .memFlipAddr).toNat)

/-- An armed flip mask is applied to a word that is stored with its check bits inverted by `enc`: 0, or 255 for the poison encoding
(R359, R371). -/
def State.applyFlip (s : State) (mem inst addr enc : Nat) : State :=
  ((s.setMemErr mem inst addr (flipError (memParity mem) s.flipData (s.fld F.memFlipCtrl_chk_mask ^^^ enc))).setFld
    F.memFlipCtrl_arm 0 0).bump .memFlipApplied

/-- A full write of a word of a memory: it replaces an error, and an armed flip mask that matches is applied (R359, R371). -/
def State.memWrite (s : State) (mem inst addr : Nat) : State :=
  let s := s.setMemErr mem inst addr none
  let s := { s with mem := { s.mem with parity := tblDel s.mem.parity (memKey mem inst addr) } }
  if s.flipArmed mem inst (· == addr) then s.applyFlip mem inst addr 0 else s

/-- A word is written in the poison encoding. The flip mask is applied to it as to any word (R363, R371). -/
def State.poisonWrite (s : State) (mem inst addr : Nat) : State :=
  if s.flipArmed mem inst (· == addr) then s.applyFlip mem inst addr 255 else s.setMemErr mem inst addr (some (.poison, 255))

/-- Full writes of `n` words of a SECDED memory from an address, in ascending order: an armed flip mask is applied to the first that
matches. -/
def State.memFill (s : State) (mem inst lo n : Nat) : State :=
  let k := memKey mem inst lo
  let s := { s with mem := { s.mem with errs := tblKeep (fun key _ => !(decide (k ≤ key) && decide (key < k + n))) s.mem.errs } }
  if n ≠ 0 ∧ s.flipArmed mem inst (fun a => decide (lo ≤ a) && decide (a < lo + n)) then
    s.applyFlip mem inst (if s.on F.memFlipCtrl_addr_en then (s.rd .memFlipAddr).toNat else lo) 0
  else s

/-! ## Side-band balls (R444) -/

/-- Drive or sample a side-band ball: a change of level sets its seen bit. -/
def State.setBall (s : State) (b : Nat) (level : Bool) : State :=
  let w := s.rd .hbrSideband
  if getBit w b = level then s
  else
    let s := s.wr .hbrSideband 0 (putBits w b b level.toNat)
    s.wr .hbrSidebandSeen 0 (putBits (s.rd .hbrSidebandSeen) b b 1)

/-- The level of WAKE_OUT: at pol during a pulse (R390), and low without VDD_AON (R375). -/
def State.wakeOutLevel (s : State) : Bool := s.phys.aonValid && (s.pwr.wakeOut.isSome != getBit (s.rd .pwrWakeoutCfg) 31)

/-- The balls that the power logic drives or samples, INH, WAKE_OUT and WAKE_INn, follow it (R380, R390, R444). -/
def State.pins (s : State) : State :=
  let s := (s.setBall 5 s.pwr.inh).setBall 6 s.wakeOutLevel
  (List.range 4).foldl (fun s n => s.setBall (10 + n) (tblGet s.pwr.winLevel false n)) s

/-- The outputs at rest with RST_N low, without supplies or in SLEEP (R375): INT_N, RDY_BSY and WAKE_PCIE_N are released, REDLINK_A, the
periodic outputs and OSPI_RESET_N are not driven high. -/
def State.restBalls (s : State) : State :=
  let s := (((s.setBall 1 true).setBall 2 true).setBall 4 true).setBall 7 false
  { s with
    phys := { s.phys with ospiRst := none }
    tim := { s.tim with pps := s.tim.pps.map fun (x : Nat × Pps) => (x.1, { x.2 with active := false }) } }

/-- A word of HBR_SIDEBAND with the balls of the power logic at their level. -/
def State.pinWord (s : State) (w : Word) : Word :=
  let w := putBits (putBits w 5 5 s.pwr.inh.toNat) 6 6 s.wakeOutLevel.toNat
  (List.range 4).foldl (fun w n => putBits w (10 + n) (10 + n) (tblGet s.pwr.winLevel false n).toNat) w

/-- Some set status bit has a route whose dest is `d` (R452). -/
def State.anyRouted (s : State) (d : Nat) : Bool :=
  (List.range 16).any fun g =>
    let w := s.rd .evtStat g
    w != 0 && (List.range 32).any fun b => getBit w b && s.fld F.evtRoute_dest (32 * g + b) == d

/-- The levels of INT_N, RDY_BSY and WAKE_PCIE_N follow the status bits and their routes (R438, R443, R452). RDY_BSY is low while a READ is
being served. -/
def State.settle (s : State) : State :=
  let s := s.setBall 1 (!s.anyRouted 2)
  let s := s.setBall 2 (!(s.hbr.reading || s.anyRouted 3 || decide (8 ≤ s.hbr.spiQ.length)))
  s.setBall 4 (!((s.hbr.perstLow || s.hbr.l2) && s.anyRouted 1))

/-! ## Message queues (R445 to R449) -/

/-- The state of message queue `k`. -/
def State.mq (s : State) (k : Nat) : Mq := tblGet s.mqs Mq.reset k

/-- Set the state of message queue `k`. -/
def State.setMq (s : State) (k : Nat) (q : Mq) : State := { s with mqs := tblSet s.mqs Mq.reset k q }

/-- The depth of message queue `k` (R445). -/
def State.mqDepth (s : State) (k : Nat) : Nat := 2 ^ s.fld F.mqCfg_depth_log k

/-- Message queue `k` is in overwrite mode (R445). -/
def State.mqOverwrite (s : State) (k : Nat) : Bool := decide (512 ≤ s.mqDepth k)

/-- Items not yet read (R446). -/
def Mq.count (q : Mq) : Nat := q.items.length - q.held

/-- The queue after the item at F has been overwritten, whether that item was unread, and whether the mark is lost (R447, R448). -/
def Mq.dropOldest (q : Mq) : Mq × Bool × Bool :=
  let lost := q.held == 0
  let markLost := match q.mark with
    | .valid m => m == q.f
    | _ => false
  ({ f := (q.f + 1) % 4294967296, items := q.items.drop 1, held := q.held - 1,
     mark := if markLost then .lost else q.mark }, lost, markLost)

/-- The words of memory 0x0F that hold the item at position `pos` of queue `k`: two words of 64 bits (assumption 18). -/
def State.mqWord (s : State) (k pos : Nat) : Nat := 8192 * k + 2 * (pos % s.mqDepth k)

/-- Write an item behind the last one of a queue. -/
def State.mqAppend (s : State) (k : Nat) (it : MqItem) : State :=
  let q := s.mq k
  let a := s.mqWord k (q.f + q.items.length)
  ((s.memWrite 15 0 a).memWrite 15 0 (a + 1)).setMq k { q with items := q.items ++ [it] }

/-- Post an item (R447): the state, the sources that rise, and whether the item was taken. -/
def State.mqPostCore (s : State) (k : Nat) (it : MqItem) : State × List Nat × Bool :=
  let q := s.mq k
  if !s.on F.mqCfg_en k then (s, [], false)
  else if s.mqDepth k ≤ q.items.length then
    if s.mqOverwrite k then
      let r := q.dropOldest
      let s := (s.bumpIf r.2.1 .mqLost k).bumpIf r.2.2 .mqMarkLost k
      (((s.setMq k r.1).mqAppend k it).bump .mqPosted k,
        (if r.2.1 then [Ev.mqLost] else []) ++ (if r.2.2 then [Ev.mqMarkLost] else [])
          ++ (if q.count = 0 then [Ev.mqNonempty k] else []), true)
    else (s.bump .mqRefused k, [], false)
  else
    ((s.mqAppend k it).bump .mqPosted k,
      if q.count = 0 then [Ev.mqNonempty k] else [], true)

/-! ## Faults, safe states and the pair status (R332 to R339, R346, R347) -/

/-- The bytes of the device's UID. -/
def State.uid (s : State) : List Byte := bytesOf ((List.range 4).map fun k => s.rd .keyUid k)

/-- The readable copy of a record with the higher sequence number (R415). -/
def Copies.read {α : Type} (c : Copies α) : Option α :=
  match c.a, c.b with
  | some (na, a), some (nb, b) => if (nb + 4294967296 - na) % 4294967296 < 2147483648 then some b else some a
  | some (_, a), none => some a
  | none, some (_, b) => some b
  | none, none => none

/-- Store a record in the copy with the older sequence, one above the other (R415). -/
def Copies.store {α : Type} (c : Copies α) (r : α) : Copies α :=
  match c.a, c.b with
  | some (na, a), some (nb, b) =>
    if (nb + 4294967296 - na) % 4294967296 < 2147483648
    then ⟨some ((nb + 1) % 4294967296, r), some (nb, b)⟩
    else ⟨some (na, a), some ((na + 1) % 4294967296, r)⟩
  | some (na, a), none => ⟨some (na, a), some ((na + 1) % 4294967296, r)⟩
  | none, some (nb, b) => ⟨some ((nb + 1) % 4294967296, r), some (nb, b)⟩
  | none, none => ⟨some (1, r), none⟩

/-- The update session record, or none open when both copies are unreadable. -/
def Mram.session (m : Mram) : Session := (m.sess.read).getD Session.reset

/-- Change the session record by a STORE. -/
def State.setSess (s : State) (x : Session) : State := { s with mram := { s.mram with sess := s.mram.sess.store x } }

/-- The content hash of the minimal configuration is valid (R413). -/
def Mram.minOk (m : Mram) : Bool := (m.minHdr.read).getD false

/-- The boot control record, or an empty one when both copies are unreadable. -/
def State.bcr (s : State) : BootRec := (s.mram.boot.read).getD BootRec.factory

/-- The boot count (R408): that of the boot control record; with both copies unreadable, that of the newest record of the history. -/
def State.bootCount (s : State) : Nat := match s.mram.boot.read with
  | some r => r.bootCount
  | none => fieldAt (s.mram.hist.headD []) 0 4

/-- Change the boot control record by a STORE. -/
def State.setBcr (s : State) (r : BootRec) : State :=
  { s with mram := { s.mram with boot := s.mram.boot.store r } }

/-- The SHA-256 of the active CSET, zero when none is active. -/
def State.activeDigest (s : State) : List Byte :=
  match s.bcr.active with
  | some c => c.digest
  | none => List.replicate 32 0

/-- The device is alive (R345): in RUN, no safe state, and a kick within the last kick_ms. -/
def State.alive (s : State) : Bool :=
  s.op == .run && s.pair.safe.isNone &&
    match s.red.kickAt with
    | some t => decide (s.tim.lt < t + tkMs (s.fld F.redHbCfg_kick_ms))
    | none => false

/-- A pair-link frame leaves; in LINK_DOWN no lane transmits (R336). -/
def State.emitPair (s : State) (bs : List Byte) : State := if s.pair.safe = some .linkDown then s else s.emit (.pairLink bs)

/-- Send a STATUS on the pair link (R346). -/
def State.sendStatus (s : State) : State :=
  let flags := s.alive.toNat + 2 * s.pair.safe.isSome.toNat + 4 * (s.pair.mode == .split).toNat
  let payload := s.uid ++ [BitVec.ofNat 8 s.red.role.code, BitVec.ofNat 8 flags] ++ beBytes 4 s.bcr.epoch ++ s.activeDigest
  let hdr : List Byte := List.replicate 6 0xFF ++ List.replicate 6 0 ++ [0x88, 0xB5, 1, 2, 0, 0, 0, 0, 0, 0]
  { s with red := { s.red with sentAt := some s.tim.lt } }.emitPair (hdr ++ payload)

/-- Take a role; a change of role sends STATUS at once (R346). A takeover is pending on a STANDBY only (R349). -/
def State.setRole (s : State) (r : Role) : State :=
  if s.red.role = r then s
  else
    let s := { s with red := { s.red with role := r, confirmAt := if r = Role.standby then s.red.confirmAt else none, reboundReq := false } }
    if s.on F.redCfg_en then s.sendStatus else s

/-- Apply a safe state (R336, R339): severity rises and never falls, no sleep ring runs (R382), and the role becomes FAULTED (R347). -/
def State.enterSafe (s : State) (ss : SafeSt) : State :=
  let st := match s.pair.safe with
    | some o => if o.code < ss.code then ss else o
    | none => ss
  let ring := { s.pwr.ring with st := .idle, await := none, allIn := false, consent := [], lpsWait := [], fresh := none }
  let since := if st ≠ .forward ∧ (s.pair.safe.all fun o => o == .forward) then s.tim.lt else s.pair.safeAt
  let s : State := { s with pair := { s.pair with safe := some st, safeAt := since }, pwr := { s.pwr with ring := ring, latched := none } }
  if s.red.role = .detached then s else s.setRole .faulted

/-- The injection test of this BOOT has not passed, and the cores are in reset (R333, R334). -/
def State.inReset (s : State) : Bool := s.op == .boot && !s.boot.run.bistOk

/-- The control pair executes nothing: its cores are halted by a fault (R335), or in reset. -/
def State.coresOff (s : State) : Bool := s.pair.halted || s.inReset

/-- The safe state configured for a fault code (R338); for a failed test of a BOOT that of the reset value (R334). -/
def State.safeOf (s : State) (code : Nat) : SafeSt :=
  SafeSt.ofCode (if code = 3 ∧ s.inReset then F.glbSafeCfg_ls_ss.of (Reg.glbSafeCfg.reset 0)
    else if code = 4 then s.fld F.glbSafeCfg_clk_ss
    else if code = 5 then s.fld F.glbSafeCfg_evt_ss
    else s.fld F.glbSafeCfg_ls_ss)

/-- The recorded fault was detected in this tick. -/
def State.faultNow (s : State) : Bool :=
  s.fld F.glbFaultRec_code != 0 && s.rd .glbFaultTime 0 == BitVec.ofNat 32 s.ltNs
    && s.rd .glbFaultTime 1 == BitVec.ofNat 32 (s.ltNs / 4294967296)

/-- A fault of R332, without the event FAULT_REC (R335): the cores halt except on code 5, FAULT_N goes low, the first fault is recorded,
every fault is counted, and the safe state of its class applies. Of faults detected in one cycle the lowest code is recorded, with the
most severe of their safe states (R339). -/
def State.faultCore (s : State) (code sub : Nat) : State :=
  let ss := s.safeOf code
  let now := s.faultNow
  let old := s.fld F.glbFaultRec_ss
  let s := if code = 5 then s else { s with pair := { s.pair with halted := true } }
  let s := (s.setBall 0 false).bump .glbFaults
  let s := if s.fld F.glbFaultRec_code = 0 then
      let s := s.wr .glbFaultRec 0 (putBits (putBits (putBits 0 31 28 code) 27 24 sub) 23 22 ss.code)
      let s := s.wr .glbFaultTime 0 (BitVec.ofNat 32 s.ltNs)
      s.wr .glbFaultTime 1 (BitVec.ofNat 32 (s.ltNs / 4294967296))
    else if now then
      let s := if code < s.fld F.glbFaultRec_code then (s.setFld F.glbFaultRec_code 0 code).setFld F.glbFaultRec_sub 0 sub else s
      s.setFld F.glbFaultRec_ss 0 (max old ss.code)
    else s
  s.enterSafe ss

/-! ## Events (R450 to R455) -/

/-- Vector `v` of the MSI-X table. -/
def State.vec (s : State) (v : Nat) : MsixVec := tblGet s.hbr.msix MsixVec.reset v

/-- Set vector `v` of the MSI-X table. -/
def State.setVec (s : State) (v : Nat) (m : MsixVec) : State :=
  { s with hbr := { s.hbr with msix := tblSet s.hbr.msix MsixVec.reset v m } }

/-- The vector is within the hold-off of its last message (R453). -/
def State.vecHeld (s : State) (v : Nat) : Bool :=
  match (s.vec v).last with
  | some t => decide (s.tim.lt < t + tkUs (s.fld F.evtVecCfg_holdoff_us v))
  | none => false

/-- Send the message of a vector. -/
def State.vecSend (s : State) (v : Nat) : State :=
  (s.setVec v { s.vec v with pending := false, last := some s.tim.lt }).emit (.msix v)

/-- A request for a message (R453): sent, or pending while the vector is masked or held off. -/
def State.vecRequest (s : State) (v : Nat) : State :=
  if (s.vec v).masked || s.vecHeld v then s.setVec v { s.vec v with pending := true } else s.vecSend v

/-- A log entry of R455. -/
def State.logItem (s : State) (src : Nat) : MqItem :=
  ⟨[BitVec.ofNat 32 src, 0, BitVec.ofNat 32 s.ltNs, BitVec.ofNat 32 (s.ltNs / 4294967296)]⟩

/-- Log entry `x` comes after entry `y` of the same tick: its source number is higher (R455). -/
def MqItem.logAfter (x y : MqItem) : Bool :=
  x.words.drop 2 == y.words.drop 2 && decide ((y.words.headD 0).toNat < (x.words.headD 0).toNat)

/-- Put a new log entry at its place among the last ones, newest first. -/
def logInsert (x : MqItem) : List MqItem → List MqItem
  | [] => [x]
  | y :: ys => if y.logAfter x then y :: logInsert x ys else x :: y :: ys

/-- The last item that was posted to the log queue takes its place among the entries of its tick: ascending source numbers (R455). Items
already read keep theirs. -/
def State.logOrder (s : State) (k : Nat) : State :=
  let q := s.mq k
  match (q.items.drop q.held).reverse with
  | x :: y :: ys =>
    if y.logAfter x then s.setMq k { q with items := q.items.take q.held ++ (logInsert x (y :: ys)).reverse } else s
  | _ => s

/-- The log entry of a rise (R455), with the sources that it makes rise. -/
def State.riseLog (s : State) (src : Nat) : State × List Nat :=
  if s.on F.evtRoute_log src && s.on F.evtLogCfg_en then
    let r := s.mqPostCore (s.fld F.evtLogCfg_mq) (s.logItem src)
    (r.1.logOrder (s.fld F.evtLogCfg_mq), r.2.1)
  else (s, [])

/-- A rise notifies device firmware, and requests a message of its vector (R451, R452). -/
def State.riseNotify (s : State) (src : Nat) : State :=
  let s := if s.on F.evtRoute_fw src then s.emit (.fwNotify src) else s
  if s.fld F.evtRoute_dest src = 1 then s.vecRequest (s.fld F.evtRoute_vector src) else s

/-- One source rises: its status bit, and what its route decides (R451, R452); with the sources that this makes rise:
FAULT_REC where the fault is recorded (R450). -/
def State.rise (s : State) (src : Nat) : State × List Nat :=
  let x := (s.wr .evtStat (src / 32) (putBits (s.rd .evtStat (src / 32)) (src % 32) (src % 32) 1)).riseLog src
  let s := x.1.riseNotify src
  if s.fld F.evtRoute_dest src = 4 then
    (s.faultCore 5 0, x.2 ++ if s.fld F.glbFaultRec_code = 0 then [Ev.faultRec] else [])
  else (s, x.2)

/-- Sources rise, in order (R451 to R455). Rises that a rise itself causes (by its log entry, or by FAULT_REC) follow it;
`fuel` bounds that chain (assumption 8). -/
def State.raiseFuel : Nat → State → List Nat → State
  | 0, s, _ => s
  | _, s, [] => s
  | n + 1, s, src :: rest =>
    if !Ev.listed src then State.raiseFuel n s rest
    else State.raiseFuel n (s.rise src).1 ((s.rise src).2 ++ rest)

/-- Sources rise in one tick, in ascending source number when given so (R455). -/
def State.raiseAll (s : State) (srcs : List Nat) : State := (State.raiseFuel (srcs.length + 12) s srcs).settle

/-- A source rises (R451). -/
def State.raise (s : State) (src : Nat) : State := s.raiseAll [src]

/-- A source rises when a condition holds. -/
def State.raiseIf (s : State) (b : Bool) (src : Nat) : State := if b then s.raise src else s

/-- The ACCESS_ERR event of a block rises (R487). -/
def State.accessErr (s : State) (b : Blk) : State := s.raise (Ev.accessErr b)

/-- A fault of R332. The event FAULT_REC rises when the fault is recorded. -/
def State.fault (s : State) (code sub : Nat) : State :=
  let first := s.fld F.glbFaultRec_code == 0
  (s.faultCore code sub).raiseIf first Ev.faultRec

/-- Post an item to a message queue (R447): the state, and whether the queue took it. -/
def State.mqPost (s : State) (k : Nat) (it : MqItem) : State × Bool :=
  let r := s.mqPostCore k it
  (r.1.raiseAll r.2.1, r.2.2)

/-- Write a register by the access types of its fields (R8 to R10, R487). -/
def State.writeReg (s : State) (r : Reg) (i : Nat) (data : Word) : State :=
  let m := mergeFields data r.info.fields (s.rd r i, false)
  let s := s.wr r i m.1
  if m.2 then s.accessErr r.info.blk else s

/-- The seconds of the always-on counter between two ticks. -/
def secsBetween (a b : Nat) : Nat := (b - a) / 800000000

end Sys2Proof.Machine
end

