-- ==== Sys2Proof/Machine/Access.lean ====
section
/-! DEFINITION. The access paths (R424, R425), posted writes that fail (R432, R433), and the holding and staging registers
of 64-bit and PTP values (R13, R14, R16, R17). -/

namespace Sys2Proof.Machine

open Sys2Proof

/-- The items of a path. -/
def State.pathSt (s : State) (p : Path) : PathSt := tblGet s.hbr.paths PathSt.reset p.code

/-- Set the items of a path. -/
def State.setPath (s : State) (p : Path) (x : PathSt) : State :=
  { s with hbr := { s.hbr with paths := tblSet s.hbr.paths PathSt.reset p.code x } }

/-- A posted-write request is issued on a path: its sequence number advances (R434). -/
def State.nextSeq (s : State) (p : Path) : State :=
  s.setPath p { s.pathSt p with seq := ((s.pathSt p).seq + 1) % 4294967296 }

/-- The causes of R432. -/
inductive PwCause where
  | unmapped | width | state | poison | farStatus | crc | framing | overrun | align
  deriving DecidableEq, Repr

/-- The code of a cause (R432). -/
def PwCause.code : PwCause → Nat
  | .unmapped => 1 | .width => 2 | .state => 3 | .poison => 4 | .farStatus => 5
  | .crc => 7 | .framing => 8 | .overrun => 9 | .align => 10

/-- The failing dword of a posted write (R433). -/
structure PwRec where
  path  : Path
  cause : PwCause
  off   : Nat
  data  : Word
  be    : Nat
  reqId : Nat
  tag   : Nat
  far   : Nat
  deriving DecidableEq, Repr

/-- The lowest free entry of the posted-write log. -/
def State.pwFree (s : State) : Option Nat :=
  (List.range 8).find? fun k => !s.on F.hbrPwLog0_valid k

/-- The auxiliary SPI window at an offset (R427). -/
def aspiWin (off : Nat) : Option Nat := if 0x800000 ≤ off ∧ off < 0xC00000 then some ((off - 0x800000) / 0x100000) else none

/-- Fence bit `w` of a path. -/
def State.fenced (s : State) (p : Path) (w : Nat) : Bool := (s.pathSt p).fence / 2 ^ w % 2 == 1

/-- The window at an offset is fenced for a path (R435). -/
def State.fencedAt (s : State) (p : Path) (off : Nat) : Bool := (aspiWin off).any (s.fenced p)

/-- A write at an offset has failed: with stop_on_err of its window, the fence of the path is set (R435). -/
def State.fence (s : State) (p : Path) (off : Nat) : State := match aspiWin off with
  | none => s
  | some w =>
    if s.on F.hbrAspiCfg0_stop_on_err w then
      let x := s.pathSt p
      (s.setPath p { x with fence := x.fence ||| 2 ^ w }).raise Ev.pwFence
    else s

/-- A posted write fails (R433, R435): counted, logged in the lowest free entry or counted as lost, and PW_FAIL rises;
a write to a window may set its fence. -/
def State.pwFail (s : State) (r : PwRec) : State :=
  let seq := (s.pathSt r.path).seq
  let reqId := match r.path with
    | .pcie => r.reqId
    | .spi => 0xFFFE
    | .fw => 0xFFFF
  let tag := match r.path with
    | .pcie => r.tag
    | _ => seq % 256
  let s := s.bump .hbrPwFail
  let s := match s.pwFree with
    | none => s.bump .hbrPwLogLost
    | some k =>
      let s := s.wr .hbrPwLog0 k
        (putBits (putBits (putBits (putBits 0 31 31 1) 30 28 r.path.code) 27 24 r.cause.code) 23 0 r.off)
      let s := s.wr .hbrPwLog1 k r.data
      let s := s.wr .hbrPwLog2 k (putBits (putBits (putBits 0 31 16 reqId) 15 8 tag) 3 0 r.be)
      let s := s.wr .hbrPwLog3 k (BitVec.ofNat 32 seq)
      let s := s.wr .hbrPwLog4 k (BitVec.ofNat 32 s.ltNs)
      let s := s.wr .hbrPwLog5 k (BitVec.ofNat 32 (s.ltNs / 4294967296))
      s.wr .hbrPwLog6 k (BitVec.ofNat 32 (if r.cause = PwCause.farStatus then r.far else 0))
  (s.raise Ev.pwFail).fence r.path r.off

/-- A dword access on a path that fails. -/
def State.pwFailDword (s : State) (p : Path) (c : PwCause) (off : Nat) (data : Word) : State :=
  s.pwFail ⟨p, c, off, data, 15, 0, 0, 0⟩

/-- The register map is up: not in OFF, SLEEP or STANDBY, and not held in reset. -/
def State.mapUp (s : State) : Bool :=
  !s.phys.rstLow && (s.op == .boot || s.op == .run || s.op == .minimal)

/-- The fabric clock runs (R202): in BOOT, RUN and MINIMAL. -/
def State.fabricOn (s : State) : Bool := s.mapUp

/-- The path reaches an offset in the present state (R425). -/
def State.reaches (s : State) (p : Path) (off : Nat) : Bool :=
  match s.op with
  | .run => true
  | .minimal => true
  | .boot => p == .fw || off < 0x10000 || (0x20000 ≤ off && off < 0x30000) || (0x40000 ≤ off && off < 0x50000)
  | _ => false

/-- The posted writes that wait on a path (R424, R437). -/
def State.postQ (s : State) : Path → List Posted
  | .pcie => s.hbr.pcieQ
  | .spi => s.hbr.spiQ
  | .fw => []

/-- Set the posted writes that wait on a path. -/
def State.setPostQ (s : State) (p : Path) (l : List Posted) : State := match p with
  | .pcie => { s with hbr := { s.hbr with pcieQ := l } }
  | .spi => { s with hbr := { s.hbr with spiQ := l } }
  | .fw => s

/-- The posted-write queue of a path is full: 32 requests on PCIe, 8 frames on the management SPI port (R424, R437). -/
def State.postFull (s : State) : Path → Bool
  | .pcie => decide (32 ≤ s.hbr.pcieQ.length)
  | .spi => decide (8 ≤ s.hbr.spiQ.length)
  | .fw => false

/-- A posted write enters its path's queue. -/
def State.post (s : State) (p : Path) (r : Posted) : State := s.setPostQ p (s.postQ p ++ [r])

/-- A register write waits behind the posted writes of its path (R424). A full queue of PCIe withholds its credits, and a frame that finds the
write buffer of the management SPI port full fails (R432). -/
def State.postWrite (s : State) (p : Path) (off : Nat) (data : Word) (be : Nat) (far : List Byte) : State :=
  if s.postFull p then
    if p = .pcie then s
    else if s.fencedAt p off then (s.nextSeq p).bump .hbrPwFenced
    else (s.nextSeq p).pwFailDword p .overrun off data
  else
    let s := s.nextSeq p
    { s.post p ⟨false, off, [(data, be)], false, 0, 0, (s.pathSt p).seq, far ++ [Config.freeByte s.free 0]⟩ with free := s.free + 1 }

/-- A register write on a path, as a request of one dword (R434), reaches the register bus: its effect, or its failure with cause
STATE (R425). It waits behind the posted writes of its path (R424). Cores that are halted or in reset issue nothing (R333, R335). -/
def State.access (s : State) (p : Path) (off : Nat) (data : Word) (f : State → State) (be : Nat := 15) (far : List Byte := []) : State :=
  if !s.mapUp || (p == .fw && s.coresOff) then s
  else if !(s.postQ p).isEmpty then s.postWrite p off data be far
  else
    let s := s.nextSeq p
    if s.reaches p off then f s
    else if s.fencedAt p off then s.bump .hbrPwFenced
    else s.pwFailDword p .state off data

/-- An access to instance `i` of a register. -/
def State.accessReg (s : State) (p : Path) (r : Reg) (i : Nat) (data : Word) (f : State → State) : State :=
  s.access p (r.addr i) data f

/-- The key of a holding or staging register. -/
def pairKey (p : Path) (off : Nat) : Nat := p.code * 16777216 + off

/-- Load the staging register of a path for the word at an offset (R14, R16). -/
def State.stageWord (s : State) (p : Path) (off : Nat) (w : Word) : State :=
  { s with stage := tblPut s.stage (pairKey p off) w }

/-- Take a staged word: it, or the live word when nothing is staged; the staging register is emptied. -/
def State.unstage (s : State) (p : Path) (off : Nat) (live : Word) : Word × State :=
  ((tblFind s.stage (pairKey p off)).getD live, { s with stage := tblDel s.stage (pairKey p off) })

/-- Commit a PTP value by a write of its word 0 at `off`: nanoseconds, seconds [31:0] and seconds [47:32], or nothing when
the nanoseconds are out of range (R16, R17). -/
def State.ptpTake (s : State) (p : Path) (r : Reg) (i : Nat) (ns : Word) : Option (Word × Word × Word) × State :=
  let off := r.addr i
  let (w1, s) := s.unstage p (off + 4) (s.rd r (i + 1))
  let (w2, s) := s.unstage p (off + 8) (s.rd r (i + 2))
  if ns.toNat < 1000000000 then (some (ns, w1, BitVec.ofNat 32 (w2.toNat % 65536)), s)
  else (none, s.accessErr r.info.blk)

/-- Write the three words of a PTP value whose word 0 is instance `i`. -/
def State.ptpWrite (s : State) (r : Reg) (i : Nat) (v : Word × Word × Word) : State :=
  ((s.wr r i v.1).wr r (i + 1) v.2.1).wr r (i + 2) v.2.2

/-- The nanoseconds of a PTP value. -/
def ptpNs (v : Word × Word × Word) : Nat :=
  (v.2.2.toNat % 65536 * 4294967296 + v.2.1.toNat) * 1000000000 + v.1.toNat

/-- The PTP value of a number of nanoseconds. -/
def ptpOf (ns : Nat) : Word × Word × Word :=
  let sec := ns / 1000000000
  (BitVec.ofNat 32 (ns % 1000000000), BitVec.ofNat 32 sec, BitVec.ofNat 32 (sec / 4294967296 % 65536))

/-- The PTP value held in three words of a register. -/
def State.ptpRead (s : State) (r : Reg) (i : Nat) : Word × Word × Word := (s.rd r i, s.rd r (i + 1), s.rd r (i + 2))

end Sys2Proof.Machine
end

