-- ==== Sys2Proof/Machine/Crypto.lean ====
section
/-! DEFINITION. The cryptographic algorithms that the spec names: SHA-256 and SHA-384 (FIPS 180-4), AES (FIPS 197), CMAC
(SP 800-38B), GCM (SP 800-38D), AES key wrap (RFC 3394), the KDF in counter mode over CMAC (SP 800-108) and ECDSA over
P-256 (FIPS 186). Their inner workings are those standards' (assumption 13). -/

namespace Sys2Proof.Machine

open Sys2Proof

/-! ## SHA-2 -/

/-- The fraction bits of the cube roots of the first 80 primes, 64 of each and five primes a row: the round constants of
SHA-384 (FIPS 180-4), of whose first 64 SHA-256 takes the upper halves. -/
def cubeRoots : List Nat :=
  [0x428a2f98d728ae227137449123ef65cdb5c0fbcfec4d3b2fe9b5dba58189dbbc3956c25bf348b538,
   0x59f111f1b605d019923f82a4af194f9bab1c5ed5da6d8118d807aa98a303024212835b0145706fbe,
   0x243185be4ee4b28c550c7dc3d5ffb4e272be5d74f27b896f80deb1fe3b1696b19bdc06a725c71235,
   0xc19bf174cf692694e49b69c19ef14ad2efbe4786384f25e30fc19dc68b8cd5b5240ca1cc77ac9c65,
   0x2de92c6f592b02754a7484aa6ea6e4835cb0a9dcbd41fbd476f988da831153b5983e5152ee66dfab,
   0xa831c66d2db43210b00327c898fb213fbf597fc7beef0ee4c6e00bf33da88fc2d5a79147930aa725,
   0x06ca6351e003826f142929670a0e6e7027b70a8546d22ffc2e1b21385c26c9264d2c6dfc5ac42aed,
   0x53380d139d95b3df650a73548baf63de766a0abb3c77b2a881c2c92e47edaee692722c851482353b] ++
  [0xa2bfe8a14cf10364a81a664bbc423001c24b8b70d0f89791c76c51a30654be30d192e819d6ef5218,
   0xd69906245565a910f40e35855771202a106aa07032bbd1b819a4c116b8d2d0c81e376c085141ab53,
   0x2748774cdf8eeb9934b0bcb5e19b48a8391c0cb3c5c95a634ed8aa4ae3418acb5b9cca4f7763e373,
   0x682e6ff3d6b2b8a3748f82ee5defb2fc78a5636f43172f6084c87814a1f0ab728cc702081a6439ec,
   0x90befffa23631e28a4506cebde82bde9bef9a3f7b2c67915c67178f2e372532bca273eceea26619c,
   0xd186b8c721c0c207eada7dd6cde0eb1ef57d4f7fee6ed17806f067aa72176fba0a637dc5a2c898a6,
   0x113f9804bef90dae1b710b35131c471b28db77f523047d8432caab7b40c724933c9ebe0a15c9bebc,
   0x431d67c49c100d4c4cc5d4becb3e42b6597f299cfc657e2a5fcb6fab3ad6faec6c44198c4a475817]

/-- The `n` words of `w` bits in the number `x`, its most significant word first. -/
def splitWords (w n x : Nat) : List Nat := (List.range n).map fun i => x / 2 ^ (w * (n - 1 - i)) % 2 ^ w

/-- The first `n` round constants at `w` bits each. -/
def roundConsts (w n : Nat) : List Nat := ((cubeRoots.flatMap (splitWords 64 5)).take n).map (· / 2 ^ (64 - w))

/-- The initial value of SHA-256: 32 fraction bits of the square roots of the first eight primes. -/
def sha256Init : List Nat := splitWords 32 8 0x6a09e667bb67ae853c6ef372a54ff53a510e527f9b05688c1f83d9ab5be0cd19

/-- The initial value of SHA-384: 64 fraction bits of the square roots of the ninth to the sixteenth prime. -/
def sha384Init : List Nat :=
  splitWords 64 8 0xcbbb9d5dc1059ed8629a292a367cd5079159015a3070dd17152fecd8f70e593967332667ffc00b318eb44a8768581511db0c2e0d64f98fa747b5481dbefa4fa4

/-- The parameters of a SHA-2 function: word width in bytes, rounds constants, rotation counts. -/
structure Sha2 where
  bytes : Nat
  k     : List Nat
  s0    : Nat × Nat × Nat
  s1    : Nat × Nat × Nat
  e0    : Nat × Nat × Nat
  e1    : Nat × Nat × Nat

/-- SHA-256. -/
def sha2p256 : Sha2 := ⟨4, roundConsts 32 64, (7, 18, 3), (17, 19, 10), (2, 13, 22), (6, 11, 25)⟩

/-- SHA-384 and SHA-512. -/
def sha2p512 : Sha2 := ⟨8, roundConsts 64 80, (1, 8, 7), (19, 61, 6), (28, 34, 39), (14, 18, 41)⟩

/-- Rotate right a word of `w` bits. -/
def rotR (w x n : Nat) : Nat := x / 2 ^ n + x % 2 ^ n * 2 ^ (w - n)

/-- The message schedule, newest word first. -/
def Sha2.sched (p : Sha2) : Nat → List Nat → List Nat
  | 0, l => l
  | n + 1, l =>
    let w := 8 * p.bytes
    let x := l.getD 14 0
    let y := l.getD 1 0
    let a := rotR w x p.s0.1 ^^^ rotR w x p.s0.2.1 ^^^ x / 2 ^ p.s0.2.2
    let b := rotR w y p.s1.1 ^^^ rotR w y p.s1.2.1 ^^^ y / 2 ^ p.s1.2.2
    p.sched n ((l.getD 15 0 + a + l.getD 6 0 + b) % 2 ^ w :: l)

/-- One round. -/
def Sha2.round (p : Sha2) (v : List Nat) (kw : Nat × Nat) : List Nat :=
  match v with
  | [a, b, c, d, e, f, g, h] =>
    let w := 8 * p.bytes
    let s1 := rotR w e p.e1.1 ^^^ rotR w e p.e1.2.1 ^^^ rotR w e p.e1.2.2
    let ch := (e &&& f) ^^^ ((2 ^ w - 1 - e) &&& g)
    let t1 := h + s1 + ch + kw.1 + kw.2
    let s0 := rotR w a p.e0.1 ^^^ rotR w a p.e0.2.1 ^^^ rotR w a p.e0.2.2
    let mj := (a &&& b) ^^^ (a &&& c) ^^^ (b &&& c)
    [(t1 + s0 + mj) % 2 ^ w, a, b, c, (d + t1) % 2 ^ w, e, f, g]
  | _ => v

/-- The words of a block. -/
def blockWords : Nat → Nat → List Byte → List Nat
  | 0, _, _ => []
  | n + 1, k, bs => beNat (bs.take k) :: blockWords n k (bs.drop k)

/-- The compression of one block. -/
def Sha2.block (p : Sha2) (h : List Nat) (bs : List Byte) : List Nat :=
  let ws := (p.sched (p.k.length - 16) (blockWords 16 p.bytes bs).reverse).reverse
  let v := (p.k.zip ws).foldl p.round h
  List.zipWith (fun a b => (a + b) % 2 ^ (8 * p.bytes)) h v

/-- All blocks of a padded message. -/
def Sha2.blocks (p : Sha2) : Nat → List Nat → List Byte → List Nat
  | 0, h, _ => h
  | n + 1, h, bs => p.blocks n (p.block h (bs.take (16 * p.bytes))) (bs.drop (16 * p.bytes))

/-- The padded message. -/
def Sha2.pad (p : Sha2) (m : List Byte) : List Byte :=
  let blk := 16 * p.bytes
  let tail := 2 * p.bytes
  let z := (2 * blk - (m.length + 1 + tail) % blk) % blk
  m ++ 0x80 :: List.replicate z 0 ++ beBytes tail (8 * m.length)

/-- SHA-256 of a message. -/
def sha256 (m : List Byte) : List Byte :=
  let x := sha2p256.pad m
  (sha2p256.blocks (x.length / 64) sha256Init x).flatMap (beBytes 4)

/-- SHA-384 of a message. -/
def sha384 (m : List Byte) : List Byte :=
  let x := sha2p512.pad m
  ((sha2p512.blocks (x.length / 128) sha384Init x).take 6).flatMap (beBytes 8)

/-! ## AES -/

/-- The substitution table of AES, by rows. -/
def aesSbox : List Nat :=
  [0x637c777bf26b6fc53001672bfed7ab76, 0xca82c97dfa5947f0add4a2af9ca472c0,
   0xb7fd9326363ff7cc34a5e5f171d83115, 0x04c723c31896059a071280e2eb27b275,
   0x09832c1a1b6e5aa0523bd6b329e32f84, 0x53d100ed20fcb15b6acbbe394a4c58cf,
   0xd0efaafb434d338545f9027f503c9fa8, 0x51a3408f929d38f5bcb6da2110fff3d2,
   0xcd0c13ec5f974417c4a77e3d645d1973, 0x60814fdc222a908846eeb814de5e0bdb,
   0xe0323a0a4906245cc2d3ac629195e479, 0xe7c8376d8dd54ea96c56f4ea657aae08,
   0xba78252e1ca6b4c6e8dd741f4bbd8b8a, 0x703eb5664803f60e613557b986c11d9e,
   0xe1f8981169d98e949b1e87e9ce5528df, 0x8ca1890dbfe6426841992d0fb054bb16]

/-- The inverse of that table. -/
def aesInvSbox : List Nat :=
  [0x52096ad53036a538bf40a39e81f3d7fb, 0x7ce339829b2fff87348e4344c4dee9cb,
   0x547b9432a6c2233dee4c950b42fac34e, 0x082ea16628d924b2765ba2496d8bd125,
   0x72f8f66486689816d4a45ccc5d65b692, 0x6c704850fdedb9da5e154657a78d9d84,
   0x90d8ab008cbcd30af7e45805b8b34506, 0xd02c1e8fca3f0f02c1afbd0301138a6b,
   0x3a9111414f67dcea97f2cfcef0b4e673, 0x96ac7422e7ad3585e2f937e81c75df6e,
   0x47f11a711d29c5896fb7620eaa18be1b, 0xfc563e4bc6d279209adbc0fe78cd5af4,
   0x1fdda8338807c731b11210592780ec5f, 0x60517fa919b54a0d2de57a9f93c99cef,
   0xa0e03b4dae2af5b0c8ebbb3c83539961, 0x172b047eba77d626e169146355210c7d]

/-- A byte of a table of 16 rows, each written as a number whose first byte is most significant. -/
def rowByte (rows : List Nat) (b : Byte) : Byte :=
  BitVec.ofNat 8 (rows.getD (b.toNat / 16) 0 / 2 ^ (8 * (15 - b.toNat % 16)))

/-- The exclusive or of two byte strings of one length. -/
def xorBytes (a b : List Byte) : List Byte := List.zipWith (fun x y => x ^^^ y) a b

/-- A substituted byte. -/
def aesSub (b : Byte) : Byte := rowByte aesSbox b

/-- The byte that substitutes to `b`. -/
def aesInvSub (b : Byte) : Byte := rowByte aesInvSbox b

/-- A byte doubled in the field of AES. -/
def aesDouble (b : Byte) : Byte := if b.msb then (b <<< 1) ^^^ 0x1B else b <<< 1

/-- The product of a byte and a small constant in the field of AES. -/
def aesMul (b : Byte) (c : Nat) : Byte :=
  let b2 := aesDouble b
  let b4 := aesDouble b2
  let b8 := aesDouble b4
  (if c % 2 = 1 then b else 0) ^^^ (if c / 2 % 2 = 1 then b2 else 0) ^^^ (if c / 4 % 2 = 1 then b4 else 0)
    ^^^ (if c / 8 % 2 = 1 then b8 else 0)

/-- The words of the key schedule, newest first, from `nk` key words: `n` more words, the next of index `i`. -/
def aesExpand (nk : Nat) : Nat → Nat → Byte → List (List Byte) → List (List Byte)
  | 0, _, _, l => l
  | n + 1, i, rcon, l =>
    let t := l.getD 0 []
    let (t, rcon) :=
      if i % nk = 0 then
        let r := (t.drop 1 ++ t.take 1).map aesSub
        (xorBytes r [rcon, 0, 0, 0], aesDouble rcon)
      else if 6 < nk ∧ i % nk = 4 then (t.map aesSub, rcon)
      else (t, rcon)
    aesExpand nk n (i + 1) rcon (xorBytes (l.getD (nk - 1) []) t :: l)

/-- Cut a byte string into pieces of `k` bytes. -/
def pieces (k : Nat) : Nat → List Byte → List (List Byte)
  | 0, _ => []
  | n + 1, bs => bs.take k :: pieces k n (bs.drop k)

/-- The round keys of a key of 16 or 32 bytes. -/
def aesKeys (key : List Byte) : List (List Byte) :=
  let nk := key.length / 4
  let ws := (aesExpand nk (4 * (nk + 7) - nk) nk 1 (pieces 4 nk key).reverse).reverse
  pieces 16 (nk + 7) ws.flatten

/-- The rows of the state shifted: byte `i` comes from byte `5 * i` or `13 * i`, modulo 16. -/
def aesShift (k : Nat) (s : List Byte) : List Byte := (List.range 16).map fun i => byteAt s (k * i % 16)

/-- The columns of the state mixed with a circulant matrix. -/
def aesMix (c : List Nat) (s : List Byte) : List Byte :=
  (List.range 16).map fun i =>
    let b := i / 4 * 4
    (List.range 4).foldl (fun a j => a ^^^ aesMul (byteAt s (b + (i + j) % 4)) (c.getD j 0)) 0

/-- One block encrypted under round keys. -/
def aesRounds : List (List Byte) → List Byte → List Byte
  | [], s => s
  | [k], s => xorBytes (aesShift 5 (s.map aesSub)) k
  | k :: ks, s => aesRounds ks (xorBytes (aesMix [2, 3, 1, 1] (aesShift 5 (s.map aesSub))) k)

/-- AES encryption of one block of 16 bytes. -/
def aesEnc (key blk : List Byte) : List Byte :=
  match aesKeys key with
  | k :: ks => aesRounds ks (xorBytes blk k)
  | [] => blk

/-- One block decrypted: the round keys come last first. -/
def aesInvRounds : List (List Byte) → List Byte → List Byte
  | [], s => s
  | [k], s => xorBytes ((aesShift 13 s).map aesInvSub) k
  | k :: ks, s => aesInvRounds ks (aesMix [14, 11, 13, 9] (xorBytes ((aesShift 13 s).map aesInvSub) k))

/-- AES decryption of one block of 16 bytes. -/
def aesDec (key blk : List Byte) : List Byte :=
  match (aesKeys key).reverse with
  | k :: ks => aesInvRounds ks (xorBytes blk k)
  | [] => blk

/-! ## CMAC, key derivation and key wrap -/

/-- A block doubled in the field of CMAC. -/
def cmacDouble (b : List Byte) : List Byte :=
  let n := beNat b
  beBytes 16 ((2 * n % 2 ^ 128) ^^^ (if n / 2 ^ 127 % 2 = 1 then 0x87 else 0))

/-- AES-CMAC of a message. -/
def cmac (key m : List Byte) : List Byte :=
  let k1 := cmacDouble (aesEnc key (List.replicate 16 0))
  let k2 := cmacDouble k1
  let n := max 1 ((m.length + 15) / 16)
  let last := m.drop (16 * (n - 1))
  let last := if last.length = 16 then xorBytes last k1
    else xorBytes (last ++ 0x80 :: List.replicate (15 - last.length) 0) k2
  let x := (pieces 16 (n - 1) m).foldl (fun x b => aesEnc key (xorBytes x b)) (List.replicate 16 0)
  aesEnc key (xorBytes x last)

/-- One step of AES key wrap: register A, and the blocks, rotated. -/
def kwStep (key : List Byte) (st : List Byte × List (List Byte)) (t : Nat) : List Byte × List (List Byte) :=
  match st.2 with
  | r :: rs =>
    let b := aesEnc key (st.1 ++ r)
    (xorBytes (b.take 8) (beBytes 8 t), rs ++ [b.drop 8])
  | [] => st

/-- AES key wrap of RFC 3394. -/
def keyWrap (key plain : List Byte) : List Byte :=
  let n := plain.length / 8
  let st := (List.range (6 * n)).foldl (fun st i => kwStep key st (i + 1)) (List.replicate 8 0xA6, pieces 8 n plain)
  st.1 ++ st.2.flatten

/-- One step of AES key unwrap. -/
def kuStep (key : List Byte) (st : List Byte × List (List Byte)) (t : Nat) : List Byte × List (List Byte) :=
  match st.2.reverse with
  | r :: rs =>
    let b := aesDec key (xorBytes st.1 (beBytes 8 t) ++ r)
    (b.take 8, b.drop 8 :: rs.reverse)
  | [] => st

/-- AES key unwrap of RFC 3394; none when the integrity check fails. -/
def keyUnwrap (key wrapped : List Byte) : Option (List Byte) :=
  let n := wrapped.length / 8 - 1
  let st := (List.range (6 * n)).foldl (fun st i => kuStep key st (6 * n - i))
    (wrapped.take 8, pieces 8 n (wrapped.drop 8))
  if st.1 = List.replicate 8 0xA6 then some st.2.flatten else none

/-! ## GCM -/

/-- The product of two elements of the field of GCM, as 128-bit numbers with bit 0 of a block most significant. -/
def gmul (x y : Nat) : Nat :=
  ((List.range 128).foldl (fun (zv : Nat × Nat) i =>
    (if x / 2 ^ (127 - i) % 2 = 1 then zv.1 ^^^ zv.2 else zv.1,
     if zv.2 % 2 = 1 then zv.2 / 2 ^^^ (0xE1 * 2 ^ 120) else zv.2 / 2)) (0, y)).1

/-- Zero bytes up to a multiple of 16. -/
def pad16 (m : List Byte) : List Byte := m ++ List.replicate ((16 - m.length % 16) % 16) 0

/-- The hash of GCM over whole blocks. -/
def ghash (h : Nat) (m : List Byte) : Nat :=
  (pieces 16 (m.length / 16) m).foldl (fun y b => gmul (y ^^^ beNat b) h) 0

/-- The counter-mode keystream over a message from counter block `iv || c`. -/
def gctr (key iv : List Byte) (c : Nat) (m : List Byte) : List Byte :=
  let n := (m.length + 15) / 16
  xorBytes m ((List.range n).flatMap fun i => aesEnc key (iv ++ beBytes 4 (c + i)))

/-- The tag of GCM over additional data and ciphertext with a 12-byte IV. -/
def gcmTag (key iv aad ct : List Byte) : List Byte :=
  let h := beNat (aesEnc key (List.replicate 16 0))
  let y := ghash h (pad16 aad ++ pad16 ct ++ beBytes 8 (8 * aad.length) ++ beBytes 8 (8 * ct.length))
  xorBytes (beBytes 16 y) (aesEnc key (iv ++ beBytes 4 1))

/-- GCM encryption: ciphertext and tag. -/
def gcmEnc (key iv aad pt : List Byte) : List Byte × List Byte :=
  let ct := gctr key iv 2 pt
  (ct, gcmTag key iv aad ct)

/-- GCM decryption: plaintext, and whether the tag holds. -/
def gcmDec (key iv aad ct tag : List Byte) : List Byte × Bool :=
  (gctr key iv 2 ct, gcmTag key iv aad ct == tag)

/-! ## ECDSA over P-256 -/

/-- The field prime, the curve constants, the base point and its order. -/
def p256P : Nat := 0xffffffff00000001000000000000000000000000ffffffffffffffffffffffff
def p256B : Nat := 0x5ac635d8aa3a93e7b3ebbd55769886bc651d06b0cc53b0f63bce3c3e27d2604b
def p256X : Nat := 0x6b17d1f2e12c4247f8bce6e563a440f277037d812deb33a0f4a13945d898c296
def p256Y : Nat := 0x4fe342e2fe1a7f9b8ee7eb4a7c0f9e162bce33576b315ececbb6406837bf51f5
def p256N : Nat := 0xffffffff00000000ffffffffffffffffbce6faada7179e84f3b9cac2fc632551

/-- The steps of Euclid's algorithm on `r0` and `r1` modulo `m`, with the multiples `t0` and `t1` of the number inverted. -/
def euclid (m : Nat) : Nat → Nat → Nat → Nat → Nat → Nat
  | 0, _, _, t0, _ => t0
  | n + 1, r0, r1, t0, t1 => if r1 = 0 then t0 else euclid m n r1 (r0 % r1) t1 ((t0 + (m - r0 / r1 * t1 % m)) % m)

/-- The inverse modulo a prime below 2^256, zero for zero. -/
def invMod (m a : Nat) : Nat := euclid m 512 m (a % m) 0 1

/-- A point of the curve as (X, Y, Z), which stands for (X / Z^2, Y / Z^3); Z = 0 is the point at infinity. -/
structure EcPoint where
  x : Nat
  y : Nat
  z : Nat

/-- The point at infinity. -/
def EcPoint.zero : EcPoint := ⟨1, 1, 0⟩

/-- A difference in the field. -/
def fSub (a b : Nat) : Nat := (a + (p256P - b % p256P)) % p256P

/-- A product in the field. -/
def fMul (a b : Nat) : Nat := a * b % p256P

/-- The double of a point. -/
def ecDbl (p : EcPoint) : EcPoint :=
  if p.z = 0 then .zero
  else
    let zz := fMul p.z p.z
    let yy := fMul p.y p.y
    let b := fMul p.x yy
    let a := fMul 3 (fMul (fSub p.x zz) (p.x + zz))
    let x := fSub (fMul a a) (8 * b)
    ⟨x, fSub (fMul a (fSub (4 * b) x)) (8 * fMul yy yy), fMul 2 (fMul p.y p.z)⟩

/-- The sum of two points. -/
def ecAdd (p q : EcPoint) : EcPoint :=
  if p.z = 0 then q
  else if q.z = 0 then p
  else
    let pz := fMul p.z p.z
    let qz := fMul q.z q.z
    let u := fMul p.x qz
    let v := fMul p.y (fMul qz q.z)
    let h := fSub (fMul q.x pz) u
    let r := fSub (fMul q.y (fMul pz p.z)) v
    if h = 0 then (if r = 0 then ecDbl p else .zero)
    else
      let hh := fMul h h
      let c := fMul h hh
      let w := fMul u hh
      let x := fSub (fMul r r) (c + 2 * w)
      ⟨x, fSub (fMul r (fSub w x)) (fMul v c), fMul h (fMul p.z q.z)⟩

/-- A multiple of a point, over the low `n` bits of the factor. -/
def ecMul : Nat → Nat → EcPoint → EcPoint
  | 0, _, _ => .zero
  | n + 1, k, p => ecAdd (if k % 2 = 1 then p else .zero) (ecMul n (k / 2) (ecDbl p))

/-- The signature (r, s) of a digest verifies under the public key (X, Y). -/
def ecdsaOk (pub sig digest : List Byte) : Bool :=
  let x := fieldAt pub 0 32
  let y := fieldAt pub 32 32
  let r := fieldAt sig 0 32
  let s := fieldAt sig 32 32
  let onCurve := decide (x < p256P) && decide (y < p256P)
    && decide (y * y % p256P = (x * x * x + (p256P - 3) * x + p256B) % p256P)
  let inRange := decide (0 < r) && decide (r < p256N) && decide (0 < s) && decide (s < p256N)
  let e := beNat (digest.take 32)
  let w := invMod p256N s
  let p := ecAdd (ecMul 256 (e * w % p256N) ⟨p256X, p256Y, 1⟩) (ecMul 256 (r * w % p256N) ⟨x, y, 1⟩)
  onCurve && inRange && p.z != 0 && fMul p.x (invMod p256P (fMul p.z p.z)) % p256N == r

end Sys2Proof.Machine
end

