-- ==== Sys2Proof/Machine/KeyBase.lean ====
section
/-! DEFINITION. The records of the key store: the SRAM mirror that requests read and the MRAM records behind it (R296, R301), and the
keys that the root secret derives (R302, R304). -/

namespace Sys2Proof.Machine

open Sys2Proof

/-! ## Derivation (R304) -/

/-- The counter-mode KDF with an output of `n` bytes. -/
def kdfLen (n : Nat) (k label ctx : List Byte) : List Byte :=
  let it (i : Byte) : List Byte := cmac k ([i] ++ label ++ [0] ++ ctx ++ beBytes 2 (8 * n))
  (if n = 16 then it 1 else it 1 ++ it 2)

/-- KDF(K, label, context): an output of the size of K. -/
def kdf (k label ctx : List Byte) : List Byte := kdfLen k.length k label ctx

/-- The labels of the spec in ASCII. -/
def lblKupd : List Byte := [0x4B, 0x55, 0x50, 0x44]
def lblKdrv : List Byte := [0x4B, 0x44, 0x52, 0x56]
def lblKcnf : List Byte := [0x4B, 0x43, 0x4E, 0x46]
def lblKlcc : List Byte := [0x4B, 0x4C, 0x43, 0x43]
def lblStor : List Byte := [0x53, 0x54, 0x4F, 0x52]
def lblLcst : List Byte := [0x4C, 0x43, 0x53, 0x54]

/-- A key derived from the root secret, and no key when there is no root secret (R302, R318). -/
def State.rootKey (s : State) (label : List Byte) : List Byte :=
  match s.keys.root with
  | some r => kdf r label s.uid
  | none => []

/-- K_store, which encrypts and authenticates slot and journal records. -/
def State.kStore (s : State) : List Byte := s.rootKey lblStor

/-- K_lc, which authenticates the stored life-cycle state and its counters. -/
def State.kLc (s : State) : List Byte := s.rootKey lblLcst

/-! ## Slots -/

/-- Key slot `n`, as the SRAM mirror holds it. -/
def State.slot (s : State) (n : Nat) : KeySlot := tblGet s.keys.slots KeySlot.empty n

/-- Set the mirror of slot `n`. -/
def State.setMirror (s : State) (n : Nat) (x : KeySlot) : State :=
  { s with keys := { s.keys with slots := tblSet s.keys.slots KeySlot.empty n x } }

/-- The first word of memory 0x0A that mirrors slot `n`, which has 16 words (assumption 18). -/
def keyWord (n : Nat) : Nat := 16 * n

/-- Write the words of a slot's mirror. -/
def State.mirrorWrite (s : State) (n : Nat) : State := (List.range 16).foldl (fun s i => s.memWrite 10 0 (keyWord n + i)) s

/-- A record under K_store. -/
def State.sealRec (s : State) (x : KeySlot) : SlotRec := ⟨s.kStore, x⟩

/-- Open a record: nothing when it fails its authentication (R301). -/
def State.openRec (s : State) (r : SlotRec) : Option KeySlot := if r.under = s.kStore then some r.body else none

/-- Store the record of slot `n` in MRAM, and its mirror (R296). -/
def State.setKeySlot (s : State) (n : Nat) (x : KeySlot) : State :=
  (({ s with keys := { s.keys with recs := tblPut s.keys.recs n (s.sealRec x) } }).setMirror n x).mirrorWrite n

/-- The mirror of slot `n` as its MRAM record gives it: a record that fails its authentication sets ecc_fail and leaves the generation
(R301). A slot that no update has written has no record. -/
def State.recSlot (s : State) (n : Nat) : KeySlot :=
  match tblFind s.keys.recs n with
  | none => KeySlot.empty
  | some r => match s.openRec r with
    | some x => { x with ecc := false }
    | none => { s.slot n with ecc := true }

/-- Read the record of slot `n` from MRAM again, which repairs its mirror (R301). last_upd is no part of the record. -/
def State.reloadSlot (s : State) (n : Nat) : State := (s.setMirror n { s.recSlot n with last := (s.slot n).last }).mirrorWrite n

/-- Load every mirror from MRAM, with last_upd at 0 (R296, R314). -/
def State.loadSlots (s : State) : State :=
  let slots := s.keys.recs.foldl (fun t e => tblSet t KeySlot.empty e.1 { s.recSlot e.1 with last := 0 }) []
  { s with keys := { s.keys with slots := slots } }

/-- An uncorrectable error in the mirror of a slot (R301). -/
def State.keyFail (s : State) (mem addr : Nat) : State := if mem = 10 ∧ addr < 4096 then s.reloadSlot (addr / 16) else s

end Sys2Proof.Machine
end

