-- ==== Sys2Proof/Machine/Tables.lean ====
section
/-! DEFINITION. The tables of the switching side, their entries and the memories that hold them (R130, R133, R357). -/

namespace Sys2Proof.Machine

open Sys2Proof

/-! ## Tables -/

/-- Words of an entry of a table (R133, R166, R255, R284). -/
def tabSize : Nat → Nat
  | 0x01 => 16 | 0x02 => 2 | 0x03 => 16 | 0x04 => 12 | 0x05 => 1 | 0x06 => 8
  | 0x10 => 4 | 0x11 => 2 | 0x12 => 1 | 0x13 => 1 | 0x14 => 1 | 0x15 => 1 | 0x16 => 1 | 0x17 => 8 | 0x18 => 4
  | 0x19 => 4 | 0x1A => 8 | 0x1B => 16
  | 0x30 => 8 | 0x31 => 8 | 0x32 => 4 | 0x33 => 4 | 0x34 => 16 | 0x36 => 4 | 0x40 => 4
  | _ => 0

/-- Entries of a table. -/
def tabCount : Nat → Nat
  | 0x01 => 33280 | 0x02 => 33280 | 0x03 => 133120 | 0x04 => 32 | 0x05 => 448 | 0x06 => 4096
  | 0x10 => 66560 | 0x11 => 4096 | 0x12 => 1024 | 0x13 => 65536 | 0x14 => 262144 | 0x15 => 65536 | 0x16 => 262144
  | 0x17 => 512 | 0x18 => 4096 | 0x19 => 8448 | 0x1A => 4096 | 0x1B => 4096
  | 0x30 => 256 | 0x31 => 4096 | 0x32 => 4096 | 0x33 => 8192 | 0x34 => 4224 | 0x36 => 4096 | 0x40 => 4352
  | _ => 0

/-- The table has one copy per epoch parity. -/
def tabCopied (id : Nat) : Bool := [4, 5, 6, 0x11, 0x12, 0x13, 0x15, 0x18, 0x1A, 0x30, 0x31, 0x36].contains id

/-- An entry that nothing has written: a profile-select entry resets to default drop and par_drop (R77), the others to zero, the state of a
stream with rst = 0 among them (DESIGN CHOICE, assumption 83: the spec gives it no reset value). -/
def tabDefault (id : Nat) : List Word :=
  if id = 5 then [0x60000000] else List.replicate (tabSize id) 0

/-- The key of a table entry. -/
def tabKey (id copy n : Nat) : Nat := (id * 2 + (if tabCopied id then copy % 2 else 0)) * 262144 + n

/-- An entry of a table, of the copy of a parity. -/
def State.ent (s : State) (id par n : Nat) : List Word := tblGet s.net.tabs (tabDefault id) (tabKey id par n)

/-- Set an entry of a table. -/
def State.setEnt (s : State) (id par n : Nat) (e : List Word) : State :=
  { s with net := { s.net with tabs := tblSet s.net.tabs (tabDefault id) (tabKey id par n) e } }

/-- Word `i` of an entry. -/
def ew (e : List Word) (i : Nat) : Word := e.getD i 0

/-- Bits [hi:lo] of word `i` of an entry. -/
def eb (e : List Word) (i hi lo : Nat) : Nat := getBits (ew e i) hi lo

/-- Bit `b` of word `i` of an entry. -/
def ebit (e : List Word) (i b : Nat) : Bool := getBit (ew e i) b

/-- Replace bits [hi:lo] of word `i` of an entry. -/
def eput (e : List Word) (i hi lo v : Nat) : List Word := e.set i (putBits (ew e i) hi lo v)

/-- The memory of R357 that holds a table, and where the table begins in it. The spec gives the memories but not the places
in them: in each, tables stand in the order of their IDs, copy 0 before copy 1 (assumption 18). -/
def tabMem : Nat → Nat × Nat
  | 0x03 => (0x04, 0) | 0x04 => (0x0E, 0) | 0x05 => (0x0E, 384) | 0x06 => (0x0E, 832)
  | 0x01 => (0x10, 0) | 0x10 => (0x11, 0) | 0x11 => (0x12, 0) | 0x12 => (0x12, 8192)
  | 0x13 => (0x13, 0) | 0x14 => (0x13, 131072) | 0x15 => (0x13, 393216) | 0x16 => (0x13, 524288)
  | 0x17 => (0x13, 786432) | 0x18 => (0x13, 786944) | 0x19 => (0x14, 0) | 0x1A => (0x14, 8448) | 0x1B => (0x15, 0)
  | 0x30 => (0x0E, 33600) | 0x31 => (0x0E, 35648) | 0x32 => (0x08, 0) | 0x36 => (0x08, 8192)
  | 0x33 => (0x03, 0) | 0x34 => (0x03, 16384) | 0x40 => (0x0D, 0)
  | _ => (0x0E, 68416)

/-- The position of an entry among the entries of its table. -/
def tabPos (id par n : Nat) : Nat := (if tabCopied id then par % 2 * tabCount id else 0) + n

end Sys2Proof.Machine
end

