-- ==== Sys2Proof/Machine/MemOps.lean ====
section
/-! DEFINITION. Memory integrity: correction, poison, scrubbing, partial writes, weak rows, repair and the flip mask
(R357 to R372). -/

namespace Sys2Proof.Machine

open Sys2Proof

/-- The instances of a memory (R357). -/
def memInstances : Nat → Nat
  | 5 => 16
  | 6 => 32
  | 7 => 32
  | _ => 1

/-- The register blocks that a memory belongs to, for the flush of R362 (assumption 11). -/
def memBlks : Nat → List Blk
  | 0 | 2 => [.qmg]
  | 1 | 9 => [.cip]
  | 3 => [.hrb]
  | 4 | 16 => [.cls]
  | 14 => [.cls, .sky, .sch]
  | 5 => [.tga]
  | 6 | 7 | 8 => [.sky]
  | 10 => [.key]
  | 11 | 12 => [.glb]
  | 13 => [.can]
  | 15 => [.mac]
  | _ => [.fdb]

/-- Word 0 of an error log. -/
def memLogWord (type mem inst synd source : Nat) : Word :=
  putBits (putBits (putBits (putBits (putBits (putBits 0 31 31 1) 30 28 type) 27 22 mem) 21 16 inst) 15 8 synd) 7 4 source

/-- Enter an error in MEM_CE_LOG when its valid bit is clear. -/
def State.logCe (s : State) (mem inst addr synd source : Nat) : State :=
  if s.on F.memCeLog0_valid then s
  else
    let s := (s.wr .memCeLog0 0 (memLogWord 0 mem inst synd source)).wr .memCeLog1 0 (BitVec.ofNat 32 (addr % 16777216))
    (s.wr .memCeLogLt 0 (BitVec.ofNat 32 s.ltNs)).wr .memCeLogLt 1 (BitVec.ofNat 32 (s.ltNs / 4294967296))

/-- Enter an error in MEM_UE_LOG when its valid bit is clear. -/
def State.logUe (s : State) (type mem inst addr synd source : Nat) : State :=
  if s.on F.memUeLog0_valid then s
  else
    let s := (s.wr .memUeLog0 0 (memLogWord type mem inst synd source)).wr .memUeLog1 0 (BitVec.ofNat 32 (addr % 16777216))
    (s.wr .memUeLogLt 0 (BitVec.ofNat 32 s.ltNs)).wr .memUeLogLt 1 (BitVec.ofNat 32 (s.ltNs / 4294967296))

/-! ## Weak rows and field repair -/

/-- Rows of a memory in the field repair map. -/
def State.repairRows (s : State) (mem : Nat) : Nat := (s.mram.repair.filter fun r => r.1 == mem).length

/-- Rows of a memory added since this BOOT. -/
def State.pendingRows (s : State) (mem : Nat) : Nat := tblGet s.mem.pendingRows 0 mem

/-- Rows of a memory applied at this BOOT (R366). -/
def State.fieldRows (s : State) (mem : Nat) : Nat := s.repairRows mem - s.pendingRows mem

/-- Spare rows not yet used, saturating at 255. -/
def State.spareFree (s : State) (mem : Nat) : Nat := min 255 (Config.spareRows mem - s.fieldRows mem)

/-- Add a row to the field repair map by a STORE of the MEM block (R365). -/
def State.addRepair (s : State) (mem inst row : Nat) : State :=
  if s.mram.repair.contains (mem, inst, row) then s
  else if 64 ≤ s.repairRows mem ∨ Config.spareRows mem ≤ s.repairRows mem then
    (s.bump .memRepairFull).raise Ev.memRepairFull
  else
    { s with
      mram := { s.mram with repair := s.mram.repair ++ [(mem, inst, row)] }
      mem := { s.mem with pendingRows := tblSet s.mem.pendingRows 0 mem (s.pendingRows mem + 1), rowAt := some s.now } }

/-- Power is lost in the tick in which a row was added: its STORE is torn, the entry fails its check value and is ignored from then on
(R365). -/
def State.tearRow (s : State) : State :=
  if s.mem.rowAt = some s.now then
    { s with mram := { s.mram with
      repair := s.mram.repair.dropLast
      torn := s.mram.torn ++ s.mram.repair.drop (s.mram.repair.length - 1) } }
  else s

/-- A row is weak (R364). -/
def State.weakRow (s : State) (mem inst addr : Nat) : State :=
  let row := addr / 16 * 16
  let s := s.wr .memWeakLast0 0 (putBits (putBits (putBits 0 31 31 1) 27 22 mem) 21 16 inst)
  let s := s.wr .memWeakLast1 0 (BitVec.ofNat 32 (row % 16777216))
  ((s.bump .memWeak mem).raise Ev.memWeak).addRepair mem inst row

/-- The window of a tracker entry still runs (R203, R364). -/
def TrkEnt.open (e : TrkEnt) (lt : Nat) : Bool := decide (lt < e.since + tkS 10)

/-- Offer a word to the repeat tracker of its memory (R364). -/
def State.offerTrk (s : State) (mem inst addr : Nat) : State :=
  let l := tblGet s.mem.trk [] mem
  let lt := s.tim.lt
  let same := fun e : TrkEnt => e.inst == inst && e.addr == addr
  let put := fun (s : State) (l : List TrkEnt) => { s with mem := { s.mem with trk := tblSet s.mem.trk [] mem l } }
  match l.find? fun e => same e && e.open lt with
  | some e =>
    if 3 ≤ e.count then (put s (l.filter fun x => !same x)).weakRow mem inst addr
    else put s (l.map fun x => if same x then { x with count := x.count + 1 } else x)
  | none =>
    let live := l.filter fun e => e.open lt
    if live.length < 16 then put s (live ++ [⟨inst, addr, 1, lt⟩]) else s.bump .memTrkFull

/-! ## Errors found by reads -/

/-- A single-bit error is corrected, written back and counted (R358). -/
def State.corrected (s : State) (mem inst addr synd source : Nat) : State :=
  let s := ((s.setMemErr mem inst addr none).bump .memCe mem).logCe mem inst addr synd source
  (s.raise Ev.memCe).offerTrk mem inst addr

/-- The first word of the SA memory in memory 0x09, which holds 8 words for each SA (assumption 18). -/
def saBase : Nat := 32768

/-- An uncorrectable error in SA memory clears the SA (R283): SA `n` is TX SA n, or RX SA n - 1024. -/
def State.saFail (s : State) (mem addr : Nat) : State :=
  if mem ≠ 9 ∨ addr < saBase ∨ (72 ≤ (addr - saBase) / 8 ∧ (addr - saBase) / 8 < 1024) then s
  else
    let n := (addr - saBase) / 8
    let r := if n < 1024 then Reg.cipTxSa0 else .cipRxSa0
    let s := s.wr r (n % 1024) 0
    let s := (List.range 8).foldl (fun s i => s.setMemErr 9 0 (saBase + 8 * n + i) none) s
    { s with net := { s.net with cip := { s.net.cip with sak := tblDel s.net.cip.sak n } } }.raise Ev.saEcc

/-- An uncorrectable error marks the data and writes the poison encoding back (R359). The mirror of a key slot is then repaired (R301). -/
def State.uncorrectable (s : State) (mem inst addr synd source : Nat) : State :=
  let s := ((s.setMemErr mem inst addr (some (.poison, 255))).bump .memUe mem).logUe 1 mem inst addr synd source
  ((s.raise Ev.memUe).saFail mem addr).keyFail mem addr

/-- A word in the poison encoding is read (R359). -/
def State.poisonRead (s : State) (mem inst addr source : Nat) : State :=
  (((s.bump .memPoisonUse mem).logUe 2 mem inst addr 255 source).saFail mem addr).keyFail mem addr

/-- A parity failure of a table entry is found (R367): a miss until it is repaired. -/
def State.parityFail (s : State) (mem addr source : Nat) : State :=
  let s := { s with mem := { s.mem with parity := tblPut s.mem.parity (memKey mem 0 addr) true } }
  let s := ((s.setMemErr mem 0 addr none).bump .memUe mem).logUe 3 mem 0 addr 0 source
  (s.raise Ev.memUe).offerTrk mem 0 addr

/-- The entry has an unrepaired parity failure, so that a probe of it misses (R85, R131, R367). -/
def State.parityBad (s : State) (mem idx : Nat) : Bool := (tblFind s.mem.parity (memKey mem 0 idx)).isSome

/-- The error that a read finds: what is recorded at the word, and what nature has added since. Syndrome 0xFF of two bits or more reads as
the poison encoding (R359). -/
def errFound : Option (WordErr × Nat) → Upset → Option (WordErr × Nat)
  | some (.poison, y), _ => some (.poison, y)
  | some (.uncorrectable, y), _ => some (.uncorrectable, y)
  | some (.correctable, y), .none => some (.correctable, y)
  | some (.correctable, _), .single y => some (if y = 255 then .poison else .uncorrectable, y.toNat)
  | some (.correctable, _), .double y => some (if y = 255 then .poison else .uncorrectable, y.toNat)
  | some (.correctable, y), .parity => some (.correctable, y)
  | none, .none => none
  | none, .single y => some (.correctable, y.toNat)
  | none, .double y => some (if y = 255 then .poison else .uncorrectable, y.toNat)
  | none, .parity => none

/-! ## Partial writes -/

/-- Where a word of a SECDED memory stands in the model: its bytes alone, two 32-bit words of a table from number `g`, or an entry of
the admin or operational list of a port. -/
inductive MemHome where
  | raw
  | tab (id g : Nat)
  | admin (k : Nat)
  | oper (p i : Nat)
  deriving DecidableEq, Repr

/-- The table of SECDED memory `mem` that holds a word, and the number of its first 32-bit word. The entries of the Harbour have no stated
layout. -/
def tabHome (mem addr : Nat) : MemHome :=
  match [0x04, 0x05, 0x06, 0x30, 0x31, 0x03, 0x32, 0x36, 0x40].find? fun id =>
      let m := tabMem id
      m.1 == mem && decide (m.2 ≤ addr)
        && decide ((addr - m.2) * 2 < (if tabCopied id then 2 else 1) * tabCount id * tabSize id) with
  | some id => .tab id ((addr - (tabMem id).2) * 2)
  | none => .raw

/-- The place of a word: memory 0x05 holds the tide lists, the admin list first (assumption 18). -/
def memHome (mem inst addr : Nat) : MemHome :=
  if mem = 5 then
    if addr < 1024 then .admin (1024 * inst + addr) else if addr < 2048 then .oper inst (addr - 1024) else .raw
  else tabHome mem addr

/-- The entry of a table that holds its 32-bit word `g`: parity and number, and the word within the entry. -/
def tabPlace (id g : Nat) : (Nat × Nat) × Nat :=
  let e := g / tabSize id
  (if tabCopied id then (e / tabCount id, e % tabCount id) else (0, e), g % tabSize id)

/-- 32-bit word `g` of a table. -/
def State.tabW (s : State) (id g : Nat) : Word :=
  let x := tabPlace id g
  ew (s.ent id x.1.1 x.1.2) x.2

/-- Write 32-bit word `g` of a table. -/
def State.putTabW (s : State) (id g : Nat) (w : Word) : State :=
  let x := tabPlace id g
  let e := s.ent id x.1.1 x.1.2
  s.setEnt id x.1.1 x.1.2 ((List.range (tabSize id)).map fun j => if j = x.2 then w else ew e j)

/-- The four bytes of a word, least significant first. -/
def leBytes4 (w : Word) : List Byte := (List.range 4).map fun i => BitVec.ofNat 8 (w.toNat / 256 ^ i)

/-- The word of four bytes, least significant first. -/
def leWord4 (bs : List Byte) : Word :=
  BitVec.ofNat 32 ((List.range 4).foldl (fun n i => n + (byteAt bs i).toNat * 256 ^ i) 0)

/-- The operational list of a port. -/
def State.operList (s : State) (p : Nat) : List (Nat × Nat × Nat) := match (tblGet s.net.tides Tide.reset p).run with
  | some r => r.entries
  | none => []

/-- The word of an operational entry: gates and interval, as TGA_OPER_ENTRY shows them. -/
def State.operWord (s : State) (p i : Nat) : Word := match (s.operList p)[i]? with
  | some e => putBits (putBits 0 31 24 e.1) 23 0 e.2.1
  | none => 0

/-- The bytes of a word that no table holds, and the upper half of those of a list entry. -/
def State.rawWord (s : State) (mem inst addr : Nat) : List Byte :=
  tblGet s.mem.words (List.replicate 8 0) (memKey mem inst addr)

/-- The stored bytes of a word, least significant first. -/
def State.memWord (s : State) (mem inst addr : Nat) : List Byte := match memHome mem inst addr with
  | .raw => s.rawWord mem inst addr
  | .tab id g => leBytes4 (s.tabW id g) ++ leBytes4 (s.tabW id (g + 1))
  | .admin k => leBytes4 (s.rd .tgaAdminEntry k) ++ (s.rawWord mem inst addr).drop 4
  | .oper p i => leBytes4 (s.operWord p i) ++ (s.rawWord mem inst addr).drop 4

/-- The bytes of an entry over the stored bytes. -/
def mergeBytes (new : List (Option Byte)) (old : List Byte) : List Byte :=
  (List.range 8).map fun i => ((new.getD i none).getD (byteAt old i))

/-- Write the bytes of a word that stand for themselves. -/
def State.putRawWord (s : State) (mem inst addr : Nat) (bs : List Byte) : State :=
  { s with mem := { s.mem with words := tblSet s.mem.words (List.replicate 8 0) (memKey mem inst addr) bs } }

/-- Write an entry of the operational list of a port. -/
def State.putOperWord (s : State) (p i : Nat) (w : Word) : State :=
  let t := tblGet s.net.tides Tide.reset p
  match t.run with
  | some r =>
    let e := (getBits w 31 24, getBits w 23 0, ((r.entries.getD i (0, 0, 0)).2).2)
    { s with net := { s.net with tides := tblSet s.net.tides Tide.reset p { t with run := some { r with entries := r.entries.set i e } } } }
  | none => s

/-- Write a merged word where it stands. -/
def State.putMemWord (s : State) (mem inst addr : Nat) (bs : List Byte) : State := match memHome mem inst addr with
  | .raw => s.putRawWord mem inst addr bs
  | .tab id g => (s.putTabW id g (leWord4 bs)).putTabW id (g + 1) (leWord4 (bs.drop 4))
  | .admin k => (s.wr .tgaAdminEntry k (leWord4 bs)).putRawWord mem inst addr (List.replicate 4 0 ++ bs.drop 4)
  | .oper p i => (s.putOperWord p i (leWord4 bs)).putRawWord mem inst addr (List.replicate 4 0 ++ bs.drop 4)

/-- Flush one entry (R362, R363). -/
def State.flushEnt (s : State) (e : MergeEnt) : State :=
  let full := (List.range 8).all fun i => (e.bytes.getD i none).isSome
  let merged := mergeBytes e.bytes (s.memWord e.mem e.inst e.addr)
  if full then (s.putMemWord e.mem e.inst e.addr merged).memWrite e.mem e.inst e.addr
  else
    match s.memErr e.mem e.inst e.addr with
    | none => (s.putMemWord e.mem e.inst e.addr merged).memWrite e.mem e.inst e.addr
    | some (.correctable, y) =>
      ((s.corrected e.mem e.inst e.addr y 2).putMemWord e.mem e.inst e.addr merged).memWrite e.mem e.inst e.addr
    | some (.uncorrectable, y) =>
      let s := ((s.putMemWord e.mem e.inst e.addr merged).poisonWrite e.mem e.inst e.addr).bump .memUe e.mem
      (s.logUe 4 e.mem e.inst e.addr y 2).raise Ev.memUe
    | some (.poison, y) =>
      let s := ((s.putMemWord e.mem e.inst e.addr merged).poisonWrite e.mem e.inst e.addr).bump .memPoisonUse e.mem
      s.logUe 4 e.mem e.inst e.addr y 2

/-- Flush the entries of which `p` holds, oldest first. -/
def State.flushWhere (s : State) (p : MergeEnt → Bool) : State :=
  let out := s.mem.merge.filter p
  let s := { s with mem := { s.mem with merge := s.mem.merge.filter fun e => !p e } }
  out.foldl State.flushEnt s

/-- A go write of an RWS command reaches a block: the entries of its ports are flushed first (R362). -/
def State.flushBlk (s : State) (b : Blk) : State := s.flushWhere fun e => (memBlks e.mem).contains b

/-- A write narrower than 64 bits enters the merge buffer of its memory port, of which each instance of a memory has one (R362). -/
def State.partialWrite (s : State) (mem inst addr : Nat) (bytes : List (Option Byte)) : State :=
  let here := fun e : MergeEnt => e.mem == mem && e.inst == inst && e.addr == addr
  let norm := (List.range 8).map fun i => bytes.getD i none
  match s.mem.merge.find? here with
  | some e =>
    let e' : MergeEnt := { e with
      bytes := (List.range 8).map fun i => (norm.getD i none).orElse fun _ => e.bytes.getD i none
      last := s.tim.lt }
    let s := { s with mem := { s.mem with merge := s.mem.merge.map fun x => if here x then e' else x } }
    if e'.bytes.all Option.isSome then s.flushWhere here else s
  | none =>
    let mine := s.mem.merge.filter fun e => e.mem == mem && e.inst == inst
    let s := match mine with
      | o :: _ => if 8 ≤ mine.length then s.flushWhere (fun e => e == o) else s
      | [] => s
    let s := { s with mem := { s.mem with merge := s.mem.merge ++ [⟨mem, inst, addr, norm, s.tim.lt⟩] } }
    if norm.all Option.isSome then s.flushWhere here else s

/-! ## Reads -/

/-- An entry of the merge buffer that serves a word is flushed before a read of the word (R362). -/
def State.flushWord (s : State) (mem inst addr : Nat) : State :=
  s.flushWhere fun e => e.mem == mem && e.inst == inst && e.addr == addr

/-- A read of a word of a SECDED memory (R358, R359): the state, and whether the data is poisoned. -/
def State.memRead (s : State) (mem inst addr : Nat) (u : Upset) (source : Nat) : State × Bool :=
  let s := s.flushWord mem inst addr
  match errFound (s.memErr mem inst addr) u with
  | none => (s, false)
  | some (.correctable, y) => (s.corrected mem inst addr y source, false)
  | some (.uncorrectable, y) => (s.uncorrectable mem inst addr y source, true)
  | some (.poison, _) => ((s.setMemErr mem inst addr (some (.poison, 255))).poisonRead mem inst addr source, true)

/-- No word holds an error, and nothing waits in a merge buffer. -/
def State.memClean (s : State) : Bool := s.mem.errs.isEmpty && s.mem.merge.isEmpty

/-- Read `n` words of a SECDED memory from an address: whether one is poisoned. -/
def State.wordsRead (s : State) (mem inst addr n source : Nat) : State × Bool :=
  if s.memClean then (s, false)
  else (List.range n).foldl (fun (x : State × Bool) i =>
    let y := x.1.memRead mem inst (addr + i) .none source
    (y.1, x.2 || y.2)) (s, false)

/-- Read words that poison is consumed from at once: a word found in error then counts in MEM_POISON_USE, as one in the poison encoding does
(R369). -/
def State.useRead (s : State) (mem inst addr n : Nat) : State × Bool :=
  if s.memClean then (s, false)
  else (List.range n).foldl (fun (x : State × Bool) i =>
    let t := x.1.flushWord mem inst (addr + i)
    let old := match t.memErr mem inst (addr + i) with
      | some (.poison, _) => true
      | _ => false
    let y := t.memRead mem inst (addr + i) .none 0
    (y.1.bumpIf (y.2 && !old) .memPoisonUse mem, x.2 || y.2)) (s, false)

/-- A request reads the mirror of key slot `n`: an error is corrected, or the slot is read from MRAM again (R301, R358). -/
def State.keyFetch (s : State) (n : Nat) : State := (s.wordsRead 10 0 (keyWord n) 16 0).1

/-- A command of the key store reads the mirrors. -/
def State.keysFetch (s : State) : State := if s.memClean then s else (List.range 256).foldl State.keyFetch s

/-- Read the words of memory 0x0F that hold an item of a FIFO: whether one is poisoned. -/
def State.itemRead (s : State) (addr n : Nat) : State × Bool := s.wordsRead 15 0 addr n 0

/-- Write the words of memory 0x0F that hold an item of a FIFO. -/
def State.itemWrite (s : State) (addr n : Nat) : State := (List.range n).foldl (fun s i => s.memWrite 15 0 (addr + i)) s

/-- The words of memory 0x0F that hold a record of a transmit-timestamp queue, of a capture FIFO, and a frame of the receive FIFO of a
virtual port: 4, 4 and 264 words, behind the message queues (assumption 18). -/
def txtsWord (p pos : Nat) : Nat := 393216 + (16 * p + pos % 16) * 4
def tscWord (n pos : Nat) : Nat := 394240 + (16 * n + pos % 16) * 4
def legWord (port pos : Nat) : Nat := 394752 + (32 * (port - 32) + pos) * 264

/-- The words of memory 0x0F that hold frame `pos` of the transmit queue of a CAN channel, and data set `pos` of a publish entry of a LIN
channel: 264 and 4 words, behind the receive FIFOs (assumption 18). -/
def canWord (n pos : Nat) : Nat := 597504 + (64 * n + pos) * 264
def linWord (n id pos : Nat) : Nat := 867840 + ((64 * n + id) * 4 + pos) * 4

/-- The word of memory 0x0E that holds the levels of meter `i`; those of shaper `q`, of the credit of class queue `q` and of stream
gate `g` follow at 2048 + q, 3216 + q and 3360 + g (assumption 18). -/
def stateWord (i : Nat) : Nat := 73728 + i

/-- A frame needs a word of meter, shaper or gate state: true when it is poisoned; the frame is then dropped and the word is rewritten
(R369). -/
def State.stateRead (s : State) (i : Nat) : State × Bool :=
  if s.memClean then (s, false)
  else
    let r := s.memRead 14 0 (stateWord i) .none 0
    if r.2 then ((r.1.memWrite 14 0 (stateWord i)).bump .memPoisonDrop, true) else (r.1, false)

/-- A probe of an entry of a parity memory finds a new failure (R367). -/
def State.probeEntry (s : State) (mem idx : Nat) (u : Upset) (source : Nat) : State :=
  if s.parityBad mem idx then s
  else if u = .parity ∨ (s.memErr mem 0 idx).isSome then s.parityFail mem idx source
  else s

/-! ## The flip mask -/

/-- A write of MEM_FLIP_CTRL (R371): arm, or cancel. A write of 1 to arm while the mask is armed is ignored, and the armed flip goes on
unchanged (R12). A write that sets arm and cancel together cancels (DESIGN CHOICE, assumption 95: the spec gives no order). -/
def State.wrFlipCtrl (s : State) (data : Word) : State :=
  let cancel := F.memFlipCtrl_cancel.of data = 1
  let arm := F.memFlipCtrl_arm.of data = 1
  if arm ∧ s.on F.memFlipCtrl_arm ∧ ¬ cancel then s
  else
    let s := s.writeReg .memFlipCtrl 0 data
    if cancel then s.setFld F.memFlipCtrl_arm 0 0 else if arm then s.setFld F.memFlipCtrl_arm 0 1 else s

def execFlipArm (path : Path) (data : Word) (s : State) : Host.Outcome State Fault Refusal :=
  .next (s.accessReg path .memFlipCtrl 0 data fun s => s.wrFlipCtrl data)

def execFlipCancel (path : Path) (data : Word) (s : State) : Host.Outcome State Fault Refusal :=
  .next (s.accessReg path .memFlipCtrl 0 data fun s => s.wrFlipCtrl data)

/-! ## Commands of partial writes -/

def execPartialWrite (mem : Fin 22) (inst : Fin 32) (addr : BitVec 24) (bytes : List (Option Byte)) (s : State) :
    Host.Outcome State Fault Refusal :=
  .next (if memParity mem || decide (memInstances mem ≤ inst.val) || !s.fabricOn then s
    else s.partialWrite mem inst addr.toNat bytes)

/-- A memory port has had no write for 32 cycles. -/
def State.portIdle (s : State) (mem inst : Nat) : Bool :=
  s.mem.merge.all fun e => e.mem != mem || e.inst != inst || decide (e.last + 32 ≤ s.tim.lt)

/-- A port that has been idle for 32 cycles flushes its entries (R362). -/
def execMergeIdleFlush (mem : Fin 22) (s : State) : Host.Outcome State Fault Refusal :=
  .next (s.flushWhere fun e => e.mem == mem.val && s.portIdle e.mem e.inst)

/-! ## Scrubbing -/

/-- A scrubber pass starts (R361): each period_ms, or at once when the pass before it, of `lastMs`, was late. -/
def execScrubPassStart (lastMs : BitVec 16) (s : State) : Host.Outcome State Fault Refusal :=
  let per := s.fld F.memScrubCfg_period_ms
  let start := fun s : State => { s with mem := { s.mem with passAt := some s.tim.lt } }
  .next (if !s.fabricOn || !s.on F.memScrubCfg_en then s
    else match s.mem.passAt with
      | none => start s
      | some t =>
        if t + tkMs (max per lastMs.toNat) ≤ s.tim.lt then
          let s := s.setFld F.memScrubStat_last_pass_ms 0 lastMs.toNat
          start (if per < lastMs.toNat then s.setFld F.memScrubStat_late 0 1 else s)
        else s)

/-- The scrubber reads a word or checks an entry; it skips a word that reads as the poison encoding (R361). -/
def State.scrub (s : State) (mem inst addr : Nat) (u : Upset) : State :=
  if !s.fabricOn || !s.on F.memScrubCfg_en || decide (memInstances mem ≤ inst) then s
  else if memParity mem then s.probeEntry mem addr u 1
  else
    let s := s.flushWord mem inst addr
    match errFound (s.memErr mem inst addr) u with
    | some (.poison, _) => s.setMemErr mem inst addr (some (.poison, 255))
    | _ => (s.memRead mem inst addr u 1).1

end Sys2Proof.Machine
end

