-- ==== Sys2Proof/Machine/HostMq.lean ====
section
/-! DEFINITION. Message queues and the event controller: the commands of R445 to R455. -/

namespace Sys2Proof.Machine

open Sys2Proof

/-! ## Message queues -/

/-- The enabled producers and the queue each names (R489). -/
def State.producers (s : State) : List Nat :=
  (if s.on F.fdbLearnCfg_en then [s.fld F.fdbLearnCfg_mq] else []) ++
  (if s.on F.skyMqCfg_en then [s.fld F.skyMqCfg_mq] else []) ++
  (if s.on F.evtLogCfg_en then [s.fld F.evtLogCfg_mq] else [])

/-- Two enabled producers name one queue (R489). -/
def State.producersClash (s : State) : Bool := !decide s.producers.Nodup

/-- Write a register that names a producer's queue; ignored as a whole when two producers would share a queue (R489). -/
def State.wrProducer (s : State) (r : Reg) (data : Word) : State :=
  if (s.wr r 0 (mergeFields data r.info.fields (s.rd r 0, false)).1).producersClash then s.accessErr r.info.blk
  else s.writeReg r 0 data

/-- The items of the enabled queues other than `k` (R445). -/
def State.mqOthers (s : State) (k : Nat) : Nat :=
  (List.range 48).foldl (fun n j => if j ≠ k ∧ s.on F.mqCfg_en j then n + s.mqDepth j else n) 0

/-- A write of MQ_CFG (R445). -/
def State.wrMqCfg (s : State) (k : Nat) (data : Word) : State :=
  if s.on F.mqCfg_en k then
    if F.mqCfg_en.of data = 0 then
      let q := s.mq k
      (s.writeReg .mqCfg k data).setMq k ⟨(q.f + q.items.length) % 4294967296, [], 0, .none⟩
    else s.accessErr .mgt
  else
    let w := (mergeFields data Reg.mqCfg.info.fields (s.rd .mqCfg k, false)).1
    if F.mqCfg_en.of w = 1 ∧ 16384 < s.mqOthers k + 2 ^ F.mqCfg_depth_log.of w then s.accessErr .mgt
    else s.writeReg .mqCfg k data

def execMqCfgWrite (path : Path) (k : Fin 48) (data : Word) (s : State) : Host.Outcome State Fault Refusal :=
  .next (s.accessReg path .mqCfg k data fun s => s.wrMqCfg k data)

/-- The path is the owner of queue `k` (R446). -/
def State.mqOwner (s : State) (path : Path) (k : Nat) : Bool := s.fld F.mqCfg_owner k == path.code

/-- Read the words of the item at Rd: whether one is poisoned. -/
def State.mqBad (s : State) (k : Nat) : State × Bool :=
  if s.memClean then (s, false)
  else
    let a := s.mqWord k ((s.mq k).f + (s.mq k).held)
    let x := s.memRead 15 0 a .none 0
    let y := x.1.memRead 15 0 (a + 1) .none 0
    (y.1, x.2 || y.2)

/-- Rd moves past an item. -/
def State.mqPass (s : State) (k : Nat) : State := s.setMq k { s.mq k with held := (s.mq k).held + 1 }

/-- Rd moves past the poisoned items it has reached; each is counted as lost (R369, R449). -/
def State.mqSkip : Nat → State → Nat → State
  | 0, s, _ => s
  | n + 1, s, k =>
    if (s.mq k).items.length ≤ (s.mq k).held then s
    else
      let r := s.mqBad k
      if r.2 then State.mqSkip n (((r.1.mqPass k).bump .mqLost k).bump .memPoisonDrop) k else r.1

/-- Queue `k` with its poisoned items at Rd passed over. -/
def State.mqFront (s : State) (k : Nat) : State := State.mqSkip (s.mq k).items.length s k

/-- A read of MQ_POP`j` of queue `k` on a path: the state after it and the word (R446). -/
def State.mqPopRead (s : State) (path : Path) (k j : Nat) : State × Word :=
  if !s.mqOwner path k then (s.accessErr .mgt, 0)
  else
    let s := s.mqFront k
    let q := s.mq k
    match q.items[q.held]? with
    | some it => (if j = 3 then s.setMq k { q with held := q.held + 1 } else s, it.words.getD j 0)
    | none => (s, 0)

/-- The result codes of MQ_STAT. -/
def State.mqResult (s : State) (k v : Nat) : State := s.setFld F.mqStat_result k v

/-- MARK (R448). -/
def State.mqMark (s : State) (k : Nat) : State :=
  let q := s.mq k
  (s.setMq k { q with mark := .valid ((q.f + q.held) % 4294967296) }).mqResult k 0

/-- REWIND (R448). -/
def State.mqRewind (s : State) (k : Nat) : State :=
  let q := s.mq k
  match q.mark with
  | .valid m => (s.setMq k { q with held := (m + 4294967296 - q.f) % 4294967296 }).mqResult k 0
  | .none => s.mqResult k 1
  | .lost => (s.setMq k { q with mark := .none }).mqResult k 2

/-- RELEASE of `n` items (R448). A release of 0 items moves nothing, and the spec states no result for it (assumption 9). -/
def State.mqRelease (s : State) (k n : Nat) : State :=
  let q := s.mq k
  if q.held < n then s.mqResult k 3
  else if n = 0 then
    let (w, s) := s.drawWord
    s.mqResult k (w.toNat % 16)
  else
    let mark := match q.mark with
      | .valid m => if (m + 4294967296 - q.f) % 4294967296 < n then .none else .valid m
      | x => x
    (s.setMq k ⟨(q.f + n) % 4294967296, q.items.drop n, q.held - n, mark⟩).mqResult k 0

/-- RESET (R448). -/
def State.mqReset (s : State) (k : Nat) : State :=
  let q := s.mq k
  (s.setMq k ⟨(q.f + q.items.length) % 4294967296, [], 0, .none⟩).mqResult k 0

/-- A write of MQ_CMD (R446, R448): only the owner's path; an operation code that R448 does not define has no effect (R9). -/
def State.wrMqCmd (s : State) (path : Path) (k : Nat) (data : Word) : State :=
  if !s.mqOwner path k then s.accessErr .mgt
  else match F.mqCmd_op.of data with
    | 1 => s.mqMark k
    | 2 => s.mqRewind k
    | 3 => s.mqRelease k (F.mqCmd_n.of data)
    | 4 => s.mqReset k
    | _ => s

def execMqMark (path : Path) (k : Fin 48) (s : State) : Host.Outcome State Fault Refusal :=
  .next (s.accessReg path .mqCmd k 0x10000000 fun s => s.wrMqCmd path k 0x10000000)

def execMqRewind (path : Path) (k : Fin 48) (s : State) : Host.Outcome State Fault Refusal :=
  .next (s.accessReg path .mqCmd k 0x20000000 fun s => s.wrMqCmd path k 0x20000000)

def execMqRelease (path : Path) (k : Fin 48) (n : BitVec 13) (s : State) : Host.Outcome State Fault Refusal :=
  let w := putBits 0x30000000 12 0 n.toNat
  .next (s.accessReg path .mqCmd k w fun s => s.wrMqCmd path k w)

def execMqReset (path : Path) (k : Fin 48) (s : State) : Host.Outcome State Fault Refusal :=
  .next (s.accessReg path .mqCmd k 0x40000000 fun s => s.wrMqCmd path k 0x40000000)

/-! ## Events -/

/-- A write of EVT_RAISE (R451). -/
def State.wrEvtRaise (s : State) (data : Word) : State := s.raise (F.evtRaise_src.of data)

def execEvtRaise (path : Path) (src : BitVec 9) (s : State) : Host.Outcome State Fault Refusal :=
  let w := BitVec.ofNat 32 src.toNat
  .next (s.accessReg path .evtRaise 0 w fun s => s.wrEvtRaise w)

/-- A write of EVT_ROUTE (R451, R454): only the loader, before the lock, routes an event to FAULT_N; after the lock such a route is
fixed. -/
def State.wrEvtRoute (s : State) (loader : Bool) (src : Nat) (data : Word) : State :=
  let locked := s.on F.glbSafeCfg_lock
  let toFault := F.evtRoute_dest.of data == 4
  let w := (mergeFields data Reg.evtRoute.info.fields (s.rd .evtRoute src, false)).1
  let fixed := s.fld F.evtRoute_dest src == 4 && locked && w != s.rd .evtRoute src
  if (toFault && (locked || !loader)) || fixed then s.accessErr .evt
  else (s.writeReg .evtRoute src data).settle

def execEvtRouteWrite (path : Path) (src : BitVec 9) (data : Word) (s : State) : Host.Outcome State Fault Refusal :=
  .next (s.accessReg path .evtRoute src.toNat data fun s => s.wrEvtRoute false src.toNat data)

/-- A write of EVT_STAT clears the bits written as 1 (R451). -/
def State.wrEvtStat (s : State) (g : Nat) (data : Word) : State := (s.writeReg .evtStat g data).settle

/-- The hold-off of a vector has ended: one message for a pending request (R453). -/
def execMsixHoldoffEnd (v : Fin 32) (s : State) : Host.Outcome State Fault Refusal :=
  .next (if (s.vec v).pending && !(s.vec v).masked && !s.vecHeld v then s.vecSend v else s)

/-- The mask of a vector is cleared (R453): one message for a pending request, unless the hold-off still runs. -/
def State.msixUnmask (s : State) (v : Nat) : State :=
  let s := s.setVec v { s.vec v with masked := false }
  if (s.vec v).pending && !s.vecHeld v then s.vecSend v else s

def execMsixUnmask (v : Fin 32) (s : State) : Host.Outcome State Fault Refusal := .next (s.msixUnmask v)

end Sys2Proof.Machine
end

