-- ==== Sys2Proof/Machine/TideOps.lean ====
section
/-! DEFINITION. Tide tables and stream gates: the schedule (R224, R225), the commit and the takeover (R226 to R231), and the
tests of whether a copy may start before a closing (R232, R234). -/

namespace Sys2Proof.Machine

open Sys2Proof

/-! ## Domain times -/

/-- Domain clock `d`. -/
def State.dom (s : State) (d : Nat) : Dom := tblGet s.tim.doms Dom.reset d

/-- Set domain clock `d`. -/
def State.setDom (s : State) (d : Nat) (x : Dom) : State :=
  { s with tim := { s.tim with doms := tblSet s.tim.doms Dom.reset d x } }

/-- The time of domain `d` in whole nanoseconds. -/
def State.domNs (s : State) (d : Nat) : Nat := (s.dom d).val / 2 ^ 48

/-- The smallest S + k * P that is at least `t`. -/
def firstTarget (start period t : Nat) : Nat :=
  if t ≤ start then start else start + (t - start + period - 1) / period * period

/-! ## The schedule (R224) -/

/-- The start of the cycle that holds a time. -/
def Sched.cycleAt (r : Sched) (t : Int) : Int := r.base + (t - r.base) / r.cycle * r.cycle

/-- The entry in force at an offset `o` of a cycle, and its start: `i` entries lie before, of `a` ns. The last entry stays to the
end of the cycle. -/
def entryIdx (o : Int) : Nat → Int → List (Nat × Nat × Nat) → Nat × Int
  | i, a, [] => (i, a)
  | i, a, [_] => (i, a)
  | i, a, e :: es => if o < a + e.2.1 then (i, a) else entryIdx o (i + 1) (a + e.2.1) es

/-- A window: the gates of the entry, its index, its start, and its end when it ends. -/
structure Window where
  gates : Nat
  idx   : Nat
  start : Int
  stop  : Option Int
  deriving DecidableEq, Repr

/-- The window of a schedule that holds a time. -/
def Sched.at (r : Sched) (t : Int) : Window :=
  let c := r.cycleAt t
  let e := entryIdx (t - c) 0 0 r.entries
  let stop := if e.1 + 1 < r.entries.length then c + e.2 + (r.entries.getD e.1 (0, 0, 0)).2.1 else c + r.cycle
  ⟨(r.entries.getD e.1 (0, 0, 0)).1, e.1, c + e.2, some stop⟩

/-- The last window of the cycle before the cycle start `k`, in force until the takeover at `c` (R228). -/
def Sched.lastOf (r : Sched) (k c : Int) : Window :=
  let w := r.at (k - 1)
  { w with stop := some c }

/-- The windows that will be in force: the running schedule, or the gates that hold without one; a pending schedule with its change
time, and the ns to add to a time to have it in the pending schedule's domain. -/
structure View where
  run   : Option Sched
  idle  : Nat
  pend  : Option (Sched × Int)
  shift : Int
  /-- start of the window for which `idle` stands in (R369) -/
  bad   : Option Int
  deriving DecidableEq, Repr

/-- The earlier of two ends. -/
def minStop : Option Int → Int → Option Int
  | some a, b => some (min a b)
  | none, b => some b

/-- The window that the schedules give a time (R224, R228). -/
def View.raw (v : View) (x : Int) : Window :=
  match v.pend, v.run with
  | some (q, c), r =>
    if c ≤ x then
      let w := q.at (x + v.shift)
      { w with start := w.start - v.shift, stop := w.stop.map fun e => e - v.shift }
    else match r with
      | none => ⟨v.idle, 0, x, some c⟩
      | some r =>
        let k := r.cycleAt c
        if c - k ≤ r.ext then
          if k ≤ x then r.lastOf k c
          else
            let w := r.at x
            { w with stop := minStop w.stop k }
        else
          let w := r.at x
          { w with stop := minStop w.stop c }
  | none, some r => r.at x
  | none, none => ⟨v.idle, 0, x, none⟩

/-- The window in force at a time. -/
def View.at (v : View) (x : Int) : Window :=
  let w := v.raw x
  if v.bad = some w.start then { w with gates := v.idle } else w

/-- A bit of a set of gates. -/
def gateBit (g c : Nat) : Bool := g / 2 ^ c % 2 == 1

/-- The first window from a time on of which `p` holds, within `fuel` windows. -/
def View.first (v : View) (p : Nat → Bool) : Nat → Int → Option Window
  | 0, _ => none
  | n + 1, x =>
    let w := v.at x
    if p w.gates then some { w with start := max w.start x }
    else match w.stop with
      | some e => View.first v p n e
      | none => none

/-- Windows enough for every entry of both schedules to come round. -/
def View.fuel (v : View) : Nat :=
  4 + 2 * (match v.run with
    | some r => r.entries.length + 1
    | none => 1) + 2 * (match v.pend with
    | some q => q.1.entries.length + 1
    | none => 1)

/-- The next time at which the gate of class `c`, open at `x`, closes (R232). -/
def View.closing (v : View) (c : Nat) (x : Int) : Option Int :=
  (v.first (fun g => !gateBit g c) v.fuel x).map Window.start

/-! ## Ports -/

/-- Port `p`. -/
def State.port (s : State) (p : Nat) : PortSt := tblGet s.net.ports PortSt.reset p

/-- Set port `p`. -/
def State.setPort (s : State) (p : Nat) (x : PortSt) : State :=
  { s with net := { s.net with ports := tblSet s.net.ports PortSt.reset p x } }

/-! ## Tide tables of ports -/

/-- The tide table of a port. -/
def State.tide (s : State) (p : Nat) : Tide := tblGet s.net.tides Tide.reset p

/-- Set the tide table of a port. -/
def State.setTide (s : State) (p : Nat) (t : Tide) : State :=
  { s with net := { s.net with tides := tblSet s.net.tides Tide.reset p t } }

/-- The port follows its operational table, not idle_gates (R230). -/
def State.tideRuns (s : State) (p : Nat) : Option Sched :=
  if p < 16 ∧ s.on F.tgaCfg_en p then
    (s.tide p).run.bind fun r => if s.on F.timDomCfg_en r.dom then some r else none
  else none

/-- The gates in force at a port. -/
def State.gatesNow (s : State) (p : Nat) : Nat :=
  if 16 ≤ p then 255
  else match s.tideRuns p with
    | some _ => (s.tide p).gates
    | none => s.fld F.tgaCfg_idle_gates p

/-- A class is gated at a port: its gate is 0 in at least one operational entry (R224). -/
def State.gated (s : State) (p c : Nat) : Bool := match (s.tide p).run with
  | some r => r.entries.any fun e => !gateBit e.1 c
  | none => false

/-- The domain whose time the windows of a tide table are told in: of its running schedule, else of its pending one. -/
def Tide.dom (t : Tide) : Nat := match t.run, t.pend with
  | some r, _ => r.dom
  | none, some q => q.1.dom
  | none, none => 0

/-- The windows ahead of a table whose gates are `idle` without a schedule. -/
def State.viewOf (s : State) (t : Tide) (idle : Nat) : View :=
  let sh (q : Sched) : Int := (s.domNs q.dom : Int) - s.domNs t.dom
  ⟨t.run, idle, t.pend.map fun q => (q.1, (q.2 : Int) - sh q.1), match t.pend with
    | some q => sh q.1
    | none => 0, t.bad⟩

/-- The windows ahead at a port. With en = 0 its gates are idle_gates for good. -/
def State.tideView (s : State) (p : Nat) : View :=
  let idle := s.fld F.tgaCfg_idle_gates p
  if s.on F.tgaCfg_en p then
    let t := s.tide p
    let v := s.viewOf t idle
    if (s.tideRuns p).isSome then v else { v with run := none }
  else ⟨none, idle, none, 0, none⟩

/-! ## Stream gates -/

/-- A stream gate at reset: open. -/
def gateReset : Tide := { Tide.reset with gates := 1 }

/-- Stream gate `g`. -/
def State.gate (s : State) (g : Nat) : Tide := tblGet s.net.gates gateReset g

/-- Set stream gate `g`. -/
def State.setGate (s : State) (g : Nat) (t : Tide) : State :=
  { s with net := { s.net with gates := tblSet s.net.gates gateReset g t } }

/-- The schedule that a stream gate follows: none while it has no operational list or its domain is off, when the gate
stands open (assumption 20). -/
def State.gateRuns (s : State) (g : Nat) : Option Sched :=
  (s.gate g).run.bind fun r => if s.on F.timDomCfg_en r.dom then some r else none

/-! ## Entries and takeovers -/

/-- Bring the entry in force to the domain time (R225). A new window counts its octets from 0. -/
def State.refresh (s : State) (t : Tide) : Tide :=
  match t.run with
  | none => t
  | some r =>
    let w := (s.viewOf t t.gates).at (s.domNs r.dom)
    let oct := if w.start = t.winAt ∧ w.idx = t.entry then t.octets else 0
    { t with entry := w.idx, gates := w.gates, winAt := w.start, octets := oct }

/-- The change time of the pending schedule has come. -/
def State.due (s : State) (t : Tide) : Bool := match t.pend with
  | some (q, c) => s.on F.timDomCfg_en q.dom && decide (c ≤ s.domNs q.dom)
  | none => false

/-- The takeover of a table (R228, R229): writes to the admin values stay closed for 4 us. -/
def State.takeOver (s : State) (t : Tide) : Tide :=
  match t.pend with
  | none => t
  | some (q, _) => s.refresh { t with run := some q, pend := none, busy := some (s.tim.lt + tkUs 4), winAt := -1 }

/-- The word of the tide-table memory of a port that holds entry `i` of the admin list, and of the operational list (assumption 18). -/
def tideAdminWord (i : Nat) : Nat := i
def tideOperWord (i : Nat) : Nat := 1024 + i

/-- Copies in transmission at a port whose gate is shut outlast it (R235). -/
def State.lateMark (s : State) (p : Nat) : State :=
  let x := s.port p
  if x.exp.isNone && x.pre.isNone then s
  else
    let mark (t : TxCopy) : TxCopy := if gateBit (s.gatesNow p) t.cp.cls then t else { t with late := true }
    s.setPort p { x with exp := x.exp.map mark, pre := x.pre.map mark }

/-- The takeover at a port: the list is written to the operational table, and back to the admin list (R228, R229). -/
def State.tideTakeover (s : State) (p : Nat) : State :=
  let n := match (s.tide p).pend with
    | some q => q.1.entries.length
    | none => 0
  let s := (List.range n).foldl (fun s i => (s.memWrite 5 p (tideOperWord i)).memWrite 5 p (tideAdminWord i)) s
  ((s.setTide p (s.takeOver (s.tide p))).lateMark p).raise (Ev.tideTakeover p)

/-- The takeover of a stream gate: its list enters the operational pool. -/
def State.gateTakeover (s : State) (g : Nat) : State :=
  let l := s.rd .schGateList g
  let b := s.fld F.schGateList_list_base g
  let s := (List.range (s.fld F.schGateList_list_len g)).foldl (fun s i =>
    (s.wr .schGateOper0 (b + i) (s.rd .schGateAdmin0 (b + i))).wr .schGateOper1 (b + i) (s.rd .schGateAdmin1 (b + i))) s
  let d := match (s.gate g).pend with
    | some q => q.1.dom
    | none => 0
  (s.setGate g (s.takeOver (s.gate g))).wr .schGateOper g (putBits l 31 30 d)

/-- The domain of a table's running schedule is `d`. -/
def Tide.runsOn (t : Tide) (d : Nat) : Bool := t.run.any fun r => r.dom == d

/-- The domain of a table's pending schedule is `d`. -/
def Tide.pendsOn (t : Tide) (d : Nat) : Bool := t.pend.any fun q => q.1.dom == d

/-- A set or step of domain `d` (R231). The deferrals before a closing of the old time are void. -/
def State.tideDomainJump (s : State) (d : Nat) : State :=
  let s := s.net.tides.foldl (fun s x =>
    let s := if x.2.dom = d then s.setPort x.1 { s.port x.1 with defer := [] } else s
    if x.2.pendsOn d && s.due x.2 then s.tideTakeover x.1
    else if x.2.runsOn d then (s.setTide x.1 (s.refresh x.2)).lateMark x.1 else s) s
  s.net.gates.foldl (fun s x =>
    if x.2.pendsOn d && s.due x.2 then s.gateTakeover x.1
    else if x.2.runsOn d then s.setGate x.1 (s.refresh x.2) else s) s

/-- The table of a port is discarded with what is pending, and the port goes idle (R230). TGA_STAT keeps its operational domain (R224). -/
def State.tideIdle (s : State) (p : Nat) : State :=
  let s := match (s.tide p).run with
    | some r => s.setFld F.tgaStat_oper_dom p r.dom
    | none => s
  let s := s.setTide p { Tide.reset with busy := (s.tide p).busy }
  (s.setFld F.tgaStat_idle p 1).raise (Ev.tideIdle p)

/-- Domain `d` is disabled (R230): tables that run on it are discarded with what is pending. -/
def State.tideDomainOff (s : State) (d : Nat) : State :=
  let s := s.net.tides.foldl (fun s x => if x.2.runsOn d then s.tideIdle x.1 else s) s
  s.net.gates.foldl (fun s x =>
    if x.2.runsOn d then (s.setGate x.1 { gateReset with busy := x.2.busy }).wr .schGateOper x.1 0 else s) s

/-! ## Commits (R226, R227, R229) -/

/-- The values of a commit are allowed (R226): list, base, cycle, extension, domain. -/
def State.schedOk (s : State) (n : Nat) (r : Sched) : Bool :=
  decide (1 ≤ n) && decide (n ≤ 1024) && (r.entries.all fun e => decide (20 ≤ e.2.1))
    && decide (r.entries.foldl (fun a e => a + e.2.1) 0 ≤ r.cycle) && decide (1000 ≤ r.cycle) && decide (r.cycle ≤ 1000000000)
    && decide (r.ext ≤ r.cycle) && s.on F.timDomCfg_en r.dom

/-- The earliest change time for a schedule: 2 us after the domain time, a fraction of a ns rounded up (R227). -/
def State.changeTime (s : State) (r : Sched) : Nat :=
  firstTarget r.base r.cycle (((s.dom r.dom).val + 2 ^ 48 - 1) / 2 ^ 48 + 2000)

/-- The admin values of a port. -/
def State.tideAdmin (s : State) (p : Nat) : Sched :=
  ⟨ptpNs (s.ptpRead .tgaAdminBase (3 * p)), (s.rd .tgaAdminCycle p).toNat, (s.rd .tgaAdminExt p).toNat, s.fld F.tgaCfg_dom p,
    (List.range (min 1024 (s.fld F.tgaAdminLen_list_len p))).map fun i =>
      (s.fld F.tgaAdminEntry_gates (1024 * p + i), s.fld F.tgaAdminEntry_interval_ns (1024 * p + i), 0)⟩

/-- A commit at a port. -/
def State.tideCommit (s : State) (p : Nat) : State :=
  let t := s.tide p
  if t.pend.isSome then s
  else
    let r := s.tideAdmin p
    if !s.schedOk (s.fld F.tgaAdminLen_list_len p) r then s.accessErr .tga
    else
      let c := s.changeTime r
      let s := s.setTide p { t with pend := some (r, c) }
      let s := s.ptpWrite .tgaChangeTime (3 * p) (ptpOf c)
      if c = r.base then s else s.setFld F.tgaStat_base_past p 1

/-- A write of TGA_CFG (R226 to R230): cancel comes before commit; a new dom while a takeover is pending is ignored. -/
def State.wrTgaCfg (s : State) (p : Nat) (data : Word) : State :=
  let waits := (s.tide p).pend.isSome
  let d := s.fld F.tgaCfg_dom p
  let s := s.writeReg .tgaCfg p data
  let s := if waits && s.fld F.tgaCfg_dom p != d then (s.setFld F.tgaCfg_dom p d).accessErr .tga else s
  let s := if F.tgaCfg_cancel.of data = 1 then s.setTide p { s.tide p with pend := none } else s
  if F.tgaCfg_commit.of data = 1 then (s.flushBlk .tga).tideCommit p else s

/-- Admin values are closed for writes (R229). -/
def State.tideClosed (s : State) (t : Tide) : Bool := t.pend.isSome || t.busy.any fun b => decide (s.tim.lt < b)

/-- A write of an admin register or entry of a port (R229). -/
def State.wrTideAdmin (s : State) (r : Reg) (i p : Nat) (data : Word) : State :=
  if s.tideClosed (s.tide p) then s.accessErr .tga
  else (if r = .tgaAdminEntry then s.memWrite 5 p (tideAdminWord (i % 1024)) else s).writeReg r i data

/-- A commit of TGA_ADMIN_BASE (R16, R17, R229). -/
def State.wrTideBase (s : State) (path : Path) (p : Nat) (ns : Word) : State :=
  let (v, s) := s.ptpTake path .tgaAdminBase (3 * p) ns
  match v with
  | none => s
  | some v => if s.tideClosed (s.tide p) then s.accessErr .tga else s.ptpWrite .tgaAdminBase (3 * p) v

/-- The admin values of a stream gate; none when its list overruns the pool. -/
def State.gateAdmin (s : State) (g : Nat) : Option Sched :=
  let b := s.fld F.schGateList_list_base g
  let n := s.fld F.schGateList_list_len g
  if 2048 < b + n then none
  else some ⟨ptpNs (s.ptpRead .schGateBase (3 * g)), (s.rd .schGateCycle g).toNat, 0, s.fld F.schGateCfg_domain g,
    (List.range n).map fun i =>
      (s.fld F.schGateAdmin0_open (b + i), s.fld F.schGateAdmin0_interval_ns (b + i), (s.rd .schGateAdmin1 (b + i)).toNat)⟩

/-- A commit of a stream gate (R190). -/
def State.gateCommit (s : State) (g : Nat) : State :=
  let t := s.gate g
  if t.pend.isSome then s
  else match s.gateAdmin g with
    | none => s.accessErr .sch
    | some r =>
      if !s.schedOk (s.fld F.schGateList_list_len g) r then s.accessErr .sch
      else s.setGate g { t with pend := some (r, s.changeTime r) }

/-- A write of SCH_GATE_CFG (R190, R191). -/
def State.wrGateCfg (s : State) (g : Nat) (data : Word) : State :=
  let waits := (s.gate g).pend.isSome
  let d := s.fld F.schGateCfg_domain g
  let s := s.writeReg .schGateCfg g data
  let s := if waits && s.fld F.schGateCfg_domain g != d then (s.setFld F.schGateCfg_domain g d).accessErr .sch else s
  if F.schGateCfg_commit.of data = 1 then (s.flushBlk .sch).gateCommit g else s

/-- Pool entry `i` belongs to the admin list of a stream gate whose admin values are closed. -/
def State.poolClosed (s : State) (i : Nat) : Bool :=
  s.net.gates.any fun x => s.tideClosed x.2 && decide (s.fld F.schGateList_list_base x.1 ≤ i)
    && decide (i < s.fld F.schGateList_list_base x.1 + s.fld F.schGateList_list_len x.1)

/-- A write of an admin register of a stream gate (R190, R229). -/
def State.wrGateAdmin (s : State) (r : Reg) (i g : Nat) (data : Word) : State :=
  if s.tideClosed (s.gate g) then s.accessErr .sch else s.writeReg r i data

/-- A write of the admin pool of the stream gates. -/
def State.wrGatePool (s : State) (r : Reg) (i : Nat) (data : Word) : State :=
  if s.poolClosed i then s.accessErr .sch else s.writeReg r i data

/-- A commit of the base time of a stream gate (R16, R17, R229). -/
def State.wrGateBase (s : State) (path : Path) (g : Nat) (ns : Word) : State :=
  let (v, s) := s.ptpTake path .schGateBase (3 * g) ns
  match v with
  | none => s
  | some v => if s.tideClosed (s.gate g) then s.accessErr .sch else s.ptpWrite .schGateBase (3 * g) v

/-! ## Commands -/

def execTideCommit (path : Path) (p : Fin 16) (data : Word) (s : State) : Host.Outcome State Fault Refusal :=
  .next (s.accessReg path .tgaCfg p data fun s => s.wrTgaCfg p data)

def execTideCancel (path : Path) (p : Fin 16) (data : Word) (s : State) : Host.Outcome State Fault Refusal :=
  .next (s.accessReg path .tgaCfg p data fun s => s.wrTgaCfg p data)

/-- The first tick at or after the change time (R228). -/
def execTideTakeover (p : Fin 16) (s : State) : Host.Outcome State Fault Refusal :=
  .next (if s.fabricOn && s.due (s.tide p) then s.tideTakeover p else s)

/-- The copy-back after a takeover ends (R229). -/
def execTideBusyEnd (p : Fin 16) (s : State) : Host.Outcome State Fault Refusal :=
  .next (s.setTide p { s.tide p with busy := none })

/-- The entry in force is read from its memory. A poisoned one is replaced by idle_gates for its window and rewritten from the admin list;
when the admin word is poisoned as well, the port goes idle (R369). -/
def State.tideCheck (s : State) (p : Nat) : State := match s.tideRuns p with
  | none => s
  | some r =>
    if s.memClean then s
    else
      let t := s.tide p
      let o := s.memRead 5 p (tideOperWord t.entry) .none 0
      if !o.2 then o.1
      else
        let a := o.1.memRead 5 p (tideAdminWord t.entry) .none 0
        if a.2 then a.1.tideIdle p
        else
          let k := 1024 * p + t.entry
          let e := (s.fld F.tgaAdminEntry_gates k, s.fld F.tgaAdminEntry_interval_ns k, 0)
          let r' := { r with entries := r.entries.set t.entry e }
          (a.1.memWrite 5 p (tideOperWord t.entry)).setTide p
            { t with run := some r', gates := s.fld F.tgaCfg_idle_gates p, bad := some t.winAt }

/-- A window of a port ends (R225). -/
def execTideEntryChange (p : Fin 16) (s : State) : Host.Outcome State Fault Refusal :=
  .next (if s.fabricOn then ((s.setTide p (s.refresh (s.tide p))).tideCheck p).lateMark p else s)

def execStreamGateCommit (path : Path) (g : Fin 256) (data : Word) (s : State) : Host.Outcome State Fault Refusal :=
  .next (s.accessReg path .schGateCfg g data fun s => s.wrGateCfg g data)

/-- The first tick at or after the change time of a stream gate (R190, R228). -/
def execStreamGateTakeover (g : Fin 256) (s : State) : Host.Outcome State Fault Refusal :=
  .next (if s.fabricOn && s.due (s.gate g) then s.gateTakeover g else s)

/-- A window of a stream gate ends (R190). -/
def execStreamGateEntryChange (g : Fin 256) (s : State) : Host.Outcome State Fault Refusal :=
  .next (if s.fabricOn then s.setGate g (s.refresh (s.gate g)) else s)

end Sys2Proof.Machine
end

