-- ==== Sys2Proof/Machine/TimeBase.lean ====
section
/-! DEFINITION. The time base: local time and domain clocks, snapshots, timestamp queues, capture inputs and periodic
outputs (R196 to R222). -/

namespace Sys2Proof.Machine

open Sys2Proof

/-! ## Domain clocks -/

/-- The sign of a slew remainder. -/
def slewSign (rem : Int) : Int := if rem = 0 then 0 else if rem < 0 then -1 else 1

/-- The advance of a domain in one tick, in units of 2^-48 ns: 1.25 * (1 + x * 2^-10 * 10^-9) ns rounded to the nearest,
where x is freq_adj plus the slew term (R197). The quotient is never halfway between two units. -/
def domIncr (x : Int) : Int := ((5 * 2 ^ 46 * (1024000000000 + x)) * 2 + 1024000000000) / 2048000000000

/-- One tick of domain `d` (R197, R200). -/
def Dom.tick (x : Dom) (freq : Int) (ppm : Nat) : Dom :=
  let sg := slewSign x.rem
  let v := x.val + (domIncr (freq + sg * ppm * 1024000)).toNat
  let r := x.rem - sg * ppm
  { x with val := v % (2 ^ 48 * 1000000000 * 2 ^ 48), rem := if slewSign r = sg then r else 0 }

/-- The first whole nanosecond at or after the time of a domain. -/
def State.domUp (s : State) (d : Nat) : Nat := ((s.dom d).val + 2 ^ 48 - 1) / 2 ^ 48

/-- The words of TIM_DOM_FREQ and TIM_DOM_SLEW_CFG under which a domain leaves a tick: a write of the tick rules from the next on (R198,
R200). -/
def State.domRates (s : State) (d : Nat) : Word × Word :=
  (tblGet s.tim.rates none d).getD (s.rd .timDomFreq d, s.rd .timDomSlewCfg d)

/-- A write of TIM_DOM_FREQ or TIM_DOM_SLEW_CFG: the domain leaves the tick under the words before it (R198, R200). -/
def State.wrDomRate (s : State) (r : Reg) (d : Nat) (data : Word) : State :=
  let was := s.domRates d
  let s := s.writeReg r d data
  { s with tim := { s.tim with rates := tblSet s.tim.rates none d (some was) } }

/-- One tick of all domains. -/
def State.tickDoms (s : State) : State :=
  let s := (List.range 4).foldl (fun s d =>
    if s.on F.timDomCfg_en d then
      s.setDom d ((s.dom d).tick (signed 32 (s.domRates d).1.toNat) (F.timDomSlewCfg_slew_ppm.of (s.domRates d).2))
    else s) s
  { s with tim := { s.tim with rates := [] } }

/-- The domains at the end of a tick are kept for 15 ticks, for the stamps of edges that are recognised later (R213). -/
def State.keepPast (s : State) : State :=
  { s with tim := { s.tim with past := (((List.range 4).map fun d => (s.dom d).val) :: s.tim.past).take 15 } }

/-- The value of a domain 15 ticks ago. -/
def State.domPast (s : State) (d : Nat) : Nat := match s.tim.past[14]? with
  | some l => l.getD d 0
  | none => (s.dom d).val

/-- LT advances by one tick, and the domains with it. -/
def State.tickTime (s : State) : State :=
  let t : State := { s with tim := { s.tim with lt := s.tim.lt + 1 } }
  t.tickDoms

/-! ## Periodic outputs -/

/-- Periodic output `m`. -/
def State.pps (s : State) (m : Nat) : Pps := tblGet s.tim.pps Pps.reset m

/-- Set periodic output `m`. -/
def State.setPps (s : State) (m : Nat) (x : Pps) : State :=
  { s with tim := { s.tim with pps := tblSet s.tim.pps Pps.reset m x } }

/-- A set or step of domain `d` ends an active pulse on it, and the next target is the first at or after the new time; a pending
schedule on it starts at no earlier target either (R220). -/
def State.ppsJump (s : State) (d : Nat) : State :=
  (List.range 2).foldl (fun s m =>
    let p := s.pps m
    let p := match p.run with
      | some r => if r.dom = d then { p with active := false, next := firstTarget r.start r.period (s.domUp d) } else p
      | none => p
    s.setPps m { p with pend := p.pend.map fun q =>
      if q.dom = d then { q with start := firstTarget q.start q.period (s.domUp d) } else q }) s

/-- The time of a domain changes discontinuously (R199): any slew is cancelled, step_count advances, outputs and tables of
the domain follow, and TIME_STEP rises. -/
def State.domJump (s : State) (d : Nat) (val : Nat) : State :=
  let s := s.setDom d ⟨val, 0, false⟩
  let s := s.setFld F.timDomStat_step_count d (s.fld F.timDomStat_step_count d + 1)
  let s := (s.ppsJump d).tideDomainJump d
  s.raise Ev.timeStep

/-- Where a set or step takes a domain, in 2^-48 ns. -/
def Jump.to (j : Jump) (val : Int) : Int := if j.set then j.ns * 2 ^ 48 else val + j.ns * 2 ^ 48

/-- A time that a domain can hold. -/
def domHolds (v : Int) : Bool := decide (0 ≤ v) && decide (v < 2 ^ 48 * 1000000000 * 2 ^ 48)

/-- A set or step that was committed in an earlier tick takes effect: the events of the tick after the commit have met the time before
it. A step that would take the domain out of range now is ignored (R199). -/
def State.applyJump (s : State) (j : Jump) : State :=
  let v := j.to (s.dom j.dom).val
  if domHolds v then s.domJump j.dom v.toNat else s.accessErr .tim

/-- The sets and steps that take effect as LT leaves a tick. -/
def State.applyJumps (s : State) : State :=
  let l := s.tim.jumps
  let s : State := { s with tim := { s.tim with jumps := l.filter fun j => !decide (j.at_ < s.tim.lt) } }
  (l.filter fun j => decide (j.at_ < s.tim.lt)).foldl State.applyJump s

/-- A set or step is committed. -/
def State.domCommit (s : State) (d : Nat) (set : Bool) (ns : Int) : State :=
  { s with tim := { s.tim with jumps := s.tim.jumps ++ [⟨s.tim.lt, d, set, ns⟩] } }

/-- A write of TIM_DOM_CFG (R211, R230): ignored as a whole when two enabled domains would share ptp_dom. -/
def State.wrDomCfg (s : State) (d : Nat) (data : Word) : State :=
  let w := (mergeFields data Reg.timDomCfg.info.fields (s.rd .timDomCfg d, false)).1
  let clash := F.timDomCfg_en.of w != 0 && (List.range 4).any fun e =>
    e != d && s.on F.timDomCfg_en e && s.fld F.timDomCfg_ptp_dom e == F.timDomCfg_ptp_dom.of w
  if clash then s.accessErr .tim
  else
    let was := s.on F.timDomCfg_en d
    let s := s.writeReg .timDomCfg d data
    if was && !s.on F.timDomCfg_en d then s.tideDomainOff d else s

/-- A commit of TIM_DOM_SET (R16, R17, R199). -/
def State.wrDomSet (s : State) (p : Path) (d : Nat) (ns : Word) : State :=
  let (v, s) := s.ptpTake p .timDomSet (3 * d) ns
  match v with
  | none => s
  | some v => (s.ptpWrite .timDomSet (3 * d) v).domCommit d true (ptpNs v)

/-- The value of a domain once the sets and steps that are committed have taken effect. -/
def State.domNext (s : State) (d : Nat) : Int :=
  (s.tim.jumps.filter fun j => j.dom == d).foldl (fun v j => j.to v) ((s.dom d).val : Int)

/-- A commit of TIM_DOM_STEP (R14, R199): its range is tested on the time that the commits before it leave. -/
def State.wrDomStep (s : State) (p : Path) (d : Nat) (lo : Word) : State :=
  let (hi, s) := s.unstage p (Reg.timDomStep.addr (2 * d) + 4) (s.rd .timDomStep (2 * d + 1))
  let s := (s.wr .timDomStep (2 * d) lo).wr .timDomStep (2 * d + 1) hi
  let step : Int := (BitVec.ofNat 64 (hi.toNat * 4294967296 + lo.toNat)).toInt
  if step.natAbs < 2 ^ 62 ∧ domHolds (s.domNext d + step * 2 ^ 48) then s.domCommit d false step
  else s.accessErr .tim

/-- A write of TIM_DOM_SLEW starts a slew and replaces any slew in progress (R200). -/
def State.wrDomSlew (s : State) (d : Nat) (amount : Word) : State :=
  let a := amount.toInt
  s.setDom d { s.dom d with rem := a * 800000, slewing := a != 0 }

/-- Copy LT and the four domains into the snapshot registers (R201). -/
def State.snapshot (s : State) : State :=
  let s := s.wr .timSnapLt 0 (BitVec.ofNat 32 s.ltNs)
  let s := s.wr .timSnapLt 1 (BitVec.ofNat 32 (s.ltNs / 4294967296))
  (List.range 4).foldl (fun s d => s.ptpWrite .timSnapDom (3 * d) (ptpOf (s.domNs d))) s

/-- A write of TIM_CTRL. -/
def State.wrTimCtrl (s : State) (data : Word) : State :=
  if F.timCtrl_snap.of data = 1 then s.snapshot else s

def execDomainCfgWrite (path : Path) (d : Fin 4) (data : Word) (s : State) : Host.Outcome State Fault Refusal :=
  .next (s.accessReg path .timDomCfg d data fun s => s.wrDomCfg d data)

def execDomainFreqWrite (path : Path) (d : Fin 4) (data : Word) (s : State) : Host.Outcome State Fault Refusal :=
  .next (s.accessReg path .timDomFreq d data fun s => s.wrDomRate .timDomFreq d data)

def execDomainSet (path : Path) (d : Fin 4) (ns : Word) (s : State) : Host.Outcome State Fault Refusal :=
  .next (s.accessReg path .timDomSet (3 * d) ns fun s => s.wrDomSet path d ns)

def execDomainStep (path : Path) (d : Fin 4) (lo : Word) (s : State) : Host.Outcome State Fault Refusal :=
  .next (s.accessReg path .timDomStep (2 * d) lo fun s => s.wrDomStep path d lo)

def execDomainSlewStart (path : Path) (d : Fin 4) (amount : Word) (s : State) : Host.Outcome State Fault Refusal :=
  .next (s.accessReg path .timDomSlew d amount fun s => s.wrDomSlew d amount)

def execSlewRateWrite (path : Path) (d : Fin 4) (data : Word) (s : State) : Host.Outcome State Fault Refusal :=
  .next (s.accessReg path .timDomSlewCfg d data fun s => s.wrDomRate .timDomSlewCfg d data)

/-- The slew of a domain whose remainder has reached or crossed zero ends (R200). -/
def execSlewEnd (d : Fin 4) (s : State) : Host.Outcome State Fault Refusal :=
  .next (if (s.dom d).slewing && (s.dom d).rem == 0 then s.setDom d { s.dom d with slewing := false } else s)

def execTimeSnapshot (path : Path) (s : State) : Host.Outcome State Fault Refusal :=
  .next (s.accessReg path .timCtrl 0 0x80000000 fun s => s.snapshot)

/-! ## Timestamp records -/

/-- A time of 2^-48 ns units rounded to the nearest 2^-16 ns (R207). -/
def round16 (v : Nat) : Nat := (v + 2 ^ 31) / 2 ^ 32

/-- Words 1 to 3 of a record: a domain time in units of 2^-16 ns (R207). -/
def domWords (v16 : Nat) : List Word :=
  let p := ptpOf (v16 / 65536)
  [p.1, p.2.1, BitVec.ofNat 32 (v16 % 65536 * 65536 + p.2.2.toNat)]

/-- Words 4 to 6 of a record: an LT in units of 2^-16 ns (R207). -/
def ltWords (v16 : Nat) : List Word :=
  let ns := v16 / 65536
  [BitVec.ofNat 32 ns, BitVec.ofNat 32 (ns / 4294967296), BitVec.ofNat 32 (v16 % 65536 * 65536)]

/-- LT of a number of ticks in units of 2^-16 ns. -/
def lt16 (ticks : Nat) : Nat := ticks * 81920

/-- The transmit-timestamp queue of a port. -/
def State.txts (s : State) (p : Nat) : List Rec8 := tblGet s.tim.txts [] p

/-- Set the transmit-timestamp queue of a port. -/
def State.setTxts (s : State) (p : Nat) (q : List Rec8) : State :=
  { s with tim := { s.tim with txts := tblSet s.tim.txts [] p q } }

/-- Append an entry to a transmit-timestamp queue, or discard it when the queue is full (R208, R209). -/
def State.txtsAppend (s : State) (p : Nat) (r : Rec8) : State :=
  if (s.txts p).length < 16 then
    let s := s.itemWrite (txtsWord p (tblGet s.tim.heads 0 p + (s.txts p).length)) 4
    (s.setTxts p (s.txts p ++ [r])).bump .timTxtsTaken p
  else (s.bump .timTxtsDrop p).raise (Ev.txtsOvf p)

/-- The head of a transmit-timestamp queue leaves it. -/
def State.txtsDrop (s : State) (p : Nat) : State :=
  let s := s.setTxts p ((s.txts p).drop 1)
  { s with tim := { s.tim with heads := tblSet s.tim.heads 0 p ((tblGet s.tim.heads 0 p + 1) % 16) } }

/-- A transmit-timestamp queue without the poisoned items at its head, at most `fuel`: each is discarded (R369). -/
def State.txtsFront (s : State) : Nat → Nat → State
  | 0, _ => s
  | fuel + 1, p =>
    if s.memClean || (s.txts p).isEmpty then s
    else
      let r := s.itemRead (txtsWord p (tblGet s.tim.heads 0 p)) 4
      if r.2 then ((r.1.txtsDrop p).bump .memPoisonDrop).txtsFront fuel p else r.1

/-- A pop of a transmit-timestamp queue (R210): only on the owner's path, and only when the queue holds an entry. -/
def State.txtsPop (s : State) (path : Path) (p : Nat) : State :=
  let ownerHost := s.on F.timPortCfg_owner p
  let s := s.txtsFront 16 p
  if (path != .fw) == ownerHost && (s.txts p) != [] then s.txtsDrop p else s.accessErr .tim

def execTxtsPop (path : Path) (p : Fin 16) (data : Word) (s : State) : Host.Outcome State Fault Refusal :=
  .next (s.accessReg path .timTxtsPop p data fun s => if F.timTxtsPop_pop.of data = 1 then s.txtsPop path p else s)

/-! ## Capture inputs -/

/-- Capture input `n`. -/
def State.tsc (s : State) (n : Nat) : Tsc := tblGet s.tim.tsc Tsc.reset n

/-- Set capture input `n`. -/
def State.setTsc (s : State) (n : Nat) (x : Tsc) : State :=
  { s with tim := { s.tim with tsc := tblSet s.tim.tsc Tsc.reset n x } }

/-- The configuration and the storm word under which an input works in this tick: a write takes effect at the tick after it (R217). -/
def State.tscCfg (s : State) (n : Nat) : Word := match (s.tsc n).old with
  | some (w, _, t) => if t = s.tim.lt then w else s.rd .timTscCfg n
  | none => s.rd .timTscCfg n
def State.tscStorm (s : State) (n : Nat) : Word := match (s.tsc n).old with
  | some (_, w, t) => if t = s.tim.lt then w else s.rd .timTscStorm n
  | none => s.rd .timTscStorm n

/-- A change of configuration that an earlier tick wrote has taken effect: en = 0 has discarded the record that was open, and an input
that was enabled has its first storm window (R215, R217). -/
def State.tscSettle (s : State) (n : Nat) : State :=
  let x := s.tsc n
  match x.old with
  | some (w, _, t) =>
    if t < s.tim.lt then
      let x := { x with old := none }
      s.setTsc n (if !s.on F.timTscCfg_en n then { x with openRec := none, closing := none }
        else if F.timTscCfg_en.of w = 0 then { x with winStart := t + 1, winCnt := 0 } else x)
    else s
  | none => s

/-- The eight words of a capture record (R217). -/
def TscOpen.words (r : TscOpen) (lostBefore : Bool) (seq : Nat) : Rec8 :=
  let w0 := putBits (putBits (putBits (putBits (putBits (putBits 0 31 31 1) 30 30 r.rising.toNat) 29 29
    (if r.merge = 0 then 0 else 1)) 28 28 r.level.toNat) 27 27 lostBefore.toNat) 23 16 r.merge
  w0 :: domWords (round16 r.domVal) ++ (ltWords (lt16 r.ltTick)).take 2 ++ [BitVec.ofNat 32 seq, 0]

/-- The record of an input that closes next. -/
def Tsc.oldest (t : Tsc) : Option TscOpen := t.closing.orElse fun _ => t.openRec

/-- Close the oldest record of an input: it enters the FIFO, or is discarded when the FIFO is full (R214, R216). -/
def State.tscClose (s : State) (n : Nat) : State :=
  let t := s.tsc n
  match t.oldest with
  | none => s
  | some r =>
    let t := { t with openRec := if t.closing.isSome then t.openRec else none, closing := none, seq := (t.seq + 1) % 4294967296 }
    if t.fifo.length < 16 then
      (s.itemWrite (tscWord n (t.head + t.fifo.length)) 4).setTsc n { t with fifo := t.fifo ++ [r.words t.lost ((s.tsc n).seq)], lost := false }
    else ((s.setTsc n { t with lost := true }).bump .timTscOvf n).raise (Ev.tscOvf n)

/-- The storm window that holds the present tick (R215). -/
def State.tscRoll (s : State) (n : Nat) : State :=
  let w := tkUs (F.timTscStorm_storm_win_us.of (s.tscStorm n))
  let t := s.tsc n
  if t.winStart + w ≤ s.tim.lt then
    s.setTsc n { t with winStart := t.winStart + (s.tim.lt - t.winStart) / w * w, winCnt := 0 }
  else s

/-- The stamp of an edge that is recognised now: the tick at which its level was first sampled, the 16th from the end (R213). -/
def State.edgeTick (s : State) : Nat := s.tim.lt - 15

/-- A selected edge is captured: it joins the open record or opens one, by its stamp (R214). A record whose window has ended stays until it
closes. -/
def State.tscCapture (s : State) (n : Nat) (rising : Bool) : State :=
  let s := s.bump .timTscEdges n
  let d := F.timTscCfg_dom.of (s.tscCfg n)
  let fresh : TscOpen := ⟨s.edgeTick, d, s.domPast d, rising, 0, rising⟩
  match (s.tsc n).openRec with
  | none => s.setTsc n { s.tsc n with openRec := some fresh }
  | some r =>
    if s.edgeTick < r.ltTick + 80 then
      (s.setTsc n { s.tsc n with openRec := some { r with merge := min 255 (r.merge + 1) } }).bump .timTscMerged n
    else
      let s := if (s.tsc n).closing.isSome then s.tscClose n else s
      if r.ltTick + 96 ≤ s.tim.lt then
        let s := s.tscClose n
        s.setTsc n { s.tsc n with openRec := some fresh }
      else s.setTsc n { s.tsc n with openRec := some fresh, closing := some r }

/-- The recognised level of an input changes; an open record whose window ran when it was first sampled takes the level (R214). -/
def State.tscLevel (s : State) (n : Nat) (rising : Bool) : State :=
  let t := s.tsc n
  let r := t.openRec.map fun r => if s.edgeTick < r.ltTick + 80 then { r with level := rising } else r
  s.setTsc n { t with level := rising, openRec := r, levelAt := some s.tim.lt }

/-- A capture input recognises an edge (R212 to R215). -/
def State.tscEdge (s : State) (n : Nat) (rising : Bool) : State :=
  let w := s.tscCfg n
  let sel := getBit w (if rising then 29 else 30)
  if F.timTscCfg_en.of w = 0 || s.on F.timTscStat_locked n || !sel then s.tscLevel n rising
  else
    let s := s.tscRoll n
    let cnt := (s.tsc n).winCnt + 1
    let mx := F.timTscStorm_storm_max.of (s.tscStorm n)
    if mx ≠ 0 ∧ mx < cnt then
      let s := (s.setTsc n { s.tsc n with winCnt := cnt }).setFld F.timTscStat_locked n 1
      ((s.tscLevel n rising).bump .timTscLockouts n).raise (Ev.tscLockout n)
    else
      let s := s.setTsc n { s.tsc n with winCnt := cnt }
      (s.tscCapture n rising).tscLevel n rising

/-- The ball of a capture input has been sampled at a level on a number of consecutive ticks, this one the last (R212): a level that 16
consecutive ticks have sampled is recognised, and a change of the recognised level is an edge. The 16 ticks lie after the tick at which the
level before was recognised. Nothing is sampled while the fabric clock stands (R221). -/
def execTscEdge (n : Fin 8) (rising : Bool) (s : State) (ticks : Nat := 16) : Host.Outcome State Fault Refusal :=
  .next (if !s.fabricOn || decide (ticks < 16) || decide (s.tim.lt < 15) || (s.tsc n).levelAt.any (fun t => decide (s.tim.lt < t + 16))
      || (s.tsc n).level == rising then s
    else (s.tscSettle n).tscEdge n rising)

/-- 120 ns after its first edge a record closes (R214). -/
def execTscRecordClose (n : Fin 8) (s : State) : Host.Outcome State Fault Refusal :=
  let s := s.tscSettle n
  .next (match (s.tsc n).oldest with
    | some r => if r.ltTick + 96 ≤ s.tim.lt then s.tscClose n else s
    | none => s)

def execTscStormWindowEnd (n : Fin 8) (s : State) : Host.Outcome State Fault Refusal :=
  let s := s.tscSettle n
  .next (if F.timTscCfg_en.of (s.tscCfg n) = 1 && !s.on F.timTscStat_locked n then s.tscRoll n else s)

/-- A write of TIM_TSC_STAT: a 1 to locked re-arms the input (R215). -/
def State.wrTscStat (s : State) (n : Nat) (data : Word) : State :=
  let s := s.tscSettle n
  if F.timTscStat_locked.of data = 1 ∧ s.on F.timTscStat_locked n then
    (s.setFld F.timTscStat_locked n 0).setTsc n { s.tsc n with winStart := s.tim.lt, winCnt := 0 }
  else s

def execTscRearm (path : Path) (n : Fin 8) (data : Word) (s : State) : Host.Outcome State Fault Refusal :=
  .next (s.accessReg path .timTscStat n data fun s => s.wrTscStat n data)

/-- The head of a capture FIFO leaves it. -/
def State.tscDrop (s : State) (n : Nat) : State :=
  s.setTsc n { s.tsc n with fifo := (s.tsc n).fifo.drop 1, head := ((s.tsc n).head + 1) % 16 }

/-- A capture FIFO without the poisoned items at its head, at most `fuel`: each is discarded (R369). -/
def State.tscFront (s : State) : Nat → Nat → State
  | 0, _ => s
  | fuel + 1, n =>
    if s.memClean || (s.tsc n).fifo.isEmpty then s
    else
      let r := s.itemRead (tscWord n (s.tsc n).head) 4
      if r.2 then ((r.1.tscDrop n).bump .memPoisonDrop).tscFront fuel n else r.1

/-- A write of TIM_TSC_POP (R217). -/
def State.wrTscPop (s : State) (n : Nat) (data : Word) : State :=
  if F.timTscPop_pop.of data = 0 then s
  else
    let s := s.tscFront 16 n
    if (s.tsc n).fifo = [] then s.accessErr .tim else s.tscDrop n

def execTscPop (path : Path) (n : Fin 8) (data : Word) (s : State) : Host.Outcome State Fault Refusal :=
  .next (s.accessReg path .timTscPop n data fun s => s.wrTscPop n data)

/-- A write of TIM_TSC_CFG or TIM_TSC_STORM (R215, R217): the input works under the words before it for the rest of the tick. -/
def State.wrTscReg (s : State) (r : Reg) (n : Nat) (data : Word) : State :=
  let s := s.tscSettle n
  let was := (s.rd .timTscCfg n, s.rd .timTscStorm n, s.tim.lt)
  let s := s.writeReg r n data
  s.setTsc n { s.tsc n with old := (s.tsc n).old.orElse fun _ => some was }

/-- A write of TIM_TSC_CFG. -/
def State.wrTscCfg (s : State) (n : Nat) (data : Word) : State := s.wrTscReg .timTscCfg n data

def execTscCfgWrite (path : Path) (n : Fin 8) (data : Word) (s : State) : Host.Outcome State Fault Refusal :=
  .next (s.accessReg path .timTscCfg n data fun s => s.wrTscCfg n data)

/-! ## Commits and edges of the periodic outputs -/

/-- The schedule in the registers of an output is in range (R218, R219). -/
def State.ppsValid (s : State) (m : Nat) : Bool :=
  let p := (s.rd .timPpsPeriod m).toNat
  let w := (s.rd .timPpsWidth m).toNat
  decide ((s.rd .timPpsStart (3 * m)).toNat < 1000000000) && decide (100 ≤ p) && decide (p ≤ 4000000000)
    && decide (20 ≤ w) && decide (w + 20 ≤ p)

/-- A commit of an output schedule (R219). -/
def State.ppsCommit (s : State) (m : Nat) : State :=
  let p := s.pps m
  if p.pend.isSome then s
  else if !s.ppsValid m then s.accessErr .tim
  else
    let d := s.fld F.timPpsCfg_dom m
    let st := ptpNs (s.ptpRead .timPpsStart (3 * m))
    let per := (s.rd .timPpsPeriod m).toNat
    let late := decide (st < s.domUp d + 1000)
    let st := if late then firstTarget st per (s.domUp d + 1000) else st
    let s := s.setPps m { p with pend := some ⟨st, per, (s.rd .timPpsWidth m).toNat, d⟩ }
    if late then s.setFld F.timPpsStat_late m 1 else s

/-- A write of TIM_PPS_CFG (R218, R219): en = 0 cancels a pending commit and rests the output. -/
def State.wrPpsCfg (s : State) (m : Nat) (data : Word) : State :=
  let was := s.on F.timPpsCfg_en m
  let s := s.writeReg .timPpsCfg m data
  if !s.on F.timPpsCfg_en m then s.setPps m { s.pps m with pend := none, active := false }
  else
    let s := match was, (s.pps m).run with
      | false, some r => s.setPps m { s.pps m with next := firstTarget r.start r.period (s.domUp r.dom) }
      | _, _ => s
    if F.timPpsCfg_commit.of data = 1 then s.ppsCommit m else s

def execPpsCommit (path : Path) (m : Fin 2) (data : Word) (s : State) : Host.Outcome State Fault Refusal :=
  .next (s.accessReg path .timPpsCfg m data fun s => s.wrPpsCfg m data)

/-- The level that PPS_OUTm drives: the active level during a pulse, the inactive one otherwise (R218); low while RST_N is low, in BOOT
until the output is enabled, and in STANDBY and SLEEP (R221). -/
def State.ppsLevel (s : State) (m : Nat) : Bool :=
  let on := s.on F.timPpsCfg_en m
  !s.phys.rstLow && (s.op == .run || s.op == .minimal || (s.op == .boot && on))
    && ((on && (s.pps m).active) != s.on F.timPpsCfg_pol m)

/-- A target is reached: the pending schedule takes over with its first active edge, or the running schedule drives its
next one, up to but excluding the pending start, whatever domain either follows (R218, R219). -/
def State.ppsEdge (s : State) (m : Nat) : State :=
  let p := s.pps m
  if !s.fabricOn || !s.on F.timPpsCfg_en m then s
  else match p.pend, p.run with
    | some q, r =>
      if q.start ≤ s.domNs q.dom then
        (s.setPps m ⟨some q, none, q.start + q.period, true, q.start⟩).bump .timPpsEdges m
      else match r with
        | some r =>
          if p.next ≤ s.domNs r.dom then
            (s.setPps m { p with next := p.next + r.period, active := true, began := p.next }).bump .timPpsEdges m
          else s
        | none => s
    | none, some r =>
      if p.next ≤ s.domNs r.dom then
        (s.setPps m { p with next := p.next + r.period, active := true, began := p.next }).bump .timPpsEdges m
      else s
    | none, none => s

def execPpsEdge (m : Fin 2) (s : State) : Host.Outcome State Fault Refusal := .next (s.ppsEdge m)

/-- A pulse that has been active for W ends (R218). -/
def execPpsPulseEnd (m : Fin 2) (s : State) : Host.Outcome State Fault Refusal :=
  .next (match (s.pps m).run with
    | some r =>
      if (s.pps m).active && decide ((s.pps m).began + r.width ≤ s.domNs r.dom) then
        s.setPps m { s.pps m with active := false }
      else s
    | none => s)

end Sys2Proof.Machine
end

