-- ==== Sys2Proof/Machine/NetOps.lean ====
section
/-! DEFINITION. The shared operations of the switching side: tables with their copies, hashes, ports, frames, queues,
occupancy and admission (R80 to R82, R130, R167 to R177). -/

namespace Sys2Proof.Machine

open Sys2Proof

/-! ## Tables -/

/-- The active epoch (R54, R410). -/
def State.epoch (s : State) : Nat := s.bcr.epoch

/-- The entries of a table that are not as after reset, from index `lo` up to but excluding `hi`. -/
def State.listed (s : State) (id par lo hi : Nat) : List (Nat × List Word) :=
  let b := tabKey id par 0
  s.net.tabs.filterMap fun x => if b + lo ≤ x.1 ∧ x.1 < b + hi then some (x.1 - b, x.2) else none

/-- The first entry of a hash table for which `p` holds, in its bucket's ways or in its overflow store (R82). -/
def State.probe (s : State) (id base bucket ovf cnt : Nat) (p : List Word → Bool) : Option (Nat × List Word) :=
  let ways := (List.range 4).map fun w => (base + bucket * 4 + w, s.ent id 0 (base + bucket * 4 + w))
  (ways ++ s.listed id 0 ovf (ovf + cnt)).find? fun x => p x.2

/-- The entry that an insertion takes: the lowest free way, else the lowest free overflow entry (R82). -/
def State.freeEnt (s : State) (id base bucket ovf cnt : Nat) (used : List Word → Bool) : Option Nat :=
  match (List.range 4).find? fun w => !used (s.ent id 0 (base + bucket * 4 + w)) with
  | some w => some (base + bucket * 4 + w)
  | none =>
    let l := (s.listed id 0 ovf (ovf + cnt)).filter fun x => used x.2
    ((List.range (l.length + 1)).find? fun n => !l.any fun x => x.1 == ovf + n).bind fun n =>
      if n < cnt then some (ovf + n) else none

/-- A table's ep_mask holds the bit of a parity. -/
def epHas (mask par : Nat) : Bool := mask / 2 ^ (par % 2) % 2 == 1

/-- The CRC-32C of R80: most significant bit first, no final inversion. -/
def crcHash (seed : Nat) (bs : List Byte) : Nat :=
  bs.foldl (fun r b => (List.range 8).foldl (fun r _ => crcLeftBit 32 0x1EDC6F41 r) (r ^^^ (b.toNat * 16777216))) seed

/-- Read an entry on behalf of a frame or command: the state, the entry, and whether it failed its check, as R358, R359
and R367 decide. `src` is the source code of the error logs. -/
def State.readEnt (s : State) (id par n src : Nat) : State × List Word × Bool :=
  let e := s.ent id par n
  if s.memClean && s.mem.parity.isEmpty then (s, e, false)
  else
    let m := tabMem id
    let k := tabPos id par n
    if memParity m.1 then
      let s := s.probeEntry m.1 (m.2 + k) .none src
      (s, e, s.parityBad m.1 (m.2 + k))
    else
      let r := s.wordsRead m.1 0 (m.2 + k * tabSize id / 2) (max 1 (tabSize id / 2)) src
      (r.1, r.1.ent id par n, r.2)

/-- The first 64 bits of an entry with the data mask applied. -/
def State.flipEnt (s : State) (e : List Word) : List Word :=
  (e.set 0 (ew e 0 ^^^ s.rd .memFlipD 0)).set 1 (ew e 1 ^^^ s.rd .memFlipD 1)

/-- Write an entry: a full write replaces an error of its words (R359, R371) and ends a repair (R367). The flip mask changes the data of
an entry of a parity memory. -/
def State.writeEnt (s : State) (id par n : Nat) (e : List Word) : State :=
  let m := tabMem id
  let k := tabPos id par n
  let e := if memParity m.1 && s.flipArmed m.1 0 (· == m.2 + k) then s.flipEnt e else e
  let s := if memParity m.1 then s.memWrite m.1 0 (m.2 + k)
    else (List.range (max 1 (tabSize id / 2))).foldl (fun s i => s.memWrite m.1 0 (m.2 + k * tabSize id / 2 + i)) s
  s.setEnt id par n e

/-- Delete an entry. What stands at its index later has no golden origin until the loader writes it (R367). -/
def State.delEnt (s : State) (id par n : Nat) : State :=
  let s := s.writeEnt id par n (tabDefault id)
  { s with net := { s.net with golden := tblDel s.net.golden (tabKey id par n) } }

/-- The entries that a probe of a hash table reads: the ways of a bucket and the listed entries of the overflow store. -/
def State.probed (s : State) (id base bucket ovf cnt : Nat) : List Nat :=
  ((List.range 4).map fun w => base + bucket * 4 + w) ++ (s.listed id 0 ovf (ovf + cnt)).map Prod.fst

/-- Read the probed entries: the state, the entries that pass their check, and those that fail it. -/
def State.readAll (s : State) (id par src : Nat) (idx : List Nat) : State × List (Nat × List Word) × List Nat :=
  idx.foldl (fun a n =>
    let r := a.1.readEnt id par n src
    if r.2.2 then (r.1, a.2.1, a.2.2 ++ [n]) else (r.1, a.2.1 ++ [(n, r.2.1)], a.2.2)) (s, [], [])

/-- A frame needs an entry of a configuration table: none when it is poisoned and the frame is dropped (R369). -/
def State.cfgEnt (s : State) (id par n : Nat) : State × Option (List Word) :=
  let r := s.readEnt id par n 0
  if r.2.2 then (r.1.bump .memPoisonDrop, none) else (r.1, some r.2.1)

/-! ## Registers with one copy per parity (R130) -/

/-- The register has one copy per epoch parity. -/
def parReg (r : Reg) : Bool := [Reg.clsDscpMap, .clsPrioCfg, .fdbPortCfg, .fdbFloodMask, .qmgClassMap].contains r

/-- The value of a register for a frame of an epoch: the active copy, or the other one. -/
def State.rdEp (s : State) (r : Reg) (i epoch : Nat) : Word :=
  if epoch % 2 = s.epoch % 2 then s.rd r i else tblGet s.net.shadow (r.reset i) (regKey r i)

/-- A field of a register for a frame of an epoch. -/
def State.fldEp (s : State) (f : RegField) (i epoch : Nat) : Nat := getBits (s.rdEp f.reg i epoch) f.hi f.lo

/-- Write the shadow copy of a register. -/
def State.wrShadow (s : State) (r : Reg) (i : Nat) (w : Word) : State :=
  { s with net := { s.net with shadow := tblSet s.net.shadow (r.reset i) (regKey r i) w } }

/-! ## Ports -/

/-- The link of a port is up (R174, R461): always on P17, and as host_en on P16. -/
def State.linkUp (s : State) (p : Nat) : Bool :=
  if p = 17 then true else if p = 16 then s.on F.qmgPortLim_host_en 16 else s.on F.macPortStat_link_up p

/-- The rate in kbit/s of a mode of a port (R19, R461); SGMII runs at 1 Gbit/s (assumption 16). -/
def modeRate (p mode : Nat) : Nat :=
  if p < 4 then (if mode = 0 then 10000000 else if mode = 1 then 5000000 else 2500000)
  else if p < 12 then (if mode = 0 then 1000000 else 100000)
  else if p < 14 then 10000
  else if p < 16 then (if mode = 2 then 1000000 else 10000000)
  else if p = 16 then 25000000
  else 10000000

/-- The operational rate of a port in kbit/s (R37). -/
def State.operRate (s : State) (p : Nat) : Nat := modeRate p (s.fld F.macPortStat_oper_mode p)

/-- The rate in kbit/s of the mode that a port's registers select: the declared rate where they are those of a set. -/
def State.declRate (s : State) (p : Nat) : Nat := modeRate p (s.fld F.macPortCfg_mode p)

/-- The port has a receive SecY in service (R275, R277). -/
def State.secyRx (s : State) (p : Nat) : Bool := secyPort p && s.on F.cipSecyCfg_en p

/-- The port protects what it transmits. -/
def State.secyTx (s : State) (p : Nat) : Bool := secyPort p && s.on F.cipSecyCfg_protect p

/-- O_e and O_i of a port (R178, R179). -/
def State.lenOvh (s : State) (p : Nat) : Int := if p < 18 then signed 8 (s.fld F.schPortCfg_len_ovh p) else 0

/-- QUIET and LINK_DOWN stop all transmission, and what is admitted afterwards is dropped at admission (R336). -/
def State.quiet (s : State) : Bool := match s.pair.safe with
  | some .quiet => true
  | some .linkDown => true
  | _ => false

/-- The pair port (R344). -/
def State.pairPort (s : State) : Nat := if s.on F.redCfg_pair_port then 15 else 14

/-- The device runs as one of a pair: RED_CFG.en = 1 and in RUN. -/
def State.paired (s : State) : Bool := s.on F.redCfg_en && s.op == .run

/-- The port carries only the pair link (R346). -/
def State.pairOn (s : State) (p : Nat) : Bool := s.paired && s.pairPort == p

/-- The device forwards (R26): in RUN and MINIMAL, and in BOOT on the fast-start subset once it is live (R392). -/
def State.forwards (s : State) : Bool :=
  s.fabricOn && (s.op == .run || s.op == .minimal || (s.op == .boot && s.boot.run.fastOn))

/-- Only the functions of R404 are in service: in MINIMAL, and on the fast-start subset. -/
def State.basic (s : State) : Bool := s.op == .minimal || s.op == .boot

/-! ## Seconds counts (R89, R119) -/

/-- The seconds counts of the classifier and the FDB. -/
def State.nowS (s : State) : Nat := s.tim.lt / 800000000 + s.net.ageOff

/-- The millisecond stamp of R116. -/
def State.nowMs (s : State) : Nat := s.tim.lt / 800000 % 2047

/-! ## Frames -/

/-- An empty frame record. -/
def Frm.blank : Frm :=
  ⟨0, 0, 0, 0, 0, [], false, 0, [], [], none, false, false, 9216, false, 0, false, false, false, 0, false, none, none, none, none, 0, false,
    none, 0, [], none, [], none, none, 0, false, false, false, 0, []⟩

/-- Frame `i`. -/
def State.frm (s : State) (i : Nat) : Frm := (tblFind s.net.frames i).getD Frm.blank

/-- Set frame `i`, or free it when nothing refers to it any more (R167). -/
def State.setFrm (s : State) (i : Nat) (f : Frm) : State :=
  { s with net := { s.net with frames :=
    if f.refs = 0 ∧ !f.inRx then tblDel s.net.frames i else tblPut s.net.frames i f } }

/-- Add references to a frame. -/
def State.holdFrm (s : State) (i n : Nat) : State := s.setFrm i { s.frm i with refs := (s.frm i).refs + n }

/-- Drop a reference to a frame. -/
def State.dropRef (s : State) (i : Nat) : State := s.setFrm i { s.frm i with refs := (s.frm i).refs - 1 }

/-- The length under R5 of a frame as stored. -/
def Frm.len (f : Frm) : Nat := f.bytes.length + 4

/-- The length under R5 of a frame as received, with SecTAG and ICV. -/
def Frm.rxLen (f : Frm) : Nat := f.orig.length + 4 + f.sec

/-- Cells of a number of bytes (R167). -/
def cellsOf (n : Nat) : Nat := (n + 255) / 256

/-- A frame of a legacy channel. -/
def Frm.legacy (f : Frm) : Bool := f.leg.isSome

/-- Cells that a frame occupies. -/
def Frm.cells (f : Frm) : Nat := match f.leg with
  | some l => cellsOf l.data.length
  | none => cellsOf f.len

/-- The bytes of a frame that the packet buffer holds. -/
def Frm.stored (f : Frm) : Nat := ((f.leg.map LegRec.data).getD f.bytes).length

/-- The lowest `n` cells of the packet buffer that hold no frame. -/
def State.freeCells (s : State) (n : Nat) : List Nat :=
  let used := s.net.frames.flatMap fun x => x.2.at_
  ((List.range (used.length + n)).filter fun c => !used.contains c).take n

/-- Bytes `a` to `b` of a frame are written into its cells, of 32 words each (R371). -/
def State.storeFrm (s : State) (cells : List Nat) (a b : Nat) : State :=
  (List.range cells.length).foldl (fun s k =>
    let lo := max a (256 * k)
    let hi := min b (256 * k + 256)
    if lo < hi then s.memFill 0 0 (32 * cells.getD k 0 + (lo - 256 * k) / 8) ((hi - 256 * k + 7) / 8 - (lo - 256 * k) / 8) else s) s

/-- The first poisoned cell of a frame that a consumer reads, none when all are good (R358, R359, R369). -/
def State.frameRead (s : State) (i : Nat) : State × Option Nat :=
  if s.memClean then (s, none)
  else
    let f := s.frm i
    (List.range f.at_.length).foldl (fun (x : State × Option Nat) k =>
      let y := x.1.wordsRead 0 0 (32 * f.at_.getD k 0) ((min 256 (f.stored - 256 * k) + 7) / 8) 0
      (y.1, x.2.orElse fun _ => if y.2 then some k else none)) (s, none)

/-- Store a new frame in free cells. -/
def State.newFrm (s : State) (f : Frm) : State × Nat :=
  let i := s.net.nextF
  let f := { f with at_ := s.freeCells (cellsOf f.stored) }
  ({ s with net := { s.net with frames := tblPut s.net.frames i f, nextF := i + 1 } }.storeFrm f.at_ 0 f.stored, i)

/-! ## Queues and occupancy -/

/-- The copies of a queue, head first. -/
def State.queue (s : State) (q : Nat) : List Copy := tblGet s.net.queues [] q

/-- Set the copies of a queue. -/
def State.setQueue (s : State) (q : Nat) (l : List Copy) : State :=
  { s with net := { s.net with queues := tblSet s.net.queues [] q l } }

/-- The copies in transmission at a port. -/
def PortSt.sending (x : PortSt) : List Copy := (x.exp.toList ++ x.pre.toList).map TxCopy.cp

/-- The copies charged to a queue: waiting or in transmission. -/
def State.charged (s : State) (q : Nat) : List Copy :=
  s.queue q ++ (s.net.ports.flatMap fun x => x.2.sending.filter fun c => c.q == q)

/-- occ_q of R172. -/
def State.occQ (s : State) (q : Nat) : Nat := (s.charged q).foldl (fun n c => n + c.k) 0

/-- All copies, waiting or in transmission. -/
def State.copies (s : State) : List Copy :=
  (s.net.queues.flatMap fun x => x.2) ++ (s.net.ports.flatMap fun x => x.2.sending)

/-- occ_port of R172. -/
def State.occPort (s : State) (p : Nat) : Nat := s.copies.foldl (fun n c => if c.port = p then n + c.k else n) 0

/-- A register of queue `q`: of a class queue, or of stream queue q - 144. -/
def qReg (q : Nat) (cls str : Reg) : Reg × Nat := if q < 144 then (cls, q) else (str, q - 144)

/-- A field of queue `q`. -/
def State.qFld (s : State) (q : Nat) (cls str : RegField) : Nat := if q < 144 then s.fld cls q else s.fld str (q - 144)

/-- min of queue `q`. -/
def State.qMin (s : State) (q : Nat) : Nat := s.qFld q F.qmgQLim_min F.qmgSLim_min

/-- The queues that some copy is charged to. -/
def State.busyQueues (s : State) : List Nat := (s.copies.map Copy.q).eraseDups

/-- shared_used of R173. -/
def State.sharedUsed (s : State) : Nat :=
  s.busyQueues.foldl (fun n q => n + (s.occQ q - s.qMin q)) 0

/-- The sum of min over all queues (R173). -/
def State.sumMin (s : State) : Nat :=
  s.regs.foldl (fun n x =>
    if x.1 % 512 = Reg.qmgQLim.ctorIdx ∨ x.1 % 512 = Reg.qmgSLim.ctorIdx then n + getBits x.2 15 0 else n) 0

/-- shared_size of R173. -/
def State.sharedSize (s : State) : Nat := 65536 - 512 - s.fld F.skyCellLim_limit - s.sumMin

/-- Cells in use, whatever holds them (QMG_POOL_USED): every frame record, and what has arrived of frames before their lookup. -/
def State.poolUsed (s : State) : Nat :=
  s.net.frames.foldl (fun n x => n + x.2.cells) 0 +
  s.net.ports.foldl (fun n x => n + ((x.2.rx.toList ++ x.2.rxp.toList).foldl (fun n r =>
    if r.frm.isNone ∧ r.hold.isNone then n + cellsOf r.got.length else n) 0)) 0

/-- The frames that the Skerry array holds, and those of its results that the Harbour has not released (R144). -/
def State.skyFrames (s : State) : List Nat :=
  ((s.net.sky.flatMap fun x => (x.2.norm ++ x.2.resv ++ (x.2.threads.map fun t => t.2.d)).map Desc.frm) ++
    (s.net.slots.flatMap fun x => match x.2.st with
      | .ready outs => if x.2.sky then outs.map SlotOut.frm else []
      | _ => [])).eraseDups

/-- Cells that a steered frame takes of the array's limit; those of its largest length while it arrives. -/
def Frm.skyCells (f : Frm) : Nat := if f.tail then f.cells else cellsOf f.maxLen

/-- SKY_CELL_USED (R144). -/
def State.skyCells (s : State) : Nat := s.skyFrames.foldl (fun n f => n + (s.frm f).skyCells) 0

/-- Raise a high-water field to an occupancy (R177). -/
def State.hwm (s : State) (f : RegField) (i v : Nat) : State := if s.fld f i < v then s.setFld f i v else s

/-- Record the occupancies in the high-water registers (R177). -/
def State.marks (s : State) : State :=
  let s := s.hwm F.qmgPoolHwm_hwm 0 s.poolUsed
  let s := s.hwm F.qmgSharedHwm_hwm 0 s.sharedUsed
  let s := (s.copies.map Copy.port).eraseDups.foldl (fun s p => s.hwm F.qmgPortHwm_hwm p (s.occPort p)) s
  let s := s.hwm F.hrbHwm_slots_hwm 0 s.net.slots.length
  s.hwm F.hrbHwm_ctx_hwm 0 s.net.ctxs.length

/-! ## Admission (R168 to R173) -/

/-- M_q of a queue at a port (R170). -/
def State.qMaxFrame (s : State) (q p : Nat) : Nat :=
  let m := s.qFld q F.qmgQCtrl_max_frame F.qmgSCtrl_max_frame
  if m ≠ 0 then m else min 9216 (s.fld F.macMaxFrame_max_len p + 14)

/-- An entry of the stream parameter table for a frame's epoch (R127). -/
def State.strm (s : State) (epoch k : Nat) : List Word := s.ent 0x1A epoch k

/-- The class queue of a copy of a frame at a port, and its class, by QMG_CLASS_MAP (R168). -/
def State.classQueue (s : State) (f : Frm) (p : Nat) : Nat × Nat :=
  let c := getBits (s.rdEp .qmgClassMap p f.epoch) (3 * f.prio + 2) (3 * f.prio)
  (8 * p + c, c)

/-- The stream queue that stream `k` of an epoch names, with its port and class; none when the queue is not valid (R168). -/
def State.squeueOf (s : State) (epoch k : Nat) : Option (Nat × Nat × Nat) :=
  let e := s.strm epoch k
  let q := eb e 0 9 0
  if ebit e 1 31 && s.on F.qmgSCtrl_valid q then some (q, s.fld F.qmgSCtrl_port q, s.fld F.qmgSCtrl_class q) else none

/-- The queue and class of a copy of a frame at an Ethernet port (R168), as its own epoch selects them (R54). -/
def State.queueOf (s : State) (f : Frm) (p : Nat) : Nat × Nat :=
  match f.squeue with
  | some (q, port, c) => if port = p then (144 + q, c) else s.classQueue f p
  | none => s.classQueue f p

/-- The frame belongs to an admitted reserved stream of its epoch's set (R58, R67, R172). -/
def State.reserved (s : State) (f : Frm) : Bool := match f.stream with
  | some k => (tblGet s.net.contract (0, 0) (f.epoch % 2 * 4096 + k)).2 % 2 == 1
  | none => false

/-- The frame's stream sets a reserved maximum SDU (R35). -/
def State.maxSduSet (s : State) (f : Frm) : Bool := match f.stream with
  | some k => eb (s.strm f.epoch k) 1 15 0 != 0
  | none => false

/-- A queue counter. -/
def State.bumpQ (s : State) (c : Ctr) (q : Nat) : State := s.bump c q

/-- The test of R172 that a copy of `k` cells and, where it is known, of length `len` fails first, as its counter. -/
def State.admitTest (s : State) (f : Frm) (q p k : Nat) (len : Option Nat) : Option Ctr :=
  let occ := s.occQ q
  let lim := s.qFld q F.qmgQLim_limit F.qmgSLim_limit
  let mn := s.qMin q
  let need := (occ + k - mn) - (occ - mn)
  if len.any (fun n => decide (s.qMaxFrame q p < n)) then some .qmgQDropMaxf
  else if !s.linkUp p || s.quiet || s.pairOn p then some .qmgQDropLink
  else if decide (q < 144) && s.on F.qmgQCtrl_resv_only q && !s.reserved f then some .qmgQDropQlim
  else if lim < occ + k then some .qmgQDropQlim
  else if (f.colour = 1 ∧ s.qFld q F.qmgQCol_yel_limit F.qmgSCol_yel_limit < occ + k) ∨
      (f.colour = 2 ∧ s.qFld q F.qmgQCol_red_limit F.qmgSCol_red_limit < occ + k) then some .qmgQDropColour
  else if s.fld F.qmgPortLim_limit p < s.occPort p + k then some .qmgQDropPort
  else if need ≠ 0 ∧ s.sharedSize < s.sharedUsed + need then some .qmgQDropPool
  else none

/-! ## Express classes -/

/-- A class of a port is express (R238, TGA_PREEMPT_CFG). -/
def State.express (s : State) (p c : Nat) : Bool :=
  if p < 16 then !(s.port p).ver.active || gateBit (s.fld F.tgaPreemptCfg_express_mask p) c else true

/-- The class of a port is express, by express_mask: a protected class, whether or not preemption is active (R180, R237). -/
def State.expressCls (s : State) (p c : Nat) : Bool := decide (p < 16) && gateBit (s.fld F.tgaPreemptCfg_express_mask p) c

/-- Queue `q` of class `c` at port `p` is best-effort (R180). -/
def State.bestEffort (s : State) (p q c : Nat) : Bool :=
  decide (q < 144) && !s.on F.qmgQCtrl_resv_only q && !s.on F.schCbsSlope_en (8 * p + c) && !s.expressCls p c

end Sys2Proof.Machine
end

