-- ==== Sys2Proof/Machine/Parser.lean ====
section
/-! DEFINITION. The parser, the fields and keys of the classifier, and the frame edits (R68 to R80, R93, R94, R488). -/

namespace Sys2Proof.Machine

open Sys2Proof

/-! ## Parsing an Ethernet frame -/

/-- What the parser's registers say: the alternative TPID, the SOME/IP ports, and whether the port has a receive SecY. -/
structure ParseCfg where
  alt  : Option Nat
  sip  : List (Nat × Bool)
  secy : Bool
  deriving DecidableEq, Repr

/-- The parser configuration for a port. -/
def State.parseCfg (s : State) (p : Nat) : ParseCfg :=
  ⟨if s.on F.clsParseCfg_tpid_alt_en then some (s.fld F.clsParseCfg_tpid_alt) else none,
    (List.range 8).filterMap fun n =>
      if s.on F.clsSomeipPort_en n then some (s.fld F.clsSomeipPort_port n, s.on F.clsSomeipPort_tcp n) else none,
    s.secyRx p⟩

/-- The EtherType is a VLAN TPID (R68). -/
def ParseCfg.tpid (c : ParseCfg) (et : Nat) : Bool := et == 0x8100 || et == 0x88A8 || c.alt == some et

/-- Set a parse flag. -/
def Parse.flag (p : Parse) (b : Nat) : Parse := { p with flags := p.flags ||| 2 ^ b }

/-- Add field values. -/
def Parse.add (p : Parse) (v : List (Nat × Nat)) : Parse := { p with vals := p.vals ++ v }

/-- A header reaches beyond the visible bytes (R69). -/
def Parse.cutOff (p : Parse) : Parse := { p.flag 10 with trunc := true }

/-- The value of a field; an absent field reads as zero (R75). -/
def Parse.val (p : Parse) (id : Nat) : Nat := (p.vals.lookup id).getD 0

/-- A parse flag is set. -/
def Parse.has (p : Parse) (b : Nat) : Bool := p.flags / 2 ^ b % 2 == 1

/-- A SOME/IP header at `off` (R71). -/
def parseSip (bs : List Byte) (off : Nat) (p : Parse) : Parse :=
  if bs.length < off + 16 then p.cutOff
  else
    let p := (p.flag 8).add [(0x14, fieldAt bs off 2), (0x15, fieldAt bs (off + 2) 2), (0x16, fieldAt bs (off + 8) 2),
      (0x17, fieldAt bs (off + 14) 1)]
    { p with sip := some off }

/-- A SOME/IP port of the datagram or segment matches (R71). -/
def ParseCfg.isSip (c : ParseCfg) (tcp : Bool) (sp dp : Nat) : Bool :=
  c.sip.any fun x => (x.1 == sp || x.1 == dp) && (!tcp || x.2)

/-- The layer 4 header at `off` (R68, R488). An ICMP header is present with its first 4 bytes (DESIGN CHOICE, assumption 80). -/
def parseL4 (c : ParseCfg) (bs : List Byte) (off proto : Nat) (p : Parse) : Parse :=
  if proto = 6 then
    if bs.length < off + 20 then p.cutOff
    else
      let doff := fieldAt bs (off + 12) 1 / 16
      if doff < 5 then p.flag 13
      else if bs.length < off + 4 * doff then p.cutOff
      else
        let sp := fieldAt bs off 2
        let dp := fieldAt bs (off + 2) 2
        let p := (p.flag 7).add [(0x10, sp), (0x11, dp), (0x12, fieldAt bs (off + 13) 1)]
        let p := { p with l4 := some off }
        if c.isSip true sp dp then parseSip bs (off + 4 * doff) p else p
  else if proto = 17 then
    if bs.length < off + 8 then p.cutOff
    else
      let sp := fieldAt bs off 2
      let dp := fieldAt bs (off + 2) 2
      let p := (p.flag 7).add [(0x10, sp), (0x11, dp)]
      let p := { p with l4 := some off }
      if c.isSip false sp dp then parseSip bs (off + 8) p else p
  else if proto = 1 ∨ proto = 58 then
    if bs.length < off + 4 then p.cutOff
    else
      let p := (p.flag 7).add [(0x13, fieldAt bs off 2)]
      { p with l4 := some off }
  else p

/-- An IPv4 header at `off` (R68, R488). -/
def parseV4 (c : ParseCfg) (bs : List Byte) (off : Nat) (p : Parse) : Parse :=
  if bs.length < off + 20 then p.cutOff
  else
    let b0 := fieldAt bs off 1
    let ihl := b0 % 16
    if b0 / 16 ≠ 4 ∨ ihl < 5 then p.flag 13
    else if bs.length < off + 4 * ihl then p.cutOff
    else
      let proto := fieldAt bs (off + 9) 1
      let p := (p.flag 4).add [(0x0A, fieldAt bs (off + 12) 4), (0x0B, fieldAt bs (off + 16) 4), (0x0E, proto),
        (0x0F, fieldAt bs (off + 1) 1 / 4)]
      let p := { p with kind := 1, l3 := some off }
      let p := if 5 < ihl then p.flag 12 else p
      let fr := fieldAt bs (off + 6) 2
      if fr % 16384 ≠ 0 then p.flag 6 else parseL4 c bs (off + 4 * ihl) proto p

/-- The extension headers of an IPv6 datagram, at most `n` more (R68). -/
def parseExt (c : ParseCfg) (bs : List Byte) : Nat → Nat → Nat → Parse → Parse
  | n, off, nh, p =>
    let last := p.add [(0x0E, nh)]
    if nh = 0 ∨ nh = 43 ∨ nh = 60 ∨ nh = 44 then
      match n with
      | 0 => last
      | m + 1 =>
        if bs.length < off + 8 then last.cutOff
        else
          let len := if nh = 44 then 8 else (fieldAt bs (off + 1) 1 + 1) * 8
          if bs.length < off + len then last.cutOff
          else
            let p := p.flag 12
            let next := fieldAt bs off 1
            let fr := fieldAt bs (off + 2) 2
            if nh = 44 ∧ (fr / 8 ≠ 0 ∨ fr % 2 = 1) then (p.flag 6).add [(0x0E, next)]
            else parseExt c bs m (off + len) next p
    else if nh = 6 ∨ nh = 17 ∨ nh = 58 then parseL4 c bs off nh last
    else last

/-- An IPv6 header at `off` (R68, R488). -/
def parseV6 (c : ParseCfg) (bs : List Byte) (off : Nat) (p : Parse) : Parse :=
  if bs.length < off + 40 then p.cutOff
  else if fieldAt bs off 1 / 16 ≠ 6 then p.flag 13
  else
    let p := (p.flag 5).add [(0x0C, fieldAt bs (off + 8) 16), (0x0D, fieldAt bs (off + 24) 16),
      (0x0F, fieldAt bs off 2 / 64 % 64)]
    let p := { p with kind := 2, l3 := some off }
    parseExt c bs 2 (off + 40) (fieldAt bs (off + 6) 1) p

/-- The first ACF message header at `off` (R72; its layout is that of IEEE 1722, assumption 17): 16 bytes for type 1, 8 for
type 2, 12 for ACF_LIN, type 3, whose bus ID stands in byte 2, and 4 for the others. A header that is cut counts as absent (R69). -/
def parseAcf (bs : List Byte) (off : Nat) (p : Parse) : Parse :=
  let ty := fieldAt bs off 1 / 2
  let size := if ty = 1 then 16 else if ty = 2 then 8 else if ty = 3 then 12 else 4
  if bs.length < off + 1 ∨ bs.length < off + size then p.cutOff
  else
    let fl := fieldAt bs (off + 2) 1
    let p := (p.flag 9).add [(0x1A, ty), (0x1B, fieldAt bs (off + if ty = 3 then 2 else 3) 1 % 32)]
    if ty = 1 ∨ ty = 2 then p.add [(0x1C, fieldAt bs (off + size - 4) 4 % 536870912), (0x1D, fl / 2 % 2)] else p

/-- An IEEE 1722 header at `off` (R68). A header that is cut gives no field (R69). -/
def parse1722 (bs : List Byte) (off : Nat) (p : Parse) : Parse :=
  let p := { p with kind := 3, l3 := some off }
  if bs.length < off + 1 then p.cutOff
  else
    let st := fieldAt bs off 1
    if st = 0x82 ∨ st = 0x05 then
      let hdr := if st = 0x82 then 12 else 24
      if bs.length < off + hdr then p.cutOff
      else parseAcf bs (off + hdr) (p.add [(0x18, st), (0x19, fieldAt bs (off + 4) 8)])
    else p.add [(0x18, st)]

/-- What follows the tags, from the EtherType at `off`. -/
def parseType (c : ParseCfg) (bs : List Byte) (off : Nat) (p : Parse) : Parse :=
  if bs.length < off + 2 then p.cutOff
  else
    let et := fieldAt bs off 2
    let p := p.add [(0x08, et)]
    if et = 0x88E5 ∧ !c.secy then p.flag 3
    else if et = 0x0800 then parseV4 c bs (off + 2) p
    else if et = 0x86DD then parseV6 c bs (off + 2) p
    else if et = 0x22F0 then parse1722 bs (off + 2) p
    else p

/-- The R-TAG after the VLAN tags. -/
def parseRtag (c : ParseCfg) (bs : List Byte) (off : Nat) (p : Parse) : Parse :=
  if fieldAt bs off 2 = 0xF1C1 then
    if bs.length < off + 6 then p.cutOff
    else
      let p := { p.flag 2 with rtag := some (fieldAt bs (off + 4) 2) }
      parseType c bs (off + 6) p
  else parseType c bs off p

/-- The VLAN tags from offset 12 (R68); a tag of which a byte is not visible counts as absent (R69). -/
def parseTags (c : ParseCfg) (bs : List Byte) (p : Parse) : Parse :=
  if !c.tpid (fieldAt bs 12 2) then parseRtag c bs 12 p
  else if bs.length < 16 then p.cutOff
  else
    let t0 := fieldAt bs 14 2
    let p := (p.flag 0).add [(0x05, t0 % 4096), (0x06, t0 / 8192)]
    if !c.tpid (fieldAt bs 16 2) then parseRtag c bs 16 { p with tags := 1 }
    else if bs.length < 20 then { p.cutOff with tags := 1 }
    else
      let p := (p.flag 1).add [(0x07, fieldAt bs 18 2 % 4096)]
      if c.tpid (fieldAt bs 20 2) then { (if bs.length < 24 then p.cutOff else p.flag 11) with tags := 2 }
      else parseRtag c bs 20 { p with tags := 2 }

/-- The parse of a frame from its visible bytes (R33, R68). -/
def parseEth (c : ParseCfg) (bytes : List Byte) : Parse :=
  let bs := bytes.take 128
  parseTags c bs ⟨0, 0, [(0x03, fieldAt bs 0 6), (0x04, fieldAt bs 6 6)], 0, none, none, none, none, false⟩

/-- The parse record of a legacy frame (R73). -/
def parseLeg (port : Nat) (l : LegRec) : Parse :=
  if port < 48 then
    ⟨4, 0, [(0x1C, l.ident), (0x1D, l.fmt)] ++ (if l.fmt = 2 then [(0x1E, l.vcid), (0x1F, l.sdt)] else []), 0, none, none,
      none, none, false⟩
  else ⟨5, 0, [(0x20, l.ident)], 0, none, none, none, none, false⟩

/-- The number of VLAN tags from an offset, at most `fuel`. -/
def tagsFrom (c : ParseCfg) (bytes : List Byte) : Nat → Nat → Nat
  | 0, _ => 0
  | fuel + 1, off => if c.tpid (fieldAt bytes off 2) then tagsFrom c bytes fuel (off + 4) + 1 else 0

/-- The number of VLAN tags that a copy carries: two that were received and one that was pushed at most. -/
def tagCount (c : ParseCfg) (bytes : List Byte) : Nat := tagsFrom c bytes 3 12

/-- Ingress priority of an Ethernet frame (R74). -/
def State.ingressPrio (s : State) (p : Nat) (epoch : Nat) (x : Parse) : Nat :=
  let tr := s.fldEp F.clsPrioCfg_trust p epoch
  let dflt := s.fldEp F.clsPrioCfg_default_prio p epoch
  let byPcp := if x.has 0 then x.val 0x06 else dflt
  if tr = 0 then dflt
  else if tr = 2 ∧ (x.has 4 ∨ x.has 5) then
    let d := x.val 0x0F
    getBits (s.rdEp .clsDscpMap (d / 8) epoch) (3 * (d % 8) + 2) (3 * (d % 8))
  else byPcp

/-! ## Flow key and hash (R78 to R80) -/

/-- The pair of low and high endpoint, each as address and port, and the direction bit. -/
def endpoints (sa sp da dp : Nat) : (Nat × Nat) × (Nat × Nat) × Bool :=
  if sa < da ∨ (sa = da ∧ sp ≤ dp) then ((sa, sp), (da, dp), false) else ((da, dp), (sa, sp), true)

/-- The flow key of a frame and its direction bit. -/
def flowKey (port prio : Nat) (x : Parse) : List Byte × Bool :=
  let pr : List Byte := [BitVec.ofNat 8 x.kind, BitVec.ofNat 8 (prio * 32)]
  let vid := beBytes 2 (x.val 0x05)
  if x.kind = 1 ∨ x.kind = 2 then
    let tu := !x.has 6 && x.has 7 && (x.val 0x0E == 6 || x.val 0x0E == 17)
    let sp := if tu then x.val 0x10 else 0
    let dp := if tu then x.val 0x11 else 0
    let v4 := x.kind == 1
    let e := if v4 then endpoints (x.val 0x0A) sp (x.val 0x0B) dp else endpoints (x.val 0x0C) sp (x.val 0x0D) dp
    (pr ++ vid ++ beBytes 16 e.1.1 ++ beBytes 16 e.2.1.1 ++ beBytes 2 e.1.2 ++ beBytes 2 e.2.1.2 ++ [0]
      ++ beBytes 1 (x.val 0x0E) ++ List.replicate 6 0, e.2.2)
  else if x.kind = 0 then
    let e := endpoints (x.val 0x04) 0 (x.val 0x03) 0
    (pr ++ vid ++ beBytes 16 e.1.1 ++ beBytes 16 e.2.1.1 ++ List.replicate 4 0 ++ beBytes 2 (x.val 0x08)
      ++ List.replicate 6 0, e.2.2)
  else if x.kind = 3 then
    (pr ++ vid ++ beBytes 8 (x.val 0x19) ++ List.replicate 36 0, false)
  else
    let ident := if x.kind = 4 then x.val 0x1C else x.val 0x20
    ([BitVec.ofNat 8 x.kind, 0] ++ beBytes 2 port ++ List.replicate 11 0 ++ beBytes 1 (x.val 0x1D) ++ beBytes 4 ident
      ++ List.replicate 28 0, false)

/-- The connection key of a flow key (R80). -/
def connKey (key : List Byte) : List Byte :=
  let k := key.set 1 0
  if key.getD 0 0 = 1 ∨ key.getD 0 0 = 2 then (k.set 2 0).set 3 0 else k

/-- The flow hash (R80). -/
def State.flowHash (s : State) (key : List Byte) : Nat := crcHash (s.rd .clsHashSeed).toNat (connKey key)

/-! ## Keys (R75 to R77) -/

/-- The width of a field (R75); 0 where the field ID is not defined. -/
def fieldWidth (id : Nat) : Nat :=
  [0, 6, 3, 48, 48, 12, 3, 12, 16, 16, 32, 32, 128, 128, 8, 6, 16, 16, 8, 16, 16, 16, 16, 8, 8, 64, 7, 5, 29, 2, 8, 8, 8].getD id 0

/-- The value of a field in a key. -/
def keyField (port prio : Nat) (x : Parse) (id : Nat) : Nat :=
  if id = 1 then port else if id = 2 then prio else if id = 9 then x.flags else x.val id

/-- The slots of a profile in use: field ID and keep_bits. -/
def profSlots (e : List Word) : List (Nat × Nat) :=
  (e.takeWhile fun w => getBit w 31).map fun w => (getBits w 5 0, getBits w 23 16)

/-- Append the fields of a profile to a key held as a number, most significant first, with the bits used. -/
def keyBits (port prio : Nat) (x : Parse) : List (Nat × Nat) → Nat × Nat → Nat × Nat
  | [], acc => acc
  | (id, keep) :: t, (v, n) =>
    let w := fieldWidth id
    let f := keyField port prio x id
    let f := if keep = 0 ∨ w ≤ keep then f else f / 2 ^ (w - keep) * 2 ^ (w - keep)
    keyBits port prio x t (v * 2 ^ w + f % 2 ^ w, n + w)

/-- The 12 words of the key that a profile builds (R76). -/
def buildKey (port prio : Nat) (x : Parse) (prof : List Word) : List Word :=
  let r := keyBits port prio x (profSlots prof) (0, 0)
  wordsOf (beBytes 48 (r.1 * 2 ^ (384 - r.2)))

/-! ## Edits (R93, R94) -/

/-- Replace bytes at an offset. -/
def setBytes (bs : List Byte) (off : Nat) (new : List Byte) : List Byte :=
  bs.take off ++ new ++ bs.drop (off + new.length)

/-- An incremental update of a ones' complement checksum at `at_`, for a 16-bit word that changes from `old` to `new`. A UDP sum that comes to
0x0000 is stored as 0x0000 (DESIGN CHOICE, assumption 77: R94 does not say 0x0000 or 0xFFFF). -/
def fixSum (bs : List Byte) (at_ old new : Nat) : List Byte :=
  let c := fieldAt bs at_ 2
  let t := (65535 - c) + (65535 - old) + new
  let t := t % 65536 + t / 65536
  let t := t % 65536 + t / 65536
  setBytes bs at_ (beBytes 2 (65535 - t))

/-- Set a 16-bit word of a layer 4 payload, with the TCP or UDP checksum; a UDP checksum of zero on IPv4 stays zero. -/
def setL4Word (x : Parse) (bs : List Byte) (off v : Nat) : List Byte :=
  let old := fieldAt bs off 2
  let bs' := setBytes bs off (beBytes 2 v)
  match x.l4 with
  | none => bs'
  | some l4 =>
    let at_ := if x.val 0x0E = 6 then l4 + 16 else l4 + 6
    if x.val 0x0E = 17 ∧ x.kind = 1 ∧ fieldAt bs at_ 2 = 0 then bs' else fixSum bs' at_ old v

/-- Set the DSCP of an IP frame, with the IPv4 header checksum. -/
def setDscp (x : Parse) (bs : List Byte) (v : Nat) : List Byte :=
  match x.l3 with
  | none => bs
  | some off =>
    let old := fieldAt bs off 2
    if x.kind = 1 then
      let new := old / 256 * 256 + v * 4 + old % 4
      fixSum (setBytes bs off (beBytes 2 new)) (off + 10) old new
    else setBytes bs off (beBytes 2 (old / 4096 * 4096 + v * 64 + old % 64))

/-- One rewrite: the bytes, and whether the frame lacked the field (R94). `bit` is the bit of the set mask. -/
def rewriteBit (c : ParseCfg) (rec_ : List Word) (st : List Byte × Bool) (bit : Nat) : List Byte × Bool :=
  let (bs, skip) := st
  if !ebit rec_ 0 bit then st
  else
    let x := parseEth c bs
    let tci := fieldAt bs 14 2
    match bit with
    | 0 => (setBytes bs 0 (beBytes 4 (ew rec_ 1).toNat ++ beBytes 2 (eb rec_ 2 31 16)), skip)
    | 1 => (setBytes bs 6 (beBytes 2 (eb rec_ 2 15 0) ++ beBytes 4 (ew rec_ 3).toNat), skip)
    | 2 => if x.has 0 then (setBytes bs 14 (beBytes 2 (tci / 4096 * 4096 + eb rec_ 5 27 16)), skip) else (bs, true)
    | 3 => if x.has 0 then (setBytes bs 14 (beBytes 2 (eb rec_ 5 14 12 * 8192 + tci % 8192)), skip) else (bs, true)
    | 4 => if x.has 4 || x.has 5 then (setDscp x bs (eb rec_ 5 5 0), skip) else (bs, true)
    | 5 => match x.sip with
      | some o => (setL4Word x bs o (eb rec_ 6 31 16), skip)
      | none => (bs, true)
    | 6 => match x.sip with
      | some o => (setL4Word x bs (o + 2) (eb rec_ 6 15 0), skip)
      | none => (bs, true)
    | _ => match x.sip with
      | some o => (setL4Word x bs (o + 8) (eb rec_ 7 31 16), skip)
      | none => (bs, true)

/-- Apply a rewrite record. -/
def rewrite (c : ParseCfg) (rec_ : List Word) (bs : List Byte) : List Byte × Bool :=
  (List.range 8).foldl (rewriteBit c rec_) (bs, false)

/-- Remove `n` tags, outermost first: the bytes, and whether fewer were present. -/
def popTags (c : ParseCfg) : Nat → List Byte → List Byte × Bool
  | 0, bs => (bs, false)
  | n + 1, bs => if c.tpid (fieldAt bs 12 2) then popTags c n (bs.take 12 ++ bs.drop 16) else (bs, true)

/-- Put a tag before the frame's EtherType or outer tag. -/
def pushTag (tpid tci : Nat) (bs : List Byte) : List Byte := bs.take 12 ++ beBytes 2 tpid ++ beBytes 2 tci ++ bs.drop 12

end Sys2Proof.Machine
end

