-- ==== Sys2Proof/Machine/Classify.lean ====
section
/-! DEFINITION. The classifier: connection tracking, rule match and the edits of the winning rule (R81 to R96), and the
commands that change its tables (R97 to R99). -/

namespace Sys2Proof.Machine

open Sys2Proof

/-! ## Connection tracking (R86 to R92) -/

/-- The state of a connection entry. -/
def ctState (e : List Word) : Nat := eb e 12 31 29

/-- The class of a connection entry: 0 TCP, 1 UDP, 2 other. -/
def ctClass (e : List Word) : Nat := eb e 12 26 25

/-- A connection or rule entry is valid. -/
def entValid (e : List Word) : Bool := ebit e 15 31

/-- The timeout of an entry's state in seconds (R89). -/
def State.ctTmo (s : State) (e : List Word) : Nat :=
  if ctState e = 2 then s.fld F.clsCtTmo0_new_s
  else if ctState e = 3 then
    (if ctClass e = 0 then s.fld F.clsCtTmo1_est_tcp_s
    else if ctClass e = 1 then s.fld F.clsCtTmo1_est_udp_s
    else s.fld F.clsCtTmo2_est_ip_s)
  else if ctState e = 4 then s.fld F.clsCtTmo0_closing_s
  else s.fld F.clsCtTmo2_closed_s

/-- An entry is expired (R89). -/
def State.ctExpired (s : State) (e : List Word) : Bool := decide (s.ctTmo e ≤ s.nowS - (ew e 13).toNat)

/-- The key words of an entry equal a key. -/
def keyEq (e : List Word) (k : List Word) : Bool := e.take 12 == k

/-- The transition of a TCP entry (R87): its next state, and what the frame sees. `dir` is the frame's direction, `fl` its
TCP flags, zero when the frame has no recognised TCP header. -/
def ctTcp (st : Nat) (orig fin dir : Bool) (fl : Nat) : Nat × Nat :=
  let finF := fl % 2 == 1
  let syn := fl / 2 % 2 == 1 && fl / 16 % 2 == 0
  let synAck := fl / 2 % 2 == 1 && fl / 16 % 2 == 1
  let rst := fl / 4 % 2 == 1
  if st = 2 ∧ syn ∧ dir = orig then (2, 2)
  else if st = 2 ∧ synAck ∧ dir ≠ orig then (3, 3)
  else if rst then (5, 5)
  else if st = 2 then (2, 6)
  else if st = 3 then (if finF then (4, 4) else if syn then (3, 6) else (3, 3))
  else if st = 4 then (if finF ∧ dir ≠ fin then (5, 5) else (4, 4))
  else if syn ∧ dir = orig then (2, 2)
  else (5, 5)

/-- The transition of an entry of another class (R87). -/
def ctOther (st : Nat) (orig dir : Bool) : Nat × Nat := if st = 2 ∧ dir = orig then (2, 2) else (3, 3)

/-- The frame has a recognised TCP header. -/
def Parse.tcp (x : Parse) : Bool := (x.has 4 || x.has 5) && x.has 7 && x.val 0x0E == 6

/-- The frame has a recognised UDP header. -/
def Parse.udp (x : Parse) : Bool := (x.has 4 || x.has 5) && x.has 7 && x.val 0x0E == 17

/-- The connection key as the words of an entry. -/
def ctKey (key : List Byte) : List Word := wordsOf (connKey key)

/-- The entry of a connection (R82, R92): the state, and the valid entry with the key, expired or not. An entry that reads
with an uncorrectable error is deleted. -/
def State.ctFind (s : State) (key : List Byte) (hash : Nat) : State × Option (Nat × List Word) :=
  let r := s.readAll 3 0 0 (s.probed 3 0 (hash % 32768) 131072 2048)
  (r.2.2.foldl (fun s n => if entValid (s.ent 3 0 n) then s.delEnt 3 0 n else s) r.1,
    r.2.1.find? fun e => entValid e.2 && keyEq e.2 (ctKey key))

/-- The connection state that a frame sees (R86 to R89): the state after the frame's own transition, and the code. -/
def State.ctLookup (s : State) (x : Parse) (key : List Byte) (dir : Bool) (hash : Nat) : State × Nat :=
  if x.kind ≠ 1 ∧ x.kind ≠ 2 then (s, 0)
  else
    let fl := if x.tcp then x.val 0x12 else 0
    let r := s.ctFind key hash
    let s := r.1
    match r.2.filter fun e => !s.ctExpired e.2 with
    | none => if !x.tcp || (fl / 2 % 2 == 1 && fl / 16 % 2 == 0) then (s, 1) else (s, 6)
    | some (n, e) =>
      let t := if ctClass e = 0 then ctTcp (ctState e) (ebit e 12 28) (ebit e 12 27) dir fl
        else ctOther (ctState e) (ebit e 12 28) dir
      if t.2 = 6 then (s, 6)
      else
        let fin := if ctState e = 3 ∧ t.1 = 4 then dir.toNat else if t.1 = 2 then 0 else eb e 12 27 27
        let e := eput (eput e 12 31 29 t.1) 12 27 27 fin
        (s.writeEnt 3 0 n (e.set 13 (BitVec.ofNat 32 s.nowS)), t.2)

/-- A new connection entry (R87, R91). -/
def ctNew (x : Parse) (key : List Byte) (dir : Bool) (now rule : Nat) : List Word :=
  let cls := if x.tcp then 0 else if x.udp then 1 else 2
  ctKey key ++ [putBits (putBits (putBits 0 31 29 2) 28 28 dir.toNat) 26 25 cls, BitVec.ofNat 32 now,
    BitVec.ofNat 32 rule, 0x80000000]

/-- A MISS frame creates an entry (R91): in the place of an expired entry with its key, else in a free one. The second
component is false when the table is full. -/
def State.ctCreate (s : State) (x : Parse) (key : List Byte) (dir : Bool) (hash rule : Nat) : State × Bool :=
  let e := ctNew x key dir s.nowS rule
  let r := s.ctFind key hash
  match r.2 with
  | some (n, _) => (((r.1.bump .clsCtExpire).writeEnt 3 0 n e).bump .clsCtCreate, true)
  | none =>
    match r.1.freeEnt 3 0 (hash % 32768) 131072 2048 entValid with
    | some n => ((r.1.writeEnt 3 0 n e).bump .clsCtCreate, true)
    | none => (r.1, false)

/-- The valid connection entries (CLS_CT_COUNT). -/
def State.ctLive (s : State) : Nat := ((s.listed 3 0 0 133120).filter fun e => entValid e.2).length

/-- The age of an entry reaches its timeout (R89): lookups treat it as absent from then on, as `ctExpired` says. -/
def execCtEntryExpiry (_n : BitVec 18) (s : State) : Host.Outcome State Fault Refusal := .next s

/-- The sweep deletes an expired entry (R89). -/
def execCtSweepDelete (n : BitVec 18) (s : State) : Host.Outcome State Fault Refusal :=
  let e := s.ent 3 0 n.toNat
  .next (if s.fabricOn && entValid e && s.ctExpired e then (s.delEnt 3 0 n.toNat).bump .clsCtExpire else s)

/-! ## Rule match (R83, R85) -/

/-- What the classifier decides of a frame. -/
structure Decision where
  /-- 0 forward, 1 drop, 2 trap, 3 dropped and counted by the classifier after the mirror copy was taken -/
  verdict : Nat
  mirror  : Option Nat
  dest    : Option Nat
  meter   : Option Nat
  pop     : Nat
  push    : Bool
  rw      : Nat
  steer   : Option Nat
  deriving DecidableEq, Repr

/-- A default or a MINIMAL decision. -/
def Decision.plain (v : Nat) : Decision := ⟨v, none, none, none, 0, false, 0, none⟩

/-- The rule table's bucket of a key in a bank (R81). -/
def State.ruleBucket (s : State) (bank : Nat) (key : List Word) : Nat :=
  crcHash ((s.rd .clsHashSeed).toNat ^^^ bank) (bytesOf key) % 2048

/-- The entries of a bank that a key probes. -/
def State.ruleProbed (s : State) (bank : Nat) (key : List Word) : List Nat :=
  s.probed 1 (bank * 8192) (s.ruleBucket bank key) (32768 + bank * 128) 128

/-- An entry is a hit (R83 step 3). -/
def ruleHit (par ct prof : Nat) (key : List Word) (e : List Word) : Bool :=
  entValid e && epHas (eb e 15 1 0) par && eb e 12 19 15 == prof && keyEq e key && gateBit (eb e 12 13 8) ct

/-- The bank field of a profile-select entry. -/
def bankSel (sel : List Word) (bank : Nat) : Option Nat :=
  let f := eb sel 0 (6 * bank + 5) (6 * bank)
  if f / 32 = 1 then some (f % 32) else none

/-- Probe the enabled banks (R83 steps 2 and 3, R85): the state, the hits in bank order, whether a probe met a parity error, and
whether a configuration word was poisoned. -/
def State.probeRules (s : State) (par ct port prio : Nat) (x : Parse) (sel : List Word) :
    State × List (Nat × List Word) × Bool × Bool :=
  (List.range 4).foldl (fun a bank =>
    match bankSel sel bank with
    | none => a
    | some prof =>
      let c := a.1.cfgEnt 4 par prof
      match c.2 with
      | none => (c.1, a.2.1, a.2.2.1, true)
      | some pe =>
        let key := buildKey port prio x pe
        let r := c.1.readAll 1 0 3 (c.1.ruleProbed bank key)
        (r.1, a.2.1 ++ r.2.1.filter (fun e => ruleHit par ct prof key e.2), a.2.2.1 || !r.2.2.isEmpty, a.2.2.2))
    (s, [], false, false)

/-- The winner among hits that stand in bank order (R83 step 4). -/
def ruleWinner : List (Nat × List Word) → Option (Nat × List Word)
  | [] => none
  | h :: t =>
    match ruleWinner t with
    | some w => if eb h.2 12 31 20 < eb w.2 12 31 20 then some w else some h
    | none => some h

/-- Count a hit in a rule's hit counter (R103). -/
def State.ruleCount (s : State) (n : Nat) : State :=
  let e := s.ent 2 0 n
  let v := (ew e 1).toNat * 4294967296 + (ew e 0).toNat + 1
  s.setEnt 2 0 n [BitVec.ofNat 32 v, BitVec.ofNat 32 (v / 4294967296)]

/-- The decision that a rule entry's action words give (R93). A legacy frame is never edited or mirrored (R96). -/
def ruleDecision (kind : Nat) (e : List Word) : Decision :=
  let eth := decide (kind < 4)
  { verdict := eb e 13 31 30
    mirror := if ebit e 13 28 && eth then some (eb e 13 21 16) else none
    dest := if ebit e 13 29 then some (eb e 13 27 22) else none
    meter := if ebit e 13 11 then some (eb e 13 10 0) else none
    pop := if eth then eb e 14 22 21 else 0
    push := ebit e 14 20 && eth
    rw := if eth then eb e 14 19 8 else 0
    steer := if ebit e 14 31 then some (eb e 14 30 23) else none }

/-- Apply the rule stage of a frame with a known connection state (R83 to R85, R91): the decision, or none when the frame
is dropped without one. The hit counter of every rule that matches advances, of a rule that loses too (DESIGN CHOICE, assumption 79: R103 does
not say which). -/
def State.ruleStage (s : State) (port prio par ct : Nat) (x : Parse) (key : List Byte) (dir : Bool) (hash : Nat) :
    State × Option Decision :=
  let c := s.cfgEnt 5 par (port * 8 + x.kind)
  match c.2 with
  | none => (c.1, none)
  | some sel =>
    let p := c.1.probeRules par ct port prio x sel
    let s := p.1
    if p.2.2.2 then (s, none)
    else if p.2.2.1 && ebit sel 0 29 then (s.bump .clsDropParity, none)
    else
      let s := p.2.1.foldl (fun s h => s.ruleCount h.1) s
      match ruleWinner p.2.1 with
      | none =>
        let d := eb sel 0 31 30
        (if d = 1 then s.bump .clsDropDefault else if d = 2 then s.bump .clsTrap else s, some (Decision.plain d))
      | some (n, e) =>
        let d := ruleDecision x.kind e
        if d.verdict = 1 then (s.bump .clsDropRule, some d)
        else if d.verdict = 2 then (s.bump .clsTrap, some d)
        else if ct = 1 && ebit e 14 7 then
          let r := s.ctCreate x key dir hash n
          if r.2 || ebit e 14 6 then (r.1, some d) else (r.1.bump .clsDropCtFull, some { d with verdict := 3 })
        else (s, some d)

/-- Classify a frame (R83, R88): connection state, then the rule stage. In MINIMAL no rule and no connection tracking is in
service, and the frame is forwarded by lookup (R404). -/
def State.classify (s : State) (port prio par : Nat) (x : Parse) (key : List Byte) (dir : Bool) (hash : Nat) :
    State × Option Decision :=
  if s.basic then (s, some (Decision.plain 0))
  else
    let r := s.ctLookup x key dir hash
    if r.2 = 6 then (r.1.bump .clsDropCtInvalid, none)
    else r.1.ruleStage port prio par r.2 x key dir hash

/-! ## Edits (R93 steps 4 to 6, R94) -/

/-- Apply pop, rewrite and push to the bytes of a frame: none when a configuration word is poisoned. rw_idx 0 names no
record, and none is read. -/
def State.applyEdits (s : State) (port par : Nat) (d : Decision) (bytes : List Byte) : State × Option (List Byte) :=
  if d.pop = 0 ∧ d.rw = 0 ∧ !d.push then (s, some bytes)
  else
    let c := s.parseCfg port
    let p := popTags c d.pop bytes
    if d.rw = 0 then (s.bumpIf (p.2 || d.push) .clsRwSkip, some p.1)
    else
      let r := s.cfgEnt 6 par d.rw
      match r.2 with
      | none => (r.1, none)
      | some rec_ =>
        let w := rewrite c rec_ p.1
        let out := if d.push then pushTag (eb rec_ 4 31 16) (eb rec_ 4 15 0) w.1 else w.1
        (r.1.bumpIf (p.2 || w.2) .clsRwSkip, some out)

/-! ## Table commands (R97 to R99) -/

/-- The staged entry. -/
def State.clsStaged (s : State) : List Word := (List.range 16).map fun k => s.rd .clsEntData k

/-- Load the staging registers. -/
def State.clsStage (s : State) (e : List Word) : State :=
  (List.range 16).foldl (fun s k => s.wr .clsEntData k (ew e k)) s

/-- A command ends with a result and an index. -/
def State.clsDone (s : State) (res idx : Nat) : State :=
  s.wr .clsEntStat 0 (putBits (putBits 0 31 28 res) 17 0 idx)

/-- The loader holds the tables for a shadow load or an epoch cleanup (R98). -/
def State.loaderHolds (s : State) : Bool := s.boot.loading.isSome || s.boot.cleanup

/-- Host commands may set only the active epoch's parity bit (R98). -/
def State.hostMask (s : State) (mask : Nat) : Bool := mask == 2 ^ (s.epoch % 2)

/-- The staged words would store a reserved verdict or pop count (R97). -/
def actReserved (e : List Word) : Bool := eb e 13 31 30 == 3 || eb e 14 22 21 == 3

/-- The rule entry that DELETE or INSERT finds in a bank: equal key and profile, and masks that `p` relates. -/
def State.ruleFind (s : State) (bank : Nat) (e : List Word) (p : Nat → Bool) : Option Nat :=
  ((s.ruleProbed bank (e.take 12)).find? fun n =>
    let x := s.ent 1 0 n
    entValid x && keyEq x (e.take 12) && eb x 12 19 15 == eb e 12 19 15 && p (eb x 15 1 0))

/-- INSERT of a rule entry into a bank (R97): the state, the result and the index. The reserved bits of an entry are zero. The entry
is valid whatever valid bit is staged (DESIGN CHOICE, assumption 96: the spec does not say what a staged valid = 0 does). -/
def State.ruleInsert (s : State) (bank : Nat) (e : List Word) : State × Nat × Nat :=
  match s.ruleFind bank e fun m => (m &&& eb e 15 1 0) != 0 with
  | some n => (s, 1, n)
  | none =>
    match s.freeEnt 1 (bank * 8192) (s.ruleBucket bank (e.take 12)) (32768 + bank * 128) 128 entValid with
    | none => (s, 2, 0)
    | some n =>
      let e := e.take 12 ++ [ew e 12 &&& 0xFFFFBF00, ew e 13 &&& 0xFFFF0FFF, ew e 14 &&& 0xFFFFFFC0,
        BitVec.ofNat 32 (2147483648 + eb e 15 1 0)]
      ((s.writeEnt 1 0 n e).setEnt 2 0 n [0, 0], 0, n)

/-- The table of CLS_ENT_CMD. -/
def State.clsTable (s : State) : Nat := s.fld F.clsEntCmd_table

/-- The index of CLS_ENT_INDEX lies in the table. -/
def State.clsIdx (s : State) : Option Nat :=
  let n := s.fld F.clsEntIndex_index
  if n < (if s.clsTable = 0 then 33280 else 133120) then some n else none

/-- A rule-table command of host software meets a loader that holds the table (R98). `h` says that host software sends it. -/
def State.clsBusy (s : State) (h : Bool) : Bool := h && s.clsTable == 0 && s.loaderHolds

/-- INSERT (R97). `h` says that host software sends it. -/
def State.clsInsert (s : State) (h : Bool) : State :=
  let e := s.clsStaged
  if s.clsTable ≠ 0 then s.clsDone 5 0
  else if s.clsBusy h then s.clsDone 4 0
  else if actReserved e || (h && !s.hostMask (eb e 15 1 0)) then s.clsDone 5 0
  else
    let r := s.ruleInsert (s.fld F.clsEntCmd_bank) e
    r.1.clsDone r.2.1 r.2.2

/-- DELETE (R97). -/
def State.clsDelete (s : State) (h : Bool) : State :=
  let e := s.clsStaged
  if 2 ≤ s.clsTable then s.clsDone 5 0
  else if s.clsBusy h then s.clsDone 4 0
  else if s.clsTable = 0 then
    match s.ruleFind (s.fld F.clsEntCmd_bank) e fun m => m == eb e 15 1 0 with
    | some n => (s.delEnt 1 0 n).clsDone 0 n
    | none => s.clsDone 3 0
  else
    let k := e.take 12
    let hash := crcHash (s.rd .clsHashSeed).toNat (bytesOf k)
    match (s.probed 3 0 (hash % 32768) 131072 2048).find? fun n => entValid (s.ent 3 0 n) && keyEq (s.ent 3 0 n) k with
    | some n => (s.delEnt 3 0 n).clsDone 0 n
    | none => s.clsDone 3 0

/-- READ (R97). A connection with an uncorrectable error is answered as stored and stays until a frame reads it (DESIGN CHOICE,
assumption 78: R92 speaks of frames). -/
def State.clsRead (s : State) (h : Bool) : State :=
  if 2 ≤ s.clsTable then s.clsDone 5 0
  else if s.clsBusy h then s.clsDone 4 0
  else match s.clsIdx with
    | none => s.clsDone 5 0
    | some n =>
      let id := if s.clsTable = 0 then 1 else 3
      let r := s.readEnt id 0 n 0
      if !entValid r.2.1 then (r.1.clsStage []).clsDone 3 n
      else (r.1.clsStage r.2.1).clsDone (if r.2.2 && decide (s.clsTable = 0) then 6 else 0) n

/-- SET_ACTION (R97). -/
def State.clsSetAction (s : State) (h : Bool) : State :=
  let e := s.clsStaged
  if s.clsTable ≠ 0 then s.clsDone 5 0
  else if s.clsBusy h then s.clsDone 4 0
  else match s.clsIdx with
    | none => s.clsDone 5 0
    | some n =>
      let x := s.ent 1 0 n
      if actReserved e then s.clsDone 5 0
      else if !entValid x then s.clsDone 3 n
      else (s.writeEnt 1 0 n ((x.set 13 (ew e 13 &&& 0xFFFF0FFF)).set 14 (ew e 14 &&& 0xFFFFFFC0))).clsDone 0 n

/-- SET_EPOCH (R97, R98). -/
def State.clsSetEpoch (s : State) (h : Bool) : State :=
  let m := eb s.clsStaged 15 1 0
  if s.clsTable ≠ 0 then s.clsDone 5 0
  else if s.clsBusy h then s.clsDone 4 0
  else match s.clsIdx with
    | none => s.clsDone 5 0
    | some n =>
      let x := s.ent 1 0 n
      if h && !s.hostMask m then s.clsDone 5 0
      else if !entValid x then s.clsDone 3 n
      else (s.writeEnt 1 0 n (eput x 15 1 0 m)).clsDone 0 n

/-- Delete every valid entry of a table for which `p` holds. -/
def State.purge (s : State) (id par : Nat) (p : List Word → Bool) : State :=
  (s.listed id par 0 (tabCount id)).foldl (fun s e => if p e.2 then s.delEnt id par e.1 else s) s

/-- FLUSH (R97). An expired connection that FLUSH or DELETE removes before the sweep is not counted in CLS_CT_EXPIRE (DESIGN CHOICE,
assumption 78). -/
def State.clsFlush (s : State) : State :=
  if s.clsTable ≠ 1 then s.clsDone 5 0 else (s.purge 3 0 entValid).clsDone 0 0

/-- A write of CLS_ENT_CMD (R97): its fields, and when go is written the command that op names. The command completes in
the step, so that go reads 0 afterwards. -/
def State.wrClsEntCmd (s : State) (p : Path) (data : Word) : State :=
  let h := p != .fw
  let s := s.writeReg .clsEntCmd 0 data
  if !getBit data 31 then s
  else
    let s := s.flushBlk .cls
    let op := s.fld F.clsEntCmd_op
    if op = 1 then s.clsInsert h
    else if op = 2 then s.clsDelete h
    else if op = 3 then s.clsRead h
    else if op = 4 then s.clsSetAction h
    else if op = 5 then s.clsSetEpoch h
    else if op = 6 then s.clsFlush
    else s.clsDone 5 0

/-- The word that a command writes to CLS_ENT_CMD. -/
def clsCmdWord (op table bank : Nat) : Word := putBits (putBits (putBits (putBits 0 31 31 1) 27 24 op) 19 18 table) 17 16 bank

/-- A go write of CLS_ENT_CMD on a path. -/
def State.clsCmd (s : State) (p : Path) (op table bank : Nat) : State :=
  s.accessReg p .clsEntCmd 0 (clsCmdWord op table bank) fun s => s.wrClsEntCmd p (clsCmdWord op table bank)

def execClsInsert (path : Path) (table bank : BitVec 2) (s : State) : Host.Outcome State Fault Refusal :=
  .next (s.clsCmd path 1 table.toNat bank.toNat)

def execClsDelete (path : Path) (table bank : BitVec 2) (s : State) : Host.Outcome State Fault Refusal :=
  .next (s.clsCmd path 2 table.toNat bank.toNat)

def execClsRead (path : Path) (table : BitVec 2) (s : State) : Host.Outcome State Fault Refusal :=
  .next (s.clsCmd path 3 table.toNat 0)

def execClsSetAction (path : Path) (table : BitVec 2) (s : State) : Host.Outcome State Fault Refusal :=
  .next (s.clsCmd path 4 table.toNat 0)

def execClsSetEpoch (path : Path) (table : BitVec 2) (s : State) : Host.Outcome State Fault Refusal :=
  .next (s.clsCmd path 5 table.toNat 0)

def execClsFlush (path : Path) (table : BitVec 2) (s : State) : Host.Outcome State Fault Refusal :=
  .next (s.clsCmd path 6 table.toNat 0)

end Sys2Proof.Machine
end

