-- ==== Sys2Proof/Machine/Forward.lean ====
section
/-! DEFINITION. The forwarding and routing tables (R104 to R124), learning and ageing (R112 to R121), and their commands
(R132). -/

namespace Sys2Proof.Machine

open Sys2Proof

/-! ## VLANs (R105 to R107) -/

/-- The VLAN entry of a VID, absent as zero (R106), and whether it failed its parity check. -/
def State.vlan (s : State) (par vid : Nat) : State × List Word × Bool := s.readEnt 0x11 par vid 3

/-- The VLAN is present. -/
def vlanOk (v : List Word) : Bool := ebit v 0 31

/-- The member ports of a VLAN. -/
def vlanMembers (v : List Word) : Nat := if vlanOk v then eb v 0 17 0 else 0

/-- The outer VID of a frame's bytes, when it has an outer tag. -/
def outerVid (c : ParseCfg) (bs : List Byte) : Option Nat :=
  if c.tpid (fieldAt bs 12 2) then some (fieldAt bs 14 2 % 4096) else none

/-- The ingress VID (R105). -/
def State.ingressVid (s : State) (port epoch : Nat) (x : Parse) : Nat :=
  if x.has 0 && x.val 5 != 0 then x.val 5 else s.fldEp F.fdbPortCfg_pvid port epoch

/-- The forwarding VID (R105) of the edited bytes. -/
def State.forwardVid (s : State) (port : Nat) (iv : Nat) (bytes : List Byte) : Nat :=
  match outerVid (s.parseCfg port) bytes with
  | some v => if v = 0 then iv else v
  | none => iv

/-! ## The L2 forwarding database (R109 to R111) -/

/-- The MAC address and FID of an FDB entry. -/
def fdbMac (e : List Word) : Nat := (ew e 0).toNat * 65536 + eb e 1 31 16
def fdbFid (e : List Word) : Nat := eb e 1 11 0

/-- An FDB entry is valid, static. -/
def fdbValid (e : List Word) : Bool := ebit e 3 31
def fdbStatic (e : List Word) : Bool := ebit e 2 31

/-- The port of an FDB entry. -/
def fdbPort (e : List Word) : Nat := eb e 2 11 6

/-- A dynamic entry has expired (R119). -/
def State.fdbExpired (s : State) (e : List Word) : Bool :=
  let age := s.fld F.fdbAgeCfg_age_s
  !fdbStatic e && age != 0 && decide (age ≤ (s.nowS + 65536 - eb e 3 19 4) % 65536)

/-- An FDB entry is in hold (R116). -/
def State.fdbHeld (s : State) (e : List Word) : Bool :=
  eb e 3 30 20 != 0x7FF && decide ((s.nowMs + 2047 - eb e 3 30 20) % 2047 < s.fld F.fdbLearnCfg_move_hold_ms)

/-- The bucket of a FID and MAC address. -/
def State.fdbBucket (s : State) (fid mac : Nat) : Nat :=
  crcHash (s.rd .fdbHashSeed).toNat (beBytes 2 fid ++ beBytes 6 mac) % 16384

/-- The entries that a FID and MAC address probe. -/
def State.fdbProbed (s : State) (fid mac : Nat) : List Nat := s.probed 0x10 0 (s.fdbBucket fid mac) 65536 1024

/-- A valid entry has this key. -/
def fdbKeyEq (fid mac : Nat) (e : List Word) : Bool := fdbValid e && fdbFid e == fid && fdbMac e == mac

/-- A lookup on behalf of a frame (R110): the state and the hit. -/
def State.fdbLookup (s : State) (par fid mac : Nat) : State × Option (Nat × List Word) :=
  let r := s.readAll 0x10 0 3 (s.fdbProbed fid mac)
  (r.1, r.2.1.find? fun e => fdbKeyEq fid mac e.2 && epHas (eb e.2 3 1 0) par && !r.1.fdbExpired e.2)

/-- The ports of a bitmap. -/
def portsOf (mask : Nat) : List Nat := (List.range 18).filter fun p => gateBit mask p

/-- What a lookup decides of a frame: its destination ports, how its copies leave, the forwarding VID and the bytes. -/
structure Fwd where
  ports : List Nat
  /-- 0 tagged for each port (R108), 1 as R93 left it, 2 as received -/
  form  : Nat
  vid   : Nat
  bytes : List Byte
  deriving DecidableEq, Repr

/-- The result of a DA lookup: one port, a group, or a flood of a type (R110). -/
inductive DaRes where
  | port (p : Nat)
  | group (mask : Nat)
  | flood (kind : Nat)
  | drop (c : Ctr)
  deriving DecidableEq, Repr

/-- The DA lookup in the FID of a VLAN (R110). -/
def State.daLookup (s : State) (par : Nat) (v : List Word) (da : Nat) : State × DaRes :=
  let r := s.fdbLookup par (eb v 0 29 18) da
  match r.2 with
  | some (_, e) =>
    if ebit e 2 30 then (r.1, .drop .fdbDropDa)
    else if ebit e 2 29 then
      let g := r.1.readEnt 0x12 par (eb e 2 27 18) 3
      if g.2.2 then (g.1, .drop .fdbDropParity) else (g.1, .group (eb g.2.1 0 17 0))
    else (r.1, .port (fdbPort e))
  | none =>
    (r.1, if da = 0xFFFFFFFFFFFF then .flood 2 else if da / 2 ^ 40 % 2 = 1 then .flood 1 else .flood 0)

/-- Refine a destination set (R111). -/
def State.refine (s : State) (port epoch : Nat) (v : List Word) (routed : Bool) : DaRes → State × Option (List Nat)
  | .drop c => (s.bump c, none)
  | .port p =>
    if !gateBit (vlanMembers v) p || 18 ≤ p then (s.bump .fdbDropVlanOut, none)
    else if p = port ∧ !routed ∧ s.fldEp F.fdbPortCfg_hairpin port epoch = 0 then (s.bump .fdbDropSamePort, none)
    else (s, some [p])
  | .group m =>
    let l := (portsOf (m &&& vlanMembers v)).filter fun p =>
      p != port || routed || s.fldEp F.fdbPortCfg_hairpin port epoch != 0
    if l.isEmpty then (s.bump .fdbDropEmpty, none) else (s, some l)
  | .flood k =>
    let s := s.bump (if k = 0 then .fdbFloodUu else if k = 1 then .fdbFloodMc else .fdbFloodBc)
    let m := if ebit v 1 (18 + k) then vlanMembers v &&& getBits (s.rdEp .fdbFloodMask k epoch) 17 0 else 0
    let l := (portsOf m).filter fun p => p != port || routed || s.fldEp F.fdbPortCfg_hairpin port epoch != 0
    if l.isEmpty then (s.bump .fdbDropEmpty, none) else (s, some l)

/-! ## Learning notices (R112 to R114) -/

/-- The pending-notice filter entry of a pair. -/
def State.pendFind (s : State) (fid mac : Nat) : Option Pend := s.net.pend.find? fun e => e.fid == fid && e.mac == mac

/-- Release filter entries. -/
def State.pendDrop (s : State) (p : Pend → Bool) : State :=
  { s with net := { s.net with pend := s.net.pend.filter fun e => !p e } }

/-- The four words of a notice (R114). -/
def noticeItem (ty fid mac old port arr : Nat) (cont : Bool) : MqItem :=
  ⟨[BitVec.ofNat 32 (mac / 65536), BitVec.ofNat 32 (mac % 65536 * 65536 + fid),
    putBits (putBits (putBits (putBits 0 31 30 ty) 29 29 cont.toNat) 13 8 old) 5 0 port, BitVec.ofNat 32 arr]⟩

/-- Post a notice. The runtime of MINIMAL takes every notice at once (R404), and its queue is no message queue of the map (DESIGN CHOICE,
assumption 86). -/
def State.postNotice (s : State) (x : MqItem) : State × Bool :=
  if s.op = .minimal then (s, true) else s.mqPost (s.fld F.fdbLearnCfg_mq) x

/-- Offer a notice (R113). -/
def State.offerNotice (s : State) (ty fid mac old port arr : Nat) : State :=
  match s.pendFind fid mac with
  | none =>
    if 64 ≤ s.net.pend.length then s.bump .fdbNoticeLost
    else
      let r := s.postNotice (noticeItem ty fid mac old port arr false)
      if r.2 then
        let s := r.1.bump .fdbNoticePosted
        { s with net := { s.net with pend := s.net.pend ++ [⟨fid, mac, port, false, s.tim.lt⟩] } }
      else r.1.bump .fdbNoticeLost
  | some e =>
    if e.port = port ∨ e.cont then s.bump .fdbNoticeSupp
    else
      let r := s.postNotice (noticeItem ty fid mac old port arr true)
      if r.2 then
        let s := r.1.bump .fdbNoticePosted
        { s with net := { s.net with pend := s.net.pend.map fun x =>
            if x.fid = fid ∧ x.mac = mac then { x with cont := true } else x } }
      else r.1.bump .fdbNoticeLost

/-- The SA lookup (R112): the state, and whether the frame is dropped for a static conflict. -/
def State.saLookup (s : State) (port epoch : Nat) (v : List Word) (sa arr : Nat) : State × Bool :=
  if sa / 2 ^ 40 % 2 = 1 ∨ !vlanOk v then (s, false)
  else
    let fid := eb v 0 29 18
    let learn := s.on F.fdbLearnCfg_en && ebit v 0 30 && s.fldEp F.fdbPortCfg_learn_en port epoch != 0
    let r := s.fdbLookup epoch fid sa
    let s := r.1
    match r.2 with
    | none => (if learn then s.offerNotice 1 fid sa 63 port arr else s, false)
    | some (n, e) =>
      if fdbStatic e then
        if fdbPort e ≠ port ∧ s.fldEp F.fdbPortCfg_static_sa_drop port epoch ≠ 0 then (s.bump .fdbDropSaStatic, true)
        else (s, false)
      else if fdbPort e = port then
        let now := s.nowS % 65536
        (if eb e 3 19 4 = now then s else s.writeEnt 0x10 0 n (eput e 3 19 4 now), false)
      else (if learn then s.offerNotice 2 fid sa (fdbPort e) port arr else s, false)

/-- A filter entry has stood for pend_tmo_ms (R113). -/
def execPendingFilterTimeout (fid : BitVec 12) (mac : BitVec 48) (s : State) : Host.Outcome State Fault Refusal :=
  .next (if s.fabricOn then s.pendDrop fun e => e.fid == fid.toNat && e.mac == mac.toNat &&
    decide (e.since + tkMs (s.fld F.fdbLearnCfg_pend_tmo_ms) ≤ s.tim.lt) else s)

/-! ## Routing (R122 to R124) -/

/-- Bits [hi:lo] of an address. -/
def addrBits (a hi lo : Nat) : Nat := a / 2 ^ lo % 2 ^ (hi - lo + 1)

/-- A trie walk below level 1 (R124): the address bytes still to use, the pool table and its node offset per level. -/
def State.trieWalk (s : State) (id par : Nat) : List (Nat × Nat) → List Word → Option (List Word) →
    State × Option (List Word) × Bool
  | [], e, best => (s, if ebit e 0 31 then some e else best, false)
  | (off, b) :: t, e, best =>
    let best := if ebit e 0 31 then some e else best
    if !ebit e 0 30 then (s, best, false)
    else
      let r := s.readEnt id par ((off + eb e 0 25 16) * 256 + b) 3
      if r.2.2 then (r.1, none, true) else r.1.trieWalk id par t r.2.1 best

/-- The longest prefix match of an IPv4 or IPv6 destination (R123 step 2): the result word, and whether an entry failed its
parity check. The host table and the trie are probed in the same pass. -/
def State.lpm (s : State) (par : Nat) (v6 : Bool) (da : Nat) : State × Option (List Word) × Bool :=
  if !v6 then
    let r := s.readEnt 0x13 par (addrBits da 31 16) 3
    if r.2.2 then (r.1, none, true)
    else r.1.trieWalk 0x14 par [(0, addrBits da 15 8), (512, addrBits da 7 0)] r.2.1 none
  else
    let b := crcHash (s.rd .fdbHashSeed).toNat (beBytes 16 da) % 128
    let h := s.readAll 0x17 0 3 ((List.range 4).map fun w => b * 4 + w)
    let hit := h.2.1.find? fun e => ebit e.2 4 31 && epHas (eb e.2 4 1 0) par && beNat (bytesOf (e.2.take 4)) == da
    let r := h.1.readEnt 0x15 par (addrBits da 127 112) 3
    let t := if r.2.2 then (r.1, none, true)
      else r.1.trieWalk 0x16 par ([111, 103, 95, 87, 79, 71].map fun hi => (0, addrBits da hi (hi - 7))) r.2.1 none
    if !h.2.2.isEmpty || t.2.2 then (t.1, none, true)
    else match hit with
      | some (_, e) => (t.1, if ebit e 5 31 then some [ew e 5] else none, false)
      | none => t

/-- The result type of a trie result; the reserved code 3 stands for one of the others, which the spec leaves open. -/
def resType (e : List Word) : Nat :=
  if eb e 0 29 28 = 3 then (Config.reservedRoute (ew e 0)).toNat % 3 else eb e 0 29 28

/-- A frame is routed (R122). `da` is the DA after step 5 of R93, `dip` the destination address. -/
def State.routed (s : State) (x : Parse) (v : List Word) (da : Nat) : Bool :=
  let rmac := s.fld F.fdbRmacHi_mac_hi * 4294967296 + (s.rd .fdbRmacLo).toNat
  ((x.kind == 1 && s.on F.fdbGlbCfg_v4_en && decide (x.val 0x0B / 2 ^ 28 ≠ 14)) ||
    (x.kind == 2 && s.on F.fdbGlbCfg_v6_en && decide (x.val 0x0D / 2 ^ 120 ≠ 255)))
    && vlanOk v && ebit v 1 21 && da == rmac

/-- Decrement the TTL or hop limit, with the IPv4 checksum (R123 step 4). -/
def decTtl (x : Parse) (bs : List Byte) : List Byte :=
  match x.l3 with
  | none => bs
  | some o =>
    if x.kind = 1 then
      let old := fieldAt bs (o + 8) 2
      fixSum (setBytes bs (o + 8) (beBytes 2 (old - 256))) (o + 10) old (old - 256)
    else setBytes bs (o + 7) (beBytes 1 (fieldAt bs (o + 7) 1 - 1))

/-- The TTL or hop limit. -/
def ttlOf (x : Parse) (bs : List Byte) : Nat := match x.l3 with
  | some o => fieldAt bs (if x.kind = 1 then o + 8 else o + 7) 1
  | none => 0

/-- The route of a frame (R123). `y` is the parse of the edited bytes. -/
def State.route (s : State) (port epoch : Nat) (x y : Parse) (vid : Nat) (bytes : List Byte) : State × Option Fwd :=
  if ttlOf y bytes ≤ 1 then (s.bump .fdbTrapTtl, some ⟨[17], 2, vid, bytes⟩)
  else
    let v6 := x.kind == 2
    let r := s.lpm epoch v6 (if v6 then y.val 0x0D else y.val 0x0B)
    if r.2.2 then (r.1.bump .fdbDropParity, none)
    else match r.2.1 with
      | none => (r.1.bump .fdbDropNoRoute, none)
      | some e =>
        if resType e = 2 then (r.1.bump .fdbDropRoute, none)
        else if resType e = 1 then (r.1.bump .fdbTrapLocal, some ⟨[17], 1, vid, bytes⟩)
        else
          let h := r.1.readEnt 0x18 epoch (eb e 0 11 0) 3
          if h.2.2 then (h.1.bump .fdbDropParity, none)
          else if !ebit h.2.1 0 31 then (h.1.bump .fdbDropRoute, none)
          else
            let nh := h.2.1
            let nvid := eb nh 0 11 0
            let rm := beBytes 2 (h.1.fld F.fdbRmacHi_mac_hi) ++ beBytes 4 (h.1.rd .fdbRmacLo).toNat
            let mac := (ew nh 1).toNat * 65536 + eb nh 2 31 16
            let b := decTtl y (setBytes bytes 0 (beBytes 6 mac ++ rm))
            let v := h.1.vlan epoch nvid
            if v.2.2 then (v.1.bump .fdbDropParity, none)
            else if !vlanOk v.2.1 then (v.1.bump .fdbDropVlanOut, none)
            else
              let d := if eb nh 0 23 18 = 63 then v.1.daLookup epoch v.2.1 mac else (v.1, .port (eb nh 0 23 18))
              let f := d.1.refine port epoch v.2.1 true d.2
              (f.1, f.2.map fun l => ⟨l, 0, nvid, b⟩)

/-- The ingress filter passes a frame of the VLAN (R107). -/
def State.ingressOk (s : State) (port epoch : Nat) (v : List Word) : Bool :=
  s.fldEp F.fdbPortCfg_ingress_filter port epoch == 0 || gateBit (vlanMembers v) port

/-- The forwarding lookup of an Ethernet frame (R104 to R112, R122). `x` is the parse of the frame as received, `bytes` what
the edits of R93 left, `arr` its arrival time. -/
def State.ethLookup (s : State) (port epoch : Nat) (x : Parse) (bytes : List Byte) (arr : Nat) : State × Option Fwd :=
  let iv := s.ingressVid port epoch x
  let fv := s.forwardVid port iv bytes
  let i := s.vlan epoch iv
  if i.2.2 then (i.1.bump .fdbDropParity, none)
  else if !i.1.ingressOk port epoch i.2.1 then
    (i.1.bump .fdbDropVlanIn, none)
  else
    let sa := i.1.saLookup port epoch i.2.1 (x.val 4) arr
    if sa.2 then (sa.1, none)
    else
      let v := sa.1.vlan epoch fv
      if v.2.2 then (v.1.bump .fdbDropParity, none)
      else
        let da := fieldAt bytes 0 6
        if !v.1.basic && v.1.routed x v.2.1 da then
          v.1.route port epoch x (parseEth (v.1.parseCfg port) bytes) fv bytes
        else if !vlanOk v.2.1 then (v.1.bump .fdbDropVlanOut, none)
        else
          let d := v.1.daLookup epoch v.2.1 da
          let f := d.1.refine port epoch v.2.1 false d.2
          (f.1, f.2.map fun l => ⟨l, 0, fv, bytes⟩)

/-! ## Commands (R115, R117, R121, R132) -/

/-- The staged FDB entry. -/
def State.fdbStaged (s : State) : List Word := (List.range 4).map fun k => s.rd .fdbEntData k

/-- A command ends with a result and an index. -/
def State.fdbDone (s : State) (res idx : Nat) : State := s.wr .fdbEntStat 0 (putBits (putBits 0 31 28 res) 16 0 idx)

/-- The command completes, and the filter entry of its pair is released (R113). -/
def State.fdbDonePair (s : State) (e : List Word) (res idx : Nat) : State :=
  (s.pendDrop fun x => x.fid == fdbFid e && x.mac == fdbMac e).fdbDone res idx

/-- Consecutive flap windows (R117): a window that has ended gives way to the one that holds the present. -/
def State.flapRoll (s : State) : State :=
  let w := tkMs (s.fld F.fdbFlapCfg_flap_win_ms)
  if s.net.flapAt + w ≤ s.tim.lt then
    { s with net := { s.net with flapAt := s.net.flapAt + (s.tim.lt - s.net.flapAt) / w * w, flapN := 0 } }
  else s

/-- A HELD result (R115, R117). -/
def State.flapHeld (s : State) (e : List Word) : State :=
  let s := (s.bump .fdbFlapCount).flapRoll
  let n := s.net.flapN + 1
  let s := { s with net := { s.net with flapN := n } }
  if n = s.fld F.fdbFlapCfg_flap_thr then
    let s := (s.wr .fdbFlapLast0 0 (ew e 0)).wr .fdbFlapLast1 0 (ew e 1 &&& 0xFFFF0FFF)
    (s.wr .fdbFlapLast2 0 (BitVec.ofNat 32 (fdbPort e))).raise Ev.macFlap
  else s

/-- A dynamic entry with the staged key and port, seen now. -/
def State.fdbDyn (s : State) (e : List Word) : List Word :=
  [ew e 0, ew e 1 &&& 0xFFFF0FFF, putBits 0 11 6 (fdbPort e),
    putBits (putBits (putBits (putBits 0 31 31 1) 30 20 s.nowMs) 19 4 (s.nowS % 65536)) 1 0 3]

/-- LEARN (R115) of an entry. -/
def State.fdbLearn (s : State) (e : List Word) : State :=
  let idx := s.fdbProbed (fdbFid e) (fdbMac e)
  let same := (idx.map fun n => (n, s.ent 0x10 0 n)).filter fun x => fdbKeyEq (fdbFid e) (fdbMac e) x.2
  match same.find? fun x => fdbStatic x.2 with
  | some (n, _) => s.fdbDonePair e 9 n
  | none =>
    match same with
    | (n, x) :: _ =>
      if s.fdbExpired x then (s.writeEnt 0x10 0 n (s.fdbDyn e)).fdbDonePair e 0 n
      else if fdbPort x = fdbPort e then (s.writeEnt 0x10 0 n (eput x 3 19 4 (s.nowS % 65536))).fdbDonePair e 0 n
      else if s.fdbHeld x then (s.flapHeld e).fdbDonePair e 8 n
      else (s.writeEnt 0x10 0 n (eput (eput x 2 11 6 (fdbPort e)) 3 30 20 s.nowMs)).fdbDonePair e 7 n
    | [] =>
      match s.freeEnt 0x10 0 (s.fdbBucket (fdbFid e) (fdbMac e)) 65536 1024 fdbValid with
      | some n => (s.writeEnt 0x10 0 n (s.fdbDyn e)).fdbDonePair e 0 n
      | none => (s.bump .fdbLearnFail).fdbDonePair e 2 0

/-- The runtime of MINIMAL issues one LEARN for each notice, in their order (R404); each LEARN releases its filter entry (R113). -/
def State.runtimeLearn (s : State) : State :=
  if s.op = .minimal then
    s.net.pend.foldl (fun s x => s.fdbLearn [BitVec.ofNat 32 (x.mac / 65536), BitVec.ofNat 32 (x.mac % 65536 * 65536 + x.fid),
      BitVec.ofNat 32 (x.port * 64), 0]) s
  else s

/-- Place a static entry (R132): the result and the index. An expired dynamic entry of the key answers EXISTS until the sweep deletes it (DESIGN
CHOICE, assumption 81). -/
def State.fdbPlace (s : State) (e : List Word) : State × Nat × Nat :=
  let idx := s.fdbProbed (fdbFid e) (fdbMac e)
  match idx.find? fun n => fdbKeyEq (fdbFid e) (fdbMac e) (s.ent 0x10 0 n) && (eb (s.ent 0x10 0 n) 3 1 0 &&& eb e 3 1 0) != 0 with
  | some n => (s, 1, n)
  | none =>
    match s.freeEnt 0x10 0 (s.fdbBucket (fdbFid e) (fdbMac e)) 65536 1024 fdbValid with
    | none => (s, 2, 0)
    | some n =>
      (s.writeEnt 0x10 0 n [ew e 0, ew e 1 &&& 0xFFFF0FFF, (ew e 2 &&& 0x6FFC0FC0) ||| 0x80000000,
        BitVec.ofNat 32 (0xFFF00000 + eb e 3 1 0)], 0, n)

/-- INSERT (R132, R98). `h` says that host software sends it. A command that ends with BAD_ARG completes for its pair too, and so releases the
notice filter of R113 (DESIGN CHOICE, assumption 81). -/
def State.fdbInsert (s : State) (h : Bool) : State :=
  let e := s.fdbStaged
  if h && s.loaderHolds then s.fdbDone 4 0
  else if h && !s.hostMask (eb e 3 1 0) then s.fdbDonePair e 5 0
  else
    let r := s.fdbPlace e
    r.1.fdbDonePair e r.2.1 r.2.2

/-- DELETE (R132). -/
def State.fdbDelete (s : State) (h : Bool) : State :=
  let e := s.fdbStaged
  if h && s.loaderHolds then s.fdbDone 4 0
  else match (s.fdbProbed (fdbFid e) (fdbMac e)).find? fun n =>
      fdbKeyEq (fdbFid e) (fdbMac e) (s.ent 0x10 0 n) && eb (s.ent 0x10 0 n) 3 1 0 == eb e 3 1 0 with
    | some n => (s.delEnt 0x10 0 n).fdbDonePair e 0 n
    | none => s.fdbDonePair e 3 0

/-- READ (R132). -/
def State.fdbRead (s : State) (h : Bool) : State :=
  let n := s.fld F.fdbEntIndex_index
  if h && s.loaderHolds then s.fdbDone 4 0
  else if 66560 ≤ n then s.fdbDone 5 0
  else
    let r := s.readEnt 0x10 0 n 0
    let put (s : State) (e : List Word) : State := (List.range 4).foldl (fun s k => s.wr .fdbEntData k (ew e k)) s
    if !fdbValid r.2.1 then (put r.1 []).fdbDone 3 n else (put r.1 r.2.1).fdbDone (if r.2.2 then 6 else 0) n

/-- Delete the dynamic entries, and release the filter entries, of a port or a FID, or all of them (R121). -/
def State.fdbPurge (s : State) (port fid : Option Nat) : State :=
  let s := s.purge 0x10 0 fun e => fdbValid e && !fdbStatic e && port.all (fdbPort e == ·) && fid.all (fdbFid e == ·)
  s.pendDrop fun e => port.all (e.port == ·) && fid.all (e.fid == ·)

/-- FLUSH (R121). -/
def State.fdbFlush (s : State) (h : Bool) : State :=
  if h && s.loaderHolds then s.fdbDone 4 0
  else (s.fdbPurge (if s.on F.fdbFlushSel_by_port then some (s.fld F.fdbFlushSel_port) else none)
    (if s.on F.fdbFlushSel_by_fid then some (s.fld F.fdbFlushSel_fid) else none)).fdbDone 0 0

/-- A write of FDB_ENT_CMD (R132). -/
def State.wrFdbEntCmd (s : State) (p : Path) (data : Word) : State :=
  let h := p != .fw
  let s := s.writeReg .fdbEntCmd 0 data
  if !getBit data 31 then s
  else
    let s := s.flushBlk .fdb
    let op := s.fld F.fdbEntCmd_op
    if op = 1 then s.fdbInsert h
    else if op = 2 then s.fdbDelete h
    else if op = 3 then s.fdbRead h
    else if op = 6 then s.fdbFlush h
    else if op = 7 then (if h && s.loaderHolds then s.fdbDone 4 0 else s.fdbLearn s.fdbStaged)
    else s.fdbDone 5 0

/-- A go write of FDB_ENT_CMD on a path. -/
def State.fdbCmd (s : State) (p : Path) (op : Nat) : State :=
  let w := putBits (putBits 0 31 31 1) 27 24 op
  s.accessReg p .fdbEntCmd 0 w fun s => s.wrFdbEntCmd p w

def execFdbInsert (path : Path) (s : State) : Host.Outcome State Fault Refusal := .next (s.fdbCmd path 1)

def execFdbDelete (path : Path) (s : State) : Host.Outcome State Fault Refusal := .next (s.fdbCmd path 2)

def execFdbRead (path : Path) (s : State) : Host.Outcome State Fault Refusal := .next (s.fdbCmd path 3)

def execFdbFlush (path : Path) (s : State) : Host.Outcome State Fault Refusal := .next (s.fdbCmd path 6)

def execFdbLearn (path : Path) (s : State) : Host.Outcome State Fault Refusal := .next (s.fdbCmd path 7)

/-! ## The sweep (R116, R119, R120) -/

/-- The age of a dynamic entry reaches age_s (R119): lookups treat it as absent from then on, as `fdbExpired` says. -/
def execFdbEntryExpiry (_n : BitVec 17) (s : State) : Host.Outcome State Fault Refusal := .next s

/-- The sweep deletes an expired entry (R119). -/
def execFdbSweepDelete (n : BitVec 17) (s : State) : Host.Outcome State Fault Refusal :=
  let e := s.ent 0x10 0 n.toNat
  .next (if s.fabricOn && fdbValid e && s.fdbExpired e then (s.delEnt 0x10 0 n.toNat).bump .fdbAgeDel else s)

/-- The sweep ends a hold that has elapsed (R116). -/
def execFdbHoldElapse (n : BitVec 17) (s : State) : Host.Outcome State Fault Refusal :=
  let e := s.ent 0x10 0 n.toNat
  .next (if s.fabricOn && fdbValid e && !fdbStatic e && !s.fdbHeld e then s.writeEnt 0x10 0 n.toNat (eput e 3 30 20 0x7FF) else s)

/-- A flap window ends (R117). -/
def execFlapWindowEnd (s : State) : Host.Outcome State Fault Refusal := .next (if s.fabricOn then s.flapRoll else s)

/-- A write of FDB_FLAP_CFG ends the window at the write (R117). -/
def State.wrFlapCfg (s : State) (data : Word) : State :=
  let s := s.writeReg .fdbFlapCfg 0 data
  { s with net := { s.net with flapAt := s.tim.lt, flapN := 0 } }

end Sys2Proof.Machine
end

