-- ==== Sys2Proof/Machine/Streams.lean ====
section
/-! DEFINITION. Streams: identification, sequence numbers and recovery (R126 to R129), policing (R189 to R193), and the
repair of table entries (R131, R367). -/

namespace Sys2Proof.Machine

open Sys2Proof

/-! ## Identification (R126, R127) -/

/-- The 12 key bytes of an identification method (R126). -/
def sidKey (m : Nat) (x : Parse) : Nat :=
  if m = 0 then x.val 5 * 2 ^ 48 + x.val 3
  else if m = 1 then x.val 5 * 2 ^ 48 + x.val 4
  else if m = 2 then x.val 0x0B * 2 ^ 56 + x.val 0x0A * 2 ^ 24 + x.val 0x0E * 65536 + x.val 0x11
  else if m = 3 then (if x.kind = 5 then x.val 0x20 else x.val 0x1D * 2 ^ 29 + x.val 0x1C)
  else x.val 0x19

/-- The methods that a frame probes, lowest code first. -/
def State.sidMethods (s : State) (port epoch : Nat) (x : Parse) : List Nat :=
  if 32 ≤ port then [3]
  else (List.range 5).filter fun m => gateBit (s.fldEp F.fdbPortCfg_sid_methods port epoch) m &&
    (m == 0 || m == 1 || (m == 2 && x.kind == 1) || (m == 4 && x.kind == 3))

/-- Word 0 of an identification entry without valid, ep_mask and stream index, and its key words. -/
def sidWords (m port : Nat) (x : Parse) : List Word :=
  putBits (putBits 0 30 28 m) 27 22 port :: wordsOf (beBytes 12 (sidKey m x))

/-- Probe one method: the state, the stream index, and whether a probed entry failed its check. -/
def State.sidProbe (s : State) (port epoch : Nat) (x : Parse) (m : Nat) : State × Option Nat × Bool :=
  let w := sidWords m port x
  let b := crcHash (s.rd .fdbHashSeed).toNat (bytesOf w) % 2048
  let r := s.readAll 0x19 0 3 (s.probed 0x19 0 b 8192 256)
  let hit := r.2.1.find? fun e => ebit e.2 0 31 && epHas (eb e.2 0 21 20) epoch &&
    (ew e.2 0 &&& 0x7FC00000) == ew w 0 && (e.2.drop 1) == w.drop 1
  (r.1, hit.map fun e => eb e.2 0 11 0, !r.2.2.isEmpty)

/-- stream_par_drop of an ingress port; a legacy port has no FDB_PORT_CFG and takes its reset value (assumption 19). -/
def State.streamParDrop (s : State) (port epoch : Nat) : Bool :=
  if port < 18 then s.fldEp F.fdbPortCfg_stream_par_drop port epoch != 0 else true

/-- Identify the stream of a frame by all enabled methods, of which the lowest code wins (R126, R127, R131): the state, the stream, and whether the frame is dropped. -/
def State.identify (s : State) (port epoch : Nat) (x : Parse) : State × Option Nat × Bool :=
  if s.basic then (s, none, false)
  else
    let r := (s.sidMethods port epoch x).foldl (fun a m =>
      let p := a.1.sidProbe port epoch x m
      (p.1, a.2.1.or p.2.1, a.2.2 || p.2.2)) (s, none, false)
    let bad (s : State) : State × Option Nat × Bool :=
      if s.streamParDrop port epoch then (s.bump .fdbDropParity, none, true) else (s, none, false)
    if r.2.2 then bad r.1
    else match r.2.1 with
      | none => (r.1, none, false)
      | some k =>
        let e := r.1.readEnt 0x1A epoch k 3
        if e.2.2 then bad e.1
        else if ebit e.2.1 0 31 then (e.1, some k, false)
        else (e.1, none, false)

/-! ## Sequence numbers (R128, R129) -/

/-- The state words of a stream. -/
def State.strState (s : State) (k : Nat) : List Word := s.ent 0x1B 0 k

/-- Set the state words of a stream. -/
def State.setStr (s : State) (k : Nat) (e : List Word) : State := s.writeEnt 0x1B 0 k e

/-- Counter `c` of a stream: 0 cnt_passed, 1 cnt_discarded, 2 cnt_ooo, 3 cnt_rogue, 4 cnt_lost, 5 cnt_resets. -/
def strCnt (e : List Word) (c : Nat) : Nat := (ew e (5 + 2 * c)).toNat * 4294967296 + (ew e (4 + 2 * c)).toNat

/-- Add to a counter of a stream. -/
def strAdd (e : List Word) (c n : Nat) : List Word :=
  let v := strCnt e c + n
  (e.set (4 + 2 * c) (BitVec.ofNat 32 v)).set (5 + 2 * c) (BitVec.ofNat 32 (v / 4294967296))

/-- hist of a stream. -/
def strHist (e : List Word) : Nat := (ew e 3).toNat * 4294967296 + (ew e 2).toNat

/-- Set rec_seq and hist of a stream. -/
def strPut (e : List Word) (seq hist : Nat) : List Word :=
  ((eput e 0 15 0 seq).set 2 (BitVec.ofNat 32 hist)).set 3 (BitVec.ofNat 32 (hist / 4294967296))

/-- The recovery function (R129): the stream's state words, and whether the frame passes. -/
def recover (par e : List Word) (seq : Option Nat) : List Word × Bool :=
  match seq with
  | none => if ebit par 2 29 then (e, true) else (strAdd e 1 1, false)
  | some q =>
    if ebit e 1 31 then (strAdd (eput (strPut e q 1) 1 31 31 0) 0 1, true)
    else
      let hl := (eb par 2 27 21 : Int)
      let d := signed 16 (q + 65536 - eb e 0 15 0)
      let h := strHist e
      if hl ≤ d ∨ d ≤ -hl then (strAdd (strAdd e 3 1) 1 1, false)
      else if d ≤ 0 then
        if h / 2 ^ (-d).toNat % 2 = 1 then (strAdd e 1 1, false)
        else (strAdd (strAdd (strPut e (eb e 0 15 0) (h + 2 ^ (-d).toNat)) 2 1) 0 1, true)
      else
        let n := d.toNat
        let lost := ((List.range n).filter fun i => h / 2 ^ (hl.toNat - n + i) % 2 == 0).length
        (strAdd (strAdd (strPut e q ((h * 2 ^ n + 1) % 2 ^ 64)) 4 lost) 0 1, true)

/-- Recovery of a stream enters reset; the reset is counted in its cnt_resets (R129). -/
def State.strReset (s : State) (k : Nat) : State :=
  s.setStr k (strAdd (eput (s.strState k) 1 31 31 1) 5 1)

/-- A frame reads the state of its stream: a state that fails its check is reset (R131). -/
def State.readStr (s : State) (k : Nat) : State :=
  let r := s.readEnt 0x1B 0 k 3
  if r.2.2 then r.1.strReset k else r.1

/-- Recovery of a frame of stream `k` (R129, R131): the state, and whether the frame passes. -/
def State.recovery (s : State) (k : Nat) (par : List Word) (seq : Option Nat) : State × Bool :=
  let s := s.readStr k
  let o := recover par (s.strState k) seq
  let s := s.setStr k o.1
  (if o.2 then { s with net := { s.net with lastOk := tblPut s.net.lastOk k s.tim.lt } } else s, o.2)

/-- A write of FDB_STR_RESET (R129). -/
def State.wrStrReset (s : State) (data : Word) : State := s.strReset (F.fdbStrReset_stream_idx.of data)

def execStreamResetWrite (path : Path) (data : Word) (s : State) : Host.Outcome State Fault Refusal :=
  .next (s.accessReg path .fdbStrReset 0 data fun s => s.wrStrReset data)

/-- reset_ms has passed with no frame passed (R129). -/
def execRecoveryResetTimeout (k : BitVec 12) (s : State) : Host.Outcome State Fault Refusal :=
  let p := s.strm s.epoch k.toNat
  .next (if s.fabricOn && ebit p 0 31 && ebit p 2 30 && !ebit (s.strState k.toNat) 1 31 &&
      decide ((tblGet s.net.lastOk 0 k.toNat) + tkMs (eb p 2 20 9) ≤ s.tim.lt)
    then s.strReset k.toNat else s)

/-- Frames of a stream with seq_gen in the roles of R347, and sequence numbers (R128): the state, the number that the frame
carries, and whether it goes on. `echo` is the number that an ECHO carries. -/
def State.seqGen (s : State) (k : Nat) (par : List Word) (echo : Option Nat) : State × Option Nat × Bool :=
  if !ebit par 2 31 then (s, none, true)
  else match echo with
    | some q => (s, some q, true)
    | none =>
      if s.red.role = .detached ∨ s.red.role = .active then
        let s := s.readStr k
        let e := s.strState k
        let q := eb e 0 31 16
        (s.setStr k (eput e 0 31 16 (q + 1)), some q, true)
      else (s.bump (if s.red.stopped || s.red.reboundReq then .redHandoverDrop else .redStbySupp), none, false)

/-! ## Policing (R189 to R193) -/

/-- One byte in the unit of the bucket levels: a rate of r kbit/s adds r of them in one tick. -/
def unitB : Int := 6400000

/-- The bucket sizes of a meter. -/
def State.mtrFull (s : State) (m : Nat) : Int × Int := (s.fld F.mtrCbs_cbs m * unitB, s.fld F.mtrEbs_ebs m * unitB)

/-- The bucket levels of a meter; a meter that is not listed is full. -/
def State.mtrLevel (s : State) (m : Nat) : Int × Int := (tblFind s.net.meters m).getD (s.mtrFull m)

/-- Set the bucket levels of a meter; full levels are not listed. -/
def State.setMtr (s : State) (m : Nat) (l : Int × Int) : State :=
  { s with net := { s.net with meters := tblSet s.net.meters (s.mtrFull m) m l } }

/-- One tick of a meter (R192): srTCM fills the excess bucket with what the committed bucket cannot hold. -/
def mtrTick (tr : Bool) (cir pir : Nat) (full l : Int × Int) : Int × Int :=
  if tr then (min full.1 (l.1 + cir), min full.2 (l.2 + pir))
  else
    let c := l.1 + cir
    (min full.1 c, min full.2 (l.2 + max 0 (c - full.1)))

/-- The colour of a frame of `b` units (R192, RFC 2697, RFC 2698), and the levels after it. -/
def mtrColour (tr : Bool) (inC : Nat) (b : Int) (l : Int × Int) : Nat × (Int × Int) :=
  if tr then
    if inC = 2 ∨ l.2 < b then (2, l)
    else if inC = 1 ∨ l.1 < b then (1, (l.1, l.2 - b))
    else (0, (l.1 - b, l.2 - b))
  else if inC = 0 ∧ b ≤ l.1 then (0, (l.1 - b, l.2))
  else if inC ≤ 1 ∧ b ≤ l.2 then (1, (l.1, l.2 - b))
  else (2, l)

/-- What policing decides of a frame that passes. -/
structure Policed where
  colour : Nat
  dei    : Bool
  pcp    : Option Nat
  mtrs   : List (Nat × Bool × Bool)
  gate   : Option (Nat × Int)
  /-- output colour of the last meter, the input of a colour-aware one -/
  last   : Nat
  deriving DecidableEq, Repr

/-- The state of a meter is read for a frame; one that is poisoned starts again with full buckets. DESIGN CHOICE (entry 74). -/
def State.mtrRead (s : State) (m : Nat) : State × Bool :=
  let r := if s.on F.mtrCtrl_en m then s.stateRead m else (s, false)
  if r.2 then ({ r.1 with net := { r.1.net with meters := tblDel r.1.net.meters m } }, true) else r

/-- One meter (R192, R193): the state, what policing has decided and debited so far, and whether the frame passes.
Of two meters that colour the PCP, the later one's value stands (DESIGN CHOICE, assumption 97: the spec does not say which). -/
def State.meter (s : State) (m : Nat) (len : Int) (dei : Bool) (st : Policed) : State × Policed × Bool :=
  let rd := s.mtrRead m
  let s := rd.1
  if rd.2 then (s, st, false)
  else
  let first := if dei then 1 else 0
  let inC := if s.on F.mtrCtrl_colour_aware m && !st.mtrs.isEmpty then st.last else first
  let inC := if s.on F.mtrCtrl_colour_aware m then inC else 0
  let l := s.mtrLevel m
  let r := if !s.on F.mtrCtrl_en m then (0, l)
    else if s.on F.mtrCtrl_mark_all_red m then (2, l)
    else mtrColour (s.on F.mtrCtrl_mode m) inC (len * unitB) l
  let s := if s.on F.mtrCtrl_en m then (s.setMtr m r.2).memWrite 14 0 (stateWord m) else s
  let st := { st with
    colour := max st.colour r.1
    last := r.1
    mtrs := st.mtrs ++ [(m, decide (r.2.1 < l.1), decide (r.2.2 < l.2))]
    pcp := if r.1 ≠ 0 ∧ s.on F.mtrCtrl_pcp_en m then
        some (if r.1 = 1 then s.fld F.mtrCtrl_yel_pcp m else s.fld F.mtrCtrl_red_pcp m) else st.pcp
    dei := st.dei || (r.1 == 1 && s.fld F.mtrCtrl_yellow_act m == 1) }
  if r.1 = 0 then (s.bump .mtrGreen m, st, true)
  else if r.1 = 1 then
    let s := s.bump .mtrYellow m
    if s.fld F.mtrCtrl_yellow_act m = 2 then (s.bump .schDropMeterYellow, st, false) else (s, st, true)
  else if s.on F.mtrCtrl_red_act m then (s.bump .mtrRedPass m, st, true)
  else
    let s := (s.bump .mtrRedDrop m).bump .schDropMeterRed
    (if s.on F.mtrCtrl_mark_all_red_en m then s.setFld F.mtrCtrl_mark_all_red m 1 else s, st, false)

/-- The stream gate stage (R191), by the window that holds the present domain time (R203); a gate whose state is poisoned counts its octets
anew (entry 74): the state, what is decided, and whether the
frame passes. A frame that a latched gate drops counts in GATE_DROP_CLOSED for closed_inv_rx, both latches set included, and in
GATE_DROP_OCTETS for octets_exc alone (DESIGN CHOICE, assumption 97: the spec does not say which counter). -/
def State.gateCheck (s : State) (g : Nat) (len : Nat) (st : Policed) : State × Policed × Bool :=
  let drop (s : State) (c : Ctr) : State × Policed × Bool := ((s.bump c g).bump .schDropGate, st, false)
  if !s.on F.schGateCfg_en g then (s.bump .gatePass g, st, true)
  else if s.on F.schGateCfg_closed_inv_rx g then drop s .gateDropClosed
  else if s.on F.schGateCfg_octets_exc g then drop s .gateDropOctets
  else
    match s.gateRuns g with
    | none => (s.bump .gatePass g, st, true)
    | some r =>
      let rd := s.stateRead (3360 + g)
      let t := rd.1.refresh (rd.1.gate g)
      let s := rd.1.setGate g (if rd.2 then { t with octets := 0 } else t)
      if rd.2 then (s, st, false)
      else if t.gates % 2 = 0 then
        drop (if s.on F.schGateCfg_closed_inv_rx_en g then s.setFld F.schGateCfg_closed_inv_rx g 1 else s) .gateDropClosed
      else
        let m := ((r.entries.getD t.entry (0, 0, 0)).2).2
        if m = 0 then (s.bump .gatePass g, st, true)
        else if m < t.octets + len then
          drop (if s.on F.schGateCfg_octets_exc_en g then s.setFld F.schGateCfg_octets_exc g 1 else s) .gateDropOctets
        else (((s.setGate g { t with octets := t.octets + len }).memWrite 14 0 (stateWord (3360 + g))).bump .gatePass g, { st with gate := some (g, t.winAt) }, true)

/-- The bytes of an Ethernet frame that are not SDU (R179). -/
def sduOvh (x : Parse) : Nat := 18 + 4 * x.tags + (if x.rtag.isSome then 6 else 0)

/-- The policing stage (R189): `len` is the length under R179 without O_i, `sdu` the SDU length, where they are known. `sec` counts the SecTAG and ICV bytes. The length that
the steps test is returned with what they decided and debited, and whether the frame passes. -/
def State.police (s : State) (port : Nat) (x : Parse) (par : Option (List Word)) (rule : Option Nat) (dei : Bool)
    (len sdu : Option Nat) (maxLen sec : Nat) : State × (Policed × Bool) × Nat :=
  if s.basic then (s, (⟨0, false, none, [], none, 0⟩, true), 0)
  else
    let maxSdu := match par with
      | some p => eb p 1 15 0
      | none => 0
    let base : Nat := len.getD (if maxSdu ≠ 0 then maxSdu + sduOvh x + sec else maxLen)
    let l : Nat := (base + s.lenOvh port).toNat
    let st : Policed := ⟨0, false, none, [], none, 0⟩
    if maxSdu ≠ 0 ∧ sdu.any (fun n => decide (maxSdu < n)) then (s.bump .schDropSdu, (st, false), l)
    else
      let g := match par with
        | some p => if ebit p 0 18 then s.gateCheck (eb p 0 17 10) l st else (s, st, true)
        | none => (s, st, true)
      let m := match par, g.2.2 with
        | some p, true => if ebit p 0 30 then g.1.meter (eb p 0 29 19) l dei g.2.1 else g
        | _, _ => g
      let m := match rule, m.2.2 with
        | some i, true => m.1.meter i l dei m.2.1
        | _, _ => m
      let s := if !m.2.2 then m.1
        else if m.2.1.colour = 1 then m.1.bump .schMarkYellow
        else if m.2.1.colour = 2 then m.1.bump .schMarkRed
        else m.1
      (s, m.2, l)

/-- At the tail, credit the difference of the provisional length from the true one, up to each bucket's size (R189); a frame that is longer
is debited. -/
def State.creditTail (s : State) (f : Frm) (trueLen : Nat) : State :=
  match f.prov with
  | none => s
  | some p =>
    let d : Int := (p : Int) - trueLen
    let s := f.mtrs.foldl (fun s x =>
      let l := s.mtrLevel x.1
      let full := s.mtrFull x.1
      if s.on F.mtrCtrl_en x.1 then
        s.setMtr x.1 (if x.2.1 then min full.1 (l.1 + d * unitB) else l.1, if x.2.2 then min full.2 (l.2 + d * unitB) else l.2)
      else s) s
    match f.gate with
    | some (g, at_) =>
      let t := s.gate g
      if t.winAt = at_ then s.setGate g { t with octets := (t.octets - d).toNat } else s
    | none => s

/-- A write of a meter register (R192): lowering a size clamps the level, a raised size keeps it, enabling starts full. -/
def State.wrMeter (s : State) (r : Reg) (m : Nat) (data : Word) : State :=
  let l := s.mtrLevel m
  let was := s.on F.mtrCtrl_en m
  let s := s.writeReg r m data
  let s := { s with net := { s.net with meters := tblDel s.net.meters m } }
  if was && s.on F.mtrCtrl_en m then s.setMtr m (min l.1 (s.mtrFull m).1, min l.2 (s.mtrFull m).2) else s

def execMeterParamWrite (path : Path) (m : BitVec 11) (word : Fin 5) (data : Word) (s : State) :
    Host.Outcome State Fault Refusal :=
  let r := [Reg.mtrCtrl, .mtrCir, .mtrPir, .mtrCbs, .mtrEbs].getD word .mtrCtrl
  .next (s.accessReg path r m.toNat data fun s => s.wrMeter r m.toNat data)

/-! ## Repair of table entries (R131, R367) -/

/-- An entry has a failure that is not repaired: a parity mark, or a poisoned word of a configuration table. -/
def State.entBad (s : State) (id par n : Nat) : Bool :=
  let m := tabMem id
  let k := tabPos id par n
  if memParity m.1 then s.parityBad m.1 (m.2 + k)
  else (List.range (max 1 (tabSize id / 2))).any fun i =>
    match s.memErr m.1 0 (m.2 + k * tabSize id / 2 + i) with
    | some (.poison, _) => true
    | _ => false

/-- Device firmware repairs an entry (R367): from the golden copy, or by deletion. An entry that was written since does not
change (R120), and halted cores repair nothing. -/
def State.repairEnt (s : State) (id par n : Nat) : State :=
  if s.pair.halted || !s.entBad id par n then s
  else if id = 0x1B then s.strReset n
  else
    match tblFind s.net.golden (tabKey id par n) with
    | some g => (s.writeEnt id par n g).bump .memReloads
    | none => ((s.delEnt id par n).bump .memReloadNone).raise Ev.memReload

end Sys2Proof.Machine
end

