-- ==== Sys2Proof/Machine/LegacyTx.lean ====
section
/-! DEFINITION. The transmit side of the legacy channels: admission to CAN queues and LIN publish entries, and the choice of
the frame to offer (R250, R258). -/

namespace Sys2Proof.Machine

open Sys2Proof

/-- CAN channel `n`. -/
def State.canCh (s : State) (n : Nat) : Can := tblGet s.net.can Can.reset n

/-- Set CAN channel `n`. -/
def State.setCan (s : State) (n : Nat) (c : Can) : State :=
  { s with net := { s.net with can := tblSet s.net.can Can.reset n c } }

/-- LIN channel `n`. -/
def State.linCh (s : State) (n : Nat) : Lin := tblGet s.net.lin Lin.reset n

/-- Set LIN channel `n`. -/
def State.setLin (s : State) (n : Nat) (c : Lin) : State :=
  { s with net := { s.net with lin := tblSet s.net.lin Lin.reset n c } }

/-- The device stands by for its partner: its channels listen only (R347). -/
def State.legacyStandby (s : State) : Bool := s.red.role == .standby || s.red.role == .discover

/-- The mode in which a CAN channel works: 0 normal, 1 listen-only, 2 selective (R246, R347). -/
def State.canMode (s : State) (n : Nat) : Nat :=
  if s.fld F.canCtrl_mode n = 0 ∧ s.legacyStandby then 1 else s.fld F.canCtrl_mode n

/-- A CAN channel takes frames for transmission (R250 test 1; R336). -/
def State.canOpen (s : State) (n : Nat) : Bool := s.on F.canCtrl_en n && s.canMode n == 0 && !s.quiet

/-- The format of a frame is enabled on a channel. -/
def State.canFmtOk (s : State) (n fmt : Nat) : Bool :=
  fmt == 0 || (fmt == 1 && s.on F.canCtrl_fd_en n) || (fmt == 2 && s.on F.canCtrl_xl_en n)

/-- The rank of a frame's arbitration field under ISO 11898-1, lowest first: base identifier, identifier format, extension. -/
def canRank (l : LegRec) : Nat :=
  if l.ide then (l.ident / 262144 % 2048 * 2 + 1) * 262144 + l.ident % 262144
  else l.ident % 2048 * 2 * 262144

/-- Remove the first queued frame equal to `x`. -/
def txqDrop (x : LegTx) : List LegTx → List LegTx
  | [] => []
  | y :: t => if y = x then t else y :: txqDrop x t

/-- The frame whose arbitration field wins first; of equal fields the one admitted first. -/
def canBest : List LegTx → Option LegTx
  | [] => none
  | x :: t => match canBest t with
    | some y => if canRank y.leg < canRank x.leg then some y else some x
    | none => some x

/-- The oldest queued frame of each identifier. -/
def canOldest : List Nat → List LegTx → List LegTx
  | _, [] => []
  | seen, x :: t => if seen.contains x.leg.ident then canOldest seen t else x :: canOldest (x.leg.ident :: seen) t

/-- A frame has waited max_age_us or more (R250). -/
def State.canAged (s : State) (n : Nat) (x : LegTx) : Bool :=
  s.fld F.canTxCfg_max_age_us n != 0 && decide (x.at_ + tkUs (s.fld F.canTxCfg_max_age_us n) ≤ s.tim.lt)

/-- The words of memory 0x0F that hold a frame of a queue. -/
def LegRec.words (l : LegRec) : Nat := 2 + (l.data.length + 7) / 8

/-- The lowest place that no frame of a queue takes. -/
def txqPlace (l : List LegTx) : Nat := ((List.range (l.length + 1)).find? fun i => !l.any fun x => x.pos == i).getD 0

/-- Choose the frame to offer to arbitration, dropping aged frames (R250) and a frame whose words are poisoned (R369). -/
def State.canChooseN : Nat → State → Nat → State
  | 0, s, _ => s
  | k + 1, s, n =>
    let c := s.canCh n
    match canBest (canOldest [] c.txq) with
    | none => s.setCan n { c with offer := none }
    | some x =>
      let drop (s : State) : State := s.setCan n { c with txq := txqDrop x c.txq }
      if s.canAged n x then State.canChooseN k ((drop s).bump .canTxDropAge n) n
      else
        let r := s.itemRead (canWord n x.pos) (x.leg.words)
        if r.2 then State.canChooseN k ((drop r.1).bump .memPoisonDrop) n else r.1.setCan n { c with offer := some x }

/-- The controller chooses again, when it takes part in bus activity and is not in bus-off or recovering. -/
def State.canChoose (s : State) (n : Nat) : State :=
  let c := s.canCh n
  if s.canOpen n && c.joined && decide (c.fc < 2) then State.canChooseN (c.txq.length + 1) s n
  else s.setCan n { c with offer := none }

/-- A frame is offered to the transmit queue of a CAN channel (R250). -/
def State.canOffer (s : State) (n : Nat) (l : LegRec) (ord : Nat) : State :=
  let c := s.canCh n
  if !s.canOpen n then s.bump .canTxDropState n
  else if 2 ≤ c.fc ∧ s.on F.canCtrl_bo_flush n then s.bump .canTxDropBusoff n
  else if !s.canFmtOk n l.fmt then s.bump .canTxDropFmt n
  else if ord < tblGet c.ords 0 l.ident then s.bump .canTxDropOrder n
  else if 64 ≤ c.txq.length ∨ 16384 < (c.txq.foldl (fun a x => a + x.leg.data.length) 0) + l.data.length then
    s.bump .canTxDropFull n
  else
    let pos := txqPlace c.txq
    let s := (s.setCan n { c with txq := c.txq ++ [⟨l, ord, s.tim.lt, pos⟩], ords := tblSet c.ords 0 l.ident ord }).itemWrite
      (canWord n pos) l.words
    if (s.canCh n).offer.isNone then s.canChoose n else s

/-- The frame identifier of a protected identifier. -/
def linId (pid : Nat) : Nat := pid % 64

/-- The instance of the frame-table register of an identifier on a channel. -/
def linFrm (n id : Nat) : Nat := n * 64 + id

/-- A LIN channel runs (R258 test 1): enabled and not in bus sleep. -/
def State.linRuns (s : State) (n : Nat) : Bool := s.on F.linCtrl_en n && !(s.linCh n).sleep

/-- A frame is offered for transmission on a LIN channel (R258). -/
def State.linOffer (s : State) (n : Nat) (l : LegRec) (ord : Nat) : State :=
  let c := s.linCh n
  let id := linId l.ident
  let fr := linFrm n id
  let held := tblGet c.pub [] id
  if !s.linRuns n || s.legacyStandby || s.quiet then s.bump .linTxDropState n
  else if s.fld F.linFrame_dir fr ≠ 1 ∨ l.data.length ≠ s.fld F.linFrame_len fr then s.bump .linTxDropNopub n
  else if ord < tblGet c.ords 0 id then s.bump .linTxDropOrder n
  else
    let queued := s.on F.linFrame_queue fr
    let x : LegTx := ⟨l, ord, s.tim.lt, if queued then txqPlace held else 0⟩
    let put (s : State) : State := s.itemWrite (linWord n id x.pos) 4
    let ords := tblSet c.ords 0 id ord
    if queued then
      if 4 ≤ held.length then s.bump .linTxDropFull n
      else put (s.setLin n { c with pub := tblSet c.pub [] id (held ++ [x]), ords := ords })
    else
      let unsent := !held.isEmpty && !c.sent.contains id
      put <| (s.setLin n { c with pub := tblSet c.pub [] id [x], ords := ords, sent := c.sent.filter (· != id) }).bumpIf
        unsent .linTxReplaced n

/-- A legacy frame is offered to a virtual port (R251, R258). -/
def State.legOffer (s : State) (port : Nat) (l : LegRec) (ord : Nat) : State :=
  if 32 ≤ port ∧ port < 48 then s.canOffer (port - 32) l ord
  else if 48 ≤ port ∧ port < 56 then s.linOffer (port - 48) l ord
  else s

def execLegacyTxOffer (ch : Fin 16) (leg : LegRec) (ord : BitVec 64) (s : State) : Host.Outcome State Fault Refusal :=
  .next (if s.fabricOn then s.canOffer ch leg ord.toNat else s)

def execLinTxOffer (ch : Fin 8) (leg : LegRec) (ord : BitVec 64) (s : State) : Host.Outcome State Fault Refusal :=
  .next (if s.fabricOn then s.linOffer ch leg ord.toNat else s)

end Sys2Proof.Machine
end

