-- ==== Sys2Proof/Machine/Admit.lean ====
section
/-! DEFINITION. Egress tagging of copies (R93, R108, R128, R193), their forwarding mode (R35) and their admission to egress
queues (R168 to R173), and frames found bad (R43, R44). -/

namespace Sys2Proof.Machine

open Sys2Proof

/-! ## The bytes of a copy -/

/-- The offset of the R-TAG of a frame, after at most two VLAN tags. -/
def rtagOff (c : ParseCfg) (bs : List Byte) : Option Nat :=
  let o1 := if c.tpid (fieldAt bs 12 2) then 16 else 12
  let o2 := if o1 = 16 ∧ c.tpid (fieldAt bs 16 2) then 20 else o1
  if fieldAt bs o2 2 = 0xF1C1 then some o2 else none

/-- The outer tag of a copy (R108). -/
def egrOuter (c : ParseCfg) (e : Egr) (bs : List Byte) : List Byte :=
  if c.tpid (fieldAt bs 12 2) then
    if e.untag then bs.take 12 ++ bs.drop 16
    else setBytes bs 14 (beBytes 2 (fieldAt bs 14 2 / 4096 * 4096 + e.vid))
  else if e.untag then bs
  else bs.take 12 ++ [0x81, 0x00] ++ beBytes 2 (e.prio * 8192 + e.vid) ++ bs.drop 12

/-- The PCP that a meter sets (R193). -/
def egrPcp (c : ParseCfg) (e : Egr) (bs : List Byte) : List Byte :=
  match e.pcp with
  | some v => if c.tpid (fieldAt bs 12 2) then setBytes bs 14 (beBytes 2 (v * 8192 + fieldAt bs 14 2 % 8192)) else bs
  | none => bs

/-- Set DEI in the tag at an offset. -/
def setDei (bs : List Byte) (off : Nat) : List Byte :=
  let t := fieldAt bs off 2
  if t / 4096 % 2 = 1 then bs else setBytes bs off (beBytes 2 (t + 4096))

/-- DEI on every egress tag (R193). -/
def egrDei (c : ParseCfg) (e : Egr) (bs : List Byte) : List Byte :=
  if e.dei && c.tpid (fieldAt bs 12 2) then
    let b := setDei bs 14
    if c.tpid (fieldAt b 16 2) then setDei b 18 else b
  else bs

/-- The R-TAG of a copy (R128, R129). -/
def egrRtag (c : ParseCfg) (e : Egr) (bs : List Byte) : List Byte :=
  match e.rtag with
  | none => bs
  | some none => match rtagOff c bs with
    | some o => bs.take o ++ bs.drop (o + 6)
    | none => bs
  | some (some n) => match rtagOff c bs with
    | some o => setBytes bs (o + 4) (beBytes 2 n)
    | none =>
      let o := if c.tpid (fieldAt bs 12 2) then 16 else 12
      bs.take o ++ [0xF1, 0xC1, 0, 0] ++ beBytes 2 n ++ bs.drop o

/-- The parser configuration for a frame, with the alternative TPID that it was parsed with (R54). -/
def State.parseCfgOf (s : State) (f : Frm) : ParseCfg := { s.parseCfg f.inPort with alt := f.alt }

/-- The bytes of a copy without FCS, before egress MACsec protection. -/
def State.copyBytes (s : State) (f : Frm) (x : Xf) : List Byte :=
  match x with
  | .asReceived => f.orig
  | .plain => f.bytes
  | .tagged e =>
    let c := s.parseCfgOf f
    egrRtag c e (egrDei c e (egrPcp c e (egrOuter c e f.bytes)))

/-- The length of a copy under R5; of a frame of a legacy kind, its data. -/
def State.copyLen (s : State) (f : Frm) (x : Xf) : Nat := match f.leg with
  | some l => l.data.length
  | none => (s.copyBytes f x).length + 4

/-- How the copy of a frame to a port leaves, for a result of the forwarding lookup (R108, R128, R129). -/
def State.planXf (s : State) (f : Frm) (form vid p : Nat) : Xf :=
  if form = 2 then .asReceived
  else if form = 1 then .plain
  else
    let rt := match f.stream with
      | none => none
      | some k =>
        let e := s.strm f.epoch k
        if gateBit (eb e 4 17 0) p then some none
        else match f.seq with
          | some n => if gateBit (eb e 3 17 0) p then some (some n) else none
          | none => none
    .tagged ⟨gateBit (eb (s.ent 0x11 f.epoch vid) 1 17 0) p, vid, f.prio, f.pcp, f.dei, rt⟩

/-! ## Forwarding mode and admission -/

/-- The conditions of R35 for a copy of a frame in a queue of a class at a port. -/
def State.cutThrough (s : State) (f : Frm) (p q c : Nat) : Bool :=
  decide (f.inPort < 18) && f.inPort != 16 && p != 16 && f.leg.isNone && f.ctRx && gateBit f.ctTx p
    && decide (s.operRate p ≤ s.operRate f.inPort) && (s.queue q).isEmpty && !f.held && !f.steer && !f.smdS
    && (!f.tail || decide (128 < f.rxLen)) && (!s.gated p c || s.maxSduSet f)

/-- The state of the fair-queuing tags of a class queue. -/
def State.qs (s : State) (q : Nat) : QSched := tblGet s.net.qsched QSched.reset q

/-- Set the scheduler state of a class queue. -/
def State.setQs (s : State) (q : Nat) (x : QSched) : State :=
  { s with net := { s.net with qsched := tblSet s.net.qsched QSched.reset q x } }

/-- A class of a port is in its fair-queuing group. -/
def State.inGroup (s : State) (p c : Nat) : Bool :=
  s.on F.schPortCfg_wfq_en p && decide (s.fld F.schPortCfg_wfq_lo p ≤ c) && decide (c ≤ s.fld F.schPortCfg_wfq_hi p)

/-- The later of two 32-bit tags by signed difference. -/
def tagMax (a b : Nat) : Nat := if 0 ≤ signed 32 (a + 4294967296 - b) then a else b

/-- A group queue with nothing waiting or in transmission receives a copy: it wakes (R187). -/
def State.wake (s : State) (p q c : Nat) : State :=
  if q < 144 ∧ s.inGroup p c ∧ (s.charged q).isEmpty then
    s.setQs q { s.qs q with s := tagMax (tblGet s.net.vtime 0 p) (s.qs q).f }
  else s

/-- Offer a copy of a frame to its egress queue (R168 to R172). -/
def State.admitCopy (s : State) (i p : Nat) (x : Xf) : State :=
  let f := s.frm i
  let qc := s.queueOf f p
  let len := if f.tail then some (s.copyLen f x) else none
  if f.bad || 18 ≤ p then s
  else if f.leg.isNone ∧ len.any (fun n => decide (9216 < n)) then s.bump .fdbDropEgrLen
  else
    let k := if f.tail then f.cells else cellsOf (s.qMaxFrame qc.1 p)
    match s.admitTest f qc.1 p k len with
    | some c => s.bump c qc.1
    | none =>
      let ct := s.cutThrough f p qc.1 qc.2
      let s := s.wake p qc.1 qc.2
      let s := s.setQueue qc.1 (s.queue qc.1 ++ [⟨i, p, qc.1, qc.2, k, ct, x, f.epoch⟩])
      ((s.holdFrm i 1).bump .qmgQEnq qc.1).marks

/-! ## Removing copies -/

/-- Set the starvation timer of an empty queue to zero (R188). -/
def State.emptied (s : State) (q : Nat) : State :=
  if (s.queue q).isEmpty then s.setQs q { s.qs q with timer := 0, urgent := false } else s

/-- The copies that wait at a port. -/
def State.waitingAt (s : State) (p : Nat) : List Copy := s.net.queues.flatMap fun x => x.2.filter fun c => c.port == p

/-- A fence ends when no frame of an older epoch waits at its port (R57). -/
def State.fenceSweep (s : State) : State :=
  { s with net := { s.net with fences := s.net.fences.filter fun x => (s.waitingAt x.port).any fun c => c.epoch != x.epoch } }

/-- Remove the waiting copies of which `p` holds, and drop their references; `c` counts each in its queue. -/
def State.dropWaiting (s : State) (c : Option Ctr) (p : Copy → Bool) : State :=
  State.fenceSweep <| s.net.queues.foldl (fun s x =>
    let gone := x.2.filter p
    if gone.isEmpty then s
    else
      let s := (s.setQueue x.1 (x.2.filter fun k => !p k)).emptied x.1
      gone.foldl (fun s k =>
        let s := match c with
          | some c => s.bump c x.1
          | none => s
        s.dropRef k.frm) s) s

/-- Change the copies in transmission. -/
def State.mapTx (s : State) (h : TxCopy → TxCopy) : State :=
  s.net.ports.foldl (fun s x =>
    let y := s.port x.1
    if y.exp.isNone && y.pre.isNone then s else s.setPort x.1 { y with exp := y.exp.map h, pre := y.pre.map h }) s

/-- A copy of frame `i` is in transmission. -/
def State.inTx (s : State) (i : Nat) : Bool := s.net.ports.any fun x => x.2.sending.any fun c => c.frm == i

/-! ## The Harbour's slots (R148 to R153) -/

/-- The slots of a context. -/
def State.ctxSlots (s : State) (n : Nat) : List (Nat × Slot) := s.net.slots.filter fun x => x.2.ctx == n

/-- How long ago a slot was taken, in sequence numbers of its context. -/
def Ctx.age (c : Ctx) (x : Slot) : Nat := let d := (c.next + 65536 - x.seq) % 65536; if d = 0 then 65536 else d

/-- The slot of a context with the lowest sequence number. -/
def State.ctxHead (s : State) (n : Nat) (c : Ctx) : Option (Nat × Slot) :=
  (s.ctxSlots n).foldl (fun b x => match b with
    | some y => if c.age y.2 < c.age x.2 then some x else some y
    | none => some x) none

/-- Set or free a context. -/
def State.setCtx (s : State) (n : Nat) (c : Option Ctx) : State :=
  { s with net := { s.net with ctxs := match c with
    | some c => tblPut s.net.ctxs n c
    | none => tblDel s.net.ctxs n } }

/-- Set or free a slot. -/
def State.setSlot (s : State) (n : Nat) (x : Option Slot) : State :=
  { s with net := { s.net with slots := match x with
    | some x => tblPut s.net.slots n x
    | none => tblDel s.net.slots n } }

/-- A slot is PENDING. -/
def SlotState.isPending : SlotState → Bool
  | .pending _ => true
  | _ => false

/-- The slot for which the hold timer of a context runs: the head once the VOID slots before it are freed. -/
def State.ctxWait (s : State) (n : Nat) (c : Ctx) : Option (Nat × Slot) :=
  ((s.ctxSlots n).filter fun x => x.2.st != .void).foldl (fun b x => match b with
    | some y => if c.age y.2 < c.age x.2 then some x else some y
    | none => some x) none

/-- Keep the hold timer of a context (R151): it runs while its head is PENDING and a later slot is not. A context without
slots is freed (R150). -/
def State.holdCtx (s : State) (n : Nat) : State :=
  match tblFind s.net.ctxs n with
  | none => s
  | some c =>
    if (s.ctxSlots n).isEmpty then s.setCtx n none
    else match s.ctxWait n c with
      | none => s.setCtx n (some { c with hold := none })
      | some h =>
        let later := (s.ctxSlots n).any fun x => c.age x.2 < c.age h.2 && !x.2.st.isPending
        let at_ := match c.hold with
          | some (q, t) => if q = h.2.seq then t else s.tim.lt
          | none => s.tim.lt
        s.setCtx n (some { c with hold := if h.2.st.isPending && later then some (h.2.seq, at_) else none })

/-- Drop the references that the outputs of a slot hold. -/
def State.dropOuts (s : State) (l : List SlotOut) : State := l.foldl (fun s o => s.dropRef o.frm) s

/-- Outputs that a slot state holds. -/
def SlotState.outs : SlotState → List SlotOut
  | .pending (some l) => l
  | .ready l => l
  | _ => []

/-- Put a slot in a state; the outputs it held are given up. -/
def State.slotTo (s : State) (n : Nat) (st : SlotState) : State :=
  match tblFind s.net.slots n with
  | none => s
  | some x => ((s.setSlot n (some { x with st := st })).dropOuts x.st.outs).holdCtx x.ctx

/-- Make a slot void (R149). -/
def State.voidSlot (s : State) (n : Option Nat) : State := match n with
  | some n => s.slotTo n .void
  | none => s

/-! ## Frames found bad (R43 to R45) -/

/-- The descriptors of the Skerry array without those of frame `i`, whose tail is not there. -/
def State.dropDescs (s : State) (i : Nat) : State :=
  s.net.sky.foldl (fun s x =>
    let gone := (x.2.norm ++ x.2.resv).filter fun d => d.frm == i
    if gone.isEmpty then s
    else
      let y := { x.2 with norm := x.2.norm.filter fun d => d.frm != i, resv := x.2.resv.filter fun d => d.frm != i }
      gone.foldl (fun s d => s.dropRef d.frm)
        { s with net := { s.net with sky := tblSet s.net.sky Skerry.reset x.1 y } }) s

/-- A frame is found bad: copies that have not begun are dropped, those in transmission are stomped, and its slot, while it is
still its own, is void. -/
def State.foundBad (s : State) (i : Nat) : State :=
  let f := s.frm i
  if f.bad then s
  else
    let begun := f.begun
    let s := s.setFrm i { f with bad := true, refs := f.refs + 1 }
    let s := s.bumpIf (begun && decide (f.inPort < 18)) .macRxCtBad f.inPort
    let s := (s.dropWaiting none fun c => c.frm == i).mapTx fun t =>
      if t.cp.frm = i ∧ t.stomp.isNone then { t with stomp := some f.bytes.length } else t
    let own := f.slot.filter fun n => (tblFind s.net.slots n).any fun x => x.frm == i
    let s := (s.dropDescs i).voidSlot own
    s.dropRef i

/-- One copy whose frame turns out too long for it: it alone is dropped or stomped, and counted (R171). -/
def State.tooLong (s : State) (i : Nat) (too : State → Copy → Bool) (c : Option Ctr) : State :=
  let f := s.frm i
  let hit := fun k : Copy => k.frm == i && too s k
  let n := (s.copies.filter hit)
  let s' := n.foldl (fun s k => match c with
    | some c => s.bump c k.q
    | none => s.bump .fdbDropEgrLen) s
  (s'.dropWaiting none hit).mapTx fun t => if hit t.cp ∧ t.stomp.isNone then { t with stomp := some f.bytes.length } else t

/-- At the tail of a frame, good or bad, the charges of its copies fall to its true cell count (R171). -/
def State.tailCharge (s : State) (i : Nat) : State :=
  let k := (s.frm i).cells
  let s := s.net.queues.foldl (fun s x =>
    if x.2.any fun c => c.frm == i then s.setQueue x.1 (x.2.map fun c => if c.frm = i then { c with k := min c.k k } else c) else s) s
  s.mapTx fun t => if t.cp.frm = i then { t with cp := { t.cp with k := min t.cp.k k } } else t

/-- At the tail of a good frame, the copies too long for their egress or their queue are bad (R171, R108). -/
def State.tailTooLong (s : State) (i : Nat) : State :=
  let f := s.frm i
  let s := s.tooLong i (fun s c => decide (9216 < s.copyLen f c.xf)) none
  s.tooLong i (fun s c => decide (s.copyLen f c.xf ≤ 9216) && decide (s.qMaxFrame c.q c.port < s.copyLen f c.xf)) (some .qmgQDropMaxf)

end Sys2Proof.Machine
end

