-- ==== Sys2Proof/Machine/Keys.lean ====
section
/-! DEFINITION. The key store: slots and their uses (R296 to R300), update messages and the journal (R305 to
R314), attestation and debug (R320 to R322), and the data windows of the paths. -/

namespace Sys2Proof.Machine

open Sys2Proof

/-! ## Data windows -/

/-- The host data window of the cipher engine, which every path uses (R283). -/
def cipWin : Nat := 0x3A0000

/-- The key of a byte of a data window: PCIe and the management SPI port share theirs, and device firmware has its own but for that of the
cipher engine (R283, R312). -/
def winKey (p : Path) (off : Nat) : Nat := (if p = .fw ∧ ¬(cipWin ≤ off ∧ off < cipWin + 4096) then 2 else 0) * 16777216 + off

/-- Bytes of a window from a BAR0 offset. -/
def State.winBytes (s : State) (p : Path) (off n : Nat) : List Byte :=
  (List.range n).map fun i => tblGet s.win 0 (winKey p (off + i))

/-- Write bytes into a window. -/
def State.winPut (s : State) (p : Path) : Nat → List Byte → State
  | _, [] => s
  | off, b :: bs => State.winPut { s with win := tblSet s.win 0 (winKey p off) b } p (off + 1) bs

/-- The KEY_MSG window. -/
def keyWin : Nat := 0x3C1000

/-! ## Slots -/

/-- The slot holds no key for any request (R300, R301). -/
def State.slotEmpty (s : State) (n : Nat) : Bool :=
  n == 0 || !getBit (s.slot n).attr 31 || (s.slot n).ecc || decide (3 ≤ s.keys.lc)

/-- The key of a slot, 16 or 32 bytes. -/
def KeySlot.bytes (x : KeySlot) : List Byte := if getBit x.attr 30 then x.key else x.key.take 16

/-- An attribute word names exactly one use (R299). -/
def attrValid (a : Word) : Bool :=
  let uses := getBits a 12 8
  if uses = 0 then getBits a 2 0 != 0 && getBits a 6 3 != 0
  else getBits a 6 0 == 0 && [1, 2, 4, 8, 16].contains uses

/-- The role of R297 allows an attribute word in a slot. -/
def roleOk (n : Nat) (a : Word) : Bool :=
  if n = 1 then getBit a 8 else if n = 2 then getBit a 11 else if n = 4 ∨ n = 5 then getBit a 12 else true

/-- A request of a class (0 Skerries, 1 control pair, 2 host) for a unit (3 CMAC, 4 GCM, 5 MKA, 6 context wrapping) is allowed
(R273, R299, R300). -/
def State.keyAllows (s : State) (n cls unit : Nat) : Bool :=
  !s.slotEmpty n && getBit (s.slot n).attr cls && getBit (s.slot n).attr unit

/-- The user class of a path. -/
def pathCls (p : Path) : Nat := if p = .fw then 1 else 2

/-! ## Registers -/

/-- The instance of KEY_CMD and KEY_CMD_STAT of a path: device firmware has its own (R312). -/
def keyInst (p : Path) : Nat := if p = .fw then 1 else 0

/-- A command of the key store ends with a result and, for UPDATE and ATTEST, a slot. After a refusal the window holds zeros. -/
def State.keyDone (s : State) (p : Path) (res : Nat) (slot : Option Nat) : State :=
  let i := keyInst p
  let w := putBits (s.rd .keyCmdStat i) 31 28 res
  let s := s.wr .keyCmdStat i (match slot with
    | some n => putBits w 7 0 n
    | none => w)
  if res = 0 ∨ res = 14 then s else s.winPut p keyWin (List.replicate 256 0)

/-! ## UPDATE (R305 to R313) -/

/-- The confirmation of R311. -/
def State.keyConfirm (s : State) (n res : Nat) : List Byte :=
  let x := s.slot n
  let m := [0x4B, 0x55, 0x43, 0x01] ++ s.uid ++ [BitVec.ofNat 8 n, BitVec.ofNat 8 res, 0, 0] ++ beBytes 4 x.ctr
  m ++ cmac (kdf x.bytes lblKcnf s.uid) m

/-- An update of slot 1 of a device that has no slot 1 yet (R307). -/
def State.firstMaster (s : State) (tgt auth : Nat) : Bool := tgt == 1 && auth == 1 && s.slotEmpty 1 && s.keys.lc == 1

/-- Checks 1 to 8 of R308: the result of the first that fails, 0 when all pass. -/
def State.updPre (s : State) (m : List Byte) : Nat :=
  let tgt := fieldAt m 20 1
  let auth := fieldAt m 21 1
  let mode := fieldAt m 22 1
  let ctr := fieldAt m 24 4
  let attr := BitVec.ofNat 32 (fieldAt m 28 4)
  let x := s.slot tgt
  if m.length ≠ 92 ∨ fieldAt m 0 4 ≠ 0x4B554D01 ∨ 1 < mode ∨ (mode = 0 ∧ fieldAt m 23 1 ≠ 0) ∨ getBit attr 31 then 2
  else if bytesAt m 4 16 ≠ s.uid then 3
  else if tgt = 0 ∨ tgt = 3 ∨ tgt = 6 ∨ auth = 0 then 4
  else if (s.keys.lc ≠ 1 ∧ s.keys.lc ≠ 2) ∨ (s.keys.lc = 2 ∧ ((!s.slotEmpty tgt && getBit x.attr 28) || getBit attr 28)) then 5
  else if auth ≠ (if s.slotEmpty tgt then 1 else getBits x.attr 23 16) ∨
      (!s.firstMaster tgt auth && (s.slotEmpty auth || !getBit (s.slot auth).attr 8)) then 6
  else if ctr = x.ctr ∧ sha256 m = x.digest then 14
  else if ctr ≤ x.ctr then 7
  else if !s.slotEmpty tgt && getBit x.attr 29 then 9
  else 0

/-- The decrypted field of an update message, and whether its tag passes (R306). -/
def State.updPlain (s : State) (m : List Byte) : List Byte × Bool :=
  let auth := fieldAt m 21 1
  let ka := if s.firstMaster (fieldAt m 20 1) auth then List.replicate 32 0 else (s.slot auth).bytes
  gcmDec (kdf ka lblKupd (bytesAt m 4 28)) (bytesAt m 32 12) (bytesAt m 0 32) (bytesAt m 44 32) (bytesAt m 76 16)

/-- Checks 9 to 11 of R308 and the new key. -/
def State.updKey (s : State) (m : List Byte) : Nat × List Byte :=
  let tgt := fieldAt m 20 1
  let mode := fieldAt m 22 1
  let par := fieldAt m 23 1
  let attr := BitVec.ofNat 32 (fieldAt m 28 4)
  let big := getBit attr 30
  let p := s.updPlain m
  if !p.2 || (mode == 0 && !big && (p.1.drop 16).any (· != 0)) then (8, [])
  else if !attrValid attr || !roleOk tgt attr || getBits attr 23 16 == 0 then (10, [])
  else if mode = 1 then
    if s.slotEmpty par || !getBit (s.slot par).attr 9 || (big && !getBit (s.slot par).attr 30) then (11, [])
    else
      let k := kdfLen (if big then 32 else 16) (s.slot par).bytes lblKdrv (p.1 ++ s.uid)
      (0, k ++ List.replicate (32 - k.length) 0)
  else (0, p.1)

/-- The slot record that an accepted update commits. -/
def State.updRecord (s : State) (m key : List Byte) : KeySlot :=
  let x := s.slot (fieldAt m 20 1)
  ⟨key, (BitVec.ofNat 32 (fieldAt m 28 4) &&& 0x70FF1F7F) ||| 0x80000000, fieldAt m 24 4, (x.gen + 1) % 4294967296, sha256 m,
    false, 1⟩

/-- The journal after `k` of the four STORE steps of R313. A step that fails leaves the slot as it was (R308), though the third has
passed: the prepared record then stands in the journal, and the next entry into BOOT repeats the third step (R314). -/
def State.journalTo (s : State) (n k : Nat) (x : KeySlot) : State :=
  let j : Option Journal := if k = 0 ∨ k = 4 then none else some ⟨n, if k = 1 then none else some (s.sealRec x)⟩
  let s := { s with keys := { s.keys with journal := j } }
  if k = 4 then s.setKeySlot n x else s

/-- The key store is busy with a transition or a recovery (R323). -/
def State.keyBusy (s : State) : Bool := s.keys.journal.isSome || s.keys.lcGoal.isSome

/-- UPDATE. `stores` is the number of journal steps whose STORE succeeds: 4 when all do. -/
def State.keyUpdate (s : State) (p : Path) (stores : Nat) : State :=
  let m := s.winBytes p keyWin (min 256 (s.fld F.keyCmd_len (keyInst p)))
  let tgt := fieldAt m 20 1
  let fail (s : State) (res : Nat) : State := (s.bump .keyUpdFail).keyDone p res (some tgt)
  if s.keyBusy then fail s 1
  else
    let r := s.updPre m
    if r = 14 then ((s.bump .keyUpdOk).winPut p keyWin (s.keyConfirm tgt 14)).keyDone p 14 (some tgt)
    else if r ≠ 0 then fail s r
    else
      let k := s.updKey m
      if k.1 ≠ 0 then fail s k.1
      else
        let x := s.updRecord m k.2
        if stores < 4 then fail (s.journalTo tgt stores x) 12
        else
          let s := (s.journalTo tgt 4 x).bump .keyUpdOk
          (s.winPut p keyWin (s.keyConfirm tgt 0)).keyDone p 0 (some tgt)

/-- The mirrors are loaded from MRAM and the journal is recovered at an entry into BOOT (R296, R314). -/
def State.journalRecover (s : State) : State :=
  let s := s.loadSlots
  match s.keys.journal with
  | none => s
  | some j =>
    let s := { s with keys := { s.keys with journal := none } }
    match j.prep.bind s.openRec with
    | some x => s.setKeySlot j.slot { x with last := 2 }
    | none => s.setMirror j.slot { s.slot j.slot with last := 3 }

/-! ## Life cycle (R315 to R318) -/

/-- Destroy a slot (R318): its counter and digest are kept. -/
def KeySlot.destroy (x : KeySlot) : KeySlot :=
  { x with key := List.replicate 32 0, attr := 0, gen := (x.gen + 1) % 4294967296, ecc := false, last := 0 }

/-- The slots that a transition destroys: those with prov_only on the way to FIELD, else all. -/
def State.destroySlots (s : State) (onlyProv : Bool) : State :=
  s.keys.slots.foldl (fun t e =>
    if (!onlyProv || getBit e.2.attr 28) && getBit e.2.attr 31 then t.setKeySlot e.1 e.2.destroy else t) s

/-- Complete a transition (R315, R317). -/
def State.lcComplete (s : State) : State :=
  match s.keys.lcGoal with
  | none => s
  | some (st, ctr) =>
    let s := s.destroySlots (st == 2)
    let root := if st = 4 then none else s.keys.root
    { s with keys := { s.keys with root := root, lc := st, lcCtr := ctr, lcGoal := none, lcUnder := s.kLc } }

/-- The transition is listed in R315. -/
def lcEdge (a b : Nat) : Bool := [(1, 2), (1, 4), (2, 3), (2, 4), (3, 4)].contains (a, b)

/-- The checks of R316: 0 when the message is accepted. -/
def State.lcCheck (s : State) (m : List Byte) : Nat :=
  let tgt := fieldAt m 20 1
  let free := s.keys.lc == 3 && tgt == 4
  if m.length ≠ 44 ∨ fieldAt m 0 4 ≠ 0x4C434D01 ∨ fieldAt m 21 3 ≠ 0 then 2
  else if bytesAt m 4 16 ≠ s.uid then 3
  else if !lcEdge s.keys.lc tgt || s.op != .run then 5
  else if !free && (s.slotEmpty 1 || !getBit (s.slot 1).attr 8) then 6
  else if fieldAt m 24 4 ≤ s.keys.lcCtr then 7
  else if !free && cmac (kdf (s.slot 1).bytes lblKlcc s.uid) (bytesAt m 0 28) != bytesAt m 28 16 then 8
  else 0

/-- LC_CHANGE up to its stored intent (R316, R317): the state, and whether the transition has begun. -/
def State.lcBegin (s : State) (p : Path) : State × Bool :=
  let m := s.winBytes p keyWin (min 256 (s.fld F.keyCmd_len (keyInst p)))
  let r := if s.keyBusy then 1 else s.lcCheck m
  if r ≠ 0 then ((s.bump .keyLcFail).keyDone p r none, false)
  else ({ s with keys := { s.keys with lcGoal := some (fieldAt m 20 1, fieldAt m 24 4) } }, true)

/-! ## Attestation and debug (R320 to R322) -/

/-- The key-state digest of R321. -/
def State.keyDigest (s : State) : List Byte :=
  sha256 ((List.range 256).flatMap fun n => [BitVec.ofNat 8 n] ++ beBytes 4 (s.slot n).attr.toNat ++ beBytes 4 (s.slot n).ctr)

/-- The 160 bytes that an attestation covers, for a challenge and a slot; in MINIMAL the boot ROM stands for the FWIM (R406). -/
def State.attestInput (s : State) (chal : List Byte) (slot : Nat) : List Byte :=
  [0x41, 0x54, 0x54, 0x01] ++ chal ++ s.uid
    ++ [BitVec.ofNat 8 s.keys.lc, BitVec.ofNat 8 slot, BitVec.ofNat 8 s.op.code]
    ++ (if s.op = .minimal then [0xFF] ++ beBytes 4 0x10000 ++ [0, 0, 0, 0] ++ (List.range 32).map Config.romByte
      else [BitVec.ofNat 8 s.boot.runSlot] ++ beBytes 4 s.boot.fwimVer ++ beBytes 2 s.boot.fwimSec ++ [0, 0] ++ s.boot.fwimDig)
    ++ s.activeDigest
    ++ beBytes 4 (if s.op = .minimal then 0xFFFFFFFF else s.bcr.epoch) ++ beBytes 4 s.bootCount
    ++ beBytes 4 s.keys.attCtr ++ beBytes 4 s.keys.lcCtr ++ s.keyDigest

/-- ATTEST (R321, R322). In a safe state the key store refuses it (R336). `stored` says that its STORE succeeds. -/
def State.keyAttestCmd (s : State) (p : Path) (stored : Bool) : State :=
  let len := s.fld F.keyCmd_len (keyInst p)
  let m := s.winBytes p keyWin (min 256 len)
  let slot := fieldAt m 16 1
  let fin (s : State) (r : Nat) : State := s.keyDone p r (some slot)
  if s.keyBusy then fin s 1
  else if (s.op != .run && s.op != .minimal) || (s.keys.lc != 1 && s.keys.lc != 2) || s.pair.safe.isSome then fin s 5
  else if len = 17 ∧ (s.slotEmpty slot || !getBit (s.slot slot).attr 10) then fin s 13
  else if len ≠ 17 then fin s 2
  else if s.keys.attCtr = 4294967295 then fin s 7
  else if !stored then fin s 12
  else
    let s := { s with keys := { s.keys with attCtr := s.keys.attCtr + 1, lcUnder := s.kLc } }
    let a := s.attestInput (bytesAt m 0 16) slot
    fin ((s.winPut p keyWin (a ++ cmac (s.slot slot).bytes a)).bump .keyAttest) 0

/-- DEBUG_CHAL (R320). -/
def State.dbgChal (s : State) (p : Path) : State :=
  if s.keyBusy then s.keyDone p 1 none
  else if s.keys.lc ≠ 2 then s.keyDone p 5 none
  else if s.net.cip.trngBad then s.keyDone p 15 none
  else
    let d := s.drawTrng 16
    let s := { d.2 with net := { d.2.net with dbg := { d.2.net.dbg with chal := some d.1 } } }
    (s.winPut p keyWin d.1).keyDone p 0 none

/-- A failed response. -/
def State.dbgFail (s : State) (p : Path) (res : Nat) : State :=
  let d := s.net.dbg
  let s := { s with net := { s.net with dbg := { d with chal := none, fails := min 3 (d.fails + 1) } } }
  (s.bump .keyDbgFail).keyDone p res none

/-- DEBUG_UNLOCK (R320): the response is the CMAC under slot 2 over the challenge and the UID. A challenge is
valid for one DEBUG_UNLOCK only, a refused one included. -/
def State.dbgUnlock (s : State) (p : Path) : State :=
  let chal := s.net.dbg.chal
  let s := { s with net := { s.net with dbg := { s.net.dbg with chal := none } } }
  let len := s.fld F.keyCmd_len (keyInst p)
  let m := s.winBytes p keyWin 16
  if s.keyBusy then s.keyDone p 1 none
  else if s.keys.lc ≠ 2 ∨ 3 ≤ s.net.dbg.fails then s.keyDone p 5 none
  else if len ≠ 16 then s.keyDone p 2 none
  else if s.slotEmpty 2 || !getBit (s.slot 2).attr 11 then s.keyDone p 13 none
  else match chal with
    | none => s.dbgFail p 8
    | some c =>
      if cmac (s.slot 2).bytes (c ++ s.uid) = m then
        ({ s with net := { s.net with dbg := { s.net.dbg with chal := none, open_ := true } } }).keyDone p 0 none
      else s.dbgFail p 8

/-- A key journal is open (R384). -/
def State.journalOpen (s : State) : Bool := s.keys.journal.isSome

/-- Debug access is open (R320). -/
def State.dbgOpen (s : State) : Bool := s.net.dbg.open_

end Sys2Proof.Machine
end

