-- ==== Sys2Proof/Machine/MacSec.lean ====
section
/-! DEFINITION. MACsec: the receive steps of R277, the ICV check, protection on transmit (R280 to R282), and the commands that
load SA keys (R281, R283). -/

namespace Sys2Proof.Machine

open Sys2Proof

/-! ## Secure associations: TX SA n is number n, RX SA n is number 1024 + n -/

/-- Word 0 of an SA. -/
def State.saWord (s : State) (n : Nat) : Word := if n < 1024 then s.rd .cipTxSa0 n else s.rd .cipRxSa0 (n - 1024)

/-- Set word 0 of an SA: in_use and key_ok. -/
def State.setSaWord (s : State) (n : Nat) (w : Word) : State :=
  if n < 1024 then s.wr .cipTxSa0 n w else s.wr .cipRxSa0 (n - 1024) w

/-- in_use and key_ok of an SA. -/
def State.saInUse (s : State) (n : Nat) : Bool := getBit (s.saWord n) 31
def State.saKeyOk (s : State) (n : Nat) : Bool := getBit (s.saWord n) 30

/-- The register that holds next_pn of an SA, and the instance of its low word. -/
def saPnReg (n : Nat) : Reg × Nat := if n < 1024 then (.cipTxSaNextPn, 2 * n) else (.cipRxSaNextPn, 2 * (n - 1024))

/-- next_pn of an SA. -/
def State.nextPn (s : State) (n : Nat) : Nat :=
  let r := saPnReg n
  (s.rd r.1 (r.2 + 1)).toNat * 4294967296 + (s.rd r.1 r.2).toNat

/-- Set next_pn of an SA, a 64-bit value. -/
def State.setNextPn (s : State) (n v : Nat) : State :=
  let r := saPnReg n
  (s.wr r.1 r.2 (BitVec.ofNat 32 v)).wr r.1 (r.2 + 1) (BitVec.ofNat 32 (v / 4294967296))

/-- SSCI and salt of an SA. -/
def State.saSsci (s : State) (n : Nat) : Word := if n < 1024 then s.rd .cipTxSaSsci n else s.rd .cipRxSaSsci (n - 1024)
def State.saSalt (s : State) (n : Nat) : List Byte :=
  bytesOf ((List.range 3).map fun i => if n < 1024 then s.rd .cipTxSaSalt (3 * n + i) else s.rd .cipRxSaSalt (3 * (n - 1024) + i))

/-- The engine reads an SA: an uncorrectable error clears it (R283). -/
def State.saRead (s : State) (n : Nat) : State :=
  (s.wordsRead 9 0 (saBase + 8 * n) 8 0).1

/-- The key of an SA, empty when none is loaded. -/
def State.sak (s : State) (n : Nat) : List Byte := if s.saKeyOk n then (tblFind s.net.cip.sak n).getD [] else []

/-- The suite of a port is an XPN suite; the length of its keys. -/
def State.xpn (s : State) (p : Nat) : Bool := decide (2 ≤ s.fld F.cipSecyCfg_suite p)
def State.sakLen (s : State) (p : Nat) : Nat := if s.fld F.cipSecyCfg_suite p % 2 = 1 then 32 else 16

/-- The confidentiality offset of a port. -/
def State.confOff (s : State) (p : Nat) : Nat := [0, 30, 50, 0].getD (s.fld F.cipSecyCfg_offset p) 0

/-- The IV of a frame: SCI and PN, or for XPN suites SSCI and PN over the salt. -/
def State.secIv (s : State) (p n sci pn : Nat) : List Byte :=
  if s.xpn p then xorBytes (beBytes 4 (s.saSsci n).toNat ++ beBytes 8 pn) (s.saSalt n)
  else beBytes 8 sci ++ beBytes 4 pn

/-! ## The SecTAG -/

/-- A SecTAG: its TCI and AN octet, short length, PN, explicit SCI, and length. -/
structure SecTag where
  tci : Nat
  sl  : Nat
  pn  : Nat
  sci : Option Nat
  len : Nat
  deriving DecidableEq, Repr

/-- The SecTAG of a frame. -/
def secTag (bs : List Byte) : Option SecTag :=
  if fieldAt bs 12 2 = 0x88E5 then
    let tci := fieldAt bs 14 1
    let sc := tci / 32 % 2 = 1
    some ⟨tci, fieldAt bs 15 1, fieldAt bs 16 4, if sc then some (fieldAt bs 20 8) else none, if sc then 16 else 8⟩
  else none

/-- Flags of a SecTAG. -/
def SecTag.v (t : SecTag) : Bool := t.tci / 128 % 2 == 1
def SecTag.es (t : SecTag) : Bool := t.tci / 64 % 2 == 1
def SecTag.scb (t : SecTag) : Bool := t.tci / 16 % 2 == 1
def SecTag.e (t : SecTag) : Bool := t.tci / 8 % 2 == 1
def SecTag.c (t : SecTag) : Bool := t.tci / 4 % 2 == 1
def SecTag.an (t : SecTag) : Nat := t.tci % 4

/-- The SecTAG is invalid (step 3 of R277). -/
def SecTag.bad (t : SecTag) : Bool :=
  t.v || (t.es && t.sci.isSome) || (t.sci.isSome && t.scb) || decide (47 < t.sl) || (t.c && !t.e)

/-- The EtherType after at most two VLAN tags. -/
def typeAfterTags (c : ParseCfg) (bs : List Byte) : Nat :=
  if c.tpid (fieldAt bs 12 2) then
    if c.tpid (fieldAt bs 16 2) then fieldAt bs 20 2 else fieldAt bs 16 2
  else fieldAt bs 12 2

/-- A frame is of a bypassed class of a port (R276); one that carries a SecTAG never is. -/
def State.secBypass (s : State) (p : Nat) (bs : List Byte) : Bool :=
  let et := typeAfterTags (s.parseCfg p) bs
  et != 0x88E5 && ((s.on F.cipSecyCfg_bypass_ptp p && et == 0x88F7) || (s.on F.cipSecyCfg_bypass_eapol p && et == 0x888E) ||
    (List.range 4).any fun k =>
      gateBit (s.fld F.cipSecyCfg_bypass_et_en p) k && et == s.fld F.cipBypassEt_ethertype k)

/-! ## Receive (R277, R278) -/

/-- What the receive SecY does with a frame: pass it as it is, pass it unverified with its SecTAG (length and short length) and
ICV removed, hold it for verification under an SA with its PN and key, or drop it. -/
inductive SecRx where
  | pass
  | strip (len sl : Nat)
  | hold (sa pn : Nat) (key : List Byte)
  | drop
  deriving DecidableEq, Repr

/-- The valid RX SCs of a port. -/
def State.rxScs (s : State) (p : Nat) : List Nat :=
  (List.range 256).filter fun k => s.on F.cipRxSc0_valid k && s.fld F.cipRxSc0_port k == p

/-- The SCI of an RX SC. -/
def State.scSci (s : State) (k : Nat) : Nat := (s.rd .cipRxScSci (2 * k)).toNat * 4294967296 + (s.rd .cipRxScSci (2 * k + 1)).toNat

/-- The RX SC of a frame (R277). -/
def State.scOf (s : State) (p : Nat) (t : SecTag) (bs : List Byte) : Option Nat :=
  let l := s.rxScs p
  match t.sci with
  | some x => l.find? fun k => s.scSci k == x
  | none =>
    if t.es then l.find? fun k => s.scSci k == fieldAt bs 6 6 * 65536 + 1
    else match l with
      | [k] => some k
      | _ => none

/-- The lowest acceptable PN of an RX SA on a port. -/
def State.lowestPn (s : State) (p sa : Nat) : Nat := max 1 (s.nextPn sa - s.fld F.cipSecyRwin_window p)

/-- The PN of a frame: for XPN suites recovered from its 32 received bits against the lowest acceptable PN, as IEEE 802.1AE states. -/
def State.recoverPn (s : State) (p sa pn : Nat) : Nat :=
  if s.xpn p then
    let low := s.lowestPn p sa
    let hi := low / 4294967296
    (if pn < 2147483648 ∧ 2147483648 ≤ low % 4294967296 then hi + 1 else hi) % 4294967296 * 4294967296 + pn
  else pn

/-- Steps 1 to 6 of R277 for the frame whose first bytes have arrived. -/
def State.secyIn (s : State) (p : Nat) (bs : List Byte) : State × SecRx :=
  let strict := s.on F.cipSecyCfg_validate p
  match secTag bs with
  | none =>
    if s.secBypass p bs then (s.bump .cipInBypass p, .pass)
    else if strict then (s.bump .cipInNoTag p, .drop)
    else (s.bump .cipInUntagged p, .pass)
  | some t =>
    if t.bad then (s.bump .cipInBadTag p, .drop)
    else match s.scOf p t bs with
      | none => if strict || t.c then (s.bump .cipInNoSci p, .drop) else (s.bump .cipInUnknownSci p, .strip t.len t.sl)
      | some k =>
        let sa := 1024 + 4 * k + t.an
        let s := s.saRead sa
        if !s.saInUse sa then
          if strict || t.c then (s.bump .cipInNotUsingSa p, .drop) else (s.bump .cipInUnusedSa p, .strip t.len t.sl)
        else
          let pn := s.recoverPn p sa t.pn
          if s.on F.cipSecyCfg_replay_protect p && decide (pn < s.lowestPn p sa) then (s.bump .cipInLate p, .drop)
          else (s, .hold sa pn (s.sak sa))

/-- The user data of a frame whose SecTAG is `len` bytes long, with short length `sl`, and its ICV. -/
def secData (len sl : Nat) (bs : List Byte) : List Byte × List Byte :=
  let d := bs.drop (12 + len)
  let n := if sl = 0 then d.length - 16 else sl
  (d.take n, (d.drop n).take 16)

/-- What the parser sees of a frame that still arrives, of which `ahead` more bytes follow before its FCS, 16 for 16 or more: the bytes
received, without the SecTAG and what of them is the ICV (R33). -/
def stripSeen (len sl ahead : Nat) (bs : List Byte) : List Byte :=
  let d := bs.drop (12 + len)
  bs.take 12 ++ d.take (if sl = 0 then d.length - (16 - ahead) else sl)

/-- A frame without its SecTAG and ICV. While it still arrives, the last 16 bytes received may be its ICV, and are not stored yet. -/
def stripSec (len sl : Nat) (bs : List Byte) : List Byte := bs.take 12 ++ (secData len sl bs).1

/-- The ICV check of a frame: its plaintext frame when it passes. -/
def State.secOpen (s : State) (p sa pn : Nat) (key : List Byte) (bs : List Byte) : Option (List Byte) :=
  match secTag bs with
  | none => none
  | some t =>
    let d := secData t.len t.sl bs
    let off := if t.c then s.confOff p else d.1.length
    let iv := s.secIv p sa (s.scSci ((sa - 1024) / 4)) pn
    if key.isEmpty || d.2.length != 16 then none
    else
      let r := gcmDec key iv (bs.take (12 + t.len) ++ d.1.take off) (d.1.drop off) d.2
      if r.2 then some (bs.take 12 ++ d.1.take off ++ r.1) else none

/-- Steps 7 to 9 of R277 for a held frame: its plaintext when it passes. -/
def State.secyCheck (s : State) (p sa pn : Nat) (key : List Byte) (bs : List Byte) : State × Option (List Byte) :=
  let c := match secTag bs with
    | some t => t.c
    | none => false
  match s.secOpen p sa pn key bs with
  | none => (s.bump (if c || s.on F.cipSecyCfg_validate p then .cipInNotValid else .cipInInvalid) p, none)
  | some x =>
    if s.on F.cipSecyCfg_replay_protect p && decide (pn < s.lowestPn p sa) then (s.bump .cipInLate p, none)
    else
      let s := s.bump (if pn < s.nextPn sa then .cipInDelayed else .cipInOk) p
      (s.setNextPn sa (min (2 ^ 64 - 1) (max (s.nextPn sa) (pn + 1))), some x)

/-! ## Transmit (R280 to R282) -/

/-- What the transmit SecY does with a copy whose transmission starts: it leaves unprotected, it is dropped, or it is protected
with a PN of an SA. -/
inductive SecTx where
  | clear
  | drop
  | protect (pn sa : Nat)
  deriving DecidableEq, Repr

/-- The length of the SecTAG that a port sends. -/
def State.txTagLen (s : State) (p : Nat) : Nat := if s.on F.cipSecyCfg_send_sci p then 16 else 8

/-- The PN space of the SA of a port is used up. -/
def State.pnSpent (s : State) (p sa : Nat) : Bool :=
  s.nextPn sa == 0 || (!s.xpn p && decide (4294967296 ≤ s.nextPn sa))

/-- PN_THRESH rises once when next_pn reaches CIP_SECY_PNTHR. -/
def State.pnThresh (s : State) (p sa : Nat) : State :=
  let thr := (s.rd .cipSecyPnthr (2 * p + 1)).toNat * 4294967296 + (s.rd .cipSecyPnthr (2 * p)).toNat
  if thr ≤ s.nextPn sa ∧ !(s.port p).pnDone.contains sa then
    (s.setPort p { s.port p with pnDone := sa :: (s.port p).pnDone }).raise (Ev.pnThresh p)
  else s

/-- A copy's first byte reaches stage 11 at a port: `len` is its length under R5 when known. A copy whose SA is not in use or has
no key cannot take a PN: it is dropped, and counted as one whose PN space is used up (assumption 22). -/
def State.secyOut (s : State) (p : Nat) (bs : List Byte) (len : Option Nat) : State × SecTx :=
  if !s.secyTx p then (s, .clear)
  else if s.secBypass p bs then (s.bump .cipOutBypass p, .clear)
  else
    let sa := 4 * p + s.fld F.cipTxscCtrl_enc_an p
    let s := s.saRead sa
    if len.any fun n => decide (9216 < n + s.txTagLen p + 16) then (s.bump .cipOutTooLong p, .drop)
    else if !s.saInUse sa || !s.saKeyOk sa then (s.bump .cipTxDropPn p, .drop)
    else if s.pnSpent p sa then ((s.bump .cipTxDropPn p).raise (Ev.pnExhaust p), .drop)
    else
      let pn := s.nextPn sa
      let s := s.setNextPn sa (pn + 1)
      let s := s.bump (if s.on F.cipSecyCfg_confid p then .cipOutEncrypted else .cipOutProtected) p
      (s.pnThresh p sa, .protect pn sa)

/-- The bytes of a protected copy, without FCS; a stomped copy carries no ICV (R44). -/
def State.secSeal (s : State) (p pn sa : Nat) (key : List Byte) (stomp : Bool) (bs : List Byte) : List Byte :=
  let conf := s.on F.cipSecyCfg_confid p
  let sc := s.on F.cipSecyCfg_send_sci p
  let sci := (s.rd .cipTxsci (2 * p)).toNat * 4294967296 + (s.rd .cipTxsci (2 * p + 1)).toNat
  let tci := 64 * s.fld F.cipSecyCfg_use_es p + 32 * sc.toNat + 16 * s.fld F.cipSecyCfg_use_scb p + 12 * conf.toNat + sa % 4
  let d := bs.drop 12
  let sl := if !stomp && decide (d.length < 48) then d.length else 0
  let head := bs.take 12 ++ [0x88, 0xE5, BitVec.ofNat 8 tci, BitVec.ofNat 8 sl] ++ beBytes 4 pn
    ++ (if sc then beBytes 8 sci else [])
  let off := if conf then s.confOff p else d.length
  let r := gcmEnc key (s.secIv p sa sci pn) (head ++ d.take off) (d.drop off)
  head ++ d.take off ++ r.1 ++ (if stomp then [] else r.2)

/-! ## Registers of the engine -/

/-- A write of CIP_TXSC_CTRL (R281). -/
def State.wrEncAn (s : State) (p : Nat) (data : Word) : State :=
  if !secyPort p then s.accessErr .cip
  else
    let sa := 4 * p + F.cipTxscCtrl_enc_an.of data
    if s.saInUse sa && s.saKeyOk sa then s.writeReg .cipTxscCtrl p data else s.accessErr .cip

def execEncAnWrite (path : Path) (p : Fin 18) (data : Word) (s : State) : Host.Outcome State Fault Refusal :=
  .next (s.accessReg path .cipTxscCtrl p data fun s => s.wrEncAn p data)

/-- A write of CIP_SECY_CFG: one that changes suite, offset or confid while the SecY is on is ignored. -/
def State.wrSecyCfg (s : State) (p : Nat) (data : Word) : State :=
  if !secyPort p then s.accessErr .cip
  else
    let fixed := fun (f : RegField) => f.of data != s.fld f p
    if (s.on F.cipSecyCfg_en p || s.on F.cipSecyCfg_protect p) &&
        (fixed F.cipSecyCfg_suite || fixed F.cipSecyCfg_offset || fixed F.cipSecyCfg_confid)
    then s.accessErr .cip else s.writeReg .cipSecyCfg p data

/-! ## CIP_KCMD (R283) -/

/-- The labels of IEEE 802.1X in ASCII. -/
def lblIck : List Byte := [0x49, 0x45, 0x45, 0x45, 0x38, 0x30, 0x32, 0x31, 0x20, 0x49, 0x43, 0x4B]
def lblKek : List Byte := [0x49, 0x45, 0x45, 0x45, 0x38, 0x30, 0x32, 0x31, 0x20, 0x4B, 0x45, 0x4B]

/-- The result of CIP_KCMD. -/
def State.kcmdDone (s : State) (res : Nat) : State := s.setFld F.cipKcmdStat_result 0 res

/-- The key slot of a command allows MKA for the path; a refusal is counted (R273). -/
def State.mkaDenied (s : State) (path : Path) (slot : Nat) : Bool := !s.keyAllows slot (pathCls path) 5

/-- DERIVE_MKA. The engine keeps the pairs of 8 slots, longest ago first. -/
def State.deriveMka (s : State) (path : Path) (slot len : Nat) : State :=
  if len = 0 ∨ 32 < len then s.kcmdDone 2
  else if s.mkaDenied path slot then (s.bump .cipKeyDenied).kcmdDone 3
  else
    let cak := (s.slot slot).bytes
    let ctx := (s.winBytes path cipWin (min len 16)) ++ List.replicate (16 - len) 0
    let l := (s.net.cip.mka.filter fun x => x.1 != slot) ++ [(slot, kdf cak lblIck ctx, kdf cak lblKek ctx)]
    let l := l.drop (l.length - 8)
    { s with net := { s.net with cip := { s.net.cip with mka := l } } }.kcmdDone 0

/-- The pair held for a slot. -/
def State.mkaPair (s : State) (slot : Nat) : Option (List Byte × List Byte) :=
  (s.net.cip.mka.find? fun x => x.1 == slot).map Prod.snd

/-- MKPDU_ICV. -/
def State.mkpduIcv (s : State) (path : Path) (slot len : Nat) : State :=
  if 4096 < len then s.kcmdDone 2
  else if s.mkaDenied path slot then (s.bump .cipKeyDenied).kcmdDone 3
  else match s.mkaPair slot with
    | none => s.kcmdDone 12
    | some x => (s.winPut path cipWin (cmac x.1 (s.winBytes path cipWin len))).kcmdDone 0

/-- The number of the SA that a command names, and its port, when it exists on a port with a SecY. -/
def State.kcmdSa (s : State) (rx : Bool) (sa : Nat) : Option (Nat × Nat) :=
  if rx then
    let p := s.fld F.cipRxSc0_port (sa / 4)
    if secyPort p then some (1024 + sa, p) else none
  else if sa < 72 ∧ secyPort (sa / 4) then some (sa, sa / 4)
  else none

/-- SA_IN_USE: an RX SA in use, or the TX SA in use that enc_an names. -/
def State.saBusy (s : State) (sa p : Nat) : Bool :=
  s.saInUse sa && (decide (1024 ≤ sa) || s.fld F.cipTxscCtrl_enc_an p == sa % 4)

/-- Load a key into an SA. -/
def State.loadSak (s : State) (sa p : Nat) (key : List Byte) : State :=
  let s := { s with net := { s.net with cip := { s.net.cip with sak := tblPut s.net.cip.sak sa key } } }.memFill 9 0 (saBase + 8 * sa) 8
  let s := s.setSaWord sa (putBits (s.saWord sa) 30 30 1)
  s.setPort p { s.port p with pnDone := (s.port p).pnDone.filter fun x => x != sa }

/-- UNWRAP_SAK. -/
def State.unwrapSak (s : State) (path : Path) (slot : Nat) (rx : Bool) (sa len : Nat) : State :=
  match s.kcmdSa rx sa with
  | none => s.kcmdDone 2
  | some (n, p) =>
    if len ≠ s.sakLen p + 8 then s.kcmdDone 2
    else if s.mkaDenied path slot then (s.bump .cipKeyDenied).kcmdDone 3
    else match s.mkaPair slot with
      | none => s.kcmdDone 12
      | some x =>
        if s.saBusy n p then s.kcmdDone 13
        else match keyUnwrap x.2 (s.winBytes path cipWin len) with
          | none => s.kcmdDone 11
          | some k => (s.loadSak n p k).kcmdDone 0

/-- GEN_SAK. Without output of the TRNG it returns ENTROPY (R293). -/
def State.genSak (s : State) (path : Path) (slot : Nat) (rx : Bool) (sa : Nat) : State :=
  match s.kcmdSa rx sa with
  | none => s.kcmdDone 2
  | some (n, p) =>
    if s.mkaDenied path slot then (s.bump .cipKeyDenied).kcmdDone 3
    else match s.mkaPair slot with
      | none => s.kcmdDone 12
      | some x =>
        if s.saBusy n p then s.kcmdDone 13
        else if s.net.cip.trngBad then s.kcmdDone 10
        else
          let d := s.drawTrng (s.sakLen p)
          ((d.2.loadSak n p d.1).winPut path cipWin (keyWrap x.2 d.1)).kcmdDone 0

/-- CLEAR_SA. -/
def State.clearSa (s : State) (rx : Bool) (sa : Nat) : State :=
  match s.kcmdSa rx sa with
  | none => s.kcmdDone 2
  | some (n, p) =>
    if s.saBusy n p then s.kcmdDone 13
    else
      let s := { s with net := { s.net with cip := { s.net.cip with sak := tblDel s.net.cip.sak n } } }
      (s.setSaWord n 0).kcmdDone 0

/-- The command of CIP_KCMD. An operation code that R283 does not list is a bad argument. -/
def State.kcmdRun (s : State) (path : Path) : State :=
  let slot := s.fld F.cipKcmd_key_slot
  let s := s.keyFetch slot
  let len := s.fld F.cipJobArg_len
  let rx := s.on F.cipKcmd_rx
  let sa := s.fld F.cipKcmd_sa
  match s.fld F.cipKcmd_op with
  | 1 => s.deriveMka path slot len
  | 2 => s.mkpduIcv path slot len
  | 3 => s.unwrapSak path slot rx sa len
  | 4 => s.genSak path slot rx sa
  | 5 => s.clearSa rx sa
  | _ => s.kcmdDone 2

/-- A write of CIP_KCMD. While the pair is split, a write of the main core is ignored (R341). -/
def State.wrKcmd (s : State) (path : Path) (data : Word) : State :=
  if path = .fw ∧ s.pair.mode = .split then s.accessErr .cip
  else
    let s := s.writeReg .cipKcmd 0 data
    if F.cipKcmd_go.of data = 1 then (s.flushBlk .cip).kcmdRun path else s

/-- A command word of CIP_KCMD with go set. -/
def kcmdWord (op : Nat) (slot : Byte) (rx : Bool) (sa : BitVec 10) : Word :=
  putBits (putBits (putBits (putBits 0x80000000 27 24 op) 23 16 slot.toNat) 15 15 rx.toNat) 9 0 sa.toNat

def execDeriveMka (path : Path) (slot : Byte) (s : State) : Host.Outcome State Fault Refusal :=
  let w := kcmdWord 1 slot false 0
  .next (s.accessReg path .cipKcmd 0 w fun s => s.wrKcmd path w)

def execMkpduIcv (path : Path) (slot : Byte) (s : State) : Host.Outcome State Fault Refusal :=
  let w := kcmdWord 2 slot false 0
  .next (s.accessReg path .cipKcmd 0 w fun s => s.wrKcmd path w)

def execUnwrapSak (path : Path) (slot : Byte) (rx : Bool) (sa : BitVec 10) (s : State) : Host.Outcome State Fault Refusal :=
  let w := kcmdWord 3 slot rx sa
  .next (s.accessReg path .cipKcmd 0 w fun s => s.wrKcmd path w)

def execGenSak (path : Path) (slot : Byte) (rx : Bool) (sa : BitVec 10) (s : State) : Host.Outcome State Fault Refusal :=
  let w := kcmdWord 4 slot rx sa
  .next (s.accessReg path .cipKcmd 0 w fun s => s.wrKcmd path w)

def execClearSa (path : Path) (rx : Bool) (sa : BitVec 10) (s : State) : Host.Outcome State Fault Refusal :=
  let w := kcmdWord 5 0 rx sa
  .next (s.accessReg path .cipKcmd 0 w fun s => s.wrKcmd path w)

end Sys2Proof.Machine
end

