-- ==== Sys2Proof/Machine/Jobs.lean ====
section
/-! DEFINITION. Cipher jobs and their contexts (R288 to R292), and the true random number generator (R293). -/

namespace Sys2Proof.Machine

open Sys2Proof

/-! ## Streaming primitives -/

/-- GHASH over whole blocks from an accumulator. -/
def ghashFrom (h acc : Nat) (m : List Byte) : Nat :=
  (pieces 16 (m.length / 16) m).foldl (fun y b => gmul (y ^^^ beNat b) h) acc

/-- CMAC chaining over whole blocks. -/
def cmacFrom (key acc m : List Byte) : List Byte :=
  (pieces 16 (m.length / 16) m).foldl (fun x b => aesEnc key (xorBytes x b)) acc

/-- The last block of a CMAC: whole, or shorter with its padding. -/
def cmacLast (key acc part : List Byte) : List Byte :=
  let k1 := cmacDouble (aesEnc key (List.replicate 16 0))
  let last := if part.length = 16 then xorBytes part k1
    else xorBytes (part ++ 0x80 :: List.replicate (15 - part.length) 0) (cmacDouble k1)
  aesEnc key (xorBytes acc last)

/-- The variant, block size and digest size of a hash algorithm code. -/
def shaOf (alg : Nat) : Sha2 := if alg = 5 then sha2p256 else sha2p512
def shaBlk (alg : Nat) : Nat := 16 * (shaOf alg).bytes

/-- The words of a SHA state, and its bytes. -/
def shaWords (alg : Nat) (st : List Byte) : List Nat := blockWords 8 (shaOf alg).bytes st
def shaBytes (alg : Nat) (ws : List Nat) : List Byte := ws.flatMap (beBytes (shaOf alg).bytes)

/-! ## Contexts (R289, R290) -/

/-- The 256 bytes of a context (R290). -/
def CipCtx.bytes (c : CipCtx) : List Byte :=
  let fit (n : Nat) (l : List Byte) : List Byte := (l ++ List.replicate n 0).take n
  [BitVec.ofNat 8 c.alg, BitVec.ofNat 8 (128 * c.aadDone.toNat + 64 * c.key256.toNat), BitVec.ofNat 8 c.cls, BitVec.ofNat 8 c.slot]
    ++ beBytes 4 c.gen ++ beBytes 8 c.dataLen ++ beBytes 8 c.aadLen ++ beBytes 2 c.part.length ++ List.replicate 6 0
    ++ fit 16 c.ctr ++ fit 16 c.acc ++ fit 64 c.sha ++ fit 128 c.part

/-- The context of 256 bytes. -/
def ctxOf (b : List Byte) : CipCtx where
  alg := fieldAt b 0 1
  aadDone := fieldAt b 1 1 / 128 % 2 == 1
  key256 := fieldAt b 1 1 / 64 % 2 == 1
  cls := fieldAt b 2 1
  slot := fieldAt b 3 1
  gen := fieldAt b 4 4
  dataLen := fieldAt b 8 8
  aadLen := fieldAt b 16 8
  ctr := bytesAt b 32 16
  acc := bytesAt b 48 16
  sha := bytesAt b 64 64
  part := bytesAt b 128 (fieldAt b 24 2)

/-- An algorithm that uses a key. -/
def CipCtx.keyed (c : CipCtx) : Bool := decide (c.alg ≤ 4)

/-- A context at INIT: `iv` is the 12-byte IV of GCM. -/
def ctxInit (alg cls slot gen : Nat) (big : Bool) (iv : List Byte) : CipCtx where
  alg := alg
  aadDone := false
  key256 := big
  cls := cls
  slot := slot
  gen := gen
  dataLen := 0
  aadLen := 0
  ctr := if alg ≤ 3 then iv ++ beBytes 4 2 else List.replicate 16 0
  acc := List.replicate 16 0
  sha := if alg = 5 then shaBytes 5 sha256Init ++ List.replicate 32 0 else if alg = 6 then shaBytes 6 sha384Init
    else List.replicate 64 0
  part := []

/-- Absorb bytes into the GHASH accumulator of a context. -/
def CipCtx.ghashIn (c : CipCtx) (key m : List Byte) : CipCtx :=
  let h := beNat (aesEnc key (List.replicate 16 0))
  let all := c.part ++ m
  let n := all.length / 16 * 16
  { c with acc := beBytes 16 (ghashFrom h (beNat c.acc) (all.take n)), part := all.drop n }

/-- Close a partial block of GHASH with zeros. -/
def CipCtx.ghashPad (c : CipCtx) (key : List Byte) : CipCtx :=
  if c.part.isEmpty then c else c.ghashIn key (List.replicate (16 - c.part.length) 0)

/-- UPDATE of GCM and GMAC: the context and the output. Every byte of GMAC is additional data. -/
def CipCtx.gcmUpdate (c : CipCtx) (key : List Byte) (aad : Bool) (m : List Byte) : CipCtx × List Byte :=
  if aad || c.alg == 3 then ({ c.ghashIn key m with aadLen := c.aadLen + m.length }, m)
  else
    let c := if c.aadDone then c else { c.ghashPad key with aadDone := true }
    let off := c.dataLen % 16
    let iv := c.ctr.take 12
    let out := (gctr key iv (2 + c.dataLen / 16) (List.replicate off 0 ++ m)).drop off
    let n := c.dataLen + m.length
    let c := c.ghashIn key (if c.alg = 1 then out else m)
    ({ c with dataLen := n, ctr := iv ++ beBytes 4 (2 + n / 16) }, out)

/-- The tag of GCM and GMAC. -/
def CipCtx.gcmFinal (c : CipCtx) (key : List Byte) : List Byte :=
  let d := (c.ghashPad key).ghashIn key (beBytes 8 (8 * c.aadLen) ++ beBytes 8 (8 * c.dataLen))
  xorBytes d.acc (aesEnc key (c.ctr.take 12 ++ beBytes 4 1))

/-- UPDATE of CMAC: the last block stays in the partial block. -/
def CipCtx.cmacUpdate (c : CipCtx) (key m : List Byte) : CipCtx :=
  let all := c.part ++ m
  let n := (all.length - 1) / 16 * 16
  { c with acc := cmacFrom key c.acc (all.take n), part := all.drop n, dataLen := c.dataLen + m.length }

/-- UPDATE of a hash. -/
def CipCtx.shaUpdate (c : CipCtx) (m : List Byte) : CipCtx :=
  let all := c.part ++ m
  let k := shaBlk c.alg
  let n := all.length / k * k
  let st := (shaOf c.alg).blocks (n / k) (shaWords c.alg c.sha) (all.take n)
  { c with sha := shaBytes c.alg st ++ List.replicate (64 - 8 * (shaOf c.alg).bytes) 0, part := all.drop n,
           dataLen := c.dataLen + m.length }

/-- The digest of a hash. -/
def CipCtx.shaFinal (c : CipCtx) : List Byte :=
  let k := shaBlk c.alg
  let tail := 2 * (shaOf c.alg).bytes
  let z := (2 * k - (c.part.length + 1 + tail) % k) % k
  let m := c.part ++ 0x80 :: List.replicate z 0 ++ beBytes tail (8 * c.dataLen)
  (shaBytes c.alg ((shaOf c.alg).blocks (m.length / k) (shaWords c.alg c.sha) m)).take (if c.alg = 5 then 32 else 48)

/-! ## Jobs (R288) -/

/-- The class that a context slot belongs to (R289). -/
def State.ctxClass (s : State) (c : Nat) : Nat :=
  if c < s.fld F.cipCtxSplit_ctrl_base then 0 else if c < s.fld F.cipCtxSplit_host_base then 1 else 2

/-- The context in a slot. -/
def State.cipCtx (s : State) (c : Nat) : Option CipCtx := tblFind s.net.cip.ctx c

/-- Write the context in a slot of the context memory, or invalidate it. -/
def State.setCipCtx (s : State) (c : Nat) (x : Option CipCtx) : State :=
  let s := (List.range 32).foldl (fun s i => s.memWrite 9 0 (32 * c + i)) s
  { s with net := { s.net with cip := { s.net.cip with ctx := match x with
    | some x => tblPut s.net.cip.ctx c x
    | none => tblDel s.net.cip.ctx c } } }

/-- Read a slot: the state, and whether a word of it could not be corrected. The slot is then invalidated. -/
def State.readCtx (s : State) (c : Nat) : State × Bool :=
  if s.memClean then (s, false)
  else
    let r := s.wordsRead 9 0 (32 * c) 32 0
    if r.2 then (r.1.setCipCtx c none, true) else r

/-- The result of a job. -/
def State.jobDone (s : State) (res : Nat) : State := s.setFld F.cipJobStat_result 0 res

/-- Refused by the key slot's attributes (R273). -/
def State.jobDenied (s : State) : State := (s.bump .cipKeyDenied).jobDone 3

/-- INIT. -/
def State.jobInit (s : State) (path : Path) (slot c : Nat) : State :=
  let alg := s.fld F.cipJobArg_alg
  let cls := pathCls path
  if s.ctxClass c ≠ cls then s.jobDone 7
  else if alg = 0 ∨ 6 < alg then s.jobDone 2
  else if alg ≤ 4 ∧ !s.keyAllows slot cls (if alg = 4 then 3 else 4) then s.jobDenied
  else
    let k := s.slot slot
    (s.setCipCtx c (some (ctxInit alg cls slot k.gen (getBit k.attr 30) (s.winBytes path cipWin 12)))).jobDone 0

/-- The context on which a job of a path works, or the result that refuses it: owner, poison, no context, a changed key. -/
def State.jobCtx (s : State) (path : Path) (c : Nat) : State × Except Nat CipCtx :=
  if s.ctxClass c ≠ pathCls path then (s, .error 7)
  else
    let r := s.readCtx c
    if r.2 then (r.1, .error 8)
    else match r.1.cipCtx c with
      | none => (r.1, .error 2)
      | some x =>
        if x.keyed && ((r.1.slot x.slot).gen != x.gen || r.1.slotEmpty x.slot) then (r.1, .error 4) else (r.1, .ok x)

/-- UPDATE. Additional data after data is a bad argument, and so is a len above 4096 (DESIGN CHOICE, assumption 94: the field map gives 0 to
4096 and no rule names the check). -/
def State.jobUpdate (s : State) (path : Path) (c : Nat) : State :=
  let len := s.fld F.cipJobArg_len
  let aad := s.on F.cipJobArg_aad
  let r := s.jobCtx path c
  match r.2 with
  | .error e => r.1.jobDone e
  | .ok x =>
    let s := r.1
    if 4096 < len ∨ (x.alg ≤ 2 ∧ aad ∧ x.aadDone) then s.jobDone 2
    else
      let m := s.winBytes path cipWin len
      let key := (s.slot x.slot).bytes
      if x.alg ≤ 3 then
        let u := x.gcmUpdate key aad m
        ((s.setCipCtx c (some u.1)).winPut path cipWin u.2).jobDone 0
      else if x.alg = 4 then (s.setCipCtx c (some (x.cmacUpdate key m))).jobDone 0
      else (s.setCipCtx c (some (x.shaUpdate m))).jobDone 0

/-- FINAL. -/
def State.jobFinal (s : State) (path : Path) (c : Nat) : State :=
  let r := s.jobCtx path c
  match r.2 with
  | .error e => r.1.jobDone e
  | .ok x =>
    let key := (r.1.slot x.slot).bytes
    let s := r.1.setCipCtx c none
    if x.alg = 2 then s.jobDone (if x.gcmFinal key = s.winBytes path cipWin 16 then 0 else 5)
    else
      let out := if x.alg ≤ 3 then x.gcmFinal key else if x.alg = 4 then cmacLast key x.acc x.part else x.shaFinal
      (s.winPut path cipWin out).jobDone 0

/-- A wrapped context (R291). -/
def State.ctxBlob (s : State) (x : CipCtx) (srcCls kek : Nat) (iv : List Byte) : List Byte :=
  let head : List Byte := [0x58, 0x57, 0x43, 0x01, 1, 0, BitVec.ofNat 8 srcCls, BitVec.ofNat 8 kek]
  let e := gcmEnc (s.slot kek).bytes iv (head ++ s.uid) x.bytes
  head ++ iv ++ e.1 ++ e.2

/-- SAVE_WRAP. The key that wraps has 256 bits. -/
def State.jobSave (s : State) (path : Path) (slot c : Nat) : State :=
  let r := s.jobCtx path c
  match r.2 with
  | .error e => r.1.jobDone e
  | .ok x =>
    let s := r.1
    if !s.keyAllows slot (pathCls path) 6 then s.jobDenied
    else if !getBit (s.slot slot).attr 30 then s.jobDone 2
    else if x.alg = 1 then s.jobDone 6
    else if s.net.cip.trngBad then s.jobDone 10
    else
      let d := s.drawTrng 12
      (d.2.winPut path cipWin (d.2.ctxBlob x (s.ctxClass c) slot d.1)).jobDone 0

/-- RESTORE_WRAP (R292). The refusals of R273 and R289, which come before its checks, are failed restores too. No tag can be right under
a 128-bit key, since a blob is made with AES-256-GCM (R291). -/
def State.jobRestore (s : State) (path : Path) (slot c : Nat) : State :=
  let s' := s.bump .cipCtxRestoreFail
  let fail (e : Nat) : State := s'.jobDone e
  if s.ctxClass c ≠ pathCls path then fail 7
  else if !s.keyAllows slot (pathCls path) 6 then s'.jobDenied
  else
    let b := s.winBytes path cipWin 292
    let p := gcmDec (s.slot slot).bytes (bytesAt b 8 12) (b.take 8 ++ s.uid) (bytesAt b 20 256) (bytesAt b 276 16)
    let x := ctxOf p.1
    if !p.2 || !getBit (s.slot slot).attr 30 then fail 5
    else if fieldAt b 0 4 ≠ 0x58574301 ∨ fieldAt b 4 2 ≠ 256 then fail 2
    else if fieldAt b 6 1 ≠ s.ctxClass c then fail 7
    else if (s.slot x.slot).gen != x.gen then fail 4
    else (s.setCipCtx c (some x)).jobDone 0

/-- ECDSA_VERIFY. -/
def State.jobEcdsa (s : State) (path : Path) : State :=
  let b := s.winBytes path cipWin 160
  s.jobDone (if ecdsaOk (bytesAt b 0 64) (bytesAt b 96 64) (bytesAt b 64 32) then 0 else 9)

/-- RANDOM. -/
def State.jobRandom (s : State) (path : Path) : State :=
  let len := s.fld F.cipJobArg_len
  if 4096 < len then s.jobDone 2
  else if s.net.cip.trngBad then s.jobDone 10
  else
    let d := s.drawTrng len
    (d.2.winPut path cipWin d.1).jobDone 0

/-- The job of CIP_JOB_CMD. An operation code that R288 does not list is a bad argument. -/
def State.jobRun (s : State) (path : Path) : State :=
  let slot := s.fld F.cipJobCmd_key_slot
  let c := s.fld F.cipJobCmd_ctx
  let s := (match s.cipCtx c with
    | some x => s.keyFetch x.slot
    | none => s).keyFetch slot
  match s.fld F.cipJobCmd_op with
  | 1 => s.jobInit path slot c
  | 2 => s.jobUpdate path c
  | 3 => s.jobFinal path c
  | 4 => s.jobSave path slot c
  | 5 => s.jobRestore path slot c
  | 6 => s.jobEcdsa path
  | 7 => s.jobRandom path
  | _ => s.jobDone 2

/-- A write of CIP_JOB_CMD. -/
def State.wrJobCmd (s : State) (path : Path) (data : Word) : State :=
  let s := s.writeReg .cipJobCmd 0 data
  if F.cipJobCmd_go.of data = 1 then (s.flushBlk .cip).jobRun path else s

/-- A command word of CIP_JOB_CMD with go set. -/
def jobWord (op : Nat) (slot : Byte) (c : BitVec 10) : Word :=
  putBits (putBits (putBits 0x80000000 27 24 op) 23 16 slot.toNat) 9 0 c.toNat

def execJobInit (path : Path) (slot : Byte) (c : BitVec 10) (s : State) : Host.Outcome State Fault Refusal :=
  .next (s.accessReg path .cipJobCmd 0 (jobWord 1 slot c) fun s => s.wrJobCmd path (jobWord 1 slot c))

def execJobUpdate (path : Path) (slot : Byte) (c : BitVec 10) (s : State) : Host.Outcome State Fault Refusal :=
  .next (s.accessReg path .cipJobCmd 0 (jobWord 2 slot c) fun s => s.wrJobCmd path (jobWord 2 slot c))

def execJobFinal (path : Path) (slot : Byte) (c : BitVec 10) (s : State) : Host.Outcome State Fault Refusal :=
  .next (s.accessReg path .cipJobCmd 0 (jobWord 3 slot c) fun s => s.wrJobCmd path (jobWord 3 slot c))

def execJobSaveWrap (path : Path) (slot : Byte) (c : BitVec 10) (s : State) : Host.Outcome State Fault Refusal :=
  .next (s.accessReg path .cipJobCmd 0 (jobWord 4 slot c) fun s => s.wrJobCmd path (jobWord 4 slot c))

def execJobRestoreWrap (path : Path) (slot : Byte) (c : BitVec 10) (s : State) : Host.Outcome State Fault Refusal :=
  .next (s.accessReg path .cipJobCmd 0 (jobWord 5 slot c) fun s => s.wrJobCmd path (jobWord 5 slot c))

def execJobEcdsaVerify (path : Path) (s : State) : Host.Outcome State Fault Refusal :=
  .next (s.accessReg path .cipJobCmd 0 (jobWord 6 0 0) fun s => s.wrJobCmd path (jobWord 6 0 0))

def execJobRandom (path : Path) (s : State) : Host.Outcome State Fault Refusal :=
  .next (s.accessReg path .cipJobCmd 0 (jobWord 7 0 0) fun s => s.wrJobCmd path (jobWord 7 0 0))

/-! ## The TRNG (R293) -/

/-- A health test fails: no output until it recovers. -/
def execTrngHealthFail (s : State) : Host.Outcome State Fault Refusal :=
  .next (if !s.fabricOn || s.net.cip.trngBad then s
    else
      let s := { s with net := { s.net with cip := { s.net.cip with trngBad := true } } }
      ((s.setFld F.cipTrngStat_health_fail 0 1).bump .cipTrngHealthFail).raise Ev.trngFail)

/-- 1024 consecutive samples have passed. -/
def execTrngHealthRecover (s : State) : Host.Outcome State Fault Refusal :=
  .next { s with net := { s.net with cip := { s.net.cip with trngBad := false } } }

end Sys2Proof.Machine
end

