-- ==== Sys2Proof/Machine/Lookup.lean ====
section
/-! DEFINITION. The way of a frame from its parse to its queues: the legacy map (R252 to R255), sequencing (R148), dispatch to a
Skerry (R142 to R144), and the stages in their order (R34, R93). -/

namespace Sys2Proof.Machine

open Sys2Proof

/-! ## Exception records (R166) -/

/-- Post an exception record. `thr` is the thread, where one has run. -/
def State.skyRecord (s : State) (cause k : Nat) (thr : Nat) (prof ord hash inPort xlt : Nat) : State :=
  if s.on F.skyMqCfg_en then
    let w0 := putBits (putBits (putBits (putBits 0 31 24 cause) 23 19 k) 18 17 thr) 7 0 prof
    let w3 := putBits (putBits 0 27 22 inPort) 11 0 xlt
    (s.mqPost (s.fld F.skyMqCfg_mq) ⟨[w0, BitVec.ofNat 32 ord, BitVec.ofNat 32 hash, w3]⟩).1
  else s

/-- A frame is dropped under a cause of R165, with a record for causes 1 to 10. -/
def State.skyDrop (s : State) (cause k thr prof xlt : Nat) (f : Frm) : State :=
  let s := s.bump .skyDropCause (cause - 1)
  if cause ≤ 10 then s.skyRecord cause k thr prof f.ord f.hash f.inPort xlt else s

/-! ## Dispatch (R142 to R144, R160) -/

/-- Skerry `k`. -/
def State.skerry (s : State) (k : Nat) : Skerry := tblGet s.net.sky Skerry.reset k

/-- Set Skerry `k`. -/
def State.setSky (s : State) (k : Nat) (x : Skerry) : State :=
  { s with net := { s.net with sky := tblSet s.net.sky Skerry.reset k x } }

/-- Skerry `k` is in service. -/
def State.skyOk (s : State) (k : Nat) : Bool := getBit (s.rd .skyStatus) k

/-- Thread 0 of Skerry `k` serves the reserved queue only. -/
def State.skyResv (s : State) (k : Nat) : Bool := getBit (s.rd .skyResvMask) k

/-- The first healthy Skerry after `k`, modulo 32, for which `p` holds. -/
def State.skyNext (s : State) (k : Nat) (p : Nat → Bool) : Option Nat :=
  ((List.range 32).map fun i => (k + 1 + i) % 32).find? fun j => s.skyOk j && p j

/-- The Skerry that home-map entry `n` names. -/
def State.homeOf (s : State) (n : Nat) : Nat := getBits (s.rd .skyHomeMap (n / 4)) (8 * (n % 4) + 4) (8 * (n % 4))

/-- The Skerry and queue of a descriptor: true for the reserved queue (R142, R160). A reserved queue is never filled on a
Skerry whose thread 0 does not serve it (R145). A home that is out of service hands its flows to the next healthy Skerry, as R160 has it for a
reserved profile (DEDUCED, assumption 35). -/
def State.skyTarget (s : State) (f : Frm) (prof : List Word) : Option (Nat × Bool) :=
  let fixed := eb prof 1 28 24
  let normal (k : Nat) : Option (Nat × Bool) :=
    (if s.skyOk k then some k else s.skyNext k fun _ => true).map fun j => (j, false)
  if ebit prof 0 23 && s.reserved f then
    if s.skyOk fixed then some (fixed, s.skyResv fixed)
    else match s.skyNext fixed fun j => s.skyResv j with
      | some j => some (j, true)
      | none => normal fixed
  else if ebit prof 1 31 then normal fixed
  else normal (s.homeOf (f.hash / 2 ^ 24))

/-- Dispatch a steered frame (R142 to R144). -/
def State.dispatch (s : State) (i prof slot : Nat) (dest : List (Nat × Xf)) : State :=
  let f := s.frm i
  let c := s.cfgEnt 0x30 f.epoch prof
  let s := c.1
  match c.2 with
  | none => s.voidSlot (some slot)
  | some e =>
    match s.skyTarget f e with
    | none =>
      let d := s.drawWord
      (d.2.skyDrop 10 (getBits d.1 4 0) (getBits d.1 6 5) prof 0xFFF f).voidSlot (some slot)
    | some (k, resv) =>
      if s.fld F.skyCellLim_limit < s.skyCells + f.skyCells then (s.skyDrop 12 k 0 prof 0xFFF f).voidSlot (some slot)
      else
        let x := s.skerry k
        let full := if resv then decide (32 ≤ x.resv.length) else decide (128 ≤ x.norm.length)
        if full then (s.bump .skyKDropQfull k).voidSlot (some slot)
        else
          let s := s.setFrm i { f with refs := f.refs + 1 }
          let d : Desc := ⟨i, prof, slot, dest, false⟩
          let idle := x.norm.isEmpty && x.resv.isEmpty
          let x := if idle then { x with lastRun := s.tim.lt } else x
          (s.setSky k (if resv then { x with resv := x.resv ++ [d] } else { x with norm := x.norm ++ [d] })).marks

/-! ## Sequencing (R148) -/

/-- The words of memory 0x03 that hold a slot and a context of the Harbour: 2 and 8 words (assumption 18). -/
def slotWord (k : Nat) : Nat := (tabMem 0x33).2 + 2 * k
def ctxWord (n : Nat) : Nat := (tabMem 0x34).2 + 8 * n

/-- A context reads poisoned: every slot of its flow becomes VOID in sequence order, and the context is freed (R369). -/
def State.ctxFail (s : State) (n : Nat) : State :=
  let l := s.ctxSlots n
  let s := l.foldl (fun s x => ((s.voidSlot (some x.1)).setSlot x.1 none).bump .hrbVoid) s
  s.setCtx n none

/-- A context of the Harbour is read: it fails when a word of it is poisoned. -/
def State.ctxRead (s : State) (n : Nat) : State :=
  let r := s.wordsRead 3 0 (ctxWord n) 8 0
  if r.2 then r.1.ctxFail n else r.1

/-- The context of a flow. -/
def State.ctxFind (s : State) (f : Frm) : Option Nat :=
  (s.net.ctxs.find? fun x => x.2.key == f.key && x.2.dir == f.dir && x.2.port == f.inPort).map Prod.fst

/-- The context that a new flow takes (R82). -/
def State.ctxFree (s : State) (hash : Nat) : Option Nat :=
  match tblFree s.net.ctxs (hash % 1024 * 4) 4 with
  | some n => some n
  | none => tblFree s.net.ctxs 4096 128

/-- Take a slot in a context. -/
def State.takeSlot (s : State) (i n : Nat) (steer : Bool) : State × Option (Option Nat) :=
  match tblFind s.net.ctxs n with
  | none => (s, none)
  | some c =>
    if s.fld F.hrbCfg_flow_slot_lim ≤ (s.ctxSlots n).length then (s.bump .hrbDropFlowLim, none)
    else match tblFree s.net.slots 0 8192 with
      | none => ((s.bump .hrbDropNoSlot).holdCtx n, none)
      | some k =>
        let s := (s.setSlot k (some ⟨n, c.next, i, steer, .pending none⟩)).memFill 3 0 (slotWord k) 2
        let s := (s.setCtx n (some { c with next := (c.next + 1) % 65536 })).memFill 3 0 (ctxWord n) 8
        ((s.setFrm i { s.frm i with slot := some k }).holdCtx n, some (some k))

/-- Sequence a frame: none when it is dropped, else its slot, if it takes one. -/
def State.sequence (s : State) (i : Nat) (steer : Bool) : State × Option (Option Nat) :=
  let f := s.frm i
  let s := match s.ctxFind f with
    | some n => s.ctxRead n
    | none => s
  match s.ctxFind f with
  | some n => s.takeSlot i n steer
  | none =>
    if !steer then (s, some none)
    else match s.ctxFree f.hash with
      | none => (s.bump .hrbDropNoCtx, none)
      | some n => (s.setCtx n (some ⟨f.key, f.dir, f.inPort, 0, none⟩)).takeSlot i n steer

/-! ## The legacy map (R252 to R255) -/

/-- What a probe of the map gives: the hit, and whether a probed entry could not be corrected. -/
structure MapRes where
  hit : Option (List Word)
  bad : Bool
  deriving DecidableEq, Repr

/-- The key words of a map entry: ide, port and identifier. -/
def mapKeyEq (port : Nat) (ide : Bool) (ident : Nat) (e : List Word) : Bool :=
  ebit e 0 31 && ebit e 0 30 == ide && eb e 0 27 22 == port && eb e 1 28 0 == ident

/-- Probe the map for a frame. In MINIMAL, only the entries of the fast-start subset are live on a CAN channel (R404). -/
def State.mapProbe (s : State) (port epoch : Nat) (l : LegRec) : State × MapRes :=
  let key : List Byte := [BitVec.ofNat 8 port, BitVec.ofNat 8 l.ide.toNat, 0, 0] ++ beBytes 4 l.ident
  let b := crcHash (s.rd .fdbHashSeed).toNat key % 1024
  let r := s.readAll 0x40 0 3 (s.probed 0x40 0 b 4096 256)
  let hit := r.2.1.find? fun e => mapKeyEq port l.ide l.ident e.2 && epHas (eb e.2 0 21 20) epoch
    && (!s.basic || ebit e.2 0 29 || decide (48 ≤ port))
  (r.1, ⟨hit.map Prod.snd, !r.2.2.isEmpty⟩)

/-- CAN and LIN channels are different domains (R96). -/
def sameBus (a b : Nat) : Bool := decide (32 ≤ a) && decide (a < 56) && decide (32 ≤ b) && decide (b < 56)
  && (decide (a < 48) == decide (b < 48))

/-- The destinations of a legacy frame (R253): none when it is dropped. Only a steered frame may cross between buses. An override that
leaves a frame that no rule steers without a destination empties its set as a miss does. -/
def State.legDest (s : State) (f : Frm) (m : MapRes) (d : Decision) : State × Option (List (Nat × Xf)) :=
  if m.bad then (s.bump .canMapDropEcc, none)
  else if m.hit.any fun e => ebit e 0 28 then (s.bump .canMapDrop, none)
  else if d.verdict = 2 then (s, some [(17, .asReceived)])
  else
    let out (l : List Nat) : List (Nat × Xf) :=
      (l.filter fun p => (d.steer.isSome && p != 63) || sameBus f.inPort p).map fun p => (p, .plain)
    let l := match d.dest, m.hit with
      | some p, _ => [p]
      | none, some e => ((List.range 24).filter fun n => gateBit (eb e 2 23 0) n && 32 + n != f.inPort).map fun n => 32 + n
      | none, none => []
    if (out l).isEmpty && d.steer.isNone then (s.bump (if m.hit.isSome then .canMapDrop else .canMapMiss), none)
    else (s, some (out l))

/-! ## Destination and edits of an Ethernet frame -/

/-- Steps 4 to 7 of R93 for an Ethernet frame: none when it is dropped. A rule that steers nothing and names no port that the frame can
reach (63, a legacy port, a reserved index) drops it, and CLS_DROP_RULE counts it (DESIGN CHOICE, assumption 85: R22 asks for a
counter, and no rule names one). -/
def State.ethDest (s : State) (i : Nat) (x : Parse) (d : Decision) : State × Option (List (Nat × Xf)) :=
  let f := s.frm i
  if d.verdict = 2 then (s, some [(17, .asReceived)])
  else
    let e := s.applyEdits f.inPort f.epoch d f.orig
    match e.2 with
    | none => (e.1, none)
    | some bytes =>
      if f.tail ∧ 9216 < bytes.length + 4 then (e.1.bump .clsDropPushLen, none)
      else
        let s := e.1.setFrm i { e.1.frm i with bytes := bytes }
        match d.dest with
        | some p =>
          let fv := s.forwardVid f.inPort (s.ingressVid f.inPort f.epoch x) bytes
          let v := if p < 18 then s.vlan f.epoch fv else (s, [], false)
          if v.2.2 then (v.1.bump .fdbDropParity, none)
          else
            let s := v.1
            let f := { s.frm i with fvid := fv }
            let s := s.setFrm i f
            if p < 18 ∨ d.steer.isSome then (s, some (if p = 63 then [] else [(p, s.planXf f 0 fv p)]))
            else (s.bump .clsDropRule, none)
        | none =>
          let r := s.ethLookup f.inPort f.epoch x bytes f.arr
          match r.2 with
          | none => (r.1, none)
          | some w =>
            let f := { r.1.frm i with fvid := w.vid, bytes := w.bytes }
            let s := r.1.setFrm i f
            (s, some (w.ports.map fun p => (p, s.planXf f w.form w.vid p)))

/-! ## Stage 5: streams -/

/-- Send a frame as received as an ECHO of its stream (R347). -/
def State.sendEcho (s : State) (f : Frm) : State := match f.stream, f.seq with
  | some k, some q =>
    let hdr : List Byte := List.replicate 6 0xFF ++ List.replicate 6 0 ++ [0x88, 0xB5, 1, 1] ++ beBytes 2 k ++ beBytes 2 q
      ++ [BitVec.ofNat 8 f.inPort, 0]
    (s.emitPair (hdr ++ f.orig)).bump .redEchoTx
  | _, _ => s

/-- The frame's own number is sent as ECHO by an ACTIVE device (R347). -/
def State.echoes (s : State) (f : Frm) : Bool :=
  s.on F.redCfg_en && s.op == .run && s.red.role == .active && f.leg.isNone && f.seq.isSome

/-- Number a frame and recover its sequence (R128, R129): whether it goes on. `echo` is the number that an ECHO carries. -/
def State.streamStage (s : State) (i : Nat) (x : Parse) (echo : Option Nat) : State × Bool :=
  let f := s.frm i
  match f.stream with
  | none => (s, true)
  | some k =>
    let par := s.strm f.epoch k
    let g := s.seqGen k par echo
    if !g.2.2 then (g.1, false)
    else
      let f := { f with seq := g.2.1 }
      let s := g.1.setFrm i f
      let s := if echo.isNone && f.tail && s.echoes f then s.sendEcho f else s
      if ebit par 2 30 then s.recovery k par x.rtag else (s, true)

/-! ## Stage 6 and stage 7 -/

/-- The outer tag of a frame sets DEI. -/
def outerDei (x : Parse) (bytes : List Byte) : Bool := x.has 0 && decide (fieldAt bytes 14 2 / 4096 % 2 = 1)

/-- The SDU length of a frame (R179). -/
def Frm.sdu (f : Frm) (x : Parse) : Nat := match f.leg with
  | some l => l.data.length
  | none => f.orig.length + 4 - sduOvh x

/-- The length that meters and gates count, without O_i (R179). -/
def Frm.meterLen (f : Frm) : Nat := match f.leg with
  | some l => l.data.length + 8
  | none => f.rxLen

/-- Policing of frame `i` (R189): whether it passes. What it has debited is kept, also of a frame that is dropped. -/
def State.policeFrm (s : State) (i : Nat) (x : Parse) (d : Decision) : State × Bool :=
  let f := s.frm i
  let par := f.stream.map fun k => s.strm f.epoch k
  let r := s.police f.inPort x par (if d.verdict = 2 then none else d.meter) (outerDei x f.orig)
    (if f.tail then some f.meterLen else none) (if f.tail then some (f.sdu x) else none) f.maxLen f.sec
  let st := r.2.1.1
  let f := r.1.frm i
  (r.1.setFrm i { f with colour := st.colour, dei := st.dei, pcp := st.pcp, mtrs := st.mtrs, gate := st.gate,
                         prov := if f.tail then none else some r.2.2 }, r.2.1.2)

/-- What policing sets goes into the tags of the copies (R193). -/
def Xf.mark (x : Xf) (f : Frm) : Xf := match x with
  | .tagged e => .tagged { e with pcp := f.pcp, dei := f.dei }
  | y => y

/-- The copy of frame `i` into a transmit queue of a legacy channel: a frame that reads poisoned is dropped before it enters (R369). -/
def State.legCopy (s : State) (i p : Nat) (l : LegRec) : State :=
  let r := s.frameRead i
  if r.2.isSome then r.1.bump .memPoisonDrop else r.1.legOffer p l (r.1.frm i).ord

/-- Offer the copy of a frame to a port or legacy channel. -/
def State.deliver (s : State) (i p : Nat) (x : Xf) : State :=
  if p < 18 then s.admitCopy i p x
  else match (s.frm i).leg with
    | some l => s.legCopy i p l
    | none => s

/-- The planned outputs of a sequenced frame that no Skerry handles (R149). -/
def State.slotPlan (s : State) (i n : Nat) (dest : List (Nat × Xf)) : State :=
  let outs := dest.map fun o => (⟨i, o.1, o.2, none⟩ : SlotOut)
  match tblFind s.net.slots n with
  | some x => (s.setSlot n (some { x with sky := false, st := .pending (some outs) })).holdFrm i outs.length
  | none => s

/-- Stage 7: a steered frame is dispatched, a sequenced one waits for its buffer write, any other is offered to its queues. -/
def State.stage7 (s : State) (i : Nat) (d : Decision) (slot : Option Nat) (dest : List (Nat × Xf)) : State :=
  match d.steer, slot with
  | some prof, some n =>
    if d.verdict = 2 then s.slotPlan i n dest else s.dispatch i prof n dest
  | _, some n => s.slotPlan i n dest
  | _, none => dest.foldl (fun s o => s.deliver i o.1 o.2) s

/-! ## All stages -/

/-- The SA lookup of a frame that its stream drops: its outcome does not depend on that drop (R112). A static hit on another port counts in
FDB_DROP_SA_STATIC then too (DESIGN CHOICE, assumption 87: R129 counts a discarded frame only in its stream's counters). -/
def State.saAlone (s : State) (f : Frm) (x : Parse) (d : Decision) : State :=
  if f.leg.isSome ∨ d.verdict = 2 ∨ d.dest.isSome then s
  else
    let i := s.vlan f.epoch (s.ingressVid f.inPort f.epoch x)
    if i.2.2 || !i.1.ingressOk f.inPort f.epoch i.2.1 then i.1
    else (i.1.saLookup f.inPort f.epoch i.2.1 (x.val 4) f.arr).1

/-- Stages 5 and 6 of a frame with its decision: where it goes, none when it is dropped. -/
def State.plan (s : State) (i : Nat) (x : Parse) (m : MapRes) (d : Decision) (echo : Option Nat) : State × Option (List (Nat × Xf)) :=
  let f := s.frm i
  let r := s.identify f.inPort f.epoch x
  if r.2.2 then (r.1.saAlone f x d, none)
  else
    let s := r.1.setFrm i { r.1.frm i with stream := r.2.1, squeue := r.2.1.bind (r.1.squeueOf f.epoch) }
    let g := s.streamStage i x echo
    if !g.2 then (g.1.saAlone f x d, none)
    else
      let e := match f.leg with
        | some _ => g.1.legDest f m d
        | none => g.1.ethDest i x d
      match e.2 with
      | none => (e.1, none)
      | some dest =>
        let p := e.1.policeFrm i x d
        (p.1, if p.2 then some (dest.map fun o => (o.1, o.2.mark (p.1.frm i))) else none)

/-- The mirror copy of a frame: as received, for every verdict (R93). It is admitted once lookup and policing are done, with the stream
and the colour that they gave (R168, R172). -/
def State.mirrorCopy (s : State) (i : Nat) (d : Decision) : State := match d.mirror with
  | some p => s.admitCopy i p .asReceived
  | none => s

/-- Stages 5 to 7 of a frame with its decision and slot. A frame dropped here makes its slot void (R149). -/
def State.stages (s : State) (i : Nat) (x : Parse) (m : MapRes) (d : Decision) (slot : Option Nat) (echo : Option Nat) : State :=
  let r := s.plan i x m d echo
  let s := r.1.mirrorCopy i d
  match r.2 with
  | none => s.voidSlot slot
  | some dest => s.stage7 i d slot dest

/-- Frames that the MINIMAL runtime delivers to P17 without a rule (R404). -/
def State.minimalTrap (s : State) (f : Frm) (x : Parse) : Bool :=
  (List.range 32).any fun k => s.on F.pwrMember0_valid k && s.fld F.pwrMember0_port k == f.inPort &&
    match f.leg with
    | some l => s.on F.pwrMember0_kind k && decide (f.inPort < 48) && l.ident == getBits (s.rd .pwrMember2 k) 28 0
        && l.ide == getBit (s.rd .pwrMember2 k) 31
    | none => !s.on F.pwrMember0_kind k && x.val 8 == 0x88B6

/-- Classification and what follows it. -/
def State.flow (s : State) (i : Nat) (x : Parse) (m : MapRes) (echo : Option Nat) : State :=
  let f := s.frm i
  if s.basic ∧ s.minimalTrap f x then s.admitCopy i 17 .asReceived
  else
    let c := s.classify f.inPort f.prio f.epoch x f.key f.dir f.hash
    match c.2 with
    | none => c.1
    | some d =>
      let s := c.1.setFrm i { c.1.frm i with steer := d.verdict == 0 && d.steer.isSome }
      if d.verdict = 1 ∨ d.verdict = 3 then s.mirrorCopy i d
      else
        let q := s.sequence i d.steer.isSome
        match q.2 with
        | none => q.1.mirrorCopy i d
        | some slot => q.1.stages i x m d slot echo

/-- A frame enters the pipeline under the active epoch, with the next classification ordinal: the state and its frame number.
`echo` is the sequence number of an ECHO (R347). -/
def State.ingest (s : State) (f : Frm) (echo : Option Nat) : State × Nat :=
  let ep := s.epoch
  let ord := s.net.ord + 1
  let s := { s with net := { s.net with ord := ord } }
  let x := match f.leg with
    | some l => parseLeg f.inPort l
    | none => parseEth (s.parseCfg f.inPort) f.orig
  let s := s.bumpIf x.trunc .clsParseTrunc
  let m := match f.leg with
    | some l => s.mapProbe f.inPort ep l
    | none => (s, ⟨none, false⟩)
  let s := m.1
  let prio := match f.leg with
    | some _ => match m.2.hit with
      | some e => eb e 0 2 0
      | none => 0
    | none => s.ingressPrio f.inPort ep x
  let k := flowKey f.inPort prio x
  let f := { f with epoch := ep, ord := ord, kind := x.kind, prio := prio, key := k.1, dir := k.2, hash := s.flowHash k.1,
                    bytes := f.orig, alt := (s.parseCfg f.inPort).alt, refs := 1 }
  let n := s.newFrm f
  let s := ((n.1.marks).flow n.2 x m.2 echo).runtimeLearn
  (s.dropRef n.2, n.2)

end Sys2Proof.Machine
end

