-- ==== Sys2Proof/Machine/PairBase.lean ====
section
/-! DEFINITION. The shared operations of the control pair (R333, R340 to R343) and of a pair of devices (R344, R348). -/

namespace Sys2Proof.Machine

open Sys2Proof

/-- The lowest-numbered lane of a set of lanes. -/
def lowestLane (l : BitVec 8) : Nat := ((List.range 8).find? fun i => l.getLsbD i).getD 0

/-- The injection test of R333 with the lanes that gave a wrong indication: its result in GLB_LS_BIST. -/
def State.bist (s : State) (fail : BitVec 8) : State :=
  s.wr .glbLsBist 0 (putBits (putBits (putBits 0 31 31 1) 30 30 (if fail = 0 then 1 else 0)) 7 0 fail.toNat)

/-- Set the mode of the pair. -/
def State.setMode (s : State) (m : LsMode) : State := { s with pair := { s.pair with mode := m } }

/-- Send STATUS when the flags of the device have changed from those of `old` (R346). -/
def State.flagsChanged (s old : State) : State :=
  if s.on F.redCfg_en && s.op == .run &&
      (s.alive != old.alive || s.pair.safe.isSome != old.pair.safe.isSome
        || (s.pair.mode == .split) != (old.pair.mode == .split))
  then s.sendStatus else s

/-- A split of the pair begins (R340, R343): the main core's write has been compared, and mode is SPLITTING. -/
def State.split (s : State) : State :=
  if s.pair.mode != .lockstep then s
  else { s with pair := { s.pair with mode := .splitting, splitAt := s.tim.lt } }

/-- The split is complete (R340), as LT leaves the tick of the write: until then a fault of that tick ends it (R343). -/
def State.splitDone (s : State) : State :=
  if s.pair.mode != .splitting then s
  else (((s.setMode .split).bump .glbLsSplits).raise Ev.lsSplit).flagsChanged s

/-- A re-pair (R342): the injection test runs, and lockstep returns, or the failure is a fault of code 0x3. Cores that a fault has halted
stay halted (R335). -/
def State.repair (s : State) (fail : BitVec 8) : State :=
  if s.pair.mode != .split || s.pair.halted then s
  else
    let s' := s.bist fail
    if fail = 0 then (((s'.setMode .lockstep).raise Ev.lsRepair)).flagsChanged s
    else (s'.setMode .repairing).fault 3 (lowestLane fail)

/-- A write of RED_CFG: with en = 0 the role is DETACHED (R348). -/
def State.wrRedCfg (s : State) (data : Word) : State :=
  let s := s.writeReg .redCfg 0 data
  if s.on F.redCfg_en then s else s.setRole .detached

/-- This device is home (R348): the lower UID, or the higher when home_hi = 1. -/
def State.home (s : State) : Bool :=
  match s.red.partner with
  | none => false
  | some p => if s.on F.redCfg_home_hi then decide (beNat p.uid < beNat s.uid) else decide (beNat s.uid < beNat p.uid)

end Sys2Proof.Machine
end

