-- ==== Sys2Proof/Machine/Fresh.lean ====
section
/-! DEFINITION. The freshness table: GEN and COMMIT (R155), their persistence in MRAM (R287) and the messages to the partner
(R347, R350). -/

namespace Sys2Proof.Machine

open Sys2Proof

/-- A 64-bit value of a table entry whose low word stands first (assumption 21). -/
def ew64 (e : List Word) (i : Nat) : Nat := (ew e (i + 1)).toNat * 4294967296 + (ew e i).toNat

/-- Set a 64-bit value of a table entry. -/
def ePut64 (e : List Word) (i v : Nat) : List Word :=
  (e.set i (BitVec.ofNat 32 v)).set (i + 1) (BitVec.ofNat 32 (v / 4294967296))

/-- fv of a freshness entry, and the ordinal of its last GEN. -/
def State.fv (s : State) (n : Nat) : Nat := ew64 (s.ent 0x32 0 n) 0
def State.lastOrd (s : State) (n : Nat) : Nat := ew64 (s.ent 0x32 0 n) 2

/-- Set fv of a freshness entry. -/
def State.setFv (s : State) (n v : Nat) : State := s.writeEnt 0x32 0 n (ePut64 (s.ent 0x32 0 n) 0 v)

/-- The parameter entry of a freshness entry under an epoch (R284). -/
def State.fparam (s : State) (epoch n : Nat) : List Word := s.ent 0x36 epoch n

/-- Word 0 of a parameter entry: valid, persist, role 1, stride. -/
def fpValid (e : List Word) : Bool := ebit e 0 31
def fpPersist (e : List Word) : Bool := fpValid e && ebit e 0 30
def fpRole1 (e : List Word) : Bool := ebit e 0 29
def fpStride (e : List Word) : Nat := 2 ^ eb e 0 19 16

/-! ## The FRESH region of MRAM (R412, R415) -/

/-- Bytes of MRAM from an offset. -/
def State.mramBytes (s : State) (off n : Nat) : List Byte := (List.range n).map fun i => tblGet s.mram.bytes 0 (off + i)

/-- Store bytes in MRAM. -/
def State.mramPut (s : State) : Nat → List Byte → State
  | _, [] => s
  | off, b :: bs => State.mramPut { s with mram := { s.mram with bytes := tblSet s.mram.bytes 0 off b } } (off + 1) bs

/-- The offset of copy `c` of a FRESH entry. -/
def freshOff (n c : Nat) : Nat := 0x18000 + 16 * n + 8 * c

/-- The stored value of a freshness entry: the larger of its two copies (R415). -/
def State.freshStored (s : State) (n : Nat) : Nat :=
  max (beNat (s.mramBytes (freshOff n 0) 8)) (beNat (s.mramBytes (freshOff n 1) 8))

/-- Store a value over the smaller copy of a FRESH entry. -/
def State.freshStore (s : State) (n v : Nat) : State :=
  let a := beNat (s.mramBytes (freshOff n 0) 8)
  let b := beNat (s.mramBytes (freshOff n 1) 8)
  s.mramPut (freshOff n (if a ≤ b then 0 else 1)) (beBytes 8 v)

/-! ## The operations -/

/-- Device firmware stores a value of a freshness entry (R287): a split pair re-pairs first (R342), with the lanes that fail its injection
test, `fail`, or a free value where the command does not carry them. Halted cores store nothing. The state, and whether it is stored. -/
def State.freshSave (s : State) (n v : Nat) (fail : Option (BitVec 8)) : State × Bool :=
  let t := s.splitDone
  let t := if t.pair.mode = .split then ({ t with free := t.free + 1 }).repair (fail.getD (Config.laneFail t.free)) else t
  if t.coresOff then (t, false) else (t.freshStore n v, true)

/-- The result of an operation is sent to the partner as FRESH by an ACTIVE device (R347). -/
def State.sendFresh (s : State) (n : Nat) : State :=
  if s.paired && s.red.role == .active then
    let hdr : List Byte := List.replicate 6 0xFF ++ List.replicate 6 0 ++ [0x88, 0xB5, 1, 5, 0, 0, 0, 0, 0, 0]
    s.emitPair (hdr ++ beBytes 2 n ++ beBytes 8 (s.fv n))
  else s

/-- GEN (R155, R286, R287): the state, and the new value, none when STALE. A value whose store fails is never returned. A FAULTED device
generates nothing (R347). -/
def State.freshGen (s : State) (epoch n ord : Nat) (fail : Option (BitVec 8) := none) : State × Option Nat :=
  let r := s.readEnt 0x32 0 n 0
  let s := r.1
  if r.2.2 || s.red.role == .faulted then (s, none)
  else if ord ≤ s.lastOrd n ∨ s.fv n = 2 ^ 64 - 1 then (s, none)
  else
    let v := s.fv n + 1
    let p := s.fparam epoch n
    let x := if fpPersist p ∧ s.freshStored n ≤ v then s.freshSave n (v + fpStride p) fail else (s, true)
    let s := x.1
    if !x.2 then (s, none)
    else
      let s := s.writeEnt 0x32 0 n (ePut64 (ePut64 (s.ent 0x32 0 n) 0 v) 2 ord)
      (s.sendFresh n, some v)

/-- COMMIT (R155, R287): the state, and whether it returns OK. -/
def State.freshCommit (s : State) (epoch n v : Nat) (fail : Option (BitVec 8) := none) : State × Bool :=
  let r := s.readEnt 0x32 0 n 0
  let s := r.1
  if r.2.2 || decide (v ≤ s.fv n) then (s, false)
  else
    let s := s.setFv n v
    let p := s.fparam epoch n
    let c := tblGet s.net.commits 0 n + 1
    let full := fpPersist p && fpRole1 p && decide (fpStride p ≤ c)
    let s := { s with net := { s.net with commits := tblSet s.net.commits 0 n (if full || !fpRole1 p then 0 else c) } }
    let s := if full then (s.freshSave n v fail).1 else s
    (s.sendFresh n, true)

/-- `fail`: the lanes that fail the injection test of a re-pair that the store starts. -/
def execFreshnessGen (idx : BitVec 12) (ord : BitVec 64) (s : State) (fail : BitVec 8 := 0) : Host.Outcome State Fault Refusal :=
  let r := s.freshGen s.epoch idx.toNat ord.toNat (some fail)
  .next (if s.fabricOn then r.1.emit (.fresh r.2) else s)

def execFreshnessCommit (idx : BitVec 12) (v : BitVec 64) (s : State) (fail : BitVec 8 := 0) : Host.Outcome State Fault Refusal :=
  let r := s.freshCommit s.epoch idx.toNat v.toNat (some fail)
  .next (if s.fabricOn then r.1.emit (.fresh (if r.2 then some v.toNat else none)) else s)

/-- At every entry into RUN or MINIMAL, fv of the entries with persist = 1 is set to the stored value (R287). -/
def State.freshLoad (s : State) : State :=
  (s.listed 0x36 s.epoch 0 4096).foldl (fun s e =>
    if fpPersist e.2 then s.setFv e.1 (s.freshStored e.1) else s) s

/-- Device firmware repairs a poisoned freshness entry (R369): fv from MRAM with persist = 1, 0 on a role-1 entry without. -/
def State.freshRepair (s : State) (n : Nat) : State :=
  if s.pair.halted || !s.entBad 0x32 0 n then s
  else
    let p := s.fparam s.epoch n
    if fpPersist p then s.setFv n (s.freshStored n)
    else if fpRole1 p then s.setFv n 0
    else s

/-- fv of each freshness entry with role 0 advances at a takeover (R350). -/
def State.advanceFresh (s : State) (k : Nat) : State :=
  (s.listed 0x36 s.epoch 0 4096).foldl (fun s e =>
    if fpValid e.2 && !fpRole1 e.2 then s.setFv e.1 ((s.fv e.1 + k) % 2 ^ 64) else s) s

/-- A FRESH message of the partner is applied as COMMIT (R347). -/
def State.freshFromPair (s : State) (n v : Nat) : State := if n < 4096 then (s.freshCommit s.epoch n v).1 else s

/-- The streams with seq_gen continue from the last number echoed (R350, R353): with a skip after a takeover, without one after a
handover. -/
def State.takeoverStreams (s : State) (skip : Option Nat) : State :=
  (s.listed 0x1A s.epoch 0 4096).foldl (fun s e =>
    if ebit e.2 0 31 && ebit e.2 2 31 then
      let n := match tblFind s.red.echoSeq e.1 with
        | some q => q + 1 + skip.getD 0
        | none => 0
      s.setStr e.1 (eput (s.strState e.1) 0 31 16 (n % 65536))
    else s) s

/-- An ECHO is classified as if received on its ingress port, with its carried number (R347). -/
def State.echoIn (s : State) (seq port : Nat) (bytes : List Byte) : State :=
  (s.ingest { Frm.blank with
    inPort := port, orig := bytes, tail := true, maxLen := s.fld F.macMaxFrame_max_len port, arr := s.ltNs } (some seq)).1

/-- Device firmware repairs a table entry (R120, R131, R367, R369). -/
def execParityRepair (tab : BitVec 8) (copy : Fin 2) (n : BitVec 18) (s : State) : Host.Outcome State Fault Refusal :=
  .next (if !s.fabricOn then s else if tab = 0x32 then s.freshRepair n.toNat else s.repairEnt tab.toNat copy n.toNat)

end Sys2Proof.Machine
end

