-- ==== Sys2Proof/Machine/Legacy.lean ====
section
/-! DEFINITION. The CAN and LIN controllers and the PLCA of the 10BASE-T1S ports: reception, fault confinement, transmission,
the LIN schedule, and their registers (R245 to R251, R256 to R261, R265 to R267, R347). -/

namespace Sys2Proof.Machine

open Sys2Proof

/-! ## A frame goes to classification (R248, R257) -/

/-- A frame leaves the receive FIFO of a legacy channel and enters the pipeline; a STANDBY device, or one in DISCOVER, drops it
(R347). Its residence runs from the instant at which it was valid. -/
def State.chanIn (s : State) (x : LegIn) : State :=
  if s.legacyStandby then s.bump .redStbySupp
  else
    let stamp := putBits (putBits 0 31 31 1) 27 24 15 :: List.replicate 3 0 ++ ltWords (lt16 x.sof) ++ [0]
    (s.ingest { Frm.blank with
      inPort := x.port, orig := x.leg.data, tail := true, leg := some x.leg, stamp := stamp, arr := x.at_ * 5 / 4 } none).1

/-- A frame is read from its receive FIFO: a poisoned one is discarded (R369). -/
def State.legTake (s : State) (x : LegIn) : State :=
  let r := s.itemRead (legWord x.port x.pos) x.leg.words
  if r.2 then r.1.bump .memPoisonDrop else r.1.chanIn x

/-- The classifier takes every frame that waits in a receive FIFO, in the order of their reception. -/
def State.drainLeg (s : State) : State :=
  s.net.legRx.foldl State.legTake { s with net := { s.net with legRx := [] } }

/-- The frames in the receive FIFO of a virtual port. -/
def State.legHeld (s : State) (port : Nat) : Nat := (s.net.legRx.filter fun x => x.port == port).length

/-- A received frame goes to the receive FIFO of its channel, which has room for `cap` frames; `stall` leaves it there, and the
classifier takes it later. -/
def State.legPut (s : State) (port cap : Nat) (l : LegRec) (stall : Bool) (ago : Nat) (got lost : Ctr) (ch : Nat) : State :=
  if cap ≤ s.legHeld port then s.bump lost ch
  else
    let pos := ((List.range cap).find? fun i => !(s.net.legRx.any fun x => x.port == port && x.pos == i)).getD 0
    let s := (s.bump got ch).itemWrite (legWord port pos) l.words
    let s := { s with net := { s.net with legRx := s.net.legRx ++ [⟨port, l, s.tim.lt - ago, s.tim.lt, pos⟩] } }
    if stall then s else s.drainLeg

/-! ## Fault confinement (R249) -/

/-- The state that the counters give: 0 error-active, 1 error-passive, 2 bus-off. -/
def canState (tec rec_ : Nat) : Nat := if 255 < tec then 2 else if 127 < tec ∨ 127 < rec_ then 1 else 0

/-- Drop the queued frames of a CAN channel, and count each. -/
def State.canFlush (s : State) (n : Nat) (c : Ctr) : State :=
  let x := s.canCh n
  (s.setCan n { x with txq := [], offer := none }).bumpBy c n x.txq.length

/-- Set the error counters of a channel that is not in bus-off; entry into bus-off is counted and raised. -/
def State.canCount (s : State) (n tec rec_ : Nat) : State :=
  let st := canState tec rec_
  let s := s.setCan n { s.canCh n with tec := tec, rec_ := rec_, fc := st }
  if st = 2 then
    let s := (s.setCan n { s.canCh n with offAt := s.tim.lt, offer := none }).bump .canBusoff n
    let s := s.raise (Ev.canBusoff n)
    if s.on F.canCtrl_bo_flush n then s.canFlush n .canTxDropBusoff else s
  else s

/-- The controller of a channel takes part in bus activity. -/
def State.canOn (s : State) (n : Nat) : Bool :=
  s.fabricOn && s.on F.canCtrl_en n && (s.canCh n).joined && decide ((s.canCh n).fc < 2)

/-- The counter of a kind of error. -/
def canErrCtr : CanErr → Ctr
  | .bit => .canErrBit
  | .stuff => .canErrStuff
  | .crc => .canErrCrc
  | .form => .canErrForm
  | .ack => .canErrAck

/-- Ticks of an error counter. -/
def CanStep.n : CanStep → Nat
  | .none => 0
  | .one => 1
  | .eight => 8

/-- A channel detects an error, as transmitter or receiver; `step` is what ISO 11898-1 adds to its counter. In selective mode the
counters hold (R265). The controller chooses again (R250). -/
def State.canError (s : State) (n : Nat) (e : CanErr) (tx : Bool) (step : CanStep) : State :=
  let s := s.bump (canErrCtr e) n
  let c := s.canCh n
  if s.canMode n = 2 then s
  else if tx then (s.canCount n (c.tec + step.n) c.rec_).canChoose n
  else (s.canCount n c.tec (min 255 (c.rec_ + step.n))).canChoose n

def execCanError (ch : Fin 16) (e : CanErr) (tx : Bool) (step : CanStep) (s : State) : Host.Outcome State Fault Refusal :=
  .next (if s.canOn ch && (!s.quiet || (s.canCh ch).offer.isSome) then s.canError ch e tx step else s)

/-- The recovery sequence starts. -/
def State.canRecover (s : State) (n : Nat) : State := s.setCan n { s.canCh n with fc := 3 }

def execCanBusoffDelayExpiry (ch : Fin 16) (s : State) : Host.Outcome State Fault Refusal :=
  let c := s.canCh ch
  .next (if s.fabricOn && c.fc == 2 && s.on F.canCtrl_bo_auto ch
      && decide (c.offAt + tkMs (s.fld F.canBoCfg_bo_delay_ms ch) ≤ s.tim.lt) then s.canRecover ch else s)

/-- A write of CAN_BO_CFG: recover outside bus-off is ignored and sets ACCESS_ERR (R249); while the channel recovers the bit reads 1,
and the write is ignored (R12). -/
def State.wrBoCfg (s : State) (n : Nat) (data : Word) : State :=
  let s := s.writeReg .canBoCfg n data
  if F.canBoCfg_recover.of data = 0 ∨ (s.canCh n).fc = 3 then s
  else if (s.canCh n).fc = 2 then s.canRecover n else s.accessErr .can

def execCanRecover (path : Path) (ch : Fin 16) (data : Word) (s : State) : Host.Outcome State Fault Refusal :=
  .next (s.accessReg path .canBoCfg ch data fun s => s.wrBoCfg ch data)

/-- The recovery sequence is complete. In selective mode TEC and REC hold their values, and fault confinement waits (R265). -/
def execCanRecoveryComplete (ch : Fin 16) (s : State) : Host.Outcome State Fault Refusal :=
  .next (if s.fabricOn && (s.canCh ch).fc == 3 && s.canMode ch != 2 then
      (s.setCan ch { s.canCh ch with tec := 0, rec_ := 0, fc := 0 }).canChoose ch
    else s)

/-! ## CAN reception and transmission (R248, R250) -/

/-- A successful reception lowers REC (ISO 11898-1): above 127 it becomes a value from 119 to 127 that the standard leaves open. -/
def State.canRxOk (s : State) (n : Nat) : State :=
  let c := s.canCh n
  if 127 < c.rec_ then
    let d := s.drawWord
    d.2.canCount n c.tec (119 + d.1.toNat % 9)
  else s.canCount n c.tec (c.rec_ - 1)

/-- The controller takes frames of a format for delivery (R248, R265). -/
def State.canTakes (s : State) (n fmt : Nat) : Bool := s.canMode n != 2 && s.canFmtOk n fmt

/-- A frame that began `ago` ticks before is still received: in QUIET and LINK_DOWN a controller finishes the frame in progress, and then
stops (R336). -/
def State.stillRx (s : State) (ago : Nat) : Bool := !s.quiet || decide (s.tim.lt ≤ s.pair.safeAt + ago)

/-- A valid frame is received, at the instant that R248 names; its start of frame was `ago` ticks before. `stall`: the classifier takes
it later. -/
def State.canRx (s : State) (n : Nat) (l : LegRec) (rtr stall : Bool) (ago : Nat) : State :=
  if !s.canTakes n l.fmt || !s.stillRx ago then s
  else
    let s := s.canRxOk n
    if rtr then s.bump .canRxDropRtr n else s.legPut (32 + n) 32 l stall ago .canRxFrames .canRxDropOvf n

/-- The frame on offer has been sent. -/
def State.canEnd (s : State) (n : Nat) : State :=
  let c := s.canCh n
  match c.offer with
  | none => s
  | some x =>
    let s := (s.setCan n { c with txq := txqDrop x c.txq, offer := none }).bump .canTxFrames n
    (s.emit (.can n (x.leg.fmt == 1 && s.on F.canCtrl_brs n) x.leg)).canCount n (c.tec - 1) c.rec_

/-- The frame on offer has been sent, and the controller chooses again. -/
def State.canSent (s : State) (n : Nat) : State := if (s.canCh n).offer.isNone then s else (s.canEnd n).canChoose n

def execCanTxComplete (ch : Fin 16) (s : State) : Host.Outcome State Fault Refusal :=
  .next (if s.canOn ch && s.pair.safe != some .linkDown then s.canSent ch else s)

def execCanArbLost (ch : Fin 16) (s : State) : Host.Outcome State Fault Refusal :=
  .next (if s.canOn ch && (s.canCh ch).offer.isSome then (s.bump .canArbLost ch).canChoose ch else s)

/-- The channel has observed 11 recessive bits (R247). -/
def State.canJoin (s : State) (n : Nat) : State := (s.setCan n { s.canCh n with joined := true }).canChoose n

def execCanIntegrationComplete (ch : Fin 16) (s : State) : Host.Outcome State Fault Refusal :=
  .next (if s.fabricOn && s.on F.canCtrl_en ch then s.canJoin ch else s)

/-- A channel leaves bus activity until it has integrated again. -/
def State.canLeave (s : State) (n : Nat) : State := s.setCan n { s.canCh n with joined := false, offer := none }

/-! ## CAN registers (R247) -/

/-- Write a register with the values of `data` that its rules take: `taken` is `data` with the others as they were (R487). -/
def State.writeTaken (s : State) (r : Reg) (n : Nat) (data taken : Word) : State :=
  let m := mergeFields taken r.info.fields (s.rd r n, false)
  let s := s.wr r n m.1
  if m.2 || taken != data then s.accessErr r.info.blk else s

/-- What a write of CAN_CTRL takes: pwm_en = 1 requires xl_es_dis = 1 (R246). Else pwm_en keeps its value, and xl_es_dis, while pwm_en is
1, with it (entry 70). -/
def canCtrlTaken (old data : Word) : Word :=
  if getBit data 25 && !getBit data 26 then putBits (putBits data 25 25 (getBit old 25).toNat) 26 26 (getBit old 25).toNat else data

/-- A write of CAN_CTRL: clearing en drops the transmit queue, setting it starts integration. A frame already on offer stays while the
channel may send it (R250). -/
def State.wrCanCtrl (s : State) (n : Nat) (data : Word) : State :=
  let was := s.on F.canCtrl_en n
  let s := s.writeTaken .canCtrl n data (canCtrlTaken (s.rd .canCtrl n) data)
  let now := s.on F.canCtrl_en n
  if was && !now then (s.canFlush n .canTxDropState).canLeave n
  else if !was && now then s.canLeave n
  else if s.canOpen n && (s.canCh n).offer.isSome then s
  else s.canChoose n

/-- The positions of tseg2 and sjw in a timing register: the high and low bit of each, and the largest tseg2. -/
def canSegs (r : Reg) : Option (Nat × Nat × Nat × Nat) := match r with
  | .canNbt => some (16, 9, 7, 128)
  | .canDbt => some (12, 8, 4, 16)
  | .canXbt => some (12, 8, 4, 16)
  | _ => none

/-- What a write of a timing register takes: sjw lies from 1 to the tseg2 that stands after the write, and tseg2 never falls below the
sjw that stands (R487, entry 70). -/
def canTimingTaken (r : Reg) (old data : Word) : Word := match canSegs r with
  | none => data
  | some (h, l, j, top) =>
    let w := getBits data h l
    let seg := if 2 ≤ w ∧ w ≤ top then w else getBits old h l
    let v := getBits data j 0
    let sjw := if 1 ≤ v ∧ v ≤ seg then v else getBits old j 0
    putBits (putBits data h l (if sjw ≤ seg then seg else getBits old h l)) j 0 sjw

/-- A write of a timing register of a channel, only while en = 0. -/
def State.wrCanTiming (s : State) (r : Reg) (n : Nat) (data : Word) : State :=
  if s.on F.canCtrl_en n then s.accessErr .can else s.writeTaken r n data (canTimingTaken r (s.rd r n) data)

/-! ## LIN (R256 to R260) -/

/-- The protected identifier of a frame identifier. -/
def linPid (id : Nat) : Nat :=
  let b (k : Nat) := id / 2 ^ k % 2
  id + 64 * ((b 0 + b 1 + b 2 + b 4) % 2) + 128 * ((b 1 + b 3 + b 4 + b 5 + 1) % 2)

/-- The checksum of a response (ISO 17987): the inverted sum with carry of the data, and of the protected identifier when enhanced.
Identifiers 60 and 61 always use classic. -/
def State.linSum (s : State) (n id : Nat) (data : List Byte) : Byte :=
  let enh := s.on F.linFrame_enh_cs (linFrm n id) && id != 60 && id != 61
  let sum := data.foldl (fun a b => let x := a + b.toNat; if 255 < x then x - 255 else x) (if enh then linPid id else 0)
  BitVec.ofNat 8 (255 - sum)

/-- The direction of an identifier: 1 published, 2 subscribed. -/
def State.linDir (s : State) (n id : Nat) : Nat := s.fld F.linFrame_dir (linFrm n id)

/-- The publish entry of an identifier is read: data sets at its front whose words are poisoned, at most `fuel`, are discarded (R369). -/
def State.linFront (s : State) : Nat → Nat → Nat → State
  | 0, _, _ => s
  | fuel + 1, n, id => match tblGet (s.linCh n).pub [] id with
    | x :: rest =>
      let r := s.itemRead (linWord n id x.pos) 4
      if r.2 then ((r.1.setLin n { r.1.linCh n with pub := tblSet (r.1.linCh n).pub [] id rest }).bump .memPoisonDrop).linFront fuel n id
      else r.1
    | [] => s

/-- A header of an identifier is on the bus: the device answers it, and awaits the response, its own or another's. -/
def State.linHeader (s : State) (n id : Nat) (event : Bool) : State :=
  let s := if s.linDir n id = 1 ∧ !s.legacyStandby then s.linFront 4 n id else s
  let c := { s.linCh n with
    pid := linPid id, lastAt := s.tim.lt, wait := some id, event := event && s.linDir n id != 1, coll := false }
  let fr := linFrm n id
  match s.linDir n id, tblGet c.pub [] id with
  | 1, x :: rest =>
    if s.legacyStandby then s.setLin n c
    else
      let pub := if s.on F.linFrame_queue fr then tblSet c.pub [] id rest else c.pub
      let sent := if s.on F.linFrame_queue fr then c.sent else id :: c.sent.filter (· != id)
      ((s.setLin n { c with pub := pub, sent := sent }).emit
        (.lin n (x.leg.data ++ [s.linSum n id x.leg.data]))).bump .linTxFrames n
  | _, _ => s.setLin n c

/-- The base and length of a schedule table; none when it is not defined. -/
def State.linTab (s : State) (n t : Nat) : Option (Nat × Nat) :=
  let k := 8 * n + t % 8
  if s.on F.linTable_valid k ∧ 0 < s.fld F.linTable_len k then some (s.fld F.linTable_base k, s.fld F.linTable_len k) else none

/-- The instance of the slot register of pool entry `e` of a channel. -/
def linSlotAt (n e : Nat) : Nat := 128 * n + e % 128

/-- The pool entry in force. -/
def State.linEntry (s : State) (n : Nat) : Nat := match s.linTab n (s.linCh n).table with
  | some t => t.1 + (s.linCh n).idx
  | none => 0

/-- Where the schedule stands after the current slot: the slot after it, the collision table, or the table that a switch selected. -/
def State.linNext (s : State) (n : Nat) : Lin :=
  let c := s.linCh n
  let len (t : Nat) : Nat := match s.linTab n t with
    | some x => x.2
    | none => 1
  let step (t i : Nat) : Nat := if i + 1 < len t then i + 1 else 0
  match c.slotAt with
  | none => match c.sw with
    | some w => { c with table := w, idx := 0, back := none, sw := none }
    | none => c
  | some _ =>
    if c.coll then { c with back := some (c.table, c.idx), table := s.fld F.linSlot_aux (linSlotAt n (s.linEntry n)) % 8, idx := 0 }
    else match c.back with
      | some (t, i) =>
        if c.idx + 1 < len c.table then { c with idx := c.idx + 1 }
        else match c.sw with
          | some w => { c with table := w, idx := 0, back := none, sw := none }
          | none => { c with table := t, idx := step t i, back := none }
      | none => match c.sw with
        | some w => { c with table := w, idx := 0, sw := none }
        | none => { c with idx := step c.table c.idx }

/-- The sporadic frame of a group: the lowest identifier whose publish entry holds data not yet sent (R259). Group 0 is none. -/
def State.linSporadic (s : State) (n group : Nat) : Option Nat :=
  let c := s.linCh n
  (List.range 64).find? fun id => group != 0 && s.linDir n id == 1 && s.fld F.linFrame_group (linFrm n id) == group
    && !(tblGet c.pub [] id).isEmpty && !c.sent.contains id

/-- A subscribed slot that ended without a response is counted (R257). -/
def State.linNoResp (s : State) (n : Nat) : State :=
  let c := s.linCh n
  match c.wait with
  | some id => (s.setLin n { c with wait := none }).bumpIf (s.linDir n id == 2) .linErrNoResp n
  | none => s

/-- A LIN channel that works as master. -/
def State.linMaster (s : State) (n : Nat) : Bool :=
  s.forwards && s.linRuns n && s.on F.linCtrl_master n && !s.legacyStandby && !s.quiet

/-- The next slot starts (R259), when the current one has lasted its time. -/
def State.linSlot (s : State) (n : Nat) : State :=
  let c := s.linCh n
  let due := match c.slotAt with
    | some t => decide (t + tkUs (s.fld F.linSlot_slot_us (linSlotAt n (s.linEntry n))) ≤ s.tim.lt)
    | none => true
  if !due then s
  else
    let s := s.linNoResp n
    let c := { s.linNext n with slotAt := some s.tim.lt, coll := false, event := false }
    match s.linTab n c.table with
    | none => s.setLin n { c with slotAt := none }
    | some t =>
      let e := linSlotAt n (t.1 + c.idx)
      let s := s.setLin n c
      let id := match s.fld F.linSlot_type e with
        | 2 => s.linSporadic n (s.fld F.linSlot_aux e)
        | _ => some (s.fld F.linSlot_frame_id e)
      match id with
      | none => s
      | some id => (s.emit (.lin n [0x55, BitVec.ofNat 8 (linPid id)])).linHeader n id (s.fld F.linSlot_type e == 1)

def execLinSlotStart (ch : Fin 8) (s : State) : Host.Outcome State Fault Refusal :=
  .next (if s.linMaster ch then s.linSlot ch else s)

/-- The bus of a channel was active (R260). -/
def State.linActive (s : State) (n : Nat) : State := s.setLin n { s.linCh n with lastAt := s.tim.lt }

/-- A slave receives a header (R260); one whose parity is wrong is bus activity and no header. -/
def execLinHeaderRx (ch : Fin 8) (pid : Byte) (s : State) : Host.Outcome State Fault Refusal :=
  let id := pid.toNat % 64
  .next (if s.forwards && s.linRuns ch && !s.on F.linCtrl_master ch && !s.quiet then
      if linPid id = pid.toNat then (s.linNoResp ch).linHeader ch id false else s.linActive ch
    else s)

/-- A response in error is counted (R257). -/
def State.linErr (s : State) (n : Nat) (e : LinErr) (badSum : Bool) : State := match e with
  | .bit => s.bump .linErrBit n
  | .framing => s.bump .linErrFraming n
  | .sync => s.bump .linErrSync n
  | .none => s.bumpIf badSum .linErrChecksum n

/-- The data of the go-to-sleep command (R260). -/
def linSleepData : List Byte := 0 :: List.replicate 7 0xFF

/-- A slave that receives the go-to-sleep command goes to bus sleep (R256). -/
def State.linSleepRx (s : State) (n id : Nat) (data : List Byte) : State :=
  if id = 60 ∧ data = linSleepData ∧ !s.on F.linCtrl_master n then s.setLin n { s.linCh n with sleep := true } else s

/-- A response is received (R257, R259): its data, its checksum, and what else the receiver found. The break fell `ago` ticks before.
`stall`: the classifier takes it later. -/
def State.linRx (s : State) (n : Nat) (data : List Byte) (sum : Byte) (e : LinErr) (stall : Bool) (ago : Nat) : State :=
  let c := s.linCh n
  let s := s.setLin n { c with wait := none, lastAt := s.tim.lt }
  match c.wait with
  | none => s.linErr n e false
  | some id =>
    let key := if c.event then linId (byteAt data 0).toNat else id
    let badSum := s.linSum n key data != sum
    if c.event && (e == .framing || (e == .none && badSum)) then
      (s.bump .linEtfCollision n).setLin n { s.linCh n with coll := true }
    else if e != .none || badSum then s.linErr n e badSum
    else
      let s := s.linSleepRx n id data
      if s.linDir n key ≠ 2 then s
      else s.legPut (48 + n) 16 ⟨linPid key, false, 0, 0, 0, 0, false, data⟩ stall ago .linRxFrames .linRxDropOvf n

def execLinResponseRx (ch : Fin 8) (data : List Byte) (sum : Byte) (e : LinErr) (stall : Bool) (ago : BitVec 32) (s : State) :
    Host.Outcome State Fault Refusal :=
  .next (if s.forwards && s.linRuns ch && (!s.quiet || (s.linCh ch).wait.isSome) then s.linRx ch data sum e stall ago.toNat else s)

/-- A write of LIN_SCHED: switch selects next_table from the end of the current slot (R259); a switch that runs goes on
unchanged (R12). -/
def State.wrLinSched (s : State) (n : Nat) (data : Word) : State :=
  let s := s.writeReg .linSched n data
  if F.linSched_switch.of data = 1 ∧ (s.linCh n).sw.isNone then s.setLin n { s.linCh n with sw := some (s.fld F.linSched_next_table n) } else s

def execLinSchedSwitch (path : Path) (ch : Fin 8) (data : Word) (s : State) : Host.Outcome State Fault Refusal :=
  .next (s.accessReg path .linSched ch data fun s => s.wrLinSched ch data)

/-- A slave has seen no bus activity for 4 s (R260). -/
def State.linIdle (s : State) (n : Nat) : State :=
  let c := s.linCh n
  if s.on F.linCtrl_master n || decide (s.tim.lt < c.lastAt + tkS 4) then s
  else (s.setLin n { c with sleep := true, wait := none }).raise (Ev.linIdle n)

def execLinBusIdle (ch : Fin 8) (s : State) : Host.Outcome State Fault Refusal :=
  .next (if s.fabricOn && s.linRuns ch then s.linIdle ch else s)

/-- A write of LIN_CTRL. A channel that is enabled starts anew, with table 0 at entry 0; in a BOOT that a wake from SLEEP began, it
wakes its bus first (R260, R392). -/
def State.wrLinCtrl (s : State) (n : Nat) (data : Word) : State :=
  let was := s.on F.linCtrl_en n
  let s := s.writeReg .linCtrl n data
  if was == s.on F.linCtrl_en n then s
  else
    let s := s.setLin n { Lin.reset with lastAt := s.tim.lt }
    if !was && s.op == .boot && s.cause == 6 && !s.legacyStandby then s.emit (.linWake n) else s

/-! ## All channels: takeover (R350), power (R260, R261) -/

/-- The CAN channels return to their configured mode and integrate again; the LIN masters start their table at entry 0 (R350). -/
def State.takeoverLegacy (s : State) : State :=
  let s := (List.range 16).foldl (fun s n => if s.on F.canCtrl_en n && s.fld F.canCtrl_mode n == 0 then s.canLeave n else s) s
  (List.range 8).foldl (fun s n =>
    if s.on F.linCtrl_en n && s.on F.linCtrl_master n then
      s.setLin n { s.linCh n with idx := 0, slotAt := none, back := none, coll := false, wait := none }
    else s) s

/-- Every CAN controller completes the frame it has on the bus, and every queued frame of the channels is dropped and counted (R261).
A LIN response is complete when its command has run. -/
def State.legacyDrop (s : State) : State :=
  let s := s.net.can.foldl (fun s x => (if s.canOn x.1 then s.canEnd x.1 else s).canFlush x.1 .canTxDropState) s
  s.net.lin.foldl (fun s x =>
    let k := x.2.pub.foldl (fun a e => a + e.2.length) 0
    (s.setLin x.1 { s.linCh x.1 with pub := [], sent := [], wait := none, slotAt := none }).bumpBy .linTxDropState x.1 k) s

/-- A master sends the go-to-sleep command, the master request 60 with its eight bytes, and its bus sleeps (R260). -/
def State.linSendSleep (s : State) (n : Nat) : State :=
  let s := s.setLin n { s.linCh n with sleep := true, pid := linPid 60, lastAt := s.tim.lt }
  let s := s.emit (.lin n [0x55, BitVec.ofNat 8 (linPid 60)])
  (s.emit (.lin n (linSleepData ++ [s.linSum n 60 linSleepData]))).bump .linTxFrames n

/-- The LIN masters send go-to-sleep (R260). -/
def State.linGoToSleep (s : State) : State :=
  (List.range 8).foldl (fun s n =>
    if s.linRuns n && s.on F.linCtrl_master n && !s.legacyStandby then s.linSendSleep n else s) s

/-- The controllers are enabled again from their retained registers (R391). -/
def State.legacyReenter (s : State) : State :=
  let s := (List.range 16).foldl (fun s n => if s.on F.canCtrl_en n then s.canLeave n else s) s
  (List.range 8).foldl (fun s n =>
    if s.on F.linCtrl_en n then
      let s := s.setLin n { s.linCh n with sleep := false, idx := 0, slotAt := none, lastAt := s.tim.lt }
      if s.legacyStandby then s else s.emit (.linWake n)
    else s) s

/-- A wake-up signal on LINn_RX ends the bus sleep of the controller, and is bus activity (R260). -/
def State.linWakeUp (s : State) (n : Nat) : State := s.setLin n { s.linCh n with sleep := false, lastAt := s.tim.lt }

/-! ## 10BASE-T1S (R266, R267) -/

/-- PLCA of port 12 + k is enabled, and the device coordinates it. -/
def State.plcaOn (s : State) (k : Nat) : Bool := s.on F.tssPhyCfg_en k && s.on F.tssPlcaCtrl_en k
def State.plcaLead (s : State) (k : Nat) : Bool := s.fld F.tssPlcaCtrl_node_id k == 0

/-- A port whose PLCA is enabled has no beacon: R63 applies to it (R267). -/
def State.plcaWaits (s : State) (p : Nat) : Bool :=
  (p == 12 || p == 13) && s.plcaOn (p - 12) && !s.on F.tssPlcaStat_plca_status (p - 12)

/-- A port whose PLCA has no beacon transmits nothing under plca_strict. -/
def State.plcaHeld (s : State) (p : Nat) : Bool := s.plcaWaits p && s.on F.tssPhyCfg_plca_strict (p - 12)

/-- A follower loses the beacon; R63 applies to the port from then on (R267). -/
def execPlcaBeaconLoss (k : Fin 2) (s : State) : Host.Outcome State Fault Refusal :=
  .next (if s.fabricOn && s.plcaOn k && !s.plcaLead k && s.on F.tssPlcaStat_plca_status k then
      ((s.setFld F.tssPlcaStat_plca_status k 0).bump .tssPlcaLoss k).raiseAll [Ev.plcaChange k, Ev.rateChange (12 + k)]
    else s)

def execPlcaBeaconRx (k : Fin 2) (s : State) : Host.Outcome State Fault Refusal :=
  .next (if s.fabricOn && s.plcaOn k then s.setFld F.tssPlcaStat_plca_status k 1 else s)

/-- A write of a PLCA or PHY register: plca_status stands at once on the coordinator, never without PLCA, and on a port that becomes
a follower only after a beacon; R63 applies to a port that is up from then on (R267). -/
def State.wrPlca (s : State) (r : Reg) (k : Nat) (data : Word) : State :=
  let followed := s.plcaOn k && !s.plcaLead k
  let waited := s.plcaWaits (12 + k)
  let s := s.writeReg r k data
  let s := if s.plcaOn k && s.plcaLead k then s.setFld F.tssPlcaStat_plca_status k 1
    else if s.plcaOn k && followed then s
    else s.setFld F.tssPlcaStat_plca_status k 0
  s.raiseIf (s.fabricOn && s.linkUp (12 + k) && s.plcaWaits (12 + k) && !waited) (Ev.rateChange (12 + k))

end Sys2Proof.Machine
end

