-- ==== Sys2Proof/Machine/LoadTabs.lean ====
section
/-! DEFINITION. How the loader writes the tables of a configuration set: tables with one copy per parity, entries that carry
ep_mask (R100, R130), and the prefix tries (R124, R125). -/

namespace Sys2Proof.Machine

open Sys2Proof

/-! ## Entries -/

/-- The bits that each word of an entry holds; the reserved ones read as zero. -/
def tabMask (id : Nat) : List Word := match id with
  | 4 => List.replicate 12 0x80FF003F
  | 5 => [0xE0FFFFFF]
  | 6 => [0xFF, 0xFFFFFFFF, 0xFFFFFFFF, 0xFFFFFFFF, 0xFFFFFFFF, 0x0FFF703F, 0xFFFFFFFF, 0xFFFF0000]
  | 0x11 => [0xFFFFFFFF, 0x003FFFFF]
  | 0x12 => [0x0003FFFF]
  | 0x13 | 0x15 => [0xF3FF0FFF]
  | 0x17 => [0xFFFFFFFF, 0xFFFFFFFF, 0xFFFFFFFF, 0xFFFFFFFF, 0x80000003, 0xF3FF0FFF, 0, 0]
  | 0x18 => [0x80FC0FFF, 0xFFFFFFFF, 0xFFFF0000, 0]
  | 0x1A => [0xFFFFFFFF, 0x8000FFFF, 0xEFFFFE00, 0x0003FFFF, 0x0003FFFF, 0, 0, 0]
  | 0x30 => [0xFFF8FFFF, 0x9FFFFFFF, 0x0003FFFF, 0x00FFFFFF, 0x0FFF0FFF, 0xF, 0, 0]
  | 0x31 => [0xFFF007FF, 0x9FFFFFFF, 0xFFFFFFFF, 0xFFFFFFFF, 0xFFFFFFFF, 0xBFFFFFFF, 0xFFFFC000, 0xFFFFFFFF]
  | _ => []

/-- An entry as it is stored: its reserved bits are zero. -/
def tabForm (id : Nat) (e : List Word) : List Word :=
  if (tabMask id).isEmpty then e else List.zipWith (· &&& ·) e (tabMask id)

/-- The loader writes an entry; it is the golden copy from then on (R367). -/
def State.loadEnt (s : State) (id par n : Nat) (e : List Word) : State :=
  let e := tabForm id e
  let s := s.writeEnt id par n e
  { s with net := { s.net with golden := tblPut s.net.golden (tabKey id par n) e } }

/-- The tables with one copy per parity. -/
def copiedTabs : List Nat := [4, 5, 6, 0x11, 0x12, 0x13, 0x15, 0x18, 0x1A, 0x30, 0x31, 0x36]

/-- Return one copy of a table to its reset value. -/
def State.clearCopy (s : State) (par id : Nat) : State :=
  let lo := tabKey id par 0
  let out (k : Nat) : Bool := k < lo || lo + 262144 ≤ k
  { s with net := { s.net with
    tabs := tblKeep (fun k _ => out k) s.net.tabs
    golden := tblKeep (fun k _ => out k) s.net.golden } }

/-- Write the copies of a parity. -/
def State.loadCopies (s : State) (par : Nat) (l : List (Nat × Nat × List Word)) : State :=
  let s := copiedTabs.foldl (fun s id => s.clearCopy par id) s
  l.foldl (fun s x => if tabCopied x.1 && decide (x.2.1 < tabCount x.1) then s.loadEnt x.1 par x.2.1 x.2.2 else s) s

/-! ## Entries that carry ep_mask -/

/-- The bit of a parity in an ep_mask. -/
def epBit (par : Nat) : Nat := 2 ^ (par % 2)

/-- Where a table with ep_mask keeps it, and which of its entries the loader owns. -/
structure MaskTab where
  id    : Nat
  /-- word and lowest bit of ep_mask -/
  w     : Nat
  lo    : Nat
  /-- overflow store: first index and size -/
  ovf   : Nat
  cnt   : Nat
  deriving DecidableEq, Repr

/-- The entry of such a table belongs to the set: valid, and static in the FDB. -/
def MaskTab.owned (m : MaskTab) (e : List Word) : Bool :=
  if m.id = 1 then entValid e
  else if m.id = 0x10 then fdbValid e && fdbStatic e
  else if m.id = 0x17 then ebit e 4 31
  else ebit e 0 31

/-- The entry takes up its place. -/
def MaskTab.used (m : MaskTab) (e : List Word) : Bool := if m.id = 0x10 then fdbValid e else m.owned e

/-- ep_mask of an entry. -/
def MaskTab.mask (m : MaskTab) (e : List Word) : Nat := eb e m.w (m.lo + 1) m.lo

/-- An entry with another ep_mask. -/
def MaskTab.withMask (m : MaskTab) (e : List Word) (v : Nat) : List Word := eput e m.w (m.lo + 1) m.lo v

def ruleTab (bank : Nat) : MaskTab := ⟨1, 15, 0, 32768 + bank * 128, 128⟩
def fdbTab : MaskTab := ⟨0x10, 3, 0, 65536, 1024⟩
def hostTab : MaskTab := ⟨0x17, 4, 0, 512, 0⟩
def sidTab : MaskTab := ⟨0x19, 0, 20, 8192, 256⟩
def mapTab : MaskTab := ⟨0x40, 0, 20, 4096, 256⟩

/-- The loader writes another ep_mask of an entry, in the table and in its golden copy, where it has one. -/
def State.remask (s : State) (m : MaskTab) (n v : Nat) : State :=
  let s := s.writeEnt m.id 0 n (m.withMask (s.ent m.id 0 n) v)
  match tblFind s.net.golden (tabKey m.id 0 n) with
  | some g => { s with net := { s.net with golden := tblPut s.net.golden (tabKey m.id 0 n) (m.withMask g v) } }
  | none => s

/-- Leave the entries of the active set to its own parity alone, before a set of parity `par` is loaded (R100). -/
def State.narrow (s : State) (m : MaskTab) (par : Nat) : State :=
  (s.listed m.id 0 0 (tabCount m.id)).foldl (fun s x =>
    if m.owned x.2 && epHas (m.mask x.2) par && m.mask x.2 != epBit par
    then s.remask m x.1 (epBit (par + 1)) else s) s

/-- Place an entry of a set of parity `par` in the buckets from `base` (R82, R100): an equal entry takes the parity's bit, else
the entry is inserted with that bit alone. False when there is no room. -/
def State.place (s : State) (m : MaskTab) (base bucket par : Nat) (e : List Word) : State × Bool :=
  let same (x : List Word) : Bool := m.owned x && m.withMask x 0 == m.withMask e 0
  match s.probe m.id base bucket m.ovf m.cnt same with
  | some (n, x) => (s.loadEnt m.id par n (m.withMask x (m.mask x ||| epBit par)), true)
  | none => match s.freeEnt m.id base bucket m.ovf m.cnt m.used with
    | some n =>
      let s := s.loadEnt m.id par n (m.withMask e (epBit par))
      (if m.id = 1 then s.setEnt 2 0 n [0, 0] else s, true)
    | none => (s, false)

/-- A rule as it is stored: its reserved bits are zero. -/
def ruleForm (e : List Word) : List Word :=
  e.take 12 ++ [ew e 12 &&& 0xFFFFBF00, ew e 13 &&& 0xFFFF0FFF, ew e 14 &&& 0xFFFFFFC0, 0x80000000]

/-- Place a rule in its bank. -/
def State.placeRule (s : State) (par bank : Nat) (e : List Word) : State × Bool :=
  s.place (ruleTab bank) (bank * 8192) (s.ruleBucket bank (e.take 12)) par (ruleForm e)

/-- A static FDB entry as it is stored. -/
def fdbForm (e : List Word) : List Word :=
  [ew e 0, ew e 1 &&& 0xFFFF0FFF, (ew e 2 &&& 0x6FFC0FC0) ||| 0x80000000, putBits (putBits 0 31 31 1) 30 20 0x7FF]

/-- Place a static FDB entry. A dynamic entry with its key keeps the old parity alone (R130). -/
def State.placeFdb (s : State) (par : Nat) (e : List Word) : State × Bool :=
  let s := (s.fdbProbed (fdbFid e) (fdbMac e)).foldl (fun s n =>
    let x := s.ent 0x10 0 n
    if fdbKeyEq (fdbFid e) (fdbMac e) x && !fdbStatic x then s.writeEnt 0x10 0 n (fdbTab.withMask x (epBit (par + 1))) else s) s
  s.place fdbTab 0 (s.fdbBucket (fdbFid e) (fdbMac e)) par (fdbForm e)

/-- Place a host route of IPv6. -/
def State.placeHost (s : State) (par : Nat) (e : List Word) : State × Bool :=
  let e := tabForm 0x17 e
  s.place hostTab 0 (crcHash (s.rd .fdbHashSeed).toNat (bytesOf (e.take 4)) % 128) par (eput e 4 31 31 1)

/-- The host entry of a route of IPv6 with prefix length 128 (R123, R124). -/
def Route.host (r : Route) : List Word :=
  wordsOf (beBytes 16 r.addr) ++ [0x80000000, (r.res &&& 0x30000FFF) ||| 0x80000000, 0, 0]

/-- Place an identification entry. -/
def State.placeSid (s : State) (par : Nat) (e : List Word) : State × Bool :=
  let e := (ew e 0 &&& 0x7FF00FFF) :: e.drop 1
  let k := (ew e 0 &&& 0x7FC00000) :: e.drop 1
  s.place sidTab 0 (crcHash (s.rd .fdbHashSeed).toNat (bytesOf k) % 2048) par (eput e 0 31 31 1)

/-- Place a legacy map entry. -/
def State.placeMap (s : State) (par : Nat) (e : List Word) : State × Bool :=
  let e : List Word := [ew e 0 &&& 0xFFF00007, ew e 1 &&& 0x1FFFFFFF, ew e 2 &&& 0xFFFFFF, 0]
  let k : List Byte := [BitVec.ofNat 8 (eb e 0 27 22), BitVec.ofNat 8 (eb e 0 30 30), 0, 0] ++ beBytes 4 (eb e 1 28 0)
  s.place mapTab 0 (crcHash (s.rd .fdbHashSeed).toNat k % 1024) par (eput e 0 31 31 1)

/-- The entries that carry the old parity alone are deleted after a swap (R100). -/
def State.cleanTab (s : State) (m : MaskTab) (par : Nat) : State :=
  (s.listed m.id 0 0 (tabCount m.id)).foldl (fun s x =>
    if m.used x.2 && m.mask x.2 == epBit (par + 1) then s.delEnt m.id 0 x.1 else s) s

/-! ## The prefix tries (R124, R125) -/

/-- The levels below level 1: the first node of each level in the pool, and the number of its nodes. -/
def trieLevels (v6 : Bool) : List (Nat × Nat) := if v6 then List.replicate 6 (0, 1024) else [(0, 512), (512, 512)]

/-- The pool and the level-1 array of a family. -/
def triePool (v6 : Bool) : Nat := if v6 then 0x16 else 0x14
def trieTop (v6 : Bool) : Nat := if v6 then 0x15 else 0x13

/-- The nodes that a level-1 entry or node entry reaches, with the first node of their level added. -/
def State.trieReach (s : State) (pool : Nat) : List (Nat × Nat) → List Word → List Nat
  | [], _ => []
  | (off, _) :: t, e =>
    if !ebit e 0 30 then []
    else
      let n := off + eb e 0 25 16
      n :: (s.listed pool 0 (n * 256) (n * 256 + 256)).flatMap fun x => s.trieReach pool t x.2

/-- The nodes that the copy of a parity uses. -/
def State.trieUsed (s : State) (v6 : Bool) (par : Nat) : List Nat :=
  (s.listed (trieTop v6) par 0 65536).flatMap fun x => s.trieReach (triePool v6) (trieLevels v6) x.2

/-- A prefix below a level: the bits that remain, their number, and its result. -/
abbrev Pfx := Nat × Nat × Word

/-- The result of the longest prefix that covers slot `b` of a level of `k` bits. -/
def bestAt (k b : Nat) (l : List Pfx) : Option Word :=
  (l.foldl (fun (a : Option (Nat × Word)) p =>
    if p.2.1 ≤ k ∧ b / 2 ^ (k - p.2.1) = p.1 then
      match a with
      | some x => if x.1 ≤ p.2.1 then some (p.2.1, p.2.2) else a
      | none => some (p.2.1, p.2.2)
    else a) none).map Prod.snd

/-- The prefixes below slot `b` of a level of `k` bits. -/
def below (k b : Nat) (l : List Pfx) : List Pfx :=
  l.filterMap fun p => if k < p.2.1 ∧ p.1 / 2 ^ (p.2.1 - k) = b then some (p.1 % 2 ^ (p.2.1 - k), p.2.1 - k, p.2.2) else none

/-- What building a trie has so far: the state, the nodes in use, and whether the pool still held every node. -/
structure TrieAcc where
  s    : State
  used : List Nat
  ok   : Bool

/-- A node with this content: one that is in use, else the lowest free node of its level, which is then written. -/
def TrieAcc.node (a : TrieAcc) (pool off cnt : Nat) (ws : List Word) : TrieAcc × Nat :=
  let same (n : Nat) : Bool := (List.range 256).all fun b => a.s.ent pool 0 (n * 256 + b) == [ws.getD b 0]
  match (a.used.filter fun n => off ≤ n && n < off + cnt).find? same with
  | some n => (a, n - off)
  | none => match (List.range cnt).find? fun i => !a.used.contains (off + i) with
    | some i =>
      let s := (List.range 256).foldl (fun s b => s.loadEnt pool 0 ((off + i) * 256 + b) [ws.getD b 0]) a.s
      ({ s := s, used := (off + i) :: a.used, ok := a.ok }, i)
    | none => ({ a with ok := false }, 0)

/-- The word of an entry with a best result and the prefixes below it. -/
def TrieAcc.entry (pool : Nat) : List (Nat × Nat) → TrieAcc → Option Word → List Pfx → TrieAcc × Word
  | lv, a, best, l =>
    let res := match best with
      | some w => (w &&& 0x30000FFF) ||| 0x80000000
      | none => 0
    if l.isEmpty then (a, res)
    else match lv with
      | [] => (a, res)
      | (off, cnt) :: t =>
        let r := (List.range 256).foldl (fun (x : TrieAcc × List Word) b =>
          let y := TrieAcc.entry pool t x.1 (bestAt 8 b l) (below 8 b l)
          (y.1, x.2 ++ [y.2])) (a, [])
        let n := r.1.node pool off cnt r.2
        (n.1, res ||| 0x40000000 ||| BitVec.ofNat 32 (n.2 * 65536))

/-- Load the routes of a family: false when the nodes of both epochs together exceed a pool (R125). -/
def State.loadTrie (s : State) (par : Nat) (v6 : Bool) (routes : List Route) : State × Bool :=
  let l : List Pfx := (routes.filter fun r => r.v6 == v6 && r.len != 128).map fun r => (r.addr, r.len, r.res)
  if l.isEmpty then (s, true)
  else
    let r := (List.range 65536).foldl (fun (a : TrieAcc) b =>
      let y := TrieAcc.entry (triePool v6) (trieLevels v6) a (bestAt 16 b l) (below 16 b l)
      if y.2 = 0 then y.1 else { y.1 with s := y.1.s.loadEnt (trieTop v6) par b [y.2] })
      ⟨s, s.trieUsed v6 (par + 1), true⟩
    (r.s, r.ok)

end Sys2Proof.Machine
end

