-- ==== Sys2Proof/Machine/LoadChecks.lean ====
section
/-! DEFINITION. The checks that the loader makes on the sections of a configuration set (R400), except the contract check. Each
check answers the position of the first item that fails and its detail code, or none. -/

namespace Sys2Proof.Machine

open Sys2Proof

/-- The position of a failing item and its detail code. -/
abbrev Fail := Option (Nat × Nat)

/-- The position that the load-result registers give a failure of the set as a whole: none (R102, CLS_LOAD_RESULT). -/
def setOrd : Nat := 0xFFFF

/-- The first item of which `f` gives a detail code other than 0, with positions from `n`. -/
def firstAt {α : Type} (f : α → Nat) : Nat → List α → Fail
  | _, [] => none
  | n, a :: t => if f a = 0 then firstAt f (n + 1) t else some (n, f a)

/-- The code of the first test that holds, or 0. -/
def firstOf : List (Bool × Nat) → Nat
  | [] => 0
  | (b, c) :: t => if b then c else firstOf t

/-- A failure of the set as a whole. -/
def setFail (b : Bool) (c : Nat) : Fail := if b then some (setOrd, c) else none

/-! ## The registers of a set -/

/-- The blocks whose registers the sections of a set hold. -/
def setBlk : Blk → Bool
  | .mac | .cls | .fdb | .sky | .hrb | .qmg | .sch | .tga | .tim | .can | .lin | .tss | .cip | .red | .pwr => true
  | _ => false

/-- A register that a set may hold: those of the blocks above, GLB_SAFE_CFG (R338), the event routes (R454), CFG_SWAP_FENCE_LIM,
which the loader writes from the set, and CFG_BOOT_CFG (DEDUCED, entry 69). -/
def setReg (r : Reg) : Bool := setBlk r.info.blk || [Reg.glbSafeCfg, .evtRoute, .cfgSwapFenceLim, .cfgBootCfg].contains r

/-- A word with the fields of type RW of another. -/
def rwMerge (data : Word) (fs : List FieldInfo) (w : Word) : Word :=
  fs.foldl (fun w f => if f.acc = .rw then putBits w f.hi f.lo (getBits data f.hi f.lo) else w) w

/-- Every RW field of a word holds an allowed value (R487). -/
def fieldsOk (r : Reg) (w : Word) : Bool := r.info.fields.all fun f => f.acc != .rw || f.chk.ok (getBits w f.hi f.lo)

/-- The word belongs to a PTP value of the set whose nanoseconds are out of range: the whole value is discarded (R17). -/
def Cset.ptpBad (c : Cset) (r : Reg) (i : Nat) : Bool :=
  (r == .tgaAdminBase || r == .schGateBase) &&
    c.regs.any fun x => x.1 == r && x.2.1 == i / 3 * 3 && decide (1000000000 ≤ x.2.2.toNat)

/-- The registers of a set that it may hold; MAC_PORT_CFG of P16 and P17 and MAC_FWD_CTRL of P16 are constants. -/
def Cset.own (c : Cset) : List (Reg × Nat × Word) :=
  (c.regs.filter fun x =>
    setReg x.1 && decide (x.2.1 < x.1.count) && !(x.1 == .macPortCfg && decide (16 ≤ x.2.1)) && !(x.1 == .macFwdCtrl && x.2.1 == 16)
      && !c.ptpBad x.1 x.2.1).map fun x => (x.1, x.2.1, ptpData x.1 x.2.1 x.2.2)

/-- The state that the checks look at: the registers of a set of parity `par` are written without their effects. -/
def State.withRegs (s : State) (c : Cset) (par : Nat) : State :=
  c.own.foldl (fun s x =>
    let w := rwMerge x.2.2 x.1.info.fields (s.rdEp x.1 x.2.1 par)
    if parReg x.1 && par % 2 != s.epoch % 2 then s.wrShadow x.1 x.2.1 w else s.wr x.1 x.2.1 w) s

/-- The loader writes depth = burst - M_q - O_e for a shaper whose burst the set declares (R184); negative: none. -/
def State.burstDepth (s : State) (q burst : Nat) : Option Nat :=
  let d : Int := burst - s.qMaxFrame q (q / 8) - s.lenOvh (q / 8)
  if d < 0 then none else some d.toNat

/-- The set's entry of a table, with its parity. -/
def Cset.names (c : Cset) (id n : Nat) : Bool := c.tabs.any fun x => x.1 == id && x.2.1 == n

/-! ## Port indices (R20) -/

/-- A reserved port index (R19). -/
def portReserved (p : Nat) : Bool := (decide (18 ≤ p) && decide (p ≤ 31)) || (decide (56 ≤ p) && decide (p ≤ 62))

/-- The port indices that an entry of a table names. -/
def tabPorts (id : Nat) (e : List Word) : List Nat :=
  if id = 0x18 then (if ebit e 0 31 then [eb e 0 23 18] else [])
  else if id = 0x31 then (if ebit e 0 31 then [eb e 0 27 22, eb e 6 19 14] else [])
  else []

/-- The port indices that a register names. -/
def regPorts (r : Reg) (w : Word) : List Nat := match r with
  | .qmgSCtrl => if getBit w 31 then [getBits w 29 24] else []
  | .cipRxSc0 => if getBit w 31 then [getBits w 30 25] else []
  | .pwrMember0 => if getBit w 31 then [getBits w 27 22] else []
  | _ => []

/-- The port indices that a set uses. -/
def Cset.ports (c : Cset) : List Nat :=
  (c.rules.flatMap fun r => (if ebit r.2 13 29 then [eb r.2 13 27 22] else []) ++ if ebit r.2 13 28 then [eb r.2 13 21 16] else [])
    ++ (c.fdb.flatMap fun e => if ebit e 2 29 || ebit e 2 30 then [] else [eb e 2 11 6])
    ++ (c.sids.map fun e => eb e 0 27 22) ++ (c.map.map fun e => eb e 0 27 22)
    ++ (c.tabs.flatMap fun x => tabPorts x.1 x.2.2) ++ (c.regs.flatMap fun x => regPorts x.1 x.2.2)
    ++ (c.streams.flatMap fun d => d.inPort :: d.egr.map Prod.fst) ++ c.segs.map Prod.fst
    ++ (c.linRoutes.map fun e => eb e 0 27 22)
    ++ c.minEth.flatMap fun x =>
      if x.1 = 0x10 then (if ebit x.2.2 2 29 || ebit x.2.2 2 30 then [] else [eb x.2.2 2 11 6]) else tabPorts x.1 x.2.2

/-! ## Classifier (R102, R164) -/

/-- The domain of a port: Ethernet, CAN, LIN. -/
def portDomain (p : Nat) : Nat := if p < 32 then 0 else if p < 48 then 1 else 2

/-- The ports and kinds whose profile-select entry gives a bank a profile. -/
def State.selects (s : State) (par bank prof : Nat) : List (Nat × Nat) :=
  ((List.range 448).map fun i => (i / 8, i % 8)).filter fun x =>
    let w := ew (s.ent 5 par (8 * x.1 + x.2)) 0
    getBit w (6 * bank + 5) && getBits w (6 * bank + 4) (6 * bank) == prof
      && (if x.2 = 4 then portDomain x.1 == 1 else if x.2 = 5 then portDomain x.1 == 2 else decide (x.2 < 4) && decide (x.1 < 18))

/-- The value of field `id` in a rule key and the number of bits below it that the profile masks, when the profile holds it. -/
def ruleField (id key : Nat) : List (Nat × Nat) → Nat → Option (Nat × Nat)
  | [], _ => none
  | (i, keep) :: t, used =>
    let w := fieldWidth i
    if i = id then some (key / 2 ^ (384 - used - w) % 2 ^ w, if keep = 0 ∨ w ≤ keep then 0 else w - keep)
    else ruleField id key t (used + w)

/-- The ports and kinds whose frames a rule can match. -/
def State.reach (s : State) (par bank : Nat) (e : List Word) : List (Nat × Nat) :=
  let prof := eb e 12 19 15
  let l := s.selects par bank prof
  match ruleField 1 (beNat (bytesOf (e.take 12))) (profSlots (s.ent 4 par prof)) 0 with
  | some (v, m) => l.filter fun x => x.1 / 2 ^ m == v / 2 ^ m
  | none => l

/-- The first six checks of a rule, in their order. -/
def State.ruleCheck (s : State) (c : Cset) (par : Nat) (before : List (Nat × List Word)) (bank : Nat) (e : List Word) : Nat :=
  let slots := profSlots (s.ent 4 par (eb e 12 19 15))
  let l := s.reach par bank e
  let verdict := eb e 13 31 30
  let ovr := ebit e 13 29
  let dest := eb e 13 27 22
  let steer := ebit e 14 31
  let pop := eb e 14 22 21
  let rw := eb e 14 19 8
  firstOf [
    ((slots.any fun x => fieldWidth x.1 == 0 || decide (fieldWidth x.1 < x.2))
      || decide (384 < slots.foldl (fun n x => n + fieldWidth x.1) 0), 1),
    (verdict == 0 && ovr && !steer && dest != 63 && (l.any fun x => portDomain x.1 != portDomain dest), 2),
    ((ebit e 13 28 || pop != 0 || ebit e 14 20 || rw != 0) && (l.any fun x => decide (4 ≤ x.2)), 3),
    (verdict == 3 || pop == 3 || (ovr && portReserved dest) || (ebit e 13 28 && decide (17 < eb e 13 21 16))
      || (ovr && dest == 63 && !steer) || (ebit e 14 20 && rw == 0)
      || (ebit e 13 11 && !s.on F.mtrCtrl_en (eb e 13 10 0)) || (rw != 0 && !c.names 6 rw)
      || (steer && !c.names 0x30 (eb e 14 30 23)), 4),
    (ebit e 14 7 && !(s.selects par bank (eb e 12 19 15)).isEmpty
      && (s.selects par bank (eb e 12 19 15)).all fun x => x.2 != 1 && x.2 != 2, 5),
    (before.any fun x => x.1 == bank && x.2.take 12 == e.take 12 && eb x.2 12 19 15 == eb e 12 19 15, 6)]

/-- Check and place the rules in the order of the section. -/
def State.loadRules (c : Cset) (par : Nat) : Nat → List (Nat × List Word) → List (Nat × List Word) → State → State × Fail
  | _, _, [], s => (s, none)
  | n, before, r :: t, s =>
    let d := s.ruleCheck c par before (r.1 % 4) r.2
    if d ≠ 0 then (s, some (n, d))
    else
      let x := s.placeRule par (r.1 % 4) r.2
      if x.2 then State.loadRules c par (n + 1) (before ++ [r]) t x.1 else (s, some (n, 7))

/-- A profile names a field that R75 does not define, keeps more bits than a field has, or is wider than a key (R76). -/
def profBad (e : List Word) : Bool :=
  let slots := profSlots e
  (slots.any fun x => fieldWidth x.1 == 0 || decide (fieldWidth x.1 < x.2))
    || decide (384 < slots.foldl (fun n x => n + fieldWidth x.1) 0)

/-- The checks of R102 on the set as a whole: profiles that no rule names (R76), profile-select entries and CLS_PRIO_CFG with
their own position, then the seed. -/
def State.clsCheck (s : State) (c : Cset) (par : Nat) (boot : Bool) (live : State) : Fail :=
  setFail ((List.range 32).any fun i => profBad (s.ent 4 par i)) 1
    <|> (if (List.range 448).any (fun i => eb (s.ent 5 par i) 0 31 30 == 3)
      || c.regs.any (fun x => x.1 == .clsPrioCfg && getBits x.2.2 1 0 == 3) then some (0xFFFE, 4) else none)
    <|> setFail (!boot && s.rd .clsHashSeed != live.rd .clsHashSeed) 8

/-- The programs of the FWIM (R141), and those that are stateful. -/
def progKnown (p : Nat) : Bool := [1, 2, 3, 4, 5, 6, 7, 8, 9, 0x10, 0x11].contains p
def progStateful (p : Nat) : Bool := p == 0x10 || p == 0x11

/-- The checks of R164 on a profile. -/
def State.profCheck (s : State) (e : List Word) : Nat :=
  let budget := eb e 1 23 0
  let allowed (n : Nat) : Bool := s.keyAllows n 0 3
  firstOf [
    (!progKnown (eb e 0 31 24), 1),
    (ebit e 0 22 && (progStateful (eb e 0 31 24) || ebit e 0 20 || ebit e 0 19), 2),
    (ebit e 0 23 && (!ebit e 1 31 || !s.skyResv (eb e 1 28 24)), 3),
    (((ebit e 0 21 || ebit e 0 20) && !allowed (eb e 0 15 8)) || (ebit e 0 19 && !allowed (eb e 0 7 0)), 4),
    (decide (4096 < eb e 4 27 16 + eb e 4 11 0) || eb e 5 3 0 == 0 || decide (8 < eb e 5 3 0)
      || (budget != 0 && (decide (budget < 100) || decide (1000000 < budget))), 5)]

/-- A translation entry has legacy outputs. -/
def xltToLeg (e : List Word) : Bool := [1, 3, 4].contains (eb e 0 30 28)

/-- The checks of R164 on translation entry `n`: a legacy target that an earlier entry has, and the masks of its profiles. -/
def xltCheck (profs : List (List Word)) (before : List (List Word)) (n : Nat) (e : List Word) : Nat :=
  let holds (p : List Word) : Bool := decide (eb p 4 27 16 ≤ n) && decide (n < eb p 4 27 16 + eb p 4 11 0)
  let v := eb e 0 27 22
  let leg (p : List Word) : Bool := decide (32 ≤ v) && decide (v < 56) && getBits (ew p 3) 23 0 / 2 ^ (v - 32) % 2 == 1
  let eth (p : List Word) : Bool := eb e 6 19 14 == 63 || eb p 2 17 0 / 2 ^ eb e 6 19 14 % 2 == 1
  firstOf [
    (xltToLeg e && before.any (fun x => xltToLeg x && eb x 0 27 22 == eb e 0 27 22 && eb x 1 28 0 == eb e 1 28 0), 6),
    (profs.any fun p => holds p && (if xltToLeg e then !leg p else !eth p), 7)]

/-- The entries of a table that a set lists, in index order. -/
def State.setEnts (s : State) (c : Cset) (id par : Nat) : List (Nat × List Word) :=
  ((List.range (tabCount id)).filter fun n => c.names id n).map fun n => (n, s.ent id par n)

/-- The checks of R164. -/
def State.skyCheck (s : State) (c : Cset) (par : Nat) : Fail :=
  let profs := s.setEnts c 0x30 par
  let xlts := (s.setEnts c 0x31 par).filter fun x => ebit x.2 0 31
  ((profs.find? fun x => s.profCheck x.2 != 0).map fun x => (x.1, s.profCheck x.2))
    <|> (xlts.foldl (fun (a : Fail × List (List Word)) x =>
      let d := xltCheck (profs.map Prod.snd) a.2 x.1 x.2
      (a.1 <|> (if d = 0 then none else some (x.1, d)), a.2 ++ [x.2])) (none, [])).1

/-! ## Forwarding (R125, R134) -/

/-- VLAN `v` is present in the copy of a parity. -/
def State.vlanHas (s : State) (par v : Nat) : Bool := ebit (s.ent 0x11 par v) 0 31

/-- A route's result names a next hop that the set lists. -/
def Cset.resOk (c : Cset) (w : Word) : Bool := getBits w 29 28 != 0 || c.names 0x18 (getBits w 11 0)

/-- Place and check static FDB entries, routes or identification entries: capacity is the first check of each (R134). -/
def State.loadList {α : Type} (place : State → α → State × Bool) (check : α → Nat) (full : Nat) :
    Nat → List α → State → State × Fail
  | _, [], s => (s, none)
  | n, e :: t, s =>
    let x := place s e
    if !x.2 then (s, some (n, full))
    else if check e ≠ 0 then (s, some (n, check e))
    else State.loadList place check full (n + 1) t x.1

/-- Run a part of a load when nothing before it failed. -/
def thenLoad (r : State × Fail) (f : State → State × Fail) : State × Fail := match r.2 with
  | some _ => r
  | none => f r.1

/-- The checks of R134, with the tables written. Positions count within each list of the set. CB_PARAM is tested
of streams with seq_rec = 1 (DESIGN CHOICE, assumption 96: the rule names no such condition). -/
def State.loadFwd (s : State) (c : Cset) (par : Nat) (boot : Bool) (live : State) : State × Fail :=
  let fids := ((List.range 4096).filter (s.vlanHas par)).map fun v => eb (s.ent 0x11 par v) 0 29 18
  let r := State.loadList (fun s e => s.placeFdb par e) (fun e => if fids.contains (eb e 1 11 0) then 0 else 2) 1 0 c.fdb s
  let r := thenLoad r fun s =>
    let v4 := c.routes.filter fun r => !r.v6
    let v6 := c.routes.filter fun r => r.v6
    if 16384 < v4.length ∨ 4096 < v6.length + c.hosts.length then (s, some (setOrd, 3))
    else
      let a := s.loadTrie par false c.routes
      let b := a.1.loadTrie par true c.routes
      (b.1, setFail (!a.2 || !b.2) 3)
  let r := thenLoad r (State.loadList
    (fun s (r : Route) => if r.v6 && r.len == 128 then s.placeHost par r.host else (s, true))
    (fun r => firstOf [(if r.v6 then decide (64 < r.len) && r.len != 128 else decide (32 < r.len), 4), (!c.resOk r.res, 5)])
    3 0 c.routes)
  let r := thenLoad r (State.loadList (fun s e => s.placeHost par e) (fun e => if c.resOk (ew e 5) then 0 else 5) 3 0 c.hosts)
  let r := thenLoad r fun s => (s, ((s.setEnts c 0x18 par).find? fun x => ebit x.2 0 31 && !s.vlanHas par (eb x.2 0 11 0)).map
    fun x => (x.1, 2))
  let r := thenLoad r (State.loadList (fun s e => s.placeSid par e) (fun _ => 0) 6 0 c.sids)
  let r := thenLoad r fun s =>
    let bad (e : List Word) : Nat := firstOf [
      ((ebit e 0 30 && !s.on F.mtrCtrl_en (eb e 0 29 19)) || (ebit e 0 18 && !s.on F.schGateCfg_en (eb e 0 17 10))
        || (ebit e 1 31 && !s.on F.qmgSCtrl_valid (eb e 0 9 0)), 7),
      (ebit e 2 30 && (decide (eb e 2 27 21 < 2) || decide (64 < eb e 2 27 21) || eb e 2 20 9 == 0), 8)]
    (s, ((s.setEnts c 0x1A par).find? fun x => ebit x.2 0 31 && bad x.2 != 0).map fun x => (x.1, bad x.2))
  thenLoad r fun s => (s, setFail (!boot && s.rd .fdbHashSeed != live.rd .fdbHashSeed) 9)

/-! ## Legacy channels (R269) -/

/-- The bit rate in bit/s of a phase. -/
def phaseRate (brp t1 t2 : Nat) : Nat := 80000000 / (brp * (1 + t1 + t2))

/-- BIT_TIMING of CAN channel `n` (R269). CAN_PWM at its reset value, whose phases lie below their range, counts only
while pwm_en = 1. DEDUCED, unsafe (entry 68). -/
def State.canTimingBad (s : State) (n : Nat) : Bool :=
  let nr := phaseRate (s.fld F.canNbt_nbrp n) (s.fld F.canNbt_ntseg1 n) (s.fld F.canNbt_ntseg2 n)
  let dr := phaseRate (s.fld F.canDbt_dbrp n) (s.fld F.canDbt_dtseg1 n) (s.fld F.canDbt_dtseg2 n)
  let xr := phaseRate (s.fld F.canXbt_dbrp n) (s.fld F.canXbt_dtseg1 n) (s.fld F.canXbt_dtseg2 n)
  let fd := s.on F.canCtrl_fd_en n
  let xl := s.on F.canCtrl_xl_en n
  ([Reg.canCtrl, .canNbt, .canDbt, .canXbt, .canTdc].any fun r => !fieldsOk r (s.rd r n))
    || ((s.on F.canCtrl_pwm_en n || s.rd .canPwm n != 0) && !fieldsOk .canPwm (s.rd .canPwm n))
    || decide (nr < 125000) || decide (1000000 < nr)
    || (fd && (decide (dr < nr) || decide (8000000 < dr))) || (xl && (decide (xr < nr) || decide (10000000 < xr)))
    || decide (s.fld F.canNbt_ntseg2 n < s.fld F.canNbt_nsjw n) || decide (s.fld F.canDbt_dtseg2 n < s.fld F.canDbt_dsjw n)
    || decide (s.fld F.canXbt_dtseg2 n < s.fld F.canXbt_dsjw n)
    || (s.on F.canCtrl_pwm_en n && !(xl && s.on F.canCtrl_xl_es_dis n)) || decide (8 < s.fld F.canLpfCtl_dlc n)

/-- LIN_SCHEDULE of LIN channel `n`. -/
def State.linSchedBad (s : State) (n : Nat) : Bool :=
  let baud := s.fld F.linCtrl_baud_bps n
  let len (id : Nat) : Nat := s.fld F.linFrame_len (linFrm n id)
  let group (g : Nat) : List Nat := (List.range 64).filter fun id => s.fld F.linFrame_group (linFrm n id) == g && s.linDir n id == 1
  let short (k l : Nat) : Bool := decide (s.fld F.linSlot_slot_us k * baud * 10 < 14 * (34 + 10 * (l + 1)) * 1000000)
  let entryBad (k : Nat) : Bool :=
    let id := s.fld F.linSlot_frame_id k
    let aux := s.fld F.linSlot_aux k
    match s.fld F.linSlot_type k with
    | 0 => s.linDir n id == 0 || short k (len id)
    | 1 => s.linDir n id == 0 || decide (8 ≤ aux) || !s.on F.linTable_valid (8 * n + aux % 8) || short k (len id)
    | 2 => aux != 0 && (group aux).any fun id => short k (len id)
    | _ => true
  decide (baud < 1000) || decide (20000 < baud) || ((List.range 8).any fun t =>
    s.on F.linTable_valid (8 * n + t) && (List.range (s.fld F.linTable_len (8 * n + t))).any fun e =>
      entryBad (linSlotAt n (s.fld F.linTable_base (8 * n + t) + e)))

/-- PLCA_PARAM of P12 + k. -/
def State.plcaBad (s : State) (k : Nat) : Bool :=
  s.on F.tssPlcaCtrl_en k && (s.fld F.tssPlcaCtrl_node_id k == 255
    || (s.fld F.tssPlcaCtrl_node_id k == 0 && s.fld F.tssPlcaCtrl_node_cnt k == 0) || s.fld F.tssPlcaTmr_to_timer k == 0)

/-- The check of a channel position 0 to 25. -/
def State.chanCheck (s : State) (k : Nat) : Nat :=
  if k < 16 then (if s.canTimingBad k then 1 else 0)
  else if k < 24 then (if s.linSchedBad (k - 16) then 7 else 0)
  else (if s.plcaBad (k - 24) then 8 else 0)

/-- Legacy channel V`v` is enabled. -/
def State.chanOn (s : State) (v : Nat) : Bool := if v < 16 then s.on F.canCtrl_en v else s.on F.linCtrl_en (v - 16)

/-- The checks of a map entry but for its capacity. -/
def State.mapCheck (s : State) (all : List (List Word)) (fastBefore : Nat) (e : List Word) : Nat :=
  let v := eb e 0 27 22 - 32
  let dests := (List.range 24).filter fun d => getBit (ew e 2) d
  let less (d : Nat) : Bool := decide (d < 16) && decide (v < 16)
    && ((s.on F.canCtrl_fd_en v && !s.on F.canCtrl_fd_en d) || (s.on F.canCtrl_xl_en v && !s.on F.canCtrl_xl_en d))
  let lin : Bool := decide (16 ≤ v)
  firstOf [
    (dests.any less, 2),
    (dests.any (fun d => decide (16 ≤ d) != lin || d == v || !s.chanOn d), 3),
    (all.any (fun x => eb x 0 27 22 == eb e 0 27 22 && eb x 1 28 0 == eb e 1 28 0 && ebit x 0 30 != ebit e 0 30), 4),
    (ebit e 0 29 && (lin || decide (1024 ≤ fastBefore)), 6)]

/-- Check and place the map entries. -/
def State.loadMap (par : Nat) (all : List (List Word)) : Nat → Nat → List (List Word) → State → State × Fail
  | _, _, [], s => (s, none)
  | n, fast, e :: t, s =>
    let d := s.mapCheck (all.take (n - 26)) fast e
    let early := d != 0 && d != 6
    if early then (s, some (n, d))
    else
      let x := s.placeMap par e
      if !x.2 then (s, some (n, 5))
      else if d ≠ 0 then (s, some (n, d))
      else State.loadMap par all (n + 1) (if ebit e 0 29 then fast + 1 else fast) t x.1

/-- The checks of R269, with the map written. -/
def State.loadLegacy (s : State) (c : Cset) (par : Nat) : State × Fail :=
  match firstAt s.chanCheck 0 (List.range 26) with
  | some f => (s, some f)
  | none => State.loadMap par c.map 26 0 c.map s

/-! ## Wake (R394) -/

/-- The check of member `k` (R394). Two CAN members share a tx_id whatever their channels are. -/
def State.memberCheck (s : State) (k : Nat) : Nat :=
  let p := s.fld F.pwrMember0_port k
  let can := s.on F.pwrMember0_kind k
  let key (j : Nat) : Bool × Nat × Nat :=
    if s.on F.pwrMember0_kind j then (true, getBits (s.rd .pwrMember1 j) 28 0, 0)
    else (false, (s.rd .pwrMember1 j).toNat, (s.rd .pwrMember2 j).toNat / 65536)
  if !s.on F.pwrMember0_valid k then 0
  else if (if can then decide (p < 32) || decide (47 < p) else decide (15 < p))
    || (List.range k).any fun j => s.on F.pwrMember0_valid j && key j == key k then 1
  else 0

/-- The checks of R394. -/
def State.wakeCheck (s : State) : Fail :=
  let bad (mask : Nat) (n : Nat) (on : Nat → Bool) : Bool := (List.range n).any fun k => mask / 2 ^ k % 2 == 1 && !on k
  firstAt s.memberCheck 0 (List.range 32)
    <|> setFail (!fieldsOk .pwrEntryCfg (s.rd .pwrEntryCfg)) 2
    <|> setFail (s.on F.redCfg_en && !((List.range 32).any fun k => s.on F.pwrMember0_valid k && s.on F.pwrMember0_kind k)) 3
    <|> setFail (bad (s.fld F.pwrWakeEn_t1_en) 12 (fun p => s.on F.macPortCfg_en p)
        || bad (s.fld F.pwrWakeEn_can_en) 16 (fun n => s.on F.canCtrl_en n)
        || bad (s.fld F.pwrWakeEn2_lin_en) 8 (fun n => s.on F.linCtrl_en n)) 4

/-! ## Cipher (R294) -/

/-- The checks of R294. -/
def State.cipCheck (s : State) (c : Cset) (par : Nat) : Fail :=
  let sci (k : Nat) : Word × Word := (s.rd .cipRxScSci (2 * k), s.rd .cipRxScSci (2 * k + 1))
  let secy (p : Nat) : Nat := firstOf [
    (!secyPort p && c.regs.any fun x => x.1 == .cipSecyCfg && x.2.1 == p && (getBit x.2.2 31 || getBit x.2.2 30), 1),
    (c.regs.any fun x => x.1 == .cipSecyRwin && x.2.1 == p && decide (0x3FFFFFFF < x.2.2.toNat), 5)]
  let sc (k : Nat) : Nat :=
    if s.on F.cipRxSc0_valid k && (List.range k).any fun j => s.on F.cipRxSc0_valid j
      && s.fld F.cipRxSc0_port j == s.fld F.cipRxSc0_port k && sci j == sci k then 2 else 0
  let xlts := (s.setEnts c 0x31 par).filter fun x => ebit x.2 0 31 && ebit x.2 5 31
  let layout (x : Nat × List Word) : Bool :=
    let fv := eb x.2 0 28 25
    let mac := eb x.2 0 24 20
    ebit x.2 0 31 && (decide (8 < fv) || decide (mac < 3) || decide (16 < mac) || decide (eb x.2 0 19 16 < 4)
      || xlts.any fun y => eb y.2 5 29 18 == x.1 && decide (eb y.2 0 10 0 ≤ fv + mac))
  firstAt secy 0 (List.range 18)
    <|> firstAt sc 0 (List.range 256)
    <|> (((s.setEnts c 0x36 par).find? layout).map fun x => (x.1, 3))
    <|> setFail (decide (s.fld F.cipCtxSplit_host_base < s.fld F.cipCtxSplit_ctrl_base)) 4

/-! ## Queueing (R176, R243, R368) -/

/-- The class of the copies of a stream at a port, and its queue (R168), for every ingress priority. -/
def State.streamQueue (s : State) (par k p : Nat) : Option (Nat × Nat) :=
  let e := s.strm par k
  let q := eb e 0 9 0
  if ebit e 0 31 && ebit e 1 31 && s.on F.qmgSCtrl_valid q && s.fld F.qmgSCtrl_port q == p
  then some (144 + q, s.fld F.qmgSCtrl_class q) else none

/-- The class queues that carry a reserved stream of the set. -/
def State.resvQueues (s : State) (c : Cset) (par : Nat) : List Nat :=
  c.streams.flatMap fun d => d.egr.filterMap fun x =>
    if x.1 < 18 ∧ x.2 < 8 ∧ (s.streamQueue par d.idx x.1).isNone then some (8 * x.1 + x.2) else none

/-- The loader sets resv_only on every class queue that carries a reserved stream (06_buffering_scheduling.md, after QMG_Q_STAT). -/
def State.setResv (s : State) (c : Cset) (par : Nat) : State :=
  (s.resvQueues c par).foldl (fun s q => s.setFld F.qmgQCtrl_resv_only q 1) s

/-- The reserved stream's frames enter class `c` of port `p`. -/
def State.classOk (s : State) (par : Nat) (d : StreamDecl) (p c : Nat) : Bool :=
  match s.streamQueue par d.idx p with
  | some x => x.2 == c
  | none => (List.range 8).any fun prio => getBits (s.rdEp .qmgClassMap p par) (3 * prio + 2) (3 * prio) == c

/-- The port of a queue. -/
def State.queuePort (s : State) (q : Nat) : Nat := if q < 144 then q / 8 else s.fld F.qmgSCtrl_port (q - 144)

/-- A queue that is in use: every class queue, and a stream queue with valid = 1. -/
def State.queueUsed (s : State) (q : Nat) : Bool := decide (q < 144) || s.on F.qmgSCtrl_valid (q - 144)

/-- The checks of a port. -/
def State.portCheck (s : State) (p : Nat) : Nat :=
  let lim := s.fld F.qmgPortLim_limit p
  let group := (List.range 8).filter fun c =>
    s.on F.schPortCfg_wfq_en p && decide (s.fld F.schPortCfg_wfq_lo p ≤ c) && decide (c ≤ s.fld F.schPortCfg_wfq_hi p)
  firstOf [
    ((List.range 1168).any (fun q => s.queueUsed q && s.queuePort q == p && decide (lim < cellsOf (s.qMaxFrame q p))), 4),
    (!fieldsOk .schPortCfg (s.rd .schPortCfg p), 5),
    (((List.range 8).any fun c => s.fld F.schWfqW_weight (8 * p + c) == 0)
      || group.any (fun c => s.on F.schCbsSlope_en (8 * p + c) || s.on F.qmgQCtrl_resv_only (8 * p + c)
      || (List.range 1024).any fun k => s.on F.qmgSCtrl_valid k && s.fld F.qmgSCtrl_port k == p && s.fld F.qmgSCtrl_class k == c), 8)]

/-- The checks of a queue. -/
def State.queueCheck (s : State) (c : Cset) (par q : Nat) : Nat :=
  let lim := s.qFld q F.qmgQLim_limit F.qmgSLim_limit
  let mf := s.qFld q F.qmgQCtrl_max_frame F.qmgSCtrl_max_frame
  let p := s.queuePort q
  let users := if q < 144 then [] else c.streams.filter fun d =>
    let e := s.strm par d.idx
    ebit e 0 31 && ebit e 1 31 && eb e 0 9 0 == q - 144
  let used := s.queueUsed q
  firstOf [
    (decide (lim < 8) || decide (lim < s.qMin q) || decide (lim < s.qFld q F.qmgQCol_yel_limit F.qmgSCol_yel_limit)
      || decide (lim < s.qFld q F.qmgQCol_red_limit F.qmgSCol_red_limit)
      || (mf != 0 && (decide (mf < 64) || decide (9216 < mf))), 1),
    ((used || mf != 0) && decide (lim < cellsOf (s.qMaxFrame q p)), 2),
    (used && decide (144 ≤ q) && (decide (17 < p) || users.any fun d => !(d.egr.map Prod.fst).contains p), 9),
    (used && c.streams.any fun d => d.egr.any fun x => decide (x.1 < 18)
      && (if q < 144 then q == 8 * x.1 + x.2 && (s.streamQueue par d.idx x.1).isNone
          else (s.streamQueue par d.idx x.1).any fun y => y.1 == q) && !s.classOk par d x.1 x.2, 10)]

/-- The checks of the shapers of a queue. -/
def State.shaperCheck (s : State) (c : Cset) (q : Nat) : Nat :=
  let p := s.queuePort q
  let en := s.on (if q < 144 then F.schTbRate_en else F.schSTbRate_en) (if q < 144 then q else q - 144)
  let rate := s.qFld q F.schTbRate_rate_kbps F.schSTbRate_rate_kbps
  let cbs := decide (q < 144) && s.on F.schCbsSlope_en q
  firstOf [
    ((c.bursts.any fun b => b.1 == q && (s.burstDepth q b.2).isNone) || (en && (rate == 0 || decide (s.declRate p < rate))), 6),
    (cbs && (s.fld F.schCbsSlope_idle_kbps q == 0 || decide (s.declRate p ≤ s.fld F.schCbsSlope_idle_kbps q)
      || s.fld F.schCbsHi_hi_credit q == 0), 7)]

/-- The check of a meter. -/
def State.meterCheck (s : State) (m : Nat) : Nat :=
  let cbs := s.fld F.mtrCbs_cbs m
  let ebs := s.fld F.mtrEbs_ebs m
  if s.on F.mtrCtrl_en m && (s.fld F.mtrCir_cir m == 0 || cbs == 0
    || (s.on F.mtrCtrl_mode m && decide (s.fld F.mtrPir_pir m < s.fld F.mtrCir_cir m)) || decide (cbs < 64)
    || decide (ebs < 64)) then 11 else 0

/-- The check of a stream gate. -/
def State.gateListCheck (s : State) (g : Nat) : Nat :=
  let n := s.fld F.schGateList_list_len g
  let bad := match s.gateAdmin g with
    | none => true
    | some r => (r.entries.any fun e => e.2.1 == 0) || decide (r.cycle < r.entries.foldl (fun a e => a + e.2.1) 0)
  if s.on F.schGateCfg_en g && (n == 0 || bad) then 12 else 0

/-- The checks of R176, in its order. The pool is a matter of the queues together and is tested after each of them. -/
def State.queueingCheck (s : State) (c : Cset) (par : Nat) : Fail :=
  firstAt s.portCheck 0 (List.range 18)
    <|> firstAt (s.queueCheck c par) 0 (List.range 1168)
    <|> setFail (decide (65536 < s.sumMin + 512 + s.fld F.skyCellLim_limit)) 3
    <|> firstAt (s.shaperCheck c) 0 (List.range 1168)
    <|> firstAt s.meterCheck 0 (List.range 2048)
    <|> firstAt s.gateListCheck 0 (List.range 256)

/-- The registers of a tide table. -/
def tideReg (r : Reg) : Bool :=
  [Reg.tgaCfg, .tgaAdminBase, .tgaAdminCycle, .tgaAdminExt, .tgaAdminLen, .tgaAdminEntry].contains r

/-- The port of an instance of a register of a tide table. -/
def tidePort (r : Reg) (i : Nat) : Nat := if r = .tgaAdminEntry then i / 1024 else if r = .tgaAdminBase then i / 3 else i

/-- The set gates a port. -/
def State.tideDeclared (s : State) (c : Cset) (p : Nat) : Bool :=
  s.on F.tgaCfg_en p && c.regs.any fun x => tideReg x.1 && tidePort x.1 x.2.1 == p

/-- The checks of R243. -/
def State.tgaCheck (s : State) (c : Cset) : Fail :=
  let tide (p : Nat) : Bool := c.regs.any fun x => tideReg x.1 && tidePort x.1 x.2.1 == p
  let preempt (p : Nat) : Bool := c.regs.any fun x => x.1 == .tgaPreemptCfg && x.2.1 == p && getBit x.2.2 31
  let check (p : Nat) : Nat :=
    let r := s.tideAdmin p
    firstOf [
      ((decide (16 ≤ p) && tide p) || ([12, 13, 16, 17].contains p && preempt p), 1),
      (decide (p < 16) && s.tideDeclared c p
        && !(s.setFld F.timDomCfg_en r.dom 1).schedOk (s.fld F.tgaAdminLen_list_len p) r, 2),
      (decide (p < 16) && s.tideDeclared c p && !s.on F.timDomCfg_en r.dom, 3)]
  firstAt check 0 (List.range 18)

/-- The check of R368. -/
def State.parQueueCheck (s : State) (c : Cset) (par : Nat) : Fail :=
  firstAt (fun p => if !getBit (s.rdEp .fdbPortCfg p par) 23 && c.sids.any fun e =>
      eb e 0 27 22 == p && ebit (s.strm par (eb e 0 11 0)) 0 31 && ebit (s.strm par (eb e 0 11 0)) 1 31
    then 1 else 0) 0 (List.range 18)

/-! ## Redundancy (R355) -/

/-- A rule names a port as its ingress port: a slot of its profile holds field 0x01, and the key is the port's under the slot's mask. -/
def State.ruleFrom (s : State) (par p : Nat) (e : List Word) : Bool :=
  match ruleField 1 (beNat (bytesOf (e.take 12))) (profSlots (s.ent 4 par (eb e 12 19 15))) 0 with
  | some (v, m) => p / 2 ^ m == v / 2 ^ m
  | none => false

/-- The pair port is named in a VLAN, as member or untag port, a rule, as ingress port of its key or in its action, a route, a stream, a
tide table or a SecY. -/
def State.pairUsed (s : State) (c : Cset) (par p : Nat) : Bool :=
  ((List.range 4096).any fun v => s.vlanHas par v
      && (gateBit (eb (s.ent 0x11 par v) 0 17 0) p || gateBit (eb (s.ent 0x11 par v) 1 17 0) p))
    || (c.rules.any fun r => s.ruleFrom par p r.2 || (ebit r.2 13 29 && eb r.2 13 27 22 == p) || (ebit r.2 13 28 && eb r.2 13 21 16 == p))
    || ((s.setEnts c 0x18 par).any fun x => ebit x.2 0 31 && eb x.2 0 23 18 == p)
    || (c.streams.any fun d => d.inPort == p || (d.egr.map Prod.fst).contains p) || (c.sids.any fun e => eb e 0 27 22 == p)
    || s.tideDeclared c p || s.secyRx p || s.secyTx p

/-- The checks of R355. -/
def State.redCheck (s : State) (c : Cset) (par : Nat) : Fail :=
  let p := s.pairPort
  let strm (d : StreamDecl) : List Word := s.strm par d.idx
  let echo := c.streams.foldl (fun n d =>
    if ebit (strm d) 2 31 then n + (d.rate : Rat) * (d.maxLen + 22 : Nat) / (max 1 d.maxLen : Nat) else n) (0 : Rat)
  if !s.on F.redCfg_en then none
  else setFail (s.pairUsed c par p) 1
    <|> setFail (!s.on F.macPortCfg_en p || s.declRate p != 10000000) 2
    <|> setFail (!fieldsOk .redHbCfg (s.rd .redHbCfg) || decide (1000 < s.fld F.redHbCfg_loss_us + s.fld F.redHbCfg_confirm_us)) 3
    <|> setFail (decide (9500000000 ≤ echo)) 4
    <|> (((List.range 4096).find? fun k => ebit (s.strm par k) 0 31 && ebit (s.strm par k) 2 30
      && decide (eb (s.strm par k) 2 27 21 ≤ s.fld F.redSeqSkip_seq_skip)).map fun k => (k, 5))

end Sys2Proof.Machine
end

