-- ==== Sys2Proof/Machine/Contract.lean ====
section
/-! DEFINITION. The bounded-delivery contract: the bound of a reserved stream and the checks of R62, computed exactly. Rates are in
bit/ns, times in ns, lengths in bytes. -/

namespace Sys2Proof.Machine

open Sys2Proof

/-- T_in and T_out by kind of port (R60). -/
def pipeIn (p : Nat) : Nat :=
  if p < 4 then 80 else if p < 12 then 160 else if p < 14 then 800 else if p < 16 then 100 else if p = 16 then 400
  else if p = 17 then 80 else 1000

def pipeOut (p : Nat) : Nat :=
  if p < 4 then 120 else if p < 12 then 240 else if p < 14 then 1600 else if p < 16 then 140 else if p = 16 then 600
  else if p = 17 then 120 else 500

/-- The declared rate of a port in bit/ns. -/
def State.portRate (s : State) (p : Nat) : Rat := (s.declRate p : Rat) / 1000000

/-- The reserved rate of a stream in bit/ns. -/
def StreamDecl.rateNs (d : StreamDecl) : Rat := (d.rate : Rat) / 1000000000

/-- The class that a stream declares at a port. -/
def StreamDecl.classAt (d : StreamDecl) (e : Nat) : Option Nat := (d.egr.find? fun x => x.1 == e).map Prod.snd

/-- The reserved streams of class `c` at port `e`. -/
def Cset.inClass (c : Cset) (e cl : Nat) : List StreamDecl := c.streams.filter fun d => d.classAt e == some cl

/-- b_j of a stream at a port (R61). -/
def State.burstAt (s : State) (e : Nat) (d : StreamDecl) : Int := d.frames * (d.maxLen + s.lenOvh e)

/-- The stream queues of a port in a class. -/
def State.squeuesAt (s : State) (e cl : Nat) : List Nat :=
  (List.range 1024).filter fun k => s.on F.qmgSCtrl_valid k && s.fld F.qmgSCtrl_port k == e && s.fld F.qmgSCtrl_class k == cl

/-- The class map of a port gives a class some ingress priority. -/
def State.mapped (s : State) (par e cl : Nat) : Bool :=
  (List.range 8).any fun prio => getBits (s.rdEp .qmgClassMap e par) (3 * prio + 2) (3 * prio) == cl

/-- The class carries only reserved streams at the port. -/
def State.onlyReserved (s : State) (c : Cset) (par e cl : Nat) : Bool :=
  (s.on F.qmgQCtrl_resv_only (8 * e + cl) || !s.mapped par e cl)
    && (s.squeuesAt e cl).all fun k => s.on F.qmgSCtrl_resv_only k || (List.range 4096).all fun n =>
      let x := s.strm par n
      !(ebit x 0 31 && ebit x 1 31 && eb x 0 9 0 == k) || c.streams.any fun d => d.idx == n

/-- Preemption is active on a port as the set configures it, and a class is preemptable there. -/
def State.preempts (s : State) (e : Nat) : Bool :=
  decide (e < 16) && s.on F.tgaPreemptCfg_en e && s.fld F.tgaPreemptCfg_add_frag_size e == 0
def State.preemptCls (s : State) (e cl : Nat) : Bool := s.preempts e && !gateBit (s.fld F.tgaPreemptCfg_express_mask e) cl

/-- VLAN tags that copies of a stream carry at a port (R236): none when every entry that identifies the stream names a VID that leaves
the port untagged, else one (entry 71). -/
def State.vlanTags (s : State) (par k e : Nat) : Nat :=
  let l := (s.listed 0x19 0 0 (tabCount 0x19)).filter fun x => ebit x.2 0 31 && epHas (eb x.2 0 21 20) par && eb x.2 0 11 0 == k
  let bare (x : List Word) : Bool :=
    decide (eb x 0 30 28 < 2) && gateBit (eb (s.ent 0x11 par (fieldAt (bytesOf (x.drop 1)) 4 2)) 1 17 0) e
  if !l.isEmpty && l.all fun x => bare x.2 then 0 else 1

/-- The largest frame of a class at a port. -/
def State.classFrame (s : State) (e cl : Nat) : Nat :=
  (s.squeuesAt e cl).foldl (fun m k => max m (s.qMaxFrame (144 + k) e)) (s.qMaxFrame (8 * e + cl) e)

/-- W_plca in bytes at the rate of a port, rounded up (R268). -/
def State.plcaBytes (s : State) (c : Cset) (e : Nat) : Nat :=
  if e = 12 ∨ e = 13 then
    let k := e - 12
    if !s.plcaOn k then 0
    else
      let seg := ((c.segs.find? fun x => x.1 == e).map Prod.snd).getD (0, 0)
      let w := 20 + (s.fld F.tssPlcaCtrl_node_cnt k - 1) * ((seg.2 + 1) * (seg.1 + 20) * 8 + s.fld F.tssPlcaTmr_to_timer k)
      (w + 7) / 8
  else 0

/-- L_lo (R61, R268). -/
def State.lowFrame (s : State) (c : Cset) (e cl : Nat) : Int :=
  let lower := List.range cl
  let base : Int :=
    if lower.isEmpty then 0
    else if s.preempts e && !s.preemptCls e cl && lower.all (s.preemptCls e) then 147
    else lower.foldl (fun m k => max m (s.classFrame e k)) 0 + s.lenOvh e
  base + s.plcaBytes c e

/-- The burst in bytes and the rate of the shaper of a class (R184, R186). -/
def State.shaper (s : State) (c : Cset) (e cl : Nat) : Option (Rat × Rat) :=
  let q := 8 * e + cl
  let mq : Rat := ((s.qMaxFrame q e : Int) + s.lenOvh e : Int)
  if s.on F.schTbRate_en q then
    let b : Rat := match c.bursts.find? fun x => x.1 == q with
      | some x => (x.2 : Rat)
      | none => (s.fld F.schTbDepth_depth q : Rat) + mq
    some (b, (s.fld F.schTbRate_rate_kbps q : Rat) / 1000000)
  else if s.on F.schCbsSlope_en q then
    let r : Rat := (s.fld F.schCbsSlope_idle_kbps q : Rat) / 1000000
    some ((s.fld F.schCbsHi_hi_credit q : Rat) * s.portRate e / (s.portRate e - r) + mq, r)
  else none

/-- B_k and ρ_k of a class (R61); none when it has neither a shaper nor only reserved streams. -/
def State.higher (s : State) (c : Cset) (par e cl : Nat) : Option (Rat × Rat) :=
  match s.shaper c e cl with
  | some x => some x
  | none =>
    if s.onlyReserved c par e cl then
      some ((c.inClass e cl).foldl (fun a d => (a.1 + (s.burstAt e d : Rat), a.2 + d.rateNs)) (0, 0))
    else none

/-- T_q (R59, R61). -/
def State.tQueue (s : State) (c : Cset) (par : Nat) (d : StreamDecl) (e cl : Nat) : Rat :=
  let hi := (List.range 8).foldl (fun (a : Rat × Rat) k =>
    if cl < k then (match s.higher c par e k with | some x => (a.1 + x.1, a.2 + x.2) | none => a) else a) (0, 0)
  let bc : Int := (c.inClass e cl).foldl (fun a x => a + s.burstAt e x) 0 - (d.maxLen + s.lenOvh e)
  (((s.lowFrame c e cl + bc : Int) : Rat) + hi.1) * 8 / (s.portRate e - hi.2)

/-! ## Gates (R236) -/

/-- The entries of one cycle of the table that the set leaves a port with, each with its gates and its duration. -/
def State.cycleOf (s : State) (c : Cset) (e : Nat) : List (Nat × Nat) :=
  let t := s.tide e
  let sched := if s.tideDeclared c e then some (s.tideAdmin e)
    else match t.pend with
      | some q => some q.1
      | none => s.tideRuns e
  match sched with
  | none => []
  | some r =>
    let sum := r.entries.foldl (fun a x => a + x.2.1) 0
    let n := r.entries.length
    r.entries.zipIdx.map fun x => (x.1.1, if x.2 + 1 = n then x.1.2.1 + (r.cycle - sum) else x.1.2.1)

/-- The total duration of the entries from `i` on, in steps of `step` round the cycle, while the class gate is as wanted. -/
def spanFrom (l : List (Nat × Nat)) (cl : Nat) (want : Bool) (step : Nat) : Nat → Nat → Nat
  | 0, _ => 0
  | n + 1, i =>
    let x := l.getD (i % l.length) (0, 0)
    if gateBit x.1 cl == want then x.2 + spanFrom l cl want step n (i + step) else 0

/-- The closings of a class in one cycle: the open window before it, the closed span after it, and the guard band. -/
def State.closings (s : State) (par : Nat) (d : StreamDecl) (e cl : Nat) (l : List (Nat × Nat)) : List (Nat × Nat × Rat) :=
  let n := l.length
  let x := s.strm par d.idx
  let sdu := eb x 1 15 0
  let sec : Nat := if s.secyTx e then 32 else 0
  let lb : Int := (if sdu ≠ 0 then sdu + 18 + 4 * s.vlanTags par d.idx e + (if getBit (ew x 3) e then 6 else 0) else d.maxLen) + sec + s.lenOvh e
  let h : Rat := ((147 + 64 * s.fld F.tgaPreemptCfg_add_frag_size e) * 8 : Nat) / s.portRate e
  let other (g : Nat) : Bool := (List.range 8).any fun k => s.preemptCls e k && gateBit g k
  ((List.range n).filter fun i => gateBit (l.getD i (0, 0)).1 cl && !gateBit (l.getD ((i + 1) % n) (0, 0)).1 cl).map fun i =>
    let after := (List.range n).map fun j => (l.getD ((i + 1 + j) % n) (0, 0)).1
    let resumes := match after.find? other with
      | some g => gateBit g cl
      | none => false
    (spanFrom l cl true (n - 1) n i, spanFrom l cl false 1 n (i + 1),
      if s.preemptCls e cl && resumes then h else ((lb * 8 : Int) : Rat) / s.portRate e)

/-- The transmission time of a number of bytes at a port. -/
def State.txTime (s : State) (e : Nat) (bytes : Int) : Rat := ((bytes * 8 : Int) : Rat) / s.portRate e

/-- T_gate; none when the gate of the class never opens. -/
def State.tGate (s : State) (c : Cset) (par : Nat) (d : StreamDecl) (e cl : Nat) : Option Rat :=
  let l := s.cycleOf c e
  if l.all fun x => gateBit x.1 cl then some 0
  else if l.all fun x => !gateBit x.1 cl then none
  else some ((s.closings par d e cl l).foldl (fun m x => max m ((x.2.1 : Rat) + x.2.2)) 0)

/-- GATE_WINDOW_SHORT. -/
def State.windowShort (s : State) (c : Cset) (par : Nat) (d : StreamDecl) (e cl : Nat) : Bool :=
  let need := s.txTime e (d.maxLen + (if s.secyTx e then 32 else 0) + s.lenOvh e)
  (s.closings par d e cl (s.cycleOf c e)).any fun x => decide ((x.1 : Rat) - x.2.2 < need)

/-! ## Skerries (R162, R163) -/

/-- The Skerry to which the profile of a stream is fixed. -/
def State.fixedSky (s : State) (par : Nat) (d : StreamDecl) : Option Nat := d.prof.bind fun n =>
  let e := s.ent 0x30 par n
  if ebit e 1 31 then some (eb e 1 28 24) else none

/-- S_k, and U_k. -/
def State.skyStreams (s : State) (c : Cset) (par k : Nat) : List StreamDecl :=
  c.streams.filter fun d => s.fixedSky par d == some k
def skyLoad (l : List StreamDecl) : Rat := l.foldl (fun u d => u + (d.budget.getD 0 : Rat) * d.rateNs / 512) 0

/-- SKERRY_BUDGET_MISSING (R162). -/
def State.budgetMissing (s : State) (par : Nat) (dig : List Byte) (d : StreamDecl) : Bool := match d.prof with
  | none => false
  | some n =>
    let e := s.ent 0x30 par n
    !(ebit e 0 23 && ebit e 1 31) || match d.budget with
      | none => true
      | some b => decide (b < Config.progTime dig (eb e 0 31 24))

/-- T_sky; none when U_k is 1 or more. -/
def State.tSky (s : State) (c : Cset) (par : Nat) (d : StreamDecl) : Option Rat := match s.fixedSky par d with
  | none => some 0
  | some k =>
    let l := s.skyStreams c par k
    let u := skyLoad l
    if 1 ≤ u then none
    else some (200 + (l.foldl (fun a x => a + x.frames * x.budget.getD 0) 0 : Nat) / (1 - u))

/-! ## The checks (R62, R65, R194) -/

/-- A stream is policed to its declaration (R194). -/
def State.policed (s : State) (par : Nat) (d : StreamDecl) : Bool :=
  let e := s.strm par d.idx
  let m := eb e 0 29 19
  let sdu := eb e 1 15 0
  ebit e 0 31 && sdu != 0 && decide (sdu + 18 ≤ d.maxLen) && ebit e 0 30 && s.on F.mtrCtrl_en m
    && decide (s.fld F.mtrCir_cir m * 1000 ≤ d.rate)
    && decide ((s.fld F.mtrCbs_cbs m : Int) ≤ d.frames * (d.maxLen + s.lenOvh d.inPort))
    && (!s.on F.mtrCtrl_mode m || s.fld F.mtrPir_pir m == s.fld F.mtrCir_cir m)
    && s.fld F.mtrCtrl_yellow_act m == 2 && s.fld F.mtrCtrl_red_act m == 0

/-- The kinds of port between which express cut-through is possible (R65). -/
def fastPort (p : Nat) : Bool := decide (p < 4) || p == 14 || p == 15 || p == 17

/-- The conditions of R65 at a port: the detail code of the first that fails, or 0. A class is express by express_mask (R237), and a
stream queue is one's own when no other valid stream, reserved or not, names it. -/
def State.expressCheck (s : State) (par : Nat) (d : StreamDecl) (e cl : Nat) : Nat :=
  let own := s.streamQueue par d.idx e
  let m := eb (s.strm par d.idx) 0 29 19
  let above := (List.range 8).filter fun k => decide (cl ≤ k)
  let mask := s.fld F.tgaPreemptCfg_express_mask e
  let shared (q : Nat) : Bool := (List.range 4096).any fun k => k != d.idx && (s.streamQueue par k e).any fun y => y.1 == q
  let ownOk := match own with
    | none => false
    | some q => q.2 == cl && gateBit mask cl && !shared q.1
        && (above.all fun k => (s.squeuesAt e k).all fun x => 144 + x == q.1) && (above.all fun k => !s.mapped par e k)
        && (above.all fun k => k == cl || !gateBit mask k)
  firstOf [
    (!ownOk, 7),
    (s.secyRx d.inPort, 8),
    (decide (s.declRate d.inPort < s.declRate e) || !fastPort e || !fastPort d.inPort, 9),
    (d.prof.isSome || decide (18 ≤ d.inPort) || decide (18 ≤ e), 10),
    (!s.preempts e || !(List.range cl).all (s.preemptCls e), 11),
    (d.frames != 1 || decide ((d.maxLen + s.lenOvh d.inPort : Int) * s.declRate e
      < (d.maxLen + s.lenOvh e) * s.fld F.mtrCir_cir m), 12)]

/-- D_s at a port, rounded up (R59); none when it has no bound. -/
def State.boundAt (s : State) (c : Cset) (par : Nat) (d : StreamDecl) (e cl : Nat) : Option Nat :=
  let leg := decide (18 ≤ d.inPort)
  let rx : Rat := if leg then 0
    else if d.express then 128 * 8 / s.portRate d.inPort
    else (d.lenIn * 8 : Nat) / s.portRate d.inPort + (if s.secyRx d.inPort then 96 else 0)
  let base : Rat := rx + (pipeIn d.inPort + 400 + pipeOut e + (if s.secyTx e then 64 else 0) : Nat)
  match s.tSky c par d with
  | none => none
  | some sky =>
    if 18 ≤ e then some (base + sky).ceil.toNat
    else match s.tGate c par d e cl with
      | none => none
      | some g => some (base + sky + s.tQueue c par d e cl + g).ceil.toNat

/-- The sum of reserved and shaper rates at a port reaches its rate. -/
def State.rateOver (s : State) (c : Cset) (e : Nat) : Bool :=
  let resv := c.streams.foldl (fun n d => if (d.classAt e).isSome then n + d.rate else n) 0
  let cls := (List.range 8).foldl (fun n k =>
    n + (if s.on F.schTbRate_en (8 * e + k) then s.fld F.schTbRate_rate_kbps (8 * e + k) else 0)
      + (if s.on F.schCbsSlope_en (8 * e + k) then s.fld F.schCbsSlope_idle_kbps (8 * e + k) else 0)) 0
  let str := (List.range 1024).foldl (fun n k =>
    if s.on F.qmgSCtrl_valid k && s.fld F.qmgSCtrl_port k == e && s.on F.schSTbRate_en k then n + s.fld F.schSTbRate_rate_kbps k
    else n) 0
  decide (s.declRate e * 1000 ≤ resv + (cls + str) * 1000)

/-- BUFFER_SHORT at a port. -/
def State.bufferShort (s : State) (c : Cset) (par : Nat) (d : StreamDecl) (e cl : Nat) : Bool :=
  let q := match s.streamQueue par d.idx e with
    | some x => x.1
    | none => 8 * e + cl
  decide (s.qFld q F.qmgQLim_limit F.qmgSLim_limit < (c.inClass e cl).foldl (fun n x => n + x.frames * cellsOf x.maxLen) 0)

/-- The checks of R62 on a stream: the detail code of the first that fails, or 0. -/
def State.streamCheck (s : State) (c : Cset) (par : Nat) (dig : List Byte) (d : StreamDecl) : Nat :=
  let eth := d.egr.filter fun x => decide (x.1 < 18)
  let sky := (s.fixedSky par d).map (s.skyStreams c par)
  let ex := (d.egr.map fun x => s.expressCheck par d x.1 x.2).filter fun k => k != 0
  firstOf [
    (eth.any (fun x => s.rateOver c x.1), 1),
    (!s.policed par d, 2),
    (eth.any (fun x => (List.range 8).any fun k => decide (x.2 < k) && (s.higher c par x.1 k).isNone), 3),
    (eth.any (fun x => s.bufferShort c par d x.1 x.2)
      || sky.any (fun l => decide (32 < l.foldl (fun n x => n + x.frames) 0)), 4),
    (eth.any (fun x => s.windowShort c par d x.1 x.2), 5),
    (s.budgetMissing par dig d, 6),
    (d.express && !ex.isEmpty, ex.foldl min 12),
    (d.egr.any (fun x => match s.boundAt c par d x.1 x.2 with
      | some b => decide (d.bound < b)
      | none => true), 13)]

/-- Check the streams in ascending index: the state with the contract recorded, and the first failure: the stream and the detail
code, none where it omits an item and the spec gives no code (R58). -/
def State.contractRun (c : Cset) (par : Nat) (dig : List Byte) (t : State) :
    List StreamDecl → State → State × Option (Nat × Option Nat)
  | [], s => (s, none)
  | d :: l, s =>
    if !d.whole then (s, some (d.idx, none))
    else
      let k := t.streamCheck c par dig d
      if k ≠ 0 then (s, some (d.idx, some k))
      else
        let b := d.egr.foldl (fun m x => max m ((t.boundAt c par d x.1 x.2).getD 0)) 0
        let attr := 1 + (if d.express then 2 else 0) + (if d.egr.any fun x => decide (18 ≤ x.1) then 4 else 0)
        State.contractRun c par dig t l
          { s with net := { s.net with contract := tblPut s.net.contract (4096 * (par % 2) + d.idx) (b, attr) } }

/-- The reserved streams of a set in ascending index. -/
def Cset.ordered (c : Cset) : List StreamDecl := (List.range 4096).filterMap fun k => c.streams.find? fun d => d.idx == k

/-- The profile's budget_ns becomes the largest budget of the streams that use it (R162). -/
def State.setBudgets (s : State) (c : Cset) (par : Nat) : State :=
  (List.range 256).foldl (fun s n =>
    let l := c.streams.filter fun d => d.prof == some n
    if l.isEmpty then s
    else s.loadEnt 0x30 par n (eput (s.ent 0x30 par n) 1 23 0 (l.foldl (fun m d => max m (d.budget.getD 0)) 0))) s

/-- The contract check of a set of parity `par`: `t` is the state with the set's registers. It reports in CFG_BDC_RESULT. -/
def State.contract (s : State) (c : Cset) (par : Nat) (dig : List Byte) (t : State) : State × Bool :=
  let lo := 4096 * (par % 2)
  let s := { s with net := { s.net with contract := tblKeep (fun k _ => k < lo || lo + 4096 ≤ k) s.net.contract } }
  let r := State.contractRun c par dig t c.ordered s
  match r.2 with
  | none => (r.1.wr .cfgBdcResult 0 (putBits 0x80000000 27 16 0xFFF), true)
  | some (k, code) =>
    let (w, s) := r.1.drawWord
    let code := code.getD (w.toNat % 256)
    (s.wr .cfgBdcResult 0 (putBits (putBits 0x80000000 27 16 k) 7 0 code), false)

end Sys2Proof.Machine
end

