-- ==== Sys2Proof/Machine/HostBridge.lean ====
section
/-! DEFINITION. The host bridge apart from the register bus: auxiliary SPI windows, read-ahead, fences, rings, link and
side-band signals (R430, R431, R435, R440 to R444, R450). -/

namespace Sys2Proof.Machine

open Sys2Proof

/-! ## Auxiliary SPI windows -/

/-- BAR0 offset of peripheral address `a` of window `w` (R427, R430). -/
def aspiOff (w a : Nat) : Nat := 0x800000 + 0x100000 * w + 4 * a

/-- The read-ahead buffer of a path for a window. -/
def State.pf (s : State) (p : Path) (w : Nat) : Option PfBuf := tblFind (s.pathSt p).pf w

/-- Set or remove the read-ahead buffer of a path for a window. -/
def State.setPf (s : State) (p : Path) (w : Nat) (b : Option PfBuf) : State :=
  let x := s.pathSt p
  s.setPath p { x with pf := match b with
    | some b => tblPut x.pf w b
    | none => tblDel x.pf w }

/-- Discard a read-ahead buffer: each word unread is counted and recorded, and PF_DISCARD rises (R431). -/
def State.discardPf (s : State) (p : Path) (w : Nat) : State :=
  match s.pf p w with
  | none => s
  | some b =>
    let s := s.setPf p w none
    (List.range b.words.length).foldl (fun s i =>
      ((s.bump .hbrPfDiscard w).setFld F.hbrPfLast_offset w (aspiOff w (b.addr + i))).raise Ev.pfDiscard) s

/-- Discard the buffers of every path for a window. -/
def State.discardPfAll (s : State) (w : Nat) : State :=
  ((s.discardPf .pcie w).discardPf .spi w).discardPf .fw w

/-- The width in bytes of a peripheral word. -/
def State.aspiWidth (s : State) (w : Nat) : Nat := 2 ^ s.fld F.hbrAspiCfg0_width w

/-- The address bytes of a transaction. -/
def State.aspiAddr (s : State) (w a : Nat) : List Byte := beBytes (s.fld F.hbrAspiCfg0_addr_bytes w + 1) a

/-- A write of one dword to window `w` at offset `off` within it (R428, R430, R431, R435): the state, and whether the write
failed. `sts` is the status byte that the peripheral returns when it is read. -/
def State.aspiWrite (s : State) (p : Path) (w off : Nat) (data : Word) (be reqId tag : Nat) (sts : Byte) : State × Bool :=
  let fail (s : State) (c : PwCause) (far : Nat) : State × Bool :=
    (s.pwFail ⟨p, c, 0x800000 + 0x100000 * w + off, data, be, reqId, tag, far⟩, true)
  if s.fenced p w then (s.bump .hbrPwFenced, false)
  else if !s.on F.hbrAspiCfg0_en w then fail s .unmapped 0
  else if be = 0 then (s, false)
  else if be ≠ 15 ∧ s.aspiWidth w = 4 then fail s .width 0
  else
    let s := s.discardPfAll w
    let s := s.emit (.aspi (s.fld F.hbrAspiCfg0_cs w)
      (BitVec.ofNat 8 (s.fld F.hbrAspiCfg1_wr_op w) :: s.aspiAddr w (off / 4) ++ beBytes (s.aspiWidth w) data.toNat))
    if s.on F.hbrAspiCfg0_chk_en w then
      let s := s.emit (.aspi (s.fld F.hbrAspiCfg0_cs w) [BitVec.ofNat 8 (s.fld F.hbrAspiCfg1_sts_op w)])
      if sts.toNat &&& s.fld F.hbrAspiCfg2_sts_mask w = s.fld F.hbrAspiCfg2_sts_val w then (s, false)
      else fail s .farStatus sts.toNat
    else (s, false)

/-- One read transaction of a window. -/
def State.aspiXfer (s : State) (w a : Nat) : State :=
  s.emit (.aspi (s.fld F.hbrAspiCfg0_cs w) (BitVec.ofNat 8 (s.fld F.hbrAspiCfg1_rd_op w) :: s.aspiAddr w a))

/-- A peripheral word, zero-extended from the width of its window. -/
def State.aspiExt (s : State) (w : Nat) (x : Word) : Word := BitVec.ofNat 32 (x.toNat % 2 ^ (8 * s.aspiWidth w))

/-- A read of one dword of an enabled window at peripheral address `a` (R430, R431): the state, the word, and the peripheral
words not used. `words` are the words the peripheral gives, in the order read. Read-ahead follows a read that the
peripheral served (assumption 10). -/
def State.aspiRead (s : State) (p : Path) (w a : Nat) (words : List Word) : State × Word × List Word :=
  let fromPeriph (s : State) : State × Word × List Word :=
    let s := (s.discardPf p w).aspiXfer w a
    let n := s.fld F.hbrAspiCfg0_pf_len w
    let s := (List.range n).foldl (fun s i => s.aspiXfer w (a + 1 + i)) s
    let ahead := (List.range n).map fun i => s.aspiExt w (words.getD (i + 1) 0)
    let s := if n = 0 then s else s.setPf p w (some ⟨a + 1, ahead, s.tim.lt⟩)
    (s, s.aspiExt w (words.getD 0 0), words.drop (n + 1))
  match s.pf p w with
  | some b =>
    match b.words with
    | x :: xs =>
      if b.addr = a then
        (s.setPf p w (if xs = [] then none else some ⟨a + 1, xs, b.since⟩), x, words)
      else fromPeriph s
    | [] => fromPeriph s
  | none => fromPeriph s

def execAspiWindowWrite (path : Path) (w : Fin 4) (off : BitVec 20) (data : Word) (be : BitVec 4) (reqId : BitVec 16)
    (tag : BitVec 8) (sts : Byte) (s : State) : Host.Outcome State Fault Refusal :=
  .next (s.access path (0x800000 + 0x100000 * w + off.toNat) data (fun s =>
    (s.aspiWrite path w off.toNat data be.toNat reqId.toNat tag.toNat sts).1) be.toNat [sts])

/-- 10 us after a read-ahead its buffer is discarded (R431). -/
def execPrefetchTimeout (path : Path) (w : Fin 4) (s : State) : Host.Outcome State Fault Refusal :=
  .next (match s.pf path w with
    | some b => if b.since + tkUs 10 ≤ s.tim.lt then s.discardPf path w else s
    | none => s)

/-- A write of HBR_PW_FENCE clears the fence bits of its path that are written as 1 (R435). -/
def State.wrPwFence (s : State) (p : Path) (data : Word) : State :=
  let x := s.pathSt p
  s.setPath p { x with fence := x.fence &&& (15 - F.hbrPwFence_fence.of data) }

def execPwFenceClear (path : Path) (data : Word) (s : State) : Host.Outcome State Fault Refusal :=
  .next (s.accessReg path .hbrPwFence 0 data fun s => s.wrPwFence path data)

/-! ## PCIe link and unsupported requests -/

/-- Requests of the PCIe host reach the endpoint (R425, R477). -/
def State.pcieUp (s : State) : Bool := s.mapUp && !s.hbr.perstLow && s.on F.hbrPcieStat_link_up

/-- A request that the endpoint does not support (R428): refused reads are counted. -/
def execPcieUnsupported (kind : UrKind) (s : State) : Host.Outcome State Fault Refusal :=
  .next (if !s.pcieUp then s else match kind with
    | .lockedRead => (s.bump .hbrNpErr).emit .unsupportedRequest
    | .ioRead => (s.bump .hbrNpErr).emit .unsupportedRequest
    | .readOutside => (s.bump .hbrNpErr).emit .unsupportedRequest
    | .ioWrite => s.emit .unsupportedRequest
    | .atomicOp => s.emit .unsupportedRequest
    | .writeOutside => s)

/-- The PCIe endpoint can train: PERST_N is high, and step 3 of the start is past (R477). -/
def State.pcieTrains (s : State) : Bool := s.fabricOn && !s.inReset && !s.hbr.perstLow

/-- The PCIe link goes up or down, or changes width or speed while it is up (R426, R450); `l2`: it goes down into L2 (R443). -/
def execPcieLinkChange (up : Bool) (width speed : BitVec 4) (s : State) (l2 : Bool := false) : Host.Outcome State Fault Refusal :=
  let now := s.on F.hbrPcieStat_link_up
  .next (if (up && !s.pcieTrains) || (!up && !now) then s
    else
      let w := if up then putBits (putBits (putBits 0 31 31 1) 7 4 width.toNat) 3 0 speed.toNat else 0
      let s := { s with hbr := { s.hbr with l2 := l2 && !up } }
      ((s.wr .hbrPcieStat 0 w).raiseIf (s.fabricOn && up != now) Ev.pcieLink).settle)

/-- A side-band ball changes level (R444). -/
def execSidebandChange (ball : Fin 14) (level : Bool) (s : State) : Host.Outcome State Fault Refusal :=
  .next (s.setBall ball level)

/-- PERST_N rises, and the endpoint can train again (R443, R477). -/
def execPerstRelease (s : State) : Host.Outcome State Fault Refusal :=
  .next (({ s with hbr := { s.hbr with perstLow := false } }.setBall 3 true).settle)

/-! ## Rings -/

/-- Stop a ring: en and head read 0 (R440, R443). -/
def State.stopRing (s : State) (rx : Bool) (r : Nat) : State :=
  if rx then (s.setFld F.hbrRxRingCfg_en r 0).setFld F.hbrRxRingHead_head r 0
  else (s.setFld F.hbrTxRingCfg_en r 0).setFld F.hbrTxRingHead_head r 0

/-- A write of a ring's CFG (R440): a ring with en = 0 is idle, and its head reads 0. -/
def State.wrRingCfg (s : State) (rx : Bool) (r : Nat) (data : Word) : State :=
  let s := s.writeReg (if rx then .hbrRxRingCfg else .hbrTxRingCfg) r data
  if s.on (if rx then F.hbrRxRingCfg_en else F.hbrTxRingCfg_en) r then s else s.stopRing rx r

/-- A ring runs: enabled, and DMA enabled (R440). -/
def State.ringRuns (s : State) (rx : Bool) (r : Nat) : Bool :=
  s.on F.hbrDmaCfg_dma_en && s.on (if rx then F.hbrRxRingCfg_en else F.hbrTxRingCfg_en) r

/-- Descriptors between head and tail of a ring. -/
def State.ringAvail (s : State) (rx : Bool) (r : Nat) : Nat :=
  let n := 2 ^ s.fld (if rx then F.hbrRxRingCfg_size_log else F.hbrTxRingCfg_size_log) r
  let h := s.fld (if rx then F.hbrRxRingHead_head else F.hbrTxRingHead_head) r
  let t := s.fld (if rx then F.hbrRxRingTail_tail else F.hbrTxRingTail_tail) r
  (t + n - h % n) % n

/-- Advance the head of a ring by `k` descriptors; the head of an idle ring reads 0 (R440). -/
def State.ringAdvance (s : State) (rx : Bool) (r k : Nat) : State :=
  let n := 2 ^ s.fld (if rx then F.hbrRxRingCfg_size_log else F.hbrTxRingCfg_size_log) r
  let f := if rx then F.hbrRxRingHead_head else F.hbrTxRingHead_head
  if s.on (if rx then F.hbrRxRingCfg_en else F.hbrTxRingCfg_en) r then s.setFld f r ((s.fld f r + k) % n) else s

def execTxRingTailWrite (path : Path) (r : Fin 8) (data : Word) (s : State) : Host.Outcome State Fault Refusal :=
  .next (s.accessReg path .hbrTxRingTail r data fun s => s.writeReg .hbrTxRingTail r data)

def execRxRingTailWrite (path : Path) (r : Fin 8) (data : Word) (s : State) : Host.Outcome State Fault Refusal :=
  .next (s.accessReg path .hbrRxRingTail r data fun s => s.writeReg .hbrRxRingTail r data)

end Sys2Proof.Machine
end

