-- ==== Sys2Proof/Machine/PairOps.lean ====
section
/-! DEFINITION. The control pair and the Referee (R325 to R343), and paired devices (R344 to R356). -/

namespace Sys2Proof.Machine

open Sys2Proof

/-! ## The Referee and the injection test -/

/-- The Referee compares the lanes: in lockstep, in the tick of a write of split, where the fault wins and the pair never splits (R343),
and, on cores that a fault has halted, still in the cycle of that fault (R339). -/
def State.compares (s : State) : Bool :=
  s.mapUp && (!s.pair.halted || s.faultNow)
    && (s.pair.mode == .lockstep || (s.pair.mode == .splitting && s.pair.splitAt == s.tim.lt))

/-- The Referee sees lanes differ (R328, R335). -/
def execRefereeMismatch (lanes : BitVec 8) (s : State) : Host.Outcome State Fault Refusal :=
  .next (if !s.compares || lanes == 0 then s else (s.setMode .lockstep).fault 1 (lowestLane lanes))

/-- A rail code in any mode, or a delay-register parity error in lockstep (R330 to R332); halted cores change nothing in that, so that a
later fault is counted and may raise the safe state (R335, R339). -/
def execRefereeFault (parity : Bool) (lane : Fin 8) (s : State) : Host.Outcome State Fault Refusal :=
  .next (if !s.mapUp || (parity && s.pair.mode != .lockstep) then s
    else (if s.pair.mode = .splitting then s.setMode .lockstep else s).fault 2 (8 * parity.toNat + lane))

/-- A write of GLB_SAFE_CFG (R338): the first after each entry into BOOT sets lock. -/
def State.wrSafeCfg (s : State) (data : Word) : State :=
  if s.on F.glbSafeCfg_lock then s.accessErr .glb
  else (s.writeReg .glbSafeCfg 0 data).setFld F.glbSafeCfg_lock 0 1

def execSafeCfgWrite (path : Path) (data : Word) (s : State) : Host.Outcome State Fault Refusal :=
  .next (s.accessReg path .glbSafeCfg 0 data fun s => s.wrSafeCfg data)

/-! ## Split and re-pair -/

/-- A write of GLB_LS_CTRL (R340, R342, R343): host writes are ignored with ACCESS_ERR. Of split and repair, the mode at the write ignores
one. -/
def State.wrLsCtrl (s : State) (path : Path) (data : Word) (fail : BitVec 8) : State :=
  if path != .fw then s.accessErr .glb
  else if s.pair.mode = .lockstep then if F.glbLsCtrl_split.of data = 1 then s.split else s
  else if F.glbLsCtrl_repair.of data = 1 then s.repair fail
  else s

def execLsSplit (path : Path) (s : State) : Host.Outcome State Fault Refusal :=
  .next (s.accessReg path .glbLsCtrl 0 0x80000000 fun s => s.wrLsCtrl path 0x80000000 0)

/-- The split checker's accesses (R341): any item but those listed gives a bus error and is counted. -/
def execCheckerAccessDenied (access : CheckerAccess) (s : State) : Host.Outcome State Fault Refusal :=
  .next (if s.pair.mode = .split ∧ access = .other then (s.bump .glbLsDenied).emit .checkerBusError else s)

/-- A re-pair requested by the main core on its path, or by the checker through its own port (R342). -/
def execLsRepair (path : Path) (checker : Bool) (laneFail : BitVec 8) (s : State) : Host.Outcome State Fault Refusal :=
  .next (if checker then s.repair laneFail
    else s.accessReg path .glbLsCtrl 0 0x40000000 fun s => s.wrLsCtrl path 0x40000000 laneFail)

/-- The pair has been split for split_max_ms (R342). -/
def execLsSplitTimeout (laneFail : BitVec 8) (s : State) : Host.Outcome State Fault Refusal :=
  .next (if s.pair.mode = .split ∧ s.pair.halted = false ∧ s.pair.splitAt + tkMs (s.fld F.glbLsCfg_split_max_ms) ≤ s.tim.lt then
      ((s.bump .glbLsSplitTmo).raise Ev.lsSplitTmo).repair laneFail
    else s)

/-! ## Heartbeat -/

/-- The conditions of the rebound hold (R353). -/
def State.healthy (s : State) : Bool :=
  s.paired && s.red.role == .standby && s.home && s.alive && !s.red.hbLost && s.linkUp s.pairPort && s.red.digestEq

/-- Keep the tick since which the rebound conditions hold without a break: a break also ends a request that is open (R353). On a STANDBY
whose partner's heartbeat is lost, the confirmation of a takeover runs (R349). -/
def State.health (s : State) : State :=
  let since := if s.healthy then some (s.red.healthyAt.getD s.tim.lt) else none
  let confirm := if s.red.role = .standby ∧ s.red.hbLost then some (s.red.confirmAt.getD s.tim.lt) else none
  { s with red := { s.red with healthyAt := since, confirmAt := confirm, reboundReq := s.red.reboundReq && s.healthy } }

/-- A write of RED_HB_KICK by device firmware (R345). -/
def State.wrHbKick (s : State) (path : Path) (data : Word) : State :=
  if F.redHbKick_kick.of data = 1 ∧ path = .fw then
    (({ s with red := { s.red with kickAt := some s.tim.lt } }.flagsChanged s)).health
  else s

def execHbKick (path : Path) (data : Word) (s : State) : Host.Outcome State Fault Refusal :=
  .next (s.accessReg path .redHbKick 0 data fun s => s.wrHbKick path data)

/-- No kick within kick_ms: the device is no longer alive, and REDLINK_A is held low (R345). The flags sent change. -/
def execHbKickTimeout (s : State) : Host.Outcome State Fault Refusal :=
  .next (match s.red.kickAt with
    | some t =>
      if t + tkMs (s.fld F.redHbCfg_kick_ms) ≤ s.tim.lt then
        let s := ({ s with red := { s.red with kickAt := none } }.setBall 7 false).health
        if s.paired then s.sendStatus else s
      else s
    | none => s)

/-- No edge on REDLINK_B for loss_us (R345, R349). -/
def execHbLoss (s : State) : Host.Outcome State Fault Refusal :=
  .next (if s.paired && !s.red.hbLost && decide (s.red.edgeAt + tkUs (s.fld F.redHbCfg_loss_us) ≤ s.tim.lt) then
      (({ s with red := { s.red with hbLost := true } }).raise Ev.hbLoss).health
    else s)

/-- An edge on REDLINK_B (R349): a pending takeover is aborted and counted. -/
def execRedlinkBEdge (s : State) : Host.Outcome State Fault Refusal :=
  let pendingTakeover := s.red.confirmAt.isSome
  let s := s.setBall 8 (!getBit (s.rd .hbrSideband) 8)
  .next (({ s with red := { s.red with edgeAt := s.tim.lt, hbLost := false, confirmAt := none } }.bumpIf
    pendingTakeover .redHbGlitch).health)

/-! ## Roles -/

/-- A takeover is committed (R350). -/
def State.takeover (s : State) : State :=
  let skip := s.fld F.redSeqSkip_seq_skip
  let s := { s with red := { s.red with confirmAt := none, takeovers := s.tim.lt :: s.red.takeovers } }
  let s := ((s.setRole .active).takeoverStreams (some skip)).advanceFresh skip
  ((s.takeoverLegacy.bump .redTakeovers).raise Ev.pairTakeover).health

/-- A takeover would commit under R349. -/
def State.eligible (s : State) : Bool :=
  s.red.role != .detached &&
    match s.red.partner with
    | none => s.red.hbLost && s.red.confirmAt.any fun t => decide (t + tkUs (s.fld F.redHbCfg_confirm_us) ≤ s.tim.lt)
    | some p => p.role == .faulted || p.safe || (s.red.hbLost && (!p.alive ||
        s.red.confirmAt.any fun t => decide (t + tkUs (s.fld F.redHbCfg_confirm_us) ≤ s.tim.lt)))

/-- STATUS is due: every 100 us (R346). -/
def execPairStatusSend (s : State) : Host.Outcome State Fault Refusal :=
  .next (if s.paired && (match s.red.sentAt with
      | some t => decide (t + tkUs 100 ≤ s.tim.lt)
      | none => true)
    then s.sendStatus else s)

/-- Record a STATUS: partner UID, digest comparison (R346, R348). A partner that reports ACTIVE is not handing over (R353). -/
def State.noteStatus (s : State) (st : PairStatus) : State :=
  let eq := st.digest == s.activeDigest
  let news := !eq && (s.red.digestEq || s.red.statusAt.isNone)
  let s := (List.range 4).foldl (fun s k => s.wr .redPartnerUid k (BitVec.ofNat 32 (fieldAt st.uid (4 * k) 4))) s
  let stop := s.red.stopped && st.role != .active
  let req := s.red.reboundReq && st.role != .active
  let r := { s.red with statusAt := some s.tim.lt, partner := some st, digestEq := eq, stopped := stop, reboundReq := req }
  { s with red := r }.raiseIf news Ev.pairMismatch

/-- A STATUS settles the role (R348), triggers a takeover (R349) or resolves a dual active (R352). -/
def State.statusRx (s : State) (st : PairStatus) : State :=
  let s := s.noteStatus st
  let s := match s.red.role with
    | .discover =>
      if st.role = Role.active then s.setRole .standby
      else if st.role = Role.discover then s.setRole (if s.home then .active else .standby)
      else s
    | .standby =>
      if st.role = Role.faulted ∨ st.safe then s.takeover
      else if s.red.hbLost then
        if st.alive then { s with red := { s.red with confirmAt := some s.tim.lt } }.raise Ev.redlinkFault else s.takeover
      else s
    | .active =>
      if st.role = Role.active ∧ !s.home then ((s.setRole .standby).bump .redDualActive).raise Ev.pairDualActive else s
    | _ => s
  s.health

def execPairStatusRx (st : PairStatus) (s : State) : Host.Outcome State Fault Refusal :=
  .next (if s.paired then s.statusRx st else s)

/-- An ECHO (R347): classified with its carried number on a STANDBY or in DISCOVER, late on an ACTIVE or FAULTED device, and on a DETACHED
one (entry 88). One that names no port, or holds no frame, is no pair-link frame (R346). -/
def State.pairEcho (s : State) (stream seq port : Nat) (bytes : List Byte) : State :=
  if !s.fabricOn || !s.on F.redCfg_en then s
  else if s.red.role = .standby ∨ s.red.role = .discover then
    if 18 ≤ port ∨ bytes.length < 14 then s.bump .redPlForeign
    else
      let s := { s with red := { s.red with echoSeq := tblPut s.red.echoSeq stream seq } }
      (s.bump .redEchoRx).echoIn seq port bytes
  else s.bump .redEchoLate

def execPairEchoRx (stream seq : BitVec 16) (port : BitVec 8) (bytes : List Byte) (s : State) :
    Host.Outcome State Fault Refusal :=
  .next (s.pairEcho stream.toNat seq.toNat port.toNat bytes)

/-- A FRESH message is applied as COMMIT on a STANDBY or in DISCOVER (R347). -/
def State.pairFresh (s : State) (idx fv : Nat) : State :=
  if s.paired && (s.red.role == .standby || s.red.role == .discover) then s.freshFromPair idx fv else s

def execPairFreshRx (idx : BitVec 16) (fv : BitVec 64) (s : State) : Host.Outcome State Fault Refusal :=
  .next (s.pairFresh idx.toNat fv.toNat)

/-- No STATUS within 200 ms in DISCOVER: ACTIVE alone (R348). -/
def execDiscoverTimeout (s : State) : Host.Outcome State Fault Refusal :=
  .next (if s.paired && s.red.role == .discover && s.red.statusAt.isNone
      && decide (s.red.discoverAt + tkMs 200 ≤ s.tim.lt)
    then (s.setRole .active).health else s)

/-- After heartbeat loss no STATUS has arrived for confirm_us: the takeover commits (R349). -/
def execTakeoverConfirmTimeout (s : State) : Host.Outcome State Fault Refusal :=
  .next (match s.red.confirmAt with
    | some t =>
      if s.paired && s.red.role == .standby && s.red.hbLost
          && decide (t + tkUs (s.fld F.redHbCfg_confirm_us) ≤ s.tim.lt)
      then s.takeover else s
    | none => s)

/-! ## The rebound -/

/-- A pair-link frame without payload: Ethernet header and pair header (R346). -/
def pairFrame (type : Byte) : List Byte :=
  List.replicate 6 0xFF ++ List.replicate 6 0 ++ [0x88, 0xB5, 1, type, 0, 0, 0, 0, 0, 0]

/-- The rebound conditions have held for rebound_ms: REBOUND_REQ is sent (R353). While they hold on with no handover, it is sent again
after each further rebound_ms (entry 89). -/
def execReboundTimerExpiry (s : State) : Host.Outcome State Fault Refusal :=
  let ms := s.fld F.redCfg_rebound_ms
  .next (match s.red.healthyAt with
    | some t =>
      if s.healthy && ms != 0 && decide (t + tkMs ms ≤ s.tim.lt) then
        { s with red := { s.red with reboundReq := true, healthyAt := some s.tim.lt } }.emitPair (pairFrame 3)
      else s
    | none => s)

/-- A REBOUND_REQ reaches the ACTIVE (R353, R354). -/
def State.reboundReq (s : State) : State :=
  if !(s.paired && s.red.role == .active) then s
  else
    let recent := s.red.takeovers.filter fun t => decide (s.tim.lt < t + tkS 600)
    if 3 ≤ recent.length then s.raise Ev.reboundRefused
    else
      let s := { s with red := { s.red with stopped := true } }.emitPair (pairFrame 4)
      (((s.setRole .standby).bump .redRebounds).raise Ev.pairRebound).health

def execReboundReqRx (s : State) : Host.Outcome State Fault Refusal := .next s.reboundReq

/-- HANDOVER reaches the home device (R353): it takes role ACTIVE and numbers without a skip. -/
def State.handover (s : State) : State :=
  if !(s.paired && s.red.role == .standby) then s
  else
    let s := ((s.setRole .active).takeoverStreams none).takeoverLegacy
    ((s.bump .redRebounds).raise Ev.pairRebound).health

def execHandoverRx (s : State) : Host.Outcome State Fault Refusal := .next s.handover

end Sys2Proof.Machine
end

