-- ==== Sys2Proof/Machine/Rx.lean ====
section
/-! DEFINITION. Reception: timestamps (R204 to R207), the ingress checks (R41, R42), the way of a frame into the pipeline and its
tail (R34, R43, R189), the MACsec verify hold (R39, R40), fragments (R241), the pair link (R346), and the frames of the host
(R441) and of the control pair (R206). -/

namespace Sys2Proof.Machine

open Sys2Proof

/-! ## Timestamps -/

/-- The values of the four domains, in units of 2^-48 ns. -/
def State.domVals (s : State) : List Nat := (List.range 4).map fun d => (s.dom d).val

/-- A time in units of 2^-48 ns, moved by a latency in ps and rounded to 2^-16 ns (R204, R207). -/
def stamp16 (val : Nat) (ps : Int) : Nat :=
  let x : Int := (val : Int) * 1000 + ps * 2 ^ 48
  ((x + 500 * 2 ^ 32) / (1000 * 2 ^ 32)).toNat

/-- The PTP fields of a frame at the PHY boundary (R206): messageType, domainNumber and sequenceId. -/
def State.ptpOfFrame (s : State) (p : Nat) (bs : List Byte) : Option (Nat × Nat × Nat) :=
  let c := s.parseCfg p
  let o := if c.tpid (fieldAt bs 12 2) then (if c.tpid (fieldAt bs 16 2) then 20 else 16) else 12
  if fieldAt bs o 2 = 0x88F7 then some (fieldAt bs (o + 2) 1 % 16, fieldAt bs (o + 6) 1, fieldAt bs (o + 32) 2) else none

/-- Word 0 of a record without its flags, and the device domain (R206, R207). -/
def State.stampHead (s : State) (p : Nat) (bs : List Byte) : Word × Nat :=
  let defDom := s.fld F.timPortCfg_def_dom p
  let w (mt seq d : Nat) (miss : Bool) : Word × Nat :=
    (putBits (putBits (putBits (putBits (putBits 0 31 31 1) 28 28 miss.toNat) 27 24 mt) 23 22 d) 15 0 seq, d)
  match s.ptpOfFrame p bs with
  | none => w 15 0 defDom false
  | some (mt, n, seq) =>
    match (List.range 4).find? fun d => s.on F.timDomCfg_en d && s.fld F.timDomCfg_ptp_dom d == n with
    | some d => w mt seq d false
    | none => w mt seq defDom true

/-- The latency correction in ps that holds at a port at this tick (R205). -/
def State.latency (s : State) (p : Nat) (tx : Bool) : Int :=
  let row := 3 * p + s.fld F.macPortStat_oper_mode p
  if tx then (s.rd .timLatTx row).toInt else - (s.rd .timLatRx row).toInt

/-- A record of a frame at port P0 to P15 (R204 to R207): `frac` is the eighth of the tick of its timestamp point, at which the domains
and the latency correction were taken. -/
def State.stampRec (s : State) (p lt frac : Nat) (doms : List Nat) (lat : Int) (bs : List Byte) : Rec8 :=
  let h := s.stampHead p bs
  let sub := if p < 14 then frac * (5 * 2 ^ 43) else 0
  h.1 :: domWords (stamp16 (doms.getD h.2 0 + sub) lat) ++ ltWords (stamp16 (lt * (5 * 2 ^ 46) + sub) lat) ++ [0]

/-- The record of a frame whose first byte entered from P16 or P17 at a tick, with the domain values then (R206). -/
def stampHost (lt : Nat) (doms : List Nat) : Rec8 :=
  putBits (putBits 0 31 31 1) 27 24 15 :: domWords (round16 (doms.getD 0 0)) ++ ltWords (lt16 lt) ++ [0]

/-! ## The tests of R41 -/

/-- The first cause of R41 for a frame of `len` bytes under R5 whose bytes without FCS are `bs`. -/
def rxFault (maxLen : Nat) (past : Bool) (bs : List Byte) (t : RxTail) : Option Ctr :=
  let len := bs.length + 4
  if t.err then some .macDropRxerr
  else if past || decide (maxLen < len) then some .macDropOversize
  else if len < 64 then some .macDropRunt
  else if t.fcs.toNat ≠ crc32 bs then some .macDropFcs
  else none

/-- Receptions of a port: the one begun with an SFD or SMD-E, or with an SMD-S. -/
def PortSt.reception (x : PortSt) (pre : Bool) : Option RxSt := if pre then x.rxp else x.rx

/-- Set a reception of a port. -/
def State.setRx (s : State) (p : Nat) (pre : Bool) (r : Option RxSt) : State :=
  let x := s.port p
  s.setPort p (if pre then { x with rxp := r } else { x with rx := r })

/-- The ports whose ct_tx_en is 1, as a bitmap. -/
def State.ctTxMap (s : State) : Nat :=
  (List.range 18).foldl (fun n p => if s.on F.macFwdCtrl_ct_tx_en p then n + 2 ^ p else n) 0

/-! ## Into the pipeline -/

/-- 64-byte blocks of the verify buffer in use (R279): held frames and frames to be held. -/
def State.vbUsed (s : State) : Nat :=
  s.net.ports.foldl (fun n x =>
    let arriving := (x.2.rx.toList ++ x.2.rxp.toList).filter fun r => r.hold.isSome
    (arriving.foldl (fun n r => n + (r.got.length + 63) / 64) n) + x.2.held.foldl (fun n h => n + (h.bytes.length + 63) / 64) 0) 0

/-- Record the occupancy of the verify buffer (R177). -/
def State.vbMark (s : State) : State := s.hwm F.cipVbStat_hwm_blk 0 s.vbUsed

/-- A frame of a reception, of which `orig` are the bytes so far after MACsec removal, and `sec` the bytes removed. -/
def State.rxFrm (s : State) (p : Nat) (r : RxSt) (orig : List Byte) (sec : Nat) (held whole : Bool) (wire : List Byte) : Frm :=
  { Frm.blank with
    inPort := p, orig := orig, tail := whole, maxLen := r.maxLen, ctRx := r.ctRx, ctTx := r.ctTx, smdS := r.smdS, sec := sec,
    held := held, arr := r.atTick * 5 / 4, inRx := !whole, tsReq := r.tsReq,
    stamp := if p < 16 then s.stampRec p r.atTick r.frac r.doms r.lat wire else stampHost r.atTick r.doms }

/-- The receive SecY and the lookup of a frame whose first bytes, or all, are `bs`: the state, and the reception while the frame
still arrives (R34, R277): `ahead` more bytes follow, 16 for 16 or more. -/
def State.rxEnter (s : State) (p : Nat) (r : RxSt) (bs : List Byte) (whole : Bool) (ahead : Nat := 16) : State × RxSt :=
  let v := if s.secyRx p then s.secyIn p bs else (s, .pass)
  let s := v.1
  match v.2 with
  | .drop => (s, { r with gone := true, got := bs })
  | .hold sa pn key =>
    let r := { r with hold := some (sa, pn, key), got := bs }
    if whole then (s.setPort p { s.port p with held := (s.port p).held ++ [⟨r, bs⟩] }, r) else (s, r)
  | .pass =>
    let n := s.ingest (s.rxFrm p r bs 0 false whole bs) none
    (n.1, { r with got := bs, frm := some n.2 })
  | .strip len sl =>
    let o := if whole then stripSec len sl bs else stripSeen len sl ahead bs
    let n := s.ingest (s.rxFrm p r o (if whole then bs.length - o.length else len + 16) false whole bs) none
    (n.1, { r with got := bs, frm := some n.2, strip := some (len, sl) })

/-- A pair-link frame (R346). -/
def State.pairRx (s : State) (bs : List Byte) : State :=
  let pay := bs.drop 22
  if bs.length < 22 ∨ bytesAt bs 0 6 ≠ List.replicate 6 0xFF ∨ bytesAt bs 6 6 ≠ List.replicate 6 0 ∨ fieldAt bs 12 2 ≠ 0x88B5
      ∨ fieldAt bs 14 1 ≠ 1 then s.bump .redPlForeign
  else match fieldAt bs 15 1 with
    | 1 => s.pairEcho (fieldAt bs 16 2) (fieldAt bs 18 2) (fieldAt bs 20 1) pay
    | 2 =>
      let fl := byteAt pay 17
      s.statusRx ⟨bytesAt pay 0 16, Role.ofCode (fieldAt pay 16 1), fl.getLsbD 0, fl.getLsbD 1, fl.getLsbD 2,
        fieldAt pay 18 4, bytesAt pay 22 32⟩
    | 3 => s.reboundReq
    | 4 => s.handover
    | 5 => s.pairFresh (fieldAt pay 0 2) (fieldAt pay 2 8)
    | _ => s.bump .redPlForeign

/-- A whole frame is received that has not been looked up: the tests of R41, then the pair link or the pipeline. -/
def State.rxWhole (s : State) (p : Nat) (r : RxSt) (bs : List Byte) (t : RxTail) : State :=
  match rxFault r.maxLen r.past bs t with
  | some c => s.bump c p
  | none => if s.pairOn p then s.pairRx bs else (s.rxEnter p r bs true).1.vbMark

/-- A frame of which the bytes `r.got` have arrived, with more to come: its lookup starts once its 128th byte is among them (R34). -/
def State.rxArrive (s : State) (p : Nat) (pre : Bool) (r : RxSt) (ahead : Nat := 16) : State :=
  if r.got.length < 128 ∨ s.pairOn p then (s.setRx p pre (some r)).marks
  else
    let e := s.rxEnter p r r.got false ahead
    (e.1.setRx p pre (some e.2)).vbMark

/-- The 128th byte or the last byte of a frame has arrived (R34), `bs` since the last command that brought bytes of it. `tail` stands for
the end of a frame of 128 bytes or fewer before its FCS: it is checked first. -/
def State.rxLookup (s : State) (p : Nat) (pre : Bool) (bs : List Byte) (tail : Option RxTail) (ahead : Nat) : State :=
  match (s.port p).reception pre with
  | none => s
  | some r =>
    if r.frm.isSome || r.hold.isSome || r.gone || r.past || decide (128 ≤ r.got.length) then s
    else match tail with
      | some t => (s.setRx p pre none).rxWhole p r (r.got ++ bs) t
      | none => s.rxArrive p pre { r with got := r.got ++ bs } ahead

/-- `ahead`: the bytes that follow before the FCS, 16 for 16 or more. -/
def execRxLookupStart (p : Fin 16) (pre : Bool) (bytes : List Byte) (tail : Option RxTail) (s : State) (ahead : Fin 17 := 16) :
    Host.Outcome State Fault Refusal :=
  .next (s.rxLookup p pre bytes tail ahead)

/-- More bytes of a frame after its lookup: the frame as received and as edited grow alike. -/
def State.growFrm (s : State) (i : Nat) (orig : List Byte) : State :=
  let f := s.frm i
  let n := f.orig.length
  let bytes := if n ≤ orig.length then f.bytes ++ orig.drop n else f.bytes.take (f.bytes.length - (n - orig.length))
  let f' := { f with orig := orig, bytes := bytes }
  let f' := { f' with at_ := f.at_ ++ s.freeCells (cellsOf f'.stored - f.at_.length) }
  ((s.setFrm i f').storeFrm f'.at_ f.stored f'.stored).marks

/-- The bytes of a reception as its frame has them: without the SecTAG and the ICV of a frame that passes unverified. -/
def RxSt.frameBytes (r : RxSt) (got : List Byte) : List Byte := match r.strip with
  | some (len, sl) => stripSec len sl got
  | none => got

/-- More bytes of a frame in reception have arrived: its lookup starts with the 128th (R34), and it is found bad at byte max_len + 1
(R42). -/
def State.rxMore (s : State) (p : Nat) (pre : Bool) (more : List Byte) : State :=
  match (s.port p).reception pre with
  | none => s
  | some r =>
    if r.past || more.isEmpty then s
    else
      let all := r.got ++ more
      let long := decide (r.maxLen < all.length)
      let n := { r with got := all.take r.maxLen, past := long }
      match r.frm with
      | some i =>
        let s := s.setRx p pre (some n)
        let o := r.frameBytes n.got
        let s := if (s.frm i).orig.length ≤ o.length then s.growFrm i o else s.marks
        if long then s.foundBad i else s
      | none => if long || r.hold.isSome || r.gone then (s.setRx p pre (some n)).marks else s.rxArrive p pre n

/-- Byte max_len + 1 arrives (R42): the frame is found bad with at most max_len bytes stored. -/
def State.rxOversize (s : State) (p : Nat) (pre : Bool) (rest : List Byte) : State :=
  match (s.port p).reception pre with
  | none => s
  | some r =>
    if r.past || r.got.length + rest.length < r.maxLen then s
    else
      let got := (r.got ++ rest).take r.maxLen
      let s := s.setRx p pre (some { r with past := true, got := got })
      match r.frm with
      | none => s.marks
      | some i => (s.growFrm i (r.frameBytes got)).foundBad i

def execRxOversizeDetected (p : Fin 16) (pre : Bool) (rest : List Byte) (s : State) : Host.Outcome State Fault Refusal :=
  .next (s.rxOversize p pre rest)

/-! ## The tail -/

/-- max_sdu of the stream of a frame, 0 when there is none. -/
def State.maxSdu (s : State) (f : Frm) : Nat := match f.stream with
  | some k => eb (s.strm f.epoch k) 1 15 0
  | none => 0

/-- The credit that the tail of a frame gives the buckets and octet counts it debited, whatever became of the frame (R189). -/
def State.creditFrm (s : State) (i : Nat) : State :=
  let f := s.frm i
  s.creditTail f ((f.meterLen : Int) + s.lenOvh f.inPort).toNat

/-- The tail of a good frame (R171, R189): credits, the late tests of length, the charges, and the ECHO of R347. A frame that a stage
has dropped is not dropped again. -/
def State.goodTail (s : State) (i : Nat) : State :=
  let s := ((s.setFrm i { s.frm i with tail := true }).creditFrm i).tailCharge i
  let f := s.frm i
  let x := parseEth (s.parseCfgOf f) f.orig
  let m := s.maxSdu f
  let alive := f.begun || f.refs != 0
  if alive ∧ m ≠ 0 ∧ m < f.sdu x then (s.bump .schDropSdu).foundBad i
  else if alive ∧ 9216 < f.len then (s.bump .clsDropPushLen).foundBad i
  else
    let s := s.tailTooLong i
    if s.echoes f then s.sendEcho f else s

/-- The end of reception of a frame record. -/
def State.endRx (s : State) (i : Nat) : State := s.setFrm i { s.frm i with inRx := false }

/-- The tail of a frame is received (R41 to R45). -/
def State.rxEnd (s : State) (p : Nat) (pre : Bool) (rest : List Byte) (t : RxTail) : State :=
  match (s.port p).reception pre with
  | none => s
  | some r =>
    let whole := r.got ++ rest
    let s := s.setRx p pre none
    let fault := rxFault r.maxLen r.past whole t
    let s := s.bumpIf (decide (0 < r.frags) && fault.isNone) .tgaRxAssyOk p
    match r.frm with
    | none =>
      if r.gone then
        match fault with
        | some c => s.bump c p
        | none => s
      else if r.hold.isSome then
        match fault with
        | some c => s.bump c p
        | none => s.setPort p { s.port p with held := (s.port p).held ++ [⟨r, whole⟩] } |>.vbMark
      else s.rxWhole p r whole t
    | some i =>
      let o := r.frameBytes (whole.take r.maxLen)
      let s := if r.past then s else s.growFrm i o
      let s := s.setFrm i { s.frm i with sec := if r.strip.isSome then (whole.take r.maxLen).length - o.length else 0 }
      match fault with
      | some c => ((((s.bump c p).creditFrm i).tailCharge i).foundBad i).endRx i
      | none => (s.goodTail i).endRx i

def execRxFrameEnd (p : Fin 16) (pre : Bool) (rest : List Byte) (tail : RxTail) (s : State) : Host.Outcome State Fault Refusal :=
  .next (s.rxEnd p pre rest tail)

/-- A reception ends in a receive error: loss of link, or a broken sequence of fragments (R41). `rest` are its bytes that had arrived
by then. -/
def State.rxBroken (s : State) (p : Nat) (pre : Bool) (rest : List Byte) : State := s.rxEnd p pre rest ⟨true, 0⟩

/-- The reassembly of a port fails (R241): its frame has a receive error. -/
def State.assyErr (s : State) (p : Nat) : State := (s.bump .tgaRxAssyErr p).rxBroken p true []

/-- A start delimiter arrives at a port P0 to P15 (R41, R47). A frame that is still in reception there has lost its end: it has a
receive error, and a reassembly lacks its final fragment (R241). -/
def State.rxStart (s : State) (p frac : Nat) (smdS : Bool) : State :=
  let s := if ((s.port p).reception smdS).isNone then s
    else if smdS then s.assyErr p else s.rxBroken p false []
  s.setRx p smdS (some ⟨s.tim.lt, frac, s.domVals, s.latency p false, s.fld F.macMaxFrame_max_len p, s.on F.macFwdCtrl_ct_rx_en p,
    s.ctTxMap, smdS, none, [], none, none, false, false, 0, false⟩)

def execRxFrameStart (p : Fin 16) (frac : Fin 8) (smdS : Bool) (s : State) : Host.Outcome State Fault Refusal :=
  .next (if !s.forwards || !s.linkUp p || (smdS && !s.on F.tgaPreemptCfg_en p) then s else s.rxStart p frac smdS)

/-- A fragment of a preempted frame (R241). -/
def State.rxFragment (s : State) (p : Nat) (g : RxFrag) : State :=
  if !s.on F.tgaPreemptCfg_en p then s
  else match g with
    | .unknownSmd => s.bump .tgaRxSmdErr p
    | .first bytes => s.rxMore p true bytes
    | .firstBad => if (s.port p).rxp.isSome then s.assyErr p else s
    | .cont count bytes good =>
      let s := s.bump .tgaRxFrags p
      match (s.port p).rxp with
      | none => s
      | some r =>
        if count.val ≠ r.frags % 4 ∨ !good then s.assyErr p
        else (s.setRx p true (some { r with frags := r.frags + 1 })).rxMore p true bytes

def execRxContinuationFragment (p : Fin 16) (frag : RxFrag) (s : State) : Host.Outcome State Fault Refusal :=
  .next (if s.linkUp p then s.rxFragment p frag else s)

/-! ## The verify hold (R39, R40) -/

/-- The ICV check of the oldest held frame of a port completes. `addr` and `upset` tell of a word of the verify buffer that the
check reads in error (R279). -/
def State.icvDone (s : State) (p addr : Nat) (u : Upset) : State :=
  match (s.port p).held with
  | [] => s
  | h :: t =>
    let s := s.setPort p { s.port p with held := t }
    let m := s.memRead 1 0 addr u 0
    if m.2 then (m.1.memWrite 1 0 addr).bump .cipVbPoison
    else match h.rx.hold with
      | none => m.1
      | some (sa, pn, key) =>
        let c := m.1.secyCheck p sa pn key h.bytes
        match c.2 with
        | none => c.1
        | some o => (c.1.ingest (c.1.rxFrm p h.rx o (h.bytes.length - o.length) true true h.bytes) none).1

def execMacsecIcvCheckDone (p : Fin 18) (addr : BitVec 24) (upset : Upset) (s : State) : Host.Outcome State Fault Refusal :=
  .next (if s.fabricOn then s.icvDone p addr.toNat upset else s)

/-! ## Frames of the control pair and of the host -/

/-- A frame enters whole from P16 or P17, without FCS. -/
def State.rxInside (s : State) (p : Nat) (tsReq : Bool) (bs : List Byte) : State :=
  let r : RxSt := ⟨s.tim.lt, 0, s.domVals, 0, s.fld F.macMaxFrame_max_len p, s.on F.macFwdCtrl_ct_rx_en p, s.ctTxMap, false, none, [],
    none, none, false, false, 0, tsReq⟩
  match rxFault r.maxLen false bs ⟨false, BitVec.ofNat 32 (crc32 bs)⟩ with
  | some c => s.bump c p
  | none =>
    (s.rxEnter p r bs true).1.vbMark

/-- The control pair hands a frame to the switch through P17; halted cores send nothing (R335). -/
def execControlPortFrameIn (tsReq : Bool) (bytes : List Byte) (s : State) : Host.Outcome State Fault Refusal :=
  .next (if s.forwards && !s.pair.halted then s.rxInside 17 tsReq bytes else s)

/-- The `n` descriptors of a transmit frame are written back, the last with its status, and the head passes them (R440, R441). -/
def State.txDone (s : State) (r n status : Nat) : State :=
  let h := s.fld F.hbrTxRingHead_head r
  let m := 2 ^ s.fld F.hbrTxRingCfg_size_log r
  let s := (List.range n).foldl (fun s i => s.emit (.txDesc r ((h + i) % m) (if i + 1 = n then some status else none))) s
  (s.ringAdvance false r n).raise (Ev.dmaTx r)

/-- The highest transmit ring that runs and holds a descriptor (R441). -/
def State.topRing (s : State) : Option Nat :=
  [7, 6, 5, 4, 3, 2, 1, 0].find? fun r => s.ringRuns false r && decide (0 < s.ringAvail false r)

/-- The fetch of a transmit frame completes (R441): its `ndesc` descriptors are written back, and the frame enters P16. A poisoned
fetch is a DMA error (R443). Fetches complete in any order among the rings; while P16 is down nothing is fetched, and the frames are taken
from the highest ring first (assumption 93). -/
def State.dmaTx (s : State) (r ndesc : Nat) (tsReq : Bool) (bs : List Byte) (poisoned : Bool) : State :=
  if !s.ringRuns false r || ndesc == 0 || decide (s.ringAvail false r < ndesc) || !s.forwards then s
  else
    let done (s : State) (st : Nat) : State := s.txDone r ndesc st
    if !s.linkUp 16 then if s.topRing = some r then done (s.bump .macDropRxerr 16) 5 else s
    else if poisoned then ((done s 4).stopRing false r |>.bump .hbrDmaErr).raise Ev.dmaErr
    else
      let len := bs.length + 4
      if s.fld F.macMaxFrame_max_len 16 < len then done (s.bump .macDropOversize 16) 2
      else if len < 64 then done (s.bump .macDropRunt 16) 1
      else done (s.rxInside 16 tsReq bs) 0

def execDmaTxFetchDone (r : Fin 8) (ndesc : BitVec 12) (tsReq : Bool) (bytes : List Byte) (poisoned : Bool) (s : State) :
    Host.Outcome State Fault Refusal :=
  .next (s.dmaTx r ndesc.toNat tsReq bytes poisoned)

end Sys2Proof.Machine
end

