-- ==== Sys2Proof/Machine/Sched.lean ====
section
/-! DEFINITION. Whether a copy may start and which copy is granted: the gate tests (R232 to R234), shapers (R182 to R185),
eligibility (R180), selection (R181, R187), and the registers of limits, high-water marks and shapers (R175, R177, R183). -/

namespace Sys2Proof.Machine

open Sys2Proof

/-! ## Lengths of copies -/

/-- The MACsec bytes that a port adds to a copy (R178). -/
def State.macsecAdd (s : State) (p : Nat) (bs : List Byte) : Nat :=
  if s.secyTx p && !s.secBypass p bs then s.txTagLen p + 16 else 0

/-- The start length of a copy (R233). -/
def State.startLen (s : State) (c : Copy) : Int :=
  let f := s.frm c.frm
  let bs := s.copyBytes f c.xf
  let o := s.lenOvh c.port
  let guard : Nat := if s.secyTx c.port then 32 else 0
  if f.tail then (s.copyLen f c.xf + s.macsecAdd c.port bs : Nat) + o
  else
    let m := match f.stream with
      | some k => eb (s.strm f.epoch k) 1 15 0
      | none => 0
    if m ≠ 0 then
      let x := s.parseCfg f.inPort
      (m + 18 + 4 * tagCount x bs + (if (rtagOff x bs).isSome then 6 else 0) + guard : Nat) + o
    else (s.qMaxFrame c.q c.port + guard : Nat) + o

/-! ## The gate (R232, R234) -/

/-- One ns in the units of a domain clock. -/
def nsUnit : Int := 2 ^ 48

/-- How far before a time in ns the end of `len` bytes at a rate in kbit/s falls that start at a domain value; the unit is that of
the product of a domain clock and a rate. -/
def slack (val : Nat) (len rate : Int) (close : Int) : Int :=
  close * nsUnit * rate - ((val : Int) * rate + len * 8000000 * nsUnit)

/-- The preemptable classes of a port with active preemption, as a set. -/
def State.preemptable (s : State) (p : Nat) : Nat := 255 - s.fld F.tgaPreemptCfg_express_mask p

/-- The bytes of H (R234). -/
def State.holdBytes (s : State) (p : Nat) : Nat := 147 + 64 * s.fld F.tgaPreemptCfg_add_frag_size p

/-- How a head copy stands to the gate of its class: closed, deferred before a closing, free to start, or free to start under
R234. -/
inductive GateTest where
  | shut
  | defer (close : Int)
  | pass
  | under
  deriving DecidableEq, Repr

/-- The domain value that the windows of a port are held against. -/
def State.tideVal (s : State) (p : Nat) : Nat := (s.dom (s.tide p).dom).val

/-- The test of R232 and R234. -/
def State.gateTest (s : State) (c : Copy) : GateTest :=
  let p := c.port
  if 16 ≤ p then .pass
  else
    let v := s.tideView p
    let val := s.tideVal p
    let now : Int := (val / 2 ^ 48 : Nat)
    if !gateBit (v.at now).gates c.cls then .shut
    else match v.closing c.cls now with
      | none => .pass
      | some t =>
        if 0 ≤ slack val (s.startLen c) (s.operRate p) t then .pass
        else
          let pre := s.preemptable p
          let after := v.first (fun g => (List.range 8).any fun k => gateBit g k && gateBit pre k) v.fuel t
          if !s.express p c.cls && decide (0 < slack val (s.holdBytes p) (s.operRate p) t)
              && after.any fun w => gateBit w.gates c.cls
          then .under else .defer t

/-- The domain time of a port in whole ns. -/
def State.tideNow (s : State) (p : Nat) : Int := (s.tideVal p / 2 ^ 48 : Nat)

/-- A gate of a class that was open at a time has not closed since: it has not opened anew. -/
def State.sameOpening (s : State) (p c : Nat) (since : Int) : Bool :=
  ((s.tideView p).closing c since).any fun e => decide (s.tideNow p < e)

/-- A head copy has been deferred before a closing, and its gate has not opened again (R232). -/
def State.deferred (s : State) (c : Copy) : Bool :=
  (s.port c.port).defer.any fun d => d.1 == c.frm * 2048 + c.q && s.sameOpening c.port c.cls d.2.1

/-- The gate of a class of a port is open now. -/
def State.gateOpen (s : State) (p c : Nat) : Bool :=
  decide (16 ≤ p) || gateBit ((s.tideView p).at ((s.tideVal p / 2 ^ 48 : Nat) : Int)).gates c

/-! ## Token buckets and credits -/

/-- The bucket of a queue is enabled: key 0 to 143 a class queue, 144 + k stream shaper k. -/
def State.tbOn (s : State) (q : Nat) : Bool := s.qFld q F.schTbRate_en F.schSTbRate_en == 1

/-- The depth of a bucket in units. -/
def State.tbFull (s : State) (q : Nat) : Int := s.qFld q F.schTbDepth_depth F.schSTbDepth_depth * unitB

/-- The level of a bucket in units; a bucket that is not listed, or disabled, is full (R182). -/
def State.tbLevel (s : State) (q : Nat) : Int := (tblFind s.net.levels q).getD (s.tbFull q)

/-- Set the level of a bucket, clamped at its depth. -/
def State.setLevel (s : State) (q : Nat) (l : Int) : State :=
  { s with net := { s.net with levels := tblSet s.net.levels (s.tbFull q) q (min l (s.tbFull q)) } }

/-- Debit a bucket, when it is enabled, by a number of bytes (R182). -/
def State.tbDebit (s : State) (q : Nat) (n : Int) : State :=
  if s.tbOn q then (s.setLevel q (s.tbLevel q - n * unitB)).memWrite 14 0 (stateWord (2048 + q)) else s

/-- The credit of a class, by class queue (R185). -/
def State.credit (s : State) (q : Nat) : Int := tblGet s.net.credit 0 q

/-- Set the credit of a class. -/
def State.setCredit (s : State) (q : Nat) (v : Int) : State :=
  { s with net := { s.net with credit := tblSet s.net.credit 0 q v } }

/-- The shaper state of a queue is read for the copy that is granted: true when it is poisoned; the copy is then dropped, the bucket
starts full and the credit at zero. DESIGN CHOICE (entry 74). -/
def State.shaperRead (s : State) (q : Nat) : State × Bool :=
  let a := if s.tbOn q then s.stateRead (2048 + q) else (s, false)
  let s := if a.2 then { a.1 with net := { a.1.net with levels := tblDel a.1.net.levels q } } else a.1
  let b := if decide (q < 144) && s.on F.schCbsSlope_en q then s.stateRead (3216 + q) else (s, false)
  (if b.2 then b.1.setCredit q 0 else b.1, a.2 || b.2)

/-! ## Eligibility (R180) -/

/-- A fence holds a copy back (R56). -/
def State.fencedCopy (s : State) (c : Copy) : Bool :=
  s.net.fences.any fun x => x.port == c.port && x.epoch == c.epoch && (s.waitingAt c.port).any fun y => y.epoch != c.epoch

/-- The receive ring of a P16 copy can take it (R442). -/
def State.ringReady (s : State) (c : Copy) : Bool :=
  c.port != 16 || (s.ringRuns true c.cls && decide (0 < s.ringAvail true c.cls))

/-- Shapers let a queue be served. -/
def State.shaped (s : State) (c : Copy) : Bool :=
  let q := 8 * c.port + c.cls
  decide (0 ≤ s.tbLevel q) && (c.q < 144 || decide (0 ≤ s.tbLevel c.q)) &&
    (!s.on F.schCbsSlope_en q || decide (0 ≤ s.credit q))

/-- A head copy is eligible. -/
def State.eligibleCopy (s : State) (c : Copy) : Bool :=
  let f := s.frm c.frm
  (c.ct || (f.tail && !f.bad)) && s.shaped c && s.ringReady c && !s.fencedCopy c && !s.deferred c &&
    match s.gateTest c with
    | .pass => true
    | .under => true
    | _ => false

/-- The head copies of the queues of a port. -/
def State.heads (s : State) (p : Nat) : List Copy :=
  s.net.queues.filterMap fun x => match x.2 with
    | c :: _ => if c.port = p then some c else none
    | [] => none

/-! ## Selection (R181) -/

/-- The better of a current choice and a candidate. -/
def better (b : Copy → Copy → Bool) (l : List Copy) : Option Copy :=
  l.foldl (fun o c => match o with
    | none => some c
    | some d => if b c d then some c else some d) none

/-- The eligible best-effort queues that are urgent. -/
def State.urgents (s : State) (p : Nat) (l : List Copy) : List Copy :=
  l.filter fun c => s.bestEffort p c.q c.cls && (s.qs c.q).urgent

/-- The grant goes to an urgent queue: one is eligible, and no protected queue is (R181, R188). -/
def State.urgentTurn (s : State) (p : Nat) (l : List Copy) : Bool :=
  !(s.urgents p l).isEmpty && l.all fun c => s.bestEffort p c.q c.cls

/-- The copy that the scheduler grants among eligible head copies of a port. -/
def State.select (s : State) (p : Nat) (l : List Copy) : Option Copy :=
  if s.urgentTurn p l then
    better (fun a b => let x := (s.qs a.q).urgAt; let y := (s.qs b.q).urgAt
      decide (x < y) || (x == y && decide (b.cls < a.cls))) (s.urgents p l)
  else
    let grp := fun c : Copy => s.inGroup p c.cls
    let l := l.filter fun c => !grp c || decide (c.q < 144)
    let rank := fun c : Copy => if grp c then s.fld F.schPortCfg_wfq_hi p else c.cls
    better (fun a b =>
      if rank a ≠ rank b then decide (rank b < rank a)
      else if grp a && grp b then
        let d := signed 32 ((s.qs a.q).s + 4294967296 - (s.qs b.q).s)
        decide (d < 0) || (d == 0 && decide (b.cls < a.cls))
      else if (144 ≤ a.q) ≠ (144 ≤ b.q) then decide (144 ≤ a.q)
      else decide (a.q < b.q)) l

/-! ## Registers -/

/-- A write of the limit and the reserved cells of queue `q` (R175); a lower min raises shared_used (R177). -/
def State.wrQLim (s : State) (q : Nat) (data : Word) : State :=
  let r := qReg q .qmgQLim .qmgSLim
  let mn := F.qmgQLim_min.of data
  if 65536 < s.sumMin - s.qMin q + mn + 512 + s.fld F.skyCellLim_limit then s.accessErr .qmg
  else (s.writeReg r.1 r.2 data).marks

/-- A write of SKY_CELL_LIM (R175). -/
def State.wrSkyCellLim (s : State) (data : Word) : State :=
  if 65536 < s.sumMin + 512 + F.skyCellLim_limit.of data then s.accessErr .sky else s.writeReg .skyCellLim 0 data

/-- A write of a high-water register (R177). -/
def State.wrHwm (s : State) (r : HwmReg) (p : Nat) : State := match r with
  | .pool => s.setFld F.qmgPoolHwm_hwm 0 s.poolUsed
  | .shared => s.setFld F.qmgSharedHwm_hwm 0 s.sharedUsed
  | .port => s.setFld F.qmgPortHwm_hwm p (s.occPort p)

def execHwmWrite (path : Path) (which : HwmReg) (p : Fin 18) (data : Word) (s : State) : Host.Outcome State Fault Refusal :=
  let a := match which with
    | .pool => (Reg.qmgPoolHwm, 0)
    | .shared => (Reg.qmgSharedHwm, 0)
    | .port => (Reg.qmgPortHwm, p.val)
  .next (s.accessReg path a.1 a.2 data fun s => s.wrHwm which p)

/-- A write of a bucket's rate (R183): enabling starts it full. -/
def State.wrTbRate (s : State) (q : Nat) (data : Word) : State :=
  let was := s.tbOn q
  let r := qReg q .schTbRate .schSTbRate
  let s := s.writeReg r.1 r.2 data
  if was && s.tbOn q then s else s.setLevel q (s.tbFull q)

/-- A write of a bucket's depth (R183): a level above it is clamped. -/
def State.wrTbDepth (s : State) (q : Nat) (data : Word) : State :=
  let l := s.tbLevel q
  let r := qReg q .schTbDepth .schSTbDepth
  let s := s.writeReg r.1 r.2 data
  s.setLevel q (if s.tbOn q then l else s.tbFull q)

/-- A write of SCH_CBS_HI (R185): the credit is clamped at the new value, whatever the class does then. -/
def State.wrCbsHi (s : State) (q : Nat) (data : Word) : State :=
  let s := s.writeReg .schCbsHi q data
  s.setCredit q (min (s.fld F.schCbsHi_hi_credit q * unitB) (s.credit q))

/-- A write of SCH_CBS_SLOPE (R185): a change of the slope keeps the credit. The spec says nothing of the credit when the shaper is enabled
or disabled: it is set to 0 (entry 90, DESIGN CHOICE). -/
def State.wrCbsSlope (s : State) (q : Nat) (data : Word) : State :=
  let was := s.on F.schCbsSlope_en q
  let s := s.writeReg .schCbsSlope q data
  if was && s.on F.schCbsSlope_en q then s else s.setCredit q 0

def execShaperRateWrite (path : Path) (q : Fin 1168) (data : Word) (s : State) : Host.Outcome State Fault Refusal :=
  let r := qReg q .schTbRate .schSTbRate
  .next (s.accessReg path r.1 r.2 data fun s => s.wrTbRate q data)

def execShaperDepthWrite (path : Path) (q : Fin 1168) (data : Word) (s : State) : Host.Outcome State Fault Refusal :=
  let r := qReg q .schTbDepth .schSTbDepth
  .next (s.accessReg path r.1 r.2 data fun s => s.wrTbDepth q data)

def execCbsSlopeWrite (path : Path) (q : Fin 144) (data : Word) (s : State) : Host.Outcome State Fault Refusal :=
  .next (s.accessReg path .schCbsSlope q data fun s => s.wrCbsSlope q data)

/-- A write of SCH_PORT_CFG: a length overhead out of range, or a group upside down, is ignored. -/
def State.wrSchPortCfg (s : State) (p : Nat) (data : Word) : State :=
  let o := signed 8 (F.schPortCfg_len_ovh.of data)
  if o < -32 ∨ 63 < o ∨ F.schPortCfg_wfq_hi.of data < F.schPortCfg_wfq_lo.of data then s.accessErr .sch
  else s.writeReg .schPortCfg p data

/-- A write of SCH_MAXWAIT (R188): 0 disables the guard of the queue, which is urgent no more. -/
def State.wrMaxwait (s : State) (q : Nat) (data : Word) : State :=
  let s := s.writeReg .schMaxwait q data
  if s.fld F.schMaxwait_max_wait_us q = 0 then s.setQs q { s.qs q with timer := 0, urgent := false } else s

/-- The starvation timer of a queue has reached max_wait_us: it becomes urgent (R188). -/
def State.starve (s : State) (q : Nat) : State :=
  let w := s.fld F.schMaxwait_max_wait_us q
  if w ≠ 0 ∧ tkUs w ≤ (s.qs q).timer ∧ !(s.qs q).urgent then s.setQs q { s.qs q with urgent := true, urgAt := s.tim.lt } else s

def execStarvationTimeout (q : Fin 144) (s : State) : Host.Outcome State Fault Refusal := .next (s.starve q)

/-! ## One tick -/

/-- One tick of the enabled buckets (R182). -/
def State.tickBuckets (s : State) : State :=
  s.net.levels.foldl (fun s x => s.setLevel x.1 (x.2 + s.qFld x.1 F.schTbRate_rate_kbps F.schSTbRate_rate_kbps)) s

/-- A class of a port has bytes of its own on the wire. -/
def PortSt.onWire (x : PortSt) (c : Nat) : Bool :=
  (x.pre.any fun t => !t.paused && t.cp.cls == c) || ((x.pre.all TxCopy.paused) && x.exp.any fun t => t.cp.cls == c)

/-- One tick of the credit of class queue `q` (R185). A closed gate freezes the credit also where no copy waits and it is positive (entry 90,
DESIGN CHOICE: both sentences of R185 apply). -/
def State.tickCredit (s : State) (q : Nat) : State :=
  let p := q / 8
  let c := q % 8
  let waits := (s.waitingAt p).any (fun k => k.cls == c) || (s.port p).pre.any fun t => t.paused && t.cp.cls == c
  let v := s.credit q
  let idle := s.fld F.schCbsSlope_idle_kbps q
  if !s.gateOpen p c then s
  else if (s.port p).onWire c then
    let v := if !waits && decide (0 < v) then 0 else v
    s.setCredit q (min (s.fld F.schCbsHi_hi_credit q * unitB) (v + idle - s.operRate p))
  else if waits then s.setCredit q (min (s.fld F.schCbsHi_hi_credit q * unitB) (v + idle))
  else if 0 < v then s.setCredit q 0
  else s

/-- The class queues with a credit-based shaper. -/
def State.cbsQueues (s : State) : List Nat :=
  s.regs.filterMap fun x =>
    if x.1 % 512 = Reg.schCbsSlope.ctorIdx ∧ getBit x.2 31 then some (x.1 / 512) else none

/-- One tick of the starvation timers (R188): they run while a queue is eligible and not granted. -/
def State.tickStarve (s : State) : State :=
  s.net.queues.foldl (fun s x => match x.2 with
    | c :: _ =>
      if x.1 < 144 ∧ s.on F.schMaxwait_max_wait_us x.1 ∧ !(s.qs x.1).urgent ∧ s.bestEffort c.port c.q c.cls ∧ s.eligibleCopy c
      then s.setQs x.1 { s.qs x.1 with timer := (s.qs x.1).timer + 1 } else s
    | [] => s) s

/-- One tick of the meters (R192). -/
def State.tickMeters (s : State) : State :=
  s.net.meters.foldl (fun s x => s.setMtr x.1
    (mtrTick (s.on F.mtrCtrl_mode x.1) (s.fld F.mtrCir_cir x.1) (s.fld F.mtrPir_pir x.1) (s.mtrFull x.1) x.2)) s

/-- One tick of everything that fills or waits at the outputs. -/
def State.tickSched (s : State) : State :=
  let s := s.tickBuckets.tickMeters
  let s := s.cbsQueues.foldl State.tickCredit s
  s.tickStarve

end Sys2Proof.Machine
end

