-- ==== Sys2Proof/Machine/Tx.lean ====
section
/-! DEFINITION. Transmission: grants (R180, R181, R240), the end of a copy (R44, R178, R182, R187, R208, R235), fragments and holds
(R234, R239), and what reads in error do to a copy (R369, R370). -/

namespace Sys2Proof.Machine

open Sys2Proof

/-! ## Deferred copies (R232) -/

/-- Count the head copies that are deferred before a closing, once each. -/
def State.countDefers (s : State) (p : Nat) : State :=
  (s.heads p).foldl (fun s c => match s.gateTest c with
    | .defer t =>
      let key := c.frm * 2048 + c.q
      let l := (s.port p).defer
      if l.any fun d => d.1 == key && d.2.2 == t then s
      else (s.setPort p { s.port p with defer := (key, s.tideNow p, t) :: l.filter fun d => d.1 != key }).bump .tgaDeferFit p
    | _ => s) s

/-- A copy that leaves its queue is deferred no more. -/
def State.undefer (s : State) (c : Copy) : State :=
  let x := s.port c.port
  s.setPort c.port { x with defer := x.defer.filter fun d => d.1 != c.frm * 2048 + c.q }

/-! ## Reads in error (R369, R370) -/

/-- Every copy of a frame not yet begun is dropped, and counted, and the frame is bad (R369). -/
def State.poisonFrame (s : State) (i : Nat) : State :=
  let n := (s.net.queues.flatMap fun x => x.2.filter fun c => c.frm == i).length
  (s.bumpBy .memPoisonDrop 0 n).foundBad i

/-- A cell of a frame in transmission is poisoned: its copies on the wire end at the first byte of the cell (R44, R369). -/
def State.poisonSent (s : State) (i idx : Nat) : State :=
  (s.mapTx fun t => if t.cp.frm = i ∧ t.stomp.isNone then { t with stomp := some (256 * idx) } else t)
    |>.poisonFrame i

/-- A queue descriptor is poisoned (R370): the queue's copies from its head are dropped, and its charge becomes zero. Their cells stay
in use until the cell audit. -/
def State.queueReset (s : State) (q : Nat) : State :=
  let n := (s.queue q).length
  let s := (((s.setQueue q []).emptied q).fenceSweep).bumpBy .memQResetDrop 0 n
  (s.mapTx fun t => if t.cp.q = q then { t with cp := { t.cp with k := 0 } } else t).raise Ev.queueReset

/-- The references to a frame from queues, transmitters, the Skerry array and the Harbour. -/
def State.holders (s : State) (i : Nat) : Nat :=
  (s.copies.filter fun c => c.frm == i).length
    + ((s.net.sky.flatMap fun x => x.2.norm ++ x.2.resv ++ x.2.threads.map fun t => t.2.d).filter fun d => d.frm == i).length
    + ((s.net.slots.flatMap fun x => x.2.st.outs).filter fun o => o.frm == i).length

/-- The cell audit (R370): what no holder owns returns to the free pool. -/
def State.cellAudit (s : State) : State :=
  s.net.frames.foldl (fun s x => s.setFrm x.1 { x.2 with refs := s.holders x.1 }) s

def execCellAudit (s : State) : Host.Outcome State Fault Refusal := .next (if s.fabricOn then s.cellAudit else s)

/-! ## A grant -/

/-- Take the head copy of a queue; `urg`: it is granted as an urgent queue (R188). -/
def State.popHead (s : State) (c : Copy) (urg : Bool) : State :=
  let s := (s.setQueue c.q ((s.queue c.q).drop 1)).undefer c
  let s := s.bumpIf urg .schUrgentGrant
  let s := if c.q < 144 then s.setQs c.q { s.qs c.q with timer := 0, urgent := (s.qs c.q).urgent && !urg } else s
  let s := if c.q < 144 ∧ s.inGroup c.port c.cls then
      { s with net := { s.net with vtime := tblSet s.net.vtime 0 c.port (s.qs c.q).s } } else s
  s.fenceSweep

/-- Eighths of a tick that the preamble and the start delimiter of a frame take at a port. -/
def State.preamble (s : State) (p : Nat) : Nat := 8 * 8 * 6400000 / s.operRate p

/-- The timestamp point of a copy lies `n` eighths of a tick ahead: it is taken in the tick that holds it (R204, R205). -/
def State.aim (s : State) (t : TxCopy) (n : Nat) : TxCopy :=
  if n < 8 then { t with atTick := s.tim.lt, frac := n, doms := s.domVals, lat := s.latency t.cp.port true, due := none }
  else { t with due := some n }

/-- One tick brings the timestamp points of the copies in transmission nearer. -/
def State.tickPoints (s : State) : State :=
  s.mapTx fun t => match t.due with
    | some n => s.aim t (n - 8)
    | none => t

/-- A copy begins: the egress SecY, the frame's mark, and the place in its MAC (R280, R240). Its preamble starts at the tick of its
grant. -/
def State.begin_ (s : State) (c : Copy) (urg : Bool) (frac : Nat) : State :=
  let p := c.port
  let f := s.frm c.frm
  let under := s.gateTest c == .under
  let s := s.popHead c urg
  let bs := s.copyBytes f c.xf
  let sec := if f.leg.isSome then (s, SecTx.clear) else s.secyOut p bs (if f.tail then some (s.copyLen f c.xf) else none)
  let s := sec.1
  match sec.2 with
  | .drop => s.dropRef c.frm
  | v =>
    let pn := match v with
      | .protect pn sa => some (pn, sa, s.sak sa)
      | _ => none
    let first := c.ct && !f.ctDone
    let s := s.bumpIf first .macRxCtFrames f.inPort
    let s := s.setFrm c.frm { s.frm c.frm with begun := true, ctDone := f.ctDone || c.ct }
    let t := s.aim ⟨c, s.tim.lt, frac, s.domVals, 0, none, under, none, false, s.tim.lt, 0, 0, false, none, none, pn, 0⟩ (frac + s.preamble p)
    let x := s.port p
    s.setPort p (if s.express p c.cls then { x with exp := some t } else { x with pre := some t })

/-- The copy that P16 writes through a receive ring has not begun its first buffer. -/
def State.rxSop (s : State) (r : Nat) : Bool :=
  ((s.port 16).exp.toList ++ (s.port 16).pre.toList).all fun t => t.cp.cls != r || t.sent == 0

/-- A DMA access ends in error or timeout (R443): a status that can still be written back is, with the event of the ring (R440). -/
def execDmaError (rx : Bool) (r : Fin 8) (writable : Bool) (s : State) : Host.Outcome State Fault Refusal :=
  .next (if !s.ringRuns rx r then s
    else
      let s := if writable then
          if rx then (s.emit (.rxDesc r (s.fld F.hbrRxRingHead_head r) (s.rxSop r) true 3 0)).raise (Ev.dmaRx r)
          else (s.emit (.txDesc r (s.fld F.hbrTxRingHead_head r) (some 3))).raise (Ev.dmaTx r)
        else s
      ((s.stopRing rx r).bump .hbrDmaErr).raise Ev.dmaErr)

/-- A descriptor of the receive ring of a copy returns with error status, and no frame is delivered (R369). -/
def State.hostError (s : State) (c : Copy) : State :=
  ((s.emit (.rxDesc c.cls (s.fld F.hbrRxRingHead_head c.cls) (s.rxSop c.cls) true 4 0)).ringAdvance true c.cls 1).raise (Ev.dmaRx c.cls)

/-- Cell `idx` of the frame of a copy that is granted is poisoned (R369): a copy that has begun by then, a cut-through copy among them, is
stomped at the first byte of the cell. -/
def State.poisonGrant (s : State) (c : Copy) (urg : Bool) (frac idx : Nat) : State :=
  if c.port = 17 then (s.dropWaiting none (· == c)).bump .memPoisonDrop
  else if c.port = 16 then ((s.hostError c).dropWaiting none (· == c)).bump .memPoisonDrop
  else if idx = 0 then s.poisonFrame c.frm
  else (s.begin_ c urg frac).poisonSent c.frm idx

/-- The scheduler grants a copy whose first read is `rd`. -/
def State.grant (s : State) (c : Copy) (urg : Bool) (frac : Nat) (rd : TxRead) : State :=
  let sh := s.shaperRead c.q
  let s := sh.1
  if sh.2 then s.dropWaiting none (· == c)
  else match rd with
  | .clean =>
    let m := s.frameRead c.frm
    match m.2 with
    | none => m.1.begin_ c urg frac
    | some k => m.1.poisonGrant c urg frac k
  | .desc a u =>
    let m := s.memRead 2 0 a.toNat u 0
    if m.2 then (m.1.memWrite 2 0 a.toNat).queueReset c.q else m.1.begin_ c urg frac
  | .cell idx a u =>
    let m := s.memRead 0 0 a.toNat u 0
    if m.2 then m.1.poisonGrant c urg frac idx else m.1.begin_ c urg frac

/-- A preemptable copy resumes (R240). -/
def State.resume (s : State) (p : Nat) (t : TxCopy) : State :=
  let t := { t with paused := false, cut := none, hold := none, fragAt := s.tim.lt, frags := t.frags + 1 }
  (s.setPort p { s.port p with pre := some t }).bump .tgaTxFrags p

/-- Bytes of the fragment on the wire that a copy has sent at this tick, preamble and start delimiter excluded. -/
def State.fragSent (s : State) (p : Nat) (t : TxCopy) : Nat := (s.tim.lt - t.fragAt) * s.operRate p / 6400000 - 8

/-- A preemption request or a hold reaches the preemptable MAC. -/
def State.cutPre (s : State) (p : Nat) : State :=
  s.setPort p { s.port p with pre := (s.port p).pre.map fun t => { t with cut := some (s.fragSent p t) } }

/-- The time H before the next closing of a class at a port has come (R234). -/
def State.holdDue (s : State) (p c : Nat) : Bool :=
  ((s.tideView p).closing c (s.tideNow p)).any fun e => decide (slack (s.tideVal p) (s.holdBytes p) (s.operRate p) e ≤ 0)

/-- A paused copy may resume: its gate is open, no hold keeps it until its gate next opens, and a copy that started under R234 has
more than H before the closing. -/
def State.mayResume (s : State) (p : Nat) (t : TxCopy) : Bool :=
  s.gateOpen p t.cp.cls && !(t.hold.any fun h => s.sameOpening p t.cp.cls h) && !(t.under && s.holdDue p t.cp.cls)

/-- A transmission opportunity (R181, R240). While preemption is not active, nothing is cut (R238). -/
def State.opportunity (s : State) (p frac : Nat) (rd : TxRead) : State :=
  let s := s.countDefers p
  let x := s.port p
  let busy := x.pre.any fun t => !t.paused
  if x.exp.isSome || (busy && !x.ver.active) then s
  else
    let l := (s.heads p).filter s.eligibleCopy
    let exp := l.filter fun c => s.express p c.cls
    match s.select p exp with
    | some c =>
      let urg := s.urgentTurn p exp
      let s := if busy && (x.pre.all fun t => t.cut.isNone) then (s.cutPre p).bump .tgaTxPreempt p else s
      s.grant c urg frac rd
    | none => match x.pre with
      | some t => if t.paused && s.mayResume p t then s.resume p t else s
      | none =>
        let pre := l.filter fun c => !s.express p c.cls
        match s.select p pre with
        | some c => s.grant c (s.urgentTurn p pre) frac rd
        | none => s

/-- A frame is being received on the half-duplex segment of P12 or P13: no copy starts (R266). -/
def State.segBusy (s : State) (p : Nat) : Bool := (p == 12 || p == 13) && (s.port p).rx.isSome

/-- An opportunity at a port that is up, while the device may transmit (R26, R336) and the segment is free. The pair port carries pair-link
frames only (R346). -/
def execTxOpportunity (p : Fin 18) (frac : Fin 8) (rd : TxRead) (s : State) : Host.Outcome State Fault Refusal :=
  .next (if s.forwards && s.linkUp p && !s.quiet && !s.pairOn p && !s.plcaHeld p && !s.segBusy p then s.opportunity p frac rd else s)

/-! ## The end of a copy -/

/-- The first `n` stored bytes of a frame as a copy carries them. -/
def State.copyPrefix (s : State) (f : Frm) (x : Xf) (n : Nat) : List Byte :=
  let b := s.copyBytes f x
  b.take (b.length - (f.bytes.length - n))

/-- What a copy puts on the wire without its FCS (R44, R280). -/
def State.wireBytes (s : State) (t : TxCopy) : List Byte :=
  let f := s.frm t.cp.frm
  let body := match t.stomp with
    | some n => s.copyPrefix f t.cp.xf n
    | none => s.copyBytes f t.cp.xf
  match t.pn with
  | some (pn, sa, key) => s.secSeal t.cp.port pn sa key t.stomp.isSome body
  | none => body

/-- The frame on the wire with its FCS, which a stomped copy inverts after padding to 60 bytes (R44). -/
def withFcs (stomped : Bool) (bs : List Byte) : List Byte :=
  let b := if stomped then bs ++ List.replicate (60 - bs.length) 0 else bs
  let c := crc32 b
  b ++ leBytes 4 (if stomped then 4294967295 - c else c)

/-- Metadata of a frame in host memory (R442), in little-endian words. -/
def State.rxMeta (s : State) (c : Copy) (n : Nat) : List Byte :=
  let f := s.frm c.frm
  ((f.stamp.map BitVec.toNat) ++ [f.inPort + 256 * c.cls, n, f.epoch, f.hash, 0, 0, 0, 0]).flatMap (leBytes 4 ·)

/-- The bytes of a buffer of a receive ring (R442). -/
def State.bufBytes (s : State) (r : Nat) : Nat := max 1 (s.fld F.hbrRxRingCfg_bufsz r)

/-- The buffers of a receive ring that `n` bytes fill. -/
def State.bufsFor (s : State) (r n : Nat) : Nat := (n + s.bufBytes r - 1) / s.bufBytes r

/-- Write buffers `i` to `i + k - 1` of a frame of `n` bytes, metadata included, through a receive ring (R440, R442). -/
def State.writeBufs (s : State) (r n i k : Nat) : State :=
  if k = 0 then s
  else
    let sz := s.bufBytes r
    let nb := s.bufsFor r n
    let s := (List.range k).foldl (fun s j =>
      (s.emit (.rxDesc r (s.fld F.hbrRxRingHead_head r) (i + j == 0) (i + j + 1 == nb) 0 (min sz (n - (i + j) * sz)))).ringAdvance true r 1) s
    s.raise (Ev.dmaRx r)

/-- The last buffers of a copy that P16 writes to host memory, `i` of them written before (R442); `len` is its length for the metadata. -/
def State.toHost (s : State) (c : Copy) (bs : List Byte) (len i : Nat) : State :=
  let n := 64 + bs.length
  (s.emit (.rxFrame c.cls (s.rxMeta c len ++ bs))).writeBufs c.cls n i (s.bufsFor c.cls n - i)

/-- The last mPacket of a copy that was fragmented (R239). -/
def State.sendLast (s : State) (t : TxCopy) (wire : List Byte) : State :=
  if t.frags = 0 then s
  else s.emit (.fragment t.cp.port (some ((t.frags - 1) % 4)) ((withFcs t.stomp.isSome wire).drop t.sent))

/-- A finished copy leaves the device. -/
def State.send (s : State) (t : TxCopy) (wire : List Byte) : State :=
  let c := t.cp
  let f := s.frm c.frm
  match f.leg with
  | some l =>
    let s := s.emit (.legacyAt c.port f.stamp f.inPort l.ident l.data)
    if c.port = 16 then s.toHost c l.data l.data.length t.sent else s
  | none =>
    if c.port = 17 ∧ t.stomp.isNone then s.emit (.control f.stamp f.inPort wire)
    else if c.port = 16 then if t.stomp.isSome then (s.hostError c).bump .memPoisonDrop else s.toHost c wire (wire.length + 4) t.sent
    else s.emit (.eth c.port (withFcs t.stomp.isSome wire) (if t.stomp.isSome then .stomped else .complete))

/-- The fair-queuing tags at the end of a copy of accounted length `len` (R187). -/
def State.wfqEnd (s : State) (c : Copy) (len : Int) : State :=
  if c.q < 144 ∧ s.inGroup c.port c.cls then
    let x := s.qs c.q
    let f := (x.s + len.toNat * 1024 / s.fld F.schWfqW_weight c.q) % 4294967296
    s.setQs c.q { x with f := f, s := if (s.queue c.q).isEmpty then x.s else f }
  else s

/-- A transmit timestamp of a copy whose frame asks for it (R208): `bit` is the flag of a stomped or an aborted copy. -/
def State.txStamp (s : State) (t : TxCopy) (bit : Option Nat) : State :=
  let f := s.frm t.cp.frm
  if f.tsReq ∧ t.cp.port < 16 then
    let r := s.stampRec t.cp.port t.atTick t.frac t.doms t.lat (s.copyBytes f t.cp.xf)
    let w := r.headD 0
    s.txtsAppend t.cp.port ((match bit with
      | some b => putBits w b b 1
      | none => w) :: r.drop 1)
  else s

/-- A copy in transmission is lost (R46, R208). -/
def State.lostTx (s : State) (t : TxCopy) : State :=
  ((s.emit (.eth t.cp.port [] .aborted)).txStamp t (some 29)).dropRef t.cp.frm

/-- A copy in transmission is lost with its link (R46, R208). -/
def State.abortTx (s : State) (t : TxCopy) : State := (s.bump .macTxAbort t.cp.port).lostTx t

/-- A copy ends after its gate has closed (R235). -/
def State.lateEnd (s : State) (c : Copy) : Bool :=
  decide (c.port < 16) && !s.gateOpen c.port c.cls &&
    match s.tideRuns c.port with
    | some r =>
      let val := s.tideVal c.port
      decide (((r.at (val / 2 ^ 48 : Nat)).start) * nsUnit < (val : Int))
    | none => true

/-- The express copy that waited behind a fragment starts: its preamble begins now (R204). -/
def State.expressStarts (s : State) (p frac : Nat) : State :=
  let x := s.port p
  s.setPort p { x with exp := x.exp.map fun t => { s.aim t (frac + s.preamble p) with fragAt := s.tim.lt } }

/-- The protected length of a copy that was not known at its start exceeds 9216 bytes (R282): the copy is stomped. -/
def State.lateSec (s : State) (t : TxCopy) : State × TxCopy :=
  let f := s.frm t.cp.frm
  if t.stomp.isNone && t.pn.isSome &&
      decide (9216 < (s.copyBytes f t.cp.xf).length + 4 + s.txTagLen t.cp.port + 16) then
    (s.bump .cipOutTooLong t.cp.port, { t with stomp := some f.bytes.length })
  else (s, t)

/-- A copy's transmission ends. -/
def State.finish (s : State) (t0 : TxCopy) (express : Bool) : State :=
  let c := t0.cp
  let p := c.port
  let r := s.lateSec t0
  let t := r.2
  let s := r.1
  let st := t.stomp.isSome
  let wire := s.wireBytes t
  let late := (express || !(s.port p).ver.active) && (t.late || s.lateEnd c)
  let s := s.setPort p (if express then { s.port p with exp := none } else { s.port p with pre := none })
  let s := (s.sendLast t wire).send t wire
  let s := ((s.bump .qmgQTx c.q).bumpIf c.ct .macTxCtFrames p).bumpIf (st && p != 16 && decide (p < 18)) .macTxStomp p
  let s := s.bumpIf late .tgaLateEnd p
  let len : Int := (if st then (withFcs true wire).length else if (s.frm c.frm).leg.isSome then s.copyLen (s.frm c.frm) c.xf
    else wire.length + 4 : Nat) + s.lenOvh p
  let s := s.tbDebit (8 * p + c.cls) len
  let s := if 144 ≤ c.q then s.tbDebit c.q len else s
  let s := (s.wfqEnd c len).txStamp t (if st then some 30 else none)
  s.dropRef c.frm

/-- The bytes of a copy that are known so far, with its FCS when its tail has arrived. -/
def State.txLen (s : State) (t : TxCopy) : Nat :=
  let f := s.frm t.cp.frm
  if f.tail then (s.wireBytes t).length + 4 else (s.copyBytes f t.cp.xf).length

/-- The data bytes of a fragment at the first point where it may be cut, when the request came after `asked` of them (R239). -/
def State.cutPoint (s : State) (p asked : Nat) : Nat := max asked (60 + 64 * s.fld F.tgaPreemptCfg_add_frag_size p)

/-- A cut has been requested, and a legal point for it lies ahead: the fragment ends there, and not with the frame (R239). -/
def State.cutRemains (s : State) (p : Nat) (t : TxCopy) : Bool :=
  t.cut.any fun n => decide (t.sent + s.cutPoint p n + 64 ≤ s.txLen t)

/-- The bytes that P16 writes to host memory for a copy, metadata included. -/
def State.hostLen (s : State) (t : TxCopy) : Nat := 64 + match (s.frm t.cp.frm).leg with
  | some l => l.data.length
  | none => (s.wireBytes t).length

/-- The buffers that a copy at P16 has still to be written to: one for a copy that ends in error. -/
def State.hostLeft (s : State) (t : TxCopy) : Nat := if t.stomp.isSome then 1 else s.bufsFor t.cp.cls (s.hostLen t) - t.sent

/-- The free descriptors of the receive ring of a copy at P16. -/
def State.hostFree (s : State) (t : TxCopy) : Nat := if s.ringRuns true t.cp.cls then s.ringAvail true t.cp.cls else 0

/-- A copy at P16 that finds too few free descriptors is written as far as they go, and holds the port (R442). -/
def State.hostPart (s : State) (t : TxCopy) : State :=
  let k := if t.stomp.isSome then 0 else s.hostFree t
  let x := s.port 16
  let more (u : TxCopy) : TxCopy := if u.cp = t.cp then { u with sent := u.sent + k } else u
  (s.setPort 16 { x with exp := x.exp.map more, pre := x.pre.map more }).writeBufs t.cp.cls (s.hostLen t) t.sent k

/-- The last byte of a copy has been sent. An express copy ends only once the preemptable fragment before it has ended, and an
unstomped copy only once its tail has arrived. -/
def State.copyEnd (s : State) (p : Nat) (express : Bool) (frac : Nat) : State :=
  let x := s.port p
  match if express then x.exp else x.pre with
  | none => s
  | some t =>
    let waits := if express then x.pre.any fun u => !u.paused else t.paused || (x.ver.active && s.cutRemains p t)
    if waits || (t.stomp.isNone && !(s.frm t.cp.frm).tail) then s
    else if p = 16 ∧ s.hostFree t < s.hostLeft t then s.hostPart t
    else
      let s := s.finish t express
      if express then s else s.expressStarts p frac

/-- P12 or P13 shares its segment by CSMA/CD: PLCA is off, or its beacon is lost (R266, R267). -/
def State.csma (s : State) (p : Nat) : Bool :=
  (p == 12 || p == 13) && !(s.on F.tssPhyCfg_en (p - 12) && s.on F.tssPlcaCtrl_en (p - 12) && s.on F.tssPlcaStat_plca_status (p - 12))

/-- A collision ends an attempt of the copy on a segment: the copy starts again, and is lost at the 16th attempt or at a late collision.
PRESUMED: as IEEE 802.3 has it (entry 44). -/
def State.collide (s : State) (p : Nat) (late : Bool) (frac : Nat) : State :=
  match (s.port p).exp with
  | none => s
  | some t =>
    if !s.csma p then s
    else
      let s := s.bump (if late then .tssLateCol else .tssCol) (p - 12)
      if late || decide (15 ≤ t.tries) then (s.setPort p { s.port p with exp := none }).lostTx t
      else s.setPort p { s.port p with exp := some { s.aim t (frac + s.preamble p) with tries := t.tries + 1, fragAt := s.tim.lt } }

/-- Every PHY and SerDes lane has stopped (R336): what is in transmission at a port is cut. -/
def State.lanesOff (s : State) (p : Nat) : Bool := s.pair.safe == some .linkDown && decide (p < 16)

/-- The copies in transmission at a port are lost with its lanes. -/
def State.cutLanes (s : State) (p : Nat) : State :=
  let x := s.port p
  let s := s.setPort p { x with exp := none, pre := none }
  (x.exp.toList ++ x.pre.toList).foldl State.abortTx s

/-- `col`: the attempt ends with a collision, late or not. -/
def execTxCopyEnd (p : Fin 18) (express : Bool) (frac : Fin 8) (s : State) (col : Option Bool := none) : Host.Outcome State Fault Refusal :=
  .next (if s.forwards then
      if s.lanesOff p then s.cutLanes p else match col with
      | none => s.copyEnd p express frac
      | some late => s.collide p late frac
    else s)

/-! ## Fragments (R234, R239) -/

/-- More bytes have arrived of a frame that leaves while it is received. -/
def State.txMore (s : State) (i : Nat) (more : List Byte) : State :=
  let p := (s.frm i).inPort
  if (s.port p).rx.any fun r => r.frm == some i then s.rxMore p false more else s

/-- A fragment of `sent` bytes ends at the first legal cut point after the request (R239). Its mPacket leaves. -/
def State.fragEnd (s : State) (p sent frac : Nat) (more : List Byte) : State :=
  match (s.port p).pre with
  | none => s
  | some t =>
    let s := s.txMore t.cp.frm more
    let done := t.sent + sent
    let asked := t.cut.getD 0
    if t.cut.isNone || t.paused || !(s.port p).ver.active || sent != s.cutPoint p asked || decide (s.txLen t < done + 64) then s
    else
      let s := s.emit (.fragment p (if t.frags = 0 then none else some ((t.frags - 1) % 4)) (((s.wireBytes t).take done).drop t.sent))
      (s.setPort p { s.port p with pre := some { t with paused := true, sent := done } }).expressStarts p frac

/-- `more` are the bytes that have arrived of the frame, when it is still in reception. -/
def execFragmentEnd (p : Fin 16) (sent : BitVec 14) (frac : Fin 8) (s : State) (more : List Byte := []) :
    Host.Outcome State Fault Refusal :=
  .next (if s.forwards then if s.lanesOff p then s.cutLanes p else s.fragEnd p sent.toNat frac more else s)

/-- The hold of R234 at t_close - H, on the wire or paused: what is left of the copy waits until its gate next opens. -/
def State.hold_ (s : State) (p : Nat) : State :=
  let x := s.port p
  match x.pre with
  | none => s
  | some t =>
    if t.under && x.ver.active && s.gateOpen p t.cp.cls && s.holdDue p t.cp.cls && !(t.hold.any fun h => s.sameOpening p t.cp.cls h) then
      let s := if t.paused || t.cut.isSome then s else s.cutPre p
      (s.setPort p { s.port p with pre := (s.port p).pre.map fun t => { t with hold := some (s.tideNow p) } }).bump .tgaTxHold p
    else s

def execPreemptHold (p : Fin 16) (s : State) : Host.Outcome State Fault Refusal :=
  .next (if s.forwards then s.hold_ p else s)

end Sys2Proof.Machine
end

