-- ==== Sys2Proof/Machine/Ports.lean ====
section
/-! DEFINITION. Links (R37, R46, R63, R174, R461), preemption verification (R238), fences that expire (R57), the limits of ports
(R175), MDIO and the PHY mirror (R462, R463), and PERST_N (R443). -/

namespace Sys2Proof.Machine

open Sys2Proof

/-! ## A link goes down -/

/-- Preemption is active no more (R238). -/
def State.preemptOff (s : State) (p status : Nat) : State :=
  let was := (s.port p).ver.active
  (s.setPort p { s.port p with ver := ⟨status, false, 0, 0⟩ }).raiseIf (was && decide (p < 16)) (Ev.preemptChange p)

/-- What the loss of a link does to a port (R46, R174, R185, R238). `rest` are the bytes that had arrived by then of the frame in
reception. -/
def State.portLost (s : State) (p : Nat) (rest : List Byte) : State :=
  let x := s.port p
  let s := s.setPort p { x with exp := none, pre := none, defer := [] }
  let s := (x.exp.toList ++ x.pre.toList).foldl State.abortTx s
  let s := s.dropWaiting (some .qmgQDropLink) fun c => c.port == p
  let s := (s.rxBroken p false rest).rxBroken p true []
  let s := (List.range 8).foldl (fun s c => s.setCredit (8 * p + c) 0) s
  s.preemptOff p (if s.on F.tgaPreemptCfg_en p && !s.on F.tgaPreemptCfg_verify_dis p then 1 else 0)

/-- The link of an Ethernet port P0 to P15 goes down. -/
def State.linkDown (s : State) (p : Nat) (rest : List Byte) : State :=
  if !s.linkUp p then s
  else
    let s := (s.portLost p rest).setFld F.macPortStat_link_up p 0
    let s := if s.on F.fdbPortCfg_flush_on_down p then s.fdbPurge (some p) none else s
    let s := s.raise (Ev.linkChange p)
    if s.pairOn p then s.health else s

def execLinkDown (p : Fin 16) (s : State) (rest : List Byte := []) : Host.Outcome State Fault Refusal :=
  .next (if s.fabricOn then s.linkDown p rest else s)

/-- The PLL of a PHY or SerDes is no longer in lock, and its port goes down. -/
def State.phyDrop (s : State) (p : Nat) (rest : List Byte) : State :=
  { s with phys := { s.phys with phyLock := s.phys.phyLock.filter (· != p) } }.linkDown p rest

/-- Loss of lock of a PHY or SerDes PLL takes its port down and raises the port's LINK_CHANGE, also when its link was not up (R25). -/
def State.phyUnlock (s : State) (p : Nat) (rest : List Byte) : State :=
  let quiet := !s.linkUp p && s.phys.phyLock.contains p
  (s.phyDrop p rest).raiseIf quiet (Ev.linkChange p)

def execPhyPllLossOfLock (p : Fin 16) (s : State) (rest : List Byte := []) : Host.Outcome State Fault Refusal :=
  .next (if s.fabricOn then s.phyUnlock p rest else s)

/-! ## A link comes up -/

/-- The modes in which a port may come up (R461). -/
def State.modeOk (s : State) (p m : Nat) : Bool :=
  let sel := s.fld F.macPortCfg_mode p
  if p < 4 then decide (sel ≤ m) && decide (m ≤ 2) else m == sel

/-- Send a verify mPacket (R238); none leaves where nothing is transmitted (R336). -/
def State.sendVerify (s : State) (p : Nat) : State :=
  let v := (s.port p).ver
  if s.quiet then s else (s.setPort p { s.port p with ver := ⟨2, false, v.attempts + 1, s.tim.lt⟩ }).emit (.mpacket p false)

/-- The ports that have preemption (R223). -/
def preemptPort (p : Nat) : Bool := p < 12 || p == 14 || p == 15

/-- Preemption at a link-up (R238). -/
def State.verifyStart (s : State) (p : Nat) : State :=
  if !preemptPort p || !s.on F.tgaPreemptCfg_en p then s
  else if s.on F.tgaPreemptCfg_verify_dis p then s.setPort p { s.port p with ver := ⟨0, true, 0, 0⟩ }
  else (s.setPort p { s.port p with ver := ⟨1, false, 0, 0⟩ }).sendVerify p

/-- A port has trained with a partner of a signature. At the first time after a wake with saved values it has retrained from them,
when the signature is the saved one and the retrain converged in time, `fast`, and has else fallen back to full training (R389). -/
def State.retrained (s : State) (p : Nat) (fast : Bool) (sig : Word) : State :=
  let s := s.setPort p { s.port p with sig := sig }
  if !s.pwr.retrain.contains p then s
  else
    let same := (tblFind s.pwr.coef p).any fun c => c.sig == sig
    let s := { s with pwr := { s.pwr with retrain := s.pwr.retrain.filter (· != p) } }
    if fast && same then s.wr .pwrFrStat 0 (putBits (s.rd .pwrFrStat) (16 + p) (16 + p) 1) else s.bump .pwrFrFallback

/-- The rate of a port that the active set declares (R59, R63), whatever mode was written since; without a set, that of its registers. -/
def State.setRate (s : State) (p : Nat) : Nat :=
  match s.boot.set.bind fun (c : Cset) => c.regs.find? fun x => x.1 == .macPortCfg && x.2.1 == p with
  | some x => modeRate p (F.macPortCfg_mode.of x.2.2)
  | none => s.declRate p

/-- The link of an Ethernet port comes up in a mode: it needs an enabled port whose PLL has locked, and no safe state that stops
its PHY (R25, R336, R461). `fast`: the retrain of its PHY from saved values has converged in time; `sig`: the signature of its partner
(R389). -/
def State.linkRise (s : State) (p mode : Nat) (fast : Bool) (sig : Word) : State :=
  if s.linkUp p || !s.on F.macPortCfg_en p || !s.phys.phyLock.contains p || s.pair.safe == some .linkDown || !s.modeOk p mode then s
  else
    let s := (s.setFld F.macPortStat_oper_mode p mode).setFld F.macPortStat_link_up p 1
    let s := s.raise (Ev.linkChange p)
    let s := s.raiseIf (s.operRate p != s.setRate p || s.plcaWaits p) (Ev.rateChange p)
    let s := (s.verifyStart p).retrained p fast sig
    if s.pairOn p then s.health else s

def execLinkUp (p : Fin 16) (mode : BitVec 4) (fast : Bool) (s : State) (sig : BitVec 32 := 0) :
    Host.Outcome State Fault Refusal :=
  .next (if s.fabricOn then s.linkRise p mode.toNat fast sig else s)

/-! ## Verification (R238) -/

def execVerifyMpacketTimer (p : Fin 16) (s : State) : Host.Outcome State Fault Refusal :=
  let v := (s.port p).ver
  .next (if s.fabricOn && v.status == 2 && decide (v.since + tkMs (s.fld F.tgaPreemptCfg_verify_ms p) ≤ s.tim.lt) then
      if v.attempts < 3 then s.sendVerify p else s.setPort p { s.port p with ver := { v with status := 4 } }
    else s)

def execVerifyMpacketRx (p : Fin 16) (s : State) : Host.Outcome State Fault Refusal :=
  .next (if s.fabricOn && s.linkUp p && s.on F.tgaPreemptCfg_en p && !s.quiet then s.emit (.mpacket p true) else s)

def execRespondMpacketRx (p : Fin 16) (s : State) : Host.Outcome State Fault Refusal :=
  let v := (s.port p).ver
  .next (if s.fabricOn && s.linkUp p && v.status == 2 then
      s.setPort p { s.port p with ver := { v with status := 3, active := true } }
    else s)

/-- A write of TGA_PREEMPT_CFG (R238). On a port that is up, preemption with verify_dis = 1 is active at once, and verification waits
for the next link-up (entry 40). -/
def State.wrPreemptCfg (s : State) (p : Nat) (data : Word) : State :=
  if !preemptPort p then s
  else
    let was := s.on F.tgaPreemptCfg_en p
    let s := s.writeReg .tgaPreemptCfg p data
    let now := s.on F.tgaPreemptCfg_en p
    if was && !now then s.preemptOff p 0
    else if now && s.on F.tgaPreemptCfg_verify_dis p && s.linkUp p then s.setPort p { s.port p with ver := ⟨0, true, 0, 0⟩ }
    else if !was && now && !s.on F.tgaPreemptCfg_verify_dis p then s.setPort p { s.port p with ver := ⟨1, false, 0, 0⟩ }
    else s

/-! ## Fences (R57) -/

/-- The fence limit has elapsed: older-epoch frames that wait are dropped. -/
def State.fenceExpire (s : State) (p : Nat) : State :=
  match s.net.fences.find? fun x => x.port == p with
  | none => s
  | some x =>
    if x.since + tkUs (s.fld F.cfgSwapFenceLim_limit_us) ≤ s.tim.lt then
      let n := ((s.waitingAt p).filter fun c => c.epoch != x.epoch).length
      (s.dropWaiting none fun c => c.port == p && c.epoch != x.epoch).bumpBy .macDropFence p n
    else s

def execFenceLimitExpiry (p : Fin 18) (s : State) : Host.Outcome State Fault Refusal :=
  .next (if s.fabricOn then s.fenceExpire p else s)

/-! ## P16 and the port limits (R174, R175) -/

/-- P16 goes down (R174), and the FDB forgets its addresses when flush_on_down asks for it (R121). -/
def State.hostDown (s : State) : State :=
  if !s.linkUp 16 then s
  else
    let s := (s.portLost 16 []).setFld F.qmgPortLim_host_en 16 0
    let s := if s.on F.fdbPortCfg_flush_on_down 16 then s.fdbPurge (some 16) none else s
    s.raise (Ev.linkChange 16)

/-- A write of QMG_PORT_LIM: host_en exists on P16 only. -/
def State.wrPortLim (s : State) (p : Nat) (data : Word) : State :=
  let was := s.linkUp 16
  let w := if p = 16 then data else putBits data 31 31 0
  let on_ := F.qmgPortLim_host_en.of w == 1
  if p = 16 ∧ was ∧ !on_ then (s.writeReg .qmgPortLim p (putBits w 31 31 1)).hostDown
  else
    let s := s.writeReg .qmgPortLim p w
    s.raiseIf (p == 16 && !was && on_) (Ev.linkChange 16)

def execHostEnWrite (path : Path) (data : Word) (s : State) : Host.Outcome State Fault Refusal :=
  .next (s.accessReg path .qmgPortLim 16 data fun s => s.wrPortLim 16 data)

/-- A change of a limit (R175). `i` is the queue, or the port. -/
def State.wrLimit (s : State) (which : LimReg) (i : Nat) (data : Word) : State := match which with
  | .queueLimit => s.wrQLim i data
  | .queueColour => let r := qReg i .qmgQCol .qmgSCol; s.writeReg r.1 r.2 data
  | .port => s.wrPortLim (i % 18) data
  | .skyCells => s.wrSkyCellLim data

/-- The register of a limit. -/
def limReg (which : LimReg) (i : Nat) : Reg × Nat := match which with
  | .queueLimit => qReg i .qmgQLim .qmgSLim
  | .queueColour => qReg i .qmgQCol .qmgSCol
  | .port => (.qmgPortLim, i % 18)
  | .skyCells => (.skyCellLim, 0)

def execQueueLimitWrite (path : Path) (which : LimReg) (i : Fin 1168) (data : Word) (s : State) :
    Host.Outcome State Fault Refusal :=
  let r := limReg which i
  .next (s.accessReg path r.1 r.2 data fun s => s.wrLimit which i data)

/-! ## MAC_PORT_CFG (R461) -/

/-- The mode codes of a port. -/
def modeKnown (p m : Nat) : Bool :=
  if p < 4 then m ≤ 2 else if p < 12 then m ≤ 1 else if p = 14 ∨ p = 15 then m ≤ 2 else false

/-- A write of MAC_PORT_CFG. Reserved codes leave mode unchanged (R487); fields that a port does not have are not written. -/
def State.wrPortCfg (s : State) (p : Nat) (data : Word) : State :=
  if 16 ≤ p then s
  else
    let old := s.rd .macPortCfg p
    let hasMode := decide (p < 12) || decide (14 ≤ p)
    let m := F.macPortCfg_mode.of data
    let bad := hasMode && !modeKnown p m
    let mode := if hasMode && !bad then m else F.macPortCfg_mode.of old
    let master := if p < 12 then F.macPortCfg_t1_master.of data else 0
    if s.on F.macPortCfg_en p && (mode != F.macPortCfg_mode.of old || master != F.macPortCfg_t1_master.of old) then s.accessErr .mac
    else
      let en := F.macPortCfg_en.of data
      let s := s.wr .macPortCfg p (putBits (putBits (putBits 0 31 31 en) 27 24 mode) 23 23 master)
      let s := if en = 0 then s.phyDrop p [] else s
      if bad then s.accessErr .mac else s

def execPortCfgWrite (path : Path) (p : Fin 18) (data : Word) (s : State) : Host.Outcome State Fault Refusal :=
  .next (s.accessReg path .macPortCfg p data fun s => s.wrPortCfg p data)

/-! ## MDIO and the PHY mirror (R462, R463) -/

/-- A write of MAC_MDIO_CMD; `answer` is what the PHY answers to a read. -/
def State.wrMdioCmd (s : State) (data : Word) (answer : Option (BitVec 16)) : State :=
  let s := s.writeReg .macMdioCmd 0 data
  if F.macMdioCmd_go.of data = 0 then s
  else
    let rd := s.on F.macMdioCmd_rd
    let s := s.emit (.mdio rd (s.fld F.macMdioCmd_prtad) (s.fld F.macMdioCmd_devad) (s.fld F.macMdioCmd_regad)
      (if rd then 0 else s.fld F.macMdioData_data))
    if rd then s.setFld F.macMdioData_data 0 (answer.getD 0xFFFF).toNat else s

def execMdioAccess (path : Path) (data : Word) (answer : Option (BitVec 16)) (s : State) : Host.Outcome State Fault Refusal :=
  .next (s.accessReg path .macMdioCmd 0 data fun s => s.wrMdioCmd data answer)

/-- The offset of a register of the PHY mirror in the map. -/
def phyOff (p page r : Nat) : Nat := 0xA0000 + 0x4000 * p + 0x1000 * page + 4 * r

/-- What IEEE 802.3 makes of a register write through the PHY mirror (R463). -/
def State.phyWhat (s : State) (off : Nat) (data : Word) : PhyWrite :=
  let o := off - 0xA0000
  if !Config.phyDefined o then .undefined
  else match (Config.phyWrite o (tblGet s.phys.phyRegs 0 o) data).val with
    | 0 => .other
    | 1 => .speedOrRole
    | _ => .reset

/-- A write through the PHY mirror. Page 3 is reserved. -/
def State.wrPhy (s : State) (off : Nat) (data : Word) (what : PhyWrite) : State :=
  let p := (off - 0xA0000) / 0x4000
  let keep (s : State) : State :=
    { s with phys := { s.phys with phyRegs := tblSet s.phys.phyRegs 0 (off - 0xA0000) (data &&& 0xFFFF) } }
  if 14 ≤ p ∨ (off - 0xA0000) / 0x1000 % 4 = 3 then s.accessErr .phy
  else match what with
    | .undefined => s.accessErr .phy
    | .speedOrRole => s.accessErr .phy
    | .reset => (keep s).linkDown p []
    | .other => keep s

def execPhyMirrorWrite (path : Path) (p : Fin 14) (page : Fin 4) (r : BitVec 10) (data : Word) (what : PhyWrite) (s : State) :
    Host.Outcome State Fault Refusal :=
  let off := phyOff p page r.toNat
  .next (s.access path off data fun s => s.wrPhy off data what)

/-- A read of the PHY mirror: its content is the PHY's, which the spec does not give, and a register
not defined for the PHY reads as zero (R463). -/
def State.rdPhy (s : State) (off : Nat) : State × Word :=
  let o := off - 0xA0000
  if 14 ≤ o / 0x4000 ∨ o / 0x1000 % 4 = 3 ∨ Config.phyDefined o = false then (s, 0)
  else
    let v := Config.phyRead s.free o (tblGet s.phys.phyRegs 0 o)
    ({ s with free := s.free + 1 }, BitVec.ofNat 32 v.toNat)

/-! ## PERST_N (R443) -/

/-- PERST_N goes low: the PCIe core is reset, with the items of the PCIe path, and its posted writes that wait are
discarded (R443, R459). -/
def State.perstAssert (s : State) : State :=
  let s := (List.range 8).foldl (fun s r => (s.stopRing false r).stopRing true r) s
  let s := s.hostDown
  let s := s.setPath .pcie PathSt.reset
  let s := { s with hold := tblKeep (fun k _ => decide (16777216 ≤ k)) s.hold }
  let up := s.on F.hbrPcieStat_link_up
  let s := { s with hbr := { s.hbr with perstLow := true, msix := [], pcieQ := [], l2 := false } }
  (((s.wr .hbrPcieStat 0 0).raiseIf (up && s.fabricOn) Ev.pcieLink).setBall 3 false).settle

def execPerstAssert (s : State) : Host.Outcome State Fault Refusal := .next s.perstAssert

end Sys2Proof.Machine
end

