-- ==== Sys2Proof/Machine/Skerry.lean ====
section
/-! DEFINITION. The Skerry array and the Harbour: threads, verdicts, translation, stealing, faults and the release of results
(R136 to R166). -/

namespace Sys2Proof.Machine

open Sys2Proof

/-! ## The Harbour (R149 to R153) -/

/-- A slot is still the PENDING slot of a frame. -/
def State.slotWaits (s : State) (n i : Nat) : Bool := match tblFind s.net.slots n with
  | some x => x.frm == i && x.st.isPending
  | none => false

/-- The hold timer of a flow has reached hold_ns (R151). -/
def State.hrbDue (s : State) (n : Nat) : Bool := match tblFind s.net.ctxs n with
  | some c => (s.ctxWait n c).isSome && c.hold.any fun h => decide (h.2 + tkNs (s.fld F.hrbCfg_hold_ns) ≤ s.tim.lt)
  | none => false

/-- The head that a flow waits for becomes VOID; where the conditions hold for the new head, its timer starts at the tick at which this
one expired (R151). -/
def State.hrbExpire (s : State) (n : Nat) : State :=
  match tblFind s.net.ctxs n with
  | none => s
  | some c => match c.hold, s.ctxWait n c with
    | some (_, t), some (k, _) =>
      let s' := (s.bump .hrbHoldTmo).slotTo k .void
      match tblFind s'.net.ctxs n with
      | some c' => s'.setCtx n (some { c' with hold := c'.hold.map fun h => (h.1, t + tkNs (s.fld F.hrbCfg_hold_ns)) })
      | none => s'
    | _, _ => s

/-- The expiries of a flow that are due, at most `fuel`. They come before a completion of the same cycle (R152). -/
def State.hrbRun (s : State) : Nat → Nat → State
  | 0, _ => s
  | fuel + 1, n => if s.hrbDue n then (s.hrbExpire n).hrbRun fuel n else s

/-- The expiries that are due in the flow of a slot. -/
def State.hrbHolds (s : State) (slot : Nat) : State := match tblFind s.net.slots slot with
  | some x => s.hrbRun 8192 x.ctx
  | none => s

/-- The buffer write of a sequenced frame that is not steered completes: its slot is READY (R149). -/
def execBufferWriteComplete (slot : BitVec 13) (s : State) : Host.Outcome State Fault Refusal :=
  let s := s.hrbHolds slot.toNat
  .next (match tblFind s.net.slots slot.toNat with
    | some x => match x.st with
      | .pending (some outs) => (s.setSlot slot.toNat (some { x with st := .ready outs })).holdCtx x.ctx
      | _ => s
    | none => s)

/-- A legacy output is in order for its translation entry (R153). The ordinal is kept for each entry number, which the two epoch copies of the
entry share (DESIGN CHOICE, assumption 84). -/
def State.legacyOrder (s : State) (o : SlotOut) (ord : Nat) : State × Bool :=
  match o.xlt with
  | none => (s, true)
  | some e =>
    if ord < tblGet s.net.xltOrd 0 e then (s.bump .hrbDropLegOrder, false)
    else ({ s with net := { s.net with xltOrd := tblSet s.net.xltOrd 0 e ord } }, true)

/-- Offer one output of a released slot. An output whose frame was found bad is dropped (R43). -/
def State.releaseOut (s : State) (o : SlotOut) : State :=
  let f := s.frm o.frm
  let s := if f.bad then s
    else if o.port < 18 then s.admitCopy o.frm o.port o.xf
    else match f.leg with
      | some l =>
        let r := s.legacyOrder o f.ord
        if r.2 then r.1.legCopy o.frm o.port l else r.1
      | none => s
  s.dropRef o.frm

/-- Free the slot at the head of a context and count it. -/
def State.freeHead (s : State) (n k : Nat) (c : Ctr) : State :=
  ((s.setSlot k none).bump c).holdCtx n

/-- The head slot of a flow is read: it becomes VOID when a word of it is poisoned (R369). -/
def State.headRead (s : State) (n : Nat) : State :=
  match (tblFind s.net.ctxs n).bind (s.ctxHead n) with
  | some (k, _) =>
    let r := s.wordsRead 3 0 (slotWord k) 2 0
    if r.2 then (r.1.memFill 3 0 (slotWord k) 2).voidSlot (some k) else r.1
  | none => s

/-- Inspect the head of a flow (R150): release it, free it, or leave it. -/
def State.release (s : State) (n : Nat) : State :=
  let s := (s.ctxRead n).headRead n
  match tblFind s.net.ctxs n with
  | none => s
  | some c => match s.ctxHead n c with
    | none => s
    | some (k, h) => match h.st with
      | .ready outs => outs.foldl (fun s o => s.releaseOut o) (s.freeHead n k .hrbReleased)
      | .void => s.freeHead n k .hrbVoid
      | .pending _ => s

def execHarbourRelease (ctx : BitVec 13) (s : State) : Host.Outcome State Fault Refusal :=
  .next (if s.fabricOn then s.release ctx.toNat else s)

/-- The hold timer of a flow has reached hold_ns: the head becomes VOID (R151). -/
def execHarbourHoldTimeout (ctx : BitVec 13) (s : State) : Host.Outcome State Fault Refusal :=
  .next (if s.hrbDue ctx.toNat then s.hrbExpire ctx.toNat else s)

/-! ## Threads (R136, R139, R145) -/

/-- What the thread of a frame receives in its window: the first 256 bytes (R136). -/
def Frm.window (f : Frm) : List Byte := ((f.leg.map LegRec.data).getD f.bytes).take 256

/-- A thread takes the oldest descriptor of the queue that it serves (R145). A thread starts when its frame is stored whole. -/
def State.threadTake (s : State) (k t : Nat) : State :=
  let x := s.skerry k
  let put (x : Skerry) (d : Desc) : State := s.setSky k { x with threads := tblPut x.threads t ⟨d, s.tim.lt, (s.frm d.frm).window⟩, lastRun := s.tim.lt }
  if !s.fabricOn || !s.skyOk k || (tblFind x.threads t).isSome then s
  else if t = 0 ∧ s.skyResv k then
    match x.resv with
    | d :: r => if (s.frm d.frm).tail then put { x with resv := r } d else s
    | [] => s
  else match x.norm with
    | d :: r => if (s.frm d.frm).tail then put { x with norm := r } d else s
    | [] => s


/-- The profile of a descriptor, under its frame's epoch (R141). -/
def State.profOf (s : State) (d : Desc) : List Word := s.ent 0x30 (s.frm d.frm).epoch d.prof

/-- A thread ends its descriptor. -/
def State.threadEnd (s : State) (k t : Nat) : State :=
  let x := s.skerry k
  s.setSky k { x with threads := tblDel x.threads t, lastRun := s.tim.lt }

/-- The watchdog of a thread reaches its limit (R139); a budget of 0 stands for the time that the FWIM declares. -/
def execSkerryWatchdog (k : Fin 32) (t : Fin 4) (s : State) : Host.Outcome State Fault Refusal :=
  .next (match tblFind (s.skerry k).threads t with
    | none => s
    | some r =>
      let b := eb (s.profOf r.d) 1 23 0
      let lim := if b = 0 then Config.progTime s.boot.fwimDig (eb (s.profOf r.d) 0 31 24) else b
      if s.tim.lt < r.since + tkNs lim then s
      else
        let f := s.frm r.d.frm
        let s' := s.threadEnd k t
        let s' := (s'.skyDrop 7 k t r.d.prof 0xFFF f).bump .skyKWdog k
        let s' := if s'.slotWaits r.d.slot r.d.frm then s'.voidSlot (some r.d.slot) else s'
        s'.dropRef r.d.frm)

/-! ## Translation (R154 to R158, R161, R284 to R286) -/

/-- A translation entry of a profile's range that is valid and for which `p` holds. -/
def State.xltFind (s : State) (par : Nat) (prof : List Word) (p : List Word → Bool) : Option (Nat × List Word) :=
  let lo := eb prof 4 27 16
  (s.listed 0x31 par lo (lo + eb prof 4 11 0)).find? fun e => ebit e.2 0 31 && p e.2

/-- The entries that the translation of a frame needs are read: its profile, the translation entries of the profile's range, the freshness
parameters and rewrite records that they name, and the key slots of the profile. True when one is poisoned: the frame is dropped (R369). -/
def State.xltRead (s : State) (par prof : Nat) : State × Bool :=
  if s.memClean then (s, false)
  else
    let c := s.cfgEnt 0x30 par prof
    let e := c.1.ent 0x30 par prof
    let lo := eb e 4 27 16
    let l := (c.1.listed 0x31 par lo (lo + eb e 4 11 0))
    let need := l.flatMap fun x => [(0x31, x.1), (0x36, eb x.2 5 29 18), (0x36, eb x.2 5 17 6), (6, eb x.2 6 31 20)]
    let r := need.foldl (fun (a : State × Bool) n =>
      if a.2 then a
      else
        let y := a.1.cfgEnt n.1 par n.2
        (y.1, y.2.isNone)) (c.1, c.2.isNone)
    (((r.1.keyFetch (eb e 0 15 8)).keyFetch (eb e 0 7 0)), r.2)

/-- Direction of a translation entry. -/
def xltDir (e : List Word) : Nat := eb e 0 30 28

/-- The legacy side of an entry is a channel and an identifier. -/
def xltLegEq (port : Nat) (l : LegRec) (e : List Word) : Bool :=
  eb e 0 27 22 == port && ebit e 1 31 == l.ide && eb e 1 28 0 == l.ident

/-- The legacy port and length of an entry. -/
def xltPort (e : List Word) : Nat := eb e 0 27 22
def xltLen (e : List Word) : Nat := eb e 0 10 0

/-- The full freshness value that a checking Skerry reconstructs, none when it lies outside the acceptance window (R286). -/
def fvCandidate (fv fvb win r : Nat) : Option Nat :=
  let m := 2 ^ (8 * fvb)
  let c := if fvb = 8 then r
    else if fvb = 0 then (fv + 1) % 2 ^ 64
    else
      let c := fv / m * m + r
      if c ≤ fv then (c + m) % 2 ^ 64 else c
  if win ≠ 0 ∧ fv + win < c then none else some c

/-- The CMAC input of a secured PDU (R285). -/
def secocInput (p : List Word) (pdu : List Byte) (fv : Nat) : List Byte := beBytes 2 (eb p 0 15 0) ++ pdu ++ beBytes 8 fv

/-- Check SecOC on a legacy input (R157, R286): the state, and the cause of a drop. The window is tested before the key is used. No MAC
passes under a parameter entry that is not in use. DESIGN CHOICE (entry 73). -/
def State.secocCheck (s : State) (f : Frm) (prof e : List Word) (data : List Byte) : State × Option Nat :=
  let n := eb e 5 29 18
  let p := s.fparam f.epoch n
  let fvb := eb p 0 28 25
  let macb := eb p 0 24 20
  let len := xltLen e
  let key := eb prof 0 15 8
  if !fpValid p then (s, some 2)
  else if data.length < len ∨ len ≤ fvb + macb then (s, some 6)
  else
    let pdu := data.take (len - fvb - macb)
    match fvCandidate (s.fv n) fvb (ew p 1).toNat (fieldAt data (len - fvb - macb) fvb) with
    | none => (s, some 3)
    | some c =>
      if !s.keyAllows key 0 3 then (s.bump .cipKeyDenied, some 4)
      else if (cmac (s.slot key).bytes (secocInput p pdu c)).take macb ≠ bytesAt data (len - macb) macb then (s, some 2)
      else
        let r := s.freshCommit f.epoch n c
        (r.1, if r.2 then none else some 3)

/-- Pad a payload with zeros to a length. -/
def padTo (n : Nat) (bs : List Byte) : List Byte := bs ++ List.replicate (n - bs.length) 0

/-- A legacy output of a program (R154, R156, R285): the frame, or the cause of a drop. A payload that is too long is BAD_FORMAT. GEN
comes before the MAC, and so before the test of the key. DEDUCED: a program generates SecOC where its profile has secoc_gen = 1 and
the entry carries SecOC (entry 37). -/
def State.legacyOut (s : State) (f : Frm) (prof : List Word) (x : Nat × List Word) (payload : List Byte) :
    State × (SkyOut ⊕ Nat) :=
  let e := x.2
  let l (data : List Byte) : SkyOut :=
    ⟨xltPort e, [], some ⟨eb e 1 28 0, ebit e 1 31, eb e 0 21 20, 0, 0, 0, false, data⟩, some x.1⟩
  let sec := ebit e 5 31 && ebit prof 0 21
  let p := s.fparam f.epoch (eb e 5 29 18)
  let fvb := eb p 0 28 25
  let macb := eb p 0 24 20
  let room := if sec then xltLen e - fvb - macb else xltLen e
  if room < payload.length then (s, .inr 6)
  else
    let pdu := padTo room payload
    if !sec then (s, .inl (l pdu))
    else
      let g := s.freshGen f.epoch (eb e 5 29 18) f.ord
      match g.2 with
      | none => (g.1, .inr 3)
      | some v =>
        if !g.1.keyAllows (eb prof 0 15 8) 0 3 then (g.1.bump .cipKeyDenied, .inr 4)
        else
        let mac := cmac (g.1.slot (eb prof 0 15 8)).bytes (secocInput p pdu v)
        (g.1, .inl (l (pdu ++ beBytes fvb (v % 2 ^ (8 * fvb)) ++ mac.take macb)))

/-- Addresses and tag of an emitted Ethernet frame, from a rewrite record. -/
def rwHeader (r : List Word) : List Byte :=
  beBytes 4 (ew r 1).toNat ++ beBytes 2 (eb r 2 31 16) ++ beBytes 2 (eb r 2 15 0) ++ beBytes 4 (ew r 3).toNat
    ++ [0x81, 0x00] ++ beBytes 2 (eb r 5 14 12 * 8192 + eb r 5 27 16)

/-- Nanoseconds of the ingress timestamp of a frame, modulo 2^32. -/
def Frm.stampNs (f : Frm) : Nat :=
  (((f.stamp.getD 3 0).toNat % 65536 * 4294967296 + (f.stamp.getD 2 0).toNat) * 1000000000 + (f.stamp.getD 1 0).toNat) % 4294967296

/-- The IEEE 1722 frame of a legacy frame (R154): EtherType, stream ID, presentation time and the ACF fields over a template. -/
def acfFrame (f : Frm) (l : LegRec) (can : Bool) (e rw : List Word) (wrap payload : List Byte) : List Byte :=
  let tscf := ebit e 5 5
  let hdr := if tscf then 24 else 12
  let msg := if can then 16 else 12
  let w := padTo (2 + hdr + msg) wrap
  let w := setBytes w 0 ([0x22, 0xF0] ++ [if tscf then 0x05 else 0x82])
  let w := setBytes w 6 (beBytes 8 ((ew e 3).toNat * 4294967296 + (ew e 4).toNat))
  let w := if tscf then setBytes w 14 (beBytes 4 ((f.stampNs + (ew e 7).toNat) % 4294967296)) else w
  let o := 2 + hdr
  let ty := if can then 1 else 3
  let w := setBytes w o (beBytes 1 (ty * 2 + fieldAt w o 1 % 2))
  let w := if can then
      let fl := fieldAt w (o + 2) 1
      let fl := fl / 16 * 16 + l.ide.toNat * 8 + fl % 8
      let fl := fl / 4 * 4 + (if l.fmt = 1 then 2 else 0) + fl % 2
      let w := setBytes w (o + 2) (beBytes 2 (fl * 256 + fieldAt w (o + 3) 1 / 32 * 32 + eb e 5 4 0))
      setBytes w (o + 12) (beBytes 4 (eb e 1 28 0))
    else
      let w := setBytes w (o + 2) (beBytes 1 (fieldAt w (o + 2) 1 / 32 * 32 + eb e 5 4 0))
      setBytes w (o + 3) (beBytes 1 (eb e 1 7 0))
  rwHeader rw ++ w ++ payload

/-- The SOME/IP notification of a legacy frame (R154): the header is the last 16 bytes of the template. -/
def sipFrame (e rw : List Word) (wrap payload : List Byte) : List Byte :=
  let w := padTo 16 wrap
  let o := w.length - 16
  let w := setBytes w o (beBytes 2 (eb e 2 31 16) ++ beBytes 2 (eb e 2 15 0))
  let w := setBytes w (o + 10) [0, 0]
  let w := setBytes w (o + 14) [2, 0]
  rwHeader rw ++ w ++ payload

/-- The output of an Ethernet frame built from an entry, to its port or to the destination proposal (63). -/
def ethOut (n : Nat) (e : List Word) (bytes : List Byte) : SkyOut := ⟨eb e 6 19 14, bytes, none, some n⟩

/-- The ACF messages of a frame from an offset: type, bus, identifier, ide, fmt and payload of each (IEEE 1722, assumption 17). -/
def acfMsgs (bs : List Byte) : Nat → Nat → List (Nat × Nat × Nat × List Byte)
  | 0, _ => []
  | n + 1, off =>
    let q := fieldAt bs off 2 % 512
    if q = 0 ∨ bs.length < off + 4 * q then []
    else
      let ty := fieldAt bs off 1 / 2
      let pad := fieldAt bs (off + 2) 1 / 64
      let h := if ty = 1 then 16 else if ty = 2 then 8 else if ty = 3 then 12 else 4
      let id := if ty = 1 then fieldAt bs (off + 12) 4 % 536870912
        else if ty = 2 then fieldAt bs (off + 4) 4 % 536870912 else fieldAt bs (off + 3) 1
      let bus := if ty = 3 then fieldAt bs (off + 2) 1 % 32 else fieldAt bs (off + 3) 1 % 32
      (ty, bus, id, bytesAt bs (off + h) (4 * q - h - pad)) :: acfMsgs bs n (off + 4 * q)

/-- What a translation program makes of a frame: outputs, and causes of drops of single messages; or the cause that drops the
frame. -/
abbrev XltRes := (List SkyOut × List (Nat × Nat)) ⊕ (Nat × Nat)

/-- Add the legacy output of one message or payload. -/
def State.addOut (s : State) (f : Frm) (prof : List Word) (x : Nat × List Word) (payload : List Byte)
    (acc : List SkyOut × List (Nat × Nat)) : State × (List SkyOut × List (Nat × Nat)) :=
  let r := s.legacyOut f prof x payload
  match r.2 with
  | .inl o => (r.1, (acc.1 ++ [o], acc.2))
  | .inr c => (r.1, (acc.1, acc.2 ++ [(c, x.1)]))

/-- ACF_TO_CAN and ACF_TO_LIN: one legacy frame for each message of type ACF_CAN or ACF_LIN, up to max_out; another message matches no
entry. A frame that is no IEEE 1722 NTSCF or TSCF frame is BAD_FORMAT. The ide of a message is not compared (entry 91). -/
def State.acfIn (s : State) (f : Frm) (prof : List Word) (p : Parse) : State × XltRes :=
  let st := fieldAt f.bytes (p.l3.getD 0) 1
  match p.l3.filter fun _ => p.kind == 3 && (st == 0x82 || st == 0x05) with
  | none => (s, .inr (6, 0xFFF))
  | some o =>
    let hdr := if st = 0x82 then 12 else 24
    let sid := fieldAt f.bytes (o + 4) 8
    let ms := acfMsgs f.bytes (f.bytes.length / 4) (o + hdr)
    let mx := eb prof 5 3 0
    let r := (ms.take mx).foldl (fun (a : State × (List SkyOut × List (Nat × Nat))) m =>
      let hit := a.1.xltFind f.epoch prof fun e => m.1 == (if eb prof 0 31 24 = 2 then 1 else 3) && xltDir e == 1 && eb e 5 4 0 == m.2.1 && eb e 1 28 0 == m.2.2.1
        && (ew e 3).toNat * 4294967296 + (ew e 4).toNat == sid
      match hit with
      | none => (a.1, (a.2.1, a.2.2 ++ [(5, 0xFFF)]))
      | some x => a.1.addOut f prof x m.2.2.2 a.2) (s, ([], []))
    if ms.isEmpty then (s, .inr (5, 0xFFF))
    else (r.1, .inl (r.2.1, r.2.2 ++ (ms.drop mx).map fun _ => (8, 0xFFF)))

/-- The trailer check of R161: the state, and the cause of a drop. -/
def State.trailerCheck (s : State) (f : Frm) (prof e : List Word) (svc mth client : Nat) (payload : List Byte) : State × Option Nat :=
  let key := eb prof 0 7 0
  if !s.keyAllows key 0 3 then (s.bump .cipKeyDenied, some 4)
  else if payload.length < 24 then (s, some 1)
  else
    let n := payload.length - 24
    let m := beBytes 2 svc ++ beBytes 2 mth ++ beBytes 2 client ++ payload.take (n + 8)
    if cmac (s.slot key).bytes m ≠ bytesAt payload (n + 8) 16 then (s, some 1)
    else
      let r := s.freshCommit f.epoch (eb e 5 17 6) (fieldAt payload n 8)
      (r.1, if r.2 then none else some 3)

/-- SOMEIP_TO_CAN and SOMEIP_TO_LIN. -/
def State.sipIn (s : State) (f : Frm) (prof : List Word) (p : Parse) : State × XltRes :=
  match p.sip with
  | none => (s, .inr (6, 0xFFF))
  | some o =>
    let svc := fieldAt f.bytes o 2
    let mth := fieldAt f.bytes (o + 2) 2
    let len := fieldAt f.bytes (o + 4) 4
    let ty := fieldAt f.bytes (o + 14) 1
    let payload := bytesAt f.bytes (o + 16) (len - 8)
    match s.xltFind f.epoch prof fun e => xltDir e == 3 && eb e 2 31 16 == svc && eb e 2 15 0 == mth with
    | none => (s, .inr (5, 0xFFF))
    | some x =>
      if ty ≠ 1 ∧ ty ≠ 2 then (s, .inr (6, x.1))
      else
        let auth := ebit prof 0 19
        let a := if auth then s.trailerCheck f prof x.2 svc mth (fieldAt f.bytes (o + 8) 2) payload else (s, none)
        match a.2 with
        | some c => (a.1, .inr (c, x.1))
        | none =>
          let r := a.1.addOut f prof x (if auth then payload.take (payload.length - 24) else payload) ([], [])
          match r.2.1, r.2.2 with
          | [], (c, e) :: _ => (r.1, .inr (c, e))
          | outs, _ => (r.1, .inl (outs, []))

/-- The programs that take a legacy frame: to IEEE 1722, to SOME/IP, and CAN_GW. -/
def State.legacyIn (s : State) (f : Frm) (prof : List Word) (l : LegRec) (prog : Nat) (wrap : List Byte)
    (gw : Option (BitVec 12)) : State × XltRes :=
  let dir := if prog = 1 ∨ prog = 5 then 0 else if prog = 3 ∨ prog = 7 then 2 else 4
  let hit := if dir = 4 then
      gw.bind fun g => s.xltFind f.epoch prof fun e => xltDir e == 4 && e == s.ent 0x31 f.epoch g.toNat
    else s.xltFind f.epoch prof fun e => xltDir e == dir && xltLegEq f.inPort l e
  match hit with
  | none => (s, .inr (5, 0xFFF))
  | some x =>
    let c := if ebit prof 0 20 then s.secocCheck f prof x.2 l.data else (s, none)
    match c.2 with
    | some c' => (c.1, .inr (c', x.1))
    | none =>
      let s := c.1
      if dir = 4 then
        let r := s.addOut f prof x l.data ([], [])
        match r.2.1, r.2.2 with
        | [], (c, e) :: _ => (r.1, .inr (c, e))
        | outs, _ => (r.1, .inl (outs, []))
      else if dir = 0 ∧ l.fmt = 2 then (s, .inr (6, x.1))
      else if xltLen x.2 < l.data.length then (s, .inr (6, x.1))
      else
        let rw := s.ent 6 f.epoch (eb x.2 6 31 20)
        let pl := padTo (xltLen x.2) l.data
        let bytes := if dir = 0 then acfFrame f l (decide (f.inPort < 48)) x.2 rw wrap pl else sipFrame x.2 rw wrap pl
        (s, .inl ([ethOut x.1 x.2 bytes], []))

/-- What the translation program of a profile makes of a frame. The inspection programs build nothing. A frame of a kind that the program
does not take is BAD_FORMAT (entry 91, DESIGN CHOICE: the spec names no cause for it). -/
def State.translate (s : State) (f : Frm) (prof : List Word) (wraps : List (List Byte)) (gw : Option (BitVec 12)) :
    State × XltRes :=
  let prog := eb prof 0 31 24
  let p := parseEth (s.parseCfg f.inPort) f.bytes
  match f.leg with
  | some l => if prog = 1 ∨ prog = 3 ∨ prog = 5 ∨ prog = 7 ∨ prog = 9 then s.legacyIn f prof l prog (wraps.getD 0 []) gw
      else (s, .inr (6, 0xFFF))
  | none =>
    if prog = 2 ∨ prog = 6 then s.acfIn f prof p
    else if prog = 4 ∨ prog = 8 then s.sipIn f prof p
    else (s, .inr (6, 0xFFF))

/-! ## Verdicts (R137 to R140, R152) -/

/-- A destination of an EMIT frame lies in the profile's masks (R138): an Ethernet port for an Ethernet frame, a channel for a legacy
one. -/
def destOk (prof : List Word) (leg : Bool) (p : Nat) : Bool :=
  if leg then decide (32 ≤ p) && decide (p < 56) && gateBit (eb prof 3 23 0) (p - 32)
  else decide (p < 18) && gateBit (eb prof 2 17 0) p

/-- The destinations that a program sets for an EMIT frame: one port, or the destination proposal (63). -/
def SkyOut.ports (o : SkyOut) (d : Desc) : List Nat :=
  if o.port = 63 then (if o.leg.isSome then [] else d.dest.map Prod.fst) else [o.port]

/-- Store the frame of an EMIT output (R96, R136): it keeps the epoch, ordinal, priority and stream of its origin. -/
def State.builtFrm (s : State) (f : Frm) (o : SkyOut) (refs : Nat) : State × Nat :=
  s.newFrm { f with orig := o.bytes, bytes := o.bytes, leg := o.leg, tail := true, bad := false, ctRx := false, steer := true,
                    sec := 0, tsReq := false, slot := none, prov := none, begun := false, inRx := false, refs := refs }

/-- Apply an EMIT (R137, R138): frames beyond max_out, and those without a destination or with a denied one, are discarded. -/
def State.emitOuts (s : State) (k t : Nat) (d : Desc) (prof : List Word) (f : Frm) (outs : List SkyOut) : State × List SlotOut :=
  let mx := eb prof 5 3 0
  let s := (outs.drop mx).foldl (fun s o => s.skyDrop 8 k t d.prof (o.xlt.getD 0xFFF) f) s
  (outs.take mx).foldl (fun (a : State × List SlotOut) o =>
    let ps := o.ports d
    if !ps.isEmpty && ps.all (destOk prof o.leg.isSome) then
      let n := a.1.builtFrm f o ps.length
      (n.1, a.2 ++ ps.map fun p => ⟨n.2, p, .plain, if o.leg.isSome then o.xlt else none⟩)
    else (a.1.skyDrop 9 k t d.prof (o.xlt.getD 0xFFF) f, a.2)) (s, [])

/-- A slot becomes READY with outputs, whose references it takes. -/
def State.slotReady (s : State) (n : Nat) (outs : List SlotOut) : State := s.slotTo n (.ready outs)

/-- The check of R161 on a SOME/IP input that an inspection program passes: the state, and the cause and the entry of a drop. The entry
that names the freshness is found as R154 matches a SOME/IP input. DEDUCED (entry 73). -/
def State.authPass (s : State) (f : Frm) (prof : List Word) : State × Option (Nat × Nat) :=
  match f.leg, (parseEth (s.parseCfg f.inPort) f.bytes).sip with
  | none, some o =>
    let svc := fieldAt f.bytes o 2
    let mth := fieldAt f.bytes (o + 2) 2
    if !ebit prof 0 19 then (s, none)
    else match s.xltFind f.epoch prof fun e => xltDir e == 3 && eb e 2 31 16 == svc && eb e 2 15 0 == mth with
      | none => (s, some (5, 0xFFF))
      | some x =>
        let r := s.trailerCheck f prof x.2 svc mth (fieldAt f.bytes (o + 8) 2)
          (bytesAt f.bytes (o + 16) (fieldAt f.bytes (o + 4) 4 - 8))
        (r.1, r.2.map fun c => (c, x.1))
  | _, _ => (s, none)

/-- A thread ends a descriptor whose slot still waits. A DROP with cause 0, which R165 does not list, counts as INSPECT (DESIGN CHOICE,
assumption 97). -/
def State.verdict (s : State) (k t : Nat) (d : Desc) (v : SkyVerdict) : State :=
  let f := s.frm d.frm
  let prof := s.profOf d
  let dropIt (s : State) (c x : Nat) : State := (s.skyDrop c k t d.prof x f).voidSlot (some d.slot)
  match v with
  | .poison => dropIt s 11 0xFFF
  | .drop c x => if c = 0 then dropIt s 10 0xFFF else dropIt s c ((x.map BitVec.toNat).getD 0xFFF)
  | .trap => (s.holdFrm d.frm 1).slotReady d.slot [⟨d.frm, 17, .asReceived, none⟩]
  | .pass edited =>
    let a := s.authPass f prof
    match a.2 with
    | some (c, e) => dropIt a.1 c e
    | none =>
      let s := a.1
      if d.dest.isEmpty then (s.skyDrop 9 k t d.prof 0xFFF f).slotReady d.slot []
      else
        let s := match edited with
          | some b => if f.leg.isNone then s.setFrm d.frm { f with bytes := b } else s
          | none => s
        (s.holdFrm d.frm d.dest.length).slotReady d.slot (d.dest.map fun o => ⟨d.frm, o.1, o.2, none⟩)
  | .emit outs =>
    let r := s.emitOuts k t d prof f outs
    r.1.slotReady d.slot r.2
  | .translate wraps gw =>
    let x := s.translate f prof wraps gw
    match x.2 with
    | .inr (c, e) => dropIt x.1 c e
    | .inl (outs, drops) =>
      let s := drops.foldl (fun s c => s.skyDrop c.1 k t d.prof c.2 f) x.1
      let r := s.emitOuts k t d prof f outs
      if outs.isEmpty then r.1.voidSlot (some d.slot) else r.1.slotReady d.slot r.2

/-- What a program that completes late has done to the freshness table: its outputs are discarded (R152, R156, R157). -/
def State.lateRun (s : State) (d : Desc) (v : SkyVerdict) : State :=
  let f := s.frm d.frm
  match v with
  | .translate wraps gw => (s.translate f (s.profOf d) wraps gw).1
  | .pass _ => (s.authPass f (s.profOf d)).1
  | _ => s

/-- What the thread of a descriptor has read: its frame, and the entries that its program needs. True when poison is among it (R369). -/
def State.skyReads (s : State) (d : Desc) : State × Bool :=
  let r := s.frameRead d.frm
  let x := r.1.xltRead (s.frm d.frm).epoch d.prof
  (x.1, r.2.isSome || x.2)

/-- A thread ends its descriptor (R137). A hold expiry of the same cycle comes first, and the completion is late (R152). -/
def State.descDone (s : State) (k t : Nat) (v : SkyVerdict) : State :=
  match tblFind (s.skerry k).threads t with
  | none => s
  | some r =>
    let s := ((s.threadEnd k t).bump .skyKFrames k).hrbHolds r.d.slot
    let b := s.skyReads r.d
    let s := b.1
    let s := if s.slotWaits r.d.slot r.d.frm then s.verdict k t r.d (if b.2 then .poison else v)
      else (if b.2 then s else s.lateRun r.d v).bump .hrbLate
    (s.dropRef r.d.frm).marks

def execSkerryDescriptorDone (k : Fin 32) (t : Fin 4) (v : SkyVerdict) (s : State) : Host.Outcome State Fault Refusal :=
  .next (if s.fabricOn then s.descDone k t v else s)

/-! ## Stealing (R146, R147) -/

/-- Skerry `k` has an idle thread that serves its normal queue. -/
def State.skyIdle (s : State) (k : Nat) : Bool :=
  (List.range 4).any fun t => (t != 0 || !s.skyResv k) && (tblFind (s.skerry k).threads t).isNone

/-- A descriptor may be stolen. -/
def State.maySteal (s : State) (d : Desc) : Bool := ebit (s.profOf d) 0 22 && !d.stolen

/-- The victims of a thief, in the order of its probe. -/
def State.victims (s : State) (k : Nat) : List Nat :=
  (((List.range 31).map fun i => (k + 1 + i) % 32).filter s.skyOk).take (s.fld F.skyStealCfg_span)

/-- Skerry `k` is a thief whose next probe is due (R146). -/
def State.mayProbe (s : State) (k : Nat) : Bool :=
  s.fabricOn && s.on F.skyStealCfg_en && s.skyOk k && (s.skerry k).norm.isEmpty && s.skyIdle k
    && (s.skerry k).probeAt.all fun t => decide (t + 8 ≤ s.tim.lt)

/-- The descriptor that a thief selects, with its victim. -/
def State.stealPick (s : State) (k : Nat) : Option (Nat × Desc) :=
  (s.victims k).findSome? fun v =>
    let y := s.skerry v
    if y.norm.length < s.fld F.skyStealCfg_min_depth then none
    else ((y.norm.take 8).find? s.maySteal).map fun d => (v, d)

/-- A thief's selection goes to another in the same cycle (R147): to a thread of the victim that is free for the head of its queue, or
to a thief of lower number whose probe is due. DEDUCED (entry 35). -/
def State.stealLost (s : State) (k : Nat) (x : Nat × Desc) : Bool :=
  ((s.skerry x.1).norm.head? == some x.2 && s.skyIdle x.1 && (s.frm x.2.frm).tail)
    || (List.range k).any fun j => s.mayProbe j && s.stealPick j == some x

/-- A thief's probe (R146, R147), at most one in 8 cycles. -/
def State.stealProbe (s : State) (k : Nat) : State :=
  if !s.mayProbe k then s
  else
    let r := s.stealPick k
    let s := s.setSky k { s.skerry k with probeAt := some s.tim.lt }
    match r with
    | none => s
    | some (v, d) =>
      if s.stealLost k (v, d) then s
      else
        let y := s.skerry v
        let s := s.setSky v { y with norm := y.norm.erase d }
        let x := s.skerry k
        let s := s.setSky k { x with norm := [{ d with stolen := true }], lastRun := if x.resv.isEmpty then s.tim.lt else x.lastRun }
        (s.bump .skyKStolenOut v).bump .skyKStolenIn k

def execStealProbe (k : Fin 32) (s : State) : Host.Outcome State Fault Refusal := .next (s.stealProbe k)

/-! ## Faults and service (R159 to R161) -/

/-- Void the slots of descriptors, in ascending sequence order within each flow, and drop the references. -/
def State.voidDescs (s : State) (l : List Desc) : State :=
  l.foldl (fun s d => (if s.slotWaits d.slot d.frm then s.voidSlot (some d.slot) else s).dropRef d.frm) s

/-- Rewrite every home-map entry that names a Skerry. -/
def State.rehome (s : State) (k j : Nat) : State :=
  (List.range 64).foldl (fun s n =>
    let w := s.rd .skyHomeMap n
    let w' := (List.range 4).foldl (fun w i =>
      if getBits w (8 * i + 4) (8 * i) = k then putBits w (8 * i + 4) (8 * i) j else w) w
    if w' = w then s else s.wr .skyHomeMap n w') s

/-- Skerry `k` faults with a cause (R160). The record of a fault has no frame: the words that describe one are open. -/
def State.skyFault (s : State) (k cause : Nat) : State :=
  if !s.skyOk k then s
  else
    let x := s.skerry k
    let s := s.wr .skyStatus 0 (putBits (s.rd .skyStatus) k k 0)
    let s := s.wr .skyFaultRec 0 (putBits (putBits 0 31 28 cause) 20 16 k)
    let s := (s.setSky k Skerry.reset).voidDescs ((x.threads.map fun r => r.2.d) ++ x.resv ++ x.norm)
    let s := match s.skyNext k fun _ => true with
      | some j => s.rehome k j
      | none => s
    let s := (s.bump .skyKFaults k).raise Ev.skyFault
    let d := s.drawWord
    let e := d.2.drawWord
    let g := e.2.drawWord
    g.2.skyRecord 0 k (getBits g.1 1 0) (getBits g.1 9 2) d.1.toNat e.1.toNat (getBits g.1 15 10) 0xFFF

def execSkerryFault (k : Fin 32) (cause : Fin 3) (s : State) : Host.Outcome State Fault Refusal :=
  .next (if s.fabricOn then s.skyFault k (cause + 1) else s)

/-- An uncorrectable error in the program memory (0x06) or the data memory (0x07) of a Skerry is its fault 1 or 2 (R159, R357). -/
def State.skyMemFault (s : State) (mem k : Nat) (bad : Bool) : State :=
  if bad && (mem == 6 || mem == 7) then s.skyFault k (mem - 5) else s

/-- The program of Skerry `k` reads its memories: what is in error there is found (DESIGN CHOICE, assumption 92: the spec does not say which
words a program reads, and the model has it read every one that holds an error). -/
def State.skyFetch (s : State) (k : Nat) : State :=
  if s.memClean then s
  else [6, 7].foldl (fun s m =>
    let lo := memKey m k 0
    let l := s.mem.errs.filter fun e => decide (lo ≤ e.1) && decide (e.1 < lo + 16777216)
    let r := l.foldl (fun (x : State × Bool) e =>
      let y := x.1.memRead m k (e.1 - lo) .none 0
      (y.1, x.2 || y.2)) (s, false)
    r.1.skyMemFault m k r.2) s

/-- The scrubber reads a word (R361). -/
def execScrubRead (mem : Fin 22) (inst : Fin 32) (addr : BitVec 24) (upset : Upset) (s : State) :
    Host.Outcome State Fault Refusal :=
  let t := s.scrub mem inst addr.toNat upset
  .next (t.skyMemFault mem inst (t.ctr .memUe mem != s.ctr .memUe mem))

/-- No thread of the Skerry has completed an instruction for 10 us while its queues hold work (R159). -/
def execSkerryStallTimeout (k : Fin 32) (s : State) : Host.Outcome State Fault Refusal :=
  let x := s.skerry k
  .next (if s.fabricOn && !(x.norm.isEmpty && x.resv.isEmpty) && decide (x.lastRun + tkUs 10 ≤ s.tim.lt) then s.skyFault k 4 else s)

/-- The errors in the program and data memory of Skerry `k` go with the content that its restore writes (R161), to which an armed flip mask is
applied (R371). -/
def State.skyMemClear (s : State) (k : Nat) : State :=
  let here (key : Nat) : Bool := [6, 7].any fun m => key / 16777216 == m * 64 + k
  let s := { s with mem := { s.mem with errs := tblKeep (fun key _ => !here key) s.mem.errs } }
  let at_ := if s.on F.memFlipCtrl_addr_en then (s.rd .memFlipAddr).toNat else 0
  [6, 7].foldl (fun s m => if s.flipArmed m k (fun _ => true) then s.applyFlip m k at_ 0 else s) s

/-- A thread takes a descriptor and its program runs. -/
def execSkerryThreadTake (k : Fin 32) (t : Fin 4) (s : State) : Host.Outcome State Fault Refusal :=
  .next ((if s.fabricOn && s.skyOk k then s.skyFetch k else s).threadTake k t)

/-- A write of SKY_CTRL (R159, R161): retire, then restore with the outcome of the self-test. -/
def State.wrSkyCtrl (s : State) (data : Word) (ok : Bool) : State :=
  let s := (s.writeReg .skyCtrl 0 data).flushBlk .sky
  let k := s.fld F.skyCtrl_restore_idx
  let s := if F.skyCtrl_retire.of data = 1 then s.skyFault k 5 else s
  if F.skyCtrl_restore.of data = 1 ∧ s.skyOk k = false then
    let s := s.skyMemClear k
    if ok then s.wr .skyStatus 0 (putBits (s.rd .skyStatus) k k 1) else s
  else s

def execSkerryRetire (path : Path) (k : Fin 32) (s : State) : Host.Outcome State Fault Refusal :=
  let w := putBits 0x40000000 20 16 k
  .next (s.accessReg path .skyCtrl 0 w fun s => s.wrSkyCtrl w false)

def execSkerryRestore (path : Path) (k : Fin 32) (selfTest : Bool) (s : State) : Host.Outcome State Fault Refusal :=
  let w := putBits 0x80000000 20 16 k
  .next (s.accessReg path .skyCtrl 0 w fun s => s.wrSkyCtrl w selfTest)

/-- A write of SKY_HOME_MAPn: a field that names a Skerry out of service keeps its value (R143). -/
def State.wrHomeMap (s : State) (n : Nat) (data : Word) : State :=
  let w := s.rd .skyHomeMap n
  let r := (List.range 4).foldl (fun (a : Word × Bool) i =>
    let k := getBits data (8 * i + 4) (8 * i)
    if s.skyOk k then (putBits a.1 (8 * i + 4) (8 * i) k, a.2) else (a.1, true)) (w, false)
  let s := s.wr .skyHomeMap n r.1
  if r.2 then s.accessErr .sky else s

def execHomeMapWrite (path : Path) (n : BitVec 6) (data : Word) (s : State) : Host.Outcome State Fault Refusal :=
  .next (s.accessReg path .skyHomeMap n.toNat data fun s => s.wrHomeMap n.toNat data)

end Sys2Proof.Machine
end

