-- ==== Sys2Proof/Machine/Load.lean ====
section
/-! DEFINITION. The load of a configuration set (R100, R130, R400), its swap (R54 to R57, R242, R247, R410), and the minimal
configuration that is built from it (R413). -/

namespace Sys2Proof.Machine

open Sys2Proof

/-! ## The load -/

/-- A load so far: the state with the set's registers, the load-result words, and the outcome: code, detail and item. -/
structure LoadRun where
  s      : State
  res    : List (Reg × Word)
  code   : Nat
  detail : Nat
  ord    : Nat

/-- The word of a load-result register. -/
def resultWord : Fail → Word
  | none => 0x80FFFF00
  | some (o, d) => putBits (putBits 0x80000000 23 8 o) 7 0 d

/-- Run one check of R400 and record its result. -/
def LoadRun.check (a : LoadRun) (r : Reg) (code : Nat) (f : State → State × Fail) : LoadRun :=
  if a.code ≠ 0 then a
  else
    let x := f a.s
    let res := a.res ++ [(r, resultWord x.2)]
    match x.2 with
    | none => { a with s := x.1, res := res }
    | some (o, d) => ⟨x.1, res, code, d, o⟩

/-- Run a check that has no load-result register. -/
def LoadRun.test (a : LoadRun) (code : Nat) (f : State → Bool) : LoadRun :=
  if a.code = 0 ∧ f a.s then { a with code := code, detail := 0, ord := 0xFFFF } else a

/-- A check that writes nothing. -/
def pureCheck (f : State → Fail) (s : State) : State × Fail := (s, f s)

/-- The tables whose entries carry ep_mask. -/
def maskTabs : List MaskTab := [ruleTab 0, fdbTab, hostTab, sidTab, mapTab]

/-- The registers with one copy per parity, as they stand. -/
def State.parRegs (s : State) : Tbl Word :=
  s.regs.filter fun x => [Reg.clsDscpMap, .clsPrioCfg, .fdbPortCfg, .fdbFloodMask, .qmgClassMap].any fun r =>
    r.ctorIdx == x.1 % 512

/-- Load a set for parity `par`: check it and write its tables. `boot`: the set is to become active in this BOOT; else it is a
shadow. `dig` is the digest of the FWIM. The registers of the set are not written to the live state. -/
def State.loadSet (s : State) (c : Cset) (par : Nat) (boot : Bool) (dig : List Byte) : LoadRun :=
  let s0 := if boot then s
    else maskTabs.foldl (fun s m => s.narrow m par) { s with net := { s.net with shadow := s.parRegs } }
  let s1 := (s0.withRegs c par).loadCopies par c.tabs
  let s2 := c.bursts.foldl (fun s b => match s.burstDepth b.1 b.2 with
    | some d => if b.1 < 144 then s.setFld F.schTbDepth_depth b.1 d else s
    | none => s) s1
  let a : LoadRun := ⟨s2.setResv c par, [], 0, 0, 0xFFFF⟩
  let a := a.test 0x08 fun _ => c.ports.any portReserved
  let a := a.check .clsLoadResult 0x11 fun t => thenLoad (State.loadRules c par 0 [] c.rules t) (pureCheck fun t => t.clsCheck c par boot s)
  let a := a.check .skyLoadResult 0x11 (pureCheck fun t => t.skyCheck c par)
  let a := a.check .fdbLoadResult 0x12 fun t => t.loadFwd c par boot s
  let a := a.check .canLoadResult 0x14 fun t => t.loadLegacy c par
  let a := a.check .pwrLoadResult 0x17 (pureCheck fun t => t.wakeCheck)
  let a := a.check .cipLoadResult 0x15 (pureCheck fun t => t.cipCheck c par)
  let a := a.check .qmgLoadResult 0x13 (pureCheck fun t => t.queueingCheck c par)
  let a := a.check .tgaLoadResult 0x13 (pureCheck fun t => t.tgaCheck c)
  let a := a.check .memLoadResult 0x13 (pureCheck fun t => t.parQueueCheck c par)
  let a := if a.code ≠ 0 then a
    else
      let x := a.s.contract c par dig a.s
      let w := x.1.rd .cfgBdcResult
      if x.2 then { a with s := x.1.setBudgets c par, res := a.res ++ [(.cfgBdcResult, w)] }
      else ⟨x.1, a.res ++ [(.cfgBdcResult, w)], 0x10, getBits w 7 0, getBits w 27 16⟩
  let a := a.test 0x18 fun _ => decide (128 < c.linRoutes.length) || decide (64 < c.minEth.length)
  a.check .redLoadResult 0x16 (pureCheck fun t => t.redCheck c par)

/-- The state after a load from `s`: its results are reported; the tables of a set that is refused are not kept. -/
def LoadRun.finish (a : LoadRun) (s : State) : State :=
  let base := if a.code = 0 then ({ a.s with regs := s.regs }).wr .memFlipCtrl 0 (a.s.rd .memFlipCtrl)
    else { s with free := a.s.free }
  a.res.foldl (fun s x => s.wr x.1 0 x.2) base

/-! ## The registers of a set become live -/

/-- The RW bits of a word. -/
def rwOnly (r : Reg) (w : Word) : Word := rwMerge w r.info.fields 0

/-- Registers that are written channel by channel, gate by gate or port by port. -/
def grouped (r : Reg) : Bool :=
  tideReg r || [Reg.canCtrl, .canNbt, .canDbt, .canXbt, .canTdc, .canPwm, .schGateCfg, .schGateList, .schGateCycle, .schGateBase,
    .schGateAdmin0, .schGateAdmin1].contains r

/-- Write a register of a set, with the effect of the write. A port whose mode changes goes through en = 0 (R461, entry 69). -/
def State.applyReg (s : State) (x : Reg × Nat × Word) : State :=
  let w := rwMerge x.2.2 x.1.info.fields (s.rd x.1 x.2.1)
  if x.1 = .glbSafeCfg ∧ !s.on F.glbSafeCfg_lock then s.wrSafeCfg w
  else if w = s.rd x.1 x.2.1 then s
  else
    let d := rwOnly x.1 w
    match x.1 with
    | .macPortCfg =>
      let p := x.2.1
      let old := s.rd .macPortCfg p
      let moves := ((p < 12 || 14 ≤ p) && F.macPortCfg_mode.of w != F.macPortCfg_mode.of old)
        || (p < 12 && F.macPortCfg_t1_master.of w != F.macPortCfg_t1_master.of old)
      if s.on F.macPortCfg_en p && moves then (s.wrPortCfg p (putBits old 31 31 0)).wrPortCfg p d
      else s.wrPortCfg p d
    | .timDomCfg => s.wrDomCfg x.2.1 d
    | .timDomFreq | .timDomSlewCfg => s.wrDomRate x.1 x.2.1 d
    | .tgaPreemptCfg => s.wrPreemptCfg x.2.1 d
    | .linCtrl => s.wrLinCtrl x.2.1 d
    | .schTbRate => s.wrTbRate x.2.1 d
    | .schSTbRate => s.wrTbRate (144 + x.2.1) d
    | .schTbDepth => s.wrTbDepth x.2.1 d
    | .schSTbDepth => s.wrTbDepth (144 + x.2.1) d
    | .schCbsSlope => s.wrCbsSlope x.2.1 d
    | .schCbsHi => s.wrCbsHi x.2.1 d
    | .schMaxwait => s.wrMaxwait x.2.1 d
    | .schPortCfg => s.wrSchPortCfg x.2.1 d
    | .mtrCtrl | .mtrCir | .mtrPir | .mtrCbs | .mtrEbs => s.wrMeter x.1 x.2.1 d
    | .cipSecyCfg => s.wrSecyCfg x.2.1 d
    | .cipTxscCtrl => s.wrEncAn x.2.1 d
    | .tssPhyCfg | .tssPlcaCtrl | .tssPlcaTmr => s.wrPlca x.1 x.2.1 d
    | .fdbFlapCfg => s.wrFlapCfg d
    | .glbSafeCfg => s.wrSafeCfg d
    | .redCfg => s.wrRedCfg d
    | .evtRoute => s.wrEvtRoute true x.2.1 d
    | .qmgPortLim => s.wrPortLim x.2.1 d
    | .skyHomeMap => s.wrHomeMap x.2.1 d
    | .fdbLearnCfg | .skyMqCfg => s.wrProducer x.1 d
    | .timTscCfg => s.wrTscCfg x.2.1 d
    | .timTscStorm => s.wrTscReg .timTscStorm x.2.1 d
    | .timPpsCfg => s.wrPpsCfg x.2.1 d
    | .pwrWakeoutCfg => (s.writeReg x.1 x.2.1 d).pins
    | _ => s.writeReg x.1 x.2.1 d

/-- Write the registers of a set that are not grouped: the event routes before GLB_SAFE_CFG is locked (R454). -/
def State.applyRegs (s : State) (l : List (Reg × Nat × Word)) : State :=
  let s := (l.filter fun x => x.1 == .evtRoute).foldl State.applyReg s
  (l.filter fun x => !grouped x.1 && x.1 != .evtRoute).foldl State.applyReg s

/-- Write grouped registers without effects. -/
def State.putRegs (s : State) (l : List (Reg × Nat × Word)) (p : Reg → Nat → Bool) : State :=
  (l.filter fun x => p x.1 x.2.1).foldl (fun s x => s.wr x.1 x.2.1 (rwMerge x.2.2 x.1.info.fields (s.rd x.1 x.2.1))) s

/-- The registers of CAN channel `n` that R247 guards. -/
def canTimed (n : Nat) (r : Reg) (i : Nat) : Bool :=
  i == n && [Reg.canCtrl, .canNbt, .canDbt, .canXbt, .canTdc, .canPwm].contains r

/-- The set's settings of CAN channel `n` (R247): a running channel whose timing or mode changes goes through en = 0. -/
def State.applyCan (s : State) (l : List (Reg × Nat × Word)) (n : Nat) : State :=
  let t := s.putRegs l (canTimed n)
  let ctrl := t.rd .canCtrl n
  let moved := [Reg.canNbt, .canDbt, .canXbt, .canTdc, .canPwm].any fun r => t.rd r n != s.rd r n
  if t = s then s
  else if !moved && F.canCtrl_mode.of ctrl == s.fld F.canCtrl_mode n then s.wrCanCtrl n ctrl
  else
    let s := if s.on F.canCtrl_en n then s.wrCanCtrl n (putBits (s.rd .canCtrl n) 31 31 0) else s
    let s := (l.filter fun x => canTimed n x.1 x.2.1 && x.1 != .canCtrl).foldl (fun s x =>
      s.wrCanTiming x.1 n (rwOnly x.1 (rwMerge x.2.2 x.1.info.fields (s.rd x.1 n)))) s
    s.wrCanCtrl n ctrl

/-- The set `l` gives the tide table or the preemption of a port the values that the active set `old` gives it (R242); a register
that the active set leaves out counts as it stands in `s`. -/
def State.tideSame (s : State) (old l : List (Reg × Nat × Word)) (p : Nat) : Bool :=
  let of (r : Reg) (i : Nat) : Bool := (tideReg r && tidePort r i == p) || (r == .tgaPreemptCfg && i == p)
  let o := s.putRegs old of
  (o.putRegs l of).regs == o.regs

/-- The set's tide table of a port (R242): written and committed when it differs from that of the active set, or at BOOT. -/
def State.applyTide (s : State) (l : List (Reg × Nat × Word)) (same : Bool) (p : Nat) : State :=
  if same then s
  else
    let t := s.putRegs l (fun r i => tideReg r && tidePort r i == p)
    let t := t.setTide p { t.tide p with pend := none }
    if t.on F.tgaCfg_en p then t.tideCommit p else t

/-- An instance of a register belongs to the settings of stream gate `g`; the pool entries are not among them. -/
def gateOf (g : Nat) (r : Reg) (i : Nat) : Bool :=
  if r = .schGateBase then i / 3 == g else [Reg.schGateCfg, .schGateList, .schGateCycle].contains r && i == g

/-- The set's stream gates, by the same rules (R190). -/
def State.applyGates (s : State) (l : List (Reg × Nat × Word)) (boot : Bool) : State :=
  let old (g : Nat) : Option Sched := s.gateAdmin g
  let pool (r : Reg) (_ : Nat) : Bool := r == .schGateAdmin0 || r == .schGateAdmin1
  let t := s.putRegs l pool
  let gs := (List.range 256).filter fun g => l.any fun x => gateOf g x.1 x.2.1
  let t := gs.foldl (fun t g => t.putRegs l (gateOf g)) t
  gs.foldl (fun t g =>
    if t.on F.schGateCfg_en g && (boot || t.gateAdmin g != old g || !s.on F.schGateCfg_en g) then
      (t.setGate g { t.gate g with pend := none }).gateCommit g
    else t) t

/-- A bucket or meter that the set enables starts full at the sizes of the set (R182, R192). -/
def State.fillStarted (old s : State) (l : List (Reg × Nat × Word)) : State :=
  l.foldl (fun s x => match x.1 with
    | .schTbRate => if old.tbOn x.2.1 then s else s.setLevel x.2.1 (s.tbFull x.2.1)
    | .schSTbRate => if old.tbOn (144 + x.2.1) then s else s.setLevel (144 + x.2.1) (s.tbFull (144 + x.2.1))
    | .mtrCtrl => if old.on F.mtrCtrl_en x.2.1 then s else s.setMtr x.2.1 (s.mtrFull x.2.1)
    | _ => s) s

/-- A PTP value of the set that is discarded sets the ACCESS_ERR event of its block (R17). -/
def State.ptpErrors (s : State) (c : Cset) : State :=
  [Reg.tgaAdminBase, .schGateBase].foldl (fun s r =>
    if c.regs.any fun x => x.1 == r && c.ptpBad r x.2.1 then s.accessErr r.info.blk else s) s

/-- The registers of a set become live. -/
def State.applySet (s : State) (c : Cset) (boot : Bool) : State :=
  let l := c.own.filter fun x => boot || !parReg x.1
  let s := s.ptpErrors c
  let old := match s.boot.set with
    | some o => o.own
    | none => []
  let s' := s.applyRegs l
  let s' := c.bursts.foldl (fun s b => match s.burstDepth b.1 b.2 with
    | some d => if b.1 < 144 then s.wrTbDepth b.1 (BitVec.ofNat 32 d) else s
    | none => s) s'
  let s' := (s.fillStarted s' l).setResv c s'.epoch
  let s' := (List.range 16).foldl (fun s n => s.applyCan l n) s'
  let s0 := s
  let s' := (List.range 16).foldl (fun s p => s.applyTide l (!boot && s0.tideSame old l p) p) s'
  (s'.applyGates l boot).marks

/-! ## Fences (R55, R56) -/

/-- The identification entries of a parity, without valid and ep_mask. -/
def State.sidsOf (s : State) (par : Nat) : List (List Word) :=
  ((s.listed 0x19 0 0 (tabCount 0x19)).filter fun x => ebit x.2 0 31 && epHas (sidTab.mask x.2) par).map fun x => sidTab.withMask x.2 0

/-- The keys of the legacy map of a parity that give a priority other than 0. -/
def State.legPrios (s : State) (par : Nat) : List (Word × Word) :=
  ((s.listed 0x40 0 0 (tabCount 0x40)).filter fun x =>
    ebit x.2 0 31 && epHas (mapTab.mask x.2) par && eb x.2 0 2 0 != 0).map fun x => (ew x.2 0 &&& 0x4FC00007, ew x.2 1)

/-- The two lists hold the same items. -/
def sameItems {α : Type} [BEq α] (a b : List α) : Bool := a.all b.contains && b.all a.contains

/-- The ports that a swap from `s` to the shadow set fences: one flow key could go to different queues there. `t` holds the registers
of the new set. -/
def State.fencePorts (s t : State) (new : Nat) : List Nat :=
  let old := new + 1
  let a := s.sidsOf old
  let b := s.sidsOf new
  let moved := (a.filter fun e => !b.contains e) ++ b.filter fun e => !a.contains e
  let legacy := !sameItems (s.legPrios old) (s.legPrios new)
  let streams := ((a ++ b).map fun e => eb e 0 11 0).eraseDups
  let methods (e : List Word) (par : Nat) : Nat := s.fldEp F.fdbPortCfg_sid_methods (eb e 0 27 22) par
  let probed := (a ++ b).filter fun e => decide (eb e 0 27 22 < 18) && methods e old != methods e new
  (List.range 18).filter fun p =>
    s.rdEp .qmgClassMap p old != s.rdEp .qmgClassMap p new || legacy
      || (streams.any fun k => s.streamQueue old k p != t.streamQueue new k p)
      || (moved ++ probed).any fun e => (s.streamQueue old (eb e 0 11 0) p).isSome || (t.streamQueue new (eb e 0 11 0) p).isSome

/-- The streams of which the stream parameter table of a parity holds an entry. -/
def State.strmsOf (s : State) (par : Nat) : List Nat := (s.listed 0x1A par 0 4096).map Prod.fst

/-- The streams whose identification entries or word 2 change at a swap (R130). -/
def State.restarted (s : State) (new : Nat) : List Nat :=
  let old := new + 1
  let a := s.sidsOf old
  let b := s.sidsOf new
  let of (l : List (List Word)) (k : Nat) : List (List Word) := l.filter fun e => eb e 0 11 0 == k
  ((((a ++ b).map fun e => eb e 0 11 0) ++ s.strmsOf old ++ s.strmsOf new).eraseDups).filter fun k =>
    !sameItems (of a k) (of b k) || ew (s.strm old k) 2 != ew (s.strm new k) 2

/-! ## The minimal configuration (R413) -/

/-- The minimal configuration of a set. -/
def Cset.minimal (c : Cset) (digest : List Byte) : MinCfg :=
  ⟨digest,
    c.own.filter (fun x => (match x.1.info.blk with
      | .can | .lin | .tss | .mac | .pwr => true
      | _ => x.1 == .fdbPortCfg) && (x.1 != .linTable || x.2.1 % 8 == 0)),
    c.map.filter (fun e => ebit e 0 29), c.linRoutes, c.minEth⟩

/-- Store the minimal configuration of a set. -/
def State.storeMinimal (s : State) (c : Cset) (digest : List Byte) : State :=
  { s with mram := { s.mram with minCfg := some (c.minimal digest), minHdr := s.mram.minHdr.store true } }

/-! ## The swap (R410) -/

/-- Exchange the copies of the registers that have one per parity. -/
def State.swapCopies (s : State) : State :=
  let live := s.parRegs
  let rest := s.regs.filter fun x => !live.contains x
  { s with
    regs := s.net.shadow.foldl (fun t x => tblPut t x.1 x.2) rest
    net := { s.net with shadow := live } }

/-- Steps 1 to 5 of the swap to the loaded shadow. -/
def State.swapTo (s : State) (sh : Shadow) (trial : Bool) : State :=
  let r := s.bcr
  let new := r.epoch + 1
  let t := s.withRegs sh.set new
  let fenced := s.fencePorts t new
  let rst := s.restarted new
  let s := s.setBcr { r with active := some ⟨sh.slot, sh.digest⟩, epoch := new % 4294967296, prev := r.active, csetTrial := trial }
  let s := s.swapCopies.applySet sh.set false
  let added : List Fence := fenced.map fun p => ⟨p, new % 4294967296, s.tim.lt⟩
  let kept := s.net.fences.filter fun (x : Fence) => !fenced.contains x.port
  let s := { s with net := { s.net with fences := kept ++ added } }
  let s := s.fenceSweep
  let s := s.wr .cfgSwapFenced 0 (BitVec.ofNat 32 (fenced.foldl (fun m p => m + 2 ^ p) 0))
  let s := rst.foldl State.strReset s
  let s := (s.bump .cfgSwaps).raise Ev.csetSwap
  let trialAt := if trial then some s.now else none
  let s := { s with boot := { s.boot with
    csetVer := sh.ver, shadow := none, cleanup := true, set := some sh.set, trialAt := trialAt } }
  s.storeMinimal sh.set sh.digest

end Sys2Proof.Machine
end

