-- ==== Sys2Proof/Machine/Life.lean ====
section
/-! DEFINITION. The life of the device below its start: supplies, RST_N, the entry into BOOT and what it resets (R26 to R28, R373,
R374, R459, R460), and clock loss (R25). -/

namespace Sys2Proof.Machine

open Sys2Proof

/-- The registers of the AON domain, which an entry into BOOT does not reset (R459). -/
def aonRegs : List Reg :=
  [.pwrWakeEn, .pwrWakeEn2, .pwrWakeSrc, .pwrTimer, .pwrWakeAll0, .pwrWakeAll1, .canLpfCfg, .canLpfMask, .canLpfDataLo,
    .canLpfDataHi, .canLpfCtl, .canLpfStat]

/-- The fuse values. -/
def fuseRegs : List Reg := [.keyUid]

/-- The entries of the register file that belong to some of these registers. -/
def State.regsOf (s : State) (l : List Reg) : Tbl Word := s.regs.filter fun x => l.any fun r => r.ctorIdx == x.1 % 512

/-- Registers that an entry into BOOT keeps; `hard` resets the PCIe core as well. -/
def State.keptRegs (s : State) (hard : Bool) : Tbl Word :=
  s.regsOf (aonRegs ++ fuseRegs ++ if hard then [] else [.hbrPcieStat])

/-- HBR_SIDEBAND at the entry into BOOT: the outputs of the device at rest, the inputs as they are. -/
def State.bootBalls (s : State) : Word :=
  let w := s.rd .hbrSideband
  let w := putBits (putBits (putBits w 0 0 1) 1 1 1) 2 2 1
  putBits (putBits w 4 4 1) 7 7 0

/-- The power state at the entry into BOOT: the AON part stays. The idle counter of an update session did not run in OFF (R417). -/
def Pwr.boot (p : Pwr) (off : Bool) (now : Nat) : Pwr :=
  { Pwr.reset with
    idleAt := if off then p.idleAt + (now - p.enteredAt) else p.idleAt
    idle0 := p.idle0
    coef := p.coef
    winLevel := p.winLevel
    wakeOut := p.wakeOut
    enteredAt := now
    retrain := if p.waking.isSome then p.coef.map Prod.fst else [] }

/-- The T1 ports of a mask. -/
def t1Ports (mask : Nat) : List Nat := (List.range 12).filter fun p => gateBit mask p

/-- Send WUP on the ports in wup_fwd, as at every wake (R388). -/
def State.sendWup (s : State) : State := (t1Ports (s.fld F.pwrTc10Cfg_wup_fwd)).foldl (fun s p => s.emit (.wup p)) s

/-- Entry into BOOT with a cause (R26, R401, R459, R460). `hard`: RST_N or a loss of supplies came before, which resets the PCIe core.
From STANDBY or SLEEP the entry raises WAKE (R381). -/
def State.enterBoot (s : State) (cause : Nat) (hard : Bool) : State :=
  let woke := s.op == .standby || s.op == .sleep
  let run := { BootRun.reset with cause := cause, fast := cause == 6 && !hard }
  let t : State := { State.reset with
    pending := s.pending
    now := s.now
    free := s.free
    out := s.out
    phys := { s.phys with rstLow := false, rstPend := false, rootLock := false, phyLock := [], phyRegs := [], ospi := 0, ospiRst := none }
    prevOp := s.op
    cause := cause
    regs := s.keptRegs hard
    hbr := { State.reset.hbr with msix := if hard then [] else s.hbr.msix, perstLow := s.hbr.perstLow, l2 := s.hbr.l2 && !hard }
    pwr := s.pwr.boot (s.op == .off) s.now
    boot := { Boot.reset with run := run, trialAt := s.boot.trialAt }
    mram := s.mram
    flash := s.flash
    keys := s.keys }
  (t.wr .hbrSideband 0 (t.pinWord s.bootBalls)).raiseIf woke Ev.wake

/-- Go to OFF (R26): the balls are as without supplies (R375). -/
def State.goOff (s : State) : State :=
  if s.op = .off then s.pins
  else
    let s := { s with op := .off, prevOp := s.op, pwr := { s.pwr with waking := none, retLost := false, enteredAt := s.now } }
    (s.restBalls.setBall 0 true).pins

/-! ## Supplies (R373, R374, R390) -/

/-- All rails needed for BOOT have become valid. Each VDDIO bank detects its level, 3.3 V or not, and keeps it until its loss (R467). -/
def State.suppliesValid (s : State) (ioA ioB : Bool) : State :=
  let was := s.phys.railsValid
  let s := if was then s else { s with phys := { s.phys with railsValid := true, vddioA := ioA, vddioB := ioB } }
  if was || !s.phys.aonValid || s.phys.rstLow then s
  else if s.op = .off then s.enterBoot 0 true
  else if s.phys.rstPend then s.enterBoot 1 true
  else if s.op = .sleep ∧ s.pwr.waking.isSome then s.enterBoot 6 false
  else s

def execSuppliesValid (s : State) (ioA : Bool := false) (ioB : Bool := true) : Host.Outcome State Fault Refusal := .next (s.suppliesValid ioA ioB)

/-- Supplies lost: VDD_AON, or a rail that the present state needs. In SLEEP only VDD_AON is needed. -/
def State.suppliesLost (s : State) (aon : Bool) : State :=
  let s := s.tearRow
  if aon then
    { s with phys := { s.phys with aonValid := false }, pwr := { s.pwr with inh := false, wakeOut := none } }.goOff
  else
    let t := { s with phys := { s.phys with railsValid := false } }
    if s.op = .sleep ∨ s.op = .off then t else t.goOff

def execSuppliesLost (aon : Bool) (s : State) : Host.Outcome State Fault Refusal := .next (s.suppliesLost aon)

/-- VDD_AON becomes valid after its loss: every register takes its reset value, the AON fields zero, and INH goes high. -/
def State.aonValid (s : State) : State :=
  if s.phys.aonValid then s
  else
    let s := { s with
      phys := { s.phys with aonValid := true }
      regs := s.regsOf fuseRegs
      pwr := { Pwr.reset with enteredAt := s.now, idleAt := s.now, idle0 := s.mram.session.idle } }
    if s.phys.railsValid && !s.phys.rstLow then s.enterBoot 0 true else s

def execVddAonValid (s : State) : Host.Outcome State Fault Refusal := .next s.aonValid

/-! ## RST_N (R26, R28) -/

/-- RST_N goes low: the retained contents, the fast-start path and the saved PHY values are discarded, the PCIe core is reset, and the
outputs rest (R375). In OFF it is not sensed: only the level at the pin changes (R476). -/
def State.rstAssert (s : State) : State :=
  let s := { s with phys := { s.phys with rstLow := true, rstPend := false } }
  if s.op = .off then s
  else
    let t : State := { s with
      hbr := { s.hbr with msix := [] }
      pwr := { s.pwr with coef := [], latched := none, waking := none, fastOk := false, retLost := false } }
    t.restBalls

def execRstNAssert (s : State) : Host.Outcome State Fault Refusal := .next s.rstAssert

/-- RST_N rises after a low phase. Without valid rails, INH stays high and BOOT waits for them. -/
def State.rstRelease (s : State) : State :=
  if !s.phys.rstLow then s
  else
    let s := { s with phys := { s.phys with rstLow := false } }
    if !s.phys.aonValid then s
    else if s.phys.railsValid then s.enterBoot (if s.op = .off then 0 else 1) true
    else if s.op = .off then s
    else { s with phys := { s.phys with rstPend := true }, pwr := { s.pwr with inh := true } }

def execRstNRelease (s : State) : Host.Outcome State Fault Refusal := .next s.rstRelease

/-! ## Clocks and retention (R25, R378) -/

/-- The root PLL loses lock: after BOOT this is a fault of code 0x4. -/
def State.rootUnlock (s : State) : State :=
  let up := s.mapUp
  let s := { s with phys := { s.phys with rootLock := false } }
  if up && s.op != .boot then s.fault 4 0 else s

def execRootPllLossOfLock (s : State) : Host.Outcome State Fault Refusal := .next s.rootUnlock

/-- The retention voltage falls below its limit in STANDBY: BOOT at once when the main rails are present, else at the next wake. -/
def State.retentionFault (s : State) (rails : Bool) : State :=
  if s.op ≠ .standby ∨ s.phys.rstLow then s
  else if rails then (if s.pwr.waking.isSome then s.sendWup else s).enterBoot 9 false
  else { s with pwr := { s.pwr with retLost := true } }

def execRetentionSupplyFault (railsPresent : Bool) (s : State) : Host.Outcome State Fault Refusal :=
  .next (s.retentionFault railsPresent)

end Sys2Proof.Machine
end

