-- ==== Sys2Proof/Machine/KeyOps.lean ====
section
/-! DEFINITION. The commands of the key store (R305 to R323). -/

namespace Sys2Proof.Machine

open Sys2Proof

/-- An accepted LC_CHANGE destroys its slots, stores the new state and enters BOOT with cause 0x07 (R317). `cut`: power is lost after the
intent has been stored, and the next start completes the transition. -/
def State.lcChange (s : State) (p : Path) (cut : Bool) : State :=
  let r := s.lcBegin p
  if r.2 && !cut then r.1.lcComplete.enterBoot 7 false else r.1

/-- A write of KEY_CMD. `stores` counts the journal steps that succeed, `cut` and `stored` are as for LC_CHANGE and ATTEST. A split pair's
main core issues no command (R341). -/
def State.wrKeyCmd (s : State) (p : Path) (data : Word) (stores : Nat) (cut stored : Bool) : State :=
  if p == .fw && s.pair.mode == .split then s.accessErr .key
  else
    let s := s.writeReg .keyCmd (keyInst p) data
    if F.keyCmd_go.of data = 0 then s
    else
      let s := (s.flushBlk .key).keysFetch
      match F.keyCmd_op.of data with
      | 1 => s.keyUpdate p stores
      | 2 => s.lcChange p cut
      | 3 => s.keyAttestCmd p stored
      | 4 => s.dbgChal p
      | 5 => s.dbgUnlock p
      | _ => s.keyDone p 2 none

def execKeyUpdate (path : Path) (data : Word) (stores : Fin 5) (s : State) : Host.Outcome State Fault Refusal :=
  .next (s.accessReg path .keyCmd 0 data fun s => s.wrKeyCmd path data stores false true)

def execKeyLcChange (path : Path) (data : Word) (cut : Bool) (s : State) : Host.Outcome State Fault Refusal :=
  .next (s.accessReg path .keyCmd 0 data fun s => s.wrKeyCmd path data 4 cut true)

def execKeyAttest (path : Path) (data : Word) (stored : Bool) (s : State) : Host.Outcome State Fault Refusal :=
  .next (s.accessReg path .keyCmd 0 data fun s => s.wrKeyCmd path data 4 false stored)

def execDebugChal (path : Path) (data : Word) (s : State) : Host.Outcome State Fault Refusal :=
  .next (s.accessReg path .keyCmd 0 data fun s => s.wrKeyCmd path data 4 false true)

def execDebugUnlock (path : Path) (data : Word) (s : State) : Host.Outcome State Fault Refusal :=
  .next (s.accessReg path .keyCmd 0 data fun s => s.wrKeyCmd path data 4 false true)

end Sys2Proof.Machine
end

