-- ==== Sys2Proof/Machine/Power.lean ====
section
/-! DEFINITION. Wake sources and their requests (R262 to R265, R379 to R382), the sleep ring (R383 to R387, R393, R395), TC10
(R388, R389), and the states STANDBY and SLEEP (R376 to R378, R390 to R392). -/

namespace Sys2Proof.Machine

open Sys2Proof

/-! ## Ring members and ring frames (R383) -/

/-- A member is valid. -/
def State.memberOn (s : State) (k : Nat) : Bool := s.on F.pwrMember0_valid k

/-- The members of the rounds, in ascending index. -/
def State.members (s : State) : List Nat :=
  (List.range 32).filter fun k => s.memberOn k && !s.on F.pwrMember3_excluded k

/-- The link or channel of a member is up. -/
def State.memberUp (s : State) (k : Nat) : Bool :=
  let p := s.fld F.pwrMember0_port k
  if s.on F.pwrMember0_kind k then decide (32 ≤ p) && decide (p < 48) && s.canOn (p - 32) else decide (p < 16) && s.linkUp p

/-- The state that a commit leads to: 1 STANDBY, 2 SLEEP. -/
def State.target (s : State) : Nat := s.fld F.pwrCtrl_target

/-- The payload of a ball frame to member `k` of a type: 1 BALL, 3 COMMIT, 4 ABORT. A COMMIT names the state that its commit leads to. -/
def State.ballBytes (s : State) (type k : Nat) : List Byte :=
  let mask := s.pwr.ring.consent.foldl (fun a m => a ||| 2 ^ m) 0
  let target := if type = 3 then (if s.pwr.ring.toSleep then 2 else 1) else s.target
  [1, BitVec.ofNat 8 type] ++ beBytes 2 s.pwr.ring.round ++ [BitVec.ofNat 8 k, BitVec.ofNat 8 target, 0, 0] ++ beBytes 4 mask

/-- Send a ball frame to member `k`, when its link or channel is up. A channel that listens only sends nothing (R246). -/
def State.sendBall (s : State) (type k : Nat) : State :=
  let p := s.fld F.pwrMember0_port k
  let a := s.rd .pwrMember1 k
  let b := s.ballBytes type k
  if !s.memberUp k then s
  else if s.on F.pwrMember0_kind k then
    if s.canMode (p - 32) = 1 then s
    else (s.emit (.can (p - 32) false ⟨getBits a 28 0, getBit a 31, 0, 0, 0, 0, false, b.take 8⟩)).bump .canTxFrames (p - 32)
  else
    let da := beBytes 4 a.toNat ++ beBytes 2 (getBits (s.rd .pwrMember2 k) 31 16)
    let sa := beBytes 2 (s.fld F.fdbRmacHi_mac_hi) ++ beBytes 4 (s.rd .fdbRmacLo).toNat
    let vid := s.fld F.pwrRingCfg1_vid
    let tag := if vid = 0 then [] else beBytes 2 0x8100 ++ beBytes 2 vid
    let f := da ++ sa ++ tag ++ beBytes 2 0x88B6 ++ b
    s.emit (.eth p (withFcs false (f ++ List.replicate (60 - f.length) 0)) .complete)

/-- Change the ring. -/
def State.setRing (s : State) (r : Ring) : State := { s with pwr := { s.pwr with ring := r } }

/-- A round ends without a commit: ABORT goes to every member that has consented. -/
def State.ringEnd (s : State) : State :=
  let s := s.pwr.ring.consent.foldl (fun s k => s.sendBall 4 k) s
  s.setRing { s.pwr.ring with st := .idle, consent := [], await := none, allIn := false, woken := false, lastEnd := some s.tim.lt, fresh := none }

/-! ## Wake requests (R379 to R382, R386) -/

/-- The source with a code is enabled. -/
def State.wakeOn (s : State) (code : Nat) : Bool :=
  let n := code % 16
  match code / 16 with
  | 0 => getBit (s.rd .pwrWakeEn) n
  | 1 => decide (n < 12) && getBit (s.rd .pwrWakeEn) (16 + n)
  | 2 => decide (n < 8) && getBit (s.rd .pwrWakeEn2) n
  | 3 => decide (n < 4) && getBit (s.rd .pwrWakeEn2) (8 + n)
  | 4 => n == 0 && s.on F.pwrWakeEn_timer_en
  | _ => false

/-- The bit of a source in PWR_WAKE_ALL0 or PWR_WAKE_ALL1. -/
def wakeBit (code : Nat) : Reg × Nat :=
  let n := code % 16
  match code / 16 with
  | 0 => (.pwrWakeAll0, n)
  | 1 => (.pwrWakeAll0, 16 + n)
  | 2 => (.pwrWakeAll1, n)
  | 3 => (.pwrWakeAll1, 8 + n)
  | _ => (.pwrWakeAll0, 29)

/-- Record a request (R381). -/
def State.wakeRecord (s : State) (code : Nat) (late : Bool) : State :=
  let b := wakeBit code
  let s := s.wr b.1 0 (putBits (s.rd b.1) b.2 b.2 1)
  if s.on F.pwrWakeSrc_valid then s
  else s.wr .pwrWakeSrc 0 (putBits (putBits (putBits 0 31 31 1) 30 30 late.toNat) 23 16 code)

/-- A pulse on WAKE_OUT begins (R390). -/
def State.wakeOutPulse (s : State) : State := { s with pwr := { s.pwr with wakeOut := some s.now } }.pins

/-- Exclusions and consec are cleared at each wake (R395). -/
def State.clearStuck (s : State) : State :=
  let s := (List.range 32).foldl (fun s k => (s.setFld F.pwrMember3_excluded k 0).setFld F.pwrMember3_consec k 0) s
  { s with pwr := { s.pwr with stuckSeen := [] } }

/-- A wake edge is taken: INH is high, and the clocks are on their way. -/
def State.wakeTaken (s : State) (code : Nat) : State :=
  let t : State := { s with pwr := { s.pwr with inh := true, waking := some code, latched := none } }
  t.pins

/-- A wake edge in STANDBY or SLEEP (R390 to R392). In SLEEP, valid rails lead to BOOT with fast start; in STANDBY, lost contents
lead to BOOT (R378), and else the lock of the root PLL continues the wake. -/
def State.wakeEdge (s : State) (code : Nat) : State :=
  if s.pwr.waking.isSome then s
  else
    let s := if gateBit (s.fld F.pwrWakeoutCfg_src_mask) (code / 16) then s.wakeOutPulse else s
    let s := s.clearStuck
    let s := s.wakeTaken code
    if s.op = .sleep then if s.phys.railsValid then s.sendWup.enterBoot 6 false else s.sendWup
    else if s.pwr.retLost then s.sendWup.enterBoot 9 false
    else s

/-- A request that was latched after a commit (R386): WUR goes out on the ports of wup_fwd whose links are still up. -/
def State.wakeLate (s : State) (code : Nat) : State :=
  let s := { s with pwr := { s.pwr with latched := some (s.pwr.latched.getD code) } }
  let s := s.bump .pwrLateWakes
  ((t1Ports (s.fld F.pwrTc10Cfg_wup_fwd)).filter fun p => s.linkUp p).foldl (fun s p => s.emit (.wur p)) s

/-- A wake request in the tick of an accepted commit counts as before it (R385): the commit is refused after all, its count and its store
of fsc are taken back, and the round ends. -/
def State.commitBack (s : State) (fsc : Nat) : State :=
  let s := (s.setBcr { s.bcr with fsc := fsc }).bumpBy .pwrCommits 0 (2 ^ 64 - 1)
  ((s.setFld F.pwrStat_commit_fail 0 1).bump .pwrAbortWake).ringEnd

/-- A source raises its request (R379, R381, R382, R386). -/
def State.wakeRequest (s : State) (code : Nat) : State :=
  if !s.phys.aonValid || s.phys.rstLow || !s.wakeOn code then s
  else match s.op with
    | .off => s
    | .boot => s.wakeRecord code false
    | .standby | .sleep => (s.wakeRecord code false).wakeEdge code
    | .run | .minimal =>
      if s.pair.safe.isSome then s.wakeRecord code false
      else match s.pwr.ring.st with
        | .idle => s.wakeRecord code false
        | .round =>
          let s := s.wakeRecord code false
          { s with pwr := { s.pwr with ring := { s.pwr.ring with woken := true } } }
        | .committed | .entering =>
          match s.pwr.ring.fresh with
          | some fsc => (s.wakeRecord code false).commitBack fsc
          | none => (s.wakeRecord code true).wakeLate code

/-! ## The sources -/

/-- A level of WAKE_INn is recognised (R380): the change to the active level is the wake edge. -/
def State.wakeIn (s : State) (n : Nat) (level : Bool) : State :=
  let was := tblGet s.pwr.winLevel false n
  let s := { s with pwr := { s.pwr with winLevel := tblSet s.pwr.winLevel false n level } }.pins
  let low := gateBit (s.fld F.pwrWakeEn2_win_pol) n
  if was != level && level != low then s.wakeRequest (0x30 + n) else s

def execWakeInEdge (n : Fin 4) (level : Bool) (s : State) : Host.Outcome State Fault Refusal :=
  .next (if s.phys.aonValid then s.wakeIn n level else s)

/-- The device is in STANDBY or SLEEP. -/
def State.asleep (s : State) : Bool := !s.phys.rstLow && (s.op == .standby || s.op == .sleep)

/-- The sleep timer (R379): wake_s has elapsed since the state was entered. -/
def execSleepTimerExpiry (s : State) : Host.Outcome State Fault Refusal :=
  let w := s.fld F.pwrTimer_wake_s
  .next (if s.asleep && w != 0 && decide (s.pwr.enteredAt + tkS w ≤ s.now) then s.wakeRequest 0x40 else s)

/-- A WUP on the MDI (R388): a wake source in STANDBY and SLEEP. -/
def execTc10WupDetect (p : Fin 12) (s : State) : Host.Outcome State Fault Refusal :=
  .next (if s.asleep then s.wakeRequest (0x10 + p) else s)

/-- A WUR on an active link (R388). -/
def execTc10WurRx (p : Fin 12) (s : State) : Host.Outcome State Fault Refusal :=
  .next (if s.fabricOn && s.linkUp p then (s.bump .pwrWurRx).wakeRequest (0x10 + p) else s)

/-- A wake-up signal on LINn_RX (R260). -/
def execLinWakeupSignal (ch : Fin 8) (s : State) : Host.Outcome State Fault Refusal :=
  .next ((if s.fabricOn then s.linWakeUp ch else s).wakeRequest (0x20 + ch))

/-- The low-power filter of a CAN channel is active (R262). -/
def State.lpfOn (s : State) (n : Nat) : Bool :=
  s.phys.aonValid && !s.phys.rstLow && s.on F.canLpfCfg_en n &&
    (s.op == .sleep || s.op == .standby || ((s.op == .run || s.op == .minimal) && s.canMode n == 2))

/-- The data of a frame has a bit that is set in the data mask, over the bytes present (R263). -/
def State.lpfData (s : State) (n : Nat) (data : List Byte) : Bool :=
  let mask := beBytes 4 (s.rd .canLpfDataLo n).toNat ++ beBytes 4 (s.rd .canLpfDataHi n).toNat
  mask.all (· == 0) || (List.zipWith (fun a b => a &&& b) data mask).any (· != 0)

/-- A frame is a wake-up frame (R263). -/
def State.lpfMatch (s : State) (n : Nat) (ide : Bool) (ident dlc : Nat) (data : List Byte) : Bool :=
  s.on F.canLpfCfg_ide n == ide
    && ((ident ^^^ s.fld F.canLpfCfg_wuf_id n) &&& s.fld F.canLpfMask_mask n) == 0
    && dlc == s.fld F.canLpfCtl_dlc n
    && (dlc == 0 || s.lpfData n (data.take dlc))

def execLpfWakeupFrame (ch : Fin 16) (ide : Bool) (ident : BitVec 29) (dlc : Fin 16) (data : List Byte) (s : State) :
    Host.Outcome State Fault Refusal :=
  .next (if s.lpfOn ch && s.lpfMatch ch ide ident.toNat dlc data then
      (s.setFld F.canLpfStat_wuf_hit ch 1).wakeRequest ch
    else s)

def execLpfWakeupPattern (ch : Fin 16) (s : State) : Host.Outcome State Fault Refusal :=
  .next (if s.lpfOn ch && s.on F.canLpfCfg_wup_en ch then (s.setFld F.canLpfStat_wup_hit ch 1).wakeRequest ch else s)

/-- An erroneous frame at the filter (R264): fec rises, or would pass fec_thr. -/
def State.lpfError (s : State) (n : Nat) : State :=
  let fec := s.fld F.canLpfStat_fec n
  if fec < s.fld F.canLpfCtl_fec_thr n then s.setFld F.canLpfStat_fec n (fec + 1)
  else ((s.setFld F.canLpfStat_fec_ovf n 1).setFld F.canLpfStat_fec n 0).wakeRequest n

def execLpfFecOverflow (ch : Fin 16) (s : State) : Host.Outcome State Fault Refusal :=
  .next (if s.lpfOn ch && decide (s.fld F.canLpfCtl_fec_thr ch ≤ s.fld F.canLpfStat_fec ch) then s.lpfError ch else s)

/-- The filter has finished a frame (R264): an ignored one leaves fec alone. -/
def execLpfFrameEnd (ch : Fin 16) (good ignored : Bool) (s : State) : Host.Outcome State Fault Refusal :=
  .next (if !s.lpfOn ch || ignored then s
    else if good then s.setFld F.canLpfStat_fec ch (s.fld F.canLpfStat_fec ch - 1)
    else s.lpfError ch)

/-! ## A round (R384, R395) -/

/-- What a withheld consent does to its member: the state, and the sources that rise. -/
def State.vetoMember (s : State) (k reason : Nat) : State × List Nat :=
  let s := s.setFld F.pwrMember3_last_reason k reason
  let n := min 255 (s.fld F.pwrMember3_consec k + 1)
  let s := s.setFld F.pwrMember3_consec k n
  let stuck := decide (s.fld F.pwrRingCfg_veto_thr ≤ n) && !s.pwr.stuckSeen.contains k
  let s := if stuck then { s with pwr := { s.pwr with stuckSeen := k :: s.pwr.stuckSeen } } else s
  let f := s.fld F.pwrRingCfg_force_rounds
  let out := f != 0 && s.on F.pwrMember0_may_force k && decide (f ≤ n) && !s.on F.pwrMember3_excluded k
  let s := if out then (s.setFld F.pwrMember3_excluded k 1).bump .pwrForced else s
  (s, (if stuck then [Ev.ringNodeStuck] else []) ++ if out then [Ev.ringForce] else [])

/-- Consent is withheld by a member, or by the device itself, and the round ends. -/
def State.ringVeto (s : State) (member : Option Nat) (reason : Nat) : State :=
  let s := s.bump .pwrVetoes
  let s := if s.on F.pwrVetoLog0_valid then s
    else
      let s := s.wr .pwrVetoLog0 0 (putBits (putBits (putBits 0 31 31 1) 23 16 (member.getD 0xFF)) 15 8 reason)
      let s := s.wr .pwrVetoLog1 0 (putBits 0 31 16 s.pwr.ring.round)
      let s := s.wr .pwrVetoLogLt 0 (BitVec.ofNat 32 s.ltNs)
      s.wr .pwrVetoLogLt 1 (BitVec.ofNat 32 (s.ltNs / 4294967296))
  let r := match member with
    | some k => s.vetoMember k reason
    | none => (s, [])
  (r.1.raiseAll (Ev.ringVeto :: r.2)).ringEnd

/-- A member consents. -/
def State.ringConsent (s : State) (k : Nat) : State :=
  let s := s.setFld F.pwrMember3_consec k 0
  let s := { s with pwr := { s.pwr with stuckSeen := s.pwr.stuckSeen.filter (· != k) } }
  s.setRing { s.pwr.ring with consent := s.pwr.ring.consent ++ [k], await := none }

/-- Pass the ball on to the members that remain. -/
def State.ringPass (s : State) : List Nat → State
  | [] => s.setRing { s.pwr.ring with allIn := true }
  | k :: rest =>
    if s.memberUp k then (s.sendBall 1 k).setRing { s.pwr.ring with await := some (k, s.tim.lt) }
    else if s.on F.pwrMember0_down_ok k then State.ringPass (s.ringConsent k) rest
    else s.ringVeto (some k) 0xFD

/-- The reason for which the device withholds its own consent. -/
def State.ownReason (s : State) (writing : Bool) : Option Nat :=
  if s.on F.pwrCtrl_hold then some 0xE0
  else if writing && s.mram.session.st == .receiving then some 0xE1
  else if s.journalOpen then some 0xE2
  else if s.dbgOpen then some 0xE3
  else none

/-- A round may start: nothing rules it out, and retry_s has passed since a failed one. -/
def State.mayRound (s : State) : Bool :=
  s.fabricOn && (s.op == .run || s.op == .minimal) && s.pair.safe.isNone && s.pwr.ring.st == .idle
    && (!s.on F.redCfg_en || s.red.role == .active)
    && match s.pwr.ring.lastEnd with
      | some t => decide (t + tkS (s.fld F.pwrRingCfg1_retry_s) ≤ s.tim.lt)
      | none => true

/-- A round starts (R384). -/
def State.ringStart (s : State) (writing : Bool) : State :=
  let s := s.bump .pwrRounds
  let s := s.setRing { s.pwr.ring with
    st := .round
    round := (s.pwr.ring.round + 1) % 65536
    consent := []
    await := none
    woken := false
    allIn := false }
  match s.ownReason writing with
  | some r => s.ringVeto none r
  | none => s.ringPass s.members

/-- `idle`: the idle policy requests sleep; `writing`: a chunk of an update session is being written (R418). -/
def execRingRoundStart (idle writing : Bool) (s : State) : Host.Outcome State Fault Refusal :=
  .next (if s.mayRound && (idle || s.on F.pwrCtrl_sleep_req) then s.ringStart writing else s)

/-- The RETURN that is awaited arrives. -/
def State.ringReturn (s : State) (k verdict : Nat) : State :=
  if verdict = 0 then (s.ringConsent k).ringPass (s.members.filter fun m => k < m) else s.ringVeto (some k) verdict

def execRingReturnRx (member : Fin 32) (round : BitVec 16) (verdict : BitVec 8) (s : State) :
    Host.Outcome State Fault Refusal :=
  let r := s.pwr.ring
  .next (if s.fabricOn && r.st == .round && r.await.any (fun a => a.1 == member.val) && r.round == round.toNat then
      s.ringReturn member verdict.toNat
    else s)

def execRingReplyTimeout (s : State) : Host.Outcome State Fault Refusal :=
  .next (match s.pwr.ring.await with
    | some (k, t) =>
      if s.fabricOn && s.pwr.ring.st == .round && decide (t + tkMs (s.fld F.pwrRingCfg_reply_ms) ≤ s.tim.lt) then
        s.ringVeto (some k) 0xFE
      else s
    | none => s)

/-! ## The commit (R385, R393) and PWR_CTRL -/

/-- The idle seconds of the update session. -/
def State.idleS (s : State) : Nat := s.pwr.idle0 + secsBetween s.pwr.idleAt s.now

/-- An accepted OPEN or chunk starts the idle time again. -/
def State.idleZero (s : State) : State := { s with pwr := { s.pwr with idleAt := s.now, idle0 := 0 } }

/-- Store the idle time of the update session (R417). -/
def State.idleStore (s : State) : State :=
  s.setSess { s.mram.session with idle := s.idleS }

/-- A commit leads to the sleep entry of R387. `fsc`: it is the own commit of this tick, with fsc as it was before. -/
def State.commitTo (s : State) (toSleep : Bool) (fsc : Option Nat) : State :=
  s.setRing { s.pwr.ring with st := .committed, await := none, commitAt := s.tim.lt, toSleep := toSleep, fresh := fsc }

/-- The sleep entry of R387 begins: a paired device becomes DETACHED (R393), and COMMIT goes to every valid member. -/
def State.sleepEntry (s : State) : State :=
  let s := s.setRing { s.pwr.ring with fresh := none }
  let s := if s.on F.redCfg_en then s.setRole .detached else s
  ((List.range 32).filter s.memberOn).foldl (fun s k => s.sendBall 3 k) s

/-- As LT leaves the tick of an accepted commit, no wake request of that tick can come any more, and the sleep entry begins (R385). -/
def State.tickCommit (s : State) : State := if s.pwr.ring.fresh.isSome then s.sleepEntry else s

/-- Device firmware attempts the commit (R385). -/
def State.tryCommit (s : State) : State :=
  let r := s.pwr.ring
  if r.st ≠ .round ∨ !r.allIn then s
  else if r.woken then ((s.setFld F.pwrStat_commit_fail 0 1).bump .pwrAbortWake).ringEnd
  else
    let t := (s.setBcr { s.bcr with fsc := 0 }).idleStore
    (t.bump .pwrCommits).commitTo (s.target == 2) (some s.bcr.fsc)

/-- A write of PWR_CTRL: commit belongs to device firmware; wake_out during a pulse is ignored (R12). -/
def State.wrPwrCtrl (s : State) (path : Path) (data : Word) : State :=
  let s := s.writeReg .pwrCtrl 0 data
  let s := if F.pwrCtrl_wake_out.of data = 1 ∧ s.pwr.wakeOut.isNone then s.wakeOutPulse else s
  if F.pwrCtrl_commit.of data = 0 then s
  else if path = .fw then s.tryCommit
  else s.accessErr .pwr

def execPwrCommit (path : Path) (data : Word) (s : State) : Host.Outcome State Fault Refusal :=
  .next (s.accessReg path .pwrCtrl 0 data fun s => s.wrPwrCtrl path data)

def execWakeOutWrite (path : Path) (data : Word) (s : State) : Host.Outcome State Fault Refusal :=
  .next (s.accessReg path .pwrCtrl 0 data fun s => s.wrPwrCtrl path data)

def execWakeOutPulseEnd (s : State) : Host.Outcome State Fault Refusal :=
  .next (match s.pwr.wakeOut with
    | some t =>
      if t + tkMs (s.fld F.pwrWakeoutCfg_width_ms) ≤ s.now then { s with pwr := { s.pwr with wakeOut := none } }.pins else s
    | none => s)

/-! ## The entry into STANDBY and SLEEP (R376, R377, R387, R389) -/

/-- The PHYs with links save their values (R389): all of P0 to P3, and P4 to P11 at 1000BASE-T1. The coefficients are free values. -/
def State.saveCoef (s : State) : State :=
  let ps := (List.range 12).filter fun p => s.linkUp p && (decide (p < 4) || s.fld F.macPortStat_oper_mode p == 0)
  { s with
    pwr := { s.pwr with coef := ps.foldl (fun t p => tblPut t p ⟨s.operRate p, (s.port p).sig, Config.freeWord (s.free + p)⟩) s.pwr.coef }
    free := s.free + 12 }

/-- A port counts as down (R377). -/
def State.standbyPort (s : State) (p : Nat) : State :=
  if !s.linkUp p then s
  else
    let s := s.portLost p []
    let s := if p < 16 then s.setFld F.macPortStat_link_up p 0 else s
    if p < 17 then s.raise (Ev.linkChange p) else s

/-- Empty the Harbour (R150, R151): pending slots expire, and every flow is released to its end. -/
def State.emptyHarbour (s : State) : State :=
  let s := s.net.slots.foldl (fun s x => if x.2.st.isPending then (s.bump .hrbHoldTmo).slotTo x.1 .void else s) s
  s.net.slots.foldl (fun s x => s.release x.2.ctx) s

/-- The frames that are left in the device go (R376, R377); those held for verification and in the receive FIFOs are counted (entry 72). -/
def State.dropFrames (s : State) : State :=
  let s := s.dropWaiting (some .qmgQDropLink) fun _ => true
  let s := s.net.ports.foldl (fun s x => s.bumpBy .macDropRxerr x.1 x.2.held.length) s
  let s := s.net.legRx.foldl (fun s x => if x.port < 48 then s.bump .canRxDropOvf (x.port - 32) else s.bump .linRxDropOvf (x.port - 48)) s
  { s with net := { s.net with
    frames := []
    legRx := []
    queues := []
    fences := []
    slots := []
    ctxs := []
    sky := []
    ports := s.net.ports.map fun (x : Nat × PortSt) => (x.1, { x.2 with held := [], rx := none, rxp := none }) } }

/-- Entry into STANDBY: what is not retained is dropped. FAULT_N and INT_N are released, and the other outputs hold their level (R375). -/
def State.enterStandby (s : State) : State :=
  let s := ((List.range 18).foldl State.standbyPort s)
  let s := (s.emptyHarbour.dropFrames.legacyDrop.setBall 0 true).setBall 1 true
  { s with
    op := .standby
    prevOp := s.op
    cause := 4
    leftOp := s.op
    phys := { s.phys with rootLock := false, phyLock := [] }
    tim := { s.tim with pps := s.tim.pps.map fun (x : Nat × Pps) => (x.1, { x.2 with active := false }) }
    pwr := { s.pwr with enteredAt := s.now, waking := none, inh := true, retLost := false } }

/-- The registers of the AON domain and of the wake detectors, which hold in SLEEP (R376), the status of the PCIe core (R459), and
the levels at the balls. -/
def sleepRegs : List Reg := aonRegs ++ fuseRegs ++ [.pwrWakeoutCfg, .pwrInhCfg, .pwrTc10Cfg, .hbrPcieStat, .hbrSideband]

/-- Entry into SLEEP: what is not in the AON domain is lost, and INH goes low unless a wake is latched (R390). -/
def State.enterSleep (s : State) : State :=
  let t : State := { State.reset with
    pending := s.pending
    now := s.now
    free := s.free
    out := s.out
    phys := { s.phys with rootLock := false, phyLock := [], phyRegs := [], ospiRst := none }
    op := .sleep
    prevOp := s.op
    cause := 4
    leftOp := s.op
    regs := s.regsOf sleepRegs
    hbr := { State.reset.hbr with msix := s.hbr.msix, perstLow := s.hbr.perstLow }
    pwr := { s.pwr with
      ring := Ring.reset
      enteredAt := s.now
      waking := none
      inh := !(s.on F.pwrInhCfg_sleep_off && s.pwr.latched.isNone) }
    boot := { Boot.reset with trialAt := s.boot.trialAt }
    mram := s.mram
    flash := s.flash
    keys := s.keys }
  (t.restBalls.setBall 0 true).pins

/-- Steps 5 and 6 of R387: the target state is entered, with REDLINK_A low (R375), and a latched wake is taken at once (R386). -/
def State.enterTarget (s : State) : State :=
  let s := s.saveCoef.setBall 7 false
  let s := if s.pwr.ring.toSleep then s.enterSleep else s.enterStandby
  match s.pwr.latched with
  | some c => s.wakeEdge c
  | none => s

/-- Step 4 of R387 is over once no port waits for its acknowledgment. -/
def State.lpsDone (s : State) (p : Nat) : State :=
  let s := s.setRing { s.pwr.ring with lpsWait := s.pwr.ring.lpsWait.filter (· != p) }
  if s.pwr.ring.lpsWait.isEmpty then s.enterTarget else s

/-- Steps 3 and 4 of R387: each port in tc10_en sends LPS, and waits for its acknowledgment whether or not its link is up. -/
def State.holdEnd (s : State) : State :=
  let s := s.linGoToSleep.legacyDrop
  let ps := t1Ports (s.fld F.pwrTc10Cfg_tc10_en)
  let s := ps.foldl (fun s p => s.emit (.lps p)) s
  let s := s.setRing { s.pwr.ring with st := .entering, lpsWait := ps, lpsAt := s.tim.lt }
  if ps.isEmpty then s.enterTarget else s

def execCommitHoldEnd (s : State) : Host.Outcome State Fault Refusal :=
  let r := s.pwr.ring
  .next (if s.fabricOn && r.st == .committed && r.fresh.isNone && decide (r.commitAt + tkUs (100 * s.fld F.pwrEntryCfg_commit_hold) ≤ s.tim.lt) then
      s.holdEnd
    else s)

def execLpsAckRx (p : Fin 12) (s : State) : Host.Outcome State Fault Refusal :=
  let r := s.pwr.ring
  .next (if s.fabricOn && r.st == .entering && r.lpsWait.contains p.val then s.lpsDone p else s)

def execLpsTimeout (p : Fin 12) (s : State) : Host.Outcome State Fault Refusal :=
  let r := s.pwr.ring
  .next (if s.fabricOn && r.st == .entering && r.lpsWait.contains p.val
      && decide (r.lpsAt + tkMs (s.fld F.pwrEntryCfg_lps_ms) ≤ s.tim.lt) then
      (s.bump .pwrLpsNoack).lpsDone p
    else s)

/-- LPS from the partner of a port (R388): acknowledged only in a round, from a member there that has consented. -/
def State.lpsRx (s : State) (p : Nat) : State :=
  let ok := s.pwr.ring.st == .round &&
    s.pwr.ring.consent.any fun k => !s.on F.pwrMember0_kind k && s.fld F.pwrMember0_port k == p
  if ok then s.emit (.lpsAck p) else (s.emit (.lpsRefuse p)).bump .pwrLpsRefused

def execLpsRx (p : Fin 12) (s : State) : Host.Outcome State Fault Refusal :=
  .next (if s.fabricOn && s.linkUp p then s.lpsRx p else s)

/-! ## The return from STANDBY (R202, R377, R391) -/

/-- Periods of the always-on oscillator in a number of ticks, at a rate in Hz (R475). -/
def aonPeriods (ticks hz : Nat) : Nat := ticks * 5 * hz / 4000000000

/-- The root PLL has locked after a wake edge in STANDBY: the state that was left goes on. The always-on oscillator, whose rate is a free
value of R475, has counted TIM_STANDBY_DUR, and entries age by its whole seconds (R377). -/
def State.resumeRun (s : State) : State :=
  let dur := min 4294967295 (aonPeriods (s.now - s.pwr.enteredAt) (30310 + Config.aonHz s.free))
  let s := { s with
    free := s.free + 1
    op := s.leftOp
    prevOp := .standby
    cause := 5
    phys := { s.phys with rootLock := true }
    net := { s.net with ageOff := s.net.ageOff + dur / 32768 }
    mem := { s.mem with passAt := none }
    red := { s.red with kickAt := none, edgeAt := s.tim.lt, statusAt := none, confirmAt := none, healthyAt := none, stopped := false }
    pwr := { s.pwr with
      ring := { Ring.reset with round := s.pwr.ring.round }
      latched := none
      waking := none
      retrain := s.pwr.coef.map Prod.fst } }
  let s := s.wr .timStandbyDur 0 (BitVec.ofNat 32 dur)
  let s := if s.fld F.glbFaultRec_code ≠ 0 then s.setBall 0 false else s
  let s := (s.setFld F.timStat_resumed 0 1).setFld F.pwrFrStat_fr_ok 0 0
  let s := { s with red := { s.red with discoverAt := s.tim.lt } }
  let s := if s.on F.redCfg_en && s.op == .run then s.setRole .discover else s
  let s := s.freshLoad.legacyReenter.sendWup
  s.raiseAll (Ev.timeResumed :: if s.op = .run then [Ev.wake] else [])

/-! ## A COMMIT of the partner (R393) -/

/-- A frame on a CAN channel is a COMMIT to a CAN member there. -/
def State.hearsCommit (s : State) (n : Nat) (l : LegRec) : Bool :=
  l.fmt == 0 && l.data.length == 8 && byteAt l.data 0 == 1 && byteAt l.data 1 == 3 &&
    (List.range 32).any fun k => s.memberOn k && s.on F.pwrMember0_kind k && s.fld F.pwrMember0_port k == 32 + n
      && getBits (s.rd .pwrMember1 k) 28 0 == l.ident && getBit (s.rd .pwrMember1 k) 31 == l.ide

/-- The STANDBY device that hears a COMMIT of its partner runs the sleep entry itself. -/
def State.partnerCommit (s : State) (n : Nat) (l : LegRec) : State :=
  if s.paired && s.red.role == .standby && s.pair.safe.isNone && s.pwr.ring.st == .idle && s.hearsCommit n l then
    let s := s.setRing { s.pwr.ring with round := fieldAt l.data 2 2 }
    (s.commitTo (byteAt l.data 5 == 2) none).sleepEntry
  else s

/-- A frame on a CAN channel. A COMMIT of the partner is heard only in a frame that is received (R393). -/
def execCanFrameRx (ch : Fin 16) (leg : LegRec) (rtr stall : Bool) (ago : BitVec 32) (s : State) :
    Host.Outcome State Fault Refusal :=
  .next (if s.forwards && s.canOn ch then
      let t := s.canRx ch leg rtr stall ago.toNat
      if rtr || !s.canTakes ch leg.fmt || decide (32 ≤ s.legHeld (32 + ch)) then t else t.partnerCommit ch leg
    else s)

end Sys2Proof.Machine
end

