-- ==== Sys2Proof/Machine/Boot.lean ====
section
/-! DEFINITION. The start: the flash and its images (R396 to R399), the attempts of BOOT (R401 to R403), MINIMAL (R404, R405, R413),
fast start (R392), the boot history (R408), and the entry into RUN (R25, R26). -/

namespace Sys2Proof.Machine

open Sys2Proof

/-! ## Flash and images (R396 to R399) -/

/-- Bytes of the flash; erased bytes are 0xFF. -/
def State.flashBytes (s : State) (off n : Nat) : List Byte := (List.range n).map fun i => tblGet s.flash 0xFF (off + i)

/-- A slot: its offset and its size. -/
abbrev SlotAt := Nat × Nat

/-- The copy of the directory at an offset: its sequence number and its 64 bytes, when it is valid. -/
def State.dirCopy (s : State) (off : Nat) : Option (Nat × List Byte) :=
  let b := s.flashBytes off 64
  if fieldAt b 0 4 = 0x44495231 ∧ crc32c (b.take 60) = fieldAt b 60 4 then some (fieldAt b 4 4, b) else none

/-- The copy in use: of two valid ones, that with the higher sequence number. -/
def State.dirBytes (s : State) : Option (List Byte) :=
  match s.dirCopy 0, s.dirCopy 0x10000 with
  | some a, some b => some (if a.1 < b.1 then b.2 else a.2)
  | some a, none => some a.2
  | none, some b => some b.2
  | none, none => none

/-- Two ranges have a byte in common. -/
def rangesMeet (a b : SlotAt) : Bool := decide (a.1 < b.1 + b.2) && decide (b.1 < a.1 + a.2)

/-- The limits of R397, for slots FWIM A, FWIM B, CSET 0, CSET 1. -/
def slotsOk (l : List SlotAt) : Bool :=
  let all := (0, 0x20000) :: l
  l.all (fun x => x.1 % 4096 == 0 && x.2 % 4096 == 0 && decide (x.2 ≤ 4194304))
    && (List.range 5).all fun i => (List.range i).all fun j => !rangesMeet (all.getD i (0, 0)) (all.getD j (0, 0))

/-- The slots that the directory describes; none when the start fails with FLASH_DIR: the limits of R397 do not hold, or flag [0] asks for
8D-8D-8D reads with VDDIO_A at 3.3 V (R467). -/
def State.slots (s : State) : Option (List SlotAt) :=
  match s.dirBytes with
  | none => none
  | some b =>
    let l := (List.range 4).map fun i => (fieldAt b (12 + 8 * i) 4, fieldAt b (16 + 8 * i) 4)
    if byteAt b 8 &&& 0xFC == 0 && !((byteAt b 8).getLsbD 0 && s.phys.vddioA) && (bytesAt b 9 3).all (· == 0) && (bytesAt b 44 16).all (· == 0) && slotsOk l then some l else none

/-- The octal-SPI interface switches to the mode that the directory states: its flags, 8D-8D-8D reads and 4-byte addressing (R397). -/
def State.ospiSwitch (s : State) : State :=
  { s with phys := { s.phys with ospi := (byteAt (s.dirBytes.getD []) 8).toNat } }

/-- Slot `i` of the directory. -/
def State.slotAt (s : State) (i : Nat) : SlotAt := (s.slots.getD []).getD i (0, 0)

/-- An image that has passed its checks: version, security version, lowest FWIM version, and the SHA-256 of the image. -/
structure Image where
  ver  : Nat
  sec  : Nat
  need : Nat
  dig  : List Byte
  body : List Byte

/-- The header breaks R398. -/
def headerBad (h : List Byte) (cset : Bool) (size : Nat) : Bool :=
  fieldAt h 0 4 != (if cset then 0x43534554 else 0x4657494D) || fieldAt h 4 2 != 1 || fieldAt h 6 2 != 0x100 || byteAt h 13 != 0
    || (cset && fieldAt h 14 2 != 0) || (!cset && fieldAt h 24 4 != 0) || fieldAt h 28 4 != 0 || (bytesAt h 192 64).any (· != 0)
    || fieldAt h 20 4 == 0 || decide (size < fieldAt h 20 4 + 256)

/-- Checks 1 to 5 of R399 on the image in a slot: the code of the first that fails, or the image. -/
def State.imageCheck (s : State) (cset : Bool) (at_ : SlotAt) : Except Nat Image :=
  let h := s.flashBytes at_.1 256
  let signer := if cset then 5 else 4
  if headerBad h cset at_.2 then .error 3
  else if fieldAt h 8 4 ≠ 0x9640 ∨ getBits (s.rd .glbChipId) 15 8 < fieldAt h 12 1 then .error 5
  else if s.slotEmpty signer || sha256 (bytesAt h 64 64) != (s.slot signer).key then .error 2
  else if !ecdsaOk (bytesAt h 64 64) (bytesAt h 128 64) (sha256 (h.take 128)) then .error 1
  else
    let body := s.flashBytes (at_.1 + 256) (fieldAt h 20 4)
    if sha256 body ≠ bytesAt h 32 32 then .error 4
    else .ok ⟨fieldAt h 16 4, fieldAt h 14 2, fieldAt h 24 4, sha256 (h ++ body), body⟩

/-! ## The boot history (R408) -/

/-- The state of a FWIM slot. -/
def BootRec.st (r : BootRec) (n : Nat) : SlotSt := if n = 0 then r.stA else r.stB

/-- Set the state of a FWIM slot. -/
def BootRec.setSt (r : BootRec) (n : Nat) (x : SlotSt) : BootRec := if n = 0 then { r with stA := x } else { r with stB := x }

/-- The record of the present attempt, with an outcome. -/
def State.histRec (s : State) (outcome : Nat) : HistRec :=
  let b := s.boot.run
  let r := s.bcr
  let f := b.fwim.getD (0xFF, 0, 0)
  let ms := match b.attempt with
    | some t => (s.tim.lt - t) / 800000
    | none => 0
  let trial := match b.fwim with
    | some x => r.st x.1 == SlotSt.trial
    | none => false
  let flags := trial.toNat + 2 * b.fastOn.toNat + 4 * b.fallback.toNat + 8 * b.reverted.toNat
  beBytes 4 s.bootCount
    ++ [BitVec.ofNat 8 b.cause, BitVec.ofNat 8 outcome, BitVec.ofNat 8 f.1, BitVec.ofNat 8 r.fsc]
    ++ beBytes 4 f.2.1 ++ beBytes 2 f.2.2 ++ [BitVec.ofNat 8 b.code, BitVec.ofNat 8 b.detail] ++ beBytes 2 b.ord
    ++ [0, BitVec.ofNat 8 flags] ++ beBytes 4 r.epoch ++ s.activeDigest.take 4 ++ beBytes 4 ms

/-- Open a record: the boot count advances. A boot control record that is lost is not written here (R415). -/
def State.histOpen (s : State) (outcome : Nat) : State :=
  let n := (s.bootCount + 1) % 4294967296
  let s := if (s.mram.boot.read).isSome then s.setBcr { s.bcr with bootCount := n } else s
  { s with mram := { s.mram with hist := ((beBytes 4 n ++ (s.histRec outcome).drop 4) :: s.mram.hist).take 8 } }

/-- Complete the open record. -/
def State.histClose (s : State) (outcome : Nat) : State :=
  { s with mram := { s.mram with hist := s.histRec outcome :: s.mram.hist.drop 1 } }

/-- A record is still in progress. -/
def State.histStale (s : State) : Bool := match s.mram.hist with
  | r :: _ => byteAt r 5 == 3
  | [] => false

/-- A record still in progress is completed with outcome 2. -/
def State.histFail (s : State) : State := match s.mram.hist with
  | r :: t => if byteAt r 5 = 3 then { s with mram := { s.mram with hist := r.set 5 2 :: t } } else s
  | [] => s

/-! ## The minimal configuration (R392, R404, R405, R413) -/

/-- A set that holds nothing. -/
def Cset.empty : Cset := ⟨[], [], [], [], [], [], [], [], [], [], [], [], []⟩

/-- The legacy map without entries. -/
def State.clearMap (s : State) : State :=
  (s.listed 0x40 0 0 (tabCount 0x40)).foldl (fun s e => s.delEnt 0x40 0 e.1) s

/-- Write legacy map entries for the active epoch. -/
def State.mapEntries (s : State) (l : List (List Word)) : State := l.foldl (fun s e => (s.placeMap s.epoch e).1) s

/-- The registers that a failed attempt gives back: those of a set, but for the ports, the AON domain and the locked safe state. -/
def unloadRegs : List Reg :=
  Reg.all.filter fun r => setReg r && r.info.blk != .pwr && r != .macPortCfg && r != .glbSafeCfg && !aonRegs.contains r

/-- Nothing of the set that a failed attempt wrote stays live: its tables, its registers, and the ports it enabled (R402, R404, R405). -/
def State.unload (s : State) : State :=
  if s.boot.run.cset.isNone then s
  else
    let s := { s with
      regs := s.regs.filter fun x => !unloadRegs.any fun r => r.ctorIdx == x.1 % 512
      net := { s.net with
        tabs := [], golden := [], contract := [], shadow := [], tides := [], gates := [], can := [], lin := [], levels := [], credit := []
        qsched := [], vtime := [], meters := [] }
      boot := { s.boot with set := none, csetVer := 0, run := { s.boot.run with fastOn := false } } }
    (List.range 16).foldl (fun s p => s.wrPortCfg p (putBits (s.rd .macPortCfg p) 31 31 0)) s

/-- The minimal configuration becomes live. -/
def State.applyMinimal (s : State) (m : MinCfg) : State :=
  let s := s.applySet { Cset.empty with regs := m.regs } true
  let s := (s.clearMap.mapEntries m.fast).mapEntries m.lin
  m.eth.foldl (fun s e =>
    if e.1 = 0x11 then s.loadEnt 0x11 s.epoch e.2.1 e.2.2
    else if e.1 = 0x10 then (s.placeFdb s.epoch e.2.2).1
    else s) s

/-- Every enabled PHY and SerDes PLL reports lock. -/
def State.phyReady (s : State) : Bool := (List.range 16).all fun p => !s.on F.macPortCfg_en p || s.phys.phyLock.contains p

/-- The minimal configuration that MINIMAL uses: its content hash is valid (R413). -/
def State.minimalCfg (s : State) : Option MinCfg := if s.mram.minOk then s.mram.minCfg else none

/-- The device enters MINIMAL (R26, R404, R405): reason 1 failed starts, 2 boot record lost. Its runtime learns (R404). -/
def State.enterMinimal (s : State) (cause reason : Nat) : State :=
  let code := match s.mram.hist with
    | r :: _ => (byteAt r 14).toNat
    | [] => 0
  let s := { s with
    op := .minimal
    prevOp := .boot
    cause := cause
    boot := { s.boot with runSlot := 3, fwimVer := 0, fwimSec := 0, fwTrial := false, set := none } }
  let s := { s with boot := { s.boot with run := { s.boot.run with fwim := none, cset := none, code := code, detail := 0, ord := 0 } } }
  let cfg := s.minimalCfg
  let s := s.wr .cfgMinCause 0 (putBits (putBits (putBits (putBits 0 31 31 1) 30 30 cfg.isSome.toNat) 23 16 reason) 15 8 code)
  let s := if cfg.isSome then s.setFld F.fdbLearnCfg_en 0 1 else s
  (s.histOpen 1).freshLoad

/-- An entry into MINIMAL waits for the root PLL and every enabled PLL (R25), and does not happen in a safe state (R336, R337). -/
def State.minimalReady (s : State) : Bool := s.op == .boot && s.phys.rootLock && s.phyReady && s.pair.safe.isNone

/-- BOOT ends in MINIMAL: its configuration becomes live, and the device enters it once every enabled PLL has locked (R25). -/
def State.toMinimal (s : State) (cause reason : Nat) : State :=
  let s := match s.minimalCfg with
    | some m => s.applyMinimal m
    | none => s
  if s.minimalReady then s.enterMinimal cause reason
  else { s with boot := { s.boot with run := { s.boot.run with minWait := some (cause, reason) } } }

/-- Fast start (R392): the legacy map and the CAN channels of the subset, when its source is the active set. -/
def State.fastStart (s : State) : State :=
  let r := s.bcr
  match s.mram.minCfg with
  | none => s
  | some m =>
    if !s.mram.minOk || r.active.isNone || m.src != s.activeDigest then s
    else
      let s := s.applySet { Cset.empty with regs := m.regs.filter fun x => x.1.info.blk == .can } true
      let s := s.clearMap.mapEntries m.fast
      { s with boot := { s.boot with run := { s.boot.run with fastOn := true } } }

/-- BOOT works on a start: the injection test has passed, no safe state holds (R334, R337), and no entry into MINIMAL waits. -/
def State.booting (s : State) : Bool :=
  s.fabricOn && s.op == .boot && s.phys.rootLock && s.boot.run.bistOk && s.pair.safe.isNone && s.boot.run.minWait.isNone

def execFastStartConfigReady (s : State) : Host.Outcome State Fault Refusal :=
  let b := s.boot.run
  .next (if s.booting && b.fast && !b.fastOn && b.cset.isNone then s.fastStart else s)

/-! ## The entry into RUN (R25, R26, R348) -/

/-- Step 11: RUN. -/
def State.enterRun (s : State) (fwim : Nat × Nat × Nat) : State :=
  let s := s.histClose 0
  let b := s.boot.run
  let s := { s with
    op := .run
    prevOp := .boot
    cause := 2
    boot := { s.boot with
      runSlot := fwim.1
      fwimVer := fwim.2.1
      fwimSec := fwim.2.2
      fwTrial := s.bcr.st fwim.1 == SlotSt.trial
      fallback := b.fallback
      fast := b.fastOn
      runAt := s.tim.lt
      trialAt := if s.bcr.csetTrial then some (s.boot.trialAt.getD s.now) else none }
    red := { s.red with kickAt := none, discoverAt := s.tim.lt } }
  let s := s.freshLoad
  if s.on F.redCfg_en then s.setRole .discover else s

/-- BOOT ends when the FWIM and the CSET are accepted and every PLL has locked. -/
def State.tryRun (s : State) : State :=
  match s.boot.run.fwim, s.boot.run.cset with
  | some f, some _ => if s.booting && s.phyReady then s.enterRun f else s
  | _, _ => s

/-- A PLL of BOOT has locked: BOOT ends when nothing else holds it, in MINIMAL or in RUN (R25). -/
def State.tryLeave (s : State) : State := match s.boot.run.minWait with
  | some (cause, reason) => if s.minimalReady then s.enterMinimal cause reason else s
  | none => s.tryRun

/-- The root PLL locks: in BOOT the injection test runs next (R333, R334); in STANDBY a wake goes on
(R391), or BOOT begins when the retained contents have been lost meanwhile (R378). -/
def State.rootLocked (s : State) (fail : BitVec 8) : State :=
  if s.phys.rstLow ∨ !s.phys.railsValid then s
  else match s.op with
    | .boot =>
      if s.phys.rootLock then s
      else
        let s := ({ s with phys := { s.phys with rootLock := true } }).bist fail
        if fail = 0 then ({ s with boot := { s.boot with run := { s.boot.run with bistOk := true } } }).tryLeave
        else s.fault 3 (lowestLane fail)
    | .standby =>
      if s.pwr.waking.isNone then s
      else if s.pwr.retLost then
        let s := s.sendWup.enterBoot 9 false
        let s := ({ s with phys := { s.phys with rootLock := true } }).bist fail
        if fail = 0 then { s with boot := { s.boot with run := { s.boot.run with bistOk := true } } } else s.fault 3 (lowestLane fail)
      else s.resumeRun
    | .run | .minimal => { s with phys := { s.phys with rootLock := true } }
    | .off | .sleep => s

def execRootPllLock (laneFail : BitVec 8) (s : State) : Host.Outcome State Fault Refusal := .next (s.rootLocked laneFail)

/-- A PHY or SerDes PLL locks (R25). -/
def State.phyLocked (s : State) (p : Nat) : State :=
  if !s.on F.macPortCfg_en p || s.phys.phyLock.contains p then s
  else ({ s with phys := { s.phys with phyLock := p :: s.phys.phyLock } }).tryLeave

def execPhyPllLock (p : Fin 16) (s : State) : Host.Outcome State Fault Refusal :=
  .next (if s.fabricOn then s.phyLocked p else s)

/-! ## Attempts (R401, R402) -/

/-- An attempt fails with a code, a detail and an item. -/
def State.attemptFail (s : State) (code detail ord : Nat) : State :=
  let s := { s with boot := { s.boot with run := { s.boot.run with code := code, detail := detail, ord := ord } } }
  let s := ((s.histClose 2).bump .cfgFailedStarts).unload
  let s := { s with boot := { s.boot with
    run := { s.boot.run with attempt := none, fwim := none, cset := none, fallback := false, reverted := false, code := 0, detail := 0, ord := 0 } } }
  if 3 ≤ s.bcr.fsc then s.toMinimal 3 1 else s

/-- The first power-up draws the root secret (R302). -/
def State.rootSecret (s : State) : State :=
  if s.keys.lc ≠ 0 ∨ s.net.cip.trngBad then s
  else
    let d := s.drawTrng 32
    let s := { d.2 with keys := { d.2.keys with root := some d.1, lc := 1 } }
    { s with keys := { s.keys with lcUnder := s.kLc } }

/-- The boot control record is rebuilt at a retry after its loss (R415). -/
def State.rebuildBcr (s : State) : State :=
  let img (n : Nat) : Option Nat := match s.imageCheck false (s.slotAt n) with
    | .ok i => if i.sec < s.keys.secMin then none else some i.ver
    | .error _ => none
  let st (n : Nat) : SlotSt := if (img n).isSome then .good else .empty
  let primary := match img 0, img 1 with
    | some a, some b => if a < b then 1 else 0
    | none, some _ => 1
    | _, _ => 0
  s.setBcr { BootRec.factory with primary := primary, stA := st 0, stB := st 1, secMin := s.keys.secMin, bootCount := s.bootCount }

/-- At step 5 of every start the octal-SPI balls leave high impedance, and OSPI_RESET_N is driven low, then high (R480). -/
def State.ospiStart (s : State) : State :=
  let s := (s.emit (.ospiReset false)).emit (.ospiReset true)
  { s with phys := { s.phys with ospiRst := some true, ospi := 0 } }

/-- Step 4, and the directory of step 5. -/
def State.startAttempt (s : State) : State :=
  let s := if s.boot.run.tries = 0 then s.journalRecover.lcComplete.rootSecret else s
  let lost := (s.mram.boot.read).isNone
  let s := if lost && s.boot.run.cause == 8 then s.rebuildBcr else s
  if (s.mram.boot.read).isNone then s.toMinimal 0x0A 2
  else
    let again := s.boot.run.tries == 0 && (s.histStale || s.bcr.fsc != 0)
    let s := (if again then s.bump .cfgFailedStarts else s).histFail
    if 3 ≤ s.bcr.fsc then s.toMinimal 3 1
    else
      let s := s.setBcr { s.bcr with fsc := s.bcr.fsc + 1 }
      let s := { s with boot := { s.boot with run := { s.boot.run with attempt := some s.tim.lt, tries := s.boot.run.tries + 1 } } }
      let s := s.histOpen 3
      let s := s.ospiStart
      if s.slots.isNone then s.attemptFail 0x0A 0 0 else s.ospiSwitch

def execBootAttemptStart (s : State) : Host.Outcome State Fault Refusal :=
  .next (if s.booting && s.boot.run.attempt.isNone then s.startAttempt else s)

/-- Step 11 is not reached within 200 ms of step 4 (R402). -/
def execBootAttemptTimeout (s : State) : Host.Outcome State Fault Refusal :=
  .next (match s.boot.run.attempt with
    | some t => if s.booting && decide (t + tkMs 200 ≤ s.tim.lt) then s.attemptFail 0 0 0 else s
    | none => s)

/-! ## The FWIM (R399, R403) -/

/-- The FWIM in a slot, or the code that refuses it. -/
def State.fwimCheck (s : State) (n : Nat) : Except Nat Image :=
  match s.imageCheck false (s.slotAt n) with
  | .error c => .error c
  | .ok i => if i.sec < s.bcr.secMin then .error 6 else .ok i

/-- The slot that is tried first, with its state stored. -/
def State.fwimFirst (s : State) : State × Nat :=
  let r := s.bcr
  let inSt (x : SlotSt) : Option Nat := if r.stA = x then some 0 else if r.stB = x then some 1 else none
  match inSt .armed, inSt .trial with
  | some n, _ => (s.setBcr (r.setSt n .trial), n)
  | none, some n => if s.boot.run.cause = 6 then (s, n) else (s.setBcr (r.setSt n .rejected), r.primary)
  | none, none => (s, r.primary)

/-- The FWIM of a slot is started. -/
def State.fwimRun (s : State) (n : Nat) (i : Image) (fallback : Bool) : State :=
  let r := s.bcr
  let s := if r.st n = .good ∧ r.primary ≠ n then s.setBcr { r with primary := n } else s
  { s with boot := { s.boot with
    fwimDig := i.dig
    run := { s.boot.run with fwim := some (n, i.ver, i.sec), fallback := fallback } } }

/-- Steps 6 and 7: the tried slot, then the other when it is GOOD. -/
def State.fwimLoad (s : State) : State :=
  let (s, n) := s.fwimFirst
  match s.fwimCheck n with
  | .ok i => s.fwimRun n i false
  | .error c =>
    let s := s.setBcr (s.bcr.setSt n .rejected)
    let m := 1 - n
    if s.bcr.st m ≠ .good then s.attemptFail c 0 0
    else match s.fwimCheck m with
      | .ok i => s.fwimRun m i true
      | .error d =>
        let s := s.setBcr (s.bcr.setSt m .rejected)
        ({ s with boot := { s.boot with run := { s.boot.run with fallback := true } } }).attemptFail d 0 0

def execFwimLoadComplete (s : State) : Host.Outcome State Fault Refusal :=
  .next (if s.booting && s.boot.run.attempt.isSome && s.boot.run.fwim.isNone then s.fwimLoad else s)

/-! ## The CSET (R399, R400, R403) -/

/-- The set in a CSET slot under R399 and COMPAT. -/
def State.csetCheck (s : State) (slot fwim : Nat) : Except Nat Image :=
  match s.imageCheck true (s.slotAt (2 + slot)) with
  | .error c => .error c
  | .ok i => if fwim < i.need then .error 7 else .ok i

/-- A CSET trial that is still pending is reverted, but after a wake from SLEEP (R403). -/
def State.bootRevert (s : State) : State :=
  let r := s.bcr
  if r.csetTrial && s.boot.run.cause != 6 then
    let s := s.setBcr { r with active := r.prev, prev := none, csetTrial := false }
    { s with boot := { s.boot with run := { s.boot.run with reverted := true } } }
  else s

/-- The sections of a set's body by its directory (R398): type and content. An entry is a type byte, three zero bytes, an offset and a length
of 4 bytes each; the directory ends at the first entry of another form, or of a type that is not listed. A type with bit 7 set is
ignored. (DESIGN CHOICE, assumption 23: R398 gives neither the widths nor the end of the directory.) -/
def csetSections (body : List Byte) : Nat → Nat → List (Nat × List Byte)
  | 0, _ => []
  | n + 1, at_ =>
    let t := fieldAt body at_ 1
    let off := fieldAt body (at_ + 4) 4
    let len := fieldAt body (at_ + 8) 4
    if (bytesAt body (at_ + 1) 3).any (· != 0) ∨ (t % 128 = 0 ∨ (t < 128 ∧ 0x0B < t)) ∨ body.length < at_ + 12 ∨ body.length < off + len then []
    else if 128 ≤ t then csetSections body n (at_ + 12)
    else (t, bytesAt body off len) :: csetSections body n (at_ + 12)

/-- What a body holds: the content of its sections is free, since the spec gives no layout of them. -/
def csetOf (body : List Byte) : Cset := Config.csetBody (csetSections body (body.length / 12) 0)

/-- Load the set of an image for the stored epoch: a refusal with code, detail and item, or the state with the set live. -/
def State.csetTry (s : State) (slot : Nat) (i : Image) : State × Option (Nat × Nat × Nat) :=
  let c := csetOf i.body
  let a := s.clearMap.loadSet c s.epoch true s.boot.fwimDig
  if a.code ≠ 0 then (a.finish s, some (a.code, a.detail, a.ord))
  else
    let s := ((a.finish s).applySet c true).storeMinimal c i.dig
    ({ s with boot := { s.boot with
      csetVer := i.ver
      set := some c
      run := { s.boot.run with cset := some slot } } }, none)

/-- The recorded active set. -/
def State.csetActive (s : State) (x : CsetRef) (fwim : Nat) : State :=
  match s.csetCheck x.slot fwim with
  | .error c => s.attemptFail c 0 0
  | .ok i =>
    if i.dig ≠ x.digest then s.attemptFail 9 0 0
    else
      let r := s.csetTry x.slot i
      match r.2 with
      | some (c, d, o) => r.1.attemptFail c d o
      | none => r.1.tryRun

/-- No active set is recorded: the slots in turn; the first that passes is recorded as active with epoch 1. `code` is the last
refusal under R400. -/
def State.csetSearch (s : State) (fwim : Nat) : List Nat → Option (Nat × Nat × Nat) → State
  | [], code => let x := code.getD (0x0C, 0, 0); s.attemptFail x.1 x.2.1 x.2.2
  | n :: rest, code => match s.csetCheck n fwim with
    | .error _ => State.csetSearch s fwim rest code
    | .ok i =>
      let t := s.setBcr { s.bcr with active := some ⟨n, i.dig⟩, epoch := 1 }
      let r := t.csetTry n i
      match r.2 with
      | some x => State.csetSearch { r.1 with mram := s.mram } fwim rest (some x)
      | none => r.1.tryRun

/-- Steps 8 to 10. -/
def State.csetLoad (s : State) (fwim : Nat) : State :=
  let s := s.bootRevert
  match s.bcr.active with
  | some x => s.csetActive x fwim
  | none => s.csetSearch fwim [0, 1] none

def execCsetLoadComplete (s : State) : Host.Outcome State Fault Refusal :=
  .next (match s.boot.run.fwim with
    | some f => if s.booting && s.boot.run.attempt.isSome && s.boot.run.cset.isNone then s.csetLoad f.2.1 else s
    | none => s)

/-! ## fsc and restarts (R402, R407, R422) -/

/-- A GOOD FWIM runs, and no CSET trial is pending. -/
def State.settled (s : State) : Bool := s.bcr.st s.boot.runSlot == .good && decide (s.boot.runSlot < 2) && !s.bcr.csetTrial

def execStableTimerExpiry (s : State) : Host.Outcome State Fault Refusal :=
  .next (if s.fabricOn && s.op == .run && s.settled && decide (s.boot.runAt + tkS (s.fld F.cfgBootCfg_stable_s) ≤ s.tim.lt) then
      s.setBcr { s.bcr with fsc := 0 }
    else s)

/-- A restart of kind 0. -/
def State.restart (s : State) : State :=
  (if s.settled then s.setBcr { s.bcr with fsc := 0 } else s).enterBoot 7 false

/-- A retry from MINIMAL: the named slot is armed or becomes primary; none when the write is ignored. -/
def State.retrySlot (s : State) (sel : Nat) : Option State :=
  let r := s.bcr
  if sel = 0 then some s
  else if sel = 3 ∨ (s.mram.boot.read).isNone then none
  else match r.st (sel - 1) with
    | .verified => some (s.setBcr (r.setSt (sel - 1) .armed))
    | .good => some (s.setBcr { r with primary := sel - 1 })
    | _ => none

/-- A write of CFG_RESTART (R407). Only a host request leaves a safe state: one of device firmware is ignored there (R337). -/
def State.wrRestart (s : State) (path : Path) (data : Word) : State :=
  let t := s.writeReg .cfgRestart 0 data
  if F.cfgRestart_go.of data = 0 then t
  else if path = .fw ∧ s.pair.safe.isSome then s.accessErr .cfg
  else
    let kind := F.cfgRestart_kind.of data
    if kind = 0 ∧ s.op = .run then t.restart
    else if kind = 1 ∧ s.op = .minimal then match t.retrySlot (F.cfgRestart_slot_sel.of data) with
      | some t => (if (t.mram.boot.read).isSome then t.setBcr { t.bcr with fsc := 0 } else t).enterBoot 8 false
      | none => s.accessErr .cfg
    else s.accessErr .cfg

def execCfgRestartRestart (path : Path) (data : Word) (s : State) : Host.Outcome State Fault Refusal :=
  .next (s.accessReg path .cfgRestart 0 data fun s => s.wrRestart path data)

def execCfgRestartRetry (path : Path) (data : Word) (s : State) : Host.Outcome State Fault Refusal :=
  .next (s.accessReg path .cfgRestart 0 data fun s => s.wrRestart path data)

/-- A FWIM trial is not confirmed in time (R422). A CONFIRM in the tick of the expiry counts as in time, so that the restart comes after
that tick; it leaves no safe state (R337). -/
def execFwimTrialTimeout (s : State) : Host.Outcome State Fault Refusal :=
  .next (if s.fabricOn && s.op == .run && s.pair.safe.isNone && s.boot.fwTrial && s.bcr.st s.boot.runSlot == .trial
      && decide (s.boot.runAt + tkS (s.fld F.updTrialCfg_confirm_s) < s.tim.lt) then s.restart
    else s)

end Sys2Proof.Machine
end

