-- ==== Sys2Proof/Machine/Update.lean ====
section
/-! DEFINITION. Shadow sets, the swap and the CSET trial (R409 to R411), the cleanup after a swap (R100, R164), NVS_STORE (R412,
R414), and the field update (R416 to R422). -/

namespace Sys2Proof.Machine

open Sys2Proof

/-! ## Shadow sets (R409) -/

/-- Write CFG_LOAD_STAT. -/
def State.loadStat (s : State) (done busy : Bool) (code slot : Nat) : State :=
  s.wr .cfgLoadStat 0 (putBits (putBits (putBits (putBits 0 31 31 done.toNat) 30 30 busy.toNat) 23 16 code) 0 0 slot)

/-- Remove a loaded shadow: no entry keeps the parity of its epoch but those of the active set. A dynamic entry that the load narrowed to the old
parity stays so (DESIGN CHOICE, assumption 82: R130 does not speak of a discarded shadow). -/
def State.dropShadow (s : State) : State :=
  if s.boot.shadow.isNone then s
  else
    let par := s.epoch + 1
    let s := maskTabs.foldl (fun s m => (s.narrow m par).cleanTab m (par + 1)) s
    { s with net := { s.net with shadow := [] }, boot := { s.boot with shadow := none } }

/-- A load is refused with BUSY (R409, R410). -/
def State.loadBusy (s : State) : Bool :=
  s.op != .run || s.boot.loading.isSome || s.boot.cleanup || s.pwr.ring.st == .committed || s.pwr.ring.st == .entering
    || s.bcr.csetTrial || s.pair.mode == .split || s.bcr.epoch == 4294967295

/-- A load of a slot starts. -/
def State.loadStart (s : State) (slot : Nat) (revert : Bool) : State :=
  let s := s.dropShadow.setFld F.cfgShadowCtrl_load 0 0
  ({ s with boot := { s.boot with loading := some slot, reverting := revert } }).loadStat false true 0 slot

/-- A request to load a slot: whether it is taken. -/
def State.loadRequest (s : State) (slot : Nat) : State × Bool :=
  if s.loadBusy then
    let s := s.bump .cfgLoadRefused
    (if s.boot.loading.isSome then s.setFld F.cfgLoadStat_code 0 0x19 else s.loadStat true false 0x19 slot, false)
  else (s.loadStart slot false, true)

/-- A write of CFG_SHADOW_CTRL. The bit load reads 1 while the load that it started runs, and a write of 1 to it then is ignored (R12);
the loads of ARM and of a revert are others, and BUSY answers a write of load while one of them runs (R409). -/
def State.wrShadowCtrl (s : State) (data : Word) : State :=
  if F.cfgShadowCtrl_load.of data = 1 ∧ s.on F.cfgShadowCtrl_load then s
  else
    let s := s.writeReg .cfgShadowCtrl 0 data
    let s := if F.cfgShadowCtrl_discard.of data = 1 then s.dropShadow else s
    if F.cfgShadowCtrl_load.of data = 1 then
      let l := s.loadRequest (F.cfgShadowCtrl_slot.of data)
      if l.2 then l.1.setFld F.cfgShadowCtrl_load 0 1 else l.1
    else s

def execShadowLoad (path : Path) (data : Word) (s : State) : Host.Outcome State Fault Refusal :=
  .next (s.accessReg path .cfgShadowCtrl 0 data fun s => s.wrShadowCtrl data)

def execShadowDiscard (path : Path) (data : Word) (s : State) : Host.Outcome State Fault Refusal :=
  .next (s.accessReg path .cfgShadowCtrl 0 data fun s => s.wrShadowCtrl data)

/-- The set in a slot under R399 as a shadow: a revert waives VERSION and asks for the recorded digest. -/
def State.shadowCheck (s : State) (slot : Nat) (revert : Bool) : Except Nat Image :=
  match s.imageCheck true (s.slotAt (2 + slot)) with
  | .error c => .error c
  | .ok i =>
    if !revert && decide (i.ver ≤ s.boot.csetVer) then .error 6
    else if s.boot.fwimVer < i.need then .error 7
    else if revert && !(s.bcr.prev.any fun p => p.digest == i.dig) then .error 9
    else .ok i

/-- A CSET trial is over. -/
def State.trialEnd (s : State) : State :=
  let s := s.setBcr { s.bcr with csetTrial := false }
  { s with boot := { s.boot with trialAt := none } }

/-- A load is refused with a code. A revert that fails leaves the trial set active (R411). -/
def State.loadFail (s : State) (code slot : Nat) : State :=
  let revert := s.boot.reverting
  let s := ({ s with boot := { s.boot with loading := none, reverting := false } }).setFld F.cfgShadowCtrl_load 0 0
  let s := (s.loadStat true false code slot).bump .cfgLoadRefused
  if revert then s.trialEnd.raise Ev.csetRevert else s

/-- A load has passed. A revert swaps at once (R411). -/
def State.loadDone (s : State) (sh : Shadow) (revert : Bool) : State :=
  let s := ({ s with boot := { s.boot with loading := none, reverting := false, shadow := some sh } }).setFld F.cfgShadowCtrl_load 0 0
  let s := s.loadStat true false 0 sh.slot
  if revert then
    let s := (s.swapTo sh false).setFld F.cfgSwapStat_reverted 0 1
    (s.bump .cfgCsetReverts).raise Ev.csetRevert
  else s

/-- The shadow load ends (R399, R400). -/
def State.loadEnd (s : State) (slot : Nat) : State :=
  match s.shadowCheck slot s.boot.reverting with
  | .error c => s.loadFail c slot
  | .ok i =>
    let c := csetOf i.body
    let a := s.loadSet c (s.epoch + 1) false s.boot.fwimDig
    let t := a.finish s
    if a.code ≠ 0 then t.loadFail a.code slot else t.loadDone ⟨slot, i.dig, i.ver, c⟩ s.boot.reverting

def execShadowLoadComplete (s : State) : Host.Outcome State Fault Refusal :=
  .next (match s.boot.loading with
    | some n => if s.fabricOn && s.op == .run then s.loadEnd n else s
    | none => s)

/-! ## The swap (R410, R411) -/

/-- The shadow that swap_go takes. -/
def State.swapReady (s : State) : Option Shadow :=
  if s.on F.cfgLoadStat_done && s.fld F.cfgLoadStat_code == 0 then s.boot.shadow else none

/-- A write of CFG_SWAP_CTRL: a split pair's main core cannot swap, and the write that asks for it is ignored (R341). -/
def State.wrSwapCtrl (s : State) (path : Path) (data : Word) : State :=
  if path == .fw && s.pair.mode == .split && F.cfgSwapCtrl_swap_go.of data == 1 then s.accessErr .cfg
  else
    let s := s.writeReg .cfgSwapCtrl 0 data
    let s := if F.cfgSwapCtrl_confirm.of data = 1 ∧ s.bcr.csetTrial ∧ !s.boot.reverting then s.trialEnd else s
    if F.cfgSwapCtrl_swap_go.of data = 0 then s
    else match s.swapReady with
      | some sh => s.swapTo sh (s.on F.cfgSwapCtrl_trial)
      | none => s.accessErr .cfg

def execSwap (path : Path) (data : Word) (s : State) : Host.Outcome State Fault Refusal :=
  .next (s.accessReg path .cfgSwapCtrl 0 data fun s => s.wrSwapCtrl path data)

def execSwapConfirm (path : Path) (data : Word) (s : State) : Host.Outcome State Fault Refusal :=
  .next (s.accessReg path .cfgSwapCtrl 0 data fun s => s.wrSwapCtrl path data)

/-- The CSET trial is not confirmed in time: the previous set is loaded for the revert (R411). -/
def State.confirmLate (s : State) : State :=
  match s.bcr.prev with
  | some p => s.loadStart p.slot true
  | none => s.trialEnd.raise Ev.csetRevert

def execCsetConfirmTimeout (s : State) : Host.Outcome State Fault Refusal :=
  .next (match s.boot.trialAt with
    | some t =>
      if s.fabricOn && s.op == .run && s.bcr.csetTrial && s.boot.loading.isNone && !s.boot.cleanup
          && decide (t + tkS (s.fld F.cfgBootCfg_cset_confirm_s) < s.now) then s.confirmLate
      else s
    | none => s)

/-! ## The cleanup (R100, R164) -/

/-- The frames that a Harbour slot holds. -/
def Slot.frames (x : Slot) : List Nat := match x.st with
  | .pending plan => x.frm :: (plan.getD []).map SlotOut.frm
  | .ready outs => outs.map SlotOut.frm
  | .void => []

/-- A Skerry or a Harbour slot holds a frame of an older epoch. -/
def State.oldHeld (s : State) : Bool :=
  let old (i : Nat) : Bool := (s.frm i).epoch != s.epoch
  (s.net.sky.any fun x => (x.2.norm ++ x.2.resv ++ x.2.threads.map fun t => t.2.d).any fun d => old d.frm)
    || s.net.slots.any fun x => x.2.frames.any old

/-- The loader deletes the entries that carry the old parity alone. -/
def State.epochCleanup (s : State) : State :=
  let s := maskTabs.foldl (fun s m => s.cleanTab m s.epoch) s
  { s with boot := { s.boot with cleanup := false } }

def execEpochCleanup (s : State) : Host.Outcome State Fault Refusal :=
  .next (if s.fabricOn && s.boot.cleanup && !s.oldHeld then s.epochCleanup else s)

/-! ## NVS_STORE (R412, R414) -/

/-- The staging buffer of a path. -/
def nvsWin : Nat := 0x050400

/-- The offset and size of a region of MRAM that NVS_STORE may name. -/
def nvsRegion : Nat → Option (Nat × Nat)
  | 3 => some (0x12000, 0x2000)
  | 5 => some (0x18000, 0x10000)
  | 7 => some (0x38000, 0x10000)
  | _ => none

/-- The result of NVS_STORE. -/
def State.nvsDone (s : State) (res : Nat) : State := s.wr .nvsStoreStat 0 (putBits 0 31 28 res)

/-- The bytes after a STORE that a loss of power cuts: each 64-bit word is new or old (R414). -/
def cutBytes (new : BitVec 128) (bs : List Byte) (old : Nat → Byte) : List Byte :=
  bs.mapIdx fun k b => if new.getLsbD (k / 8) then b else old k

/-- The bytes that a STORE leaves: those read back after a mismatch are free. -/
def State.storeBytes (s : State) (bs : List Byte) : StoreRes → State × List Byte
  | .mismatch => ({ s with free := s.free + 1 }, (List.range bs.length).map (Config.freeByte s.free))
  | _ => (s, bs)

/-- A STORE from a path's staging buffer. -/
def State.nvsStore (s : State) (path : Path) (r : StoreRes) : State :=
  let region := s.fld F.nvsStoreCmd_region
  let off := s.fld F.nvsStoreCmd_offset
  let len := s.fld F.nvsStoreLen_len
  if path ≠ .fw ∧ region ≠ 7 then s.nvsDone 3
  else match nvsRegion region with
    | none => s.nvsDone 3
    | some (base, size) =>
      if off % 8 ≠ 0 ∨ len % 8 ≠ 0 ∨ len < 8 ∨ 1024 < len ∨ size < off + len then s.nvsDone 2
      else
        let x := s.storeBytes (s.winBytes path nvsWin len) r
        let s := x.1
        match r with
        | .cut new => (s.mramPut (base + off) (cutBytes new x.2 fun k => tblGet s.mram.bytes 0 (base + off + k))).suppliesLost false
        | .ok => ((s.mramPut (base + off) x.2).bump .nvsStores).nvsDone 0
        | .mismatch => ((s.mramPut (base + off) x.2).bump .nvsStoreFail).nvsDone 4
        | .poisoned => ((s.bump .nvsStoreFail).bump .memPoisonUse 0x0C).nvsDone 4

/-- A write of NVS_STORE_CMD. -/
def State.wrNvsCmd (s : State) (path : Path) (data : Word) (r : StoreRes) : State :=
  if path == .fw && s.pair.mode == .split then s.accessErr .nvs
  else
    let s := s.writeReg .nvsStoreCmd 0 data
    if F.nvsStoreCmd_go.of data = 1 then s.nvsStore path r else s

def execNvsStore (path : Path) (data : Word) (res : StoreRes) (s : State) : Host.Outcome State Fault Refusal :=
  .next (s.accessReg path .nvsStoreCmd 0 data fun s => s.wrNvsCmd path data res)

/-! ## The update session (R416, R417, R419) -/

/-- The window of a path, and the instance of its registers: device firmware has its own. -/
def updWin : Nat := 0x070000
def updInst (p : Path) : Nat := if p = .fw then 1 else 0

/-- The result of an update command. -/
def State.updDone (s : State) (p : Path) (res : Nat) : State := s.setFld F.updStat_result (updInst p) res

/-- A session is open. -/
def Session.live (x : Session) : Bool := x.st == .receiving || x.st == .verifying

/-- The directory index of the target slot of a session. -/
def Session.at_ (x : Session) : Nat := if x.cset then 2 + x.slot else x.slot

/-- A session ends in a state: its bitmap is cleared, and the FWIM slot takes its state. -/
def State.sessEnd (s : State) (st : SessSt) : State :=
  let x := s.mram.session
  let s := if x.cset then s else s.setBcr (s.bcr.setSt x.slot (if st = .verified then .verified else .empty))
  s.setSess { x with st := st, bitmap := [], joined := [] }

/-- The slot that a new session of a type fills. -/
def State.targetSlot (s : State) (cset : Bool) : Nat :=
  if cset then match s.bcr.active with
    | some a => 1 - a.slot
    | none => 0
  else 1 - s.bcr.primary

/-- A trial of the type is armed, running or pending. -/
def State.trialOf (s : State) (cset : Bool) : Bool :=
  let r := s.bcr
  if cset then r.csetTrial else [r.stA, r.stB].any fun x => x == .armed || x == .trial

/-- A session opens. -/
def State.sessOpen (s : State) (o : UpdOwner) (cset : Bool) (dig : List Byte) (size : Nat) : State :=
  let slot := s.targetSlot cset
  let s := if cset then s else s.setBcr (s.bcr.setSt slot .receiving)
  s.idleZero.setSess ⟨.receiving, cset, o, [], dig, size, slot, [], 0⟩

/-- OPEN (R416). -/
def State.updOpen (s : State) (p : Path) (o : UpdOwner) : State :=
  let m := s.winBytes p updWin 40
  let type := fieldAt m 32 1
  let size := fieldAt m 36 4
  let cset := type == 2
  let x := s.mram.session
  let fresh (s : State) : State := (s.sessOpen o cset (m.take 32) size).updDone p 0
  let touch (s : State) (x : Session) : State := s.idleZero.setSess { x with idle := 0 }
  if (type = 1 ∨ type = 2) ∧ s.trialOf cset then s.updDone p 5
  else if (type ≠ 1 ∧ type ≠ 2) ∨ size < 256 ∨
      (s.slotAt (if cset then 2 + s.targetSlot true else s.targetSlot false)).2 < size then s.updDone p 2
  else if !x.live then fresh s
  else if x.digest = m.take 32 ∧ x.cset = cset then
    if x.owner = o then (touch s x).updDone p 0
    else (touch s { x with joined := if x.joined.contains o then x.joined else x.joined ++ [o] }).updDone p 7
  else if s.idleS < 259200 then s.updDone p 1
  else fresh (s.sessEnd .expired)

/-- ABORT (R419). -/
def State.updAbort (s : State) (p : Path) (o : UpdOwner) : State :=
  let x := s.mram.session
  if x.live && x.owner == o then (s.sessEnd .aborted).updDone p 0 else s.updDone p 3

/-! ## Chunks (R418) -/

/-- Program bytes of the flash. -/
def State.flashPut (s : State) : Nat → List Byte → State
  | _, [] => s
  | off, b :: bs => State.flashPut { s with flash := tblSet s.flash 0xFF off b } (off + 1) bs

/-- The sector is written; after a failure of the flash its content is free. -/
def State.flashSector (s : State) (off : Nat) (bs : List Byte) (good : Bool) : State :=
  if good then s.flashPut off bs
  else ({ s with free := s.free + 1 }).flashPut off ((List.range 4096).map (Config.freeByte s.free))

/-- CHUNK; `good` tells that the flash was written and read back without failure. -/
def State.updChunk (s : State) (p : Path) (o : UpdOwner) (chunk : Nat) (good : Bool) : State :=
  let x := s.mram.session
  let bs := s.winBytes p updWin 4096
  if !x.live || !(x.owner == o || x.joined.contains o) then s.updDone p 3
  else if x.st = .verifying then s.updDone p 1
  else if (x.size + 4095) / 4096 ≤ chunk then s.updDone p 2
  else if crc32c bs ≠ (s.rd .updArg (updInst p)).toNat then (s.bump .updChunksFail).updDone p 4
  else if x.bitmap.contains chunk then (s.bump .updChunksDup).updDone p 6
  else
    let s := s.flashSector ((s.slotAt x.at_).1 + 4096 * chunk) bs good
    if !good then (s.bump .updChunksFail).updDone p 8
    else
      let full := decide ((x.size + 4095) / 4096 ≤ x.bitmap.length + 1)
      let s := s.idleZero.setSess { x with
        bitmap := chunk :: x.bitmap
        idle := 0
        st := if full then .verifying else .receiving }
      (s.bump .updChunksOk).updDone p 0

/-! ## Verification (R420, R421) -/

/-- The version that the header of an image in a slot states. -/
def State.verIn (s : State) (i : Nat) : Nat := fieldAt (s.flashBytes (s.slotAt i).1 256) 16 4

/-- The checks of R399 on the target slot, under the version rules of R421: 0 when it passes. -/
def State.updCheck (s : State) (x : Session) : Nat :=
  let at_ := s.slotAt x.at_
  match s.imageCheck x.cset at_ with
  | .error c => c
  | .ok i =>
    let r := s.bcr
    let old := if x.cset then match r.active with
        | some a => decide (i.ver ≤ s.verIn (2 + a.slot))
        | none => false
      else decide (i.ver ≤ s.verIn r.primary) || decide (i.sec < r.secMin)
    if sha256 (s.flashBytes at_.1 x.size) ≠ x.digest then 4
    else if old then 6
    else if x.cset && decide (s.boot.fwimVer < i.need) then 7
    else 0

/-- The verification ends with a code. -/
def State.updVerified (s : State) (c : Nat) : State :=
  let s := s.wr .updVerify 0 (putBits 0 7 0 c)
  if c = 0 then s.sessEnd .verified else (s.sessEnd .failed).bump .updSessionsFail

/-- The verification ends. -/
def State.updVerify (s : State) : State := s.updVerified (s.updCheck s.mram.session)

def execUpdVerifyComplete (s : State) : Host.Outcome State Fault Refusal :=
  .next (if s.fabricOn && s.mram.session.st == .verifying then s.updVerify else s)

/-! ## ARM and CONFIRM (R422) -/

/-- A flash read has not completed within 1 ms (R397): the start, the shadow load or the verification that it serves fails with FLASH_READ. -/
def State.flashLate (s : State) : State :=
  if s.booting && s.boot.run.attempt.isSome && s.boot.run.cset.isNone then s.attemptFail 0x0B 0 0
  else if !s.fabricOn then s
  else match s.boot.loading with
    | some n => if s.op = .run then s.loadFail 0x0B n else s
    | none => if s.mram.session.st = .verifying then s.updVerified 0x0B else s

def execFlashReadTimeout (s : State) : Host.Outcome State Fault Refusal := .next s.flashLate

/-- ARM: a verified FWIM slot is armed; a verified CSET is loaded as shadow. -/
def State.updArm (s : State) (p : Path) : State :=
  let x := s.mram.session
  let r := s.bcr
  if x.st = .verified ∧ x.cset then
    let l := s.loadRequest x.slot
    l.1.updDone p (if l.2 then 0 else 1)
  else if r.stA = .verified then (s.setBcr { r with stA := .armed }).updDone p 0
  else if r.stB = .verified then (s.setBcr { r with stB := .armed }).updDone p 0
  else s.updDone p 2

/-- CONFIRM of a FWIM trial. -/
def State.updConfirm (s : State) (p : Path) : State :=
  let r := s.bcr
  let n := s.boot.runSlot
  if s.op ≠ .run ∨ !s.boot.fwTrial ∨ r.st n ≠ .trial then s.updDone p 2
  else
    let sec := max r.secMin s.boot.fwimSec
    let s := s.setBcr { r.setSt n .good with primary := n, secMin := sec, fsc := 0 }
    let s := { s with keys := { s.keys with secMin := sec }, boot := { s.boot with fwTrial := false } }
    s.updDone p 0

/-! ## UPD_CMD -/

/-- A write of UPD_CMD. -/
def State.wrUpdCmd (s : State) (p : Path) (data : Word) (good : Bool) : State :=
  let s := s.writeReg .updCmd (updInst p) data
  let o : UpdOwner := ⟨p != .fw, F.updCmd_source.of data⟩
  if F.updCmd_go.of data = 0 then s
  else match F.updCmd_op.of data with
    | 1 => s.updOpen p o
    | 2 => s.updChunk p o (F.updCmd_chunk.of data) good
    | 3 => s.updAbort p o
    | 4 => s.updArm p
    | 5 => s.updConfirm p
    | _ => s.updDone p 2

def execUpdOpen (path : Path) (data : Word) (s : State) : Host.Outcome State Fault Refusal :=
  .next (s.accessReg path .updCmd 0 data fun s => s.wrUpdCmd path data true)

def execUpdChunk (path : Path) (data : Word) (good : Bool) (s : State) : Host.Outcome State Fault Refusal :=
  .next (s.accessReg path .updCmd 0 data fun s => s.wrUpdCmd path data good)

def execUpdAbort (path : Path) (data : Word) (s : State) : Host.Outcome State Fault Refusal :=
  .next (s.accessReg path .updCmd 0 data fun s => s.wrUpdCmd path data true)

def execUpdArm (path : Path) (data : Word) (s : State) : Host.Outcome State Fault Refusal :=
  .next (s.accessReg path .updCmd 0 data fun s => s.wrUpdCmd path data true)

def execUpdConfirm (path : Path) (data : Word) (s : State) : Host.Outcome State Fault Refusal :=
  .next (s.accessReg path .updCmd 0 data fun s => s.wrUpdCmd path data true)

/-- Every 3600 s the idle time is stored (R417). -/
def execUpdIdleStore (s : State) : Host.Outcome State Fault Refusal :=
  .next (if s.op ≠ .off ∧ s.mram.session.idle + 3600 ≤ s.idleS then s.idleStore else s)

end Sys2Proof.Machine
end

