-- ==== Sys2Proof/Machine/BusRead.lean ====
section
/-! DEFINITION. Reads of the register map: the live value of each register, captured groups of words (R13, R16), data
windows, table windows (R133) and reserved offsets (R458). -/

namespace Sys2Proof.Machine

open Sys2Proof

/-! ## Live values -/

/-- Fields with reset MRAM have been loaded: a read in BOOT before step 4 of the start returns zero (R459). -/
def State.mramUp (s : State) : Bool := s.op != .boot || decide (0 < s.boot.run.tries)

/-- A level in 1/6,400,000 byte as a register shows it: whole bytes in two's complement, rounded toward minus infinity. -/
def levelWord (l : Int) : Word := BitVec.ofInt 32 (l.fdiv unitB)

/-- A word of a 64-bit value: 0 the low one, 1 the high one. -/
def word64 (v j : Nat) : Word := BitVec.ofNat 32 (v / 4294967296 ^ j)

/-- A word of a PTP value (R16). -/
def ptpWord (v : Word × Word × Word) (j : Nat) : Word := match j with
  | 0 => v.1
  | 1 => v.2.1
  | _ => v.2.2

/-- GLB_OP_STATE. -/
def State.opWord (s : State) : Word := putBits (putBits (putBits 0 23 16 s.cause) 11 8 s.prevOp.code) 3 0 s.op.code

/-- MQ_STAT of queue `k`: the stored result, and the positions of R446. -/
def State.mqStatWord (s : State) (k : Nat) : Word :=
  let q := s.mq k
  let mark := match q.mark with
    | .valid _ => 1
    | _ => 0
  putBits (putBits (putBits (putBits (s.rd .mqStat k) 27 27 mark) 26 26 (s.mqOverwrite k).toNat) 25 13 q.held) 12 0 q.count

/-- CFG_BOOT_STAT. -/
def State.bootStatWord (s : State) : Word :=
  let r := s.bcr
  let cs := match r.active with
    | some c => c.slot
    | none => 0
  let w := putBits (putBits (putBits 0 31 30 s.boot.runSlot) 29 29 cs) 28 28 s.boot.fwTrial.toNat
  let w := putBits (putBits (putBits w 27 27 r.csetTrial.toNat) 26 26 s.boot.fallback.toNat) 25 25 s.boot.fast.toNat
  putBits (putBits (putBits (putBits w 24 24 r.primary) 23 20 r.stA.code) 19 16 r.stB.code) 9 8 r.fsc

/-- UPD_STAT of a path's instance: its result, and the session record. -/
def State.updStatWord (s : State) (i : Nat) : Word :=
  let x := s.mram.session
  let w := putBits (putBits (s.rd .updStat i) 27 25 x.st.code) 24 24 x.cset.toNat
  putBits (putBits (putBits w 23 16 x.owner.src) 15 15 x.owner.host.toNat) 10 0 x.bitmap.length

/-- The contract of the selected stream (R67): its bound and CFG_BDC_QATTR. -/
def State.bdcSel (s : State) : Nat × Nat :=
  let shadow := s.on F.cfgBdcQsel_set_sel
  let par := if shadow then (s.epoch + 1) % 2 else s.epoch % 2
  if shadow && s.boot.shadow.isNone then (0xFFFFFFFF, 0)
  else tblGet s.net.contract (0xFFFFFFFF, 0) (par * 4096 + s.fld F.cfgBdcQsel_stream_idx)

/-- TGA_STAT of a port. oper_dom changes only at a takeover, not when the table is discarded (R224). -/
def State.tgaStatWord (s : State) (p : Nat) : Word :=
  let t := s.tide p
  let dom := match t.run with
    | some r => r.dom
    | none => s.fld F.tgaStat_oper_dom p
  let w := putBits (putBits (s.rd .tgaStat p) 31 31 t.pend.isSome.toNat) 30 30 t.run.isSome.toNat
  let w := putBits (putBits w 28 28 (t.busy.any fun b => decide (s.tim.lt < b)).toNat) 25 24 dom
  putBits (putBits w 23 16 (s.gatesNow p)) 9 0 (if (s.tideRuns p).isSome then t.entry else 0)

/-- Entry `i` of the operational list of a port. -/
def State.tgaOperWord (s : State) (p i : Nat) : Word := match (s.tide p).run with
  | some r => match r.entries[i]? with
    | some e => putBits (putBits 0 31 24 e.1) 23 0 e.2.1
    | none => 0
  | none => 0

/-- A value of the running schedule of a port. -/
def State.tgaRun (s : State) (p : Nat) (f : Sched → Word) : Word := match (s.tide p).run with
  | some r => f r
  | none => 0

/-- CAN_STAT of a channel. -/
def State.canStatWord (s : State) (n : Nat) : Word :=
  let c := s.canCh n
  let w := putBits (putBits 0 31 30 c.fc) 29 29 (s.lpfOn n).toNat
  putBits (putBits (putBits w 23 16 (min 255 c.tec)) 15 8 (min 255 c.rec_)) 6 0 c.txq.length

/-- LIN_STAT of a channel. -/
def State.linStatWord (s : State) (n : Nat) : Word :=
  let c := s.linCh n
  let st := if !s.on F.linCtrl_en n then 0 else if c.sleep then 2 else 1
  putBits (putBits (putBits 0 31 30 st) 23 16 (if c.slotAt.isSome then s.linEntry n else 0)) 15 8 c.pid

/-- KEY_LC_STAT. -/
def State.lcStatWord (s : State) : Word :=
  putBits (putBits (putBits 0 28 28 s.net.dbg.open_.toNat) 25 24 s.net.dbg.fails) 3 0 (if s.mramUp then s.keys.lc else 0)

/-- KEY_SLOT_STAT of the selected slot. -/
def State.slotStatWord (s : State) (n : Nat) : Word :=
  putBits (putBits (putBits 0 31 31 (s.slotEmpty n).toNat) 30 30 (s.slot n).ecc.toNat) 1 0 (s.slot n).last

/-- RED_STAT. -/
def State.redStatWord (s : State) : Word :=
  let pr := match s.red.partner with
    | some p => p.role.code
    | none => 0
  let w := putBits (putBits 0 31 29 s.red.role.code) 28 28 (s.on F.redCfg_en && s.op == .run && !s.red.hbLost).toNat
  let w := putBits (putBits w 27 27 (s.linkUp s.pairPort).toNat) 26 26 s.red.digestEq.toNat
  putBits (putBits (putBits w 25 25 s.eligible.toNat) 24 24 s.home.toNat) 22 20 pr

/-- MEM_REPAIR_STAT of the selected memory. -/
def State.repairWord (s : State) : Word :=
  let m := s.fld F.memRepairSel_mem_id
  if 22 ≤ m then 0
  else
    let w := putBits (putBits 0 31 24 (Config.fuseRows m)) 23 16 (if s.mramUp then s.fieldRows m else 0)
    putBits (putBits w 15 8 (s.pendingRows m)) 7 0 (s.spareFree m)

/-- Cells and copies charged to queue `q`. -/
def State.qStatWord (s : State) (q : Nat) : Word := putBits (putBits 0 31 16 (s.charged q).length) 15 0 (s.occQ q)

/-- The bits of PWR_FR_STAT.coef_valid. -/
def State.coefMap (s : State) : Nat := (List.range 12).foldl (fun m p => if (tblFind s.pwr.coef p).isSome then m + 2 ^ p else m) 0

/-- A word of a record at the head of a queue, zero when the queue is empty. -/
def headWord (q : List Rec8) (j : Nat) : Word := (q.headD []).getD j 0

/-- A value that is loaded from MRAM in BOOT (R459). -/
def State.fromMram (s : State) (w : Word) : Word := if s.mramUp then w else 0

/-- A register with the RWS bit `b`, which reads 1 while its command runs or waits (R8, R12). -/
def State.goWord (s : State) (r : Reg) (i b : Nat) (run : Bool) : Word := putBits (s.rd r i) b b run.toNat

/-- PWR_CTRL: commit from the acceptance to the entry (R385), wake_out during the pulse (R390). -/
def State.pwrCtrlWord (s : State) : Word :=
  putBits (s.goWord .pwrCtrl 0 31 (s.pwr.ring.st == .committed || s.pwr.ring.st == .entering)) 28 28 s.pwr.wakeOut.isSome.toNat

/-- GLB_LS_CTRL: split and repair while they run (R340, R342). -/
def State.lsCtrlWord (s : State) : Word :=
  putBits (s.goWord .glbLsCtrl 0 31 (s.pair.mode == .splitting)) 30 30 (s.pair.mode == .repairing).toNat

/-- The live value of instance `i` of a register, as a path sees it. -/
def State.regWord (s : State) (p : Path) (r : Reg) (i : Nat) : Word := match r with
  | .glbLsCtrl => s.lsCtrlWord
  | .schGateCfg => s.goWord r i 30 (s.gate i).pend.isSome
  | .tgaCfg => s.goWord r i 30 (s.tide i).pend.isSome
  | .timPpsCfg => s.goWord r i 30 (s.pps i).pend.isSome
  | .canBoCfg => s.goWord r i 31 ((s.canCh i).fc == 3)
  | .pwrCtrl => s.pwrCtrlWord
  | .glbOpState => s.opWord
  | .glbLsStat => putBits 0 31 30 s.pair.mode.code
  | .hbrPwSeq => BitVec.ofNat 32 (s.pathSt p).seq
  | .hbrPwFence => BitVec.ofNat 32 (s.pathSt p).fence
  | .mqStat => s.mqStatWord i
  | .cfgBootStat => s.fromMram s.bootStatWord
  | .cfgSwapStat =>
    putBits (putBits (s.rd .cfgSwapStat i) 31 31 s.boot.cleanup.toNat) 30 30 (s.mramUp && s.bcr.csetTrial).toNat
  | .cfgEpoch => s.fromMram (BitVec.ofNat 32 s.epoch)
  | .cfgBdcBound => BitVec.ofNat 32 s.bdcSel.1
  | .cfgBdcQattr => BitVec.ofNat 32 s.bdcSel.2
  | .cfgBootHist => s.fromMram (BitVec.ofNat 32 (fieldAt (s.mram.hist.getD (i / 8) []) (4 * (i % 8)) 4))
  | .updCmd => s.rd r (updInst p)
  | .updArg => s.rd r (updInst p)
  | .updStat => if s.mramUp then s.updStatWord (updInst p) else s.rd r (updInst p)
  | .updIdle => s.fromMram (BitVec.ofNat 32 (if s.mram.session.live then s.idleS else 0))
  | .updDigest => s.fromMram (BitVec.ofNat 32 (fieldAt s.mram.session.digest (4 * i) 4))
  | .macPortStat => if 16 ≤ i then putBits 0 31 31 (s.linkUp i).toNat else s.rd r i
  | .clsCtCount => BitVec.ofNat 32 s.ctLive
  | .skyCellUsed => BitVec.ofNat 32 s.skyCells
  | .hrbStatus => putBits (putBits 0 29 16 s.net.slots.length) 12 0 s.net.ctxs.length
  | .qmgPoolUsed => BitVec.ofNat 32 s.poolUsed
  | .qmgSharedSize => BitVec.ofNat 32 s.sharedSize
  | .qmgSharedUsed => BitVec.ofNat 32 s.sharedUsed
  | .qmgPortUsed => BitVec.ofNat 32 (s.occPort i)
  | .qmgQStat => s.qStatWord i
  | .qmgSStat => s.qStatWord (144 + i)
  | .schTbLevel => levelWord (s.tbLevel i)
  | .schSTbLevel => levelWord (s.tbLevel (144 + i))
  | .schCbsCredit => levelWord (s.credit i)
  | .schMaxwait => putBits (s.rd r i) 31 31 (s.qs i).urgent.toNat
  | .mtrCLevel => levelWord (s.mtrLevel i).1
  | .mtrELevel => levelWord (s.mtrLevel i).2
  | .tgaOperBase => s.tgaRun (i / 3) fun t => ptpWord (ptpOf t.base) (i % 3)
  | .tgaOperCycle => s.tgaRun i fun t => BitVec.ofNat 32 t.cycle
  | .tgaOperExt => s.tgaRun i fun t => BitVec.ofNat 32 t.ext
  | .tgaOperLen => s.tgaRun i fun t => BitVec.ofNat 32 t.entries.length
  | .tgaOperEntry => s.tgaOperWord (i / 1024) (i % 1024)
  | .tgaStat => s.tgaStatWord i
  | .tgaPreemptStat => putBits (putBits 0 31 31 (s.port i).ver.active.toNat) 30 28 (s.port i).ver.status
  | .timLt => word64 s.ltNs i
  | .timDomTime => ptpWord (ptpOf (s.domNs (i / 3))) (i % 3)
  | .timDomStat => putBits (s.rd r i) 31 31 (s.dom i).slewing.toNat
  | .timDomSlewRem => BitVec.ofInt 32 ((s.dom i).rem.tdiv 800000)
  | .timTxtsStat => BitVec.ofNat 32 (s.txts i).length
  | .timTxtsHead => headWord (s.txts (i / 8)) (i % 8)
  | .timTscStat => putBits (s.rd r i) 4 0 (s.tsc i).fifo.length
  | .timTscHead => headWord (s.tsc (i / 8)).fifo (i % 8)
  | .timPpsStat => putBits (s.rd r i) 31 31 (s.pps i).active.toNat
  | .canStat => s.canStatWord i
  | .linSched => putBits (s.goWord r i 31 (s.linCh i).sw.isSome) 10 8 (s.linCh i).table
  | .linStat => s.linStatWord i
  | .cipTrngStat => putBits (s.rd r i) 31 31 (!s.net.cip.trngBad && !s.inReset).toNat
  | .cipVbStat => putBits (s.rd r i) 12 0 s.vbUsed
  | .keyLcStat => s.lcStatWord
  | .keyLcCtr => s.fromMram (BitVec.ofNat 32 s.keys.lcCtr)
  | .keyAttCtr => s.fromMram (BitVec.ofNat 32 s.keys.attCtr)
  | .keyCmd => s.rd r (keyInst p)
  | .keyCmdStat => s.rd r (keyInst p)
  | .keySlotAttr => s.fromMram (s.slot (s.fld F.keySlotSel_slot)).attr
  | .keySlotCtr => s.fromMram (BitVec.ofNat 32 (s.slot (s.fld F.keySlotSel_slot)).ctr)
  | .keySlotGen => s.fromMram (BitVec.ofNat 32 (s.slot (s.fld F.keySlotSel_slot)).gen)
  | .keySlotStat => s.fromMram (s.slotStatWord (s.fld F.keySlotSel_slot))
  | .redStat => s.redStatWord
  | .memRepairStat => s.repairWord
  | .pwrStat => putBits (putBits (s.rd r i) 31 30 s.pwr.ring.st.code) 15 0 s.pwr.ring.round
  | .pwrInhCfg => putBits (s.rd r i) 0 0 s.pwr.inh.toNat
  | .pwrFrStat => putBits (s.rd r i) 11 0 s.coefMap
  | _ => s.rd r i

/-! ## Instances that do not exist (R458) -/

/-- The latency row exists (R205). -/
def latRow (i : Nat) : Bool :=
  let p := i / 3
  if p ≤ 3 then true else if p ≤ 11 then decide (i % 3 < 2) else if p ≤ 13 then decide (i % 3 < 1) else true

/-- The instance of a register exists: P12, P13 and P16 have no SecY, and not every port has every latency row. -/
def regExists (r : Reg) (i : Nat) : Bool := match r with
  | .cipSecyCfg => secyPort i
  | .cipSecyRwin => secyPort i
  | .cipTxscCtrl => secyPort i
  | .cipTxsci => secyPort (i / 2)
  | .cipSecyPnthr => secyPort (i / 2)
  | .cipTxSa0 => secyPort (i / 4)
  | .cipTxSaSsci => secyPort (i / 4)
  | .cipTxSaSalt => secyPort (i / 12)
  | .cipTxSaNextPn => secyPort (i / 8)
  | .timLatTx => latRow i
  | .timLatRx => latRow i
  | .clsPrioCfg => decide (i < 18)
  | _ => true

/-! ## Captured groups (R13, R16) -/

/-- The number of words that a read of word 0 of a register captures, 1 where it captures none. -/
def capWords : Reg → Nat
  | .glbFaultTime => 2 | .hbrTxRingBase => 2 | .hbrRxRingBase => 2 | .timLt => 2 | .timSnapLt => 2 | .timDomStep => 2
  | .cipSecyPnthr => 2 | .cipTxSaNextPn => 2 | .cipRxSaNextPn => 2 | .memCeLogLt => 2 | .memUeLogLt => 2 | .memFlipD => 2
  | .pwrVetoLogLt => 2
  | .timSnapDom => 3 | .timDomTime => 3 | .timDomSet => 3 | .timPpsStart => 3 | .tgaAdminBase => 3 | .tgaOperBase => 3
  | .tgaChangeTime => 3 | .schGateBase => 3
  | _ => 1

/-- Fill the holding register of a pair. Each path has one for each pair, so reads of two pairs may interleave (DESIGN CHOICE, assumption 76:
R13 does not say whether a path has one in all). -/
def State.holdWord (s : State) (p : Path) (off : Nat) (w : Word) : State :=
  { s with hold := tblPut s.hold (pairKey p off) w }

/-- Read a later word of a group: what was captured, once, else the live word. -/
def State.takeHeld (s : State) (p : Path) (off : Nat) (live : Word) : State × Word :=
  match tblFind s.hold (pairKey p off) with
  | some w => ({ s with hold := tblDel s.hold (pairKey p off) }, w)
  | none => (s, live)

/-- The FIFO that a register shows, with the poisoned items at its head discarded (R369). -/
def State.fifoFront (s : State) (r : Reg) (i : Nat) : State :=
  if s.memClean then s
  else match r with
    | .timTxtsStat => s.txtsFront 16 i
    | .timTxtsHead => s.txtsFront 16 (i / 8)
    | .timTscStat => s.tscFront 16 i
    | .timTscHead => s.tscFront 16 (i / 8)
    | _ => s

/-- The words of memory that a register shows: memory, instance, first word and number. -/
def State.regWords (s : State) (r : Reg) (i : Nat) : Option (Nat × Nat × Nat × Nat) := match r with
  | .tgaAdminEntry => some (5, i / 1024, tideAdminWord (i % 1024), 1)
  | .tgaOperEntry => some (5, i / 1024, tideOperWord (i % 1024), 1)
  | .cipTxSa0 => some (9, 0, saBase + 8 * i, 8)
  | .cipTxSaSsci => some (9, 0, saBase + 8 * i, 8)
  | .cipTxSaSalt => some (9, 0, saBase + 8 * (i / 3), 8)
  | .cipTxSaNextPn => some (9, 0, saBase + 8 * (i / 2), 8)
  | .cipRxSa0 => some (9, 0, saBase + 8 * (1024 + i), 8)
  | .cipRxSaSsci => some (9, 0, saBase + 8 * (1024 + i), 8)
  | .cipRxSaSalt => some (9, 0, saBase + 8 * (1024 + i / 3), 8)
  | .cipRxSaNextPn => some (9, 0, saBase + 8 * (1024 + i / 2), 8)
  | .keySlotAttr | .keySlotCtr | .keySlotGen | .keySlotStat => some (10, 0, keyWord (s.fld F.keySlotSel_slot), 16)
  | .mtrCLevel | .mtrELevel => some (14, 0, stateWord i, 1)
  | .schTbLevel => some (14, 0, stateWord (2048 + i), 1)
  | .schSTbLevel => some (14, 0, stateWord (2048 + 144 + i), 1)
  | .schCbsCredit => some (14, 0, stateWord (3216 + i), 1)
  | _ => none

/-- The words behind a register are read: true when one is poisoned (R369). -/
def State.regCheck (s : State) (r : Reg) (i : Nat) : State × Bool := match s.regWords r i with
  | some (m, k, a, n) => s.useRead m k a n
  | none => (s, false)

/-- Read a register: the state and the word. -/
def State.readReg (s : State) (p : Path) (r : Reg) (i : Nat) : State × Word :=
  if !regExists r i then (s, 0)
  else
    let s := s.fifoFront r i
    let n := capWords r
    let off := r.addr i
    let w := s.regWord p r i
    if r = .mqPop then s.mqPopRead p (i / 4) (i % 4)
    else if r = .canTdc then
      if getBit w 31 then
        let d := s.drawWord
        (d.2, putBits w 15 8 d.1.toNat)
      else (s, w)
    else if r = .hbrPwLog4 then (s.holdWord p (off + 4) (s.rd .hbrPwLog5 i), w)
    else if r = .hbrPwLog5 then s.takeHeld p off w
    else if n = 1 then (s, w)
    else if i % n = 0 then
      ((List.range (n - 1)).foldl (fun t j => t.holdWord p (off + 4 * (j + 1)) (s.regWord p r (i + j + 1))) s, w)
    else s.takeHeld p off w

/-- The counter whose low or high word stands at an offset, and which. -/
def ctrAt (off : Nat) : Option (Ctr × Nat × Bool) :=
  match Ctr.ofAddr off with
  | some (c, i) => some (c, i, false)
  | none => if 4 ≤ off then (Ctr.ofAddr (off - 4)).map fun x => (x.1, x.2, true) else none

/-- Read a word of a counter (R13, R460). -/
def State.readCtr (s : State) (p : Path) (off : Nat) (c : Ctr) (i : Nat) (high : Bool) : State × Word :=
  let v := (s.ctr c i).toNat
  if high then s.takeHeld p off (word64 v 1) else (s.holdWord p (off + 4) (word64 v 1), word64 v 0)

/-! ## Table windows (R133) -/

/-- The word of a table image is the low word of a 64-bit counter, or its high word. -/
def tabCtrWord (id j : Nat) : Option Bool :=
  if id = 0x02 then some (j = 1) else if id = 0x1B ∧ 4 ≤ j then some (j % 2 = 1) else none

/-- The memory word that holds word `j` of an entry. -/
def tabMemWord (id par n j : Nat) : Nat := (tabMem id).2 + tabPos id par n * tabSize id / 2 + j / 2

/-- Read a word of an entry through a window, with the check of its memory: the state, the word, and whether it is poisoned. The
entries of the Harbour have no stated layout, and their words are free. -/
def State.readTab (s : State) (p : Path) (off id par n j : Nat) : State × Word × Bool :=
  if id = 0x33 ∨ id = 0x34 then
    let d := s.drawWord
    (d.2, d.1, false)
  else
    let m := (tabMem id).1
    let x := if memParity m then (s, false) else s.useRead m 0 (tabMemWord id par n j) 1
    let e := x.1.ent id par n
    let r := match tabCtrWord id j with
      | some true => x.1.takeHeld p off (ew e j)
      | some false => (x.1.holdWord p (off + 4) (ew e (j + 1)), ew e j)
      | none => (x.1, ew e j)
    (r.1, r.2, x.2)

/-- Read a dword of table window `w`. -/
def State.readWindow (s : State) (p : Path) (off : Nat) : State × Word × Bool :=
  let w := (off - 0x500000) / 0x40000
  let id := s.fld F.fdbWinSel_table_id w
  let byte := s.fld F.fdbWinSel_page w * 0x40000 + off % 0x40000
  let size := 4 * tabSize id
  if size = 0 then (s, 0, false)
  else
    let n := byte / size
    if tabCount id ≤ n then (s, 0, false)
    else s.readTab p off id (s.epoch + s.fld F.fdbWinSel_copy w) n (byte % size / 4)

/-! ## The whole map -/

/-- The data windows: KEY_MSG, of the engine, of update and of NVS_STORE (R428). -/
def inDataWin (off : Nat) : Bool :=
  (keyWin ≤ off && off < keyWin + 256) || (cipWin ≤ off && off < cipWin + 4096) || (updWin ≤ off && off < updWin + 4096)
    || (nvsWin ≤ off && off < nvsWin + 1024)

/-- The instance of a counter exists: P12, P13 and P16 have no SecY (R275, R458). -/
def ctrExists (c : Ctr) (i : Nat) : Bool := match c with
  | .cipInOk | .cipInDelayed | .cipInLate | .cipInNotValid | .cipInInvalid | .cipInNotUsingSa | .cipInUnusedSa | .cipInUntagged | .cipInNoTag
  | .cipInBadTag | .cipInNoSci | .cipInUnknownSci | .cipInBypass | .cipOutProtected | .cipOutEncrypted | .cipOutBypass | .cipOutTooLong
  | .cipTxDropPn => secyPort i
  | _ => true

/-- The image of the USER region, below the update windows (R412). -/
def inUser (off : Nat) : Bool := 0x060000 ≤ off && off < 0x070000

/-- Read a dword below the auxiliary SPI windows: the state, the word, and whether it is poisoned. Reserved offsets read zero. -/
def State.busRead (s : State) (p : Path) (off : Nat) : State × Word × Bool :=
  if 0x500000 ≤ off then s.readWindow p off
  else if 0xA0000 ≤ off ∧ off < 0x100000 then
    let r := s.rdPhy off
    (r.1, r.2, false)
  else if inDataWin off then (s, BitVec.ofNat 32 (beNat (s.winBytes p off 4)), false)
  else match Reg.ofAddr off with
    | some (r, i) =>
      let c := s.regCheck r i
      let x := c.1.readReg p r i
      (x.1, x.2, c.2)
    | none => match ctrAt off with
      | some (c, i, high) =>
        let x := s.readCtr p off c i high
        (x.1, x.2, false)
      | none =>
        if inUser off then (s, s.fromMram (BitVec.ofNat 32 (beNat (s.mramBytes (0x38000 + (off - 0x060000)) 4))), false)
        else (s, 0, false)

end Sys2Proof.Machine
end

