-- ==== Sys2Proof/Machine/BusWrite.lean ====
section
/-! DEFINITION. Writes of the register map: what a write of each register does (R8 to R17, R487), data windows, auxiliary SPI windows and
reserved offsets (R457, R458). -/

namespace Sys2Proof.Machine

open Sys2Proof

/-- The block that an offset below the auxiliary SPI windows lies in (R457). -/
def blkAt (off : Nat) : Blk :=
  let k := off / 0x10000
  if k < 1 then .glb else if k < 2 then .evt else if k < 3 then .hbr else if k < 4 then .mgt else if k < 5 then .cfg
  else if k < 6 then .nvs else if k < 8 then .upd else if k < 0xA then .mac else if k < 0x10 then .phy
  else if k < 0x14 then .cls else if k < 0x18 then .fdb else if k < 0x1C then .sky else if k < 0x20 then .hrb
  else if k < 0x24 then .qmg else if k < 0x28 then .sch else if k < 0x2C then .tga else if k < 0x30 then .tim
  else if k < 0x34 then .can else if k < 0x36 then .lin else if k < 0x38 then .tss else if k < 0x3C then .cip
  else if k < 0x40 then .key else if k < 0x44 then .red else if k < 0x48 then .mem else if k < 0x50 then .pwr
  else .fdb

/-! ## Pairs (R14) -/

/-- The number of words of a writable value that is staged and committed (R14, R16), 1 where a register stands alone. -/
def stageWords : Reg → Nat
  | .hbrTxRingBase => 2 | .hbrRxRingBase => 2 | .timDomStep => 2 | .cipSecyPnthr => 2 | .cipTxSaNextPn => 2
  | .cipRxSaNextPn => 2 | .memFlipD => 2
  | .timDomSet => 3 | .tgaAdminBase => 3 | .schGateBase => 3
  | _ => 1

/-- Commit a pair by a write of its low word (R14). -/
def State.wrPair (s : State) (p : Path) (r : Reg) (i : Nat) (lo : Word) : State :=
  let x := s.unstage p (r.addr i + 4) (s.rd r (i + 1))
  (x.2.wr r i lo).wr r (i + 1) x.1

/-- Commit a ring base: only while en = 0; bits [3:0] are zero. -/
def State.wrRingBase (s : State) (p : Path) (rx : Bool) (i : Nat) (lo : Word) : State :=
  let r : Reg := if rx then .hbrRxRingBase else .hbrTxRingBase
  if s.on (if rx then F.hbrRxRingCfg_en else F.hbrTxRingCfg_en) (i / 2) then (s.unstage p (r.addr i + 4) 0).2
  else s.wrPair p r i (putBits lo 3 0 0)

/-- Commit next_pn of a TX SA: below the threshold, PN_THRESH can rise again (R280). -/
def State.wrTxNextPn (s : State) (p : Path) (i : Nat) (lo : Word) : State :=
  let s := s.wrPair p .cipTxSaNextPn i lo
  let port := i / 8
  let thr := (s.rd .cipSecyPnthr (2 * port + 1)).toNat * 4294967296 + (s.rd .cipSecyPnthr (2 * port)).toNat
  if s.nextPn (i / 2) < thr then
    s.setPort port { s.port port with pnDone := (s.port port).pnDone.filter fun n => n != i / 2 }
  else s

/-- A write of the word that commits a value. -/
def State.wrCommit (s : State) (p : Path) (r : Reg) (i : Nat) (lo : Word) : State := match r with
  | .hbrTxRingBase => s.wrRingBase p false i lo
  | .hbrRxRingBase => s.wrRingBase p true i lo
  | .timDomStep => s.wrDomStep p (i / 2) lo
  | .timDomSet => s.wrDomSet p (i / 3) lo
  | .tgaAdminBase => s.wrTideBase p (i / 3) lo
  | .schGateBase => s.wrGateBase p (i / 3) lo
  | .cipTxSaNextPn => s.wrTxNextPn p i lo
  | _ => s.wrPair p r i lo

/-! ## Registers -/

/-- A write of a register that is writable in BOOT only (R101, R289). -/
def State.wrBootOnly (s : State) (r : Reg) (data : Word) : State := if s.op = .boot then s.writeReg r 0 data else s

/-- A write of HRB_HWM or CIP_VB_STAT loads the occupancy (R177). -/
def State.wrHrbHwm (s : State) : State :=
  (s.setFld F.hrbHwm_slots_hwm 0 s.net.slots.length).setFld F.hrbHwm_ctx_hwm 0 s.net.ctxs.length
def State.wrVbHwm (s : State) : State := s.setFld F.cipVbStat_hwm_blk 0 s.vbUsed

/-- A write of CIP_ARB_CFG: with a weight of 0 it is ignored (R272). -/
def State.wrArbCfg (s : State) (data : Word) : State :=
  if F.cipArbCfg_w_sky.of data = 0 ∨ F.cipArbCfg_w_ctrl.of data = 0 ∨ F.cipArbCfg_w_host.of data = 0 then s.accessErr .cip
  else s.writeReg .cipArbCfg 0 data

/-- A write of RED_HB_CFG: one that breaks check 0x03 of R355 is ignored. -/
def State.wrHbCfg (s : State) (data : Word) : State :=
  let l := F.redHbCfg_loss_us.of data
  let c := F.redHbCfg_confirm_us.of data
  let k := F.redHbCfg_kick_ms.of data
  if k < 1 ∨ 100 < k ∨ l < 2 ∨ 500 < l ∨ c < 100 ∨ 998 < c ∨ 1000 < l + c then s.accessErr .red
  else s.writeReg .redHbCfg 0 data

/-- A write of a register of the GLB to UPD blocks. -/
def State.wrSystem (s : State) (p : Path) (r : Reg) (i : Nat) (data : Word) : State := match r with
  | .glbLsCtrl => s.wrLsCtrl p data 0
  | .glbSafeCfg => s.wrSafeCfg data
  | .evtStat => s.wrEvtStat i data
  | .evtLogCfg => s.wrProducer r data
  | .evtRaise => s.wrEvtRaise data
  | .evtRoute => s.wrEvtRoute false i data
  | .hbrPwFence => s.wrPwFence p data
  | .hbrTxRingCfg => s.wrRingCfg false i data
  | .hbrRxRingCfg => s.wrRingCfg true i data
  | .mqCfg => s.wrMqCfg i data
  | .mqCmd => s.wrMqCmd p i data
  | .cfgRestart => s.wrRestart p data
  | .cfgShadowCtrl => s.wrShadowCtrl data
  | .cfgSwapCtrl => s.wrSwapCtrl p data
  | .nvsStoreCmd => s.wrNvsCmd p data .ok
  | .updCmd => s.wrUpdCmd p data true
  | .updArg => s.writeReg .updArg (updInst p) data
  | _ => s.writeReg r i data

/-- A write of a register of the MAC to HRB blocks. -/
def State.wrPath (s : State) (p : Path) (r : Reg) (i : Nat) (data : Word) : State := match r with
  | .macPortCfg => s.wrPortCfg i data
  | .macFwdCtrl => if i = 16 then s else s.writeReg r i data
  | .macMdioCmd =>
    let d := s.drawWord
    d.2.wrMdioCmd data (some (BitVec.ofNat 16 d.1.toNat))
  | .clsHashSeed => s.wrBootOnly r data
  | .clsEntCmd => s.wrClsEntCmd p data
  | .fdbHashSeed => s.wrBootOnly r data
  | .fdbLearnCfg => s.wrProducer r data
  | .fdbFlapCfg => s.wrFlapCfg data
  | .fdbStrReset => s.wrStrReset data
  | .fdbEntCmd => s.wrFdbEntCmd p data
  | .skyCtrl => s.wrSkyCtrl data true
  | .skyCellLim => s.wrSkyCellLim data
  | .skyMqCfg => s.wrProducer r data
  | .skyHomeMap => s.wrHomeMap i data
  | .hrbHwm => s.wrHrbHwm
  | _ => s.writeReg r i data

/-- A write of a register of the QMG, SCH, TGA or TIM block. -/
def State.wrQueueing (s : State) (p : Path) (r : Reg) (i : Nat) (data : Word) : State := match r with
  | .qmgPoolHwm => s.wrHwm .pool 0
  | .qmgSharedHwm => s.wrHwm .shared 0
  | .qmgPortHwm => s.wrHwm .port i
  | .qmgPortLim => s.wrPortLim i data
  | .qmgQLim => s.wrQLim i data
  | .qmgSLim => s.wrQLim (144 + i) data
  | .schPortCfg => s.wrSchPortCfg i data
  | .schMaxwait => s.wrMaxwait i data
  | .schTbRate => s.wrTbRate i data
  | .schSTbRate => s.wrTbRate (144 + i) data
  | .schTbDepth => s.wrTbDepth i data
  | .schSTbDepth => s.wrTbDepth (144 + i) data
  | .schCbsSlope => s.wrCbsSlope i data
  | .schCbsHi => s.wrCbsHi i data
  | .mtrCtrl => s.wrMeter r i data
  | .mtrCir => s.wrMeter r i data
  | .mtrPir => s.wrMeter r i data
  | .mtrCbs => s.wrMeter r i data
  | .mtrEbs => s.wrMeter r i data
  | .schGateCfg => s.wrGateCfg i data
  | .schGateList => s.wrGateAdmin r i i data
  | .schGateCycle => s.wrGateAdmin r i i data
  | .schGateAdmin0 => s.wrGatePool r i data
  | .schGateAdmin1 => s.wrGatePool r i data
  | .tgaCfg => s.wrTgaCfg i data
  | .tgaAdminCycle => s.wrTideAdmin r i i data
  | .tgaAdminExt => s.wrTideAdmin r i i data
  | .tgaAdminLen => s.wrTideAdmin r i i data
  | .tgaAdminEntry => s.wrTideAdmin r i (i / 1024) data
  | .tgaPreemptCfg => s.wrPreemptCfg i data
  | .timCtrl => s.wrTimCtrl data
  | .timDomCfg => s.wrDomCfg i data
  | .timDomSlew => s.wrDomSlew i data
  | .timDomFreq => s.wrDomRate r i data
  | .timDomSlewCfg => s.wrDomRate r i data
  | .timTxtsPop => if F.timTxtsPop_pop.of data = 1 then s.txtsPop p i else s
  | .timTscCfg => s.wrTscCfg i data
  | .timTscStorm => s.wrTscReg .timTscStorm i data
  | .timTscStat => s.wrTscStat i data
  | .timTscPop => s.wrTscPop i data
  | .timPpsCfg => s.wrPpsCfg i data
  | .timPpsStart => s.writeReg r i (ptpData r i data)
  | _ => s.writeReg r i data

/-- A write of a register of the CAN to PWR blocks. -/
def State.wrEdge (s : State) (p : Path) (r : Reg) (i : Nat) (data : Word) : State := match r with
  | .canCtrl => s.wrCanCtrl i data
  | .canNbt => s.wrCanTiming r i data
  | .canDbt => s.wrCanTiming r i data
  | .canXbt => s.wrCanTiming r i data
  | .canTdc => s.wrCanTiming r i data
  | .canPwm => s.wrCanTiming r i data
  | .canBoCfg => s.wrBoCfg i data
  | .linCtrl => s.wrLinCtrl i data
  | .linSched => s.wrLinSched i data
  | .tssPhyCfg => s.wrPlca r i data
  | .tssPlcaCtrl => s.wrPlca r i data
  | .tssPlcaTmr => s.wrPlca r i data
  | .cipArbCfg => s.wrArbCfg data
  | .cipCtxSplit => s.wrBootOnly r data
  | .cipVbStat => s.wrVbHwm
  | .cipJobCmd => s.wrJobCmd p data
  | .cipKcmd => s.wrKcmd p data
  | .cipSecyCfg => s.wrSecyCfg i data
  | .cipTxscCtrl => s.wrEncAn i data
  | .keyCmd => s.wrKeyCmd p data 4 false true
  | .redCfg => s.wrRedCfg data
  | .redHbCfg => s.wrHbCfg data
  | .redHbKick => s.wrHbKick p data
  | .memFlipCtrl => s.wrFlipCtrl data
  | .pwrCtrl => s.wrPwrCtrl p data
  | .pwrWakeoutCfg => (s.writeReg r i data).pins
  | _ => s.writeReg r i data

/-- A write of instance `i` of a register on a path. -/
def State.wrRegister (s : State) (p : Path) (r : Reg) (i : Nat) (data : Word) : State :=
  if r = .clsPrioCfg ∧ 18 ≤ i then s
  else if !regExists r i then s.accessErr r.info.blk
  else
    let n := stageWords r
    if n ≠ 1 then
      if i % n = 0 then s.wrCommit p r i data
      else if r = .tgaAdminBase ∧ s.tideClosed (s.tide (i / 3)) then s.accessErr .tga
      else if r = .schGateBase ∧ s.tideClosed (s.gate (i / 3)) then s.accessErr .sch
      else s.stageWord p (r.addr i) data
    else match r.info.blk with
      | .glb => s.wrSystem p r i data
      | .evt => s.wrSystem p r i data
      | .hbr => s.wrSystem p r i data
      | .mgt => s.wrSystem p r i data
      | .cfg => s.wrSystem p r i data
      | .nvs => s.wrSystem p r i data
      | .upd => s.wrSystem p r i data
      | .mac => s.wrPath p r i data
      | .phy => s.wrPath p r i data
      | .cls => s.wrPath p r i data
      | .fdb => s.wrPath p r i data
      | .sky => s.wrPath p r i data
      | .hrb => s.wrPath p r i data
      | .qmg => s.wrQueueing p r i data
      | .sch => s.wrQueueing p r i data
      | .tga => s.wrQueueing p r i data
      | .tim => s.wrQueueing p r i data
      | .can => s.wrEdge p r i data
      | .lin => s.wrEdge p r i data
      | .tss => s.wrEdge p r i data
      | .cip => s.wrEdge p r i data
      | .key => s.wrEdge p r i data
      | .red => s.wrEdge p r i data
      | .mem => s.wrEdge p r i data
      | .pwr => s.wrEdge p r i data

/-! ## The whole map -/

/-- Write the bytes of a dword that its byte enables select into a data window: bits [31:24] are the byte at the lowest offset. -/
def State.wrWindow (s : State) (p : Path) (off : Nat) (data : Word) (be : Nat) : State :=
  (List.range 4).foldl (fun s j =>
    if be / 2 ^ (3 - j) % 2 = 1 then s.winPut p (off + j) [BitVec.ofNat 8 (getBits data (31 - 8 * j) (24 - 8 * j))] else s) s

/-- A full write of a dword below the auxiliary SPI windows takes effect. -/
def State.wrMap (s : State) (p : Path) (off : Nat) (data : Word) : State :=
  if 0x500000 ≤ off then s.accessErr .fdb
  else if 0xA0000 ≤ off ∧ off < 0x100000 then s.wrPhy off data (s.phyWhat off data)
  else if inDataWin off then s.wrWindow p off data 15
  else match Reg.ofAddr off with
    | some (r, i) => s.wrRegister p r i data
    | none => if (ctrAt off).any (fun x => ctrExists x.1 x.2.1) || inUser off then s else s.accessErr (blkAt off)

/-- A dword of a posted write reaches the register bus: its effect, or its failure, and whether it failed. `sts` is the status byte that a
peripheral returns for it, `reqId` and `tag` identify a PCIe request (R428, R430, R432, R435). -/
def State.wrDword (s : State) (p : Path) (off : Nat) (data : Word) (be reqId tag : Nat) (sts : Byte) : State × Bool :=
  let fail (c : PwCause) : State × Bool := (s.pwFail ⟨p, c, off, data, be, reqId, tag, 0⟩, true)
  if be = 0 then (s, false)
  else if !s.reaches p off then fail .state
  else if 0xC00000 ≤ off then fail .unmapped
  else if 0x800000 ≤ off then s.aspiWrite p ((off - 0x800000) / 0x100000) (off % 0x100000) data be reqId tag sts
  else if be = 15 then (s.wrMap p off data, false)
  else if inDataWin off then (s.wrWindow p off data be, false)
  else fail .width

/-- A register write on a path, as one request of device firmware or one dword of a host path. -/
def State.busWrite (s : State) (p : Path) (off : Nat) (data : Word) : State :=
  let d := Config.freeByte s.free 0
  let s := if 0x800000 ≤ off then { s with free := s.free + 1 } else s
  (s.wrDword p off data 15 0 0 d).1

end Sys2Proof.Machine
end

