-- ==== Sys2Proof/Machine/Bus.lean ====
section
/-! DEFINITION. Requests of the access paths: register writes and reads, PCIe memory requests (R427 to R429), frames of the management
SPI port (R436 to R439), and JTAG (R3, R319). -/

namespace Sys2Proof.Machine

open Sys2Proof

/-! ## One register -/

/-- A write of a register that has no row of its own, or of any other offset. -/
def execRegisterWrite (path : Path) (off : BitVec 24) (data : Word) (s : State) : Host.Outcome State Fault Refusal :=
  .next (s.access path (off.toNat / 4 * 4) data fun s => s.busWrite path (off.toNat / 4 * 4) data)

/-- A write of the high word of a pair, or of word 1 or 2 of a PTP value (R14, R16). -/
def execHighWordStageWrite (path : Path) (off : BitVec 24) (data : Word) (s : State) : Host.Outcome State Fault Refusal :=
  .next (s.access path (off.toNat / 4 * 4) data fun s => s.busWrite path (off.toNat / 4 * 4) data)

/-- A write of the low word of a pair (R14). -/
def execLowWordCommitWrite (path : Path) (off : BitVec 24) (data : Word) (s : State) : Host.Outcome State Fault Refusal :=
  .next (s.access path (off.toNat / 4 * 4) data fun s => s.busWrite path (off.toNat / 4 * 4) data)

/-- A write of word 0 of a PTP value (R16, R17). -/
def execPtpValueCommit (path : Path) (off : BitVec 24) (data : Word) (s : State) : Host.Outcome State Fault Refusal :=
  .next (s.access path (off.toNat / 4 * 4) data fun s => s.busWrite path (off.toNat / 4 * 4) data)

/-- A read of a dword: the state, the word with its poison, and the peripheral words not used; none when the read is refused. -/
def State.readDword (s : State) (p : Path) (off : Nat) (far : List Word) : Option (State × Word × Bool × List Word) :=
  if !s.reaches p off || decide (0xC00000 ≤ off) then none
  else if 0x800000 ≤ off then
    let w := (off - 0x800000) / 0x100000
    if s.on F.hbrAspiCfg0_en w then
      let r := s.aspiRead p w (off % 0x100000 / 4) far
      some (r.1, r.2.1, false, r.2.2)
    else none
  else
    let r := s.busRead p off
    some (r.1, r.2.1, r.2.2, far)

/-- A read is refused (R428, R437). -/
def State.refuseRead (s : State) : State := s.bump .hbrNpErr

/-! ## Requests -/

/-- A request is empty, longer than 64 bytes, or crosses a 64-byte line (R428). -/
def badSpan (addr n : Nat) : Bool := n == 0 || decide (16 < n) || addr / 64 != (addr + 4 * n - 1) / 64

/-- The dwords of a posted write, in ascending address order: the first that fails ends the request (R428, R433). -/
def wrDwords (p : Path) (reqId tag : Nat) : List (Word × Nat) → List Byte → Nat → State → State
  | [], _, _, s => s
  | (d, be) :: ds, far, off, s =>
    let r := s.wrDword p off d be reqId tag (far.headD 0)
    if r.2 then r.1 else wrDwords p reqId tag ds far.tail (off + 4) r.1

/-- The dwords of a read, in ascending address order, and whether one is poisoned; none when one is refused. -/
def rdDwords (p : Path) : Nat → List Word → Nat → State → Option (State × List Word × Bool)
  | 0, _, _, s => some (s, [], false)
  | n + 1, far, off, s =>
    match s.readDword p off far with
    | none => none
    | some (t, w, bad, far) => (rdDwords p n far (off + 4) t).map fun r => (r.1, w :: r.2.1, bad || r.2.2)

/-! ## The MSI-X table (R427, R453) -/

/-- A dword with the bytes that its byte enables select replaced: enable i selects bits [8i + 7:8i]. -/
def mergeBe (old data : Word) (be : Nat) : Word :=
  (List.range 4).foldl (fun w i =>
    if be / 2 ^ i % 2 = 1 then putBits w (8 * i + 7) (8 * i) (getBits data (8 * i + 7) (8 * i)) else w) old

/-- A write of a dword of BAR2: the MSI-X table; the PBA is read-only (R427, R453). -/
def State.wrMsix (s : State) (off : Nat) (data : Word) (be : Nat) : State :=
  let v := off / 16
  let m := s.vec v
  if 0x200 ≤ off then s
  else match off / 4 % 4 with
    | 0 => s.setVec v { m with addrLo := mergeBe m.addrLo data be }
    | 1 => s.setVec v { m with addrHi := mergeBe m.addrHi data be }
    | 2 => s.setVec v { m with data := mergeBe m.data data be }
    | _ =>
      let w := mergeBe (BitVec.ofNat 32 m.masked.toNat) data be
      if m.masked && !getBit w 0 then s.msixUnmask v else s.setVec v { m with masked := getBit w 0 }

/-- A dword of BAR2. -/
def State.rdMsix (s : State) (off : Nat) : Word :=
  if off = 0x800 then BitVec.ofNat 32 ((List.range 32).foldl (fun a v => if (s.vec v).pending then a + 2 ^ v else a) 0)
  else if 0x200 ≤ off then 0
  else
    let m := s.vec (off / 16)
    match off / 4 % 4 with
    | 0 => m.addrLo
    | 1 => m.addrHi
    | 2 => m.data
    | _ => BitVec.ofNat 32 m.masked.toNat

/-- The dwords of a write to BAR2. -/
def wrMsixDwords : List (Word × Nat) → Nat → State → State
  | [], _, s => s
  | (d, be) :: ds, off, s => wrMsixDwords ds (off + 4) (s.wrMsix off d be)

/-! ## Posted writes -/

/-- A posted write reaches the register bus (R428, R432): a write to a fenced window is discarded and counted (R435); a poisoned or
misaligned request, or one that is too long, fails with its first dword. -/
def State.wrRequest (s : State) (p : Path) (r : Posted) : State :=
  let d := r.data.headD (0, 0)
  let fail (c : PwCause) : State := s.pwFail ⟨p, c, r.addr, d.1, d.2, r.reqId, r.tag, 0⟩
  if r.bar2 then if r.ep then s else wrMsixDwords r.data (r.addr % 8192) s
  else if s.fencedAt p r.addr then s.bump .hbrPwFenced
  else if r.ep then fail .poison
  else if r.addr % 4 ≠ 0 then fail .align
  else if badSpan r.addr r.data.length then fail .width
  else wrDwords p r.reqId r.tag r.data r.far r.addr s

/-- The oldest posted write of a path's queue takes effect, under its own sequence number (R424, R434). -/
def State.runPosted (s : State) (p : Path) (r : Posted) : State :=
  let last := (s.pathSt p).seq
  let s := s.setPath p { s.pathSt p with seq := r.seq }
  let t := s.wrRequest p r
  if (t.pathSt p).seq = r.seq then t.setPath p { t.pathSt p with seq := last } else t

/-- Up to `n` posted writes of a path take effect, in issue order. -/
def drainPosted (p : Path) : Nat → State → State
  | 0, s => s
  | n + 1, s => match s.postQ p with
    | [] => s
    | r :: rest => drainPosted p n ((s.setPostQ p rest).runPosted p r)

/-- Every posted write that waits on a path takes effect (R424). -/
def State.drain (s : State) (p : Path) : State := if (s.postQ p).isEmpty then s else (drainPosted p (s.postQ p).length s).settle

/-- Every posted write that waits takes effect. -/
def State.drainHost (s : State) : State := (s.drain .pcie).drain .spi

/-! ## Reads of one register -/

/-- A refused read is answered as its path answers it; the word that a refused read of device firmware returns is free. -/
def State.answerRefused (s : State) (p : Path) (off : Nat) : State := match p with
  | .fw => s.drawWord.2.emit (.regRead p off s.drawWord.1)
  | .spi => s.refuseRead
  | .pcie => s.refuseRead.emit .completerAbort

/-- A read of one dword on a path, after the posted writes of the path (R424), with the words that a peripheral gives. -/
def State.readRow (s : State) (p : Path) (off : Nat) (words : List Word) : State :=
  if !s.mapUp || (p == .fw && s.coresOff) then s
  else
    let s := s.drain p
    match s.readDword p off words with
    | some (t, w, _, _) => t.emit (.regRead p off w)
    | none => s.answerRefused p off

/-- The free words that peripherals give for a read of one dword, where its row has no operand for them. -/
def State.readFree (s : State) (p : Path) (off : Nat) : State :=
  if 0x800000 ≤ off then
    { s with free := s.free + 17 }.readRow p off ((List.range 17).map fun i => Config.freeWord (s.free + i))
  else s.readRow p off []

/-- A read of the low word of a pair, or of word 0 of a PTP value (R13, R16), or of any other dword. -/
def execLowWordReadCapture (path : Path) (off : BitVec 24) (s : State) : Host.Outcome State Fault Refusal :=
  .next (s.readFree path (off.toNat / 4 * 4))

/-- A read of an auxiliary SPI window (R430, R431). -/
def execAspiWindowRead (path : Path) (w : Fin 4) (off : BitVec 20) (words : List Word) (s : State) : Host.Outcome State Fault Refusal :=
  .next (s.readRow path (0x800000 + 0x100000 * w + off.toNat / 4 * 4) words)

/-- A read of MQ_POP3 (R446): it returns the last word of the item at Rd and advances Rd. -/
def execMqPop (path : Path) (k : Fin 48) (s : State) : Host.Outcome State Fault Refusal :=
  let off := Reg.mqPop.addr (4 * k + 3)
  .next (if !s.mapUp || (path == .fw && s.coresOff) then s
    else
      let s := s.drain path
      if s.reaches path off then
        let r := s.mqPopRead path k 3
        r.1.emit (.regRead path off r.2)
      else s.answerRefused path off)

/-! ## PCIe requests (R427 to R429, R477) -/

/-- A memory write is issued (R424, R434): it enters the posted-write queue, which withholds its credits while it is full. `stall` leaves
it there, and it takes effect before a later request or at the next tick. -/
def State.mwr (s : State) (t : MWr) (stall : Bool) : State :=
  if s.postFull .pcie then s
  else
    let s := s.nextSeq .pcie
    let s := s.post .pcie ⟨t.bar2, t.addr.toNat / 4 * 4, t.data.map fun x => (x.1, x.2.toNat), t.ep, t.reqId.toNat, t.tag.toNat,
      (s.pathSt .pcie).seq, t.far⟩
    if stall then s else s.drain .pcie

def execPcieMwr (t : MWr) (s : State) (stall : Bool := false) : Host.Outcome State Fault Refusal :=
  .next (if s.pcieUp then s.mwr t stall else s)

/-- The bytes of a dword that its byte enables select: enable i selects byte i, which holds bits [8i + 7:8i] (R7, R428). -/
def lanesOf (w : Word) (be : BitVec 4) : List Byte :=
  ((List.range 4).filter fun i => be.getLsbD i).map fun i => BitVec.ofNat 8 (getBits w (8 * i + 7) (8 * i))

/-- The bytes of a completion. -/
def complBytes (ws : List Word) (bes : List (BitVec 4)) : List Byte := (List.zipWith lanesOf ws bes).flatten

/-- A dword of the PCIe configuration space (R426): vendor and device, revision and class; the rest is free (assumption 93). -/
def cfgWord (draw off : Nat) : Word :=
  if off = 0 then 0x96401F7E else if off = 8 then 0x02800020 else Config.pcieCfg draw off

/-- A read of the configuration space is answered (R477). -/
def State.cfgRead (s : State) (a : Nat) (bes : List (BitVec 4)) : State :=
  { s.emit (.completion (complBytes ((List.range bes.length).map fun k => cfgWord s.free (a + 4 * k)) bes) false) with free := s.free + 1 }

/-- A memory read, after the posted writes of PCIe (R424): every internal access is a full dword, and the byte enables select the bytes
returned. -/
def State.mrd (s0 : State) (t : MRd) : State :=
  let s := s0.drain .pcie
  let a := t.addr.toNat / 4 * 4
  let n := t.bes.length
  if t.cfg then s.cfgRead a t.bes
  else if badSpan a n then s.refuseRead.emit .completerAbort
  else if t.bar2 then s.emit (.completion (complBytes ((List.range n).map fun k => s.rdMsix ((a + 4 * k) % 8192)) t.bes) false)
  else match rdDwords .pcie n t.far a s with
    | some (u, ws, bad) => u.emit (.completion (complBytes ws t.bes) bad)
    | none => s.refuseRead.emit .completerAbort

def execPcieMrd (t : MRd) (s : State) : Host.Outcome State Fault Refusal := .next (if s.pcieUp then s.mrd t else s)

/-! ## The management SPI port (R436 to R439) -/

/-- MSPI_CS_N is low during a frame (R437, R444). -/
def State.inFrame (s : State) (f : State → State) : State := (f (s.setBall 9 false)).setBall 9 true

/-- A CRC or framing failure of a frame (R439); `crc` is the crc_err of the status byte. -/
def State.spiErr (s : State) (crc : Bool) : State :=
  ({ s with hbr := { s.hbr with spiCrcErr := crc } }.bump .mgtSpiErr).raise Ev.mspiErr

/-- The last frame passed its CRC. -/
def State.spiGood (s : State) : State := { s with hbr := { s.hbr with spiCrcErr := false } }

/-- The status byte (R437). -/
def State.spiStatus (s : State) (ready poison error : Bool) : Byte :=
  let fence := (s.pathSt .spi).fence != 0
  let log := (List.range 8).any fun k => s.on F.hbrPwLog0_valid k && s.fld F.hbrPwLog0_path k == Path.spi.code
  BitVec.ofNat 8 (128 * ready.toNat + 64 * (s.anyRouted 3).toNat + 32 * (decide (8 ≤ s.hbr.spiQ.length)).toNat
    + 16 * s.hbr.spiCrcErr.toNat + 8 * poison.toNat + 4 * error.toNat + 2 * fence.toNat + log.toNat)

/-- A WRITE frame fails before it enters the write buffer; to a fenced window it is discarded (R435). -/
def State.spiFail (s : State) (c : PwCause) (bs : List Byte) : State :=
  if s.fencedAt .spi (fieldAt bs 1 3) then s.bump .hbrPwFenced
  else s.pwFailDword .spi c (fieldAt bs 1 3) (BitVec.ofNat 32 (fieldAt bs 5 4))

/-- A WRITE frame: header, data, CRC. `stall` leaves it in the write buffer, which drains later. -/
def State.spiWrite (s : State) (bs : List Byte) (far : List Byte) (stall : Bool) : State :=
  let n := fieldAt bs 4 1 + 1
  let len := 5 + 4 * n
  if byteAt bs 0 ≠ 2 ∧ bs ≠ [] then s
  else if bs.length < 5 ∨ bs.length ≤ len then ((s.spiErr false).spiFail .framing bs)
  else
    let s := s.nextSeq .spi
    if crc8 (bs.take len) ≠ byteAt bs len then ((s.spiErr true).spiFail .crc bs)
    else
      let s := s.spiGood
      let a := fieldAt bs 1 3
      if s.postFull .spi then s.spiFail .overrun bs
      else
        let s := s.post .spi ⟨false, a, (wordsOf (bytesAt bs 5 (4 * n))).map fun w => (w, 15), false, 0, 0, (s.pathSt .spi).seq, far⟩
        if stall then s.settle else s.drain .spi

def execSpiWriteFrame (bytes far : List Byte) (stall : Bool) (s : State) : Host.Outcome State Fault Refusal :=
  .next (if s.mapUp then (s.inFrame id).spiWrite bytes far stall else s)

/-- A READ is being served, or is so no more (R438). -/
def State.setReading (s : State) (b : Bool) : State := { s with hbr := { s.hbr with reading := b } }

/-- The response to a READ frame is ready: RDY_BSY rises, and status byte, data and CRC follow. -/
def State.spiRespond (s : State) (st : Byte) (ws : List Word) : State :=
  let bs := st :: bytesOf ws
  ((s.setReading false).setBall 2 true).emit (.spi (bs ++ [crc8 bs]))

/-- A READ frame (R437 to R439): it waits for every earlier WRITE, with RDY_BSY low until the response is ready. -/
def State.spiRead (s : State) (bs : List Byte) (far : List Word) : State :=
  let n := fieldAt bs 4 1 + 1
  let zeros := List.replicate n (0 : Word)
  let a := fieldAt bs 1 3
  if byteAt bs 0 ≠ 0x0B ∧ bs ≠ [] then s
  else if bs.length < 6 then s.spiErr s.hbr.spiCrcErr
  else
    let s := ((s.setReading true).setBall 2 false).drain .spi
    if crc8 (bs.take 5) ≠ byteAt bs 5 then
      let s := s.spiErr true
      s.spiRespond (s.spiStatus false false false) zeros
    else
      let s := s.spiGood
      let r := if a % 4 ≠ 0 ∨ badSpan a n = true then none else rdDwords .spi n far a s
      match r with
      | some (t, ws, bad) => t.spiRespond (t.spiStatus true bad false) ws
      | none =>
        let s := s.refuseRead
        s.spiRespond (s.spiStatus false false true) zeros

def execSpiReadFrame (bytes : List Byte) (far : List Word) (s : State) : Host.Outcome State Fault Refusal :=
  .next (if s.mapUp then (s.inFrame (·.spiRead bytes far)).settle else s)

/-- A STATUS frame; one cut short is discarded and counted (R439). -/
def State.spiStatusFrame (s : State) (complete : Bool) : State :=
  if complete then
    let st := s.spiStatus false false false
    s.emit (.spi [st, crc8 [st]])
  else s.spiErr s.hbr.spiCrcErr

def execSpiStatusFrame (complete : Bool) (s : State) : Host.Outcome State Fault Refusal :=
  .next (if s.mapUp then s.inFrame (·.spiStatusFrame complete) else s)

/-! ## JTAG (R3, R319) -/

/-- Debug of the control pair and register access by JTAG are open: in FIELD after R320 only. -/
def State.jtagDebug (s : State) : Bool := s.keys.lc != 2 || s.net.dbg.open_

/-- A mode of JTAG is entered when it is open. -/
def State.jtagMode (s : State) (open_ : Bool) : State := s.emit (if open_ then .jtagOpen else .jtagRefused)

/-- A register read by JTAG, on the path of the control pair. -/
def State.jtagRead (s : State) (off : Nat) : State :=
  match s.readDword .fw off [] with
  | some (t, w, _, _) => t.emit (.jtag w)
  | none => s.emit .jtagRefused

/-- What JTAG asks for is taken, or refused by the life-cycle state. -/
def State.jtag (s : State) (op : JtagOp) : State := match op with
  | .idcode => s.emit (.jtag 0x09640D3B)
  | .bypass => s.jtagMode true
  | .samplePreload => s.jtagMode (s.keys.lc != 2)
  | .extest => s.jtagMode (s.keys.lc != 2)
  | .regRead off =>
    if !s.jtagDebug then s.jtagMode false else if s.mapUp then s.jtagRead (off.toNat / 4 * 4) else s
  | .regWrite off data =>
    if !s.jtagDebug then s.jtagMode false
    else if s.mapUp then (s.nextSeq .fw).busWrite .fw (off.toNat / 4 * 4) data else s
  | .coreDebug => s.jtagMode s.jtagDebug
  | .factoryTest => s.jtagMode (s.phys.testEn && s.keys.lc != 1 && s.keys.lc != 2)

/-- `testEn` is the level of TEST_EN at the access: it selects the factory test modes that R319 leaves open (R472). -/
def execJtagAccess (op : JtagOp) (s : State) (testEn : Bool := false) : Host.Outcome State Fault Refusal :=
  .next (if s.op = .off then s else State.jtag { s with phys := { s.phys with testEn := testEn } } op)

end Sys2Proof.Machine
end

