-- ==== Sys2Proof/Machine/Clock.lean ====
section
/-! DEFINITION. What 1.25 ns do with no command waiting (assumption 3): local time and the domain clocks, levels, credits and timers of
the outputs, the posted writes that wait on the host paths, the receive FIFOs of the legacy channels, and the heartbeat output. -/

namespace Sys2Proof.Machine

open Sys2Proof

/-- REDLINK_A toggles every 1 us while the device is alive, and is low otherwise (R345). -/
def State.tickRedlink (s : State) : State :=
  if s.on F.redCfg_en && s.alive then
    if (s.tim.lt + Config.redlinkPhase) % 800 = 0 then s.setBall 7 (!getBit (s.rd .hbrSideband) 7) else s
  else s.setBall 7 false

/-- The control pair fetches or loads from its memories 0x0B and 0x0C, and what is in error there is read (DESIGN CHOICE, assumption 92: the
spec does not say which words it reads, and the model has it read every one that holds an error, while it runs its firmware in RUN). On
poison the pair aborts, and device firmware requests a restart with cause 0x07; on the split checker a re-pair starts (R369). -/
def State.pairFetch (s : State) : State :=
  if s.memClean || s.op != .run || s.coresOff || s.pair.safe.isSome then s
  else
    let lo := memKey 11 0 0
    let l := s.mem.errs.filter fun e => decide (lo ≤ e.1) && decide (e.1 < memKey 13 0 0)
    let r := l.foldl (fun (x : State × Bool) e =>
      let y := x.1.useRead (e.1 / 1073741824) 0 (e.1 % 16777216) 1
      (y.1, x.2 || y.2)) (s, false)
    let t := r.1
    if !r.2 then t
    else
      let u : State := { t with free := t.free + 1 }
      if t.pair.mode == .split && Config.byChecker t.free then u.repair (Config.laneFail t.free) else u.restart

/-- One tick of the fabric clock. -/
def State.tickFabric (s : State) : State := s.tickCommit.keepPast.applyJumps.tickTime.tickPoints.tickSched.drainHost.drainLeg.tickRedlink.splitDone.pairFetch

/-- One tick of 1.25 ns. -/
def State.tick (s : State) : State :=
  let t : State := { s with now := s.now + 1 }
  if t.fabricOn then t.tickFabric else t

end Sys2Proof.Machine
end

