-- ==== Sys2Proof/Machine/Dispatch.lean ====
section
/-! DEFINITION. The meaning of each command: one arm for each constructor of Instr. -/

namespace Sys2Proof.Machine

open Sys2Proof

def exec (i : Instr) (s : State) : Host.Outcome State Fault Refusal :=
  match i with
  | .suppliesValid ioA ioB => Sys2Proof.Machine.execSuppliesValid s ioA ioB
  | .rstNAssert => Sys2Proof.Machine.execRstNAssert s
  | .rstNRelease => Sys2Proof.Machine.execRstNRelease s
  | .suppliesLost aon => Sys2Proof.Machine.execSuppliesLost aon s
  | .rootPllLock laneFail => Sys2Proof.Machine.execRootPllLock laneFail s
  | .rootPllLossOfLock => Sys2Proof.Machine.execRootPllLossOfLock s
  | .phyPllLossOfLock p rest => Sys2Proof.Machine.execPhyPllLossOfLock p s rest
  | .retentionSupplyFault railsPresent => Sys2Proof.Machine.execRetentionSupplyFault railsPresent s
  | .bootAttemptStart => Sys2Proof.Machine.execBootAttemptStart s
  | .flashReadTimeout => Sys2Proof.Machine.execFlashReadTimeout s
  | .bootAttemptTimeout => Sys2Proof.Machine.execBootAttemptTimeout s
  | .fwimLoadComplete => Sys2Proof.Machine.execFwimLoadComplete s
  | .csetLoadComplete => Sys2Proof.Machine.execCsetLoadComplete s
  | .fastStartConfigReady => Sys2Proof.Machine.execFastStartConfigReady s
  | .stableTimerExpiry => Sys2Proof.Machine.execStableTimerExpiry s
  | .registerWrite path off data => Sys2Proof.Machine.execRegisterWrite path off data s
  | .lowWordReadCapture path off => Sys2Proof.Machine.execLowWordReadCapture path off s
  | .highWordStageWrite path off data => Sys2Proof.Machine.execHighWordStageWrite path off data s
  | .lowWordCommitWrite path off data => Sys2Proof.Machine.execLowWordCommitWrite path off data s
  | .ptpValueCommit path off data => Sys2Proof.Machine.execPtpValueCommit path off data s
  | .rxFrameStart p frac smdS => Sys2Proof.Machine.execRxFrameStart p frac smdS s
  | .rxLookupStart p pre bytes tail ahead => Sys2Proof.Machine.execRxLookupStart p pre bytes tail s ahead
  | .rxOversizeDetected p pre rest => Sys2Proof.Machine.execRxOversizeDetected p pre rest s
  | .rxFrameEnd p pre rest tail => Sys2Proof.Machine.execRxFrameEnd p pre rest tail s
  | .macsecIcvCheckDone p addr upset => Sys2Proof.Machine.execMacsecIcvCheckDone p addr upset s
  | .bufferWriteComplete slot => Sys2Proof.Machine.execBufferWriteComplete slot s
  | .txOpportunity p frac rd => Sys2Proof.Machine.execTxOpportunity p frac rd s
  | .txCopyEnd p express frac col => Sys2Proof.Machine.execTxCopyEnd p express frac s col
  | .fragmentEnd p sent frac more => Sys2Proof.Machine.execFragmentEnd p sent frac s more
  | .linkUp p mode fast sig => Sys2Proof.Machine.execLinkUp p mode fast s sig
  | .linkDown p rest => Sys2Proof.Machine.execLinkDown p s rest
  | .fenceLimitExpiry p => Sys2Proof.Machine.execFenceLimitExpiry p s
  | .clsInsert path table bank => Sys2Proof.Machine.execClsInsert path table bank s
  | .clsDelete path table bank => Sys2Proof.Machine.execClsDelete path table bank s
  | .clsRead path table => Sys2Proof.Machine.execClsRead path table s
  | .clsSetAction path table => Sys2Proof.Machine.execClsSetAction path table s
  | .clsSetEpoch path table => Sys2Proof.Machine.execClsSetEpoch path table s
  | .clsFlush path table => Sys2Proof.Machine.execClsFlush path table s
  | .ctEntryExpiry n => Sys2Proof.Machine.execCtEntryExpiry n s
  | .ctSweepDelete n => Sys2Proof.Machine.execCtSweepDelete n s
  | .epochCleanup => Sys2Proof.Machine.execEpochCleanup s
  | .fdbInsert path => Sys2Proof.Machine.execFdbInsert path s
  | .fdbDelete path => Sys2Proof.Machine.execFdbDelete path s
  | .fdbRead path => Sys2Proof.Machine.execFdbRead path s
  | .fdbFlush path => Sys2Proof.Machine.execFdbFlush path s
  | .fdbLearn path => Sys2Proof.Machine.execFdbLearn path s
  | .pendingFilterTimeout fid mac => Sys2Proof.Machine.execPendingFilterTimeout fid mac s
  | .fdbEntryExpiry n => Sys2Proof.Machine.execFdbEntryExpiry n s
  | .fdbSweepDelete n => Sys2Proof.Machine.execFdbSweepDelete n s
  | .fdbHoldElapse n => Sys2Proof.Machine.execFdbHoldElapse n s
  | .flapWindowEnd => Sys2Proof.Machine.execFlapWindowEnd s
  | .streamResetWrite path data => Sys2Proof.Machine.execStreamResetWrite path data s
  | .recoveryResetTimeout k => Sys2Proof.Machine.execRecoveryResetTimeout k s
  | .parityRepair tab copy n => Sys2Proof.Machine.execParityRepair tab copy n s
  | .skerryThreadTake k t => Sys2Proof.Machine.execSkerryThreadTake k t s
  | .skerryDescriptorDone k t v => Sys2Proof.Machine.execSkerryDescriptorDone k t v s
  | .skerryWatchdog k t => Sys2Proof.Machine.execSkerryWatchdog k t s
  | .stealProbe k => Sys2Proof.Machine.execStealProbe k s
  | .harbourRelease ctx => Sys2Proof.Machine.execHarbourRelease ctx s
  | .harbourHoldTimeout ctx => Sys2Proof.Machine.execHarbourHoldTimeout ctx s
  | .freshnessGen idx ord fail => Sys2Proof.Machine.execFreshnessGen idx ord s fail
  | .freshnessCommit idx v fail => Sys2Proof.Machine.execFreshnessCommit idx v s fail
  | .skerryStallTimeout k => Sys2Proof.Machine.execSkerryStallTimeout k s
  | .skerryFault k cause => Sys2Proof.Machine.execSkerryFault k cause s
  | .skerryRetire path k => Sys2Proof.Machine.execSkerryRetire path k s
  | .skerryRestore path k selfTest => Sys2Proof.Machine.execSkerryRestore path k selfTest s
  | .homeMapWrite path n data => Sys2Proof.Machine.execHomeMapWrite path n data s
  | .hostEnWrite path data => Sys2Proof.Machine.execHostEnWrite path data s
  | .queueLimitWrite path which q data => Sys2Proof.Machine.execQueueLimitWrite path which q data s
  | .hwmWrite path which p data => Sys2Proof.Machine.execHwmWrite path which p data s
  | .shaperRateWrite path q data => Sys2Proof.Machine.execShaperRateWrite path q data s
  | .shaperDepthWrite path q data => Sys2Proof.Machine.execShaperDepthWrite path q data s
  | .cbsSlopeWrite path q data => Sys2Proof.Machine.execCbsSlopeWrite path q data s
  | .starvationTimeout q => Sys2Proof.Machine.execStarvationTimeout q s
  | .meterParamWrite path m word data => Sys2Proof.Machine.execMeterParamWrite path m word data s
  | .streamGateCommit path g data => Sys2Proof.Machine.execStreamGateCommit path g data s
  | .streamGateEntryChange g => Sys2Proof.Machine.execStreamGateEntryChange g s
  | .domainCfgWrite path d data => Sys2Proof.Machine.execDomainCfgWrite path d data s
  | .domainFreqWrite path d data => Sys2Proof.Machine.execDomainFreqWrite path d data s
  | .domainSet path d ns => Sys2Proof.Machine.execDomainSet path d ns s
  | .domainStep path d lo => Sys2Proof.Machine.execDomainStep path d lo s
  | .domainSlewStart path d amount => Sys2Proof.Machine.execDomainSlewStart path d amount s
  | .slewRateWrite path d data => Sys2Proof.Machine.execSlewRateWrite path d data s
  | .slewEnd d => Sys2Proof.Machine.execSlewEnd d s
  | .timeSnapshot path => Sys2Proof.Machine.execTimeSnapshot path s
  | .txtsPop path p data => Sys2Proof.Machine.execTxtsPop path p data s
  | .tscEdge n rising ticks => Sys2Proof.Machine.execTscEdge n rising s ticks
  | .tscRecordClose n => Sys2Proof.Machine.execTscRecordClose n s
  | .tscStormWindowEnd n => Sys2Proof.Machine.execTscStormWindowEnd n s
  | .tscRearm path n data => Sys2Proof.Machine.execTscRearm path n data s
  | .tscPop path n data => Sys2Proof.Machine.execTscPop path n data s
  | .tscCfgWrite path n data => Sys2Proof.Machine.execTscCfgWrite path n data s
  | .ppsCommit path m data => Sys2Proof.Machine.execPpsCommit path m data s
  | .ppsEdge m => Sys2Proof.Machine.execPpsEdge m s
  | .ppsPulseEnd m => Sys2Proof.Machine.execPpsPulseEnd m s
  | .tideCommit path p data => Sys2Proof.Machine.execTideCommit path p data s
  | .tideCancel path p data => Sys2Proof.Machine.execTideCancel path p data s
  | .tideTakeover p => Sys2Proof.Machine.execTideTakeover p s
  | .tideBusyEnd p => Sys2Proof.Machine.execTideBusyEnd p s
  | .tideEntryChange p => Sys2Proof.Machine.execTideEntryChange p s
  | .preemptHold p => Sys2Proof.Machine.execPreemptHold p s
  | .verifyMpacketTimer p => Sys2Proof.Machine.execVerifyMpacketTimer p s
  | .verifyMpacketRx p => Sys2Proof.Machine.execVerifyMpacketRx p s
  | .respondMpacketRx p => Sys2Proof.Machine.execRespondMpacketRx p s
  | .rxContinuationFragment p frag => Sys2Proof.Machine.execRxContinuationFragment p frag s
  | .canFrameRx ch leg rtr full ago => Sys2Proof.Machine.execCanFrameRx ch leg rtr full ago s
  | .canError ch e tx step => Sys2Proof.Machine.execCanError ch e tx step s
  | .canBusoffDelayExpiry ch => Sys2Proof.Machine.execCanBusoffDelayExpiry ch s
  | .canRecover path ch data => Sys2Proof.Machine.execCanRecover path ch data s
  | .canRecoveryComplete ch => Sys2Proof.Machine.execCanRecoveryComplete ch s
  | .legacyTxOffer ch leg ord => Sys2Proof.Machine.execLegacyTxOffer ch leg ord s
  | .canTxComplete ch => Sys2Proof.Machine.execCanTxComplete ch s
  | .canArbLost ch => Sys2Proof.Machine.execCanArbLost ch s
  | .linTxOffer ch leg ord => Sys2Proof.Machine.execLinTxOffer ch leg ord s
  | .linSlotStart ch => Sys2Proof.Machine.execLinSlotStart ch s
  | .linHeaderRx ch pid => Sys2Proof.Machine.execLinHeaderRx ch pid s
  | .linResponseRx ch data sum e full ago => Sys2Proof.Machine.execLinResponseRx ch data sum e full ago s
  | .linSchedSwitch path ch data => Sys2Proof.Machine.execLinSchedSwitch path ch data s
  | .linBusIdle ch => Sys2Proof.Machine.execLinBusIdle ch s
  | .linWakeupSignal ch => Sys2Proof.Machine.execLinWakeupSignal ch s
  | .lpfWakeupFrame ch ide ident dlc data => Sys2Proof.Machine.execLpfWakeupFrame ch ide ident dlc data s
  | .lpfWakeupPattern ch => Sys2Proof.Machine.execLpfWakeupPattern ch s
  | .lpfFecOverflow ch => Sys2Proof.Machine.execLpfFecOverflow ch s
  | .plcaBeaconLoss k => Sys2Proof.Machine.execPlcaBeaconLoss k s
  | .plcaBeaconRx k => Sys2Proof.Machine.execPlcaBeaconRx k s
  | .encAnWrite path p data => Sys2Proof.Machine.execEncAnWrite path p data s
  | .deriveMka path slot => Sys2Proof.Machine.execDeriveMka path slot s
  | .mkpduIcv path slot => Sys2Proof.Machine.execMkpduIcv path slot s
  | .unwrapSak path slot rx sa => Sys2Proof.Machine.execUnwrapSak path slot rx sa s
  | .genSak path slot rx sa => Sys2Proof.Machine.execGenSak path slot rx sa s
  | .clearSa path rx sa => Sys2Proof.Machine.execClearSa path rx sa s
  | .jobInit path slot c => Sys2Proof.Machine.execJobInit path slot c s
  | .jobUpdate path slot c => Sys2Proof.Machine.execJobUpdate path slot c s
  | .jobFinal path slot c => Sys2Proof.Machine.execJobFinal path slot c s
  | .jobSaveWrap path slot c => Sys2Proof.Machine.execJobSaveWrap path slot c s
  | .jobRestoreWrap path slot c => Sys2Proof.Machine.execJobRestoreWrap path slot c s
  | .jobEcdsaVerify path => Sys2Proof.Machine.execJobEcdsaVerify path s
  | .jobRandom path => Sys2Proof.Machine.execJobRandom path s
  | .trngHealthFail => Sys2Proof.Machine.execTrngHealthFail s
  | .trngHealthRecover => Sys2Proof.Machine.execTrngHealthRecover s
  | .keyUpdate path data stores => Sys2Proof.Machine.execKeyUpdate path data stores s
  | .keyLcChange path data cut => Sys2Proof.Machine.execKeyLcChange path data cut s
  | .keyAttest path data stored => Sys2Proof.Machine.execKeyAttest path data stored s
  | .debugChal path data => Sys2Proof.Machine.execDebugChal path data s
  | .debugUnlock path data => Sys2Proof.Machine.execDebugUnlock path data s
  | .refereeMismatch lanes => Sys2Proof.Machine.execRefereeMismatch lanes s
  | .refereeFault parity lane => Sys2Proof.Machine.execRefereeFault parity lane s
  | .safeCfgWrite path data => Sys2Proof.Machine.execSafeCfgWrite path data s
  | .lsSplit path => Sys2Proof.Machine.execLsSplit path s
  | .checkerAccessDenied access => Sys2Proof.Machine.execCheckerAccessDenied access s
  | .lsRepair path checker laneFail => Sys2Proof.Machine.execLsRepair path checker laneFail s
  | .lsSplitTimeout laneFail => Sys2Proof.Machine.execLsSplitTimeout laneFail s
  | .hbKick path data => Sys2Proof.Machine.execHbKick path data s
  | .hbKickTimeout => Sys2Proof.Machine.execHbKickTimeout s
  | .hbLoss => Sys2Proof.Machine.execHbLoss s
  | .redlinkBEdge => Sys2Proof.Machine.execRedlinkBEdge s
  | .pairStatusSend => Sys2Proof.Machine.execPairStatusSend s
  | .pairStatusRx st => Sys2Proof.Machine.execPairStatusRx st s
  | .pairEchoRx stream seq port bytes => Sys2Proof.Machine.execPairEchoRx stream seq port bytes s
  | .pairFreshRx idx fv => Sys2Proof.Machine.execPairFreshRx idx fv s
  | .discoverTimeout => Sys2Proof.Machine.execDiscoverTimeout s
  | .takeoverConfirmTimeout => Sys2Proof.Machine.execTakeoverConfirmTimeout s
  | .reboundTimerExpiry => Sys2Proof.Machine.execReboundTimerExpiry s
  | .reboundReqRx => Sys2Proof.Machine.execReboundReqRx s
  | .handoverRx => Sys2Proof.Machine.execHandoverRx s
  | .scrubPassStart lastMs => Sys2Proof.Machine.execScrubPassStart lastMs s
  | .scrubRead mem inst addr upset => Sys2Proof.Machine.execScrubRead mem inst addr upset s
  | .partialWrite mem inst addr bytes => Sys2Proof.Machine.execPartialWrite mem inst addr bytes s
  | .mergeIdleFlush mem => Sys2Proof.Machine.execMergeIdleFlush mem s
  | .cellAudit => Sys2Proof.Machine.execCellAudit s
  | .flipArm path data => Sys2Proof.Machine.execFlipArm path data s
  | .flipCancel path data => Sys2Proof.Machine.execFlipCancel path data s
  | .wakeInEdge n level => Sys2Proof.Machine.execWakeInEdge n level s
  | .sleepTimerExpiry => Sys2Proof.Machine.execSleepTimerExpiry s
  | .tc10WupDetect p => Sys2Proof.Machine.execTc10WupDetect p s
  | .tc10WurRx p => Sys2Proof.Machine.execTc10WurRx p s
  | .ringRoundStart idle writing => Sys2Proof.Machine.execRingRoundStart idle writing s
  | .ringReturnRx member round verdict => Sys2Proof.Machine.execRingReturnRx member round verdict s
  | .ringReplyTimeout => Sys2Proof.Machine.execRingReplyTimeout s
  | .pwrCommit path data => Sys2Proof.Machine.execPwrCommit path data s
  | .commitHoldEnd => Sys2Proof.Machine.execCommitHoldEnd s
  | .lpsAckRx p => Sys2Proof.Machine.execLpsAckRx p s
  | .lpsTimeout p => Sys2Proof.Machine.execLpsTimeout p s
  | .lpsRx p => Sys2Proof.Machine.execLpsRx p s
  | .wakeOutWrite path data => Sys2Proof.Machine.execWakeOutWrite path data s
  | .wakeOutPulseEnd => Sys2Proof.Machine.execWakeOutPulseEnd s
  | .cfgRestartRestart path data => Sys2Proof.Machine.execCfgRestartRestart path data s
  | .cfgRestartRetry path data => Sys2Proof.Machine.execCfgRestartRetry path data s
  | .shadowLoad path data => Sys2Proof.Machine.execShadowLoad path data s
  | .shadowLoadComplete => Sys2Proof.Machine.execShadowLoadComplete s
  | .shadowDiscard path data => Sys2Proof.Machine.execShadowDiscard path data s
  | .swap path data => Sys2Proof.Machine.execSwap path data s
  | .swapConfirm path data => Sys2Proof.Machine.execSwapConfirm path data s
  | .csetConfirmTimeout => Sys2Proof.Machine.execCsetConfirmTimeout s
  | .nvsStore path data res => Sys2Proof.Machine.execNvsStore path data res s
  | .updOpen path data => Sys2Proof.Machine.execUpdOpen path data s
  | .updChunk path data good => Sys2Proof.Machine.execUpdChunk path data good s
  | .updVerifyComplete => Sys2Proof.Machine.execUpdVerifyComplete s
  | .updAbort path data => Sys2Proof.Machine.execUpdAbort path data s
  | .updArm path data => Sys2Proof.Machine.execUpdArm path data s
  | .updConfirm path data => Sys2Proof.Machine.execUpdConfirm path data s
  | .updIdleStore => Sys2Proof.Machine.execUpdIdleStore s
  | .fwimTrialTimeout => Sys2Proof.Machine.execFwimTrialTimeout s
  | .pcieMwr t stall => Sys2Proof.Machine.execPcieMwr t s stall
  | .pcieMrd t => Sys2Proof.Machine.execPcieMrd t s
  | .pcieUnsupported kind => Sys2Proof.Machine.execPcieUnsupported kind s
  | .pcieLinkChange up width speed l2 => Sys2Proof.Machine.execPcieLinkChange up width speed s l2
  | .spiWriteFrame bytes far stall => Sys2Proof.Machine.execSpiWriteFrame bytes far stall s
  | .spiReadFrame bytes far => Sys2Proof.Machine.execSpiReadFrame bytes far s
  | .spiStatusFrame complete => Sys2Proof.Machine.execSpiStatusFrame complete s
  | .aspiWindowWrite path w off data be reqId tag sts => Sys2Proof.Machine.execAspiWindowWrite path w off data be reqId tag sts s
  | .aspiWindowRead path w off words => Sys2Proof.Machine.execAspiWindowRead path w off words s
  | .prefetchTimeout path w => Sys2Proof.Machine.execPrefetchTimeout path w s
  | .pwFenceClear path data => Sys2Proof.Machine.execPwFenceClear path data s
  | .perstAssert => Sys2Proof.Machine.execPerstAssert s
  | .perstRelease => Sys2Proof.Machine.execPerstRelease s
  | .txRingTailWrite path r data => Sys2Proof.Machine.execTxRingTailWrite path r data s
  | .dmaTxFetchDone r ndesc tsReq bytes poisoned => Sys2Proof.Machine.execDmaTxFetchDone r ndesc tsReq bytes poisoned s
  | .rxRingTailWrite path r data => Sys2Proof.Machine.execRxRingTailWrite path r data s
  | .dmaError rx r writable => Sys2Proof.Machine.execDmaError rx r writable s
  | .sidebandChange ball level => Sys2Proof.Machine.execSidebandChange ball level s
  | .mqCfgWrite path k data => Sys2Proof.Machine.execMqCfgWrite path k data s
  | .mqPop path k => Sys2Proof.Machine.execMqPop path k s
  | .mqMark path k => Sys2Proof.Machine.execMqMark path k s
  | .mqRewind path k => Sys2Proof.Machine.execMqRewind path k s
  | .mqRelease path k n => Sys2Proof.Machine.execMqRelease path k n s
  | .mqReset path k => Sys2Proof.Machine.execMqReset path k s
  | .evtRaise path src => Sys2Proof.Machine.execEvtRaise path src s
  | .evtRouteWrite path src data => Sys2Proof.Machine.execEvtRouteWrite path src data s
  | .msixHoldoffEnd v => Sys2Proof.Machine.execMsixHoldoffEnd v s
  | .msixUnmask v => Sys2Proof.Machine.execMsixUnmask v s
  | .mdioAccess path data answer => Sys2Proof.Machine.execMdioAccess path data answer s
  | .phyMirrorWrite path p page r data what => Sys2Proof.Machine.execPhyMirrorWrite path p page r data what s
  | .portCfgWrite path p data => Sys2Proof.Machine.execPortCfgWrite path p data s
  | .vddAonValid => Sys2Proof.Machine.execVddAonValid s
  | .phyPllLock p => Sys2Proof.Machine.execPhyPllLock p s
  | .streamGateTakeover g => Sys2Proof.Machine.execStreamGateTakeover g s
  | .jtagAccess op testEn => Sys2Proof.Machine.execJtagAccess op s testEn
  | .controlPortFrameIn tsReq bytes => Sys2Proof.Machine.execControlPortFrameIn tsReq bytes s
  | .canIntegrationComplete ch => Sys2Proof.Machine.execCanIntegrationComplete ch s
  | .lpfFrameEnd ch good ignored => Sys2Proof.Machine.execLpfFrameEnd ch good ignored s

end Sys2Proof.Machine
end

