-- ==== Sys2Proof/WellFormed.lean ====
section
/-! DEFINITION. Which commands the outside can send: what the spec says of the form of a command, and not of the state it meets. No
meaning asks for it: `exec` is total. -/

namespace Sys2Proof

open Sys2Proof.Machine

/-- A frame of a CAN channel (R73, R245): an 11-bit or a 29-bit identifier, and the data length of its format. A CAN XL frame carries
an 11-bit priority identifier, an 8-bit VCID and SDU type, and a 32-bit acceptance field. -/
def canFrameWf (l : LegRec) : Bool :=
  decide (l.ident < if l.ide then 2 ^ 29 else 2 ^ 11) && decide (l.vcid < 256) && decide (l.sdt < 256) && decide (l.acc < 2 ^ 32) &&
  match l.fmt with
  | 0 => decide (l.data.length ≤ 8)
  | 1 => decide (l.data.length ≤ 64)
  | 2 => !l.ide && decide (1 ≤ l.data.length) && decide (l.data.length ≤ 2048)
  | _ => false

/-- A frame of a LIN channel (R257): an identifier of 6 bits, and 1 to 8 data bytes. -/
def linFrameWf (l : LegRec) : Bool := decide (l.ident < 64) && decide (1 ≤ l.data.length) && decide (l.data.length ≤ 8)

/-- Lookup starts at the 128th byte, of which the command brings the last ones, or at the last byte with the tail of the frame (R34). -/
def lookupWf (bytes : List Byte) (tail : Option RxTail) : Bool :=
  match tail with
  | none => decide (1 ≤ bytes.length) && decide (bytes.length ≤ 128)
  | some _ => decide (bytes.length ≤ 128)

/-- A STATUS payload (R346): a UID of 16 bytes, an epoch of 4 bytes, a digest of 32 bytes. -/
def pairStatusWf (t : PairStatus) : Bool := t.uid.length == 16 && decide (t.epoch < 2 ^ 32) && t.digest.length == 32

/-- A continuation mPacket carries at least one byte (R241). -/
def rxFragWf : RxFrag → Bool
  | .first _ => true
  | .cont _ bytes _ => decide (1 ≤ bytes.length)
  | .unknownSmd => true
  | .firstBad => true

/-- An EMIT verdict has at least one frame (R137). -/
def verdictWf : SkyVerdict → Bool
  | .emit outs => decide (1 ≤ outs.length) && outs.all fun o => o.leg.isNone || o.xlt.isSome
  | .pass _ => true
  | .drop _ _ => true
  | .trap => true
  | .translate _ _ => true
  | .poison => true

/-- A register access by JTAG is to a dword. -/
def jtagWf : JtagOp → Bool
  | .regRead off => off.toNat % 4 == 0
  | .regWrite off _ => off.toNat % 4 == 0
  | .idcode => true
  | .bypass => true
  | .samplePreload => true
  | .extest => true
  | .coreDebug => true
  | .factoryTest => true

/-- A command is one that the outside can send. -/
def Instr.wf (i : Instr) : Bool :=
  match i with
  | .suppliesValid _ _ => true
  | .rstNAssert => true
  | .rstNRelease => true
  | .suppliesLost _ => true
  | .rootPllLock _ => true
  | .rootPllLossOfLock => true
  | .phyPllLossOfLock _ _ => true
  | .retentionSupplyFault _ => true
  | .bootAttemptStart => true
  | .flashReadTimeout => true
  | .bootAttemptTimeout => true
  | .fwimLoadComplete => true
  | .csetLoadComplete => true
  | .fastStartConfigReady => true
  | .stableTimerExpiry => true
  | .registerWrite _ off _ => off.toNat % 4 == 0
  | .lowWordReadCapture _ off => off.toNat % 4 == 0
  | .highWordStageWrite _ off _ => off.toNat % 4 == 0
  | .lowWordCommitWrite _ off _ => off.toNat % 4 == 0
  | .ptpValueCommit _ off _ => off.toNat % 4 == 0
  | .rxFrameStart _ _ _ => true
  | .rxLookupStart _ _ bytes tail _ => lookupWf bytes tail
  | .rxOversizeDetected _ _ rest => decide (0 < rest.length)
  | .rxFrameEnd _ _ _ _ => true
  | .macsecIcvCheckDone p _ _ => secyPort p
  | .bufferWriteComplete _ => true
  | .txOpportunity _ _ _ => true
  | .txCopyEnd _ _ _ _ => true
  | .fragmentEnd _ _ _ _ => true
  | .linkUp _ _ _ _ => true
  | .linkDown _ _ => true
  | .fenceLimitExpiry _ => true
  | .clsInsert _ _ _ => true
  | .clsDelete _ _ _ => true
  | .clsRead _ _ => true
  | .clsSetAction _ _ => true
  | .clsSetEpoch _ _ => true
  | .clsFlush _ _ => true
  | .ctEntryExpiry _ => true
  | .ctSweepDelete _ => true
  | .epochCleanup => true
  | .fdbInsert _ => true
  | .fdbDelete _ => true
  | .fdbRead _ => true
  | .fdbFlush _ => true
  | .fdbLearn _ => true
  | .pendingFilterTimeout _ _ => true
  | .fdbEntryExpiry _ => true
  | .fdbSweepDelete _ => true
  | .fdbHoldElapse _ => true
  | .flapWindowEnd => true
  | .streamResetWrite _ _ => true
  | .recoveryResetTimeout _ => true
  | .parityRepair _ _ _ => true
  | .skerryThreadTake _ _ => true
  | .skerryDescriptorDone _ _ v => verdictWf v
  | .skerryWatchdog _ _ => true
  | .stealProbe _ => true
  | .harbourRelease _ => true
  | .harbourHoldTimeout _ => true
  | .freshnessGen _ _ _ => true
  | .freshnessCommit _ _ _ => true
  | .skerryStallTimeout _ => true
  | .skerryFault _ _ => true
  | .skerryRetire _ _ => true
  | .skerryRestore _ _ _ => true
  | .homeMapWrite _ _ _ => true
  | .hostEnWrite _ _ => true
  | .queueLimitWrite _ _ _ _ => true
  | .hwmWrite _ _ _ _ => true
  | .shaperRateWrite _ _ _ => true
  | .shaperDepthWrite _ _ _ => true
  | .cbsSlopeWrite _ _ _ => true
  | .starvationTimeout _ => true
  | .meterParamWrite _ _ _ _ => true
  | .streamGateCommit _ _ _ => true
  | .streamGateEntryChange _ => true
  | .domainCfgWrite _ _ _ => true
  | .domainFreqWrite _ _ _ => true
  | .domainSet _ _ _ => true
  | .domainStep _ _ _ => true
  | .domainSlewStart _ _ _ => true
  | .slewRateWrite _ _ _ => true
  | .slewEnd _ => true
  | .timeSnapshot _ => true
  | .txtsPop _ _ _ => true
  | .tscEdge _ _ _ => true
  | .tscRecordClose _ => true
  | .tscStormWindowEnd _ => true
  | .tscRearm _ _ _ => true
  | .tscPop _ _ _ => true
  | .tscCfgWrite _ _ _ => true
  | .ppsCommit _ _ _ => true
  | .ppsEdge _ => true
  | .ppsPulseEnd _ => true
  | .tideCommit _ _ _ => true
  | .tideCancel _ _ _ => true
  | .tideTakeover _ => true
  | .tideBusyEnd _ => true
  | .tideEntryChange _ => true
  | .preemptHold _ => true
  | .verifyMpacketTimer _ => true
  | .verifyMpacketRx _ => true
  | .respondMpacketRx _ => true
  | .rxContinuationFragment _ frag => rxFragWf frag
  | .canFrameRx _ leg _ _ _ => canFrameWf leg
  | .canError _ _ _ _ => true
  | .canBusoffDelayExpiry _ => true
  | .canRecover _ _ _ => true
  | .canRecoveryComplete _ => true
  | .legacyTxOffer _ leg _ => canFrameWf leg
  | .canTxComplete _ => true
  | .canArbLost _ => true
  | .linTxOffer _ leg _ => linFrameWf leg
  | .linSlotStart _ => true
  | .linHeaderRx _ _ => true
  | .linResponseRx _ data _ _ _ _ => decide (data.length ≤ 8)
  | .linSchedSwitch _ _ _ => true
  | .linBusIdle _ => true
  | .linWakeupSignal _ => true
  | .lpfWakeupFrame _ ide ident _ data => decide (data.length ≤ 8) && (ide || decide (ident.toNat < 2048))
  | .lpfWakeupPattern _ => true
  | .lpfFecOverflow _ => true
  | .plcaBeaconLoss _ => true
  | .plcaBeaconRx _ => true
  | .encAnWrite _ _ _ => true
  | .deriveMka _ _ => true
  | .mkpduIcv _ _ => true
  | .unwrapSak _ _ _ _ => true
  | .genSak _ _ _ _ => true
  | .clearSa _ _ _ => true
  | .jobInit _ _ _ => true
  | .jobUpdate _ _ _ => true
  | .jobFinal _ _ _ => true
  | .jobSaveWrap _ _ _ => true
  | .jobRestoreWrap _ _ _ => true
  | .jobEcdsaVerify _ => true
  | .jobRandom _ => true
  | .trngHealthFail => true
  | .trngHealthRecover => true
  | .keyUpdate _ _ _ => true
  | .keyLcChange _ _ _ => true
  | .keyAttest _ _ _ => true
  | .debugChal _ _ => true
  | .debugUnlock _ _ => true
  | .refereeMismatch lanes => lanes != 0
  | .refereeFault _ _ => true
  | .safeCfgWrite _ _ => true
  | .lsSplit _ => true
  | .checkerAccessDenied _ => true
  | .lsRepair _ _ _ => true
  | .lsSplitTimeout _ => true
  | .hbKick _ _ => true
  | .hbKickTimeout => true
  | .hbLoss => true
  | .redlinkBEdge => true
  | .pairStatusSend => true
  | .pairStatusRx st => pairStatusWf st
  | .pairEchoRx _ _ _ _ => true
  | .pairFreshRx _ _ => true
  | .discoverTimeout => true
  | .takeoverConfirmTimeout => true
  | .reboundTimerExpiry => true
  | .reboundReqRx => true
  | .handoverRx => true
  | .scrubPassStart _ => true
  | .scrubRead _ _ _ _ => true
  | .partialWrite _ _ _ bytes => bytes.length == 8
  | .mergeIdleFlush _ => true
  | .cellAudit => true
  | .flipArm _ _ => true
  | .flipCancel _ _ => true
  | .wakeInEdge _ _ => true
  | .sleepTimerExpiry => true
  | .tc10WupDetect _ => true
  | .tc10WurRx _ => true
  | .ringRoundStart _ _ => true
  | .ringReturnRx _ _ _ => true
  | .ringReplyTimeout => true
  | .pwrCommit _ _ => true
  | .commitHoldEnd => true
  | .lpsAckRx _ => true
  | .lpsTimeout _ => true
  | .lpsRx _ => true
  | .wakeOutWrite _ _ => true
  | .wakeOutPulseEnd => true
  | .cfgRestartRestart _ _ => true
  | .cfgRestartRetry _ _ => true
  | .shadowLoad _ _ => true
  | .shadowLoadComplete => true
  | .shadowDiscard _ _ => true
  | .swap _ _ => true
  | .swapConfirm _ _ => true
  | .csetConfirmTimeout => true
  | .nvsStore _ _ _ => true
  | .updOpen _ _ => true
  | .updChunk _ _ _ => true
  | .updVerifyComplete => true
  | .updAbort _ _ => true
  | .updArm _ _ => true
  | .updConfirm _ _ => true
  | .updIdleStore => true
  | .fwimTrialTimeout => true
  | .pcieMwr t _ => t.addr.toNat % 4 == 0 && decide (1 ≤ t.data.length) && decide (t.data.length ≤ 1024)
  | .pcieMrd t => t.addr.toNat % 4 == 0 && decide (1 ≤ t.bes.length) && decide (t.bes.length ≤ 1024)
  | .pcieUnsupported _ => true
  | .pcieLinkChange _ _ _ _ => true
  | .spiWriteFrame _ _ _ => true
  | .spiReadFrame _ _ => true
  | .spiStatusFrame _ => true
  | .aspiWindowWrite _ _ off _ _ _ _ _ => off.toNat % 4 == 0
  | .aspiWindowRead _ _ off _ => off.toNat % 4 == 0
  | .prefetchTimeout _ _ => true
  | .pwFenceClear _ _ => true
  | .perstAssert => true
  | .perstRelease => true
  | .txRingTailWrite _ _ _ => true
  | .dmaTxFetchDone _ ndesc _ _ _ => decide (1 ≤ ndesc.toNat)
  | .rxRingTailWrite _ _ _ => true
  | .dmaError _ _ _ => true
  | .sidebandChange _ _ => true
  | .mqCfgWrite _ _ _ => true
  | .mqPop _ _ => true
  | .mqMark _ _ => true
  | .mqRewind _ _ => true
  | .mqRelease _ _ _ => true
  | .mqReset _ _ => true
  | .evtRaise _ _ => true
  | .evtRouteWrite _ _ _ => true
  | .msixHoldoffEnd _ => true
  | .msixUnmask _ => true
  | .mdioAccess _ _ _ => true
  | .phyMirrorWrite _ _ _ _ _ _ => true
  | .portCfgWrite _ _ _ => true
  | .vddAonValid => true
  | .phyPllLock _ => true
  | .streamGateTakeover _ => true
  | .jtagAccess op _ => jtagWf op
  | .controlPortFrameIn _ _ => true
  | .canIntegrationComplete _ => true
  | .lpfFrameEnd _ _ _ => true

end Sys2Proof
end

