-- ==== Sys2Proof/Safety.lean ====
section
/-! DEFINITION. What counts as a safe state and a safe run, and the words that statements about commands use: which sender is served, and
which parts of the state a command leaves alone. -/

namespace Sys2Proof.Machine

open Sys2Proof

/-- The sparse tables of registers, counters, captured and staged words, windows and flash are canonical: keys strictly rising, so
that each register, counter and byte has one home, and no counter listed that is zero. -/
def State.canon (s : State) : Bool :=
  tblWf s.regs && tblWf s.ctrs && s.ctrs.all (fun e => e.2 != 0) && tblWf s.hold && tblWf s.stage && tblWf s.win && tblWf s.flash

/-- The machine goes on: its next step ends in a state. -/
def State.goesOn (s : State) : Prop := ∃ t, step s = .next t

/-- A request of a path for an offset is served: the register map is up, the path reaches the offset in the present state (R425), and
the cores run when they are its sender (R333, R335), and no earlier posted write of the path waits (R424). -/
def State.serves (s : State) (p : Path) (off : Nat) : Bool :=
  s.mapUp && !(p == .fw && s.coresOff) && s.reaches p off && (s.postQ p).isEmpty

/-- An instance of a register is served on a path. -/
def State.servesReg (s : State) (p : Path) (r : Reg) (i : Nat) : Bool := s.serves p (r.addr i)

/-- The parts of the state. -/
inductive Part where
  | phys | op | regs | ctrs | hold | stage | tim | hbr | mqs | mem | pwr | boot | mram | flash | win | pair | red | net | keys
  deriving DecidableEq, Repr

/-- A part is the same in two states. -/
def Part.same (s t : State) : Part → Prop
  | .phys => t.phys = s.phys
  | .op => t.op = s.op ∧ t.prevOp = s.prevOp ∧ t.cause = s.cause ∧ t.leftOp = s.leftOp
  | .regs => t.regs = s.regs
  | .ctrs => t.ctrs = s.ctrs
  | .hold => t.hold = s.hold
  | .stage => t.stage = s.stage
  | .tim => t.tim = s.tim
  | .hbr => t.hbr = s.hbr
  | .mqs => t.mqs = s.mqs
  | .mem => t.mem = s.mem
  | .pwr => t.pwr = s.pwr
  | .boot => t.boot = s.boot
  | .mram => t.mram = s.mram
  | .flash => t.flash = s.flash
  | .win => t.win = s.win
  | .pair => t.pair = s.pair
  | .red => t.red = s.red
  | .net => t.net = s.net
  | .keys => t.keys = s.keys

/-- Every part in a list is the same. -/
def keeps (ps : List Part) (s t : State) : Prop := ∀ p ∈ ps, p.same s t

/-- Every register outside a list is the same. -/
def regsBut (l : List Reg) (s t : State) : Prop := ∀ r i, r ∉ l → t.rd r i = s.rd r i

/-- Every counter outside a list is the same. -/
def ctrsBut (l : List Ctr) (s t : State) : Prop := ∀ c i, c ∉ l → t.ctr c i = s.ctr c i

/-- The registers that a rising source can change (R335, R444, R451, R452): its status bit, the fault record, the side-band balls with
their seen bits, and, when its log entry meets an armed flip mask, the arm bit (R371). -/
def eventRegs : List Reg := [.evtStat, .glbFaultRec, .glbFaultTime, .hbrSideband, .hbrSidebandSeen, .memFlipCtrl]

/-- The counters that a rising source can change (R335, R371, R447). -/
def eventCtrs : List Ctr := [.glbFaults, .mqLost, .mqMarkLost, .mqPosted, .mqRefused, .memFlipApplied]

end Sys2Proof.Machine
end

