-- ==== Sys2Proof/Certificates/Slice0/Obligations.lean ====
section
/-! DEFINITION. The statements about the model: what each family of commands does, the rules that hold of the whole machine, and the
invariants that every step keeps. -/

open Sys2Proof Sys2Proof.Machine

/-! ## Register accesses, the host bridge and JTAG (chapters 00, 11, 16, 17) -/

/-- The next step takes the command at the front of the queue, and runs it on the state with the rest of the queue. -/
def Obligations.StepRunsFrontCommand : Prop :=
  ∀ (c : Instr) (rest : List Instr) (s : State), s.pending = c :: rest → step s = exec c { s with pending := rest }

/-- With no command waiting, one step is one tick of 1.25 ns (the model's choice, assumption 3), and it answers a next state. Time advances by
a tick and nothing joins the queue, while no frame waits in the write buffer of the SPI port or a receive FIFO of a legacy channel and no
set or step of a domain is due, nor a posted write of PCIe: LT advances by a tick, but in RUN a poisoned schedule of a program may restart the
device instead (assumption 92). With the fabric clock stopped, the time since power-up alone advances. -/
def Obligations.IdleStepIsOneTick : Prop :=
  ∀ s : State, s.pending = [] → step s = .next s.tick ∧
    (s.fabricOn = true → s.hbr.spiQ = [] → s.hbr.pcieQ = [] → s.net.legRx = [] → s.tim.jumps = [] →
      s.tick.now = s.now + 1 ∧ s.tick.pending = [] ∧
      (s.tick.tim.lt = s.tim.lt + 1 ∨ (s.op = .run ∧ s.tick.op = .boot)) ∧
      (s.op ≠ .run → s.tick.tim.lt = s.tim.lt + 1)) ∧
    (s.fabricOn = false → s.tick = { s with now := s.now + 1 })

/-- A register write of EVT_VEC_CFGv on any path that is served sets its RW field and leaves its reserved bits zero (R8, R10); no other
register and no counter changes. -/
def Obligations.PlainRegisterWriteSetsItsField : Prop :=
  ∀ (s : State) (p : Path) (v : Fin 32) (data : Word), s.servesReg p .evtVecCfg v = true →
    ∃ t, exec (.registerWrite p (BitVec.ofNat 24 (Reg.evtVecCfg.addr v)) data) s = .next t ∧
      t.rd .evtVecCfg v = putBits (s.rd .evtVecCfg v) 15 0 data.toNat ∧
      (∀ r i, ¬(r = .evtVecCfg ∧ i = v.val) → t.rd r i = s.rd r i) ∧ (t.pathSt p).seq = ((s.pathSt p).seq + 1) % 4294967296 ∧
      keeps [.phys, .op, .ctrs, .hold, .stage, .tim, .mqs, .mem, .pwr, .boot, .mram, .flash, .win, .pair, .red, .net, .keys] s t

/-- A read of the low word of TIM_LT returns it and captures the high word for the path; a read of the high word then returns the
captured one once, and the live one where none is captured; a high-word write of a ring base is staged for the path and committed by the write
of the low word (R13, R14).
A PTP-format write of word 0 of TGA_ADMIN_BASE with nanoseconds in range commits it with the staged words, seconds cut to 48
bits, when no schedule waits for its takeover and none is being copied back (R16, R17, R226). -/
def Obligations.MultiWordValues : Prop :=
  (∀ (s : State) (p : Path),
    (s.servesReg p .timLt 0 = true →
      ∃ t, exec (.lowWordReadCapture p (BitVec.ofNat 24 (Reg.timLt.addr 0))) s = .next t ∧
        t.out = .regRead p (Reg.timLt.addr 0) (word64 s.ltNs 0) :: s.out ∧
        tblFind t.hold (pairKey p (Reg.timLt.addr 0 + 4)) = some (word64 s.ltNs 1) ∧ t.regs = s.regs ∧
        ∀ q, q ≠ p → tblFind t.hold (pairKey q (Reg.timLt.addr 0 + 4)) = tblFind s.hold (pairKey q (Reg.timLt.addr 0 + 4))) ∧
    (s.servesReg p .timLt 1 = true →
      (∀ v : Word, tblFind s.hold (pairKey p (Reg.timLt.addr 1)) = some v →
        exec (.lowWordReadCapture p (BitVec.ofNat 24 (Reg.timLt.addr 1))) s
          = .next { s with hold := tblDel s.hold (pairKey p (Reg.timLt.addr 1)), out := .regRead p (Reg.timLt.addr 1) v :: s.out }) ∧
      (tblFind s.hold (pairKey p (Reg.timLt.addr 1)) = none →
        exec (.lowWordReadCapture p (BitVec.ofNat 24 (Reg.timLt.addr 1))) s
          = .next { s with out := .regRead p (Reg.timLt.addr 1) (word64 s.ltNs 1) :: s.out })) ∧
    (∀ (r : Fin 8) (data : Word), s.servesReg p .hbrTxRingBase (2 * r + 1) = true →
      ∃ t, exec (.highWordStageWrite p (BitVec.ofNat 24 (Reg.hbrTxRingBase.addr (2 * r + 1))) data) s = .next t ∧
        tblFind t.stage (pairKey p (Reg.hbrTxRingBase.addr (2 * r + 1))) = some data ∧ t.regs = s.regs) ∧
    (∀ (r : Fin 8) (lo hi : Word), s.servesReg p .hbrTxRingBase (2 * r) = true → s.on F.hbrTxRingCfg_en r = false →
        tblFind s.stage (pairKey p (Reg.hbrTxRingBase.addr (2 * r) + 4)) = some hi →
      ∃ t, exec (.lowWordCommitWrite p (BitVec.ofNat 24 (Reg.hbrTxRingBase.addr (2 * r))) lo) s = .next t ∧
        t.rd .hbrTxRingBase (2 * r + 1) = hi ∧ t.rd .hbrTxRingBase (2 * r) = putBits lo 3 0 0 ∧
        tblFind t.stage (pairKey p (Reg.hbrTxRingBase.addr (2 * r) + 4)) = none)) ∧
  (∀ (s : State) (path : Path) (p : Fin 16) (ns w1 w2 : Word), s.servesReg path .tgaAdminBase (3 * p) = true →
    ns.toNat < 1000000000 → (s.tide p).pend = none → (s.tide p).busy = none →
    tblFind s.stage (pairKey path (Reg.tgaAdminBase.addr (3 * p) + 4)) = some w1 →
    tblFind s.stage (pairKey path (Reg.tgaAdminBase.addr (3 * p) + 8)) = some w2 →
    ∃ t, exec (.ptpValueCommit path (BitVec.ofNat 24 (Reg.tgaAdminBase.addr (3 * p))) ns) s = .next t ∧
      t.rd .tgaAdminBase (3 * p) = ns ∧ t.rd .tgaAdminBase (3 * p + 1) = w1 ∧
      t.rd .tgaAdminBase (3 * p + 2) = BitVec.ofNat 32 (w2.toNat % 65536))

/-- A PCIe write of one full dword takes effect like a register write; one with EP set fails with cause POISON, is counted, and changes
nothing in the register that it names (R428, R432, R433). A write may wait in the queue of posted writes, and a full queue takes no more
(R424).
A PCIe read of one dword of a live register is completed with the bytes that its byte enables select; one longer than 64 bytes is
completed with Completer Abort and counted; unsupported reads are answered with Unsupported Request and counted, unsupported requests of
other kinds are answered so and not counted, but a write outside the windows has no answer (R428). A configuration read
of the first dword gives the vendor and the device (R426). While the link is down nothing is answered (R477). -/
def Obligations.PcieRequestsTakeEffectOrFail : Prop :=
  (∀ (s : State) (v : Fin 32) (data : Word) (reqId : BitVec 16) (tag : BitVec 8), s.pcieUp = true → s.reaches .pcie (Reg.evtVecCfg.addr v) = true →
    s.hbr.pcieQ = [] →
    (∃ t, exec (.pcieMwr ⟨false, BitVec.ofNat 24 (Reg.evtVecCfg.addr v), [(data, 15)], false, reqId, tag, []⟩) s = .next t ∧
      t.rd .evtVecCfg v = putBits (s.rd .evtVecCfg v) 15 0 data.toNat ∧ (t.pathSt .pcie).seq = ((s.pathSt .pcie).seq + 1) % 4294967296) ∧
    (∃ t, exec (.pcieMwr ⟨false, BitVec.ofNat 24 (Reg.evtVecCfg.addr v), [(data, 15)], true, reqId, tag, []⟩) s = .next t ∧
      t.rd .evtVecCfg v = s.rd .evtVecCfg v ∧ t.ctr .hbrPwFail 0 = s.ctr .hbrPwFail 0 + 1 ∧
      (t.pathSt .pcie).seq = ((s.pathSt .pcie).seq + 1) % 4294967296) ∧
    (∃ t, exec (.pcieMwr ⟨false, BitVec.ofNat 24 (Reg.evtVecCfg.addr v), [(data, 15)], false, reqId, tag, []⟩ true) s = .next t ∧
      t.hbr.pcieQ.length = 1 ∧ (t.pathSt .pcie).seq = ((s.pathSt .pcie).seq + 1) % 4294967296 ∧ t.regs = s.regs ∧ t.ctrs = s.ctrs) ∧
    (∀ (u : State) (m : MWr) (stall : Bool), 32 ≤ u.hbr.pcieQ.length → exec (.pcieMwr m stall) u = .next u)) ∧
  (∀ s : State, s.hbr.pcieQ = [] →
    (s.pcieUp = true → s.reaches .pcie (Reg.glbOpState.addr 0) = true →
      ∀ be : BitVec 4, ∃ t, exec (.pcieMrd ⟨false, BitVec.ofNat 24 (Reg.glbOpState.addr 0), [be], [], false⟩) s = .next t ∧
        t.out = .completion (lanesOf s.opWord be) false :: s.out ∧ t.regs = s.regs ∧ t.ctrs = s.ctrs) ∧
    (∀ (a : BitVec 24) (bes : List (BitVec 4)), s.pcieUp = true → 16 < bes.length →
      ∃ t, exec (.pcieMrd ⟨false, a, bes, [], false⟩) s = .next t ∧ t.out = .completerAbort :: s.out ∧
        t.ctr .hbrNpErr 0 = s.ctr .hbrNpErr 0 + 1 ∧ t.regs = s.regs) ∧
    (∀ be : BitVec 4, s.pcieUp = true →
      ∃ t, exec (.pcieMrd ⟨false, 0, [be], [], true⟩) s = .next t ∧ t.out = .completion (lanesOf 0x96401F7E be) false :: s.out ∧
        t.regs = s.regs ∧ t.ctrs = s.ctrs) ∧
    (∀ k : UrKind, s.pcieUp = true → k = .lockedRead ∨ k = .ioRead ∨ k = .readOutside →
      ∃ t, exec (.pcieUnsupported k) s = .next t ∧ t.out = .unsupportedRequest :: s.out ∧ t.ctr .hbrNpErr 0 = s.ctr .hbrNpErr 0 + 1) ∧
    (∀ k : UrKind, s.pcieUp = true → k = .ioWrite ∨ k = .atomicOp →
      exec (.pcieUnsupported k) s = .next { s with out := .unsupportedRequest :: s.out }) ∧
    (s.pcieUp = true → exec (.pcieUnsupported .writeOutside) s = .next s) ∧
    (s.pcieUp = false → ∀ k m, exec (.pcieUnsupported k) s = .next s ∧ exec (.pcieMrd m) s = .next s))

/-- The frames of the management SPI port (R436 to R439). A WRITE of one dword takes effect; a READ of one dword returns status, data
and CRC, with MSPI_CS_N and RDY_BSY low as a READ of HBR_SIDEBAND shows them (R444, R438); a READ whose header CRC is wrong returns crc_err and zero data, and is counted; STATUS returns the status byte and its CRC. -/
def Obligations.ManagementSpiFramesAreServed : Prop :=
  ∀ s : State, s.mapUp = true →
    (∀ (v : Fin 32) (data : Word), s.reaches .spi (Reg.evtVecCfg.addr v) = true → s.hbr.spiQ = [] →
      let body := [2] ++ beBytes 3 (Reg.evtVecCfg.addr v) ++ [0] ++ beBytes 4 data.toNat
      ∃ t, exec (.spiWriteFrame (body ++ [crc8 body]) [] false) s = .next t ∧
        t.rd .evtVecCfg v = putBits (s.rd .evtVecCfg v) 15 0 data.toNat ∧ t.hbr.spiQ = []) ∧
    (s.reaches .spi (Reg.glbOpState.addr 0) = true → s.hbr.spiQ = [] →
      let hdr := [0x0B] ++ beBytes 3 (Reg.glbOpState.addr 0) ++ [0]
      ∃ t st, exec (.spiReadFrame (hdr ++ [crc8 hdr]) []) s = .next t ∧
        t.out = .spi ((st :: beBytes 4 s.opWord.toNat) ++ [crc8 (st :: beBytes 4 s.opWord.toNat)]) :: s.out ∧
        st.getLsbD 7 = true ∧ st.getLsbD 4 = false ∧ st.getLsbD 2 = false) ∧
    (s.reaches .spi (Reg.hbrSideband.addr 0) = true → s.hbr.spiQ = [] →
      let hdr := [0x0B] ++ beBytes 3 (Reg.hbrSideband.addr 0) ++ [0]
      ∃ t st, ∃ w : Word, exec (.spiReadFrame (hdr ++ [crc8 hdr]) []) s = .next t ∧
        t.out = .spi ((st :: beBytes 4 w.toNat) ++ [crc8 (st :: beBytes 4 w.toNat)]) :: s.out ∧
        getBit w 9 = false ∧ getBit w 2 = false ∧ getBit (t.rd .hbrSideband) 9 = true) ∧
    (∀ (a : BitVec 24) (n : Fin 16) (c : Byte), s.hbr.spiQ = [] →
      let hdr := [0x0B] ++ beBytes 3 a.toNat ++ [BitVec.ofNat 8 n.val]
      c ≠ crc8 hdr →
      ∃ t st, exec (.spiReadFrame (hdr ++ [c]) []) s = .next t ∧
        (∃ rest, t.out = .spi ((st :: List.replicate (4 * (n + 1)) 0) ++ [crc8 (st :: List.replicate (4 * (n + 1)) 0)]) :: rest) ∧
        st.getLsbD 4 = true ∧ t.ctr .mgtSpiErr 0 = s.ctr .mgtSpiErr 0 + 1) ∧
    (∃ t st, exec (.spiStatusFrame true) s = .next t ∧ t.out = .spi [st, crc8 [st]] :: s.out ∧ t.ctrs = s.ctrs)

/-- Auxiliary SPI windows (R430, R431, R435). A write of one dword to an enabled window that is not fenced and is not checked sends one
write transaction, in which the data is cut to the width of the window. A write whose status byte does not match fails; with
stop_on_err the fence bit of its path is set, and so it is by a poisoned PCIe write to the window. A write to a fenced window is discarded
and counted. A read with no read-ahead returns the peripheral word, zero-extended.
A read-ahead buffer that is 10 us old is discarded and each unread word counted; a write of HBR_PW_FENCE clears the fence bits
written as 1 and no others (R431, R435). -/
def Obligations.AuxiliarySpiWindows : Prop :=
  (∀ (s : State) (p : Path) (w : Fin 4) (a : Fin 1024), s.serves p (0x800000 + 0x100000 * w + 4 * a) = true →
    s.on F.hbrAspiCfg0_en w = true →
    (∀ (data : Word) (sts : Byte), s.fenced p w = false → s.on F.hbrAspiCfg0_chk_en w = false →
        s.pf .pcie w = none → s.pf .spi w = none → s.pf .fw w = none →
      ∃ t, exec (.aspiWindowWrite p w (BitVec.ofNat 20 (4 * a)) data 15 0 0 sts) s = .next t ∧
        t.out = .aspi (s.fld F.hbrAspiCfg0_cs w) (BitVec.ofNat 8 (s.fld F.hbrAspiCfg1_wr_op w) :: s.aspiAddr w a
          ++ beBytes (s.aspiWidth w) data.toNat) :: s.out ∧ t.regs = s.regs) ∧
    (∀ (data : Word) (sts : Byte), s.fenced p w = false → s.on F.hbrAspiCfg0_chk_en w = true → s.on F.hbrAspiCfg0_stop_on_err w = true →
        sts.toNat &&& s.fld F.hbrAspiCfg2_sts_mask w ≠ s.fld F.hbrAspiCfg2_sts_val w →
      ∃ t, exec (.aspiWindowWrite p w (BitVec.ofNat 20 (4 * a)) data 15 0 0 sts) s = .next t ∧
        t.fenced p w = true ∧ t.ctr .hbrPwFail 0 = s.ctr .hbrPwFail 0 + 1) ∧
    (∀ (data : Word) (sts : Byte), s.fenced p w = true →
      ∃ t, exec (.aspiWindowWrite p w (BitVec.ofNat 20 (4 * a)) data 15 0 0 sts) s = .next t ∧
        t.ctr .hbrPwFenced 0 = s.ctr .hbrPwFenced 0 + 1 ∧ t.out = s.out ∧ t.regs = s.regs) ∧
    (∀ data : Word, s.pcieUp = true → s.hbr.pcieQ = [] → s.fenced .pcie w = false → s.on F.hbrAspiCfg0_stop_on_err w = true →
      ∃ t, exec (.pcieMwr ⟨false, BitVec.ofNat 24 (0x800000 + 0x100000 * w + 4 * a), [(data, 15)], true, 0, 0, []⟩) s = .next t ∧
        t.fenced .pcie w = true ∧ t.ctr .hbrPwFail 0 = s.ctr .hbrPwFail 0 + 1) ∧
    (∀ words : List Word, s.fld F.hbrAspiCfg0_pf_len w = 0 → s.pf p w = none →
      ∃ t, exec (.aspiWindowRead p w (BitVec.ofNat 20 (4 * a)) words) s = .next t ∧
        ∃ rest, t.out = .regRead p (0x800000 + 0x100000 * w + 4 * a)
          (BitVec.ofNat 32 ((words.getD 0 0).toNat % 2 ^ (8 * s.aspiWidth w))) :: rest)) ∧
  (∀ (s : State) (p : Path),
    (∀ (w : Fin 4) (b : PfBuf), s.pf p w = some b → b.since + tkUs 10 ≤ s.tim.lt →
      ∃ t, exec (.prefetchTimeout p w) s = .next t ∧ t.pf p w = none ∧
        t.ctr .hbrPfDiscard w = s.ctr .hbrPfDiscard w + BitVec.ofNat 64 b.words.length) ∧
    (∀ data : Word, s.servesReg p .hbrPwFence 0 = true →
      ∃ t, exec (.pwFenceClear p data) s = .next t ∧ (∀ w : Fin 4, getBit data w = true → t.fenced p w = false) ∧
        ((s.pathSt p).fence < 16 → ∀ w : Fin 4, getBit data w = false → t.fenced p w = s.fenced p w)))

/-- Rings (R440, R443): a write of a tail moves it; a DMA error of a running ring clears its en and counts the error.
Link, PERST_N and side-band signals (R443, R444, R450). While the link stays up its width and speed follow it (R426), and it may go down
into L2 (R443); it trains after step 3 of the start alone (R477). -/
def Obligations.RingsAndBusSignals : Prop :=
  (∀ s : State,
    (∀ (p : Path) (r : Fin 8) (data : Word), s.servesReg p .hbrTxRingTail r = true →
      ∃ t, exec (.txRingTailWrite p r data) s = .next t ∧ t.fld F.hbrTxRingTail_tail r = F.hbrTxRingTail_tail.of data) ∧
    (∀ (p : Path) (r : Fin 8) (data : Word), s.servesReg p .hbrRxRingTail r = true →
      ∃ t, exec (.rxRingTailWrite p r data) s = .next t ∧ t.fld F.hbrRxRingTail_tail r = F.hbrRxRingTail_tail.of data) ∧
    (∀ (rx : Bool) (r : Fin 8) (wb : Bool), s.ringRuns rx r = true →
      ∃ t, exec (.dmaError rx r wb) s = .next t ∧ t.ringRuns rx r = false ∧ t.ctr .hbrDmaErr 0 = s.ctr .hbrDmaErr 0 + 1)) ∧
  (∀ s : State,
    (∀ width speed : BitVec 4, s.on F.hbrPcieStat_link_up = false → s.pcieTrains = true →
      ∃ t, exec (.pcieLinkChange true width speed) s = .next t ∧ t.on F.hbrPcieStat_link_up = true ∧
        t.fld F.hbrPcieStat_width = width.toNat ∧ t.fld F.hbrPcieStat_speed = speed.toNat) ∧
    (∀ width speed : BitVec 4, s.on F.hbrPcieStat_link_up = true → s.pcieTrains = true →
      ∃ t, exec (.pcieLinkChange true width speed) s = .next t ∧ t.on F.hbrPcieStat_link_up = true ∧
        t.fld F.hbrPcieStat_width = width.toNat ∧ t.fld F.hbrPcieStat_speed = speed.toNat ∧
        regsBut [.hbrPcieStat, .hbrSideband, .hbrSidebandSeen] s t ∧ t.ctrs = s.ctrs) ∧
    (∀ (width speed : BitVec 4) (l2 : Bool), s.on F.hbrPcieStat_link_up = true →
      ∃ t, exec (.pcieLinkChange false width speed l2) s = .next t ∧ t.on F.hbrPcieStat_link_up = false ∧ t.hbr.l2 = l2) ∧
    (∀ width speed : BitVec 4, s.pcieTrains = false → exec (.pcieLinkChange true width speed) s = .next s) ∧
    (∃ t, exec .perstAssert s = .next t ∧ t.hbr.perstLow = true ∧ t.hbr.pcieQ = [] ∧ (t.pathSt .pcie).seq = 0 ∧ (t.pathSt .pcie).fence = 0 ∧
      (∀ r : Fin 8, t.on F.hbrTxRingCfg_en r = false ∧ t.on F.hbrRxRingCfg_en r = false) ∧ t.on F.qmgPortLim_host_en 16 = false ∧
      t.op = s.op) ∧
    (∃ t, exec .perstRelease s = .next t ∧ t.hbr.perstLow = false ∧ t.op = s.op) ∧
    (∀ (b : Fin 14) (l : Bool), getBit (s.rd .hbrSideband) b ≠ l →
      ∃ t, exec (.sidebandChange b l) s = .next t ∧ getBit (t.rd .hbrSideband) b = l ∧ getBit (t.rd .hbrSidebandSeen) b = true ∧
        regsBut [.hbrSideband, .hbrSidebandSeen] s t))

/-- The commands of the owner of a message queue (R446, R448): MARK, REWIND, RELEASE and RESET, with their results.
A read of MQ_POP3 by the owner returns word 3 of the item at Rd and moves Rd, and frees no space; clearing en discards every item; a
write that enables a queue within the pool takes effect (R445, R446). -/
def Obligations.MessageQueues : Prop :=
  (∀ (s : State) (p : Path) (k : Fin 48), s.servesReg p .mqCmd k = true → s.mqOwner p k = true →
    (∃ t, exec (.mqMark p k) s = .next t ∧ t.fld F.mqStat_result k = 0 ∧
      t.mq k = { s.mq k with mark := .valid (((s.mq k).f + (s.mq k).held) % 4294967296) }) ∧
    (∀ m, (s.mq k).mark = .valid m →
      ∃ t, exec (.mqRewind p k) s = .next t ∧ t.fld F.mqStat_result k = 0 ∧
        t.mq k = { s.mq k with held := (m + 4294967296 - (s.mq k).f) % 4294967296 }) ∧
    ((s.mq k).mark = .none → ∃ t, exec (.mqRewind p k) s = .next t ∧ t.fld F.mqStat_result k = 1 ∧ t.mqs = s.mqs) ∧
    ((s.mq k).mark = .lost → ∃ t, exec (.mqRewind p k) s = .next t ∧ t.fld F.mqStat_result k = 2 ∧ t.mq k = { s.mq k with mark := .none }) ∧
    (∀ n : BitVec 13, 0 < n.toNat → n.toNat ≤ (s.mq k).held →
      ∃ t, exec (.mqRelease p k n) s = .next t ∧ t.fld F.mqStat_result k = 0 ∧ (t.mq k).f = ((s.mq k).f + n.toNat) % 4294967296 ∧
        (t.mq k).items = (s.mq k).items.drop n.toNat ∧ (t.mq k).held = (s.mq k).held - n.toNat) ∧
    (∀ n : BitVec 13, (s.mq k).held < n.toNat →
      ∃ t, exec (.mqRelease p k n) s = .next t ∧ t.fld F.mqStat_result k = 3 ∧ t.mqs = s.mqs) ∧
    (∃ t, exec (.mqReset p k) s = .next t ∧ t.fld F.mqStat_result k = 0 ∧
      t.mq k = ⟨((s.mq k).f + (s.mq k).items.length) % 4294967296, [], 0, .none⟩)) ∧
  (∀ (s : State) (p : Path) (k : Fin 48),
    (∀ it : MqItem, s.servesReg p .mqPop (4 * k + 3) = true → s.mqOwner p k = true → s.memClean = true →
        (s.mq k).items[(s.mq k).held]? = some it →
      ∃ t, exec (.mqPop p k) s = .next t ∧ t.out = .regRead p (Reg.mqPop.addr (4 * k + 3)) (it.words.getD 3 0) :: s.out ∧
        t.mq k = { s.mq k with held := (s.mq k).held + 1 }) ∧
    (∀ data : Word, s.servesReg p .mqCfg k = true → s.on F.mqCfg_en k = true → F.mqCfg_en.of data = 0 →
      ∃ t, exec (.mqCfgWrite p k data) s = .next t ∧ t.on F.mqCfg_en k = false ∧ (t.mq k).items = [] ∧ (t.mq k).mark = .none) ∧
    (∀ data : Word, s.servesReg p .mqCfg k = true → s.on F.mqCfg_en k = false → F.mqCfg_en.of data = 1 →
        4 ≤ F.mqCfg_depth_log.of data → F.mqCfg_depth_log.of data ≤ 12 → F.mqCfg_owner.of data < 3 →
        s.mqOthers k + 2 ^ F.mqCfg_depth_log.of data ≤ 16384 →
      ∃ t, exec (.mqCfgWrite p k data) s = .next t ∧ t.on F.mqCfg_en k = true ∧ t.mqDepth k = 2 ^ F.mqCfg_depth_log.of data ∧
        t.fld F.mqCfg_owner k = F.mqCfg_owner.of data))

/-- A source that EVT_RAISE names sets its status bit, whatever its route; an unmasked vector sends one message for a pending request
when its hold-off ends or its mask is cleared; a route that does not name FAULT_N is written, and one that a command would set to FAULT_N is not (R451, R453, R454). -/
def Obligations.EventsRiseAndAreDelivered : Prop :=
  ∀ s : State,
    (∀ (p : Path) (src : BitVec 9), s.servesReg p .evtRaise 0 = true → Ev.listed src.toNat = true →
      ∃ t, exec (.evtRaise p src) s = .next t ∧ getBit (t.rd .evtStat (src.toNat / 32)) (src.toNat % 32) = true ∧
        regsBut eventRegs s t ∧ ctrsBut eventCtrs s t) ∧
    (∀ (p : Path) (src : BitVec 9) (data : Word), s.servesReg p .evtRoute src.toNat = true → F.evtRoute_dest.of data < 4 →
        s.fld F.evtRoute_dest src.toNat ≠ 4 →
      ∃ t, exec (.evtRouteWrite p src data) s = .next t ∧ t.fld F.evtRoute_dest src.toNat = F.evtRoute_dest.of data ∧
        t.fld F.evtRoute_vector src.toNat = F.evtRoute_vector.of data ∧ t.fld F.evtRoute_fw src.toNat = F.evtRoute_fw.of data ∧
        t.fld F.evtRoute_log src.toNat = F.evtRoute_log.of data) ∧
    (∀ (p : Path) (src : BitVec 9) (data : Word), s.servesReg p .evtRoute src.toNat = true → F.evtRoute_dest.of data = 4 →
      ∃ t, exec (.evtRouteWrite p src data) s = .next t ∧ regsBut eventRegs s t ∧
        getBit (t.rd .evtStat (Ev.accessErr .evt / 32)) (Ev.accessErr .evt % 32) = true) ∧
    (∀ v : Fin 32, (s.vec v).pending = true → (s.vec v).masked = false → s.vecHeld v = false →
      ∃ t, exec (.msixHoldoffEnd v) s = .next t ∧ t.out = .msix v :: s.out ∧ (t.vec v).pending = false ∧ t.regs = s.regs) ∧
    (∀ v : Fin 32, (s.vec v).pending = true → s.vecHeld v = false →
      ∃ t, exec (.msixUnmask v) s = .next t ∧ t.out = .msix v :: s.out ∧ (t.vec v).pending = false ∧ (t.vec v).masked = false) ∧
    (∀ v : Fin 32, (s.vec v).pending = false →
      ∃ t, exec (.msixUnmask v) s = .next t ∧ t.out = s.out ∧ (t.vec v).masked = false)

/-- An MDIO command sends its address; a read puts the answer, or 0xFFFF without one, into MAC_MDIO_DATA (R462). A write of a PHY register
through the mirror reaches it, but on page 3, at an undefined register, or for speed and role it is ACCESS_ERR and changes nothing, and a reset of its PMA takes the link
down (R463).
MAC_PORT_CFG takes the fields that its port has while the port is disabled; an enabled port keeps its mode (R461). -/
def Obligations.PhyAndPortRegisters : Prop :=
  ∀ (s : State) (path : Path),
    let ev (t : State) (n : Nat) : Prop := getBit (t.rd .evtStat (n / 32)) (n % 32) = true
    (∀ (data : Word) (a : Option (BitVec 16)), s.servesReg path .macMdioCmd 0 = true → F.macMdioCmd_go.of data = 1 →
      (F.macMdioCmd_rd.of data = 1 →
        ∃ t, exec (.mdioAccess path data a) s = .next t ∧ t.fld F.macMdioData_data = (a.getD 0xFFFF).toNat ∧
          t.out = .mdio true (F.macMdioCmd_prtad.of data) (F.macMdioCmd_devad.of data) (F.macMdioCmd_regad.of data) 0 :: s.out ∧
          regsBut [.macMdioCmd, .macMdioData] s t ∧ t.ctrs = s.ctrs) ∧
      (F.macMdioCmd_rd.of data = 0 →
        ∃ t, exec (.mdioAccess path data a) s = .next t ∧ regsBut [.macMdioCmd] s t ∧ t.ctrs = s.ctrs ∧
          t.out = .mdio false (F.macMdioCmd_prtad.of data) (F.macMdioCmd_devad.of data) (F.macMdioCmd_regad.of data)
            (s.fld F.macMdioData_data) :: s.out)) ∧
    (∀ (p : Fin 14) (page : Fin 4) (r : BitVec 10) (data : Word), s.serves path (phyOff p page r.toNat) = true →
      (page.val ≠ 3 →
        ∃ t, exec (.phyMirrorWrite path p page r data .other) s = .next t ∧
          tblGet t.phys.phyRegs 0 (phyOff p page r.toNat - 0xA0000) = data &&& 0xFFFF ∧ t.regs = s.regs) ∧
      (page.val ≠ 3 → s.linkUp p = true →
        ∃ t, exec (.phyMirrorWrite path p page r data .reset) s = .next t ∧ t.linkUp p = false ∧ ev t (Ev.linkChange p)) ∧
      (∀ what : PhyWrite, page.val = 3 ∨ what = .undefined ∨ what = .speedOrRole →
        ∃ t, exec (.phyMirrorWrite path p page r data what) s = .next t ∧ t.phys = s.phys ∧ ev t (Ev.accessErr .phy) ∧
          regsBut eventRegs s t)) ∧
    (∀ (p : Fin 18) (data : Word), s.servesReg path .macPortCfg p = true →
      (p.val < 16 → s.on F.macPortCfg_en p = false → F.macPortCfg_en.of data = 1 →
        (p.val = 12 ∨ p.val = 13 ∨ modeKnown p (F.macPortCfg_mode.of data) = true) →
        ∃ t, exec (.portCfgWrite path p data) s = .next t ∧ t.on F.macPortCfg_en p = true ∧
          t.fld F.macPortCfg_mode p = (if p.val = 12 ∨ p.val = 13 then s.fld F.macPortCfg_mode p else F.macPortCfg_mode.of data) ∧
          t.fld F.macPortCfg_t1_master p = (if p.val < 12 then F.macPortCfg_t1_master.of data else 0) ∧
          ∀ r i, ¬(r = .macPortCfg ∧ i = p.val) → t.rd r i = s.rd r i) ∧
      (p.val < 12 → s.on F.macPortCfg_en p = true → modeKnown p (F.macPortCfg_mode.of data) = true →
          F.macPortCfg_mode.of data ≠ s.fld F.macPortCfg_mode p →
        ∃ t, exec (.portCfgWrite path p data) s = .next t ∧ t.rd .macPortCfg p = s.rd .macPortCfg p ∧ ev t (Ev.accessErr .mac)) ∧
      (16 ≤ p.val → ∃ t, exec (.portCfgWrite path p data) s = .next t ∧ t.regs = s.regs ∧ t.ctrs = s.ctrs))

/-- IDCODE is always answered; in FIELD a register access by JTAG is refused while debug is not open, and changes nothing else
(R3, R319). A high TEST_EN opens the factory test modes, but in PROVISIONING and FIELD nothing does (R472). -/
def Obligations.JtagFollowsTheLifeCycle : Prop :=
  ∀ (s : State) (lvl : Bool), s.op ≠ .off →
    let answered (w : Out) : State := { s with phys := { s.phys with testEn := lvl }, out := w :: s.out }
    exec (.jtagAccess .idcode lvl) s = .next (answered (.jtag 0x09640D3B)) ∧
    (∀ (off : BitVec 24) (data : Word), s.keys.lc = 2 → s.net.dbg.open_ = false →
      exec (.jtagAccess (.regRead off) lvl) s = .next (answered .jtagRefused) ∧
      exec (.jtagAccess (.regWrite off data) lvl) s = .next (answered .jtagRefused) ∧
      exec (.jtagAccess .coreDebug lvl) s = .next (answered .jtagRefused) ∧
      exec (.jtagAccess .extest lvl) s = .next (answered .jtagRefused)) ∧
    (s.keys.lc = 1 ∨ s.keys.lc = 2 → exec (.jtagAccess .factoryTest lvl) s = .next (answered .jtagRefused)) ∧
    (s.keys.lc = 0 ∨ s.keys.lc = 3 ∨ s.keys.lc = 4 →
      exec (.jtagAccess .factoryTest lvl) s = .next (answered (if lvl then .jtagOpen else .jtagRefused)))

/-! ## Supplies, RST_N and clocks (chapters 01 and 14) -/

/-- Valid rails lead from OFF into BOOT with entry cause 0x00, and each VDDIO bank keeps the level it has then. The loss of a rail
leads to OFF, from SLEEP only that of VDD_AON; MRAM and flash stay, but for the entry of a row added in that tick, which is torn (R365). RST_N
low discards the fast-start path and the saved PHY values, and in OFF it is not sensed (R476); its release with valid rails leads into BOOT with
cause 0x01. VDD_AON back after its loss gives every register but the UID fuses and the side-band balls its reset value. A retention fault
in STANDBY leads to BOOT with cause 0x09, at once while the rails are present. -/
def Obligations.SupplyAndResetTransitions : Prop :=
  ∀ s : State,
    (s.op = .off → s.phys.aonValid = true → s.phys.rstLow = false → s.phys.railsValid = false →
      ∀ ioA ioB : Bool, ∃ t, exec (.suppliesValid ioA ioB) s = .next t ∧ t.op = .boot ∧ t.prevOp = .off ∧ t.cause = 0 ∧
        t.phys.railsValid = true ∧ t.phys.vddioA = ioA ∧ t.phys.vddioB = ioB ∧ t.ctrs = [] ∧ t.tim.lt = 0 ∧ keeps [.flash, .keys] s t) ∧
    (s.op ≠ .off → s.op ≠ .sleep →
      ∃ t, exec (.suppliesLost false) s = .next t ∧ t.op = .off ∧ t.prevOp = s.op ∧ t.phys.railsValid = false ∧
        keeps [.flash, .keys] s t ∧ (s.mem.rowAt ≠ some s.now → t.mram = s.mram) ∧
        (s.mem.rowAt = some s.now → t.mram.repair = s.mram.repair.dropLast)) ∧
    (s.op = .sleep → s.mem.rowAt ≠ some s.now → exec (.suppliesLost false) s = .next { s with phys := { s.phys with railsValid := false } }) ∧
    (s.op ≠ .off →
      ∃ t, exec (.suppliesLost true) s = .next t ∧ t.op = .off ∧ t.phys.aonValid = false ∧ t.pwr.inh = false ∧
        keeps [.flash, .keys] s t ∧ (s.mem.rowAt ≠ some s.now → t.mram = s.mram)) ∧
    (s.op ≠ .off → ∃ t, exec .rstNAssert s = .next t ∧ t.phys.rstLow = true ∧ t.pwr.fastOk = false ∧ t.pwr.coef = [] ∧ t.op = s.op ∧
      regsBut [.hbrSideband, .hbrSidebandSeen] s t ∧ keeps [.ctrs, .flash, .mram, .keys, .net] s t) ∧
    (s.op = .off → exec .rstNAssert s = .next { s with phys := { s.phys with rstLow := true, rstPend := false } }) ∧
    (s.phys.rstLow = true → s.phys.aonValid = true → s.phys.railsValid = true →
      ∃ t, exec .rstNRelease s = .next t ∧ t.op = .boot ∧ t.prevOp = s.op ∧ t.phys.rstLow = false ∧
        (s.op ≠ .off → t.cause = 1) ∧ keeps [.flash, .keys] s t) ∧
    (s.phys.aonValid = false → s.phys.railsValid = true → s.phys.rstLow = false → s.op = .off →
      ∃ t, exec .vddAonValid s = .next t ∧ t.op = .boot ∧ t.pwr.inh = true ∧ t.phys.aonValid = true ∧
        (∀ r i, r ≠ .keyUid → r ≠ .hbrSideband → t.rd r i = r.reset i) ∧ (∀ i, t.rd .keyUid i = s.rd .keyUid i)) ∧
    (s.op = .standby → s.phys.rstLow = false →
      (∃ t, exec (.retentionSupplyFault true) s = .next t ∧ t.op = .boot ∧ t.cause = 9 ∧ t.prevOp = .standby) ∧
      (∃ t, exec (.retentionSupplyFault false) s = .next t ∧ t.op = .standby ∧ t.pwr.retLost = true ∧ t.net = s.net))

/-- The lock of the root PLL in BOOT runs the injection test: without a wrong lane the start goes on; a wrong lane is a fault of code 3.
Loss of lock of the root PLL after BOOT is a fault of code 4: the cores halt, FAULT_N goes low, the fault is recorded, a safe state holds and
the operating state stays; while a fault of another tick stands recorded, that record stays and the new fault is counted. Loss of lock of a port's PLL takes its link down and raises LINK_CHANGE, which it also does while the
link is not up; its lock is noted for an enabled port. -/
def Obligations.ClockLockAndLoss : Prop :=
  ∀ s : State, s.phys.rstLow = false →
    (s.op = .boot → s.phys.railsValid = true → s.phys.rootLock = false → s.boot.run.fwim = none → s.boot.run.minWait = none →
      ∃ t, exec (.rootPllLock 0) s = .next t ∧ t.phys.rootLock = true ∧ t.boot.run.bistOk = true ∧ t.op = .boot ∧
        t.on F.glbLsBist_done = true ∧ t.fld F.glbLsBist_lane_fail = 0 ∧ t.ctrs = s.ctrs) ∧
    (∀ fail : BitVec 8, fail ≠ 0 → s.op = .boot → s.phys.railsValid = true → s.phys.rootLock = false →
        s.fld F.glbFaultRec_code = 0 →
      ∃ t, exec (.rootPllLock fail) s = .next t ∧ t.op = .boot ∧ t.pair.halted = true ∧ t.fld F.glbFaultRec_code = 3 ∧
        t.fld F.glbLsBist_lane_fail = fail.toNat ∧ t.boot.run.bistOk = s.boot.run.bistOk ∧ getBit (t.rd .hbrSideband) 0 = false) ∧
    (s.op = .run ∨ s.op = .minimal → s.fld F.glbFaultRec_code = 0 →
      ∃ t, exec .rootPllLossOfLock s = .next t ∧ t.op = s.op ∧ t.phys.rootLock = false ∧ t.pair.halted = true ∧
        getBit (t.rd .hbrSideband) 0 = false ∧ t.fld F.glbFaultRec_code = 4 ∧ t.pair.safe.isSome = true ∧
        (t.red.role = .detached ∨ t.red.role = .faulted) ∧ regsBut eventRegs s t) ∧
    (s.op = .run ∨ s.op = .minimal → s.fld F.glbFaultRec_code ≠ 0 → s.faultNow = false →
      ∃ t, exec .rootPllLossOfLock s = .next t ∧ t.rd .glbFaultRec = s.rd .glbFaultRec ∧ t.pair.safe.isSome = true ∧
        t.ctr .glbFaults 0 = s.ctr .glbFaults 0 + 1) ∧
    (∀ (p : Fin 16) (rest : List Byte), s.op = .run → s.linkUp p = true →
      ∃ t, exec (.phyPllLossOfLock p rest) s = .next t ∧ t.linkUp p = false ∧ t.phys.phyLock.contains p.val = false ∧ t.op = .run ∧
        getBit (t.rd .evtStat (Ev.linkChange p / 32)) (Ev.linkChange p % 32) = true) ∧
    (∀ (p : Fin 16) (rest : List Byte), s.op = .run → s.linkUp p = false → s.phys.phyLock.contains p.val = true →
      ∃ t, exec (.phyPllLossOfLock p rest) s = .next t ∧ t.phys.phyLock.contains p.val = false ∧
        getBit (t.rd .evtStat (Ev.linkChange p / 32)) (Ev.linkChange p % 32) = true ∧ t.net = s.net) ∧
    (∀ p : Fin 16, s.op = .run ∨ s.op = .minimal → s.on F.macPortCfg_en p = true →
      ∃ t, exec (.phyPllLock p) s = .next t ∧ t.phys.phyLock.contains p.val = true ∧ t.op = s.op ∧ t.regs = s.regs)

/-! ## Power, wake and the sleep ring (chapter 14) -/

/-- An enabled wake source in RUN with no ring running only records its request (R379, R381, R386): its bit of PWR_WAKE_ALL is set,
and the operating state stays.
An enabled wake source in SLEEP with the rails valid leads to BOOT with entry cause 0x06 (R26, R379, R392). -/
def Obligations.WakeRequests : Prop :=
  (∀ s : State, s.phys.aonValid = true → s.phys.rstLow = false → s.op = .run → s.pair.safe = none → s.pwr.ring.st = .idle →
    (∀ (n : Fin 4) (lvl : Bool), s.wakeOn (0x30 + n) = true → tblGet s.pwr.winLevel false n ≠ lvl →
        lvl ≠ gateBit (s.fld F.pwrWakeEn2_win_pol) n →
      ∃ t, exec (.wakeInEdge n lvl) s = .next t ∧ getBit (t.rd .pwrWakeAll1) (8 + n) = true ∧ t.op = .run) ∧
    (∀ p : Fin 12, s.wakeOn (0x10 + p) = true → s.linkUp p = true →
      ∃ t, exec (.tc10WurRx p) s = .next t ∧ getBit (t.rd .pwrWakeAll0) (16 + p) = true ∧ t.op = .run ∧
        t.ctr .pwrWurRx = s.ctr .pwrWurRx + 1) ∧
    (∀ ch : Fin 8, s.wakeOn (0x20 + ch) = true →
      ∃ t, exec (.linWakeupSignal ch) s = .next t ∧ getBit (t.rd .pwrWakeAll1) ch = true ∧ t.op = .run)) ∧
  (∀ s : State, s.phys.aonValid = true → s.phys.rstLow = false → s.op = .sleep → s.phys.railsValid = true → s.pwr.waking = none →
    (s.wakeOn 0x40 = true → s.fld F.pwrTimer_wake_s ≠ 0 → s.pwr.enteredAt + tkS (s.fld F.pwrTimer_wake_s) ≤ s.now →
      ∃ t, exec .sleepTimerExpiry s = .next t ∧ t.op = .boot ∧ t.cause = 6 ∧ t.prevOp = .sleep) ∧
    (∀ p : Fin 12, s.wakeOn (0x10 + p) = true →
      ∃ t, exec (.tc10WupDetect p) s = .next t ∧ t.op = .boot ∧ t.cause = 6 ∧ t.prevOp = .sleep) ∧
    (∀ ch : Fin 8, s.wakeOn (0x20 + ch) = true →
      ∃ t, exec (.linWakeupSignal ch) s = .next t ∧ t.op = .boot ∧ t.cause = 6 ∧ t.prevOp = .sleep) ∧
    (∀ ch : Fin 16, s.wakeOn ch = true → s.on F.canLpfCfg_en ch = true → s.on F.canLpfCfg_wup_en ch = true →
      ∃ t, exec (.lpfWakeupPattern ch) s = .next t ∧ t.op = .boot ∧ t.cause = 6 ∧ t.prevOp = .sleep) ∧
    (∀ (ch : Fin 16) (ide : Bool) (ident : BitVec 29) (dlc : Fin 16) (data : List Byte), s.wakeOn ch = true →
        s.on F.canLpfCfg_en ch = true → s.lpfMatch ch ide ident.toNat dlc data = true →
      ∃ t, exec (.lpfWakeupFrame ch ide ident dlc data) s = .next t ∧ t.op = .boot ∧ t.cause = 6 ∧ t.prevOp = .sleep) ∧
    (∀ ch : Fin 16, s.wakeOn ch = true → s.on F.canLpfCfg_en ch = true →
        s.fld F.canLpfCtl_fec_thr ch ≤ s.fld F.canLpfStat_fec ch →
      ∃ t, exec (.lpfFecOverflow ch) s = .next t ∧ t.op = .boot ∧ t.cause = 6 ∧ t.prevOp = .sleep))

/-- A round of the sleep ring (R384, R395): it starts under a new number and waits for the first member whose link is up; the device's
own veto ends it. The awaited RETURN with consent adds the member, and completes the round after the last one; a withheld consent or a
missing reply ends the round, is counted and leaves its reason with the member. -/
def Obligations.SleepRingRound : Prop :=
  ∀ s : State,
    (∀ (writing : Bool) (k : Nat) (rest : List Nat), s.mayRound = true → s.ownReason writing = none → s.members = k :: rest →
        s.memberUp k = true →
      ∃ t, exec (.ringRoundStart true writing) s = .next t ∧ t.pwr.ring.st = .round ∧ t.pwr.ring.await = some (k, s.tim.lt) ∧
        t.pwr.ring.round = (s.pwr.ring.round + 1) % 65536 ∧ t.pwr.ring.consent = [] ∧
        t.ctr .pwrRounds 0 = s.ctr .pwrRounds 0 + 1 ∧ t.regs = s.regs) ∧
    (∀ (writing : Bool) (r : Nat), s.mayRound = true → s.ownReason writing = some r →
      ∃ t, exec (.ringRoundStart true writing) s = .next t ∧ t.pwr.ring.st = .idle ∧ t.pwr.ring.lastEnd = some s.tim.lt ∧
        t.ctr .pwrVetoes 0 = s.ctr .pwrVetoes 0 + 1 ∧ (s.on F.pwrVetoLog0_valid = false → t.fld F.pwrVetoLog0_reason = r)) ∧
    (∀ (k : Fin 32) (at_ : Nat), s.fabricOn = true → s.pwr.ring.st = .round → s.pwr.ring.await = some (k.val, at_) →
        s.pwr.ring.round < 65536 →
      (s.members.filter (fun m => decide (k.val < m)) = [] →
        ∃ t, exec (.ringReturnRx k (BitVec.ofNat 16 s.pwr.ring.round) 0) s = .next t ∧ t.pwr.ring.allIn = true ∧
          t.pwr.ring.consent = s.pwr.ring.consent ++ [k.val] ∧ t.pwr.ring.st = .round ∧ t.fld F.pwrMember3_consec k = 0) ∧
      (∀ v : BitVec 8, v ≠ 0 →
        ∃ t, exec (.ringReturnRx k (BitVec.ofNat 16 s.pwr.ring.round) v) s = .next t ∧ t.pwr.ring.st = .idle ∧
          t.pwr.ring.consent = [] ∧ t.ctr .pwrVetoes 0 = s.ctr .pwrVetoes 0 + 1 ∧
          t.fld F.pwrMember3_last_reason k = v.toNat ∧ t.fld F.pwrMember3_consec k = min 255 (s.fld F.pwrMember3_consec k + 1)) ∧
      (at_ + tkMs (s.fld F.pwrRingCfg_reply_ms) ≤ s.tim.lt →
        ∃ t, exec .ringReplyTimeout s = .next t ∧ t.pwr.ring.st = .idle ∧ t.ctr .pwrVetoes 0 = s.ctr .pwrVetoes 0 + 1 ∧
          t.fld F.pwrMember3_last_reason k = 0xFE))

/-- The commit of a round (R385) and the steps of sleep entry (R387). With every consent in and no wake request the commit is accepted
and fsc stored as 0; after a wake request it ends the round, and so does one in the tick of the accepted commit, which is taken back (R385). When
commit_hold has passed, LPS goes to the ports in tc10_en, whether or not they are up;
without such a port, or after the last acknowledgment or its timeout, the target state is entered with cause 0x04. LPS from a partner is
acknowledged only in a round from a member there that has consented (R388). -/
def Obligations.SleepCommitAndEntry : Prop :=
  ∀ s : State,
    (∀ data : Word, s.servesReg .fw .pwrCtrl 0 = true → F.pwrCtrl_commit.of data = 1 → F.pwrCtrl_wake_out.of data = 0 →
        1 ≤ F.pwrCtrl_target.of data → F.pwrCtrl_target.of data ≤ 2 → s.pwr.ring.st = .round → s.pwr.ring.allIn = true →
      (s.pwr.ring.woken = false →
        ∃ t, exec (.pwrCommit .fw data) s = .next t ∧ t.pwr.ring.st = .committed ∧ t.pwr.ring.commitAt = s.tim.lt ∧
          t.pwr.ring.toSleep = (F.pwrCtrl_target.of data == 2) ∧ t.bcr.fsc = 0 ∧ t.ctr .pwrCommits 0 = s.ctr .pwrCommits 0 + 1 ∧
          t.op = s.op) ∧
      (s.pwr.ring.woken = true →
        ∃ t, exec (.pwrCommit .fw data) s = .next t ∧ t.pwr.ring.st = .idle ∧ t.on F.pwrStat_commit_fail = true ∧
          t.ctr .pwrAbortWake 0 = s.ctr .pwrAbortWake 0 + 1 ∧ t.op = s.op ∧ t.mram = s.mram)) ∧
    (∀ (p : Fin 12) (f : Nat), s.phys.aonValid = true → s.phys.rstLow = false → s.op = .run → s.pair.safe = none → s.linkUp p = true →
        s.wakeOn (0x10 + p) = true → s.pwr.ring.st = .committed → s.pwr.ring.fresh = some f →
      ∃ t, exec (.tc10WurRx p) s = .next t ∧ t.pwr.ring.st = .idle ∧ t.bcr.fsc = f ∧ t.on F.pwrStat_commit_fail = true ∧
        t.ctr .pwrCommits 0 = s.ctr .pwrCommits 0 - 1 ∧ t.ctr .pwrAbortWake 0 = s.ctr .pwrAbortWake 0 + 1 ∧
        getBit (t.rd .pwrWakeAll0) (16 + p) = true ∧ t.op = .run) ∧
    (s.fabricOn = true → s.pwr.ring.st = .committed → s.pwr.ring.fresh = none →
        s.pwr.ring.commitAt + tkUs (100 * s.fld F.pwrEntryCfg_commit_hold) ≤ s.tim.lt →
      ((∃ p : Fin 12, gateBit (s.fld F.pwrTc10Cfg_tc10_en) p = true) →
        ∃ t, exec .commitHoldEnd s = .next t ∧ t.pwr.ring.st = .entering ∧ t.op = s.op ∧ t.pwr.ring.lpsAt = s.tim.lt ∧
          (∀ p : Fin 12, p.val ∈ t.pwr.ring.lpsWait ↔ gateBit (s.fld F.pwrTc10Cfg_tc10_en) p = true)) ∧
      ((∀ p : Fin 12, gateBit (s.fld F.pwrTc10Cfg_tc10_en) p = false) → s.pwr.latched = none →
        ∃ t, exec .commitHoldEnd s = .next t ∧ t.op = (if s.pwr.ring.toSleep then .sleep else .standby) ∧ t.prevOp = s.op ∧
          t.cause = 4 ∧ t.leftOp = s.op ∧ (s.pwr.ring.toSleep = true → t.pwr.inh = !s.on F.pwrInhCfg_sleep_off))) ∧
    (∀ p : Fin 12, s.fabricOn = true → s.pwr.ring.st = .entering →
      (∀ q, p.val ≠ q → s.pwr.ring.lpsWait = [p.val, q] →
        ∃ t, exec (.lpsAckRx p) s = .next t ∧ t = s.setRing { s.pwr.ring with lpsWait := [q] }) ∧
      (∀ q, p.val ≠ q → s.pwr.ring.lpsWait = [p.val, q] → s.pwr.ring.lpsAt + tkMs (s.fld F.pwrEntryCfg_lps_ms) ≤ s.tim.lt →
        ∃ t, exec (.lpsTimeout p) s = .next t ∧ t.pwr.ring.lpsWait = [q] ∧ t.ctr .pwrLpsNoack 0 = s.ctr .pwrLpsNoack 0 + 1 ∧
          t.op = s.op) ∧
      (s.pwr.ring.lpsWait = [p.val] → s.pwr.latched = none → s.pwr.ring.toSleep = true →
        ∃ t, exec (.lpsAckRx p) s = .next t ∧ t.op = .sleep ∧ t.cause = 4)) ∧
    (∀ p : Fin 12, s.fabricOn = true → s.linkUp p = true →
      (s.pwr.ring.st ≠ .round → exec (.lpsRx p) s = .next ((s.emit (.lpsRefuse p)).bump .pwrLpsRefused)) ∧
      (∀ k, s.pwr.ring.st = .round → s.pwr.ring.consent = [k] → s.on F.pwrMember0_kind k = false → s.fld F.pwrMember0_port k = p →
        exec (.lpsRx p) s = .next (s.emit (.lpsAck p))))

/-- WAKE_OUT is at its polarity level from the write of wake_out until the pulse ends (R390), and low without VDD_AON (R375); the low-power filter counts erroneous
frames up and correct ones down, and leaves its counter at an ignored one (R264). -/
def Obligations.WakeOutAndFilterCounts : Prop :=
  ∀ s : State,
    (∀ (p : Path) (data : Word), s.servesReg p .pwrCtrl 0 = true → F.pwrCtrl_wake_out.of data = 1 → F.pwrCtrl_commit.of data = 0 →
        s.pwr.wakeOut = none → s.phys.aonValid = true →
      ∃ t, exec (.wakeOutWrite p data) s = .next t ∧ t.pwr.wakeOut = some s.now ∧
        getBit (t.rd .hbrSideband) 6 = !getBit (s.rd .pwrWakeoutCfg) 31) ∧
    (∀ at_, s.pwr.wakeOut = some at_ → at_ + tkMs (s.fld F.pwrWakeoutCfg_width_ms) ≤ s.now →
      ∃ t, exec .wakeOutPulseEnd s = .next t ∧ t.pwr.wakeOut = none ∧
        getBit (t.rd .hbrSideband) 6 = (s.phys.aonValid && getBit (s.rd .pwrWakeoutCfg) 31)) ∧
    (∀ ch : Fin 16, s.lpfOn ch = true →
      (∃ t, exec (.lpfFrameEnd ch true false) s = .next t ∧ t.fld F.canLpfStat_fec ch = s.fld F.canLpfStat_fec ch - 1 ∧
        regsBut [.canLpfStat] s t ∧ t.ctrs = s.ctrs) ∧
      (s.fld F.canLpfStat_fec ch < s.fld F.canLpfCtl_fec_thr ch →
        ∃ t, exec (.lpfFrameEnd ch false false) s = .next t ∧ t.fld F.canLpfStat_fec ch = s.fld F.canLpfStat_fec ch + 1 ∧
          regsBut [.canLpfStat] s t) ∧
      (∀ good, exec (.lpfFrameEnd ch good true) s = .next s))

/-! ## Start, configuration sets and update (chapter 15) -/

/-- Attempts of the start (R402). An attempt at fsc below 3 stores fsc + 1 and opens a history record in progress; at fsc 3 or more MINIMAL
is entered with cause 0x03 and reason 1, and with both copies of the boot record lost with cause 0x0A and reason 2, once every enabled PLL
has locked (R25). At step 5 OSPI_RESET_N is driven low, then high (R480). A flash read of more than 1 ms, or 200 ms without step 11, fails the attempt: it is counted and recorded with outcome 2,
and at fsc 3 MINIMAL follows. -/
def Obligations.BootAttempts : Prop :=
  ∀ s : State, s.booting = true →
    (∀ r : BootRec, s.boot.run.attempt = none → s.mram.boot.read = some r → r.fsc < 3 → s.slots.isSome = true →
      ∃ t, exec .bootAttemptStart s = .next t ∧ t.op = .boot ∧ t.boot.run.attempt = some s.tim.lt ∧ t.bcr.fsc = r.fsc + 1 ∧
        t.bcr.bootCount = (r.bootCount + 1) % 4294967296 ∧ (∃ h l, t.mram.hist = h :: l ∧ byteAt h 5 = 3 ∧ l.length ≤ 7) ∧
        t.phys.ospiRst = some true ∧ Out.ospiReset false ∈ t.out ∧ Out.ospiReset true ∈ t.out) ∧
    (∀ r : BootRec, s.boot.run.attempt = none → s.mram.boot.read = some r → 3 ≤ r.fsc → s.mram.minOk = false → s.phyReady = true →
      ∃ t, exec .bootAttemptStart s = .next t ∧ t.op = .minimal ∧ t.prevOp = .boot ∧ t.cause = 3 ∧ t.bcr.fsc = r.fsc ∧
        t.on F.cfgMinCause_valid = true ∧ t.fld F.cfgMinCause_reason = 1) ∧
    (s.boot.run.attempt = none → s.mram.boot.read = none → s.boot.run.cause ≠ 8 → s.mram.minOk = false → s.phyReady = true →
      ∃ t, exec .bootAttemptStart s = .next t ∧ t.op = .minimal ∧ t.cause = 0x0A ∧ t.fld F.cfgMinCause_reason = 2) ∧
    (∀ at_, s.boot.run.attempt = some at_ → s.bcr.fsc < 3 →
      (s.boot.run.cset = none →
        ∃ t, exec .flashReadTimeout s = .next t ∧ t.op = .boot ∧ t.boot.run.attempt = none ∧
          t.ctr .cfgFailedStarts 0 = s.ctr .cfgFailedStarts 0 + 1 ∧ (∃ h l, t.mram.hist = h :: l ∧ byteAt h 5 = 2 ∧ byteAt h 14 = 0x0B) ∧
          t.regs = s.regs) ∧
      (at_ + tkMs 200 ≤ s.tim.lt →
        ∃ t, exec .bootAttemptTimeout s = .next t ∧ t.op = .boot ∧ t.boot.run.attempt = none ∧ t.boot.run.fwim = none ∧
          t.ctr .cfgFailedStarts 0 = s.ctr .cfgFailedStarts 0 + 1 ∧ (∃ h l, t.mram.hist = h :: l ∧ byteAt h 5 = 2))) ∧
    (∀ at_, s.boot.run.attempt = some at_ → 3 ≤ s.bcr.fsc → at_ + tkMs 200 ≤ s.tim.lt → s.boot.run.cset = none → s.mram.minOk = false →
      (s.phyReady = true →
        ∃ t, exec .bootAttemptTimeout s = .next t ∧ t.op = .minimal ∧ t.cause = 3) ∧
      (s.phyReady = false →
        ∃ t, exec .bootAttemptTimeout s = .next t ∧ t.op = .boot ∧ t.boot.run.minWait = some (3, 1) ∧ t.booting = false)) ∧
    (∀ (u : State) (c r : Nat) (p : Fin 16), u.fabricOn = true → u.op = .boot → u.boot.run.minWait = some (c, r) → r < 256 →
        u.phys.rootLock = true → u.pair.safe = none →
        u.mram.minOk = false → u.on F.macPortCfg_en p = true → u.phys.phyLock.contains p.val = false →
        (∀ q : Fin 16, q ≠ p → u.on F.macPortCfg_en q = true → u.phys.phyLock.contains q.val = true) →
      ∃ t, exec (.phyPllLock p) u = .next t ∧ t.op = .minimal ∧ t.cause = c ∧ t.fld F.cfgMinCause_reason = r)

/-- The candidates of a start (R403). The ARMED slot is stored as TRIAL and tried; a FWIM that passes is started, one that is refused is
stored as REJECTED, and with no other GOOD slot the attempt fails. The recorded active set is loaded when its digest is the recorded
one: its version and content become those of the device, or the attempt fails with its code; a set with another digest is refused. After
a wake from SLEEP the CAN registers of the minimal configuration, applied as those of a set, and its legacy map entries are live at once: the
map holds these entries under the parity of the epoch, and no other (R392). -/
def Obligations.FirmwareAndSetStart : Prop :=
  ∀ s : State, s.booting = true → s.boot.run.attempt.isSome = true → s.bcr.fsc < 3 →
    (∀ (n : Fin 2) (i : Image), s.boot.run.fwim = none → s.bcr.stA = (if n = 0 then .armed else .good) →
        s.bcr.stB = (if n = 0 then .good else .armed) → s.fwimCheck n = .ok i →
      ∃ t, exec .fwimLoadComplete s = .next t ∧ t.boot.run.fwim = some (n.val, i.ver, i.sec) ∧ t.boot.fwimDig = i.dig ∧
        t.bcr.st n = .trial ∧ t.boot.run.fallback = false ∧ t.op = .boot) ∧
    (∀ c : Nat, s.boot.run.fwim = none → s.bcr.stA = .good → s.bcr.stB = .empty → s.bcr.primary = 0 → s.fwimCheck 0 = .error c →
      ∃ t, exec .fwimLoadComplete s = .next t ∧ t.bcr.stA = .rejected ∧ t.boot.run.attempt = none ∧ t.op = .boot ∧
        t.ctr .cfgFailedStarts 0 = s.ctr .cfgFailedStarts 0 + 1) ∧
    (∀ (f : Nat × Nat × Nat) (x : CsetRef) (i : Image), s.boot.run.fwim = some f → s.boot.run.cset = none → s.bcr.active = some x →
        s.bcr.csetTrial = false → s.csetCheck x.slot f.2.1 = .ok i →
      (i.dig = x.digest →
        let code := (s.clearMap.loadSet (csetOf i.body) s.epoch true s.boot.fwimDig).code
        (code = 0 → ∃ t, exec .csetLoadComplete s = .next t ∧ t.boot.csetVer = i.ver ∧ t.boot.set = some (csetOf i.body)) ∧
        (code ≠ 0 → ∃ t, exec .csetLoadComplete s = .next t ∧ t.op = .boot ∧ t.boot.run.attempt = none ∧
          t.ctr .cfgFailedStarts 0 = s.ctr .cfgFailedStarts 0 + 1 ∧ (∃ h l, t.mram.hist = h :: l ∧ byteAt h 14 = BitVec.ofNat 8 code))) ∧
      (i.dig ≠ x.digest →
        ∃ t, exec .csetLoadComplete s = .next t ∧ t.op = .boot ∧ t.boot.run.attempt = none ∧
          t.ctr .cfgFailedStarts 0 = s.ctr .cfgFailedStarts 0 + 1 ∧ (∃ h l, t.mram.hist = h :: l ∧ byteAt h 14 = 9))) ∧
    (∀ m : MinCfg, s.boot.run.fast = true → s.boot.run.fastOn = false → s.boot.run.cset = none → s.mram.minCfg = some m →
        s.mram.minOk = true → s.bcr.active.isSome = true → m.src = s.activeDigest →
      let can := s.applySet { Cset.empty with regs := m.regs.filter fun x => x.1.info.blk == .can } true
      let form (w : List Word) : List Word :=
        mapTab.withMask (eput [ew w 0 &&& 0xFFF00007, ew w 1 &&& 0x1FFFFFFF, ew w 2 &&& 0xFFFFFF, 0] 0 31 31 1) (epBit s.epoch)
      ∃ t, exec .fastStartConfigReady s = .next t ∧ t.boot.run.fastOn = true ∧
        (∀ r i, r ≠ .memFlipCtrl → t.rd r i = can.rd r i) ∧ t.net.can = can.net.can ∧
        (∀ e ∈ t.listed 0x40 0 0 (tabCount 0x40), ∃ w ∈ m.fast, e.2 = form w) ∧
        (∀ w r, m.fast = w :: r → ∃ e ∈ t.listed 0x40 0 0 (tabCount 0x40), e.2 = form w))

/-- stable_s in RUN with a GOOD FWIM and no trial stores fsc as 0 (R402). A restart enters BOOT with cause 0x07, a retry in MINIMAL with
cause 0x08 and fsc 0 (R407), and a FWIM trial that is not confirmed in time restarts the device (R422), in no safe state. A restart of device firmware in a safe state is
ignored (R337), with ACCESS_ERR (the model's choice, assumption 98). -/
def Obligations.RestartsAndTrialTimers : Prop :=
  ∀ s : State,
    (s.fabricOn = true → s.op = .run → s.settled = true → s.boot.runAt + tkS (s.fld F.cfgBootCfg_stable_s) ≤ s.tim.lt →
      ∃ t, exec .stableTimerExpiry s = .next t ∧ t = s.setBcr { s.bcr with fsc := 0 } ∧ t.bcr.fsc = 0) ∧
    (∀ (p : Path) (data : Word), s.servesReg p .cfgRestart 0 = true → F.cfgRestart_go.of data = 1 →
      (s.op = .run → F.cfgRestart_kind.of data = 0 → (p = .fw → s.pair.safe = none) →
        ∃ t, exec (.cfgRestartRestart p data) s = .next t ∧ t.op = .boot ∧ t.cause = 7 ∧ t.prevOp = .run ∧
          t.bcr = (if s.settled then { s.bcr with fsc := 0 } else s.bcr) ∧ keeps [.flash, .keys] s t) ∧
      (s.op = .minimal → F.cfgRestart_kind.of data = 1 → F.cfgRestart_slot_sel.of data = 0 → s.mram.boot.read.isSome = true →
          (p = .fw → s.pair.safe = none) →
        ∃ t, exec (.cfgRestartRetry p data) s = .next t ∧ t.op = .boot ∧ t.cause = 8 ∧ t.prevOp = .minimal ∧
          t.bcr = { s.bcr with fsc := 0 }) ∧
      (s.op = .run → F.cfgRestart_kind.of data = 1 ∨ (p = .fw ∧ s.pair.safe.isSome = true) →
        ∃ t, exec (.cfgRestartRetry p data) s = .next t ∧ t.op = .run ∧
          getBit (t.rd .evtStat (Ev.accessErr .cfg / 32)) (Ev.accessErr .cfg % 32) = true)) ∧
    (s.fabricOn = true → s.op = .run → s.boot.fwTrial = true → s.bcr.st s.boot.runSlot = .trial →
        s.pair.safe = none → s.boot.runAt + tkS (s.fld F.updTrialCfg_confirm_s) < s.tim.lt →
      ∃ t, exec .fwimTrialTimeout s = .next t ∧ t.op = .boot ∧ t.cause = 7 ∧ t.bcr = s.bcr)

/-- A load of a slot starts, or is refused with BUSY and counted (R409), and a write of load while load reads 1 changes nothing (R12); its end
reports the code of its checks and keeps the set as the shadow when they pass, and a flash read of more than 1 ms ends it with FLASH_READ
(R397); discard removes it. A swap makes the shadow active under the next epoch, records the previous set, counts the
swap and starts its trial (R410); confirm ends the trial, and its timeout loads the previous set (R411). After the drain the entries
of the old parity alone are gone, and every other entry stays (R100), while no flip is armed. -/
def Obligations.ShadowSetsSwapAndTrial : Prop :=
  ∀ s : State,
    (∀ (p : Path) (data : Word), s.servesReg p .cfgShadowCtrl 0 = true → F.cfgShadowCtrl_discard.of data = 0 →
        F.cfgShadowCtrl_load.of data = 1 → s.op = .run →
      (s.on F.cfgShadowCtrl_load = true →
        ∃ t, exec (.shadowLoad p data) s = .next t ∧ t.boot = s.boot ∧ t.regs = s.regs ∧ t.ctrs = s.ctrs) ∧
      (s.on F.cfgShadowCtrl_load = false → s.loadBusy = false → s.boot.shadow = none →
        ∃ t, exec (.shadowLoad p data) s = .next t ∧ t.boot.loading = some (F.cfgShadowCtrl_slot.of data) ∧
          t.on F.cfgLoadStat_busy = true ∧ t.on F.cfgLoadStat_done = false ∧ t.on F.cfgShadowCtrl_load = true ∧ t.ctrs = s.ctrs ∧
          t.op = .run) ∧
      (s.on F.cfgShadowCtrl_load = false → s.loadBusy = true →
        ∃ t, exec (.shadowLoad p data) s = .next t ∧ t.boot = s.boot ∧ t.fld F.cfgLoadStat_code = 0x19 ∧
          t.ctr .cfgLoadRefused 0 = s.ctr .cfgLoadRefused 0 + 1)) ∧
    (∀ (p : Path) (data : Word), s.servesReg p .cfgShadowCtrl 0 = true → F.cfgShadowCtrl_discard.of data = 1 →
        F.cfgShadowCtrl_load.of data = 0 → s.boot.shadow.isSome = true →
      ∃ t, exec (.shadowDiscard p data) s = .next t ∧ t.boot = { s.boot with shadow := none } ∧ t.net.shadow = []) ∧
    (∀ n : Nat, s.fabricOn = true → s.op = .run → s.boot.loading = some n → s.boot.reverting = false →
      (∀ c : Nat, s.shadowCheck n false = .error c → c < 256 →
        ∃ t, exec .shadowLoadComplete s = .next t ∧ t.boot = { s.boot with loading := none } ∧ t.fld F.cfgLoadStat_code = c ∧
          t.on F.cfgShadowCtrl_load = false ∧
          t.on F.cfgLoadStat_done = true ∧ t.ctr .cfgLoadRefused 0 = s.ctr .cfgLoadRefused 0 + 1) ∧
      (∀ i : Image, s.shadowCheck n false = .ok i →
        let code := (s.loadSet (csetOf i.body) (s.epoch + 1) false s.boot.fwimDig).code
        (code = 0 → ∃ t, exec .shadowLoadComplete s = .next t ∧ t.boot.loading = none ∧
          t.boot.shadow = some ⟨n, i.dig, i.ver, csetOf i.body⟩ ∧ t.fld F.cfgLoadStat_code = 0) ∧
        (code ≠ 0 → ∃ t, exec .shadowLoadComplete s = .next t ∧ t.boot.loading = none ∧
          t.boot.shadow = s.boot.shadow ∧ t.ctr .cfgLoadRefused 0 = s.ctr .cfgLoadRefused 0 + 1)) ∧
      (∃ t, exec .flashReadTimeout s = .next t ∧ t.boot = { s.boot with loading := none } ∧ t.fld F.cfgLoadStat_code = 0x0B ∧
        t.on F.cfgLoadStat_done = true ∧ t.ctr .cfgLoadRefused 0 = s.ctr .cfgLoadRefused 0 + 1)) ∧
    (∀ (p : Path) (data : Word) (sh : Shadow), s.servesReg p .cfgSwapCtrl 0 = true → ¬(p = .fw ∧ s.pair.mode = .split) →
        F.cfgSwapCtrl_swap_go.of data = 1 → F.cfgSwapCtrl_confirm.of data = 0 → s.boot.shadow = some sh →
        s.on F.cfgLoadStat_done = true → s.fld F.cfgLoadStat_code = 0 →
      ∃ t, exec (.swap p data) s = .next t ∧ t.bcr = { s.bcr with
          active := some ⟨sh.slot, sh.digest⟩, epoch := (s.bcr.epoch + 1) % 4294967296, prev := s.bcr.active,
          csetTrial := F.cfgSwapCtrl_trial.of data == 1 } ∧
        t.boot.csetVer = sh.ver ∧ t.boot.shadow = none ∧ t.boot.cleanup = true ∧ t.ctr .cfgSwaps 0 = s.ctr .cfgSwaps 0 + 1 ∧
        t.boot.trialAt = (if F.cfgSwapCtrl_trial.of data = 1 then some s.now else none)) ∧
    (∀ (p : Path) (data : Word), s.servesReg p .cfgSwapCtrl 0 = true → ¬(p = .fw ∧ s.pair.mode = .split) →
        F.cfgSwapCtrl_swap_go.of data = 0 → F.cfgSwapCtrl_confirm.of data = 1 → s.bcr.csetTrial = true → s.boot.reverting = false →
      ∃ t, exec (.swapConfirm p data) s = .next t ∧ t.bcr = { s.bcr with csetTrial := false } ∧ t.boot = { s.boot with trialAt := none }) ∧
    (∀ (at_ : Nat) (c : CsetRef), s.fabricOn = true → s.op = .run → s.boot.trialAt = some at_ → s.bcr.csetTrial = true →
        s.boot.loading = none → s.boot.cleanup = false → at_ + tkS (s.fld F.cfgBootCfg_cset_confirm_s) < s.now → s.bcr.prev = some c →
      ∃ t, exec .csetConfirmTimeout s = .next t ∧ t.boot.loading = some c.slot ∧ t.boot.reverting = true ∧ t.op = .run) ∧
    (s.fabricOn = true → s.boot.cleanup = true → s.oldHeld = false →
      ∃ t, exec .epochCleanup s = .next t ∧ t.boot = { s.boot with cleanup := false } ∧ regsBut [.memFlipCtrl] s t ∧ t.op = s.op ∧
        (s.on F.memFlipCtrl_arm = false → tblWf s.net.tabs = true →
          (∀ m ∈ maskTabs, ∀ n, n < tabCount m.id →
            t.ent m.id 0 n = if m.used (s.ent m.id 0 n) ∧ m.mask (s.ent m.id 0 n) = epBit (s.epoch + 1) then tabDefault m.id
              else s.ent m.id 0 n) ∧
          (∀ id par n, (∀ m ∈ maskTabs, id ≠ m.id) → n < 262144 → t.ent id par n = s.ent id par n)))

/-- NVS_STORE_CMD.go (R414): a store into the USER region of a path's staging buffer is written, counted and reported OK; a mismatch is
reported and counted as a failure; a loss of power in it leaves each 64-bit word new or old, and leads to OFF; a host that names another region, and a length or offset out of range, change no byte of MRAM. -/
def Obligations.NvsStoreResults : Prop :=
  ∀ (s : State) (p : Path) (data : Word), s.servesReg p .nvsStoreCmd 0 = true → ¬(p = .fw ∧ s.pair.mode = .split) →
      F.nvsStoreCmd_go.of data = 1 →
    (F.nvsStoreCmd_region.of data = 7 → F.nvsStoreCmd_offset.of data % 8 = 0 → s.fld F.nvsStoreLen_len % 8 = 0 →
        8 ≤ s.fld F.nvsStoreLen_len → s.fld F.nvsStoreLen_len ≤ 1024 →
        F.nvsStoreCmd_offset.of data + s.fld F.nvsStoreLen_len ≤ 0x10000 →
      (∃ t, exec (.nvsStore p data .ok) s = .next t ∧ t.fld F.nvsStoreStat_result = 0 ∧ t.ctr .nvsStores 0 = s.ctr .nvsStores 0 + 1 ∧
        (∀ k, k < s.fld F.nvsStoreLen_len → tblGet t.mram.bytes 0 (0x38000 + F.nvsStoreCmd_offset.of data + k)
          = (s.winBytes p nvsWin (s.fld F.nvsStoreLen_len)).getD k 0) ∧
        (∀ a, (a < 0x38000 + F.nvsStoreCmd_offset.of data ∨ 0x38000 + F.nvsStoreCmd_offset.of data + s.fld F.nvsStoreLen_len ≤ a) →
          tblGet t.mram.bytes 0 a = tblGet s.mram.bytes 0 a) ∧
        keeps [.flash, .keys, .win, .net, .op] s t) ∧
      (∃ t, exec (.nvsStore p data .mismatch) s = .next t ∧ t.fld F.nvsStoreStat_result = 4 ∧
        t.ctr .nvsStoreFail 0 = s.ctr .nvsStoreFail 0 + 1) ∧
      (∀ new : BitVec 128, ∃ t, exec (.nvsStore p data (.cut new)) s = .next t ∧ t.op = .off ∧
        ∀ k, k < s.fld F.nvsStoreLen_len → tblGet t.mram.bytes 0 (0x38000 + F.nvsStoreCmd_offset.of data + k)
          = if new.getLsbD (k / 8) then (s.winBytes p nvsWin (s.fld F.nvsStoreLen_len)).getD k 0
            else tblGet s.mram.bytes 0 (0x38000 + F.nvsStoreCmd_offset.of data + k))) ∧
    (p ≠ .fw → F.nvsStoreCmd_region.of data ≠ 7 →
      ∃ t, exec (.nvsStore p data .ok) s = .next t ∧ t.fld F.nvsStoreStat_result = 3 ∧ keeps [.ctrs, .mram, .flash, .keys] s t) ∧
    (F.nvsStoreCmd_region.of data = 7 → F.nvsStoreCmd_offset.of data % 8 ≠ 0 →
      ∃ t, exec (.nvsStore p data .ok) s = .next t ∧ t.fld F.nvsStoreStat_result = 2 ∧ keeps [.ctrs, .mram, .flash, .keys] s t)

/-- The update commands (R416 to R422). OPEN opens a session for the slot that is not in use, or refuses it with the code of its reason;
CHUNK programs a new good chunk and marks it, and refuses one with a wrong CRC; ABORT of the owner ends the session; the end of a
verification reports its code; ARM arms a verified FWIM slot; CONFIRM makes the trial GOOD and primary; the idle time is stored. -/
def Obligations.UpdateSessions : Prop :=
  ∀ s : State,
    (∀ (p : Path) (data : Word), s.servesReg p .updCmd 0 = true → F.updCmd_go.of data = 1 →
      let o : UpdOwner := ⟨p != .fw, F.updCmd_source.of data⟩
      (F.updCmd_op.of data = 1 → fieldAt (s.winBytes p updWin 40) 32 1 = 1 → s.trialOf false = false →
          256 ≤ fieldAt (s.winBytes p updWin 40) 36 4 → fieldAt (s.winBytes p updWin 40) 36 4 ≤ (s.slotAt (1 - s.bcr.primary)).2 →
        (s.mram.session.live = false →
          ∃ t, exec (.updOpen p data) s = .next t ∧ t.fld F.updStat_result (updInst p) = 0 ∧
            t.mram.session = ⟨.receiving, false, o, [], (s.winBytes p updWin 40).take 32, fieldAt (s.winBytes p updWin 40) 36 4,
              1 - s.bcr.primary, [], 0⟩ ∧ t.idleS = 0 ∧ t.bcr = s.bcr.setSt (1 - s.bcr.primary) .receiving ∧ t.flash = s.flash) ∧
        (s.mram.session.live = true → s.mram.session.digest ≠ (s.winBytes p updWin 40).take 32 → s.idleS < 259200 →
          ∃ t, exec (.updOpen p data) s = .next t ∧ t.fld F.updStat_result (updInst p) = 1 ∧ keeps [.mram, .flash, .ctrs] s t)) ∧
      (F.updCmd_op.of data = 2 → s.mram.session.st = .receiving → s.mram.session.owner = o →
          F.updCmd_chunk.of data < (s.mram.session.size + 4095) / 4096 →
        (crc32c (s.winBytes p updWin 4096) = (s.rd .updArg (updInst p)).toNat →
            s.mram.session.bitmap.contains (F.updCmd_chunk.of data) = false →
          ∃ t, exec (.updChunk p data true) s = .next t ∧ t.fld F.updStat_result (updInst p) = 0 ∧
            t.mram.session.bitmap = F.updCmd_chunk.of data :: s.mram.session.bitmap ∧
            (t.mram.session.st = .verifying ↔ (s.mram.session.size + 4095) / 4096 ≤ s.mram.session.bitmap.length + 1) ∧
            t.ctr .updChunksOk 0 = s.ctr .updChunksOk 0 + 1 ∧
            (∀ k, k < 4096 → tblGet t.flash 0xFF ((s.slotAt s.mram.session.at_).1 + 4096 * F.updCmd_chunk.of data + k)
              = (s.winBytes p updWin 4096).getD k 0) ∧
            (∀ a, (a < (s.slotAt s.mram.session.at_).1 + 4096 * F.updCmd_chunk.of data ∨
                (s.slotAt s.mram.session.at_).1 + 4096 * F.updCmd_chunk.of data + 4096 ≤ a) →
              tblGet t.flash 0xFF a = tblGet s.flash 0xFF a)) ∧
        (crc32c (s.winBytes p updWin 4096) ≠ (s.rd .updArg (updInst p)).toNat →
          ∃ t, exec (.updChunk p data true) s = .next t ∧ t.fld F.updStat_result (updInst p) = 4 ∧
            t.ctr .updChunksFail 0 = s.ctr .updChunksFail 0 + 1 ∧ keeps [.mram, .flash] s t)) ∧
      (F.updCmd_op.of data = 3 →
        (s.mram.session.live = true → s.mram.session.owner = o →
          ∃ t, exec (.updAbort p data) s = .next t ∧ t.fld F.updStat_result (updInst p) = 0 ∧ t.mram.session.st = .aborted ∧
            t.mram.session.bitmap = [] ∧ t.flash = s.flash) ∧
        (s.mram.session.live = true → s.mram.session.owner ≠ o →
          ∃ t, exec (.updAbort p data) s = .next t ∧ t.fld F.updStat_result (updInst p) = 3 ∧ keeps [.mram, .flash] s t)) ∧
      (F.updCmd_op.of data = 4 → s.mram.session.cset = false → s.bcr.stA = .verified →
        ∃ t, exec (.updArm p data) s = .next t ∧ t.fld F.updStat_result (updInst p) = 0 ∧ t.bcr = { s.bcr with stA := .armed }) ∧
      (F.updCmd_op.of data = 5 → s.op = .run → s.boot.fwTrial = true → s.bcr.st s.boot.runSlot = .trial →
        ∃ t, exec (.updConfirm p data) s = .next t ∧ t.fld F.updStat_result (updInst p) = 0 ∧ t.boot.fwTrial = false ∧
          t.bcr.st s.boot.runSlot = .good ∧ t.bcr.primary = s.boot.runSlot ∧ t.bcr.fsc = 0 ∧
          t.bcr.secMin = max s.bcr.secMin s.boot.fwimSec)) ∧
    (s.fabricOn = true → s.mram.session.st = .verifying →
      (s.updCheck s.mram.session = 0 →
        ∃ t, exec .updVerifyComplete s = .next t ∧ t.mram.session.bitmap = [] ∧ t.flash = s.flash ∧ t.mram.session.st = .verified ∧
          t.ctrs = s.ctrs) ∧
      (s.updCheck s.mram.session ≠ 0 →
        ∃ t, exec .updVerifyComplete s = .next t ∧ t.mram.session.bitmap = [] ∧ t.flash = s.flash ∧ t.mram.session.st = .failed ∧
          t.ctr .updSessionsFail 0 = s.ctr .updSessionsFail 0 + 1)) ∧
    (s.op ≠ .off → s.mram.session.idle + 3600 ≤ s.idleS →
      ∃ t, exec .updIdleStore s = .next t ∧ t.mram.session = { s.mram.session with idle := s.idleS } ∧ t.idleS = s.idleS ∧ t.bcr = s.bcr)

/-! ## Frames through the switch (chapters 02, 06, 10, 16) -/

/-- A start delimiter at a port that is up begins a reception, with the tick, the maximum length and the cut-through setting of its
first byte (R41, R47); an SMD-S begins one beside it where preemption is enabled (R241). No register and no counter changes where no
frame is in reception there; one that is has a receive error, which an SMD-S counts as an assembly error too.
The checks of R41, in their order, on a frame that ends before its lookup, as RX_LOOKUP_START or RX_FRAME_END brings it: a receive
error, a length above the maximum, one below 64 bytes and a wrong FCS each count one drop of their cause and admit nothing; a good
frame takes the next classification ordinal. The 128th byte starts the lookup of a frame that still arrives. -/
def Obligations.FramesAreReceivedAndChecked : Prop :=
  (∀ (s : State) (p : Fin 16) (frac : Fin 8) (smdS : Bool), s.forwards = true → s.linkUp p = true →
      (smdS = true → s.on F.tgaPreemptCfg_en p = true) →
    ((s.port p).reception smdS = none →
    ∃ t r, exec (.rxFrameStart p frac smdS) s = .next t ∧ (t.port p).reception smdS = some r ∧ r.atTick = s.tim.lt ∧ r.frac = frac ∧
      r.doms = s.domVals ∧ r.maxLen = s.fld F.macMaxFrame_max_len p ∧ r.ctRx = s.on F.macFwdCtrl_ct_rx_en p ∧ r.got = [] ∧ r.frm = none ∧ r.past = false ∧
      (t.port p).reception (!smdS) = (s.port p).reception (!smdS) ∧ (∀ q, q ≠ p.val → t.port q = s.port q) ∧
      keeps [.regs, .ctrs, .tim, .mem, .mqs, .op, .mram] s t) ∧
    ((s.port p).reception smdS ≠ none →
      ∃ t r, exec (.rxFrameStart p frac smdS) s = .next t ∧ (t.port p).reception smdS = some r ∧ r.got = [] ∧ r.frm = none ∧
        t.ctr .macDropRxerr p = s.ctr .macDropRxerr p + 1 ∧
        t.ctr .tgaRxAssyErr p = s.ctr .tgaRxAssyErr p + (if smdS then 1 else 0))) ∧
  (∀ (s : State) (p : Fin 16) (pre : Bool) (r : RxSt) (bs : List Byte), (s.port p).reception pre = some r → r.frm = none → r.hold = none →
      r.gone = false → r.past = false → s.pairOn p = false →
    (∀ (tail : RxTail) (c : Ctr), r.got = [] →
        (tail.err = true ∧ c = .macDropRxerr ∨
          tail.err = false ∧ r.maxLen < bs.length + 4 ∧ c = .macDropOversize ∨
          tail.err = false ∧ bs.length + 4 ≤ r.maxLen ∧ bs.length + 4 < 64 ∧ c = .macDropRunt ∨
          tail.err = false ∧ bs.length + 4 ≤ r.maxLen ∧ 64 ≤ bs.length + 4 ∧ tail.fcs.toNat ≠ crc32 bs ∧ c = .macDropFcs) →
      exec (.rxLookupStart p pre bs (some tail)) s = .next ((s.setRx p pre none).bump c p)) ∧
    (∀ (tail : RxTail) (c : Ctr), r.frags = 0 →
        (tail.err = true ∧ c = .macDropRxerr ∨
          tail.err = false ∧ r.maxLen < (r.got ++ bs).length + 4 ∧ c = .macDropOversize ∨
          tail.err = false ∧ (r.got ++ bs).length + 4 ≤ r.maxLen ∧ (r.got ++ bs).length + 4 < 64 ∧ c = .macDropRunt ∨
          tail.err = false ∧ (r.got ++ bs).length + 4 ≤ r.maxLen ∧ 64 ≤ (r.got ++ bs).length + 4 ∧
            tail.fcs.toNat ≠ crc32 (r.got ++ bs) ∧ c = .macDropFcs) →
      exec (.rxFrameEnd p pre bs tail) s = .next ((s.setRx p pre none).bump c p)) ∧
    (∀ tail : RxTail, s.secyRx p = false → r.got = [] → tail.err = false → bs.length + 4 ≤ r.maxLen → 64 ≤ bs.length + 4 →
        tail.fcs.toNat = crc32 bs →
      ∃ t, exec (.rxLookupStart p pre bs (some tail)) s = .next t ∧ t.net.ord = s.net.ord + 1) ∧
    (s.secyRx p = false → r.got = [] → bs.length < 128 →
      ∃ t, exec (.rxLookupStart p pre bs none) s = .next t ∧ t.net.ord = s.net.ord ∧
        (t.port p).reception pre = some { r with got := bs }) ∧
    (s.secyRx p = false → r.got = [] → 128 ≤ bs.length →
      ∃ t, exec (.rxLookupStart p pre bs none) s = .next t ∧ t.net.ord = s.net.ord + 1 ∧
        (t.port p).reception pre = some { r with got := bs, frm := some s.net.nextF }) ∧
    (r.maxLen ≤ (r.got ++ bs).length →
      exec (.rxOversizeDetected p pre bs) s =
        .next (s.setRx p pre (some { r with past := true, got := (r.got ++ bs).take r.maxLen })).marks))

/-- A frame whose lookup has begun (R41 to R44): byte max_len + 1 marks it bad; its end counts the cause of R41 that holds, or completes
it, and ends its reception. -/
def Obligations.FrameEndsInThePipeline : Prop :=
  ∀ (s : State) (p : Fin 16) (pre : Bool) (r : RxSt) (i : Nat) (rest : List Byte), (s.port p).reception pre = some r → r.frm = some i →
      r.past = false → (s.frm i).inRx = true → (s.frm i).bad = false → r.strip = none → r.frags = 0 →
    (r.maxLen ≤ (r.got ++ rest).length →
      ∃ t, exec (.rxOversizeDetected p pre rest) s = .next t ∧ (t.frm i).bad = true ∧ (t.frm i).inRx = true ∧
        t.net.ord = s.net.ord) ∧
    (∃ t, exec (.rxFrameEnd p pre rest ⟨true, 0⟩) s = .next t ∧ t.ctr .macDropRxerr p = s.ctr .macDropRxerr p + 1 ∧
      (t.frm i).inRx = false) ∧
    ((r.got ++ rest).length + 4 ≤ r.maxLen → 64 ≤ (r.got ++ rest).length + 4 →
      ∃ t, exec (.rxFrameEnd p pre rest ⟨false, BitVec.ofNat 32 (crc32 (r.got ++ rest))⟩) s = .next t ∧ (t.frm i).inRx = false ∧
        ((t.frm i).refs ≠ 0 → (t.frm i).tail = true) ∧ (∀ c ∈ [Ctr.macDropRxerr, .macDropOversize, .macDropRunt, .macDropFcs],
          t.ctr c p = s.ctr c p))

/-- Continuation fragments join a preempted frame in order, and a break of the order is a receive error (R241), and the 128th byte of such a frame starts its lookup (R34). The ICV check of the oldest
held frame drops it at a poisoned word (R279), and passes or drops it as the SecY decides (R277). A frame of the control pair or of a
transmit ring enters the pipeline when R41 lets it, and the ring's descriptors are written back with its status (R441, R443). -/
def Obligations.FragmentsHeldAndInnerFrames : Prop :=
  ∀ s : State,
    (∀ p : Fin 16, s.linkUp p = true → s.on F.tgaPreemptCfg_en p = true →
      exec (.rxContinuationFragment p .unknownSmd) s = .next (s.bump .tgaRxSmdErr p) ∧
      (∀ (r : RxSt) (count : Fin 4) (bytes : List Byte), (s.port p).rxp = some r → r.frm = none → r.past = false →
        (count.val = r.frags % 4 → (r.got ++ bytes).length < 128 → (r.got ++ bytes).length ≤ r.maxLen →
          ∃ t, exec (.rxContinuationFragment p (.cont count bytes true)) s = .next t ∧
            (t.port p).rxp = some { r with frags := r.frags + 1, got := r.got ++ bytes } ∧
            t.ctr .tgaRxFrags p = s.ctr .tgaRxFrags p + 1 ∧
            regsBut [.qmgPoolHwm, .qmgSharedHwm, .qmgPortHwm, .hrbHwm] s t) ∧
        (count.val = r.frags % 4 → 128 ≤ (r.got ++ bytes).length → bytes ≠ [] → (r.got ++ bytes).length ≤ r.maxLen → r.hold = none →
            r.gone = false → s.secyRx p = false → s.pairOn p = false →
          ∃ t, exec (.rxContinuationFragment p (.cont count bytes true)) s = .next t ∧ t.net.ord = s.net.ord + 1 ∧
            (t.port p).rxp = some { r with frags := r.frags + 1, got := r.got ++ bytes, frm := some s.net.nextF }) ∧
        (∀ good, count.val ≠ r.frags % 4 ∨ good = false →
          ∃ t, exec (.rxContinuationFragment p (.cont count bytes good)) s = .next t ∧ (t.port p).rxp = none ∧
            t.ctr .tgaRxAssyErr p = s.ctr .tgaRxAssyErr p + 1 ∧ t.ctr .macDropRxerr p = s.ctr .macDropRxerr p + 1) ∧
        ((r.got ++ bytes).length < 128 → (r.got ++ bytes).length ≤ r.maxLen →
          ∃ t, exec (.rxContinuationFragment p (.first bytes)) s = .next t ∧
            (t.port p).rxp = some { r with got := r.got ++ bytes } ∧ t.ctr .tgaRxFrags p = s.ctr .tgaRxFrags p) ∧
        (∃ t, exec (.rxContinuationFragment p .firstBad) s = .next t ∧ (t.port p).rxp = none ∧
          t.ctr .tgaRxAssyErr p = s.ctr .tgaRxAssyErr p + 1 ∧ t.ctr .macDropRxerr p = s.ctr .macDropRxerr p + 1))) ∧
    (∀ (p : Fin 18) (h : HeldFrm) (rest : List HeldFrm) (x : Nat × Nat × List Byte), s.fabricOn = true → (s.port p).held = h :: rest →
        h.rx.hold = some x → s.memClean = true →
      (∀ (a : BitVec 24) (y : Byte), ∃ t, exec (.macsecIcvCheckDone p a (.double y)) s = .next t ∧ (t.port p).held = rest ∧
        t.ctr .cipVbPoison 0 = s.ctr .cipVbPoison 0 + 1 ∧ t.net.ord = s.net.ord) ∧
      (∃ t, exec (.macsecIcvCheckDone p 0 .none) s = .next t ∧ t.net.ord =
        if ((s.setPort p { s.port p with held := rest }).secyCheck p x.1 x.2.1 x.2.2 h.bytes).2.isSome then s.net.ord + 1
        else s.net.ord)) ∧
    (∀ (ts : Bool) (bs : List Byte), s.forwards = true → s.pair.halted = false → s.secyRx 17 = false →
      (64 ≤ bs.length + 4 → bs.length + 4 ≤ s.fld F.macMaxFrame_max_len 17 →
        ∃ t, exec (.controlPortFrameIn ts bs) s = .next t ∧ t.net.ord = s.net.ord + 1) ∧
      (bs.length + 4 < 64 → bs.length + 4 ≤ s.fld F.macMaxFrame_max_len 17 →
        exec (.controlPortFrameIn ts bs) s = .next (s.bump .macDropRunt 17))) ∧
    (∀ (r : Fin 8) (n : BitVec 12) (ts : Bool) (bs : List Byte), s.forwards = true → s.ringRuns false r = true → 0 < n.toNat →
        n.toNat ≤ s.ringAvail false r → s.linkUp 16 = true →
        s.fld F.hbrTxRingCfg_size_log r ≤ 12 →
      let eop := (s.fld F.hbrTxRingHead_head r + n.toNat - 1) % 2 ^ s.fld F.hbrTxRingCfg_size_log r
      (64 ≤ bs.length + 4 → bs.length + 4 ≤ s.fld F.macMaxFrame_max_len 16 →
        ∃ t, exec (.dmaTxFetchDone r n ts bs false) s = .next t ∧ t.net.ord = s.net.ord + 1 ∧ Out.txDesc r eop (some 0) ∈ t.out ∧
          t.fld F.hbrTxRingHead_head r = (s.fld F.hbrTxRingHead_head r + n.toNat) % 2 ^ s.fld F.hbrTxRingCfg_size_log r) ∧
      (s.fld F.macMaxFrame_max_len 16 < bs.length + 4 →
        ∃ t, exec (.dmaTxFetchDone r n ts bs false) s = .next t ∧ t.net.ord = s.net.ord ∧ Out.txDesc r eop (some 2) ∈ t.out ∧
          t.ctr .macDropOversize 16 = s.ctr .macDropOversize 16 + 1) ∧
      (∃ t, exec (.dmaTxFetchDone r n ts bs true) s = .next t ∧ t.net.ord = s.net.ord ∧ Out.txDesc r eop (some 4) ∈ t.out ∧
        t.ringRuns false r = false ∧ t.ctr .hbrDmaErr 0 = s.ctr .hbrDmaErr 0 + 1))

/-- At an opportunity of an idle port the one eligible copy of a class queue begins: it leaves its queue and is in transmission in
the MAC of its class (R181, R240). The end of a whole copy sends its bytes with their FCS, counts it and frees the MAC (R44, R182). -/
def Obligations.CopiesBeginAndEnd : Prop :=
  ∀ (s : State) (p : Fin 18) (frac : Fin 8), s.forwards = true →
    (∀ c : Copy, s.linkUp p = true → s.quiet = false → s.pairOn p = false → s.plcaHeld p = false → s.segBusy p = false →
        (s.port p).exp = none → (s.port p).pre = none →
        s.heads p = [c] → c.port = p → c.q < 144 → s.eligibleCopy c = true → s.secyTx p = false → s.memClean = true →
      ∃ t tc, exec (.txOpportunity p frac .clean) s = .next t ∧ t.queue c.q = (s.queue c.q).drop 1 ∧
        (if s.express p c.cls then (t.port p).exp = some tc ∧ (t.port p).pre = none
          else (t.port p).pre = some tc ∧ (t.port p).exp = none) ∧
        tc.cp = c ∧ tc.atTick = s.tim.lt ∧ tc.sent = 0 ∧ tc.stomp = none) ∧
    (s.linkUp p = true → s.quiet = false → s.plcaHeld p = false → s.heads p = [] → (s.port p).pre = none → (s.port p).exp = none →
      exec (.txOpportunity p frac .clean) s = .next s) ∧
    (∀ tc : TxCopy, p.val < 16 → s.lanesOff p = false → (s.port p).exp = some tc → (s.port p).pre = none → tc.cp.port = p → tc.stomp = none → tc.pn = none →
        (s.frm tc.cp.frm).tail = true → (s.frm tc.cp.frm).leg = none →
      ∃ t, exec (.txCopyEnd p true frac none) s = .next t ∧ (t.port p).exp = none ∧
        Out.eth p (withFcs false (s.copyBytes (s.frm tc.cp.frm) tc.cp.xf)) .complete ∈ t.out ∧
        t.ctr .qmgQTx tc.cp.q = s.ctr .qmgQTx tc.cp.q + 1)

/-- Preemption. A verify mPacket is answered, and its answer makes preemption active; the timer sends up to three and then reports a
failure (R238). A fragment of a copy that is to be cut ends at the first legal cut point (R239), and its bytes leave. A
copy that started under R234 is cut by the hold before its gate closes, or stays paused, until its gate next opens. -/
def Obligations.PreemptionProtocol : Prop :=
  ∀ (s : State) (p : Fin 16),
    (s.fabricOn = true → s.quiet = false → (s.port p).ver.status = 2 → (s.port p).ver.since + tkMs (s.fld F.tgaPreemptCfg_verify_ms p) ≤ s.tim.lt →
      ∃ t, exec (.verifyMpacketTimer p) s = .next t ∧ t.regs = s.regs ∧
        if (s.port p).ver.attempts < 3 then
          (t.port p).ver = ⟨2, false, (s.port p).ver.attempts + 1, s.tim.lt⟩ ∧ t.out = .mpacket p false :: s.out
        else (t.port p).ver = { (s.port p).ver with status := 4 } ∧ t.out = s.out) ∧
    (s.fabricOn = true → s.linkUp p = true → s.on F.tgaPreemptCfg_en p = true → s.quiet = false →
      exec (.verifyMpacketRx p) s = .next (s.emit (.mpacket p true))) ∧
    (s.fabricOn = true → s.linkUp p = true → (s.port p).ver.status = 2 →
      ∃ t, exec (.respondMpacketRx p) s = .next t ∧ (t.port p).ver = { (s.port p).ver with status := 3, active := true } ∧
        keeps [.regs, .ctrs, .tim, .mem] s t) ∧
    (∀ (tc : TxCopy) (asked : Nat) (sent : BitVec 14) (frac : Fin 8), s.forwards = true → (s.port p).pre = some tc →
        (s.port p).exp = none → (s.port p).ver.active = true → tc.cut = some asked → tc.paused = false →
        s.lanesOff p = false → sent.toNat = max asked (60 + 64 * s.fld F.tgaPreemptCfg_add_frag_size p) → tc.sent + sent.toNat + 64 ≤ s.txLen tc →
      ∃ t, exec (.fragmentEnd p sent frac []) s = .next t ∧
        (t.port p).pre = some { tc with paused := true, sent := tc.sent + sent.toNat } ∧ t.ctrs = s.ctrs ∧
        t.out = .fragment p (if tc.frags = 0 then none else some ((tc.frags - 1) % 4))
          (((s.wireBytes tc).take (tc.sent + sent.toNat)).drop tc.sent) :: s.out) ∧
    (∀ (tc : TxCopy) (e : Int), s.forwards = true → (s.port p).pre = some tc → (s.port p).ver.active = true → tc.under = true →
        tc.hold = none → s.gateOpen p tc.cp.cls = true → (s.tideView p).closing tc.cp.cls (s.tideNow p) = some e →
        slack (s.tideVal p) (s.holdBytes p) (s.operRate p) e ≤ 0 →
      ∃ t, exec (.preemptHold p) s = .next t ∧ t.ctr .tgaTxHold p = s.ctr .tgaTxHold p + 1 ∧
        (t.port p).pre = some { tc with
          hold := some (s.tideNow p)
          cut := if tc.paused || tc.cut.isSome then tc.cut else some (s.fragSent p tc) })

/-- A link comes up on an enabled port whose PLL has locked, in a mode that R461 allows, and LINK_CHANGE rises; when it goes down its
port transmits nothing any more (R46, R174). A fence limit that has passed drops the older-epoch copies of its port alone and counts
them (R57). The cell audit gives each frame the references that its holders have, and the cells of one that nothing holds return to the free pool; it
leaves every register and counter alone (R370). -/
def Obligations.LinksFencesAndAudit : Prop :=
  ∀ s : State, s.fabricOn = true →
    (∀ (p : Fin 16) (m : BitVec 4) (fast : Bool), s.linkUp p = false → s.on F.macPortCfg_en p = true →
        s.phys.phyLock.contains p.val = true → s.pair.safe = none → s.modeOk p m.toNat = true →
      ∃ t, exec (.linkUp p m fast) s = .next t ∧ t.linkUp p = true ∧ t.fld F.macPortStat_oper_mode p = m.toNat ∧
        getBit (t.rd .evtStat (Ev.linkChange p / 32)) (Ev.linkChange p % 32) = true) ∧
    (∀ (p : Fin 16) (rest : List Byte), s.linkUp p = true →
      ∃ t, exec (.linkDown p rest) s = .next t ∧ t.linkUp p = false ∧ (t.port p).exp = none ∧ (t.port p).pre = none ∧
        getBit (t.rd .evtStat (Ev.linkChange p / 32)) (Ev.linkChange p % 32) = true) ∧
    (∀ (p : Fin 18) (x : Fence), s.net.fences.find? (fun y => y.port == p.val) = some x →
        x.since + tkUs (s.fld F.cfgSwapFenceLim_limit_us) ≤ s.tim.lt →
      ∃ t, exec (.fenceLimitExpiry p) s = .next t ∧ t.regs = s.regs ∧
        t.ctr .macDropFence p = s.ctr .macDropFence p +
          BitVec.ofNat 64 ((s.waitingAt p).filter fun c => c.epoch != x.epoch).length) ∧
    (∃ t, exec .cellAudit s = .next t ∧ keeps [.regs, .ctrs, .tim, .mem, .mqs, .op, .hbr] s t ∧ t.out = s.out ∧
      (tblWf s.net.frames = true → ∀ i f, tblFind s.net.frames i = some f → f.inRx = false →
        (s.holders i = 0 → tblFind t.net.frames i = none) ∧
        (s.holders i ≠ 0 → tblFind t.net.frames i = some { f with refs := s.holders i })))

/-! ## Limits, shapers and meters (chapter 06) -/

/-- A change of a limit applies, and one that would overcommit the pool is ignored with ACCESS_ERR (R175). host_en takes P16 up and down
and raises LINK_CHANGE (R174). A write to a high-water register loads the present occupancy (R177). -/
def Obligations.LimitsAndHighWaterMarks : Prop :=
  ∀ (s : State) (path : Path),
    (∀ (q : Fin 1168) (data : Word), let r := qReg q .qmgQLim .qmgSLim
        s.servesReg path r.1 r.2 = true → 8 ≤ F.qmgQLim_limit.of data →
      (s.sumMin - s.qMin q + F.qmgQLim_min.of data + 512 + s.fld F.skyCellLim_limit ≤ 65536 →
        ∃ t, exec (.queueLimitWrite path .queueLimit q data) s = .next t ∧ t.rd r.1 r.2 = data ∧
          regsBut [r.1, .qmgPoolHwm, .qmgSharedHwm, .qmgPortHwm, .hrbHwm] s t ∧ t.ctrs = s.ctrs) ∧
      (65536 < s.sumMin - s.qMin q + F.qmgQLim_min.of data + 512 + s.fld F.skyCellLim_limit →
        ∃ t, exec (.queueLimitWrite path .queueLimit q data) s = .next t ∧ regsBut eventRegs s t ∧
          getBit (t.rd .evtStat (Ev.accessErr .qmg / 32)) (Ev.accessErr .qmg % 32) = true)) ∧
    (∀ (q : Fin 1168) (data : Word), let r := qReg q .qmgQCol .qmgSCol
        s.servesReg path r.1 r.2 = true →
      ∃ t, exec (.queueLimitWrite path .queueColour q data) s = .next t ∧ t.rd r.1 r.2 = data ∧ regsBut [r.1] s t ∧ t.ctrs = s.ctrs) ∧
    (∀ (i : Fin 1168) (data : Word), i.val % 18 ≠ 16 → s.servesReg path .qmgPortLim (i.val % 18) = true →
        8 ≤ F.qmgPortLim_limit.of data → F.qmgPortLim_limit.of data ≤ 65536 →
      ∃ t, exec (.queueLimitWrite path .port i data) s = .next t ∧ t.fld F.qmgPortLim_limit (i.val % 18) = F.qmgPortLim_limit.of data ∧
        t.on F.qmgPortLim_host_en (i.val % 18) = false ∧ regsBut [.qmgPortLim] s t ∧ t.ctrs = s.ctrs) ∧
    (∀ (i : Fin 1168) (data : Word), s.servesReg path .skyCellLim 0 = true → 64 ≤ F.skyCellLim_limit.of data →
        F.skyCellLim_limit.of data ≤ 32768 →
      (s.sumMin + 512 + F.skyCellLim_limit.of data ≤ 65536 →
        ∃ t, exec (.queueLimitWrite path .skyCells i data) s = .next t ∧ t.fld F.skyCellLim_limit = F.skyCellLim_limit.of data ∧
          regsBut [.skyCellLim] s t ∧ t.ctrs = s.ctrs) ∧
      (65536 < s.sumMin + 512 + F.skyCellLim_limit.of data →
        ∃ t, exec (.queueLimitWrite path .skyCells i data) s = .next t ∧ regsBut eventRegs s t ∧
          getBit (t.rd .evtStat (Ev.accessErr .sky / 32)) (Ev.accessErr .sky % 32) = true)) ∧
    (∀ data : Word, s.servesReg path .qmgPortLim 16 = true → 8 ≤ F.qmgPortLim_limit.of data → F.qmgPortLim_limit.of data ≤ 65536 →
      (s.linkUp 16 = false → F.qmgPortLim_host_en.of data = 1 →
        ∃ t, exec (.hostEnWrite path data) s = .next t ∧ t.linkUp 16 = true ∧
          t.fld F.qmgPortLim_limit 16 = F.qmgPortLim_limit.of data ∧
          getBit (t.rd .evtStat (Ev.linkChange 16 / 32)) (Ev.linkChange 16 % 32) = true) ∧
      (s.linkUp 16 = true → F.qmgPortLim_host_en.of data = 0 →
        ∃ t, exec (.hostEnWrite path data) s = .next t ∧ t.linkUp 16 = false ∧
          getBit (t.rd .evtStat (Ev.linkChange 16 / 32)) (Ev.linkChange 16 % 32) = true)) ∧
    (∀ (p : Fin 18) (data : Word),
      (s.servesReg path .qmgPoolHwm 0 = true → s.poolUsed ≤ 65536 →
        ∃ t, exec (.hwmWrite path .pool p data) s = .next t ∧ t.fld F.qmgPoolHwm_hwm = s.poolUsed ∧ regsBut [.qmgPoolHwm] s t) ∧
      (s.servesReg path .qmgSharedHwm 0 = true → s.sharedUsed ≤ 65536 →
        ∃ t, exec (.hwmWrite path .shared p data) s = .next t ∧ t.fld F.qmgSharedHwm_hwm = s.sharedUsed ∧ regsBut [.qmgSharedHwm] s t) ∧
      (s.servesReg path .qmgPortHwm p = true → s.occPort p ≤ 65536 →
        ∃ t, exec (.hwmWrite path .port p data) s = .next t ∧ t.fld F.qmgPortHwm_hwm p = s.occPort p ∧ regsBut [.qmgPortHwm] s t))

/-- A new rate of an enabled bucket keeps its level, debt included, and enabling starts it full; a new depth clamps a level above it
(R183). A change of idle_kbps keeps the credit (R185). A meter write that lowers a burst size clamps the level, and any other keeps it
(R192). A queue whose starvation timer has reached max_wait_us becomes urgent (R188). -/
def Obligations.ShaperAndMeterParameters : Prop :=
  ∀ (s : State) (path : Path),
    (∀ (q : Fin 1168) (data : Word), let r := qReg q .schTbRate .schSTbRate
        s.servesReg path r.1 r.2 = true →
      (s.tbOn q = true → F.schTbRate_en.of data = 1 →
        ∃ t, exec (.shaperRateWrite path q data) s = .next t ∧ t.tbLevel q = s.tbLevel q ∧ t.tbOn q = true ∧
          t.qFld q F.schTbRate_rate_kbps F.schSTbRate_rate_kbps = F.schTbRate_rate_kbps.of data) ∧
      (s.tbOn q = false → F.schTbRate_en.of data = 1 →
        ∃ t, exec (.shaperRateWrite path q data) s = .next t ∧ t.tbOn q = true ∧ t.tbLevel q = t.tbFull q)) ∧
    (∀ (q : Fin 1168) (data : Word), let r := qReg q .schTbDepth .schSTbDepth
        s.servesReg path r.1 r.2 = true → s.tbOn q = true →
      ∃ t, exec (.shaperDepthWrite path q data) s = .next t ∧ t.tbFull q = F.schTbDepth_depth.of data * unitB ∧
        t.tbLevel q = min (s.tbLevel q) (t.tbFull q)) ∧
    (∀ (q : Fin 144) (data : Word), s.servesReg path .schCbsSlope q = true →
      ∃ t, exec (.cbsSlopeWrite path q data) s = .next t ∧ t.fld F.schCbsSlope_idle_kbps q = F.schCbsSlope_idle_kbps.of data ∧
        t.credit q = (if s.on F.schCbsSlope_en q ∧ F.schCbsSlope_en.of data = 1 then s.credit q else 0)) ∧
    (∀ (m : BitVec 11) (data : Word), s.servesReg path .mtrCbs m.toNat = true → s.on F.mtrCtrl_en m.toNat = true →
      ∃ t, exec (.meterParamWrite path m 3 data) s = .next t ∧ t.fld F.mtrCbs_cbs m.toNat = F.mtrCbs_cbs.of data ∧
        t.mtrLevel m.toNat = (min (s.mtrLevel m.toNat).1 (F.mtrCbs_cbs.of data * unitB), min (s.mtrLevel m.toNat).2 (s.mtrFull m.toNat).2)) ∧
    (∀ (m : BitVec 11) (data : Word), s.servesReg path .mtrEbs m.toNat = true → s.on F.mtrCtrl_en m.toNat = true →
      ∃ t, exec (.meterParamWrite path m 4 data) s = .next t ∧ t.fld F.mtrEbs_ebs m.toNat = F.mtrEbs_ebs.of data ∧
        t.mtrLevel m.toNat = (min (s.mtrLevel m.toNat).1 (s.mtrFull m.toNat).1, min (s.mtrLevel m.toNat).2 (F.mtrEbs_ebs.of data * unitB))) ∧
    (∀ (m : BitVec 11) (data : Word), s.on F.mtrCtrl_en m.toNat = true → (s.mtrLevel m.toNat).1 ≤ (s.mtrFull m.toNat).1 →
        (s.mtrLevel m.toNat).2 ≤ (s.mtrFull m.toNat).2 →
      (s.servesReg path .mtrCtrl m.toNat = true → F.mtrCtrl_en.of data = 1 →
        ∃ t, exec (.meterParamWrite path m 0 data) s = .next t ∧ t.on F.mtrCtrl_en m.toNat = true ∧
          t.mtrLevel m.toNat = s.mtrLevel m.toNat) ∧
      (s.servesReg path .mtrCir m.toNat = true →
        ∃ t, exec (.meterParamWrite path m 1 data) s = .next t ∧ t.fld F.mtrCir_cir m.toNat = F.mtrCir_cir.of data ∧
          t.mtrLevel m.toNat = s.mtrLevel m.toNat) ∧
      (s.servesReg path .mtrPir m.toNat = true →
        ∃ t, exec (.meterParamWrite path m 2 data) s = .next t ∧ t.fld F.mtrPir_pir m.toNat = F.mtrPir_pir.of data ∧
          t.mtrLevel m.toNat = s.mtrLevel m.toNat)) ∧
    (∀ q : Fin 144, s.fld F.schMaxwait_max_wait_us q ≠ 0 → tkUs (s.fld F.schMaxwait_max_wait_us q) ≤ (s.qs q).timer →
        (s.qs q).urgent = false →
      ∃ t, exec (.starvationTimeout q) s = .next t ∧ t.qs q = { s.qs q with urgent := true, urgAt := s.tim.lt } ∧
        (∀ k, k ≠ q.val → t.qs k = s.qs k) ∧ keeps [.regs, .ctrs, .tim] s t)

/-! ## Tide tables and stream gates (chapter 08) -/

/-- A commit of allowed admin values starts a takeover at its change time, and one that is not allowed is ignored with ACCESS_ERR
(R226, R227). cancel discards what is pending (R229). At the change time the pending schedule becomes the operational one, and the admin
values stay closed for 4 us (R228, R229), until the copy-back ends; at the end of a window the entry in force is that of the domain time
(R225).
Stream gates (R190): a commit of allowed admin values starts a takeover at the change time; at that time the list becomes the
operational one, and at the end of a window the entry of the domain time comes into force. -/
def Obligations.TideTablesAndStreamGates : Prop :=
  (∀ (s : State) (p : Fin 16),
    (∀ (path : Path) (data : Word), s.servesReg path .tgaCfg p = true → (s.tide p).pend = none → F.tgaCfg_commit.of data = 1 →
        s.mem.merge = [] → F.tgaCfg_cancel.of data = 0 → F.tgaCfg_dom.of data = s.fld F.tgaCfg_dom p →
      (s.schedOk (s.fld F.tgaAdminLen_list_len p) (s.tideAdmin p) = true →
        ∃ t, exec (.tideCommit path p data) s = .next t ∧ (t.tide p).pend = some (s.tideAdmin p, s.changeTime (s.tideAdmin p)) ∧
          (t.tide p).run = (s.tide p).run ∧ t.on F.tgaCfg_en p = (F.tgaCfg_en.of data == 1) ∧
          t.ptpRead .tgaChangeTime (3 * p) = ptpOf (s.changeTime (s.tideAdmin p))) ∧
      (s.schedOk (s.fld F.tgaAdminLen_list_len p) (s.tideAdmin p) = false →
        ∃ t, exec (.tideCommit path p data) s = .next t ∧ (t.tide p).pend = none ∧
          getBit (t.rd .evtStat (Ev.accessErr .tga / 32)) (Ev.accessErr .tga % 32) = true)) ∧
    (∀ (path : Path) (data : Word), s.servesReg path .tgaCfg p = true → F.tgaCfg_cancel.of data = 1 → F.tgaCfg_commit.of data = 0 →
        F.tgaCfg_dom.of data = s.fld F.tgaCfg_dom p →
      ∃ t, exec (.tideCancel path p data) s = .next t ∧ t.tide p = { s.tide p with pend := none }) ∧
    (∀ (q : Sched) (c : Nat), s.fabricOn = true → (s.tide p).pend = some (q, c) → s.due (s.tide p) = true →
      ∃ t, exec (.tideTakeover p) s = .next t ∧ (t.tide p).run = some q ∧ (t.tide p).pend = none ∧
        (t.tide p).busy = some (s.tim.lt + tkUs 4) ∧ t.tideClosed (t.tide p) = true ∧
        getBit (t.rd .evtStat (Ev.tideTakeover p / 32)) (Ev.tideTakeover p % 32) = true) ∧
    (∃ t, exec (.tideBusyEnd p) s = .next t ∧ t.tide p = { s.tide p with busy := none } ∧ t.regs = s.regs) ∧
    (s.fabricOn = true → s.memClean = true →
      ∃ t, exec (.tideEntryChange p) s = .next t ∧ t.tide p = s.refresh (s.tide p) ∧
        (∀ q, q ≠ p.val → t.tide q = s.tide q) ∧ keeps [.regs, .ctrs, .tim, .mem] s t)) ∧
  (∀ (s : State) (g : Fin 256),
    (∀ (path : Path) (data : Word) (r : Sched), s.servesReg path .schGateCfg g = true → (s.gate g).pend = none → s.mem.merge = [] →
        F.schGateCfg_commit.of data = 1 → F.schGateCfg_domain.of data = s.fld F.schGateCfg_domain g → s.gateAdmin g = some r →
        s.schedOk (s.fld F.schGateList_list_len g) r = true →
      ∃ t, exec (.streamGateCommit path g data) s = .next t ∧ t.gate g = { s.gate g with pend := some (r, s.changeTime r) } ∧
        t.on F.schGateCfg_en g = (F.schGateCfg_en.of data == 1)) ∧
    (∀ (q : Sched) (c : Nat), s.fabricOn = true → (s.gate g).pend = some (q, c) → s.due (s.gate g) = true →
      ∃ t, exec (.streamGateTakeover g) s = .next t ∧ (t.gate g).run = some q ∧ (t.gate g).pend = none ∧
        (t.gate g).busy = some (s.tim.lt + tkUs 4) ∧ regsBut [.schGateOper0, .schGateOper1, .schGateOper] s t) ∧
    (s.fabricOn = true →
      ∃ t, exec (.streamGateEntryChange g) s = .next t ∧ t.gate g = s.refresh (s.gate g) ∧
        (∀ k, k ≠ g.val → t.gate k = s.gate k) ∧ keeps [.regs, .ctrs, .tim, .mem] s t))

/-! ## Classifier tables and connections (chapter 03) -/

/-- INSERT stores the staged rule in a free entry of its bank with a hit counter of zero, or answers EXISTS or FULL; DELETE removes the
entry with the staged key, profile and mask; READ stages the entry; SET_ACTION and SET_EPOCH change words 13 and 14, or ep_mask; FLUSH
deletes every connection. A reserved table code is BAD_ARG, and a host command on a rule table that the loader holds is BUSY: both change no
table (R97, R98). No partial write waits in a merge buffer. -/
def Obligations.ClassifierTableCommands : Prop :=
  ∀ (s : State) (p : Path), s.servesReg p .clsEntCmd 0 = true → s.mem.merge = [] →
    let e := s.clsStaged
    let idx := s.fld F.clsEntIndex_index
    let done (u : State) (res i : Nat) : Prop := u.fld F.clsEntStat_result = res ∧ u.fld F.clsEntStat_index = i
    (∀ table bank : BitVec 2, table = 2 ∨ table = 3 →
      (∃ u, exec (.clsInsert p table bank) s = .next u ∧ done u 5 0 ∧ u.net = s.net) ∧
      (∃ u, exec (.clsDelete p table bank) s = .next u ∧ done u 5 0 ∧ u.net = s.net) ∧
      (∃ u, exec (.clsRead p table) s = .next u ∧ done u 5 0 ∧ u.net = s.net) ∧
      (∃ u, exec (.clsSetAction p table) s = .next u ∧ done u 5 0 ∧ u.net = s.net) ∧
      (∃ u, exec (.clsSetEpoch p table) s = .next u ∧ done u 5 0 ∧ u.net = s.net) ∧
      (∃ u, exec (.clsFlush p table) s = .next u ∧ done u 5 0 ∧ u.net = s.net)) ∧
    (p ≠ .fw → s.loaderHolds = true → ∀ bank : BitVec 2,
      (∃ u, exec (.clsInsert p 0 bank) s = .next u ∧ done u 4 0 ∧ u.net = s.net) ∧
      (∃ u, exec (.clsDelete p 0 bank) s = .next u ∧ done u 4 0 ∧ u.net = s.net) ∧
      (∃ u, exec (.clsRead p 0) s = .next u ∧ done u 4 0 ∧ u.net = s.net) ∧
      (∃ u, exec (.clsSetAction p 0) s = .next u ∧ done u 4 0 ∧ u.net = s.net) ∧
      (∃ u, exec (.clsSetEpoch p 0) s = .next u ∧ done u 4 0 ∧ u.net = s.net)) ∧
    ((p ≠ .fw → s.loaderHolds = false) → s.on F.memFlipCtrl_arm = false →
      (∀ (bank : BitVec 2) (n : Nat),
        (actReserved e = false → (p ≠ .fw → s.hostMask (eb e 15 1 0) = true) →
          (s.ruleFind bank.toNat e (fun m => (m &&& eb e 15 1 0) != 0) = some n → n < 33280 →
            ∃ u, exec (.clsInsert p 0 bank) s = .next u ∧ done u 1 n ∧ u.net = s.net) ∧
          (s.ruleFind bank.toNat e (fun m => (m &&& eb e 15 1 0) != 0) = none →
            (s.freeEnt 1 (bank.toNat * 8192) (s.ruleBucket bank.toNat (e.take 12)) (32768 + bank.toNat * 128) 128 entValid = some n →
              ∃ u, exec (.clsInsert p 0 bank) s = .next u ∧ done u 0 n ∧ entValid (u.ent 1 0 n) = true ∧
                (u.ent 1 0 n).take 12 = e.take 12 ∧ eb (u.ent 1 0 n) 15 1 0 = eb e 15 1 0 ∧ u.ent 2 0 n = [0, 0] ∧
                ∀ m : Fin 33280, m.val ≠ n → u.ent 1 0 m = s.ent 1 0 m) ∧
            (s.freeEnt 1 (bank.toNat * 8192) (s.ruleBucket bank.toNat (e.take 12)) (32768 + bank.toNat * 128) 128 entValid = none →
              ∃ u, exec (.clsInsert p 0 bank) s = .next u ∧ done u 2 0 ∧ u.net = s.net))) ∧
        (s.ruleFind bank.toNat e (· == eb e 15 1 0) = some n → n < 33280 →
          ∃ u, exec (.clsDelete p 0 bank) s = .next u ∧ done u 0 n ∧ u.ent 1 0 n = List.replicate 16 0 ∧
            ∀ m : Fin 33280, m.val ≠ n → u.ent 1 0 m = s.ent 1 0 m)) ∧
      (idx < 33280 →
        (s.mem.errs = [] → s.mem.parity = [] → s.mem.merge = [] → entValid (s.ent 1 0 idx) = true →
          ∃ u, exec (.clsRead p 0) s = .next u ∧ done u 0 idx ∧ (∀ k : Fin 16, u.rd .clsEntData k = ew (s.ent 1 0 idx) k) ∧
            u.net = s.net) ∧
        (actReserved e = false → (s.ent 1 0 idx).length = 16 → entValid (s.ent 1 0 idx) = true →
          ∃ u, exec (.clsSetAction p 0) s = .next u ∧ done u 0 idx ∧
            u.ent 1 0 idx = ((s.ent 1 0 idx).set 13 (ew e 13 &&& 0xFFFF0FFF)).set 14 (ew e 14 &&& 0xFFFFFFC0)) ∧
        ((p ≠ .fw → s.hostMask (eb e 15 1 0) = true) → (s.ent 1 0 idx).length = 16 → entValid (s.ent 1 0 idx) = true →
          ∃ u, exec (.clsSetEpoch p 0) s = .next u ∧ done u 0 idx ∧ u.ent 1 0 idx = eput (s.ent 1 0 idx) 15 1 0 (eb e 15 1 0)) ∧
        (entValid (s.ent 1 0 idx) = false → s.mem.errs = [] → s.mem.parity = [] → s.mem.merge = [] →
          ∃ u, exec (.clsRead p 0) s = .next u ∧ done u 3 idx ∧ (∀ k : Fin 16, u.rd .clsEntData k = 0) ∧ u.net = s.net))) ∧
    (∃ u, exec (.clsFlush p 1) s = .next u ∧ done u 0 0 ∧ (∀ n : Fin 133120, entValid (u.ent 3 0 n) = false) ∧
      ∀ m : Fin 33280, u.ent 1 0 m = s.ent 1 0 m)

/-- From its expiry an entry is absent for every lookup (R89, R119), and its deletion by the sweep is counted once. An entry that is not
expired is left alone (R120). A hold that has elapsed is ended by the sweep (R116). -/
def Obligations.ExpiryAndSweep : Prop :=
  ∀ s : State,
    (∀ n : BitVec 18, exec (.ctEntryExpiry n) s = .next s ∧
      (∀ (x : Parse) (key : List Byte) (dir : Bool) (hash k : Nat) (e : List Word), x.kind = 1 ∨ x.kind = 2 →
          s.ctFind key hash = (s, some (k, e)) → s.ctExpired e = true →
        s.ctLookup x key dir hash = (s, if x.tcp = true ∧ ¬(x.val 0x12 / 2 % 2 = 1 ∧ x.val 0x12 / 16 % 2 = 0) then 6 else 1)) ∧
      (s.fabricOn = true → entValid (s.ent 3 0 n.toNat) = true →
        (s.ctExpired (s.ent 3 0 n.toNat) = true →
          ∃ u, exec (.ctSweepDelete n) s = .next u ∧ entValid (u.ent 3 0 n.toNat) = false ∧
            (∀ m : BitVec 18, m ≠ n → u.ent 3 0 m.toNat = s.ent 3 0 m.toNat) ∧ u.ctr .clsCtExpire = s.ctr .clsCtExpire + 1) ∧
        (s.ctExpired (s.ent 3 0 n.toNat) = false → exec (.ctSweepDelete n) s = .next s))) ∧
    (∀ n : BitVec 17, exec (.fdbEntryExpiry n) s = .next s ∧
      (s.memClean = true → s.mem.parity = [] → ∀ (par fid mac k : Nat) (e : List Word),
        (s.fdbLookup par fid mac).2 = some (k, e) → s.fdbExpired e = false ∧ fdbKeyEq fid mac e = true) ∧
      (s.fabricOn = true → s.on F.memFlipCtrl_arm = false → fdbValid (s.ent 0x10 0 n.toNat) = true →
        (s.fdbExpired (s.ent 0x10 0 n.toNat) = true →
          ∃ u, exec (.fdbSweepDelete n) s = .next u ∧ fdbValid (u.ent 0x10 0 n.toNat) = false ∧
            (∀ m : BitVec 17, m ≠ n → u.ent 0x10 0 m.toNat = s.ent 0x10 0 m.toNat) ∧ u.ctr .fdbAgeDel = s.ctr .fdbAgeDel + 1) ∧
        (s.fdbExpired (s.ent 0x10 0 n.toNat) = false → exec (.fdbSweepDelete n) s = .next s) ∧
        (fdbStatic (s.ent 0x10 0 n.toNat) = false → s.fdbHeld (s.ent 0x10 0 n.toNat) = false → (s.ent 0x10 0 n.toNat).length = 4 →
          ∃ u, exec (.fdbHoldElapse n) s = .next u ∧ u.ent 0x10 0 n.toNat = eput (s.ent 0x10 0 n.toNat) 3 30 20 0x7FF ∧
            regsBut [.memFlipCtrl] s u) ∧
        (s.fdbHeld (s.ent 0x10 0 n.toNat) = true → exec (.fdbHoldElapse n) s = .next s)))

/-! ## The forwarding database and streams (chapter 04) -/

/-- LEARN inserts, refreshes, moves or leaves the entry with the staged key as its table says, with the result, and releases the filter
entry of its pair (R113, R115); a HELD result counts toward a flap, and the one that reaches flap_thr raises MAC_FLAP (R117). INSERT places
a static entry, DELETE removes the entry with key and mask, READ stages an entry (R132), and FLUSH deletes the dynamic entries that it
selects (R121). A host command is BUSY while the loader holds the table (R98). No partial write waits in a merge buffer. -/
def Obligations.ForwardingDatabaseCommands : Prop :=
  ∀ (s : State) (p : Path), s.servesReg p .fdbEntCmd 0 = true → s.mem.merge = [] →
    let e := s.fdbStaged
    let same := (((s.fdbProbed (fdbFid e) (fdbMac e)).map fun n => (n, s.ent 0x10 0 n)).filter
      fun x => fdbKeyEq (fdbFid e) (fdbMac e) x.2)
    let free := s.freeEnt 0x10 0 (s.fdbBucket (fdbFid e) (fdbMac e)) 65536 1024 fdbValid
    let done (u : State) (res i : Nat) : Prop := u.fld F.fdbEntStat_result = res ∧ u.fld F.fdbEntStat_index = i
    (p ≠ .fw → s.loaderHolds = true →
      (∃ u, exec (.fdbInsert p) s = .next u ∧ done u 4 0 ∧ u.net = s.net) ∧
      (∃ u, exec (.fdbDelete p) s = .next u ∧ done u 4 0 ∧ u.net = s.net) ∧
      (∃ u, exec (.fdbRead p) s = .next u ∧ done u 4 0 ∧ u.net = s.net) ∧
      (∃ u, exec (.fdbFlush p) s = .next u ∧ done u 4 0 ∧ u.net = s.net) ∧
      (∃ u, exec (.fdbLearn p) s = .next u ∧ done u 4 0 ∧ u.net = s.net)) ∧
    ((p ≠ .fw → s.loaderHolds = false) → s.on F.memFlipCtrl_arm = false →
      (∃ u, exec (.fdbLearn p) s = .next u ∧ u.pendFind (fdbFid e) (fdbMac e) = none) ∧
      (∀ n : Nat, same = [] → free = some n →
        ∃ u, exec (.fdbLearn p) s = .next u ∧ done u 0 n ∧ u.ent 0x10 0 n = s.fdbDyn e ∧ u.pendFind (fdbFid e) (fdbMac e) = none) ∧
      (same = [] → free = none →
        ∃ u, exec (.fdbLearn p) s = .next u ∧ done u 2 0 ∧ u.ctr .fdbLearnFail = s.ctr .fdbLearnFail + 1 ∧ u.net.tabs = s.net.tabs) ∧
      (∀ (n : Nat) (x : List Word), same = [(n, x)] → n < 66560 →
        (fdbStatic x = true → ∃ u, exec (.fdbLearn p) s = .next u ∧ done u 9 n ∧ u.net.tabs = s.net.tabs ∧
          u.pendFind (fdbFid e) (fdbMac e) = none) ∧
        (fdbStatic x = false → s.fdbExpired x = true →
          ∃ u, exec (.fdbLearn p) s = .next u ∧ done u 0 n ∧ u.ent 0x10 0 n = s.fdbDyn e) ∧
        (fdbStatic x = false → s.fdbExpired x = false → x.length = 4 →
          (fdbPort x = fdbPort e →
            ∃ u, exec (.fdbLearn p) s = .next u ∧ done u 0 n ∧ u.ent 0x10 0 n = eput x 3 19 4 (s.nowS % 65536)) ∧
          (fdbPort x ≠ fdbPort e → s.fdbHeld x = false →
            ∃ u, exec (.fdbLearn p) s = .next u ∧ done u 7 n ∧
              u.ent 0x10 0 n = eput (eput x 2 11 6 (fdbPort e)) 3 30 20 s.nowMs) ∧
          (fdbPort x ≠ fdbPort e → s.fdbHeld x = true →
            ∃ u, exec (.fdbLearn p) s = .next u ∧ done u 8 n ∧ u.net.tabs = s.net.tabs ∧
              u.ctr .fdbFlapCount = s.ctr .fdbFlapCount + 1 ∧
              (s.flapRoll.net.flapN + 1 = s.fld F.fdbFlapCfg_flap_thr →
                getBit (u.rd .evtStat (Ev.macFlap / 32)) (Ev.macFlap % 32) = true ∧ u.fld F.fdbFlapLast2_port = fdbPort e)))) ∧
      ((p ≠ .fw → s.hostMask (eb e 3 1 0) = true) → same = [] →
        (∀ n : Nat, free = some n →
          ∃ u, exec (.fdbInsert p) s = .next u ∧ done u 0 n ∧ fdbValid (u.ent 0x10 0 n) = true ∧ fdbStatic (u.ent 0x10 0 n) = true ∧
            fdbFid (u.ent 0x10 0 n) = fdbFid e ∧ fdbMac (u.ent 0x10 0 n) = fdbMac e ∧ fdbPort (u.ent 0x10 0 n) = fdbPort e) ∧
        (∃ u, exec (.fdbDelete p) s = .next u ∧ done u 3 0 ∧ u.net.tabs = s.net.tabs)) ∧
      (∀ (n : Nat) (x : List Word), same = [(n, x)] → n < 66560 → eb x 3 1 0 = eb e 3 1 0 →
        ∃ u, exec (.fdbDelete p) s = .next u ∧ done u 0 n ∧ fdbValid (u.ent 0x10 0 n) = false) ∧
      (let n := s.fld F.fdbEntIndex_index;
        n < 66560 → fdbValid (s.ent 0x10 0 n) = true → s.mem.errs = [] → s.mem.parity = [] → s.mem.merge = [] →
          ∃ u, exec (.fdbRead p) s = .next u ∧ done u 0 n ∧ (∀ k : Fin 4, u.rd .fdbEntData k = ew (s.ent 0x10 0 n) k) ∧ u.net = s.net) ∧
      (tblWf s.net.tabs = true → ∃ u, exec (.fdbFlush p) s = .next u ∧ done u 0 0 ∧ ∀ n : Fin 66560, let x := s.ent 0x10 0 n;
        u.ent 0x10 0 n = if fdbValid x = true ∧ fdbStatic x = false ∧
            (s.on F.fdbFlushSel_by_port = true → fdbPort x = s.fld F.fdbFlushSel_port) ∧
            (s.on F.fdbFlushSel_by_fid = true → fdbFid x = s.fld F.fdbFlushSel_fid)
          then [0, 0, 0, 0] else x))

/-- A filter entry older than pend_tmo_ms is released (R113), and a flap window that has ended gives way to the next with a count of 0
(R117). Recovery enters reset by command, or after reset_ms without a frame, and counts it (R129). A damaged table entry is written from
its golden copy, or deleted and reported when there is none (R367); a recovery state enters reset, which is counted, and a freshness value comes from MRAM
(R369). -/
def Obligations.StreamResetsAndRepairs : Prop :=
  ∀ s : State, s.on F.memFlipCtrl_arm = false →
    (∀ (fid : BitVec 12) (mac : BitVec 48), s.fabricOn = true →
      ∃ u, exec (.pendingFilterTimeout fid mac) s = .next u ∧ keeps [.regs, .ctrs, .mem, .tim] s u ∧
        u.net.pend = s.net.pend.filter fun x => !(x.fid == fid.toNat && x.mac == mac.toNat &&
          decide (x.since + tkMs (s.fld F.fdbLearnCfg_pend_tmo_ms) ≤ s.tim.lt))) ∧
    (let w := tkMs (s.fld F.fdbFlapCfg_flap_win_ms);
      s.fabricOn = true → 0 < w →
      (s.net.flapAt + w ≤ s.tim.lt →
        ∃ u, exec .flapWindowEnd s = .next u ∧ u.net.flapN = 0 ∧ u.net.flapAt ≤ s.tim.lt ∧ s.tim.lt < u.net.flapAt + w ∧
          keeps [.regs, .ctrs, .mem, .tim] s u) ∧
      (s.tim.lt < s.net.flapAt + w → exec .flapWindowEnd s = .next s)) ∧
    (∀ k : BitVec 12, (s.strState k.toNat).length = 16 →
      let isReset (u : State) (j : Nat) : Prop := ebit (u.strState j) 1 31 = true ∧
        strCnt (u.strState j) 5 = (strCnt (s.strState j) 5 + 1) % 2 ^ 64 ∧ strHist (u.strState j) = strHist (s.strState j)
      (∀ (p : Path) (data : Word), s.servesReg p .fdbStrReset 0 = true → F.fdbStrReset_stream_idx.of data = k.toNat →
        ∃ u, exec (.streamResetWrite p data) s = .next u ∧ isReset u k.toNat) ∧
      (let q := s.strm s.epoch k.toNat;
        s.fabricOn = true → ebit q 0 31 = true → ebit q 2 30 = true → ebit (s.strState k.toNat) 1 31 = false →
          tblGet s.net.lastOk 0 k.toNat + tkMs (eb q 2 20 9) ≤ s.tim.lt →
        ∃ u, exec (.recoveryResetTimeout k) s = .next u ∧ isReset u k.toNat)) ∧
    (∀ (tab : BitVec 8) (c : Fin 2) (n : BitVec 18), s.fabricOn = true → s.pair.halted = false →
      (s.entBad tab.toNat c n.toNat = true → tab ≠ 0x32 → tab ≠ 0x1B →
        (∀ g, tblFind s.net.golden (tabKey tab.toNat c n.toNat) = some g →
          ∃ u, exec (.parityRepair tab c n) s = .next u ∧ u.ent tab.toNat c n.toNat = g ∧
            u.ctr .memReloads = s.ctr .memReloads + 1) ∧
        (tblFind s.net.golden (tabKey tab.toNat c n.toNat) = none →
          ∃ u, exec (.parityRepair tab c n) s = .next u ∧ u.ent tab.toNat c n.toNat = tabDefault tab.toNat ∧
            u.ctr .memReloadNone = s.ctr .memReloadNone + 1 ∧
            getBit (u.rd .evtStat (Ev.memReload / 32)) (Ev.memReload % 32) = true)) ∧
      (s.entBad 0x1B c n.toNat = true → (s.strState n.toNat).length = 16 →
        ∃ u, exec (.parityRepair 0x1B c n) s = .next u ∧ ebit (u.strState n.toNat) 1 31 = true ∧
          strCnt (u.strState n.toNat) 5 = (strCnt (s.strState n.toNat) 5 + 1) % 2 ^ 64) ∧
      (s.entBad 0x32 0 n.toNat = true → fpPersist (s.fparam s.epoch n.toNat) = true → (s.ent 0x32 0 n.toNat).length = 4 →
        ∃ u, exec (.parityRepair 0x32 c n) s = .next u ∧ u.fv n.toNat = s.freshStored n.toNat) ∧
      (s.entBad tab.toNat c n.toNat = false → tab ≠ 0x32 → exec (.parityRepair tab c n) s = .next s))

/-! ## Skerries and the Harbour (chapter 05) -/

/-- An idle thread takes the oldest descriptor of its queue, with the first 256 bytes of its frame (R136): of the reserved queue when it is
thread 0 and the mask bit is 1 (R145). A verdict makes the slot void or READY with its outputs (R137), and is late when the slot no longer
waits, or when the hold timer of the flow expires in the same cycle or before (R152). The watchdog stops a
thread at its limit with a void slot, and not before (R139). -/
def Obligations.SkerryThreadsAndVerdicts : Prop :=
  ∀ (s : State) (k : Fin 32) (t : Fin 4), let x := s.skerry k
    (s.fabricOn = true → s.skyOk k = true → tblFind x.threads t = none → s.memClean = true →
      (∀ (d : Desc) (r : List Desc), (t = 0 → s.skyResv k = false) → x.norm = d :: r → (s.frm d.frm).tail = true →
        ∃ u, exec (.skerryThreadTake k t) s = .next u ∧ tblFind (u.skerry k).threads t =
            some ⟨d, s.tim.lt, ((((s.frm d.frm).leg.map LegRec.data).getD (s.frm d.frm).bytes).take 256)⟩ ∧
          (u.skerry k).norm = r ∧ (u.skerry k).resv = x.resv ∧ (∀ j, j ≠ k.val → u.skerry j = s.skerry j) ∧
          keeps [.regs, .ctrs, .tim, .mem] s u) ∧
      (∀ (d : Desc) (r : List Desc), t = 0 → s.skyResv k = true → x.resv = d :: r → (s.frm d.frm).tail = true →
        ∃ u, exec (.skerryThreadTake k t) s = .next u ∧ tblFind (u.skerry k).threads t =
            some ⟨d, s.tim.lt, ((((s.frm d.frm).leg.map LegRec.data).getD (s.frm d.frm).bytes).take 256)⟩ ∧
          (u.skerry k).resv = r ∧ (u.skerry k).norm = x.norm ∧ keeps [.regs, .ctrs, .tim, .mem] s u)) ∧
    (∀ r : Running, s.fabricOn = true → tblFind x.threads t = some r → s.memClean = true →
      let due := ∃ y, tblFind s.net.slots r.d.slot = some y ∧ s.hrbDue y.ctx = true
      (s.slotWaits r.d.slot r.d.frm = true → ¬ due →
        (∀ (c : Fin 13) (e : Option (BitVec 12)), c ≠ 0 →
          ∃ u, exec (.skerryDescriptorDone k t (.drop c e)) s = .next u ∧ tblFind (u.skerry k).threads t = none ∧
            (∃ y, tblFind u.net.slots r.d.slot = some y ∧ y.st = .void) ∧ u.ctr .skyKFrames k = s.ctr .skyKFrames k + 1 ∧
            u.ctr .skyDropCause (c.val - 1) = s.ctr .skyDropCause (c.val - 1) + 1) ∧
        (∃ u, exec (.skerryDescriptorDone k t .trap) s = .next u ∧ tblFind (u.skerry k).threads t = none ∧
          (∃ y, tblFind u.net.slots r.d.slot = some y ∧ y.st = .ready [⟨r.d.frm, 17, .asReceived, none⟩])) ∧
        (r.d.dest ≠ [] → ebit (s.profOf r.d) 0 19 = false →
          ∃ u, exec (.skerryDescriptorDone k t (.pass none)) s = .next u ∧ tblFind (u.skerry k).threads t = none ∧
            (∃ y, tblFind u.net.slots r.d.slot = some y ∧
              y.st = .ready (r.d.dest.map fun o => ⟨r.d.frm, o.1, o.2, none⟩)))) ∧
      (∀ (y : Slot) (c : Ctx) (h : Slot), tblFind s.net.slots r.d.slot = some y → tblFind s.net.ctxs y.ctx = some c →
          s.ctxWait y.ctx c = some (r.d.slot, h) → s.hrbDue y.ctx = true → ∀ v : SkyVerdict,
        ∃ u, exec (.skerryDescriptorDone k t v) s = .next u ∧ tblFind (u.skerry k).threads t = none ∧
          (∃ z, tblFind u.net.slots r.d.slot = some z ∧ z.st = .void) ∧ u.ctr .hrbLate = s.ctr .hrbLate + 1) ∧
      (s.slotWaits r.d.slot r.d.frm = false → ¬ due → ∀ v : SkyVerdict,
        ∃ u, exec (.skerryDescriptorDone k t v) s = .next u ∧ tblFind (u.skerry k).threads t = none ∧
          u.net.slots = s.net.slots ∧ u.ctr .hrbLate = s.ctr .hrbLate + 1 ∧ u.ctr .skyKFrames k = s.ctr .skyKFrames k + 1)) ∧
    (∀ r : Running, tblFind x.threads t = some r →
      let b := eb (s.profOf r.d) 1 23 0
      let lim := if b = 0 then Config.progTime s.boot.fwimDig (eb (s.profOf r.d) 0 31 24) else b
      (r.since + tkNs lim ≤ s.tim.lt → s.slotWaits r.d.slot r.d.frm = true →
        ∃ u, exec (.skerryWatchdog k t) s = .next u ∧ tblFind (u.skerry k).threads t = none ∧
          (∃ y, tblFind u.net.slots r.d.slot = some y ∧ y.st = .void) ∧ u.ctr .skyKWdog k = s.ctr .skyKWdog k + 1 ∧
          u.ctr .skyDropCause 6 = s.ctr .skyDropCause 6 + 1) ∧
      (s.tim.lt < r.since + tkNs lim → exec (.skerryWatchdog k t) s = .next s))

/-- A sequenced frame that is not steered makes its slot READY when its buffer write completes before its flow's hold expires (R149, R152). A READY head is freed and its output
is offered to its egress queue; a VOID head is freed and counted; a PENDING head stops the flow (R150). A head whose hold timer has reached
hold_ns becomes VOID and is counted (R151). -/
def Obligations.HarbourReleasesInOrder : Prop :=
  ∀ s : State,
    (∀ (n : BitVec 13) (x : Slot) (outs : List SlotOut), tblFind s.net.slots n.toNat = some x → x.st = .pending (some outs) →
        s.hrbDue x.ctx = false →
      ∃ u, exec (.bufferWriteComplete n) s = .next u ∧ tblFind u.net.slots n.toNat = some { x with st := .ready outs } ∧
        (∀ m, m ≠ n.toNat → tblFind u.net.slots m = tblFind s.net.slots m) ∧ u.net.frames = s.net.frames ∧
        keeps [.regs, .ctrs, .tim, .mem] s u) ∧
    (∀ (c : BitVec 13) (x : Ctx) (k : Nat) (h : Slot), s.fabricOn = true → tblFind s.net.ctxs c.toNat = some x →
        s.ctxHead c.toNat x = some (k, h) → s.memClean = true →
      (h.st = .void →
        ∃ u, exec (.harbourRelease c) s = .next u ∧ tblFind u.net.slots k = none ∧ u.ctr .hrbVoid = s.ctr .hrbVoid + 1 ∧
          u.net.queues = s.net.queues ∧ keeps [.regs, .tim, .mem] s u) ∧
      (h.st.isPending = true → exec (.harbourRelease c) s = .next s) ∧
      (h.st = .ready [] →
        ∃ u, exec (.harbourRelease c) s = .next u ∧ tblFind u.net.slots k = none ∧
          u.ctr .hrbReleased = s.ctr .hrbReleased + 1 ∧ u.net.queues = s.net.queues) ∧
      (∀ o : SlotOut, let f := s.frm o.frm
          h.st = .ready [o] → o.port < 18 → f.bad = false → f.tail = true → f.leg = none → s.copyLen f o.xf ≤ 9216 →
          s.admitTest f (s.queueOf f o.port).1 o.port f.cells (some (s.copyLen f o.xf)) = none →
        ∃ u y, exec (.harbourRelease c) s = .next u ∧ tblFind u.net.slots k = none ∧
          u.ctr .hrbReleased = s.ctr .hrbReleased + 1 ∧ y.frm = o.frm ∧ y.port = o.port ∧ y.xf = o.xf ∧
          u.queue (s.queueOf f o.port).1 = s.queue (s.queueOf f o.port).1 ++ [y])) ∧
    (∀ (c : BitVec 13) (x : Ctx) (q at_ k : Nat) (h : Slot), tblFind s.net.ctxs c.toNat = some x → x.hold = some (q, at_) →
        s.ctxWait c.toNat x = some (k, h) → at_ + tkNs (s.fld F.hrbCfg_hold_ns) ≤ s.tim.lt →
      ∃ u, exec (.harbourHoldTimeout c) s = .next u ∧ (∃ y, tblFind u.net.slots k = some y ∧ y.st = .void) ∧
        u.ctr .hrbHoldTmo = s.ctr .hrbHoldTmo + 1 ∧ ctrsBut [.hrbHoldTmo] s u)

/-- A thief takes the oldest descriptor that may be stolen from the first victim that qualifies, marked as stolen, unless its selection goes to
another in the same cycle; nothing is stolen with en = 0, or within 8 cycles of its last probe (R146, R147). A fault takes the Skerry out of service, voids the slots of its descriptors, rehomes its flows, is recorded, counted
and raised (R159, R160); retire is the fault of code 5, and restore returns it to service when its self-test passes (R161). A write of the
home map keeps the fields that name a Skerry out of service (R143). -/
def Obligations.StealingFaultsAndHomes : Prop :=
  ∀ (s : State) (k : Fin 32), let x := s.skerry k
    let faulted (u : State) (cause : Nat) : Prop :=
      u.skyOk k = false ∧ u.rd .skyFaultRec = putBits (putBits 0 31 28 cause) 20 16 k ∧ u.skerry k = Skerry.reset ∧
        u.ctr .skyKFaults k = s.ctr .skyKFaults k + 1 ∧
        getBit (u.rd .evtStat (Ev.skyFault / 32)) (Ev.skyFault % 32) = true ∧
        (∀ d ∈ (x.threads.map fun r => r.2.d) ++ x.resv ++ x.norm, s.slotWaits d.slot d.frm = true →
          ∃ y, tblFind u.net.slots d.slot = some y ∧ y.st = .void) ∧
        (∀ j, s.skyNext k (fun j => j != k.val) = some j →
          ∀ n : Fin 256, u.homeOf n = if s.homeOf n = k then j else s.homeOf n)
    (s.on F.skyStealCfg_en = false → exec (.stealProbe k) s = .next s) ∧
    (∀ (d : Desc) (r : List Desc), let v := (k.val + 1) % 32
        s.fabricOn = true → s.on F.skyStealCfg_en = true → s.skyOk k = true → x.norm = [] → s.skyIdle k = true →
        1 ≤ s.fld F.skyStealCfg_span → s.skyOk v = true → (s.skerry v).norm = d :: r →
        s.fld F.skyStealCfg_min_depth ≤ r.length + 1 → s.maySteal d = true →
        (x.probeAt.all fun t => decide (t + 8 ≤ s.tim.lt)) = true →
      (s.stealLost k (v, d) = false →
        ∃ u, exec (.stealProbe k) s = .next u ∧ (u.skerry k).norm = [{ d with stolen := true }] ∧ (u.skerry v).norm = r ∧
          (u.skerry k).probeAt = some s.tim.lt ∧
          (u.skerry v).resv = (s.skerry v).resv ∧ u.ctr .skyKStolenIn k = s.ctr .skyKStolenIn k + 1 ∧
          u.ctr .skyKStolenOut v = s.ctr .skyKStolenOut v + 1 ∧ u.net.slots = s.net.slots ∧ keeps [.regs, .tim, .mem] s u) ∧
      (s.stealLost k (v, d) = true →
        exec (.stealProbe k) s = .next (s.setSky k { x with probeAt := some s.tim.lt }))) ∧
    ((x.probeAt.any fun t => decide (s.tim.lt < t + 8)) = true → exec (.stealProbe k) s = .next s) ∧
    (s.skyOk k = true →
      (s.fabricOn = true → ∀ c : Fin 3, ∃ u, exec (.skerryFault k c) s = .next u ∧ faulted u (c + 1)) ∧
      (s.fabricOn = true → x.norm ≠ [] ∨ x.resv ≠ [] → x.lastRun + tkUs 10 ≤ s.tim.lt →
        ∃ u, exec (.skerryStallTimeout k) s = .next u ∧ faulted u 4) ∧
      (∀ p : Path, s.servesReg p .skyCtrl 0 = true → ∃ u, exec (.skerryRetire p k) s = .next u ∧ faulted u 5)) ∧
    (∀ p : Path, s.servesReg p .skyCtrl 0 = true → s.skyOk k = false →
      (∃ u, exec (.skerryRestore p k true) s = .next u ∧ u.skyOk k = true ∧ (∀ j : Fin 32, j ≠ k → u.skyOk j = s.skyOk j) ∧
        ∀ n, u.rd .skyHomeMap n = s.rd .skyHomeMap n) ∧
      (∃ u, exec (.skerryRestore p k false) s = .next u ∧ u.rd .skyStatus = s.rd .skyStatus)) ∧
    (∀ (p : Path) (n : BitVec 6) (data : Word), s.servesReg p .skyHomeMap n.toNat = true →
      ∃ u, exec (.homeMapWrite p n data) s = .next u ∧
        (∀ i : Fin 4, u.homeOf (4 * n.toNat + i) = let j := getBits data (8 * i + 4) (8 * i)
          if s.skyOk j then j else s.homeOf (4 * n.toNat + i)) ∧
        (∀ m, m ≠ n.toNat → u.rd .skyHomeMap m = s.rd .skyHomeMap m) ∧
        ((∃ i : Fin 4, s.skyOk (getBits data (8 * i + 4) (8 * i)) = false) →
          getBit (u.rd .evtStat (Ev.accessErr .sky / 32)) (Ev.accessErr .sky % 32) = true))

/-- On an entry without memory errors, while the cores run where the value is to be stored, GEN with a higher ordinal answers fv + 1 and keeps the ordinal, and answers STALE otherwise; COMMIT
with a higher value sets fv, and answers STALE otherwise (R155). -/
def Obligations.FreshnessGenAndCommit : Prop :=
  ∀ (s : State) (i : BitVec 12), s.fabricOn = true → s.memClean = true → s.mem.parity = [] → (s.ent 0x32 0 i.toNat).length = 4 →
      (fpPersist (s.fparam s.epoch i.toNat) = true → s.coresOff = false) →
    (∀ ord : BitVec 64,
      (s.red.role ≠ .faulted → s.lastOrd i.toNat < ord.toNat → s.fv i.toNat ≠ 2 ^ 64 - 1 →
        ∃ u r, exec (.freshnessGen i ord) s = .next u ∧ u.out = .fresh (some (s.fv i.toNat + 1)) :: r ∧
          u.fv i.toNat = s.fv i.toNat + 1 ∧ u.lastOrd i.toNat = ord.toNat ∧
          ∀ j : BitVec 12, j ≠ i → u.fv j.toNat = s.fv j.toNat) ∧
      (ord.toNat ≤ s.lastOrd i.toNat → exec (.freshnessGen i ord) s = .next (s.emit (.fresh none)))) ∧
    (∀ v : BitVec 64,
      (s.fv i.toNat < v.toNat →
        ∃ u r, exec (.freshnessCommit i v) s = .next u ∧ u.out = .fresh (some v.toNat) :: r ∧ u.fv i.toNat = v.toNat ∧
          u.lastOrd i.toNat = s.lastOrd i.toNat ∧ ∀ j : BitVec 12, j ≠ i → u.fv j.toNat = s.fv j.toNat) ∧
      (v.toNat ≤ s.fv i.toNat → exec (.freshnessCommit i v) s = .next (s.emit (.fresh none))))

/-! ## The time base (chapter 07) -/

/-- Two enabled domains never share a PTP domain number (R211). A frequency outside its range is refused, another is taken, and
the domain leaves the tick of the write under the one before (R198). A set gives
a domain its time and a step adds to it, as LT leaves the tick after the commit: either then cancels the slew, counts in step_count and
raises TIME_STEP; a set or step that is out of range, with those before it counted, is refused and changes nothing (R199). A write of the slew amount starts a slew, a rate outside 1 to 1000 is refused, and a slew whose
remainder is zero ends (R200). A snapshot copies LT and the four domains at one tick (R201). -/
def Obligations.DomainClockCommands : Prop :=
  ∀ (s : State) (p : Path) (d : Fin 4),
    let tim (u : State) : Prop := getBit (u.rd .evtStat (Ev.accessErr .tim / 32)) (Ev.accessErr .tim % 32) = true
    let later (u : State) : Prop := u.tim = { s.tim with rates := u.tim.rates } ∧ ∀ e : Fin 4, u.domRates e = s.domRates e
    let waits (u : State) (set : Bool) (ns : Int) : Prop := u.tim = { s.tim with jumps := s.tim.jumps ++ [⟨s.tim.lt, d, set, ns⟩] }
    let jumped (u : State) (v : Nat) : Prop := u.dom d = ⟨v, 0, false⟩ ∧ u.tim.jumps = [] ∧
      u.fld F.timDomStat_step_count d = (s.fld F.timDomStat_step_count d + 1) % 65536 ∧
      getBit (u.rd .evtStat (Ev.timeStep / 32)) (Ev.timeStep % 32) = true
    (∀ data : Word, s.servesReg p .timDomCfg d = true → F.timDomCfg_ptp_dom.of data ≤ 127 →
      let clash := F.timDomCfg_en.of data = 1 ∧
        ∃ e : Fin 4, e ≠ d ∧ s.on F.timDomCfg_en e = true ∧ s.fld F.timDomCfg_ptp_dom e = F.timDomCfg_ptp_dom.of data
      (clash → ∃ u, exec (.domainCfgWrite p d data) s = .next u ∧ u.rd .timDomCfg d = s.rd .timDomCfg d ∧ tim u) ∧
      (¬clash → ∃ u, exec (.domainCfgWrite p d data) s = .next u ∧ u.fld F.timDomCfg_en d = F.timDomCfg_en.of data ∧
        u.fld F.timDomCfg_ptp_dom d = F.timDomCfg_ptp_dom.of data ∧ u.tim = s.tim)) ∧
    (∀ data : Word, s.servesReg p .timDomFreq d = true →
      (-1024000000 ≤ data.toInt → data.toInt ≤ 1024000000 →
        ∃ u, exec (.domainFreqWrite p d data) s = .next u ∧ u.rd .timDomFreq d = data ∧ regsBut [.timDomFreq] s u ∧ later u) ∧
      (data.toInt < -1024000000 ∨ 1024000000 < data.toInt →
        ∃ u, exec (.domainFreqWrite p d data) s = .next u ∧ u.rd .timDomFreq d = s.rd .timDomFreq d ∧ tim u)) ∧
    (∀ ns w1 w2 : Word, s.servesReg p .timDomSet (3 * d) = true →
        tblFind s.stage (pairKey p (Reg.timDomSet.addr (3 * d) + 4)) = some w1 →
        tblFind s.stage (pairKey p (Reg.timDomSet.addr (3 * d) + 8)) = some w2 →
      (ns.toNat < 1000000000 → ∃ u, exec (.domainSet p d ns) s = .next u ∧ waits u true (ptpNs (ns, w1, w2))) ∧
      (1000000000 ≤ ns.toNat → ∃ u, exec (.domainSet p d ns) s = .next u ∧ u.tim = s.tim ∧ tim u)) ∧
    (∀ lo hi : Word, s.servesReg p .timDomStep (2 * d) = true →
        tblFind s.stage (pairKey p (Reg.timDomStep.addr (2 * d) + 4)) = some hi →
      let step : Int := (BitVec.ofNat 64 (hi.toNat * 4294967296 + lo.toNat)).toInt
      let new : Int := s.domNext d + step * 2 ^ 48
      (step.natAbs < 2 ^ 62 → 0 ≤ new → new < 2 ^ 48 * 1000000000 * 2 ^ 48 →
        ∃ u, exec (.domainStep p d lo) s = .next u ∧ waits u false step) ∧
      (2 ^ 62 ≤ step.natAbs ∨ new < 0 ∨ 2 ^ 48 * 1000000000 * 2 ^ 48 ≤ new →
        ∃ u, exec (.domainStep p d lo) s = .next u ∧ u.tim = s.tim ∧ tim u ∧
          u.fld F.timDomStat_step_count d = s.fld F.timDomStat_step_count d)) ∧
    (∀ (at_ : Nat) (set : Bool) (v : Int), s.tim.jumps = [⟨at_, d, set, v⟩] →
      let new : Int := if set then v * 2 ^ 48 else (s.dom d).val + v * 2 ^ 48
      (at_ < s.tim.lt → 0 ≤ new → new < 2 ^ 48 * 1000000000 * 2 ^ 48 → jumped s.applyJumps new.toNat) ∧
      (at_ < s.tim.lt → new < 0 → s.applyJumps.dom d = s.dom d ∧ tim s.applyJumps) ∧
      (s.tim.lt ≤ at_ → s.applyJumps = s)) ∧
    (∀ a : Word, s.servesReg p .timDomSlew d = true →
      ∃ u, exec (.domainSlewStart p d a) s = .next u ∧
        u.dom d = { s.dom d with rem := a.toInt * 800000, slewing := decide (a.toInt ≠ 0) } ∧
        (∀ e, e ≠ d.val → u.dom e = s.dom e) ∧ keeps [.regs, .ctrs, .net] s u) ∧
    (∀ data : Word, s.servesReg p .timDomSlewCfg d = true →
      (1 ≤ F.timDomSlewCfg_slew_ppm.of data → F.timDomSlewCfg_slew_ppm.of data ≤ 1000 →
        ∃ u, exec (.slewRateWrite p d data) s = .next u ∧
          u.fld F.timDomSlewCfg_slew_ppm d = F.timDomSlewCfg_slew_ppm.of data ∧ later u) ∧
      (F.timDomSlewCfg_slew_ppm.of data = 0 ∨ 1000 < F.timDomSlewCfg_slew_ppm.of data →
        ∃ u, exec (.slewRateWrite p d data) s = .next u ∧
          u.fld F.timDomSlewCfg_slew_ppm d = s.fld F.timDomSlewCfg_slew_ppm d ∧ tim u)) ∧
    ((s.dom d).slewing = true → (s.dom d).rem = 0 →
      ∃ u, exec (.slewEnd d) s = .next u ∧ u.dom d = ⟨(s.dom d).val, 0, false⟩ ∧ keeps [.regs, .ctrs, .net] s u) ∧
    (s.servesReg p .timCtrl 0 = true →
      ∃ u, exec (.timeSnapshot p) s = .next u ∧ (u.rd .timSnapLt 1).toNat * 4294967296 + (u.rd .timSnapLt 0).toNat = s.ltNs % 2 ^ 64 ∧
        (∀ e : Fin 4, u.ptpRead .timSnapDom (3 * e) = ptpOf (s.domNs e)) ∧ regsBut [.timSnapLt, .timSnapDom] s u)

/-- Only the owner's path pops a transmit timestamp (R210). A level that 16 ticks have sampled, all after the recognition
of the one before, is an edge when it differs from that one, and its stamp is the tick of its first sample (R212, R213). A selected edge opens a record or joins the open one within 100 ns, a storm locks the input out, and 120 ns after its first edge the record enters the FIFO, or is lost when that is full (R214 to R216). A locked input is
re-armed by a 1; a pop removes the oldest record, and of an empty FIFO is an ACCESS_ERR; a write of the configuration takes effect at the
tick after it, when en = 0 discards the open record alone and en = 1 starts a storm window (R215, R217). No error stands in a memory word
in the clauses on the FIFOs. -/
def Obligations.TimestampsAndCaptures : Prop :=
  ∀ (s : State) (p : Path),
    let tim (u : State) : Prop := getBit (u.rd .evtStat (Ev.accessErr .tim / 32)) (Ev.accessErr .tim % 32) = true
    (∀ (n : Fin 16) (data : Word), s.servesReg p .timTxtsPop n = true → F.timTxtsPop_pop.of data = 1 →
      s.memClean = true →
      ((s.on F.timPortCfg_owner n = true ↔ p ≠ .fw) → s.txts n ≠ [] →
        ∃ u, exec (.txtsPop p n data) s = .next u ∧ u.txts n = (s.txts n).drop 1 ∧ (∀ m, m ≠ n.val → u.txts m = s.txts m) ∧
          keeps [.regs, .ctrs] s u) ∧
      (¬(s.on F.timPortCfg_owner n = true ↔ p ≠ .fw) ∨ s.txts n = [] →
        ∃ u, exec (.txtsPop p n data) s = .next u ∧ u.tim = s.tim ∧ tim u)) ∧
    (∀ n : Fin 8, let x := s.tsc n
      let w := tkUs (s.fld F.timTscStorm_storm_win_us n)
      (∀ (up : Bool) (ticks : Nat), ticks < 16 ∨ s.tim.lt < 15 ∨ (∃ t, x.levelAt = some t ∧ s.tim.lt < t + 16) ∨ x.level = up ∨
          s.fabricOn = false → exec (.tscEdge n up ticks) s = .next s) ∧
      (∀ (up : Bool) (ticks : Nat), s.fabricOn = true → 16 ≤ ticks → 15 ≤ s.tim.lt →
          (∀ t, x.levelAt = some t → t + 16 ≤ s.tim.lt) → x.level ≠ up → x.old = none → x.closing = none →
          s.on F.timTscCfg_en n = true → s.on F.timTscStat_locked n = false →
          getBit (s.rd .timTscCfg n) (if up then 29 else 30) = true → s.tim.lt < x.winStart + w →
        let mx := s.fld F.timTscStorm_storm_max n
        let d := s.fld F.timTscCfg_dom n
        (mx = 0 ∨ x.winCnt + 1 ≤ mx → x.openRec = none →
          ∃ u, exec (.tscEdge n up ticks) s = .next u ∧ u.tsc n = { x with
              winCnt := x.winCnt + 1, level := up, levelAt := some s.tim.lt,
              openRec := some ⟨s.tim.lt - 15, d, s.domPast d, up, 0, up⟩ } ∧
            u.ctr .timTscEdges n = s.ctr .timTscEdges n + 1 ∧ keeps [.regs, .net] s u) ∧
        (∀ r : TscOpen, mx = 0 ∨ x.winCnt + 1 ≤ mx → x.openRec = some r → s.tim.lt - 15 < r.ltTick + 80 →
          ∃ u, exec (.tscEdge n up ticks) s = .next u ∧ u.tsc n = { x with
              winCnt := x.winCnt + 1, level := up, levelAt := some s.tim.lt, openRec := some { r with merge := min 255 (r.merge + 1), level := up } } ∧
            u.ctr .timTscEdges n = s.ctr .timTscEdges n + 1 ∧ u.ctr .timTscMerged n = s.ctr .timTscMerged n + 1) ∧
        (∀ r : TscOpen, mx = 0 ∨ x.winCnt + 1 ≤ mx → x.openRec = some r → r.ltTick + 80 ≤ s.tim.lt - 15 → s.tim.lt < r.ltTick + 96 →
          ∃ u, exec (.tscEdge n up ticks) s = .next u ∧ u.tsc n = { x with
              winCnt := x.winCnt + 1, level := up, levelAt := some s.tim.lt, closing := some r,
              openRec := some ⟨s.tim.lt - 15, d, s.domPast d, up, 0, up⟩ } ∧
            u.ctr .timTscEdges n = s.ctr .timTscEdges n + 1 ∧ u.ctr .timTscMerged n = s.ctr .timTscMerged n) ∧
        (mx ≠ 0 → mx < x.winCnt + 1 →
          ∃ u, exec (.tscEdge n up ticks) s = .next u ∧ u.on F.timTscStat_locked n = true ∧ (u.tsc n).fifo = x.fifo ∧
            u.ctr .timTscLockouts n = s.ctr .timTscLockouts n + 1 ∧ u.ctr .timTscEdges n = s.ctr .timTscEdges n ∧
            getBit (u.rd .evtStat (Ev.tscLockout n / 32)) (Ev.tscLockout n % 32) = true)) ∧
      (∀ (up : Bool) (ticks : Nat), s.on F.timTscStat_locked n = true → x.old = none →
        ∃ u, exec (.tscEdge n up ticks) s = .next u ∧ (u.tsc n).fifo = x.fifo ∧ (u.tsc n).winCnt = x.winCnt ∧ keeps [.regs, .ctrs, .net] s u) ∧
      (∀ r : TscOpen, x.openRec = some r → x.closing = none → x.old = none → s.mem.errs = [] → s.on F.memFlipCtrl_arm = false →
        (r.ltTick + 96 ≤ s.tim.lt → x.fifo.length < 16 →
          ∃ u, exec (.tscRecordClose n) s = .next u ∧ u.tsc n = { x with
            openRec := none, seq := (x.seq + 1) % 4294967296, lost := false, fifo := x.fifo ++ [r.words x.lost x.seq] }) ∧
        (r.ltTick + 96 ≤ s.tim.lt → 16 ≤ x.fifo.length →
          ∃ u, exec (.tscRecordClose n) s = .next u ∧
            u.tsc n = { x with openRec := none, seq := (x.seq + 1) % 4294967296, lost := true } ∧
            u.ctr .timTscOvf n = s.ctr .timTscOvf n + 1 ∧
            getBit (u.rd .evtStat (Ev.tscOvf n / 32)) (Ev.tscOvf n % 32) = true) ∧
        (s.tim.lt < r.ltTick + 96 → exec (.tscRecordClose n) s = .next s)) ∧
      (s.on F.timTscCfg_en n = true → s.on F.timTscStat_locked n = false → x.old = none → 0 < w → x.winStart + w ≤ s.tim.lt →
        ∃ u, exec (.tscStormWindowEnd n) s = .next u ∧ (u.tsc n).winCnt = 0 ∧ (u.tsc n).winStart ≤ s.tim.lt ∧
          s.tim.lt < (u.tsc n).winStart + w ∧ (u.tsc n).fifo = x.fifo) ∧
      (∀ data : Word, s.servesReg p .timTscStat n = true → F.timTscStat_locked.of data = 1 → s.on F.timTscStat_locked n = true →
        ∃ u, exec (.tscRearm p n data) s = .next u ∧ u.on F.timTscStat_locked n = false ∧
          (x.old = none → u.tsc n = { x with winStart := s.tim.lt, winCnt := 0 }) ∧
          (∀ (w0 v0 : Word) (t : Nat), x.old = some (w0, v0, t) → t < s.tim.lt → s.on F.timTscCfg_en n = true →
            u.tsc n = { x with old := none, winStart := s.tim.lt, winCnt := 0 })) ∧
      (∀ data : Word, s.servesReg p .timTscPop n = true → F.timTscPop_pop.of data = 1 → s.memClean = true →
        (x.fifo ≠ [] → ∃ u, exec (.tscPop p n data) s = .next u ∧ u.tsc n = { x with fifo := x.fifo.drop 1, head := (x.head + 1) % 16 }) ∧
        (x.fifo = [] → ∃ u, exec (.tscPop p n data) s = .next u ∧ u.tim = s.tim ∧ tim u)) ∧
      (∀ data : Word, s.servesReg p .timTscCfg n = true → x.old = none →
        ∃ u, exec (.tscCfgWrite p n data) s = .next u ∧ u.fld F.timTscCfg_en n = F.timTscCfg_en.of data ∧
          u.tsc n = { x with old := some (s.rd .timTscCfg n, s.rd .timTscStorm n, s.tim.lt) } ∧ u.tscCfg n = s.rd .timTscCfg n) ∧
      (∀ (w0 v0 : Word) (t : Nat), x.old = some (w0, v0, t) → t < s.tim.lt →
        (s.on F.timTscCfg_en n = false →
          ∃ u, exec (.tscRecordClose n) s = .next u ∧ u.tsc n = { x with old := none, openRec := none, closing := none }) ∧
        (s.on F.timTscCfg_en n = true → F.timTscCfg_en.of w0 = 0 → x.openRec = none → x.closing = none →
          ∃ u, exec (.tscRecordClose n) s = .next u ∧ u.tsc n = { x with old := none, winStart := t + 1, winCnt := 0 })))

/-- A commit of values in range becomes pending, starting at the first target at least 1 us away; one out of range is refused with ACCESS_ERR
and leaves the output as it was, and en = 0 cancels (R219). A target that the domain has reached is driven and counted and the next one
lies one period later; a pulse ends after its width; in RUN the output drives the active level of pol from the edge to that end (R218). -/
def Obligations.PeriodicOutputs : Prop :=
  ∀ (s : State) (m : Fin 2), let x := s.pps m
    (∀ (p : Path) (data : Word), s.servesReg p .timPpsCfg m = true →
      (F.timPpsCfg_en.of data = 1 → F.timPpsCfg_commit.of data = 1 → s.on F.timPpsCfg_en m = true → x.pend = none →
        let d := F.timPpsCfg_dom.of data
        let st := ptpNs (s.ptpRead .timPpsStart (3 * m))
        let per := (s.rd .timPpsPeriod m).toNat
        (s.ppsValid m = true →
          ∃ u, exec (.ppsCommit p m data) s = .next u ∧
            (let at_ := if st < s.domUp d + 1000 then firstTarget st per (s.domUp d + 1000) else st;
              u.pps m = { x with pend := some ⟨at_, per, (s.rd .timPpsWidth m).toNat, d⟩ }) ∧
            (st < s.domUp d + 1000 → u.on F.timPpsStat_late m = true)) ∧
        (s.ppsValid m = false →
          ∃ u, exec (.ppsCommit p m data) s = .next u ∧ u.tim = s.tim ∧
            getBit (u.rd .evtStat (Ev.accessErr .tim / 32)) (Ev.accessErr .tim % 32) = true)) ∧
      (F.timPpsCfg_en.of data = 0 →
        ∃ u, exec (.ppsCommit p m data) s = .next u ∧ u.pps m = { x with pend := none, active := false } ∧
          u.on F.timPpsCfg_en m = false)) ∧
    (s.fabricOn = true → s.on F.timPpsCfg_en m = true →
      (∀ q : PpsSched, x.pend = some q → q.start ≤ s.domNs q.dom →
        ∃ u, exec (.ppsEdge m) s = .next u ∧ u.pps m = ⟨some q, none, q.start + q.period, true, q.start⟩ ∧
          (s.op = .run → s.phys.rstLow = false → u.ppsLevel m = !s.on F.timPpsCfg_pol m) ∧
          u.ctr .timPpsEdges m = s.ctr .timPpsEdges m + 1) ∧
      (∀ q r : PpsSched, x.pend = some q → s.domNs q.dom < q.start → x.run = some r → x.next ≤ s.domNs r.dom →
        ∃ u, exec (.ppsEdge m) s = .next u ∧ u.pps m = { x with next := x.next + r.period, active := true, began := x.next } ∧
          u.ctr .timPpsEdges m = s.ctr .timPpsEdges m + 1) ∧
      (∀ r : PpsSched, x.pend = none → x.run = some r →
        (x.next ≤ s.domNs r.dom →
          ∃ u, exec (.ppsEdge m) s = .next u ∧ u.pps m = { x with next := x.next + r.period, active := true, began := x.next } ∧
            u.ctr .timPpsEdges m = s.ctr .timPpsEdges m + 1) ∧
        (s.domNs r.dom < x.next → exec (.ppsEdge m) s = .next s))) ∧
    (∀ r : PpsSched, x.run = some r → x.active = true →
      (x.began + r.width ≤ s.domNs r.dom →
        ∃ u, exec (.ppsPulseEnd m) s = .next u ∧ u.pps m = { x with active := false } ∧ keeps [.regs, .ctrs, .net] s u ∧
          (s.op = .run → s.phys.rstLow = false → u.ppsLevel m = s.on F.timPpsCfg_pol m)) ∧
      (s.domNs r.dom < x.began + r.width → exec (.ppsPulseEnd m) s = .next s))

/-! ## Legacy buses (chapter 09) -/

/-- A frame offered to a CAN channel is dropped by the first of the five tests that it fails, and queued with its ordinal otherwise (R250). A
valid frame is counted and goes through the receive FIFO to the classifier, unless that holds 32 frames or it is a remote frame (R248). An error is counted by its kind and moves the
error counters, which give the state: entry into bus-off is counted and raised, and flushes with bo_flush; recovery starts after the delay or
by command, and ends error-active (R249). In selective mode the counters hold (R265). A stalled classifier leaves the frame in the FIFO.
In QUIET and LINK_DOWN only a frame on the bus is completed, and in LINK_DOWN none (R336). No error stands in a memory word in the clauses
on reception and transmission, and no flip is armed where the frame says that registers stay. -/
def Obligations.CanChannels : Prop :=
  ∀ (s : State) (n : Fin 16), let c := s.canCh n
    (∀ (l : LegRec) (ord : BitVec 64), s.fabricOn = true →
      let full := 64 ≤ c.txq.length ∨ 16384 < (c.txq.foldl (fun a x => a + x.leg.data.length) 0) + l.data.length
      (s.canOpen n = false → exec (.legacyTxOffer n l ord) s = .next (s.bump .canTxDropState n)) ∧
      (s.canOpen n = true → 2 ≤ c.fc → s.on F.canCtrl_bo_flush n = true →
        exec (.legacyTxOffer n l ord) s = .next (s.bump .canTxDropBusoff n)) ∧
      (s.canOpen n = true → c.fc < 2 ∨ s.on F.canCtrl_bo_flush n = false →
        (s.canFmtOk n l.fmt = false → exec (.legacyTxOffer n l ord) s = .next (s.bump .canTxDropFmt n)) ∧
        (s.canFmtOk n l.fmt = true → ord.toNat < tblGet c.ords 0 l.ident →
          exec (.legacyTxOffer n l ord) s = .next (s.bump .canTxDropOrder n)) ∧
        (s.canFmtOk n l.fmt = true → tblGet c.ords 0 l.ident ≤ ord.toNat →
          (full → exec (.legacyTxOffer n l ord) s = .next (s.bump .canTxDropFull n)) ∧
          (¬full → c.offer.isSome = true → s.on F.memFlipCtrl_arm = false →
            ∃ u, exec (.legacyTxOffer n l ord) s = .next u ∧ (u.canCh n).txq = c.txq ++ [⟨l, ord.toNat, s.tim.lt, txqPlace c.txq⟩] ∧
              (u.canCh n).offer = c.offer ∧ tblGet (u.canCh n).ords 0 l.ident = ord.toNat ∧ keeps [.regs, .ctrs, .tim] s u) ∧
          (¬full → c.offer = none → c.txq = [] → c.joined = true → c.fc < 2 → s.fld F.canTxCfg_max_age_us n = 0 →
              s.memClean = true → s.on F.memFlipCtrl_arm = false →
            ∃ u, exec (.legacyTxOffer n l ord) s = .next u ∧ (u.canCh n).txq = [⟨l, ord.toNat, s.tim.lt, 0⟩] ∧
              (u.canCh n).offer = some ⟨l, ord.toNat, s.tim.lt, 0⟩ ∧ keeps [.regs, .ctrs, .tim] s u)))) ∧
    (∀ (l : LegRec) (ago : BitVec 32), s.forwards = true → s.canOn n = true → s.canMode n ≠ 2 → s.canFmtOk n l.fmt = true →
        s.quiet = false → s.legacyStandby = false → 0 < c.rec_ → c.rec_ ≤ 127 → c.tec ≤ 255 →
      (s.net.legRx = [] → s.memClean = true → s.on F.memFlipCtrl_arm = false →
        ∃ u, exec (.canFrameRx n l false false ago) s = .next u ∧ u.ctr .canRxFrames n = s.ctr .canRxFrames n + 1 ∧
          u.net.ord = s.net.ord + 1 ∧ (u.canCh n).rec_ = c.rec_ - 1 ∧ u.net.legRx = []) ∧
      (s.legHeld (32 + n) < 32 →
        ∃ u, exec (.canFrameRx n l false true ago) s = .next u ∧ u.ctr .canRxFrames n = s.ctr .canRxFrames n + 1 ∧
          u.net.ord = s.net.ord ∧ (u.canCh n).rec_ = c.rec_ - 1 ∧
          ∃ k, u.net.legRx = s.net.legRx ++ [⟨32 + n, l, s.tim.lt - ago.toNat, s.tim.lt, k⟩]) ∧
      (32 ≤ s.legHeld (32 + n) → ∀ stall,
        ∃ u, exec (.canFrameRx n l false stall ago) s = .next u ∧ u.ctr .canRxDropOvf n = s.ctr .canRxDropOvf n + 1 ∧
          u.net.ord = s.net.ord ∧ u.net.legRx = s.net.legRx) ∧
      (∀ stall, ∃ u, exec (.canFrameRx n l true stall ago) s = .next u ∧ u.ctr .canRxDropRtr n = s.ctr .canRxDropRtr n + 1 ∧
        u.net.ord = s.net.ord)) ∧
    (s.canOn n = true → s.quiet = false ∨ c.offer.isSome = true → ∀ (e : CanErr) (step : CanStep),
      (s.canMode n = 2 → ∀ tx, exec (.canError n e tx step) s = .next (s.bump (canErrCtr e) n)) ∧
      (s.canMode n ≠ 2 →
        (∃ u, exec (.canError n e true step) s = .next u ∧ u.ctr (canErrCtr e) n = s.ctr (canErrCtr e) n + 1 ∧
          (u.canCh n).tec = c.tec + step.n ∧ (u.canCh n).rec_ = c.rec_ ∧ (u.canCh n).fc = canState (c.tec + step.n) c.rec_ ∧
          (255 < c.tec + step.n → (u.canCh n).offAt = s.tim.lt ∧ u.ctr .canBusoff n = s.ctr .canBusoff n + 1 ∧
            getBit (u.rd .evtStat (Ev.canBusoff n / 32)) (Ev.canBusoff n % 32) = true ∧
            (s.on F.canCtrl_bo_flush n = true → (u.canCh n).txq = [] ∧
              u.ctr .canTxDropBusoff n = s.ctr .canTxDropBusoff n + BitVec.ofNat 64 c.txq.length))) ∧
        (∃ u, exec (.canError n e false step) s = .next u ∧ u.ctr (canErrCtr e) n = s.ctr (canErrCtr e) n + 1 ∧
          (u.canCh n).tec = c.tec ∧ (u.canCh n).rec_ = min 255 (c.rec_ + step.n)))) ∧
    (c.fc = 2 →
      (s.fabricOn = true → s.on F.canCtrl_bo_auto n = true → c.offAt + tkMs (s.fld F.canBoCfg_bo_delay_ms n) ≤ s.tim.lt →
        ∃ u, exec (.canBusoffDelayExpiry n) s = .next u ∧ u.canCh n = { c with fc := 3 } ∧ keeps [.regs, .ctrs, .tim] s u) ∧
      (s.on F.canCtrl_bo_auto n = false → exec (.canBusoffDelayExpiry n) s = .next s)) ∧
    (∀ (p : Path) (data : Word), s.servesReg p .canBoCfg n = true → F.canBoCfg_recover.of data = 1 →
      (c.fc = 2 → ∃ u, exec (.canRecover p n data) s = .next u ∧ u.canCh n = { c with fc := 3 }) ∧
      (c.fc < 2 → ∃ u, exec (.canRecover p n data) s = .next u ∧ u.canCh n = c ∧
        getBit (u.rd .evtStat (Ev.accessErr .can / 32)) (Ev.accessErr .can % 32) = true)) ∧
    (s.fabricOn = true → c.fc = 3 →
      (s.canMode n ≠ 2 →
        ∃ u, exec (.canRecoveryComplete n) s = .next u ∧ (u.canCh n).tec = 0 ∧ (u.canCh n).rec_ = 0 ∧ (u.canCh n).fc = 0) ∧
      (s.canMode n = 2 → exec (.canRecoveryComplete n) s = .next s)) ∧
    (s.canOn n = true →
      (∀ x : LegTx, c.offer = some x →
        (s.pair.safe ≠ some .linkDown → ∃ u, exec (.canTxComplete n) s = .next u ∧ u.ctr .canTxFrames n = s.ctr .canTxFrames n + 1 ∧
          Out.can n (x.leg.fmt == 1 && s.on F.canCtrl_brs n) x.leg ∈ u.out ∧ (u.canCh n).tec = c.tec - 1) ∧
        (s.pair.safe = some .linkDown → exec (.canTxComplete n) s = .next s) ∧
        (s.canOpen n = true → s.fld F.canTxCfg_max_age_us n = 0 → s.memClean = true →
          ∃ u, exec (.canArbLost n) s = .next u ∧ u.ctr .canArbLost n = s.ctr .canArbLost n + 1 ∧
            u.canCh n = { c with offer := canBest (canOldest [] c.txq) } ∧ keeps [.regs, .tim] s u)) ∧
      (c.offer = none → exec (.canTxComplete n) s = .next s)) ∧
    (s.fabricOn = true → s.on F.canCtrl_en n = true →
      ∃ u, exec (.canIntegrationComplete n) s = .next u ∧ (u.canCh n).joined = true ∧ (u.canCh n).tec = c.tec ∧ (u.canCh n).fc = c.fc)

/-- A frame offered to a LIN channel becomes the data of its publish entry, replacing unsent data in state mode and queued up to 4 deep in
queue mode, or is dropped by the first test that it fails (R258). A master starts slots in their order and time, a slave answers headers of
right parity, another is bus activity alone (R259, R260). A response is checked, counted and delivered through the receive FIFO of 16, or is a collision of an event-triggered slot (R257, R259); a switch
takes effect at the end of the slot, and a slave that hears nothing for 4 s goes idle (R259, R260). A follower that loses the beacon clears
plca_status, counts it and reports it with the change of rate of R63, and a beacon sets it (R267). No error stands in a memory word in the
clauses on reception and on data sent, and no flip is armed where the frame says that registers stay. -/
def Obligations.LinChannelsAndPlca : Prop :=
  ∀ (s : State) (n : Fin 8), let c := s.linCh n
    (∀ (l : LegRec) (ord : BitVec 64), s.fabricOn = true → let id := linId l.ident
      let held := tblGet c.pub [] id
      (s.linRuns n = false → exec (.linTxOffer n l ord) s = .next (s.bump .linTxDropState n)) ∧
      (s.linRuns n = true → s.legacyStandby = false → s.quiet = false →
        (s.linDir n id ≠ 1 ∨ l.data.length ≠ s.fld F.linFrame_len (linFrm n id) →
          exec (.linTxOffer n l ord) s = .next (s.bump .linTxDropNopub n)) ∧
        (s.linDir n id = 1 → l.data.length = s.fld F.linFrame_len (linFrm n id) →
          (ord.toNat < tblGet c.ords 0 id → exec (.linTxOffer n l ord) s = .next (s.bump .linTxDropOrder n)) ∧
          (tblGet c.ords 0 id ≤ ord.toNat → s.on F.linFrame_queue (linFrm n id) = true →
            (4 ≤ held.length → exec (.linTxOffer n l ord) s = .next (s.bump .linTxDropFull n)) ∧
            (held.length < 4 → s.on F.memFlipCtrl_arm = false → ∃ u, exec (.linTxOffer n l ord) s = .next u ∧
              tblGet (u.linCh n).pub [] id = held ++ [⟨l, ord.toNat, s.tim.lt, txqPlace held⟩] ∧ keeps [.regs, .ctrs, .tim] s u)) ∧
          (tblGet c.ords 0 id ≤ ord.toNat → s.on F.linFrame_queue (linFrm n id) = false →
            ∃ u, exec (.linTxOffer n l ord) s = .next u ∧ tblGet (u.linCh n).pub [] id = [⟨l, ord.toNat, s.tim.lt, 0⟩] ∧
              id ∉ (u.linCh n).sent ∧ tblGet (u.linCh n).ords 0 id = ord.toNat ∧
              u.ctr .linTxReplaced n = s.ctr .linTxReplaced n + (if held ≠ [] ∧ id ∉ c.sent then 1 else 0))))) ∧
    (s.linMaster n = true →
      (∀ at_, c.slotAt = some at_ → s.tim.lt < at_ + tkUs (s.fld F.linSlot_slot_us (linSlotAt n (s.linEntry n))) →
        exec (.linSlotStart n) s = .next s) ∧
      (∀ b len : Nat, c.slotAt = none → c.sw = none → c.wait = none → s.linTab n c.table = some (b, len) →
        let e := linSlotAt n (b + c.idx)
        let id := s.fld F.linSlot_frame_id e
        let hdr := Out.lin n [0x55, BitVec.ofNat 8 (linPid id)]
        s.fld F.linSlot_type e = 0 →
          (∀ (x : LegTx) (r : List LegTx), s.memClean = true → s.linDir n id = 1 → tblGet c.pub [] id = x :: r →
            ∃ u, exec (.linSlotStart n) s = .next u ∧ (u.linCh n).slotAt = some s.tim.lt ∧
              u.out = .lin n (x.leg.data ++ [s.linSum n id x.leg.data]) :: hdr :: s.out ∧
              u.ctr .linTxFrames n = s.ctr .linTxFrames n + 1 ∧
              tblGet (u.linCh n).pub [] id = if s.on F.linFrame_queue (linFrm n id) then r else x :: r) ∧
          (s.linDir n id = 2 →
            ∃ u, exec (.linSlotStart n) s = .next u ∧ (u.linCh n).wait = some id ∧ u.out = hdr :: s.out ∧ u.ctrs = s.ctrs)) ∧
      (∀ at_ w : Nat, c.slotAt = some at_ → at_ + tkUs (s.fld F.linSlot_slot_us (linSlotAt n (s.linEntry n))) ≤ s.tim.lt →
          c.coll = false → c.back = none → c.sw = some w →
        ∃ u, exec (.linSlotStart n) s = .next u ∧ (u.linCh n).table = w ∧ (u.linCh n).idx = 0 ∧ (u.linCh n).sw = none)) ∧
    (∀ pid : Byte, let id := pid.toNat % 64
      (linPid id ≠ pid.toNat → exec (.linHeaderRx n pid) s = .next
        (if s.forwards && s.linRuns n && !s.on F.linCtrl_master n && !s.quiet then s.setLin n { c with lastAt := s.tim.lt } else s)) ∧
      (∀ (x : LegTx) (r : List LegTx), linPid id = pid.toNat → s.forwards = true → s.linRuns n = true →
          s.on F.linCtrl_master n = false → s.quiet = false → s.legacyStandby = false → c.wait = none →
          s.linDir n id = 1 → tblGet c.pub [] id = x :: r → s.memClean = true →
        ∃ u, exec (.linHeaderRx n pid) s = .next u ∧ u.out = .lin n (x.leg.data ++ [s.linSum n id x.leg.data]) :: s.out ∧
          u.ctr .linTxFrames n = s.ctr .linTxFrames n + 1)) ∧
    (∀ (id : Nat) (data : List Byte) (sum : Byte) (ago : BitVec 32), s.forwards = true → s.linRuns n = true → s.quiet = false →
        s.legacyStandby = false → c.wait = some id →
      (c.event = false → s.linDir n id = 2 →
        (s.linSum n id data = sum →
          (s.net.legRx = [] → s.memClean = true → s.on F.memFlipCtrl_arm = false →
            ∃ u, exec (.linResponseRx n data sum .none false ago) s = .next u ∧ u.net.ord = s.net.ord + 1 ∧
              u.ctr .linRxFrames n = s.ctr .linRxFrames n + 1 ∧ u.net.legRx = []) ∧
          (s.legHeld (48 + n) < 16 →
            ∃ u, exec (.linResponseRx n data sum .none true ago) s = .next u ∧ u.net.ord = s.net.ord ∧
              u.ctr .linRxFrames n = s.ctr .linRxFrames n + 1 ∧ (u.linCh n).wait = none ∧
              ∃ k, u.net.legRx = s.net.legRx ++ [⟨48 + n, ⟨linPid id, false, 0, 0, 0, 0, false, data⟩, s.tim.lt - ago.toNat, s.tim.lt, k⟩]) ∧
          (16 ≤ s.legHeld (48 + n) → ∀ stall,
            ∃ u, exec (.linResponseRx n data sum .none stall ago) s = .next u ∧ u.net.ord = s.net.ord ∧
              u.ctr .linRxDropOvf n = s.ctr .linRxDropOvf n + 1 ∧ u.net.legRx = s.net.legRx)) ∧
        (s.linSum n id data ≠ sum → ∀ stall, ∃ u, exec (.linResponseRx n data sum .none stall ago) s = .next u ∧
          u.net.ord = s.net.ord ∧ u.ctr .linErrChecksum n = s.ctr .linErrChecksum n + 1 ∧ (u.linCh n).wait = none)) ∧
      (c.event = false → ∀ (e : LinErr) (x : Ctr) (stall : Bool), (e, x) ∈ [(LinErr.bit, Ctr.linErrBit), (.framing, .linErrFraming), (.sync, .linErrSync)] →
        ∃ u, exec (.linResponseRx n data sum e stall ago) s = .next u ∧ u.ctr x n = s.ctr x n + 1 ∧ (u.linCh n).wait = none ∧
          u.net.ord = s.net.ord) ∧
      (c.event = true → ∀ stall, ∃ u, exec (.linResponseRx n data sum .framing stall ago) s = .next u ∧
        (u.linCh n).coll = true ∧ u.ctr .linEtfCollision n = s.ctr .linEtfCollision n + 1)) ∧
    (∀ (p : Path) (data : Word), s.servesReg p .linSched n = true → F.linSched_switch.of data = 1 → c.sw = none →
      ∃ u, exec (.linSchedSwitch p n data) s = .next u ∧ u.linCh n = { c with sw := some (F.linSched_next_table.of data) }) ∧
    (s.fabricOn = true → s.linRuns n = true →
      (s.on F.linCtrl_master n = true → exec (.linBusIdle n) s = .next s) ∧
      (s.on F.linCtrl_master n = false → c.lastAt + tkS 4 ≤ s.tim.lt →
        ∃ u, exec (.linBusIdle n) s = .next u ∧ u.linCh n = { c with sleep := true, wait := none } ∧
          getBit (u.rd .evtStat (Ev.linIdle n / 32)) (Ev.linIdle n % 32) = true)) ∧
    (∀ k : Fin 2, s.fabricOn = true → s.plcaOn k = true →
      (s.plcaLead k = false → s.on F.tssPlcaStat_plca_status k = true →
        ∃ u, exec (.plcaBeaconLoss k) s = .next u ∧ u.on F.tssPlcaStat_plca_status k = false ∧
          u.ctr .tssPlcaLoss k = s.ctr .tssPlcaLoss k + 1 ∧
          getBit (u.rd .evtStat (Ev.plcaChange k / 32)) (Ev.plcaChange k % 32) = true ∧
          getBit (u.rd .evtStat (Ev.rateChange (12 + k) / 32)) (Ev.rateChange (12 + k) % 32) = true) ∧
      (∃ u, exec (.plcaBeaconRx k) s = .next u ∧ u.on F.tssPlcaStat_plca_status k = true ∧ regsBut [.tssPlcaStat] s u))

/-! ## The cipher engine (chapter 10) -/

/-- enc_an may name only an SA in use whose key is loaded (R281). DERIVE_MKA holds the pair of a CAK, MKPDU_ICV answers the CMAC under its
ICK, UNWRAP_SAK and GEN_SAK load an SA key, and CLEAR_SA erases it; a refused key slot is KEY_DENIED and counted, a slot without pair
NOT_DERIVED, a busy SA SA_IN_USE, a bad wrap UNWRAP_FAIL and a failed TRNG ENTROPY, and none of these changes an SA (R273, R283, R293).
No error stands in a memory word where a key slot is read. -/
def Obligations.MacsecKeyCommands : Prop :=
  ∀ (s : State) (p : Path),
    let res (u : State) (r : Nat) : Prop := u.fld F.cipKcmdStat_result = r
    let same (u : State) : Prop := u.net.cip = s.net.cip ∧ ∀ n, u.saWord n = s.saWord n
    (∀ (q : Fin 18) (data : Word), s.servesReg p .cipTxscCtrl q = true → secyPort q = true →
      let sa := 4 * q.val + F.cipTxscCtrl_enc_an.of data
      (s.saInUse sa = true → s.saKeyOk sa = true →
        ∃ u, exec (.encAnWrite p q data) s = .next u ∧ u.fld F.cipTxscCtrl_enc_an q = F.cipTxscCtrl_enc_an.of data ∧
          regsBut [.cipTxscCtrl] s u) ∧
      (s.saInUse sa = false ∨ s.saKeyOk sa = false →
        ∃ u, exec (.encAnWrite p q data) s = .next u ∧ u.rd .cipTxscCtrl q = s.rd .cipTxscCtrl q ∧
          getBit (u.rd .evtStat (Ev.accessErr .cip / 32)) (Ev.accessErr .cip % 32) = true)) ∧
    (s.servesReg p .cipKcmd 0 = true → s.memClean = true → ¬(p = .fw ∧ s.pair.mode = .split) → ∀ (k : Byte) (rx : Bool) (sa : BitVec 10),
      let len := s.fld F.cipJobArg_len
      (s.mkaDenied p k.toNat = true →
        (1 ≤ len → len ≤ 32 → ∃ u, exec (.deriveMka p k) s = .next u ∧ res u 3 ∧ same u ∧ u.ctr .cipKeyDenied = s.ctr .cipKeyDenied + 1) ∧
        (len ≤ 4096 → ∃ u, exec (.mkpduIcv p k) s = .next u ∧ res u 3 ∧ same u ∧ u.ctr .cipKeyDenied = s.ctr .cipKeyDenied + 1) ∧
        ((s.kcmdSa rx sa.toNat).isSome = true → ∃ u, exec (.genSak p k rx sa) s = .next u ∧ res u 3 ∧ same u ∧
          u.ctr .cipKeyDenied = s.ctr .cipKeyDenied + 1) ∧
        (∀ n q : Nat, s.kcmdSa rx sa.toNat = some (n, q) → len = s.sakLen q + 8 →
          ∃ u, exec (.unwrapSak p k rx sa) s = .next u ∧ res u 3 ∧ same u ∧ u.ctr .cipKeyDenied = s.ctr .cipKeyDenied + 1)) ∧
      (s.mkaDenied p k.toNat = false →
        (1 ≤ len → len ≤ 32 →
          let ctx := s.winBytes p cipWin (min len 16) ++ List.replicate (16 - len) 0
          let cak := (s.slot k.toNat).bytes
          ∃ u, exec (.deriveMka p k) s = .next u ∧ res u 0 ∧ u.mkaPair k.toNat = some (kdf cak lblIck ctx, kdf cak lblKek ctx) ∧
            u.net.cip.mka.length ≤ 8 ∧ u.net.cip.sak = s.net.cip.sak) ∧
        (len = 0 ∨ 32 < len → ∃ u, exec (.deriveMka p k) s = .next u ∧ res u 2 ∧ same u) ∧
        (s.mkaPair k.toNat = none →
          (len ≤ 4096 → ∃ u, exec (.mkpduIcv p k) s = .next u ∧ res u 12 ∧ same u) ∧
          ∀ n q : Nat, s.kcmdSa rx sa.toNat = some (n, q) →
            (len = s.sakLen q + 8 → ∃ u, exec (.unwrapSak p k rx sa) s = .next u ∧ res u 12 ∧ same u) ∧
            (∃ u, exec (.genSak p k rx sa) s = .next u ∧ res u 12 ∧ same u)) ∧
        (∀ x, s.mkaPair k.toNat = some x →
          (len ≤ 4096 → let icv := cmac x.1 (s.winBytes p cipWin len);
            ∃ u, exec (.mkpduIcv p k) s = .next u ∧ res u 0 ∧ u.winBytes p cipWin icv.length = icv ∧ same u) ∧
          (∀ n q : Nat, s.kcmdSa rx sa.toNat = some (n, q) →
            (s.saBusy n q = true → len = s.sakLen q + 8 →
              (∃ u, exec (.unwrapSak p k rx sa) s = .next u ∧ res u 13 ∧ same u) ∧
              (∃ u, exec (.genSak p k rx sa) s = .next u ∧ res u 13 ∧ same u)) ∧
            (s.saBusy n q = false → len = s.sakLen q + 8 →
              (∀ key, keyUnwrap x.2 (s.winBytes p cipWin len) = some key →
                ∃ u, exec (.unwrapSak p k rx sa) s = .next u ∧ res u 0 ∧ u.sak n = key ∧ u.saKeyOk n = true ∧
                  u.saInUse n = s.saInUse n) ∧
              (keyUnwrap x.2 (s.winBytes p cipWin len) = none →
                ∃ u, exec (.unwrapSak p k rx sa) s = .next u ∧ res u 11 ∧ same u)) ∧
            (s.saBusy n q = false →
              (s.net.cip.trngBad = true → ∃ u, exec (.genSak p k rx sa) s = .next u ∧ res u 10 ∧ same u) ∧
              (s.net.cip.trngBad = false → let key := (s.drawTrng (s.sakLen q)).1; let w := keyWrap x.2 key;
                ∃ u, exec (.genSak p k rx sa) s = .next u ∧ res u 0 ∧ u.sak n = key ∧ u.saKeyOk n = true ∧ u.free = s.free + 1 ∧
                  u.winBytes p cipWin w.length = w))))) ∧
      (∀ n q : Nat, s.kcmdSa rx sa.toNat = some (n, q) →
        (s.saBusy n q = false →
          ∃ u, exec (.clearSa p rx sa) s = .next u ∧ res u 0 ∧ u.saInUse n = false ∧ u.saKeyOk n = false ∧
            tblFind u.net.cip.sak n = none) ∧
        (s.saBusy n q = true → ∃ u, exec (.clearSa p rx sa) s = .next u ∧ res u 13 ∧ same u)))

/-- A job on a context of another class is OWNER and changes nothing (R289). INIT starts a context under an allowed key (R273, R288), UPDATE
and FINAL run its algorithm and answer in the window, and a context whose key was replaced is KEY_CHANGED (R274). SAVE_WRAP answers the
wrapped context, never one that encrypts (R291); RESTORE_WRAP checks the tag, the format, the class and the generation in this order and
counts what it refuses (R292). ECDSA_VERIFY tells a
good signature from a bad one, and RANDOM answers bytes of the TRNG, or ENTROPY; a failed health test stops the TRNG until it recovers (R288,
R293). -/
def Obligations.CipherJobs : Prop :=
  ∀ (s : State) (p : Path) (k : Byte) (c : BitVec 10), s.servesReg p .cipJobCmd 0 = true → s.memClean = true →
    let res (u : State) (r : Nat) : Prop := u.fld F.cipJobStat_result = r
    let alg := s.fld F.cipJobArg_alg
    let len := s.fld F.cipJobArg_len
    let own := s.ctxClass c.toNat = pathCls p
    (¬own →
      (∃ u, exec (.jobInit p k c) s = .next u ∧ res u 7 ∧ u.net.cip = s.net.cip) ∧
      (∃ u, exec (.jobUpdate p k c) s = .next u ∧ res u 7 ∧ u.net.cip = s.net.cip) ∧
      (∃ u, exec (.jobFinal p k c) s = .next u ∧ res u 7 ∧ u.net.cip = s.net.cip) ∧
      (∃ u, exec (.jobSaveWrap p k c) s = .next u ∧ res u 7 ∧ u.net.cip = s.net.cip) ∧
      (∃ u, exec (.jobRestoreWrap p k c) s = .next u ∧ res u 7 ∧ u.net.cip = s.net.cip ∧
        u.ctr .cipCtxRestoreFail = s.ctr .cipCtxRestoreFail + 1)) ∧
    (own → 1 ≤ alg → alg ≤ 6 → let allowed := s.keyAllows k.toNat (pathCls p) (if alg = 4 then 3 else 4)
      (5 ≤ alg ∨ allowed = true →
        ∃ u, exec (.jobInit p k c) s = .next u ∧ res u 0 ∧ u.cipCtx c.toNat = some (ctxInit alg (pathCls p) k.toNat (s.slot k.toNat).gen
          (getBit (s.slot k.toNat).attr 30) (s.winBytes p cipWin 12))) ∧
      (alg ≤ 4 → allowed = false →
        ∃ u, exec (.jobInit p k c) s = .next u ∧ res u 3 ∧ u.net.cip = s.net.cip ∧ u.ctr .cipKeyDenied = s.ctr .cipKeyDenied + 1)) ∧
    (∀ x : CipCtx, own → s.cipCtx c.toNat = some x →
      (x.keyed = true → (s.slot x.slot).gen ≠ x.gen →
        (∃ u, exec (.jobUpdate p k c) s = .next u ∧ res u 4 ∧ u.net.cip = s.net.cip) ∧
        (∃ u, exec (.jobFinal p k c) s = .next u ∧ res u 4 ∧ u.net.cip = s.net.cip)) ∧
      ((x.keyed = true → (s.slot x.slot).gen = x.gen ∧ s.slotEmpty x.slot = false) →
        let key := (s.slot x.slot).bytes
        let m := s.winBytes p cipWin len
        (len ≤ 4096 →
          (x.alg ≤ 3 → x.aadDone = false → let o := x.gcmUpdate key (s.on F.cipJobArg_aad) m;
            ∃ u, exec (.jobUpdate p k c) s = .next u ∧ res u 0 ∧ u.cipCtx c.toNat = some o.1 ∧ u.winBytes p cipWin o.2.length = o.2) ∧
          (x.alg = 4 → ∃ u, exec (.jobUpdate p k c) s = .next u ∧ res u 0 ∧ u.cipCtx c.toNat = some (x.cmacUpdate key m)) ∧
          (4 < x.alg → ∃ u, exec (.jobUpdate p k c) s = .next u ∧ res u 0 ∧ u.cipCtx c.toNat = some (x.shaUpdate m))) ∧
        (x.alg = 2 → ∃ u, exec (.jobFinal p k c) s = .next u ∧ u.cipCtx c.toNat = none ∧
          res u (if x.gcmFinal key = s.winBytes p cipWin 16 then 0 else 5)) ∧
        (x.alg = 4 → let o := cmacLast key x.acc x.part;
          ∃ u, exec (.jobFinal p k c) s = .next u ∧ res u 0 ∧ u.cipCtx c.toNat = none ∧ u.winBytes p cipWin o.length = o) ∧
        (4 < x.alg → ∃ u, exec (.jobFinal p k c) s = .next u ∧ res u 0 ∧ u.cipCtx c.toNat = none ∧
          u.winBytes p cipWin x.shaFinal.length = x.shaFinal) ∧
        (s.keyAllows k.toNat (pathCls p) 6 = true → getBit (s.slot k.toNat).attr 30 = true →
          (x.alg = 1 → ∃ u, exec (.jobSaveWrap p k c) s = .next u ∧ res u 6 ∧ u.net.cip = s.net.cip) ∧
          (x.alg ≠ 1 → s.net.cip.trngBad = false → let b := s.ctxBlob x (s.ctxClass c.toNat) k.toNat (s.drawTrng 12).1;
            ∃ u, exec (.jobSaveWrap p k c) s = .next u ∧ res u 0 ∧ u.net.cip = s.net.cip ∧ u.winBytes p cipWin b.length = b)))) ∧
    (own → s.keyAllows k.toNat (pathCls p) 6 = true →
      let b := s.winBytes p cipWin 292
      let refused (r : Nat) : Prop := ∃ u, exec (.jobRestoreWrap p k c) s = .next u ∧ res u r ∧ u.net.cip = s.net.cip ∧
        u.ctr .cipCtxRestoreFail = s.ctr .cipCtxRestoreFail + 1
      let o := gcmDec (s.slot k.toNat).bytes (bytesAt b 8 12) (b.take 8 ++ s.uid) (bytesAt b 20 256) (bytesAt b 276 16)
      (o.2 = false ∨ getBit (s.slot k.toNat).attr 30 = false → refused 5) ∧
      (o.2 = true → getBit (s.slot k.toNat).attr 30 = true →
        (fieldAt b 0 4 ≠ 0x58574301 ∨ fieldAt b 4 2 ≠ 256 → refused 2) ∧
        (fieldAt b 0 4 = 0x58574301 → fieldAt b 4 2 = 256 →
          (fieldAt b 6 1 ≠ s.ctxClass c.toNat → refused 7) ∧
          (fieldAt b 6 1 = s.ctxClass c.toNat →
            ((s.slot (ctxOf o.1).slot).gen ≠ (ctxOf o.1).gen → refused 4) ∧
            ((s.slot (ctxOf o.1).slot).gen = (ctxOf o.1).gen →
              ∃ u, exec (.jobRestoreWrap p k c) s = .next u ∧ res u 0 ∧ u.cipCtx c.toNat = some (ctxOf o.1) ∧
                u.ctr .cipCtxRestoreFail = s.ctr .cipCtxRestoreFail))))) ∧
    (own → s.keyAllows k.toNat (pathCls p) 6 = false →
      ∃ u, exec (.jobRestoreWrap p k c) s = .next u ∧ res u 3 ∧ u.net.cip = s.net.cip ∧ u.ctr .cipKeyDenied = s.ctr .cipKeyDenied + 1 ∧
        u.ctr .cipCtxRestoreFail = s.ctr .cipCtxRestoreFail + 1) ∧
    (let b := s.winBytes p cipWin 160;
      ∃ u, exec (.jobEcdsaVerify p) s = .next u ∧ u.net = s.net ∧
        res u (if ecdsaOk (bytesAt b 0 64) (bytesAt b 96 64) (bytesAt b 64 32) then 0 else 9)) ∧
    (len ≤ 4096 →
      (s.net.cip.trngBad = true → ∃ u, exec (.jobRandom p) s = .next u ∧ res u 10 ∧ u.win = s.win) ∧
      (s.net.cip.trngBad = false →
        ∃ u, exec (.jobRandom p) s = .next u ∧ res u 0 ∧ u.winBytes p cipWin len = (s.drawTrng len).1 ∧ u.free = s.free + 1)) ∧
    (s.fabricOn = true → s.net.cip.trngBad = false →
      ∃ u, exec .trngHealthFail s = .next u ∧ u.net.cip.trngBad = true ∧ u.on F.cipTrngStat_health_fail = true ∧
        u.ctr .cipTrngHealthFail = s.ctr .cipTrngHealthFail + 1 ∧ getBit (u.rd .evtStat (Ev.trngFail / 32)) (Ev.trngFail % 32) = true) ∧
    (∃ u, exec .trngHealthRecover s = .next u ∧ u.net.cip.trngBad = false ∧
      keeps [.regs, .ctrs, .keys, .tim, .mem, .mram, .win, .op] s u)

/-! ## The key store (chapter 11) -/

/-- UPDATE answers the result of the first check that fails and changes no slot, repeats the confirmation of the last message, or commits the
new record and confirms it; a store that fails changes no slot and leaves the journal as far as it came (R308 to R313), and the next
recovery commits a record that was prepared (R314). LC_CHANGE answers the first check that
fails, or stores its intent, completes and enters BOOT with cause 0x07; a loss of power leaves the intent (R315 to R317). While either is
open a command is BUSY (R323). The main core of a split pair issues none (R341). No error stands in a memory word where mirrors are read. -/
def Obligations.KeyUpdatesAndLifeCycle : Prop :=
  ∀ (s : State) (p : Path) (data : Word), s.servesReg p .keyCmd 0 = true → F.keyCmd_go.of data = 1 → F.keyCmd_len.of data ≤ 256 →
    let i := keyInst p
    let res (u : State) (r : Nat) : Prop := u.fld F.keyCmdStat_result i = r
    let m := s.winBytes p keyWin (F.keyCmd_len.of data)
    let t := fieldAt m 20 1
    (p = .fw → s.pair.mode = .split → ∀ n, ∃ u, exec (.keyUpdate p data n) s = .next u ∧ u.keys = s.keys ∧ u.win = s.win ∧
      getBit (u.rd .evtStat (Ev.accessErr .key / 32)) (Ev.accessErr .key % 32) = true) ∧
    (¬(p = .fw ∧ s.pair.mode = .split) → s.memClean = true → F.keyCmd_op.of data = 1 →
      (s.keyBusy = true → ∀ n, ∃ u, exec (.keyUpdate p data n) s = .next u ∧ res u 1 ∧ u.keys = s.keys ∧
        u.ctr .keyUpdFail = s.ctr .keyUpdFail + 1) ∧
      (s.keyBusy = false →
        (s.updPre m = 14 → let c := s.keyConfirm t 14;
          ∀ n, ∃ u, exec (.keyUpdate p data n) s = .next u ∧ res u 14 ∧ u.keys = s.keys ∧ u.ctr .keyUpdOk = s.ctr .keyUpdOk + 1 ∧
            u.winBytes p keyWin c.length = c) ∧
        (∀ r, s.updPre m = r → r ≠ 0 → r ≠ 14 → ∀ n, ∃ u, exec (.keyUpdate p data n) s = .next u ∧ res u r ∧ u.keys = s.keys ∧
          u.ctr .keyUpdFail = s.ctr .keyUpdFail + 1 ∧ u.winBytes p keyWin 256 = List.replicate 256 0) ∧
        (s.updPre m = 0 → (s.updKey m).1 ≠ 0 → ∀ n, ∃ u, exec (.keyUpdate p data n) s = .next u ∧ res u (s.updKey m).1 ∧
          u.keys = s.keys ∧ u.ctr .keyUpdFail = s.ctr .keyUpdFail + 1) ∧
        (s.updPre m = 0 → (s.updKey m).1 = 0 → let x := s.updRecord m (s.updKey m).2
          (∃ u, exec (.keyUpdate p data 4) s = .next u ∧ res u 0 ∧ u.slot t = x ∧ (∀ j, j ≠ t → u.slot j = s.slot j) ∧
            u.keys.journal = none ∧ u.ctr .keyUpdOk = s.ctr .keyUpdOk + 1 ∧ u.fld F.keyCmdStat_slot i = t ∧
            u.winBytes p keyWin (u.keyConfirm t 0).length = u.keyConfirm t 0) ∧
          (∀ n : Fin 5, n.val < 4 → ∃ u, exec (.keyUpdate p data n) s = .next u ∧ res u 12 ∧
            u.keys = { s.keys with journal := if n.val = 0 then none else some ⟨t, if n.val = 1 then none else some (s.sealRec x)⟩ }) ∧
          (∀ n : Fin 5, n.val = 2 ∨ n.val = 3 →
            (s.journalTo t n x).journalRecover.slot t = { x with last := 2 } ∧ (s.journalTo t n x).journalRecover.keys.journal = none)))) ∧
    (¬(p = .fw ∧ s.pair.mode = .split) → s.memClean = true → F.keyCmd_op.of data = 2 → s.keyBusy = false →
      (∀ r, s.lcCheck m = r → r ≠ 0 → ∀ cut, ∃ u, exec (.keyLcChange p data cut) s = .next u ∧ res u r ∧ u.keys = s.keys ∧
        u.op = s.op ∧ u.ctr .keyLcFail = s.ctr .keyLcFail + 1) ∧
      (s.lcCheck m = 0 →
        (∃ u, exec (.keyLcChange p data false) s = .next u ∧ u.op = .boot ∧ u.cause = 7 ∧ u.prevOp = .run ∧ u.keys.lc = t ∧
          u.keys.lcCtr = fieldAt m 24 4 ∧ u.keys.lcGoal = none ∧ (t = 4 → u.keys.root = none) ∧
          ∀ j, getBit (u.slot j).attr 31 = true → t = 2 ∧ getBit (u.slot j).attr 28 = false ∧ u.slot j = s.slot j) ∧
        (∃ u, exec (.keyLcChange p data true) s = .next u ∧ u.op = s.op ∧
          u.keys = { s.keys with lcGoal := some (t, fieldAt m 24 4) } ∧ u.keyBusy = true)))

/-- ATTEST answers its 160-byte input and the CMAC under the slot's key, with a counter used once; without its STORE nothing is released
(R321, R322), and in a safe state it is refused (R336). In FIELD, DEBUG_CHAL gives a challenge and DEBUG_UNLOCK opens debug access on its
CMAC under slot 2; a wrong answer is counted, every answer uses the challenge up, and after three LC_DENIED is the result (R320). No error
stands in a memory word where mirrors are read. -/
def Obligations.AttestationAndDebug : Prop :=
  ∀ (s : State) (p : Path) (data : Word), s.servesReg p .keyCmd 0 = true → F.keyCmd_go.of data = 1 → F.keyCmd_len.of data ≤ 256 →
    ¬(p = .fw ∧ s.pair.mode = .split) → s.keyBusy = false → s.memClean = true →
    let i := keyInst p
    let res (u : State) (r : Nat) : Prop := u.fld F.keyCmdStat_result i = r
    let m := s.winBytes p keyWin (F.keyCmd_len.of data)
    let k := fieldAt m 16 1
    (F.keyCmd_op.of data = 3 → F.keyCmd_len.of data = 17 →
      (s.op = .run ∨ s.op = .minimal → s.keys.lc = 1 ∨ s.keys.lc = 2 → s.pair.safe = none → s.slotEmpty k = false →
          getBit (s.slot k).attr 10 = true → s.keys.attCtr ≠ 4294967295 →
        (∃ u, exec (.keyAttest p data true) s = .next u ∧ res u 0 ∧ u.keys = { s.keys with attCtr := s.keys.attCtr + 1, lcUnder := s.kLc } ∧
          u.ctr .keyAttest = s.ctr .keyAttest + 1 ∧
          (let a := u.attestInput (bytesAt m 0 16) k; let o := a ++ cmac (s.slot k).bytes a;
            u.winBytes p keyWin o.length = o)) ∧
        (∃ u, exec (.keyAttest p data false) s = .next u ∧ res u 12 ∧ u.keys = s.keys ∧
          u.winBytes p keyWin 256 = List.replicate 256 0)) ∧
      (s.pair.safe.isSome = true → ∀ st, ∃ u, exec (.keyAttest p data st) s = .next u ∧ res u 5 ∧ u.keys = s.keys)) ∧
    (F.keyCmd_op.of data = 4 →
      (s.keys.lc ≠ 2 → ∃ u, exec (.debugChal p data) s = .next u ∧ res u 5 ∧ u.net.dbg = s.net.dbg) ∧
      (s.keys.lc = 2 → s.net.cip.trngBad = false → let c := (s.drawTrng 16).1;
        ∃ u, exec (.debugChal p data) s = .next u ∧ res u 0 ∧ u.net.dbg.chal = some c ∧ u.winBytes p keyWin 16 = c ∧
          u.free = s.free + 1)) ∧
    (F.keyCmd_op.of data = 5 → s.keys.lc = 2 →
      (3 ≤ s.net.dbg.fails → ∃ u, exec (.debugUnlock p data) s = .next u ∧ res u 5 ∧ u.net.dbg = { s.net.dbg with chal := none }) ∧
      (s.net.dbg.fails < 3 → F.keyCmd_len.of data ≠ 16 →
        ∃ u, exec (.debugUnlock p data) s = .next u ∧ res u 2 ∧ u.net.dbg = { s.net.dbg with chal := none }) ∧
      (s.net.dbg.fails < 3 → F.keyCmd_len.of data = 16 → s.slotEmpty 2 = false → getBit (s.slot 2).attr 11 = true →
        (∀ c, s.net.dbg.chal = some c →
          (cmac (s.slot 2).bytes (c ++ s.uid) = m →
            ∃ u, exec (.debugUnlock p data) s = .next u ∧ res u 0 ∧ u.dbgOpen = true ∧ u.net.dbg.chal = none) ∧
          (cmac (s.slot 2).bytes (c ++ s.uid) ≠ m →
            ∃ u, exec (.debugUnlock p data) s = .next u ∧ res u 8 ∧ u.dbgOpen = s.dbgOpen ∧ u.net.dbg.chal = none ∧
              u.net.dbg.fails = s.net.dbg.fails + 1 ∧ u.ctr .keyDbgFail = s.ctr .keyDbgFail + 1)) ∧
        (s.net.dbg.chal = none → ∃ u, exec (.debugUnlock p data) s = .next u ∧ res u 8 ∧ u.dbgOpen = s.dbgOpen)))

/-! ## The control pair and paired devices (chapter 12) -/

/-- A lane mismatch in lockstep, and a fault of the Referee even when the cores have halted (R330), halt the cores, drive FAULT_N low, fill an empty fault record and apply a safe
state no less severe than the configured one or the one that held (R332, R335, R339); the operating state stays. Of faults of one cycle the
lowest code is recorded, with the most severe safe state (R339); the record is exact while no event is routed to FAULT_N. The first write of
GLB_SAFE_CFG locks it (R338). A split holds SPLITTING for its tick, in which a mismatch wins over it; its end and a re-pair change the mode,
count and raise their event; a failed injection test is a fault of
code 3; a repair outside a split or of halted cores, or a split outside lockstep, is ignored, and a host write is ACCESS_ERR (R335, R340 to R343). -/
def Obligations.RefereeFaultsAndSplit : Prop :=
  ∀ s : State,
    let ev (t : State) (n : Nat) : Prop := getBit (t.rd .evtStat (n / 32)) (n % 32) = true
    let faulted (t : State) (code sub : Nat) : Prop := t.pair.halted = true ∧ t.op = s.op ∧ getBit (t.rd .hbrSideband) 0 = false ∧
      (s.fld F.glbFaultRec_code = 0 → t.fld F.glbFaultRec_code = code ∧ t.fld F.glbFaultRec_sub = sub ∧
        (s.safeOf code).code ≤ t.fld F.glbFaultRec_ss ∧ t.rd .glbFaultTime 0 = BitVec.ofNat 32 s.ltNs ∧
        ((∀ n, s.fld F.evtRoute_dest n ≠ 4) → t.fld F.glbFaultRec_ss = (s.safeOf code).code)) ∧
      (s.fld F.glbFaultRec_code ≠ 0 → t.rd .glbFaultTime 0 = s.rd .glbFaultTime 0 ∧
        (s.faultNow = false → t.rd .glbFaultRec = s.rd .glbFaultRec) ∧
        (s.faultNow = true → t.fld F.glbFaultRec_code = min code (s.fld F.glbFaultRec_code) ∧
          t.fld F.glbFaultRec_ss = max (s.fld F.glbFaultRec_ss) (s.safeOf code).code)) ∧
      (∃ x, t.pair.safe = some x ∧ (s.safeOf code).code ≤ x.code ∧ ∀ o, s.pair.safe = some o → o.code ≤ x.code) ∧
      (s.red.role ≠ .detached → t.red.role = .faulted)
    (s.mapUp = true →
      (∀ (lanes : BitVec 8) (k : Fin 8), s.pair.halted = false → s.pair.mode = .lockstep → lanes.getLsbD k = true → (∀ j, j < k.val → lanes.getLsbD j = false) →
        ∃ t, exec (.refereeMismatch lanes) s = .next t ∧ faulted t 1 k) ∧
      (∀ (lanes : BitVec 8) (k : Fin 8), s.pair.halted = false → s.pair.mode = .splitting → s.pair.splitAt = s.tim.lt →
          lanes.getLsbD k = true → (∀ j, j < k.val → lanes.getLsbD j = false) →
        ∃ t, exec (.refereeMismatch lanes) s = .next t ∧ faulted t 1 k ∧ t.pair.mode = .lockstep) ∧
      (∀ lane : Fin 8,
        (∃ t, exec (.refereeFault false lane) s = .next t ∧ faulted t 2 lane) ∧
        (s.pair.mode = .lockstep → ∃ t, exec (.refereeFault true lane) s = .next t ∧ faulted t 2 (8 + lane)))) ∧
    (∀ lanes : BitVec 8, s.pair.mode = .split ∨ s.pair.mode = .repairing ∨ (s.pair.halted = true ∧ s.faultNow = false) → exec (.refereeMismatch lanes) s = .next s) ∧
    (∀ (p : Path) (data : Word), s.servesReg p .glbSafeCfg 0 = true →
      (s.on F.glbSafeCfg_lock = false → F.glbSafeCfg_clk_ss.of data < 3 → F.glbSafeCfg_evt_ss.of data < 3 → F.glbSafeCfg_ls_ss.of data < 3 →
        ∃ t, exec (.safeCfgWrite p data) s = .next t ∧ t.on F.glbSafeCfg_lock = true ∧
          t.fld F.glbSafeCfg_clk_ss = F.glbSafeCfg_clk_ss.of data ∧ t.fld F.glbSafeCfg_evt_ss = F.glbSafeCfg_evt_ss.of data ∧
          t.fld F.glbSafeCfg_ls_ss = F.glbSafeCfg_ls_ss.of data ∧ regsBut [.glbSafeCfg] s t ∧ t.ctrs = s.ctrs) ∧
      (s.on F.glbSafeCfg_lock = true →
        ∃ t, exec (.safeCfgWrite p data) s = .next t ∧ t.rd .glbSafeCfg = s.rd .glbSafeCfg ∧ ev t (Ev.accessErr .glb))) ∧
    (s.servesReg .fw .glbLsCtrl 0 = true →
      (s.pair.mode = .lockstep →
        (∃ t, exec (.lsSplit .fw) s = .next t ∧ t.pair = { s.pair with mode := .splitting, splitAt := s.tim.lt } ∧
          t.regs = s.regs ∧ t.ctrs = s.ctrs ∧ t.op = s.op) ∧
        (∀ f, ∃ t, exec (.lsRepair .fw false f) s = .next t ∧ t.pair = s.pair ∧ t.regs = s.regs ∧ t.ctrs = s.ctrs)) ∧
      (s.pair.mode = .split →
        (∃ t, exec (.lsSplit .fw) s = .next t ∧ t.pair = s.pair ∧ t.regs = s.regs ∧ t.ctrs = s.ctrs) ∧
        (∃ t, exec (.lsRepair .fw false 0) s = .next t ∧ t.pair.mode = .lockstep ∧ ev t Ev.lsRepair ∧
          t.on F.glbLsBist_done = true ∧ t.on F.glbLsBist_pass = true ∧ regsBut (.glbLsBist :: eventRegs) s t) ∧
        (∀ (f : BitVec 8) (k : Fin 8), f.getLsbD k = true → (∀ j, j < k.val → f.getLsbD j = false) →
          ∃ t, exec (.lsRepair .fw false f) s = .next t ∧ t.pair.mode = .repairing ∧ t.on F.glbLsBist_pass = false ∧
            t.fld F.glbLsBist_lane_fail = f.toNat ∧ faulted t 3 k))) ∧
    (s.pair.mode = .splitting → s.splitDone.pair.mode = .split ∧ s.splitDone.pair.splitAt = s.pair.splitAt ∧ ev s.splitDone Ev.lsSplit ∧
      s.splitDone.ctr .glbLsSplits = s.ctr .glbLsSplits + 1 ∧ regsBut eventRegs s s.splitDone ∧ s.splitDone.op = s.op) ∧
    (s.pair.halted = true → ∀ (p : Path) (f : BitVec 8), exec (.lsRepair p true f) s = .next s ∧ exec (.lsSplitTimeout f) s = .next s) ∧
    (s.pair.mode = .split → s.pair.halted = false →
      (∀ p, ∃ t, exec (.lsRepair p true 0) s = .next t ∧ t.pair.mode = .lockstep ∧ ev t Ev.lsRepair) ∧
      (s.pair.splitAt + tkMs (s.fld F.glbLsCfg_split_max_ms) ≤ s.tim.lt →
        ∃ t, exec (.lsSplitTimeout 0) s = .next t ∧ t.pair.mode = .lockstep ∧ ev t Ev.lsSplitTmo ∧ ev t Ev.lsRepair ∧
          t.ctr .glbLsSplitTmo = s.ctr .glbLsSplitTmo + 1) ∧
      (s.tim.lt < s.pair.splitAt + tkMs (s.fld F.glbLsCfg_split_max_ms) → exec (.lsSplitTimeout 0) s = .next s) ∧
      exec (.checkerAccessDenied .other) s = .next ((s.bump .glbLsDenied).emit .checkerBusError) ∧
      (∀ a : CheckerAccess, a ≠ .other → exec (.checkerAccessDenied a) s = .next s)) ∧
    (∀ (p : Path) (f : BitVec 8), p ≠ .fw → s.servesReg p .glbLsCtrl 0 = true →
      (∃ t, exec (.lsSplit p) s = .next t ∧ t.pair.mode = s.pair.mode ∧ ev t (Ev.accessErr .glb)) ∧
      (∃ t, exec (.lsRepair p false f) s = .next t ∧ t.pair.mode = s.pair.mode ∧ ev t (Ev.accessErr .glb)))

/-- A kick of device firmware makes a healthy device alive and its timeout ends that (R345). Heartbeat loss starts the confirmation on a
device that is STANDBY after it, and an edge aborts it and counts the glitch (R349). STATUS carries the UID, role, flags, epoch and digest (R346); a STATUS of the
partner settles DISCOVER by R348 and a dual ACTIVE by R352; an unequal digest is PAIR_MISMATCH. An ECHO is late on an ACTIVE or FAULTED
device and is classified on a STANDBY, and a FRESH is applied as COMMIT there (R347), while no error stands in a memory word and no flip is
armed. In LINK_DOWN no STATUS leaves (R336). -/
def Obligations.PairHeartbeatAndRoles : Prop :=
  ∀ s : State,
    let ev (t : State) (n : Nat) : Prop := getBit (t.rd .evtStat (n / 32)) (n % 32) = true
    let homeBy (u : List Byte) : Prop := if s.on F.redCfg_home_hi then beNat u < beNat s.uid else beNat s.uid < beNat u
    (∀ (p : Path) (data : Word), s.servesReg p .redHbKick 0 = true → F.redHbKick_kick.of data = 1 →
      (p = .fw → ∃ t, exec (.hbKick p data) s = .next t ∧ t.red.kickAt = some s.tim.lt ∧ t.regs = s.regs ∧ t.ctrs = s.ctrs ∧
        (s.op = .run → s.pair.safe = none → 0 < s.fld F.redHbCfg_kick_ms → t.alive = true)) ∧
      (p ≠ .fw → ∃ t, exec (.hbKick p data) s = .next t ∧ t.red = s.red ∧ t.regs = s.regs)) ∧
    (∀ k, s.red.kickAt = some k → k + tkMs (s.fld F.redHbCfg_kick_ms) ≤ s.tim.lt →
      ∃ t, exec .hbKickTimeout s = .next t ∧ t.red.kickAt = none ∧ t.alive = false ∧ getBit (t.rd .hbrSideband) 7 = false ∧
        regsBut [.hbrSideband, .hbrSidebandSeen] s t ∧ t.ctrs = s.ctrs) ∧
    (s.paired = true → s.red.hbLost = false → s.red.edgeAt + tkUs (s.fld F.redHbCfg_loss_us) ≤ s.tim.lt →
      ∃ t, exec .hbLoss s = .next t ∧ t.red.hbLost = true ∧ ev t Ev.hbLoss ∧
        t.red.confirmAt = (if t.red.role = .standby then some (s.red.confirmAt.getD s.tim.lt) else none) ∧ regsBut eventRegs s t ∧ ctrsBut eventCtrs s t) ∧
    (∃ t, exec .redlinkBEdge s = .next t ∧ t.red.hbLost = false ∧ t.red.edgeAt = s.tim.lt ∧ t.red.confirmAt = none ∧
      t.ctr .redHbGlitch = s.ctr .redHbGlitch + BitVec.ofNat 64 s.red.confirmAt.isSome.toNat ∧ t.red.role = s.red.role) ∧
    (s.paired = true →
      (s.red.sentAt = none ∨ (∃ a, s.red.sentAt = some a ∧ a + tkUs 100 ≤ s.tim.lt) →
        (s.pair.safe = some .linkDown → ∃ t, exec .pairStatusSend s = .next t ∧ t.out = s.out ∧ t.red.sentAt = some s.tim.lt) ∧
        (s.pair.safe ≠ some .linkDown → ∃ t f, exec .pairStatusSend s = .next t ∧ t.out = .pairLink f :: s.out ∧ t.red.sentAt = some s.tim.lt ∧ t.regs = s.regs ∧
          bytesAt f 0 6 = List.replicate 6 0xFF ∧ bytesAt f 6 6 = List.replicate 6 0 ∧ bytesAt f 12 4 = [0x88, 0xB5, 1, 2] ∧
          bytesAt f 22 16 = s.uid ∧ fieldAt f 38 1 = s.red.role.code ∧
          fieldAt f 39 1 = s.alive.toNat + 2 * s.pair.safe.isSome.toNat + 4 * (s.pair.mode == .split).toNat ∧
          fieldAt f 40 4 = s.bcr.epoch % 4294967296 ∧ (s.activeDigest.length = 32 → f.drop 44 = s.activeDigest))) ∧
      (s.red.role = .discover → s.red.statusAt = none → s.red.discoverAt + tkMs 200 ≤ s.tim.lt →
        ∃ t, exec .discoverTimeout s = .next t ∧ t.red.role = .active ∧ t.regs = s.regs ∧ t.ctrs = s.ctrs) ∧
      (∀ st : PairStatus,
        (st.digest = s.activeDigest →
          (s.red.role = .discover → st.role = .active →
            ∃ t, exec (.pairStatusRx st) s = .next t ∧ t.red.role = .standby ∧ t.red.partner = some st ∧ t.red.digestEq = true ∧
              ∀ k : Fin 4, t.rd .redPartnerUid k = BitVec.ofNat 32 (fieldAt st.uid (4 * k) 4)) ∧
          (s.red.role = .discover → st.role = .discover → homeBy st.uid →
            ∃ t, exec (.pairStatusRx st) s = .next t ∧ t.red.role = .active ∧ t.red.partner = some st) ∧
          (s.red.role = .discover → st.role = .discover → ¬homeBy st.uid →
            ∃ t, exec (.pairStatusRx st) s = .next t ∧ t.red.role = .standby ∧ t.red.partner = some st) ∧
          (s.red.role = .active → st.role = .active → homeBy st.uid →
            ∃ t, exec (.pairStatusRx st) s = .next t ∧ t.red.role = .active ∧ t.ctr .redDualActive = s.ctr .redDualActive) ∧
          (s.red.role = .active → st.role = .active → ¬homeBy st.uid →
            ∃ t, exec (.pairStatusRx st) s = .next t ∧ (t.red.role = .standby ∨ t.pair.safe.isSome = true) ∧ ev t Ev.pairDualActive ∧
              t.ctr .redDualActive = s.ctr .redDualActive + 1)) ∧
        (st.digest ≠ s.activeDigest → s.red.digestEq = true ∨ s.red.statusAt = none →
          ∃ t, exec (.pairStatusRx st) s = .next t ∧ t.red.digestEq = false ∧ ev t Ev.pairMismatch)) ∧
      (∀ (stream seq : BitVec 16) (port : BitVec 8) (bytes : List Byte), s.fabricOn = true →
        (s.red.role = .active ∨ s.red.role = .faulted →
          exec (.pairEchoRx stream seq port bytes) s = .next (s.bump .redEchoLate)) ∧
        (s.red.role = .standby ∨ s.red.role = .discover → port.toNat < 18 → 14 ≤ bytes.length →
          let u := { s with red := { s.red with echoSeq := tblPut s.red.echoSeq stream.toNat seq.toNat } }.bump .redEchoRx
          let f : Sys2Proof.Machine.Frm := { Frm.blank with inPort := port.toNat, orig := bytes, tail := true, maxLen := s.fld F.macMaxFrame_max_len port.toNat, arr := s.ltNs }
          exec (.pairEchoRx stream seq port bytes) s = .next (u.ingest f (some seq.toNat)).1)) ∧
      (∀ (i : BitVec 16) (v : BitVec 64), i.toNat < 4096 → s.memClean = true → s.mem.parity = [] → s.on F.memFlipCtrl_arm = false → (s.ent 0x32 0 i.toNat).length = 4 →
        (s.red.role = .standby ∨ s.red.role = .discover → s.fv i.toNat < v.toNat →
          ∃ t, exec (.pairFreshRx i v) s = .next t ∧ t.fv i.toNat = v.toNat ∧ t.lastOrd i.toNat = s.lastOrd i.toNat ∧
            ∀ j, j < 4096 → j ≠ i.toNat → t.fv j = s.fv j) ∧
        (s.red.role = .active ∨ v.toNat ≤ s.fv i.toNat → exec (.pairFreshRx i v) s = .next s)))

/-- A STANDBY commits a takeover on a partner that reports FAULTED or a safe state, or when the confirmation time after heartbeat loss has
passed: role ACTIVE, the stream numbers continue from the last echo plus 1 plus the skip, or from 0, role-0 freshness values advance by the
skip, and the takeover is counted (R349, R350); numbers and values are so while no flip is armed. The rebound timer sends REBOUND_REQ; the ACTIVE answers HANDOVER and becomes STANDBY, or
refuses after three takeovers in 600 s; the home device numbers on without a skip (R353, R354). Only a STANDBY does either. -/
def Obligations.TakeoversAndRebounds : Prop :=
  ∀ s : State, s.paired = true →
    let ev (t : State) (n : Nat) : Prop := getBit (t.rd .evtStat (n / 32)) (n % 32) = true
    let took (t : State) (r : Role) : Prop := t.red.role = r ∨ t.pair.safe.isSome = true
    let numbered (t : State) (skip : Nat) : Prop := s.on F.memFlipCtrl_arm = false → ∀ n e, (n, e) ∈ s.listed 0x1A s.epoch 0 4096 → ebit e 0 31 = true → ebit e 2 31 = true →
      s.strState n ≠ [] → eb (t.strState n) 0 31 16 = (match tblFind s.red.echoSeq n with
        | some q => (q + 1 + skip) % 65536
        | none => 0)
    let takeover (t : State) : Prop := took t .active ∧ t.red.takeovers = s.tim.lt :: s.red.takeovers ∧ t.red.confirmAt = none ∧
      numbered t (s.fld F.redSeqSkip_seq_skip) ∧ t.ctr .redTakeovers = s.ctr .redTakeovers + 1 ∧ ev t Ev.pairTakeover ∧ t.op = s.op ∧
      (tblWf s.net.tabs = true → s.on F.memFlipCtrl_arm = false → ∀ n, n < 4096 → fpValid (s.fparam s.epoch n) = true → fpRole1 (s.fparam s.epoch n) = false →
        (s.ent 0x32 0 n).length = 4 → t.fv n = (s.fv n + s.fld F.redSeqSkip_seq_skip) % 2 ^ 64)
    (∀ st : PairStatus, s.red.role = .standby → st.digest = s.activeDigest → (st.role = .faulted ∨ st.safe = true) →
      ∃ t, exec (.pairStatusRx st) s = .next t ∧ takeover t) ∧
    (∀ c, s.red.role = .standby → s.red.hbLost = true → s.red.confirmAt = some c → c + tkUs (s.fld F.redHbCfg_confirm_us) ≤ s.tim.lt →
      ∃ t, exec .takeoverConfirmTimeout s = .next t ∧ takeover t) ∧
    (∀ a, s.red.role = .standby → s.healthy = true → s.red.healthyAt = some a →
        s.fld F.redCfg_rebound_ms ≠ 0 → a + tkMs (s.fld F.redCfg_rebound_ms) ≤ s.tim.lt →
      ∃ t f, exec .reboundTimerExpiry s = .next t ∧ t.out = .pairLink f :: s.out ∧ bytesAt f 12 4 = [0x88, 0xB5, 1, 3] ∧ f.length = 22 ∧
        t.red = { s.red with reboundReq := true, healthyAt := some s.tim.lt } ∧ t.regs = s.regs ∧ t.ctrs = s.ctrs) ∧
    (s.red.role = .active → s.pair.safe ≠ some .linkDown → (s.red.takeovers.filter fun t => decide (s.tim.lt < t + tkS 600)).length < 3 →
      ∃ t f, exec .reboundReqRx s = .next t ∧ .pairLink f ∈ t.out ∧ bytesAt f 12 4 = [0x88, 0xB5, 1, 4] ∧ took t .standby ∧
        t.red.stopped = true ∧ t.ctr .redRebounds = s.ctr .redRebounds + 1 ∧ ev t Ev.pairRebound) ∧
    (s.red.role = .active → 3 ≤ (s.red.takeovers.filter fun t => decide (s.tim.lt < t + tkS 600)).length →
      ∃ t, exec .reboundReqRx s = .next t ∧ took t .active ∧ t.red.stopped = s.red.stopped ∧ t.ctr .redRebounds = s.ctr .redRebounds ∧
        ev t Ev.reboundRefused ∧ regsBut eventRegs s t) ∧
    (s.red.role = .standby →
      ∃ t, exec .handoverRx s = .next t ∧ took t .active ∧ t.red.reboundReq = false ∧ numbered t 0 ∧
        t.ctr .redRebounds = s.ctr .redRebounds + 1 ∧ ev t Ev.pairRebound) ∧
    (s.red.role ≠ .standby → exec .reboundTimerExpiry s = .next s ∧ exec .takeoverConfirmTimeout s = .next s ∧
      exec .handoverRx s = .next s) ∧
    (s.red.role ≠ .active → exec .reboundReqRx s = .next s)

/-! ## Memory integrity (chapter 13) -/

/-- A pass starts when it is due and notes whether the last was late. A scrubbed word with a single-bit error is corrected and counted,
one with an uncorrectable error takes the poison encoding, or is read again from MRAM in the mirror of a key slot (R301), or is a fault of the
Skerry whose memory it is in (R159), one that reads as the poison encoding is
skipped and stays so, and a parity failure makes the entry a miss (R358, R359,
R361, R367); the fourth correction in 10 s makes the row weak (R364, R365). A partial write waits in its merge entry, a full word is written
at once, and an idle port, of which each instance of a memory has one, merges its entries into the stored words, of a table or of no other
use in the model, which stay poisoned when they were bad (R362, R363). Arming, cancelling
and applying the flip mask follow R371, and a second arming is ignored (R12). -/
def Obligations.ScrubbingMergingAndFlips : Prop :=
  ∀ s : State, s.fabricOn = true →
    let ev (t : State) (n : Nat) : Prop := getBit (t.rd .evtStat (n / 32)) (n % 32) = true
    (∀ last : BitVec 16, s.on F.memScrubCfg_en = true →
      let per := s.fld F.memScrubCfg_period_ms
      (s.mem.passAt = none → ∃ t, exec (.scrubPassStart last) s = .next t ∧ t.mem.passAt = some s.tim.lt ∧ t.regs = s.regs) ∧
      (∀ a, s.mem.passAt = some a → a + tkMs (max per last.toNat) ≤ s.tim.lt →
        ∃ t, exec (.scrubPassStart last) s = .next t ∧ t.mem.passAt = some s.tim.lt ∧
          t.fld F.memScrubStat_last_pass_ms = last.toNat ∧ t.on F.memScrubStat_late = (s.on F.memScrubStat_late || decide (per < last.toNat)) ∧
          regsBut [.memScrubStat] s t ∧ t.ctrs = s.ctrs) ∧
      (∀ a, s.mem.passAt = some a → s.tim.lt < a + tkMs (max per last.toNat) → exec (.scrubPassStart last) s = .next s)) ∧
    (∀ (mem : Fin 22) (inst : Fin 32) (addr : BitVec 24), s.on F.memScrubCfg_en = true → inst.val < memInstances mem → s.mem.merge = [] →
        mem.val ≠ 9 → mem.val ≠ 15 →
      let e := s.memErr mem inst addr.toNat
      (memParity mem = false →
        (∀ (u : Upset) (y : Nat), (e = some (.correctable, y) ∧ u = .none) ∨ (e = none ∧ ∃ b, u = .single b ∧ b.toNat = y) →
          ∃ t, exec (.scrubRead mem inst addr u) s = .next t ∧ t.memErr mem inst addr.toNat = none ∧
            t.ctr .memCe mem = s.ctr .memCe mem + 1 ∧ ev t Ev.memCe ∧ t.ctr .memUe mem = s.ctr .memUe mem ∧
            (s.on F.memCeLog0_valid = false → t.on F.memCeLog0_valid = true ∧ t.fld F.memCeLog0_mem_id = mem ∧
              t.fld F.memCeLog0_source = 1 ∧ t.rd .memCeLog1 = BitVec.ofNat 32 addr.toNat) ∧
            (∀ since, tblGet s.mem.trk [] mem = [⟨inst, addr.toNat, 3, since⟩] → s.tim.lt < since + tkS 10 →
              tblGet t.mem.trk [] mem = [] ∧ t.ctr .memWeak mem = s.ctr .memWeak mem + 1 ∧ ev t Ev.memWeak ∧
              t.rd .memWeakLast1 = BitVec.ofNat 32 (addr.toNat / 16 * 16) ∧
              ((mem.val, inst.val, addr.toNat / 16 * 16) ∈ t.mram.repair ∨ t.ctr .memRepairFull = s.ctr .memRepairFull + 1))) ∧
        (∀ y, e = some (.uncorrectable, y) →
          ∃ t, exec (.scrubRead mem inst addr .none) s = .next t ∧
            (mem.val ≠ 6 → mem.val ≠ 7 → mem.val ≠ 10 ∨ 4096 ≤ addr.toNat → t.memErr mem inst addr.toNat = some (.poison, 255)) ∧
            (mem.val = 10 → addr.toNat < 4096 → s.on F.memFlipCtrl_arm = false → t.memErr mem inst addr.toNat = none ∧
              ∃ k, t.slot (addr.toNat / 16) = { s.recSlot (addr.toNat / 16) with last := k }) ∧
            (mem.val = 6 ∨ mem.val = 7 → s.skyOk inst = true →
              t.skyOk inst = false ∧ t.ctr .skyKFaults inst = s.ctr .skyKFaults inst + 1 ∧ ev t Ev.skyFault) ∧
            (mem.val ≠ 6 → mem.val ≠ 7 →
              t.ctr .memUe mem = s.ctr .memUe mem + 1 ∧ ev t Ev.memUe ∧ t.ctr .memCe mem = s.ctr .memCe mem)) ∧
        (∀ u : Upset, (∃ y, e = some (.poison, y)) ∨ ((e = none ∨ ∃ y, e = some (.correctable, y)) ∧ u = .double 255) →
          exec (.scrubRead mem inst addr u) s = .next (s.setMemErr mem inst addr.toNat (some (.poison, 255))))) ∧
      (memParity mem = true → s.parityBad mem addr.toNat = false →
        ∃ t, exec (.scrubRead mem inst addr .parity) s = .next t ∧ t.parityBad mem addr.toNat = true ∧
          t.ctr .memUe mem = s.ctr .memUe mem + 1 ∧ ev t Ev.memUe)) ∧
    (∀ (mem : Fin 22) (inst : Fin 32) (addr : BitVec 24) (bs : List (Option Byte)), memParity mem = false → inst.val < memInstances mem →
        bs.length = 8 → let home := memHome mem inst addr.toNat
      (home = .raw ∨ (∃ id g, home = .tab id g) → s.mem.merge = [] → (∀ i, i < 8 → ∃ b, bs[i]? = some (some b)) →
        ∃ t, exec (.partialWrite mem inst addr bs) s = .next t ∧ t.mem.merge = [] ∧
          (∀ i, i < 8 → bs[i]? = some (some (byteAt (t.memWord mem inst addr.toNat) i))) ∧
          (s.on F.memFlipCtrl_arm = false → t.memErr mem inst addr.toNat = none ∧ t.regs = s.regs ∧ t.ctrs = s.ctrs) ∧
          (s.on F.memFlipCtrl_arm = true → s.fld F.memFlipCtrl_mem_id = mem → s.fld F.memFlipCtrl_instance = inst →
              s.on F.memFlipCtrl_addr_en = false ∨ (s.rd .memFlipAddr).toNat = addr.toNat →
            t.memErr mem inst addr.toNat = flipError false ((s.rd .memFlipD 1).toNat * 4294967296 + (s.rd .memFlipD 0).toNat)
                (s.fld F.memFlipCtrl_chk_mask) ∧
              t.on F.memFlipCtrl_arm = false ∧ t.ctr .memFlipApplied = s.ctr .memFlipApplied + 1)) ∧
      ((∀ x ∈ s.mem.merge, ¬(x.mem = mem.val ∧ x.inst = inst.val ∧ x.addr = addr.toNat)) → bs[0]? = some none →
        let new : MergeEnt := ⟨mem, inst, addr.toNat, bs, s.tim.lt⟩
        ((s.mem.merge.filter fun x => x.mem == mem.val && x.inst == inst.val).length < 8 →
          exec (.partialWrite mem inst addr bs) s = .next { s with mem := { s.mem with merge := s.mem.merge ++ [new] } }) ∧
        (∀ o r, (s.mem.merge.filter fun x => x.mem == mem.val && x.inst == inst.val) = o :: r → 7 ≤ r.length →
          ∃ t, exec (.partialWrite mem inst addr bs) s = .next t ∧ t.mem.merge = (s.mem.merge.filter fun x => x != o) ++ [new]))) ∧
    (∀ mem : Fin 22,
      ((∀ x ∈ s.mem.merge, x.mem = mem.val → x.last + 32 ≤ s.tim.lt) →
        (∃ t, exec (.mergeIdleFlush mem) s = .next t ∧ t.mem.merge = s.mem.merge.filter fun x => x.mem != mem.val) ∧
        (∀ x, s.mem.merge = [x] → x.mem = mem.val → x.bytes[0]? = some none → mem.val ≠ 15 → x.inst < 64 → x.addr < 16777216 →
            s.on F.memFlipCtrl_arm = false → (memHome x.mem x.inst x.addr = .raw ∨ ∃ id g, memHome x.mem x.inst x.addr = .tab id g) →
          let merged (t : State) : Prop := ∀ i, i < 8 → byteAt (t.memWord x.mem x.inst x.addr) i =
            (x.bytes.getD i none).getD (byteAt (s.memWord x.mem x.inst x.addr) i)
          (s.memErr x.mem x.inst x.addr = none →
            ∃ t, exec (.mergeIdleFlush mem) s = .next t ∧ merged t ∧ t.memErr x.mem x.inst x.addr = none ∧ t.regs = s.regs ∧
              t.ctrs = s.ctrs) ∧
          (∀ y, s.memErr x.mem x.inst x.addr = some (.uncorrectable, y) →
            ∃ t, exec (.mergeIdleFlush mem) s = .next t ∧ merged t ∧ t.memErr x.mem x.inst x.addr = some (.poison, 255) ∧
              t.ctr .memUe mem = s.ctr .memUe mem + 1 ∧ ev t Ev.memUe) ∧
          (∀ y, s.memErr x.mem x.inst x.addr = some (.poison, y) →
            ∃ t, exec (.mergeIdleFlush mem) s = .next t ∧ merged t ∧ t.memErr x.mem x.inst x.addr = some (.poison, 255) ∧
              t.ctr .memPoisonUse mem = s.ctr .memPoisonUse mem + 1))) ∧
      ((∀ x ∈ s.mem.merge, x.mem = mem.val → s.tim.lt < x.last + 32) → exec (.mergeIdleFlush mem) s = .next s) ∧
      (∀ x ∈ s.mem.merge, x.mem = mem.val → s.tim.lt < x.last + 32 → ∃ t, exec (.mergeIdleFlush mem) s = .next t ∧
        ∀ y ∈ s.mem.merge, y.mem = mem.val → y.inst = x.inst → y ∈ t.mem.merge)) ∧
    (∀ (p : Path) (data : Word), s.servesReg p .memFlipCtrl 0 = true →
      (F.memFlipCtrl_arm.of data = 1 → F.memFlipCtrl_cancel.of data = 0 → s.on F.memFlipCtrl_arm = true →
        ∃ t, exec (.flipArm p data) s = .next t ∧ t.regs = s.regs ∧ t.ctrs = s.ctrs ∧ t.mem = s.mem) ∧
      (F.memFlipCtrl_arm.of data = 1 → F.memFlipCtrl_cancel.of data = 0 → s.on F.memFlipCtrl_arm = false →
        ∃ t, exec (.flipArm p data) s = .next t ∧ t.on F.memFlipCtrl_arm = true ∧
          t.fld F.memFlipCtrl_mem_id = F.memFlipCtrl_mem_id.of data ∧ t.fld F.memFlipCtrl_instance = F.memFlipCtrl_instance.of data ∧
          t.fld F.memFlipCtrl_chk_mask = F.memFlipCtrl_chk_mask.of data ∧ t.fld F.memFlipCtrl_addr_en = F.memFlipCtrl_addr_en.of data ∧
          regsBut [.memFlipCtrl] s t ∧ t.ctrs = s.ctrs ∧ t.mem = s.mem) ∧
      (F.memFlipCtrl_cancel.of data = 1 →
        ∃ t, exec (.flipCancel p data) s = .next t ∧ t.on F.memFlipCtrl_arm = false ∧ regsBut [.memFlipCtrl] s t ∧ t.ctrs = s.ctrs ∧
          t.mem = s.mem))

/-! ## The whole machine, and rules stated whole -/

/-- From any state whose sparse tables of registers, counters, captured and staged words, windows and flash are canonical (keys strictly
rising, no zero counter listed), a step that answers a next state answers one whose tables are canonical: no command gives a register,
counter or byte a second home. -/
def Obligations.StepKeepsTablesCanonical : Prop :=
  ∀ s t : State, s.canon = true → step s = .next t → t.canon = true

/-- In a state where a stored intent names a transition of R315, every step leaves a state of which the same holds, and the life-cycle state
stays, goes from BLANK to PROVISIONING, or follows one transition of the table: no command leads back to an earlier state. -/
def Obligations.LifeCycleFollowsItsTable : Prop :=
  let inv (u : State) : Prop := ∀ g, u.keys.lcGoal = some g → lcEdge u.keys.lc g.1 = true
  ∀ s t : State, inv s → step s = .next t →
    inv t ∧ (t.keys.lc = s.keys.lc ∨ (s.keys.lc = 0 ∧ t.keys.lc = 1) ∨ lcEdge s.keys.lc t.keys.lc = true)

/-- After reset the device is in BOOT with entry cause 0x00, no command waits, every register instance reads its reset word and every
counter zero, no intent of a life-cycle transition stands, and the tables are canonical. -/
def Obligations.ResetState : Prop :=
  let r := State.reset
  r.op = .boot ∧ r.prevOp = .off ∧ r.cause = 0 ∧ r.pending = [] ∧ r.canon = true ∧ r.pair.safe = none ∧ r.pair.mode = .lockstep ∧
    r.keys.lcGoal = none ∧ (∀ x i, r.rd x i = x.reset i) ∧ (∀ c i, r.ctr c i = 0) ∧
    r.rd .glbSafeCfg = 0x15 ∧ r.rd .memScrubCfg = 0x800003E8 ∧ r.fld F.glbLsCfg_split_max_ms = 100 ∧ r.fld F.redHbCfg_confirm_us = 500

/-- In every life-cycle state of a supplied device, JTAG answers the IDCODE 0x0964_0D3B: version 0x0, part number 0x9640, manufacturer 0x69D
and a fixed 1. Nothing else changes but the level of TEST_EN, which the access carries. -/
def Obligations.JtagIdcode : Prop :=
  ∀ (s : State) (lvl : Bool), s.op ≠ .off →
    ∃ w : Word, exec (.jtagAccess .idcode lvl) s = .next { s with phys := { s.phys with testEn := lvl }, out := .jtag w :: s.out } ∧
      w = 0x09640D3B ∧
      getBits w 31 28 = 0 ∧ getBits w 27 12 = 0x9640 ∧ getBits w 11 1 = 0x69D ∧ getBit w 0 = true

/-- The values committed in PTP format are TIM_DOM_SET, TGA_ADMIN_BASE and SCH_GATE_BASE. A write of word 0 with 1,000,000,000 or more
empties both staging registers, leaves all words of the target, the domain clocks and the schedules as they are, and sets the ACCESS_ERR
event of the owning block. -/
def Obligations.PtpValueOutOfRangeIsDiscarded : Prop :=
  ∀ (s : State) (p : Path) (ns : Word), 1000000000 ≤ ns.toNat →
    let discarded (r : Reg) (i : Nat) (b : Blk) : Prop := s.servesReg p r i = true →
      ∃ t, exec (.ptpValueCommit p (BitVec.ofNat 24 (r.addr i)) ns) s = .next t ∧
        t.rd r i = s.rd r i ∧ t.rd r (i + 1) = s.rd r (i + 1) ∧ t.rd r (i + 2) = s.rd r (i + 2) ∧ t.tim = s.tim ∧ t.net = s.net ∧
        tblFind t.stage (pairKey p (r.addr i + 4)) = none ∧ tblFind t.stage (pairKey p (r.addr i + 8)) = none ∧
        getBit (t.rd .evtStat (Ev.accessErr b / 32)) (Ev.accessErr b % 32) = true ∧ regsBut eventRegs s t
    (∀ d : Fin 4, discarded .timDomSet (3 * d) .tim) ∧ (∀ q : Fin 16, discarded .tgaAdminBase (3 * q) .tga) ∧
      (∀ g : Fin 256, discarded .schGateBase (3 * g) .sch)

/-- A message that the checks find to be the last one accepted is answered REPEAT: no slot, journal or life-cycle state changes, whatever the
progress of the commit would have been, and the window holds the 44-byte confirmation of R311 made with the slot's current key. -/
def Obligations.KeyRepeatChangesNothing : Prop :=
  ∀ (s : State) (p : Path) (data : Word), s.servesReg p .keyCmd 0 = true → F.keyCmd_go.of data = 1 → F.keyCmd_op.of data = 1 →
    F.keyCmd_len.of data ≤ 256 → ¬(p = .fw ∧ s.pair.mode = .split) → s.keyBusy = false → s.memClean = true →
    let m := s.winBytes p keyWin (F.keyCmd_len.of data)
    let n := fieldAt m 20 1
    s.updPre m = 14 →
      let body := [0x4B, 0x55, 0x43, 0x01] ++ s.uid ++ [BitVec.ofNat 8 n, 0x0E, 0, 0] ++ beBytes 4 (s.slot n).ctr
      ∀ k, ∃ t, exec (.keyUpdate p data k) s = .next t ∧ t.keys = s.keys ∧ t.net = s.net ∧
        t.fld F.keyCmdStat_result (keyInst p) = 14 ∧
        t.winBytes p keyWin 44 = body ++ cmac (kdf (s.slot n).bytes lblKcnf s.uid) body
end

