-- ==== Sys2Proof/Laws/State.lean ====
section
/-! SUPPORT. What the basic updates of the state leave alone: one lemma for each update and each field. -/

namespace Sys2Proof.Machine

open Sys2Proof

variable (s : State)

/-! ## State.wr -/

@[simp] theorem State.wr_pending (r : Reg) (i : Nat) (w : Word) : (s.wr r i w).pending = s.pending := rfl
@[simp] theorem State.wr_now (r : Reg) (i : Nat) (w : Word) : (s.wr r i w).now = s.now := rfl
@[simp] theorem State.wr_free (r : Reg) (i : Nat) (w : Word) : (s.wr r i w).free = s.free := rfl
@[simp] theorem State.wr_out (r : Reg) (i : Nat) (w : Word) : (s.wr r i w).out = s.out := rfl
@[simp] theorem State.wr_phys (r : Reg) (i : Nat) (w : Word) : (s.wr r i w).phys = s.phys := rfl
@[simp] theorem State.wr_op (r : Reg) (i : Nat) (w : Word) : (s.wr r i w).op = s.op := rfl
@[simp] theorem State.wr_prevOp (r : Reg) (i : Nat) (w : Word) : (s.wr r i w).prevOp = s.prevOp := rfl
@[simp] theorem State.wr_cause (r : Reg) (i : Nat) (w : Word) : (s.wr r i w).cause = s.cause := rfl
@[simp] theorem State.wr_leftOp (r : Reg) (i : Nat) (w : Word) : (s.wr r i w).leftOp = s.leftOp := rfl
@[simp] theorem State.wr_ctrs (r : Reg) (i : Nat) (w : Word) : (s.wr r i w).ctrs = s.ctrs := rfl
@[simp] theorem State.wr_hold (r : Reg) (i : Nat) (w : Word) : (s.wr r i w).hold = s.hold := rfl
@[simp] theorem State.wr_stage (r : Reg) (i : Nat) (w : Word) : (s.wr r i w).stage = s.stage := rfl
@[simp] theorem State.wr_tim (r : Reg) (i : Nat) (w : Word) : (s.wr r i w).tim = s.tim := rfl
@[simp] theorem State.wr_hbr (r : Reg) (i : Nat) (w : Word) : (s.wr r i w).hbr = s.hbr := rfl
@[simp] theorem State.wr_mqs (r : Reg) (i : Nat) (w : Word) : (s.wr r i w).mqs = s.mqs := rfl
@[simp] theorem State.wr_mem (r : Reg) (i : Nat) (w : Word) : (s.wr r i w).mem = s.mem := rfl
@[simp] theorem State.wr_pwr (r : Reg) (i : Nat) (w : Word) : (s.wr r i w).pwr = s.pwr := rfl
@[simp] theorem State.wr_boot (r : Reg) (i : Nat) (w : Word) : (s.wr r i w).boot = s.boot := rfl
@[simp] theorem State.wr_mram (r : Reg) (i : Nat) (w : Word) : (s.wr r i w).mram = s.mram := rfl
@[simp] theorem State.wr_flash (r : Reg) (i : Nat) (w : Word) : (s.wr r i w).flash = s.flash := rfl
@[simp] theorem State.wr_win (r : Reg) (i : Nat) (w : Word) : (s.wr r i w).win = s.win := rfl
@[simp] theorem State.wr_pair (r : Reg) (i : Nat) (w : Word) : (s.wr r i w).pair = s.pair := rfl
@[simp] theorem State.wr_red (r : Reg) (i : Nat) (w : Word) : (s.wr r i w).red = s.red := rfl
@[simp] theorem State.wr_net (r : Reg) (i : Nat) (w : Word) : (s.wr r i w).net = s.net := rfl
@[simp] theorem State.wr_keys (r : Reg) (i : Nat) (w : Word) : (s.wr r i w).keys = s.keys := rfl

/-! ## State.setFld -/

@[simp] theorem State.setFld_pending (f : RegField) (i v : Nat) : (s.setFld f i v).pending = s.pending := rfl
@[simp] theorem State.setFld_now (f : RegField) (i v : Nat) : (s.setFld f i v).now = s.now := rfl
@[simp] theorem State.setFld_free (f : RegField) (i v : Nat) : (s.setFld f i v).free = s.free := rfl
@[simp] theorem State.setFld_out (f : RegField) (i v : Nat) : (s.setFld f i v).out = s.out := rfl
@[simp] theorem State.setFld_phys (f : RegField) (i v : Nat) : (s.setFld f i v).phys = s.phys := rfl
@[simp] theorem State.setFld_op (f : RegField) (i v : Nat) : (s.setFld f i v).op = s.op := rfl
@[simp] theorem State.setFld_prevOp (f : RegField) (i v : Nat) : (s.setFld f i v).prevOp = s.prevOp := rfl
@[simp] theorem State.setFld_cause (f : RegField) (i v : Nat) : (s.setFld f i v).cause = s.cause := rfl
@[simp] theorem State.setFld_leftOp (f : RegField) (i v : Nat) : (s.setFld f i v).leftOp = s.leftOp := rfl
@[simp] theorem State.setFld_ctrs (f : RegField) (i v : Nat) : (s.setFld f i v).ctrs = s.ctrs := rfl
@[simp] theorem State.setFld_hold (f : RegField) (i v : Nat) : (s.setFld f i v).hold = s.hold := rfl
@[simp] theorem State.setFld_stage (f : RegField) (i v : Nat) : (s.setFld f i v).stage = s.stage := rfl
@[simp] theorem State.setFld_tim (f : RegField) (i v : Nat) : (s.setFld f i v).tim = s.tim := rfl
@[simp] theorem State.setFld_hbr (f : RegField) (i v : Nat) : (s.setFld f i v).hbr = s.hbr := rfl
@[simp] theorem State.setFld_mqs (f : RegField) (i v : Nat) : (s.setFld f i v).mqs = s.mqs := rfl
@[simp] theorem State.setFld_mem (f : RegField) (i v : Nat) : (s.setFld f i v).mem = s.mem := rfl
@[simp] theorem State.setFld_pwr (f : RegField) (i v : Nat) : (s.setFld f i v).pwr = s.pwr := rfl
@[simp] theorem State.setFld_boot (f : RegField) (i v : Nat) : (s.setFld f i v).boot = s.boot := rfl
@[simp] theorem State.setFld_mram (f : RegField) (i v : Nat) : (s.setFld f i v).mram = s.mram := rfl
@[simp] theorem State.setFld_flash (f : RegField) (i v : Nat) : (s.setFld f i v).flash = s.flash := rfl
@[simp] theorem State.setFld_win (f : RegField) (i v : Nat) : (s.setFld f i v).win = s.win := rfl
@[simp] theorem State.setFld_pair (f : RegField) (i v : Nat) : (s.setFld f i v).pair = s.pair := rfl
@[simp] theorem State.setFld_red (f : RegField) (i v : Nat) : (s.setFld f i v).red = s.red := rfl
@[simp] theorem State.setFld_net (f : RegField) (i v : Nat) : (s.setFld f i v).net = s.net := rfl
@[simp] theorem State.setFld_keys (f : RegField) (i v : Nat) : (s.setFld f i v).keys = s.keys := rfl

/-! ## State.bumpBy -/

@[simp] theorem State.bumpBy_pending (c : Ctr) (i n : Nat) : (s.bumpBy c i n).pending = s.pending := rfl
@[simp] theorem State.bumpBy_now (c : Ctr) (i n : Nat) : (s.bumpBy c i n).now = s.now := rfl
@[simp] theorem State.bumpBy_free (c : Ctr) (i n : Nat) : (s.bumpBy c i n).free = s.free := rfl
@[simp] theorem State.bumpBy_out (c : Ctr) (i n : Nat) : (s.bumpBy c i n).out = s.out := rfl
@[simp] theorem State.bumpBy_phys (c : Ctr) (i n : Nat) : (s.bumpBy c i n).phys = s.phys := rfl
@[simp] theorem State.bumpBy_op (c : Ctr) (i n : Nat) : (s.bumpBy c i n).op = s.op := rfl
@[simp] theorem State.bumpBy_prevOp (c : Ctr) (i n : Nat) : (s.bumpBy c i n).prevOp = s.prevOp := rfl
@[simp] theorem State.bumpBy_cause (c : Ctr) (i n : Nat) : (s.bumpBy c i n).cause = s.cause := rfl
@[simp] theorem State.bumpBy_leftOp (c : Ctr) (i n : Nat) : (s.bumpBy c i n).leftOp = s.leftOp := rfl
@[simp] theorem State.bumpBy_regs (c : Ctr) (i n : Nat) : (s.bumpBy c i n).regs = s.regs := rfl
@[simp] theorem State.bumpBy_hold (c : Ctr) (i n : Nat) : (s.bumpBy c i n).hold = s.hold := rfl
@[simp] theorem State.bumpBy_stage (c : Ctr) (i n : Nat) : (s.bumpBy c i n).stage = s.stage := rfl
@[simp] theorem State.bumpBy_tim (c : Ctr) (i n : Nat) : (s.bumpBy c i n).tim = s.tim := rfl
@[simp] theorem State.bumpBy_hbr (c : Ctr) (i n : Nat) : (s.bumpBy c i n).hbr = s.hbr := rfl
@[simp] theorem State.bumpBy_mqs (c : Ctr) (i n : Nat) : (s.bumpBy c i n).mqs = s.mqs := rfl
@[simp] theorem State.bumpBy_mem (c : Ctr) (i n : Nat) : (s.bumpBy c i n).mem = s.mem := rfl
@[simp] theorem State.bumpBy_pwr (c : Ctr) (i n : Nat) : (s.bumpBy c i n).pwr = s.pwr := rfl
@[simp] theorem State.bumpBy_boot (c : Ctr) (i n : Nat) : (s.bumpBy c i n).boot = s.boot := rfl
@[simp] theorem State.bumpBy_mram (c : Ctr) (i n : Nat) : (s.bumpBy c i n).mram = s.mram := rfl
@[simp] theorem State.bumpBy_flash (c : Ctr) (i n : Nat) : (s.bumpBy c i n).flash = s.flash := rfl
@[simp] theorem State.bumpBy_win (c : Ctr) (i n : Nat) : (s.bumpBy c i n).win = s.win := rfl
@[simp] theorem State.bumpBy_pair (c : Ctr) (i n : Nat) : (s.bumpBy c i n).pair = s.pair := rfl
@[simp] theorem State.bumpBy_red (c : Ctr) (i n : Nat) : (s.bumpBy c i n).red = s.red := rfl
@[simp] theorem State.bumpBy_net (c : Ctr) (i n : Nat) : (s.bumpBy c i n).net = s.net := rfl
@[simp] theorem State.bumpBy_keys (c : Ctr) (i n : Nat) : (s.bumpBy c i n).keys = s.keys := rfl

/-! ## State.bump -/

@[simp] theorem State.bump_pending (c : Ctr) (i : Nat) : (s.bump c i).pending = s.pending := rfl
@[simp] theorem State.bump_now (c : Ctr) (i : Nat) : (s.bump c i).now = s.now := rfl
@[simp] theorem State.bump_free (c : Ctr) (i : Nat) : (s.bump c i).free = s.free := rfl
@[simp] theorem State.bump_out (c : Ctr) (i : Nat) : (s.bump c i).out = s.out := rfl
@[simp] theorem State.bump_phys (c : Ctr) (i : Nat) : (s.bump c i).phys = s.phys := rfl
@[simp] theorem State.bump_op (c : Ctr) (i : Nat) : (s.bump c i).op = s.op := rfl
@[simp] theorem State.bump_prevOp (c : Ctr) (i : Nat) : (s.bump c i).prevOp = s.prevOp := rfl
@[simp] theorem State.bump_cause (c : Ctr) (i : Nat) : (s.bump c i).cause = s.cause := rfl
@[simp] theorem State.bump_leftOp (c : Ctr) (i : Nat) : (s.bump c i).leftOp = s.leftOp := rfl
@[simp] theorem State.bump_regs (c : Ctr) (i : Nat) : (s.bump c i).regs = s.regs := rfl
@[simp] theorem State.bump_hold (c : Ctr) (i : Nat) : (s.bump c i).hold = s.hold := rfl
@[simp] theorem State.bump_stage (c : Ctr) (i : Nat) : (s.bump c i).stage = s.stage := rfl
@[simp] theorem State.bump_tim (c : Ctr) (i : Nat) : (s.bump c i).tim = s.tim := rfl
@[simp] theorem State.bump_hbr (c : Ctr) (i : Nat) : (s.bump c i).hbr = s.hbr := rfl
@[simp] theorem State.bump_mqs (c : Ctr) (i : Nat) : (s.bump c i).mqs = s.mqs := rfl
@[simp] theorem State.bump_mem (c : Ctr) (i : Nat) : (s.bump c i).mem = s.mem := rfl
@[simp] theorem State.bump_pwr (c : Ctr) (i : Nat) : (s.bump c i).pwr = s.pwr := rfl
@[simp] theorem State.bump_boot (c : Ctr) (i : Nat) : (s.bump c i).boot = s.boot := rfl
@[simp] theorem State.bump_mram (c : Ctr) (i : Nat) : (s.bump c i).mram = s.mram := rfl
@[simp] theorem State.bump_flash (c : Ctr) (i : Nat) : (s.bump c i).flash = s.flash := rfl
@[simp] theorem State.bump_win (c : Ctr) (i : Nat) : (s.bump c i).win = s.win := rfl
@[simp] theorem State.bump_pair (c : Ctr) (i : Nat) : (s.bump c i).pair = s.pair := rfl
@[simp] theorem State.bump_red (c : Ctr) (i : Nat) : (s.bump c i).red = s.red := rfl
@[simp] theorem State.bump_net (c : Ctr) (i : Nat) : (s.bump c i).net = s.net := rfl
@[simp] theorem State.bump_keys (c : Ctr) (i : Nat) : (s.bump c i).keys = s.keys := rfl

/-! ## State.emit -/

@[simp] theorem State.emit_pending (o : Out) : (s.emit o).pending = s.pending := rfl
@[simp] theorem State.emit_now (o : Out) : (s.emit o).now = s.now := rfl
@[simp] theorem State.emit_free (o : Out) : (s.emit o).free = s.free := rfl
@[simp] theorem State.emit_phys (o : Out) : (s.emit o).phys = s.phys := rfl
@[simp] theorem State.emit_op (o : Out) : (s.emit o).op = s.op := rfl
@[simp] theorem State.emit_prevOp (o : Out) : (s.emit o).prevOp = s.prevOp := rfl
@[simp] theorem State.emit_cause (o : Out) : (s.emit o).cause = s.cause := rfl
@[simp] theorem State.emit_leftOp (o : Out) : (s.emit o).leftOp = s.leftOp := rfl
@[simp] theorem State.emit_regs (o : Out) : (s.emit o).regs = s.regs := rfl
@[simp] theorem State.emit_ctrs (o : Out) : (s.emit o).ctrs = s.ctrs := rfl
@[simp] theorem State.emit_hold (o : Out) : (s.emit o).hold = s.hold := rfl
@[simp] theorem State.emit_stage (o : Out) : (s.emit o).stage = s.stage := rfl
@[simp] theorem State.emit_tim (o : Out) : (s.emit o).tim = s.tim := rfl
@[simp] theorem State.emit_hbr (o : Out) : (s.emit o).hbr = s.hbr := rfl
@[simp] theorem State.emit_mqs (o : Out) : (s.emit o).mqs = s.mqs := rfl
@[simp] theorem State.emit_mem (o : Out) : (s.emit o).mem = s.mem := rfl
@[simp] theorem State.emit_pwr (o : Out) : (s.emit o).pwr = s.pwr := rfl
@[simp] theorem State.emit_boot (o : Out) : (s.emit o).boot = s.boot := rfl
@[simp] theorem State.emit_mram (o : Out) : (s.emit o).mram = s.mram := rfl
@[simp] theorem State.emit_flash (o : Out) : (s.emit o).flash = s.flash := rfl
@[simp] theorem State.emit_win (o : Out) : (s.emit o).win = s.win := rfl
@[simp] theorem State.emit_pair (o : Out) : (s.emit o).pair = s.pair := rfl
@[simp] theorem State.emit_red (o : Out) : (s.emit o).red = s.red := rfl
@[simp] theorem State.emit_net (o : Out) : (s.emit o).net = s.net := rfl
@[simp] theorem State.emit_keys (o : Out) : (s.emit o).keys = s.keys := rfl

/-! ## State.setMq -/

@[simp] theorem State.setMq_pending (k : Nat) (q : Mq) : (s.setMq k q).pending = s.pending := rfl
@[simp] theorem State.setMq_now (k : Nat) (q : Mq) : (s.setMq k q).now = s.now := rfl
@[simp] theorem State.setMq_free (k : Nat) (q : Mq) : (s.setMq k q).free = s.free := rfl
@[simp] theorem State.setMq_out (k : Nat) (q : Mq) : (s.setMq k q).out = s.out := rfl
@[simp] theorem State.setMq_phys (k : Nat) (q : Mq) : (s.setMq k q).phys = s.phys := rfl
@[simp] theorem State.setMq_op (k : Nat) (q : Mq) : (s.setMq k q).op = s.op := rfl
@[simp] theorem State.setMq_prevOp (k : Nat) (q : Mq) : (s.setMq k q).prevOp = s.prevOp := rfl
@[simp] theorem State.setMq_cause (k : Nat) (q : Mq) : (s.setMq k q).cause = s.cause := rfl
@[simp] theorem State.setMq_leftOp (k : Nat) (q : Mq) : (s.setMq k q).leftOp = s.leftOp := rfl
@[simp] theorem State.setMq_regs (k : Nat) (q : Mq) : (s.setMq k q).regs = s.regs := rfl
@[simp] theorem State.setMq_ctrs (k : Nat) (q : Mq) : (s.setMq k q).ctrs = s.ctrs := rfl
@[simp] theorem State.setMq_hold (k : Nat) (q : Mq) : (s.setMq k q).hold = s.hold := rfl
@[simp] theorem State.setMq_stage (k : Nat) (q : Mq) : (s.setMq k q).stage = s.stage := rfl
@[simp] theorem State.setMq_tim (k : Nat) (q : Mq) : (s.setMq k q).tim = s.tim := rfl
@[simp] theorem State.setMq_hbr (k : Nat) (q : Mq) : (s.setMq k q).hbr = s.hbr := rfl
@[simp] theorem State.setMq_mem (k : Nat) (q : Mq) : (s.setMq k q).mem = s.mem := rfl
@[simp] theorem State.setMq_pwr (k : Nat) (q : Mq) : (s.setMq k q).pwr = s.pwr := rfl
@[simp] theorem State.setMq_boot (k : Nat) (q : Mq) : (s.setMq k q).boot = s.boot := rfl
@[simp] theorem State.setMq_mram (k : Nat) (q : Mq) : (s.setMq k q).mram = s.mram := rfl
@[simp] theorem State.setMq_flash (k : Nat) (q : Mq) : (s.setMq k q).flash = s.flash := rfl
@[simp] theorem State.setMq_win (k : Nat) (q : Mq) : (s.setMq k q).win = s.win := rfl
@[simp] theorem State.setMq_pair (k : Nat) (q : Mq) : (s.setMq k q).pair = s.pair := rfl
@[simp] theorem State.setMq_red (k : Nat) (q : Mq) : (s.setMq k q).red = s.red := rfl
@[simp] theorem State.setMq_net (k : Nat) (q : Mq) : (s.setMq k q).net = s.net := rfl
@[simp] theorem State.setMq_keys (k : Nat) (q : Mq) : (s.setMq k q).keys = s.keys := rfl

/-! ## State.setMemErr -/

@[simp] theorem State.setMemErr_pending (mem inst addr : Nat) (e : Option (WordErr × Nat)) : (s.setMemErr mem inst addr e).pending = s.pending := rfl
@[simp] theorem State.setMemErr_now (mem inst addr : Nat) (e : Option (WordErr × Nat)) : (s.setMemErr mem inst addr e).now = s.now := rfl
@[simp] theorem State.setMemErr_free (mem inst addr : Nat) (e : Option (WordErr × Nat)) : (s.setMemErr mem inst addr e).free = s.free := rfl
@[simp] theorem State.setMemErr_out (mem inst addr : Nat) (e : Option (WordErr × Nat)) : (s.setMemErr mem inst addr e).out = s.out := rfl
@[simp] theorem State.setMemErr_phys (mem inst addr : Nat) (e : Option (WordErr × Nat)) : (s.setMemErr mem inst addr e).phys = s.phys := rfl
@[simp] theorem State.setMemErr_op (mem inst addr : Nat) (e : Option (WordErr × Nat)) : (s.setMemErr mem inst addr e).op = s.op := rfl
@[simp] theorem State.setMemErr_prevOp (mem inst addr : Nat) (e : Option (WordErr × Nat)) : (s.setMemErr mem inst addr e).prevOp = s.prevOp := rfl
@[simp] theorem State.setMemErr_cause (mem inst addr : Nat) (e : Option (WordErr × Nat)) : (s.setMemErr mem inst addr e).cause = s.cause := rfl
@[simp] theorem State.setMemErr_leftOp (mem inst addr : Nat) (e : Option (WordErr × Nat)) : (s.setMemErr mem inst addr e).leftOp = s.leftOp := rfl
@[simp] theorem State.setMemErr_regs (mem inst addr : Nat) (e : Option (WordErr × Nat)) : (s.setMemErr mem inst addr e).regs = s.regs := rfl
@[simp] theorem State.setMemErr_ctrs (mem inst addr : Nat) (e : Option (WordErr × Nat)) : (s.setMemErr mem inst addr e).ctrs = s.ctrs := rfl
@[simp] theorem State.setMemErr_hold (mem inst addr : Nat) (e : Option (WordErr × Nat)) : (s.setMemErr mem inst addr e).hold = s.hold := rfl
@[simp] theorem State.setMemErr_stage (mem inst addr : Nat) (e : Option (WordErr × Nat)) : (s.setMemErr mem inst addr e).stage = s.stage := rfl
@[simp] theorem State.setMemErr_tim (mem inst addr : Nat) (e : Option (WordErr × Nat)) : (s.setMemErr mem inst addr e).tim = s.tim := rfl
@[simp] theorem State.setMemErr_hbr (mem inst addr : Nat) (e : Option (WordErr × Nat)) : (s.setMemErr mem inst addr e).hbr = s.hbr := rfl
@[simp] theorem State.setMemErr_mqs (mem inst addr : Nat) (e : Option (WordErr × Nat)) : (s.setMemErr mem inst addr e).mqs = s.mqs := rfl
@[simp] theorem State.setMemErr_pwr (mem inst addr : Nat) (e : Option (WordErr × Nat)) : (s.setMemErr mem inst addr e).pwr = s.pwr := rfl
@[simp] theorem State.setMemErr_boot (mem inst addr : Nat) (e : Option (WordErr × Nat)) : (s.setMemErr mem inst addr e).boot = s.boot := rfl
@[simp] theorem State.setMemErr_mram (mem inst addr : Nat) (e : Option (WordErr × Nat)) : (s.setMemErr mem inst addr e).mram = s.mram := rfl
@[simp] theorem State.setMemErr_flash (mem inst addr : Nat) (e : Option (WordErr × Nat)) : (s.setMemErr mem inst addr e).flash = s.flash := rfl
@[simp] theorem State.setMemErr_win (mem inst addr : Nat) (e : Option (WordErr × Nat)) : (s.setMemErr mem inst addr e).win = s.win := rfl
@[simp] theorem State.setMemErr_pair (mem inst addr : Nat) (e : Option (WordErr × Nat)) : (s.setMemErr mem inst addr e).pair = s.pair := rfl
@[simp] theorem State.setMemErr_red (mem inst addr : Nat) (e : Option (WordErr × Nat)) : (s.setMemErr mem inst addr e).red = s.red := rfl
@[simp] theorem State.setMemErr_net (mem inst addr : Nat) (e : Option (WordErr × Nat)) : (s.setMemErr mem inst addr e).net = s.net := rfl
@[simp] theorem State.setMemErr_keys (mem inst addr : Nat) (e : Option (WordErr × Nat)) : (s.setMemErr mem inst addr e).keys = s.keys := rfl

/-! ## State.setBcr -/

@[simp] theorem State.setBcr_pending (r : BootRec) : (s.setBcr r).pending = s.pending := rfl
@[simp] theorem State.setBcr_now (r : BootRec) : (s.setBcr r).now = s.now := rfl
@[simp] theorem State.setBcr_free (r : BootRec) : (s.setBcr r).free = s.free := rfl
@[simp] theorem State.setBcr_out (r : BootRec) : (s.setBcr r).out = s.out := rfl
@[simp] theorem State.setBcr_phys (r : BootRec) : (s.setBcr r).phys = s.phys := rfl
@[simp] theorem State.setBcr_op (r : BootRec) : (s.setBcr r).op = s.op := rfl
@[simp] theorem State.setBcr_prevOp (r : BootRec) : (s.setBcr r).prevOp = s.prevOp := rfl
@[simp] theorem State.setBcr_cause (r : BootRec) : (s.setBcr r).cause = s.cause := rfl
@[simp] theorem State.setBcr_leftOp (r : BootRec) : (s.setBcr r).leftOp = s.leftOp := rfl
@[simp] theorem State.setBcr_regs (r : BootRec) : (s.setBcr r).regs = s.regs := rfl
@[simp] theorem State.setBcr_ctrs (r : BootRec) : (s.setBcr r).ctrs = s.ctrs := rfl
@[simp] theorem State.setBcr_hold (r : BootRec) : (s.setBcr r).hold = s.hold := rfl
@[simp] theorem State.setBcr_stage (r : BootRec) : (s.setBcr r).stage = s.stage := rfl
@[simp] theorem State.setBcr_tim (r : BootRec) : (s.setBcr r).tim = s.tim := rfl
@[simp] theorem State.setBcr_hbr (r : BootRec) : (s.setBcr r).hbr = s.hbr := rfl
@[simp] theorem State.setBcr_mqs (r : BootRec) : (s.setBcr r).mqs = s.mqs := rfl
@[simp] theorem State.setBcr_mem (r : BootRec) : (s.setBcr r).mem = s.mem := rfl
@[simp] theorem State.setBcr_pwr (r : BootRec) : (s.setBcr r).pwr = s.pwr := rfl
@[simp] theorem State.setBcr_boot (r : BootRec) : (s.setBcr r).boot = s.boot := rfl
@[simp] theorem State.setBcr_flash (r : BootRec) : (s.setBcr r).flash = s.flash := rfl
@[simp] theorem State.setBcr_win (r : BootRec) : (s.setBcr r).win = s.win := rfl
@[simp] theorem State.setBcr_pair (r : BootRec) : (s.setBcr r).pair = s.pair := rfl
@[simp] theorem State.setBcr_red (r : BootRec) : (s.setBcr r).red = s.red := rfl
@[simp] theorem State.setBcr_net (r : BootRec) : (s.setBcr r).net = s.net := rfl
@[simp] theorem State.setBcr_keys (r : BootRec) : (s.setBcr r).keys = s.keys := rfl

/-! ## State.setVec -/

@[simp] theorem State.setVec_pending (v : Nat) (m : MsixVec) : (s.setVec v m).pending = s.pending := rfl
@[simp] theorem State.setVec_now (v : Nat) (m : MsixVec) : (s.setVec v m).now = s.now := rfl
@[simp] theorem State.setVec_free (v : Nat) (m : MsixVec) : (s.setVec v m).free = s.free := rfl
@[simp] theorem State.setVec_out (v : Nat) (m : MsixVec) : (s.setVec v m).out = s.out := rfl
@[simp] theorem State.setVec_phys (v : Nat) (m : MsixVec) : (s.setVec v m).phys = s.phys := rfl
@[simp] theorem State.setVec_op (v : Nat) (m : MsixVec) : (s.setVec v m).op = s.op := rfl
@[simp] theorem State.setVec_prevOp (v : Nat) (m : MsixVec) : (s.setVec v m).prevOp = s.prevOp := rfl
@[simp] theorem State.setVec_cause (v : Nat) (m : MsixVec) : (s.setVec v m).cause = s.cause := rfl
@[simp] theorem State.setVec_leftOp (v : Nat) (m : MsixVec) : (s.setVec v m).leftOp = s.leftOp := rfl
@[simp] theorem State.setVec_regs (v : Nat) (m : MsixVec) : (s.setVec v m).regs = s.regs := rfl
@[simp] theorem State.setVec_ctrs (v : Nat) (m : MsixVec) : (s.setVec v m).ctrs = s.ctrs := rfl
@[simp] theorem State.setVec_hold (v : Nat) (m : MsixVec) : (s.setVec v m).hold = s.hold := rfl
@[simp] theorem State.setVec_stage (v : Nat) (m : MsixVec) : (s.setVec v m).stage = s.stage := rfl
@[simp] theorem State.setVec_tim (v : Nat) (m : MsixVec) : (s.setVec v m).tim = s.tim := rfl
@[simp] theorem State.setVec_mqs (v : Nat) (m : MsixVec) : (s.setVec v m).mqs = s.mqs := rfl
@[simp] theorem State.setVec_mem (v : Nat) (m : MsixVec) : (s.setVec v m).mem = s.mem := rfl
@[simp] theorem State.setVec_pwr (v : Nat) (m : MsixVec) : (s.setVec v m).pwr = s.pwr := rfl
@[simp] theorem State.setVec_boot (v : Nat) (m : MsixVec) : (s.setVec v m).boot = s.boot := rfl
@[simp] theorem State.setVec_mram (v : Nat) (m : MsixVec) : (s.setVec v m).mram = s.mram := rfl
@[simp] theorem State.setVec_flash (v : Nat) (m : MsixVec) : (s.setVec v m).flash = s.flash := rfl
@[simp] theorem State.setVec_win (v : Nat) (m : MsixVec) : (s.setVec v m).win = s.win := rfl
@[simp] theorem State.setVec_pair (v : Nat) (m : MsixVec) : (s.setVec v m).pair = s.pair := rfl
@[simp] theorem State.setVec_red (v : Nat) (m : MsixVec) : (s.setVec v m).red = s.red := rfl
@[simp] theorem State.setVec_net (v : Nat) (m : MsixVec) : (s.setVec v m).net = s.net := rfl
@[simp] theorem State.setVec_keys (v : Nat) (m : MsixVec) : (s.setVec v m).keys = s.keys := rfl

/-! ## State.setPath -/

@[simp] theorem State.setPath_pending (p : Path) (x : PathSt) : (s.setPath p x).pending = s.pending := rfl
@[simp] theorem State.setPath_now (p : Path) (x : PathSt) : (s.setPath p x).now = s.now := rfl
@[simp] theorem State.setPath_free (p : Path) (x : PathSt) : (s.setPath p x).free = s.free := rfl
@[simp] theorem State.setPath_out (p : Path) (x : PathSt) : (s.setPath p x).out = s.out := rfl
@[simp] theorem State.setPath_phys (p : Path) (x : PathSt) : (s.setPath p x).phys = s.phys := rfl
@[simp] theorem State.setPath_op (p : Path) (x : PathSt) : (s.setPath p x).op = s.op := rfl
@[simp] theorem State.setPath_prevOp (p : Path) (x : PathSt) : (s.setPath p x).prevOp = s.prevOp := rfl
@[simp] theorem State.setPath_cause (p : Path) (x : PathSt) : (s.setPath p x).cause = s.cause := rfl
@[simp] theorem State.setPath_leftOp (p : Path) (x : PathSt) : (s.setPath p x).leftOp = s.leftOp := rfl
@[simp] theorem State.setPath_regs (p : Path) (x : PathSt) : (s.setPath p x).regs = s.regs := rfl
@[simp] theorem State.setPath_ctrs (p : Path) (x : PathSt) : (s.setPath p x).ctrs = s.ctrs := rfl
@[simp] theorem State.setPath_hold (p : Path) (x : PathSt) : (s.setPath p x).hold = s.hold := rfl
@[simp] theorem State.setPath_stage (p : Path) (x : PathSt) : (s.setPath p x).stage = s.stage := rfl
@[simp] theorem State.setPath_tim (p : Path) (x : PathSt) : (s.setPath p x).tim = s.tim := rfl
@[simp] theorem State.setPath_mqs (p : Path) (x : PathSt) : (s.setPath p x).mqs = s.mqs := rfl
@[simp] theorem State.setPath_mem (p : Path) (x : PathSt) : (s.setPath p x).mem = s.mem := rfl
@[simp] theorem State.setPath_pwr (p : Path) (x : PathSt) : (s.setPath p x).pwr = s.pwr := rfl
@[simp] theorem State.setPath_boot (p : Path) (x : PathSt) : (s.setPath p x).boot = s.boot := rfl
@[simp] theorem State.setPath_mram (p : Path) (x : PathSt) : (s.setPath p x).mram = s.mram := rfl
@[simp] theorem State.setPath_flash (p : Path) (x : PathSt) : (s.setPath p x).flash = s.flash := rfl
@[simp] theorem State.setPath_win (p : Path) (x : PathSt) : (s.setPath p x).win = s.win := rfl
@[simp] theorem State.setPath_pair (p : Path) (x : PathSt) : (s.setPath p x).pair = s.pair := rfl
@[simp] theorem State.setPath_red (p : Path) (x : PathSt) : (s.setPath p x).red = s.red := rfl
@[simp] theorem State.setPath_net (p : Path) (x : PathSt) : (s.setPath p x).net = s.net := rfl
@[simp] theorem State.setPath_keys (p : Path) (x : PathSt) : (s.setPath p x).keys = s.keys := rfl

/-! ## State.nextSeq -/

@[simp] theorem State.nextSeq_pending (p : Path) : (s.nextSeq p).pending = s.pending := rfl
@[simp] theorem State.nextSeq_now (p : Path) : (s.nextSeq p).now = s.now := rfl
@[simp] theorem State.nextSeq_free (p : Path) : (s.nextSeq p).free = s.free := rfl
@[simp] theorem State.nextSeq_out (p : Path) : (s.nextSeq p).out = s.out := rfl
@[simp] theorem State.nextSeq_phys (p : Path) : (s.nextSeq p).phys = s.phys := rfl
@[simp] theorem State.nextSeq_op (p : Path) : (s.nextSeq p).op = s.op := rfl
@[simp] theorem State.nextSeq_prevOp (p : Path) : (s.nextSeq p).prevOp = s.prevOp := rfl
@[simp] theorem State.nextSeq_cause (p : Path) : (s.nextSeq p).cause = s.cause := rfl
@[simp] theorem State.nextSeq_leftOp (p : Path) : (s.nextSeq p).leftOp = s.leftOp := rfl
@[simp] theorem State.nextSeq_regs (p : Path) : (s.nextSeq p).regs = s.regs := rfl
@[simp] theorem State.nextSeq_ctrs (p : Path) : (s.nextSeq p).ctrs = s.ctrs := rfl
@[simp] theorem State.nextSeq_hold (p : Path) : (s.nextSeq p).hold = s.hold := rfl
@[simp] theorem State.nextSeq_stage (p : Path) : (s.nextSeq p).stage = s.stage := rfl
@[simp] theorem State.nextSeq_tim (p : Path) : (s.nextSeq p).tim = s.tim := rfl
@[simp] theorem State.nextSeq_mqs (p : Path) : (s.nextSeq p).mqs = s.mqs := rfl
@[simp] theorem State.nextSeq_mem (p : Path) : (s.nextSeq p).mem = s.mem := rfl
@[simp] theorem State.nextSeq_pwr (p : Path) : (s.nextSeq p).pwr = s.pwr := rfl
@[simp] theorem State.nextSeq_boot (p : Path) : (s.nextSeq p).boot = s.boot := rfl
@[simp] theorem State.nextSeq_mram (p : Path) : (s.nextSeq p).mram = s.mram := rfl
@[simp] theorem State.nextSeq_flash (p : Path) : (s.nextSeq p).flash = s.flash := rfl
@[simp] theorem State.nextSeq_win (p : Path) : (s.nextSeq p).win = s.win := rfl
@[simp] theorem State.nextSeq_pair (p : Path) : (s.nextSeq p).pair = s.pair := rfl
@[simp] theorem State.nextSeq_red (p : Path) : (s.nextSeq p).red = s.red := rfl
@[simp] theorem State.nextSeq_net (p : Path) : (s.nextSeq p).net = s.net := rfl
@[simp] theorem State.nextSeq_keys (p : Path) : (s.nextSeq p).keys = s.keys := rfl

/-! ## State.stageWord -/

@[simp] theorem State.stageWord_pending (p : Path) (off : Nat) (w : Word) : (s.stageWord p off w).pending = s.pending := rfl
@[simp] theorem State.stageWord_now (p : Path) (off : Nat) (w : Word) : (s.stageWord p off w).now = s.now := rfl
@[simp] theorem State.stageWord_free (p : Path) (off : Nat) (w : Word) : (s.stageWord p off w).free = s.free := rfl
@[simp] theorem State.stageWord_out (p : Path) (off : Nat) (w : Word) : (s.stageWord p off w).out = s.out := rfl
@[simp] theorem State.stageWord_phys (p : Path) (off : Nat) (w : Word) : (s.stageWord p off w).phys = s.phys := rfl
@[simp] theorem State.stageWord_op (p : Path) (off : Nat) (w : Word) : (s.stageWord p off w).op = s.op := rfl
@[simp] theorem State.stageWord_prevOp (p : Path) (off : Nat) (w : Word) : (s.stageWord p off w).prevOp = s.prevOp := rfl
@[simp] theorem State.stageWord_cause (p : Path) (off : Nat) (w : Word) : (s.stageWord p off w).cause = s.cause := rfl
@[simp] theorem State.stageWord_leftOp (p : Path) (off : Nat) (w : Word) : (s.stageWord p off w).leftOp = s.leftOp := rfl
@[simp] theorem State.stageWord_regs (p : Path) (off : Nat) (w : Word) : (s.stageWord p off w).regs = s.regs := rfl
@[simp] theorem State.stageWord_ctrs (p : Path) (off : Nat) (w : Word) : (s.stageWord p off w).ctrs = s.ctrs := rfl
@[simp] theorem State.stageWord_hold (p : Path) (off : Nat) (w : Word) : (s.stageWord p off w).hold = s.hold := rfl
@[simp] theorem State.stageWord_tim (p : Path) (off : Nat) (w : Word) : (s.stageWord p off w).tim = s.tim := rfl
@[simp] theorem State.stageWord_hbr (p : Path) (off : Nat) (w : Word) : (s.stageWord p off w).hbr = s.hbr := rfl
@[simp] theorem State.stageWord_mqs (p : Path) (off : Nat) (w : Word) : (s.stageWord p off w).mqs = s.mqs := rfl
@[simp] theorem State.stageWord_mem (p : Path) (off : Nat) (w : Word) : (s.stageWord p off w).mem = s.mem := rfl
@[simp] theorem State.stageWord_pwr (p : Path) (off : Nat) (w : Word) : (s.stageWord p off w).pwr = s.pwr := rfl
@[simp] theorem State.stageWord_boot (p : Path) (off : Nat) (w : Word) : (s.stageWord p off w).boot = s.boot := rfl
@[simp] theorem State.stageWord_mram (p : Path) (off : Nat) (w : Word) : (s.stageWord p off w).mram = s.mram := rfl
@[simp] theorem State.stageWord_flash (p : Path) (off : Nat) (w : Word) : (s.stageWord p off w).flash = s.flash := rfl
@[simp] theorem State.stageWord_win (p : Path) (off : Nat) (w : Word) : (s.stageWord p off w).win = s.win := rfl
@[simp] theorem State.stageWord_pair (p : Path) (off : Nat) (w : Word) : (s.stageWord p off w).pair = s.pair := rfl
@[simp] theorem State.stageWord_red (p : Path) (off : Nat) (w : Word) : (s.stageWord p off w).red = s.red := rfl
@[simp] theorem State.stageWord_net (p : Path) (off : Nat) (w : Word) : (s.stageWord p off w).net = s.net := rfl
@[simp] theorem State.stageWord_keys (p : Path) (off : Nat) (w : Word) : (s.stageWord p off w).keys = s.keys := rfl

/-! ## State.vecSend -/

@[simp] theorem State.vecSend_pending (v : Nat) : (s.vecSend v).pending = s.pending := rfl
@[simp] theorem State.vecSend_now (v : Nat) : (s.vecSend v).now = s.now := rfl
@[simp] theorem State.vecSend_free (v : Nat) : (s.vecSend v).free = s.free := rfl
@[simp] theorem State.vecSend_phys (v : Nat) : (s.vecSend v).phys = s.phys := rfl
@[simp] theorem State.vecSend_op (v : Nat) : (s.vecSend v).op = s.op := rfl
@[simp] theorem State.vecSend_prevOp (v : Nat) : (s.vecSend v).prevOp = s.prevOp := rfl
@[simp] theorem State.vecSend_cause (v : Nat) : (s.vecSend v).cause = s.cause := rfl
@[simp] theorem State.vecSend_leftOp (v : Nat) : (s.vecSend v).leftOp = s.leftOp := rfl
@[simp] theorem State.vecSend_regs (v : Nat) : (s.vecSend v).regs = s.regs := rfl
@[simp] theorem State.vecSend_ctrs (v : Nat) : (s.vecSend v).ctrs = s.ctrs := rfl
@[simp] theorem State.vecSend_hold (v : Nat) : (s.vecSend v).hold = s.hold := rfl
@[simp] theorem State.vecSend_stage (v : Nat) : (s.vecSend v).stage = s.stage := rfl
@[simp] theorem State.vecSend_tim (v : Nat) : (s.vecSend v).tim = s.tim := rfl
@[simp] theorem State.vecSend_mqs (v : Nat) : (s.vecSend v).mqs = s.mqs := rfl
@[simp] theorem State.vecSend_mem (v : Nat) : (s.vecSend v).mem = s.mem := rfl
@[simp] theorem State.vecSend_pwr (v : Nat) : (s.vecSend v).pwr = s.pwr := rfl
@[simp] theorem State.vecSend_boot (v : Nat) : (s.vecSend v).boot = s.boot := rfl
@[simp] theorem State.vecSend_mram (v : Nat) : (s.vecSend v).mram = s.mram := rfl
@[simp] theorem State.vecSend_flash (v : Nat) : (s.vecSend v).flash = s.flash := rfl
@[simp] theorem State.vecSend_win (v : Nat) : (s.vecSend v).win = s.win := rfl
@[simp] theorem State.vecSend_pair (v : Nat) : (s.vecSend v).pair = s.pair := rfl
@[simp] theorem State.vecSend_red (v : Nat) : (s.vecSend v).red = s.red := rfl
@[simp] theorem State.vecSend_net (v : Nat) : (s.vecSend v).net = s.net := rfl
@[simp] theorem State.vecSend_keys (v : Nat) : (s.vecSend v).keys = s.keys := rfl

/-! ## What a conditional count leaves alone -/

@[simp] theorem State.bumpIf_pending (b : Bool) (c : Ctr) (i : Nat) : (s.bumpIf b c i).pending = s.pending := by
  cases b <;> rfl
@[simp] theorem State.bumpIf_now (b : Bool) (c : Ctr) (i : Nat) : (s.bumpIf b c i).now = s.now := by
  cases b <;> rfl
@[simp] theorem State.bumpIf_free (b : Bool) (c : Ctr) (i : Nat) : (s.bumpIf b c i).free = s.free := by
  cases b <;> rfl
@[simp] theorem State.bumpIf_out (b : Bool) (c : Ctr) (i : Nat) : (s.bumpIf b c i).out = s.out := by
  cases b <;> rfl
@[simp] theorem State.bumpIf_phys (b : Bool) (c : Ctr) (i : Nat) : (s.bumpIf b c i).phys = s.phys := by
  cases b <;> rfl
@[simp] theorem State.bumpIf_op (b : Bool) (c : Ctr) (i : Nat) : (s.bumpIf b c i).op = s.op := by
  cases b <;> rfl
@[simp] theorem State.bumpIf_prevOp (b : Bool) (c : Ctr) (i : Nat) : (s.bumpIf b c i).prevOp = s.prevOp := by
  cases b <;> rfl
@[simp] theorem State.bumpIf_cause (b : Bool) (c : Ctr) (i : Nat) : (s.bumpIf b c i).cause = s.cause := by
  cases b <;> rfl
@[simp] theorem State.bumpIf_leftOp (b : Bool) (c : Ctr) (i : Nat) : (s.bumpIf b c i).leftOp = s.leftOp := by
  cases b <;> rfl
@[simp] theorem State.bumpIf_regs (b : Bool) (c : Ctr) (i : Nat) : (s.bumpIf b c i).regs = s.regs := by
  cases b <;> rfl
@[simp] theorem State.bumpIf_hold (b : Bool) (c : Ctr) (i : Nat) : (s.bumpIf b c i).hold = s.hold := by
  cases b <;> rfl
@[simp] theorem State.bumpIf_stage (b : Bool) (c : Ctr) (i : Nat) : (s.bumpIf b c i).stage = s.stage := by
  cases b <;> rfl
@[simp] theorem State.bumpIf_tim (b : Bool) (c : Ctr) (i : Nat) : (s.bumpIf b c i).tim = s.tim := by
  cases b <;> rfl
@[simp] theorem State.bumpIf_hbr (b : Bool) (c : Ctr) (i : Nat) : (s.bumpIf b c i).hbr = s.hbr := by
  cases b <;> rfl
@[simp] theorem State.bumpIf_mqs (b : Bool) (c : Ctr) (i : Nat) : (s.bumpIf b c i).mqs = s.mqs := by
  cases b <;> rfl
@[simp] theorem State.bumpIf_mem (b : Bool) (c : Ctr) (i : Nat) : (s.bumpIf b c i).mem = s.mem := by
  cases b <;> rfl
@[simp] theorem State.bumpIf_pwr (b : Bool) (c : Ctr) (i : Nat) : (s.bumpIf b c i).pwr = s.pwr := by
  cases b <;> rfl
@[simp] theorem State.bumpIf_boot (b : Bool) (c : Ctr) (i : Nat) : (s.bumpIf b c i).boot = s.boot := by
  cases b <;> rfl
@[simp] theorem State.bumpIf_mram (b : Bool) (c : Ctr) (i : Nat) : (s.bumpIf b c i).mram = s.mram := by
  cases b <;> rfl
@[simp] theorem State.bumpIf_flash (b : Bool) (c : Ctr) (i : Nat) : (s.bumpIf b c i).flash = s.flash := by
  cases b <;> rfl
@[simp] theorem State.bumpIf_win (b : Bool) (c : Ctr) (i : Nat) : (s.bumpIf b c i).win = s.win := by
  cases b <;> rfl
@[simp] theorem State.bumpIf_pair (b : Bool) (c : Ctr) (i : Nat) : (s.bumpIf b c i).pair = s.pair := by
  cases b <;> rfl
@[simp] theorem State.bumpIf_red (b : Bool) (c : Ctr) (i : Nat) : (s.bumpIf b c i).red = s.red := by
  cases b <;> rfl
@[simp] theorem State.bumpIf_net (b : Bool) (c : Ctr) (i : Nat) : (s.bumpIf b c i).net = s.net := by
  cases b <;> rfl
@[simp] theorem State.bumpIf_keys (b : Bool) (c : Ctr) (i : Nat) : (s.bumpIf b c i).keys = s.keys := by
  cases b <;> rfl

/-! ## What sending STATUS leaves alone -/

@[simp] theorem State.sendStatus_pending : s.sendStatus.pending = s.pending := by
  unfold State.sendStatus State.emitPair; dsimp only; split <;> rfl
@[simp] theorem State.sendStatus_now : s.sendStatus.now = s.now := by
  unfold State.sendStatus State.emitPair; dsimp only; split <;> rfl
@[simp] theorem State.sendStatus_free : s.sendStatus.free = s.free := by
  unfold State.sendStatus State.emitPair; dsimp only; split <;> rfl
@[simp] theorem State.sendStatus_phys : s.sendStatus.phys = s.phys := by
  unfold State.sendStatus State.emitPair; dsimp only; split <;> rfl
@[simp] theorem State.sendStatus_op : s.sendStatus.op = s.op := by
  unfold State.sendStatus State.emitPair; dsimp only; split <;> rfl
@[simp] theorem State.sendStatus_prevOp : s.sendStatus.prevOp = s.prevOp := by
  unfold State.sendStatus State.emitPair; dsimp only; split <;> rfl
@[simp] theorem State.sendStatus_cause : s.sendStatus.cause = s.cause := by
  unfold State.sendStatus State.emitPair; dsimp only; split <;> rfl
@[simp] theorem State.sendStatus_leftOp : s.sendStatus.leftOp = s.leftOp := by
  unfold State.sendStatus State.emitPair; dsimp only; split <;> rfl
@[simp] theorem State.sendStatus_regs : s.sendStatus.regs = s.regs := by
  unfold State.sendStatus State.emitPair; dsimp only; split <;> rfl
@[simp] theorem State.sendStatus_ctrs : s.sendStatus.ctrs = s.ctrs := by
  unfold State.sendStatus State.emitPair; dsimp only; split <;> rfl
@[simp] theorem State.sendStatus_hold : s.sendStatus.hold = s.hold := by
  unfold State.sendStatus State.emitPair; dsimp only; split <;> rfl
@[simp] theorem State.sendStatus_stage : s.sendStatus.stage = s.stage := by
  unfold State.sendStatus State.emitPair; dsimp only; split <;> rfl
@[simp] theorem State.sendStatus_tim : s.sendStatus.tim = s.tim := by
  unfold State.sendStatus State.emitPair; dsimp only; split <;> rfl
@[simp] theorem State.sendStatus_hbr : s.sendStatus.hbr = s.hbr := by
  unfold State.sendStatus State.emitPair; dsimp only; split <;> rfl
@[simp] theorem State.sendStatus_mqs : s.sendStatus.mqs = s.mqs := by
  unfold State.sendStatus State.emitPair; dsimp only; split <;> rfl
@[simp] theorem State.sendStatus_mem : s.sendStatus.mem = s.mem := by
  unfold State.sendStatus State.emitPair; dsimp only; split <;> rfl
@[simp] theorem State.sendStatus_pwr : s.sendStatus.pwr = s.pwr := by
  unfold State.sendStatus State.emitPair; dsimp only; split <;> rfl
@[simp] theorem State.sendStatus_boot : s.sendStatus.boot = s.boot := by
  unfold State.sendStatus State.emitPair; dsimp only; split <;> rfl
@[simp] theorem State.sendStatus_mram : s.sendStatus.mram = s.mram := by
  unfold State.sendStatus State.emitPair; dsimp only; split <;> rfl
@[simp] theorem State.sendStatus_flash : s.sendStatus.flash = s.flash := by
  unfold State.sendStatus State.emitPair; dsimp only; split <;> rfl
@[simp] theorem State.sendStatus_win : s.sendStatus.win = s.win := by
  unfold State.sendStatus State.emitPair; dsimp only; split <;> rfl
@[simp] theorem State.sendStatus_pair : s.sendStatus.pair = s.pair := by
  unfold State.sendStatus State.emitPair; dsimp only; split <;> rfl
@[simp] theorem State.sendStatus_net : s.sendStatus.net = s.net := by
  unfold State.sendStatus State.emitPair; dsimp only; split <;> rfl
@[simp] theorem State.sendStatus_keys : s.sendStatus.keys = s.keys := by
  unfold State.sendStatus State.emitPair; dsimp only; split <;> rfl

end Sys2Proof.Machine
end

