-- ==== Sys2Proof/Laws/Table.lean ====
section
/-! SUPPORT. Sparse tables: every operation keeps the canonical form, and reads after writes. -/

namespace Sys2Proof.Machine

variable {α : Type}

/-! ## Reads after writes -/

theorem tblFind_put (t : Tbl α) (k k' : Nat) (v : α) :
    tblFind (tblPut t k v) k' = if k' = k then some v else tblFind t k' := by
  induction t with
  | nil => simp [tblPut, tblFind]
  | cons e t ih =>
    obtain ⟨a, b⟩ := e
    by_cases h1 : k < a
    · simp [tblPut, tblFind, h1]
    · by_cases h2 : k = a
      · subst h2; simp only [tblPut, tblFind, Nat.lt_irrefl, if_false, if_true]
        split <;> rfl
      · simp only [tblPut, tblFind, h1, h2, if_false, ih]
        split
        · next h => rw [if_neg (by omega)]
        · rfl

@[simp] theorem tblFind_put_same (t : Tbl α) (k : Nat) (v : α) : tblFind (tblPut t k v) k = some v := by
  simp [tblFind_put]

theorem tblFind_put_other (t : Tbl α) (k k' : Nat) (v : α) (h : k' ≠ k) : tblFind (tblPut t k v) k' = tblFind t k' := by
  simp [tblFind_put, h]

theorem tblFind_del (t : Tbl α) (k k' : Nat) : tblFind (tblDel t k) k' = if k' = k then none else tblFind t k' := by
  induction t with
  | nil => simp [tblDel, tblFind]
  | cons e t ih =>
    obtain ⟨a, b⟩ := e
    by_cases h2 : k = a
    · subst h2; simp only [tblDel, tblFind, if_true, ih]
      split <;> rfl
    · simp only [tblDel, tblFind, h2, if_false, ih]
      split
      · next h => rw [if_neg (by omega)]
      · rfl

@[simp] theorem tblFind_del_same (t : Tbl α) (k : Nat) : tblFind (tblDel t k) k = none := by simp [tblFind_del]

theorem tblFind_del_other (t : Tbl α) (k k' : Nat) (h : k' ≠ k) : tblFind (tblDel t k) k' = tblFind t k' := by
  simp [tblFind_del, h]

theorem tblGet_set [DecidableEq α] (t : Tbl α) (d v : α) (k k' : Nat) (d' : α) (hd : k' = k → d' = d) :
    tblGet (tblSet t d k v) d' k' = if k' = k then v else tblGet t d' k' := by
  by_cases hk : k' = k
  · subst hk; have := hd rfl; subst this
    unfold tblGet tblSet
    by_cases hv : v = d' <;> simp [hv]
  · unfold tblGet tblSet
    by_cases hv : v = d <;> simp [hv, hk, tblFind_put_other, tblFind_del_other]

@[simp] theorem tblGet_set_same [DecidableEq α] (t : Tbl α) (d v : α) (k : Nat) : tblGet (tblSet t d k v) d k = v := by
  simp [tblGet_set]

theorem tblGet_set_other [DecidableEq α] (t : Tbl α) (d d' v : α) (k k' : Nat) (h : k' ≠ k) :
    tblGet (tblSet t d k v) d' k' = tblGet t d' k' := by
  rw [tblGet_set _ _ _ _ _ _ (fun e => absurd e h), if_neg h]

@[simp] theorem tblGet_nil (d : α) (k : Nat) : tblGet [] d k = d := rfl

/-! ## Canonical form -/

theorem tblRising_mono (t : Tbl α) {b c : Nat} (h : c ≤ b) (hw : tblRising (some b) t = true) : tblRising (some c) t = true := by
  cases t with
  | nil => rfl
  | cons e t => obtain ⟨a, v⟩ := e; simp [tblRising] at hw ⊢; exact ⟨by omega, hw.2⟩

theorem tblRising_none (t : Tbl α) {b : Nat} (hw : tblRising (some b) t = true) : tblWf t = true := by
  cases t with
  | nil => rfl
  | cons e t => obtain ⟨a, v⟩ := e; simp [tblRising, tblWf] at hw ⊢; exact hw.2

theorem tblRising_put (t : Tbl α) (b k : Nat) (v : α) (hb : b < k) (hw : tblRising (some b) t = true) :
    tblRising (some b) (tblPut t k v) = true := by
  induction t generalizing b with
  | nil => simp [tblPut, tblRising, hb]
  | cons e t ih =>
    obtain ⟨a, x⟩ := e
    simp only [tblRising, Bool.and_eq_true, decide_eq_true_eq] at hw
    by_cases h1 : k < a
    · simp [tblPut, h1, tblRising, hb, hw.2]
    · by_cases h2 : k = a
      · subst h2; simp [tblPut, tblRising, hb, hw.2]
      · simp [tblPut, h1, h2, tblRising, hw.1, ih a (by omega) hw.2]

theorem tblWf_put (t : Tbl α) (k : Nat) (v : α) (hw : tblWf t = true) : tblWf (tblPut t k v) = true := by
  cases t with
  | nil => rfl
  | cons e t =>
    obtain ⟨a, x⟩ := e
    simp only [tblWf, tblRising] at hw
    by_cases h1 : k < a
    · simp [tblPut, h1, tblWf, tblRising, hw]
    · by_cases h2 : k = a
      · subst h2; simp [tblPut, tblWf, tblRising, hw]
      · simp [tblPut, h1, h2, tblWf, tblRising, tblRising_put t a k v (by omega) hw]

theorem tblRising_filter (p : Nat × α → Bool) (t : Tbl α) (b : Nat) (hw : tblRising (some b) t = true) :
    tblRising (some b) (t.filter p) = true := by
  induction t generalizing b with
  | nil => rfl
  | cons e t ih =>
    obtain ⟨a, x⟩ := e
    simp only [tblRising, Bool.and_eq_true, decide_eq_true_eq] at hw
    by_cases h : p (a, x) = true
    · simp [List.filter, h, tblRising, hw.1, ih a hw.2]
    · simp [List.filter, h, tblRising_mono _ (Nat.le_of_lt hw.1) (ih a hw.2)]

theorem tblWf_filter (p : Nat × α → Bool) (t : Tbl α) (hw : tblWf t = true) : tblWf (t.filter p) = true := by
  induction t with
  | nil => rfl
  | cons e t ih =>
    obtain ⟨a, x⟩ := e
    simp only [tblWf, tblRising] at hw
    by_cases h : p (a, x) = true
    · simp [List.filter, h, tblWf, tblRising, tblRising_filter p t a hw]
    · simp [List.filter, h, ih (tblRising_none t hw)]

theorem tblDel_eq_filter (t : Tbl α) (k : Nat) : tblDel t k = t.filter fun e => k != e.1 := by
  induction t with
  | nil => rfl
  | cons e t ih =>
    obtain ⟨a, x⟩ := e
    by_cases h : k = a
    · subst h; simp [tblDel, ih]
    · simp [tblDel, List.filter, h, ih, bne_iff_ne.mpr h]

theorem tblWf_del (t : Tbl α) (k : Nat) (hw : tblWf t = true) : tblWf (tblDel t k) = true := by
  rw [tblDel_eq_filter]; exact tblWf_filter _ t hw

theorem tblWf_keep (p : Nat → α → Bool) (t : Tbl α) (hw : tblWf t = true) : tblWf (tblKeep p t) = true :=
  tblWf_filter _ t hw

theorem tblWf_set [DecidableEq α] (t : Tbl α) (d v : α) (k : Nat) (hw : tblWf t = true) : tblWf (tblSet t d k v) = true := by
  unfold tblSet; split
  · exact tblWf_del t k hw
  · exact tblWf_put t k v hw

/-- What a table with a default lists is not the default. -/
def tblClean [DecidableEq α] (d : α) (t : Tbl α) : Bool := t.all fun e => e.2 != d

theorem mem_tblPut (t : Tbl α) (k : Nat) (v : α) (e : Nat × α) (h : e ∈ tblPut t k v) : e = (k, v) ∨ e ∈ t := by
  induction t with
  | nil => simpa [tblPut] using h
  | cons x t ih =>
    obtain ⟨a, b⟩ := x
    by_cases h1 : k < a
    · simpa [tblPut, h1] using h
    · by_cases h2 : k = a
      · subst h2; simp only [tblPut, Nat.lt_irrefl, if_false, if_true, List.mem_cons] at h
        rcases h with h | h
        · exact .inl h
        · exact .inr (List.mem_cons_of_mem _ h)
      · simp only [tblPut, h1, h2, if_false, List.mem_cons] at h
        rcases h with h | h
        · exact .inr (by simp [h])
        · rcases ih h with h | h
          · exact .inl h
          · exact .inr (List.mem_cons_of_mem _ h)

theorem tblClean_set [DecidableEq α] (t : Tbl α) (d v : α) (k : Nat) (h : tblClean d t = true) : tblClean d (tblSet t d k v) = true := by
  unfold tblClean at *
  rw [List.all_eq_true] at *
  intro e he
  unfold tblSet at he
  split at he
  · rw [tblDel_eq_filter] at he; exact h e (List.mem_filter.mp he).1
  · next hv =>
    rcases mem_tblPut t k v e he with h1 | h1
    · subst h1; simpa using hv
    · exact h e h1

end Sys2Proof.Machine
end

