-- ==== Sys2Proof/Laws/Regs.lean ====
section
/-! SUPPORT. Registers, fields and counters: what is read after a write, and that every register and counter has one home. -/

namespace Sys2Proof.Machine

open Sys2Proof

/-! ## Keys -/

theorem Reg.ctorIdx_lt (r : Reg) : r.ctorIdx < 512 := by cases r <;> decide

theorem Ctr.ctorIdx_lt (c : Ctr) : c.ctorIdx < 512 := by cases c <;> decide

theorem Reg.ctorIdx_inj (r r' : Reg) : r.ctorIdx = r'.ctorIdx ↔ r = r' := by
  constructor
  · intro h
    have h := congrArg Reg.ofNat h
    rwa [Reg.ofNat_ctorIdx, Reg.ofNat_ctorIdx] at h
  · rintro rfl; rfl

theorem Ctr.ctorIdx_inj (c c' : Ctr) : c.ctorIdx = c'.ctorIdx ↔ c = c' := by
  constructor
  · intro h
    have h := congrArg Ctr.ofNat h
    rwa [Ctr.ofNat_ctorIdx, Ctr.ofNat_ctorIdx] at h
  · rintro rfl; rfl

theorem regKey_inj (r r' : Reg) (i i' : Nat) : regKey r i = regKey r' i' ↔ r = r' ∧ i = i' := by
  have h := r.ctorIdx_lt; have h' := r'.ctorIdx_lt
  rw [← Reg.ctorIdx_inj]; unfold regKey; omega

theorem ctrKey_inj (c c' : Ctr) (i i' : Nat) : ctrKey c i = ctrKey c' i' ↔ c = c' ∧ i = i' := by
  have h := c.ctorIdx_lt; have h' := c'.ctorIdx_lt
  rw [← Ctr.ctorIdx_inj]; unfold ctrKey; omega

/-! ## Registers -/

variable (s : State)

theorem State.rd_wr (r r' : Reg) (i i' : Nat) (w : Word) :
    (s.wr r i w).rd r' i' = if r' = r ∧ i' = i then w else s.rd r' i' := by
  unfold State.rd State.wr
  by_cases h : r' = r ∧ i' = i
  · obtain ⟨rfl, rfl⟩ := h; simp
  · rw [if_neg h]
    exact tblGet_set_other _ _ _ _ _ _ fun e => h ((regKey_inj ..).mp e)

@[simp] theorem State.rd_wr_same (r : Reg) (i : Nat) (w : Word) : (s.wr r i w).rd r i = w := by simp [State.rd_wr]

theorem State.rd_wr_reg (r r' : Reg) (i i' : Nat) (w : Word) (h : r' ≠ r) : (s.wr r i w).rd r' i' = s.rd r' i' := by
  simp [State.rd_wr, h]

theorem State.fld_wr (f : RegField) (r : Reg) (i i' : Nat) (w : Word) :
    (s.wr r i w).fld f i' = if f.reg = r ∧ i' = i then getBits w f.hi f.lo else s.fld f i' := by
  unfold State.fld; rw [State.rd_wr]; split <;> rfl

theorem State.rd_setFld (f : RegField) (r : Reg) (i i' v : Nat) :
    (s.setFld f i v).rd r i' = if r = f.reg ∧ i' = i then putBits (s.rd f.reg i) f.hi f.lo v else s.rd r i' := by
  unfold State.setFld; rw [State.rd_wr]

@[simp] theorem State.ctr_wr (r : Reg) (i : Nat) (w : Word) (c : Ctr) (j : Nat) : (s.wr r i w).ctr c j = s.ctr c j := rfl
@[simp] theorem State.ctr_setFld (f : RegField) (i v : Nat) (c : Ctr) (j : Nat) : (s.setFld f i v).ctr c j = s.ctr c j := rfl

/-! ## Counters -/

theorem State.ctr_bumpBy (c c' : Ctr) (i i' n : Nat) :
    (s.bumpBy c i n).ctr c' i' = if c' = c ∧ i' = i then s.ctr c i + BitVec.ofNat 64 n else s.ctr c' i' := by
  unfold State.bumpBy
  unfold State.ctr
  by_cases h : c' = c ∧ i' = i
  · obtain ⟨rfl, rfl⟩ := h; simp
  · rw [if_neg h]
    exact tblGet_set_other _ _ _ _ _ _ fun e => h ((ctrKey_inj ..).mp e)

theorem State.ctr_bump (c c' : Ctr) (i i' : Nat) :
    (s.bump c i).ctr c' i' = if c' = c ∧ i' = i then s.ctr c i + 1 else s.ctr c' i' := State.ctr_bumpBy s c c' i i' 1

@[simp] theorem State.rd_bumpBy (c : Ctr) (i n : Nat) (r : Reg) (j : Nat) : (s.bumpBy c i n).rd r j = s.rd r j := rfl
@[simp] theorem State.rd_bump (c : Ctr) (i : Nat) (r : Reg) (j : Nat) : (s.bump c i).rd r j = s.rd r j := rfl
@[simp] theorem State.rd_bumpIf (b : Bool) (c : Ctr) (i : Nat) (r : Reg) (j : Nat) : (s.bumpIf b c i).rd r j = s.rd r j := by
  cases b <;> rfl
@[simp] theorem State.rd_emit (o : Out) (r : Reg) (j : Nat) : (s.emit o).rd r j = s.rd r j := rfl
@[simp] theorem State.ctr_emit (o : Out) (c : Ctr) (j : Nat) : (s.emit o).ctr c j = s.ctr c j := rfl
@[simp] theorem State.rd_setMq (k : Nat) (q : Mq) (r : Reg) (j : Nat) : (s.setMq k q).rd r j = s.rd r j := rfl
@[simp] theorem State.rd_setPath (p : Path) (x : PathSt) (r : Reg) (j : Nat) : (s.setPath p x).rd r j = s.rd r j := rfl
@[simp] theorem State.rd_nextSeq (p : Path) (r : Reg) (j : Nat) : (s.nextSeq p).rd r j = s.rd r j := rfl
@[simp] theorem State.rd_stageWord (p : Path) (off : Nat) (w : Word) (r : Reg) (j : Nat) : (s.stageWord p off w).rd r j = s.rd r j := rfl

/-! ## Canonical form -/

theorem State.wr_wf (r : Reg) (i : Nat) (w : Word) (h : tblWf s.regs = true) : tblWf (s.wr r i w).regs = true :=
  tblWf_set _ _ _ _ h

theorem State.bumpBy_wf (c : Ctr) (i n : Nat) (h : tblWf s.ctrs = true) : tblWf (s.bumpBy c i n).ctrs = true :=
  tblWf_set _ _ _ _ h

/-! ## Fields of a word -/

theorem getBits_putBits (w : Word) (hi lo v : Nat) (h1 : lo ≤ hi) (h2 : hi < 32) :
    getBits (putBits w hi lo v) hi lo = v % 2 ^ (hi - lo + 1) := by
  unfold getBits putBits
  have e : 2 ^ (hi + 1) = 2 ^ lo * 2 ^ (hi - lo + 1) := by rw [← pow_add]; congr 1; omega
  have hlt : w.toNat % 2 ^ lo < 2 ^ lo := Nat.mod_lt _ (by positivity)
  have hv : v % 2 ^ (hi - lo + 1) < 2 ^ (hi - lo + 1) := Nat.mod_lt _ (by positivity)
  have e32 : (2 : Nat) ^ 32 = 2 ^ (hi + 1) * 2 ^ (31 - hi) := by rw [← pow_add]; congr 1; omega
  have hw : w.toNat < 2 ^ 32 := w.isLt
  have hq : w.toNat / 2 ^ (hi + 1) < 2 ^ (31 - hi) := by
    rw [Nat.div_lt_iff_lt_mul (by positivity), mul_comm]; omega
  have hsum : w.toNat % 2 ^ lo + v % 2 ^ (hi - lo + 1) * 2 ^ lo < 2 ^ (hi + 1) := by
    rw [e]; nlinarith [Nat.mul_le_mul_right (2 ^ lo) (Nat.succ_le_of_lt hv)]
  have hbound : w.toNat % 2 ^ lo + v % 2 ^ (hi - lo + 1) * 2 ^ lo + w.toNat / 2 ^ (hi + 1) * 2 ^ (hi + 1) < 2 ^ 32 := by
    rw [e32]; nlinarith [Nat.mul_le_mul_right (2 ^ (hi + 1)) (Nat.succ_le_of_lt hq)]
  rw [BitVec.toNat_ofNat, Nat.mod_eq_of_lt hbound]
  have r1 : w.toNat % 2 ^ lo + v % 2 ^ (hi - lo + 1) * 2 ^ lo + w.toNat / 2 ^ (hi + 1) * 2 ^ (hi + 1)
      = w.toNat % 2 ^ lo + 2 ^ lo * (v % 2 ^ (hi - lo + 1) + 2 ^ (hi - lo + 1) * (w.toNat / 2 ^ (hi + 1))) := by
    rw [e]; ring
  rw [r1, Nat.add_mul_div_left _ _ (by positivity), Nat.div_eq_of_lt hlt, Nat.zero_add, Nat.add_mul_mod_self_left,
    Nat.mod_eq_of_lt hv]

theorem State.fld_setFld_same (f : RegField) (i v : Nat) (h1 : f.lo ≤ f.hi) (h2 : f.hi < 32) :
    (s.setFld f i v).fld f i = v % 2 ^ (f.hi - f.lo + 1) := by
  unfold State.setFld State.fld; rw [State.rd_wr_same, getBits_putBits _ _ _ _ h1 h2]

end Sys2Proof.Machine
end

