-- ==== Sys2Proof/Laws/Events.lean ====
section
/-! SUPPORT. What events, faults, message posts and failed writes can change, said once: `Quiet s t` lists what they leave alone. -/

namespace Sys2Proof.Machine

open Sys2Proof

/-- `t` differs from `s` at most in what rising sources change. -/
structure Quiet (s t : State) : Prop where
  rd : ∀ r i, r ∉ eventRegs → t.rd r i = s.rd r i
  ctr : ∀ c i, c ∉ eventCtrs → t.ctr c i = s.ctr c i
  pending : t.pending = s.pending
  now : t.now = s.now
  free : t.free = s.free
  phys : t.phys = s.phys
  op : t.op = s.op
  prevOp : t.prevOp = s.prevOp
  cause : t.cause = s.cause
  leftOp : t.leftOp = s.leftOp
  hold : t.hold = s.hold
  stage : t.stage = s.stage
  tim : t.tim = s.tim
  boot : t.boot = s.boot
  mram : t.mram = s.mram
  flash : t.flash = s.flash
  win : t.win = s.win
  net : t.net = s.net
  keys : t.keys = s.keys
  hbr_paths : t.hbr.paths = s.hbr.paths
  hbr_perstLow : t.hbr.perstLow = s.hbr.perstLow
  hbr_spiCrcErr : t.hbr.spiCrcErr = s.hbr.spiCrcErr
  hbr_spiQ : t.hbr.spiQ = s.hbr.spiQ
  hbr_pcieQ : t.hbr.pcieQ = s.hbr.pcieQ
  hbr_reading : t.hbr.reading = s.hbr.reading
  hbr_l2 : t.hbr.l2 = s.hbr.l2
  pair_mode : t.pair.mode = s.pair.mode
  pair_splitAt : t.pair.splitAt = s.pair.splitAt
  pwr_coef : t.pwr.coef = s.pwr.coef
  pwr_winLevel : t.pwr.winLevel = s.pwr.winLevel
  pwr_wakeOut : t.pwr.wakeOut = s.pwr.wakeOut
  pwr_enteredAt : t.pwr.enteredAt = s.pwr.enteredAt
  pwr_retLost : t.pwr.retLost = s.pwr.retLost
  pwr_fastOk : t.pwr.fastOk = s.pwr.fastOk
  pwr_stuckSeen : t.pwr.stuckSeen = s.pwr.stuckSeen
  pwr_inh : t.pwr.inh = s.pwr.inh
  pwr_waking : t.pwr.waking = s.pwr.waking
  pwr_retrain : t.pwr.retrain = s.pwr.retrain
  red_kickAt : t.red.kickAt = s.red.kickAt
  red_edgeAt : t.red.edgeAt = s.red.edgeAt
  red_hbLost : t.red.hbLost = s.red.hbLost
  red_statusAt : t.red.statusAt = s.red.statusAt
  red_partner : t.red.partner = s.red.partner
  red_digestEq : t.red.digestEq = s.red.digestEq
  red_healthyAt : t.red.healthyAt = s.red.healthyAt
  red_takeovers : t.red.takeovers = s.red.takeovers
  red_discoverAt : t.red.discoverAt = s.red.discoverAt
  red_echoSeq : t.red.echoSeq = s.red.echoSeq
  red_stopped : t.red.stopped = s.red.stopped
  mem_trk : t.mem.trk = s.mem.trk
  mem_merge : t.mem.merge = s.mem.merge
  mem_words : t.mem.words = s.mem.words
  mem_passAt : t.mem.passAt = s.mem.passAt
  mem_pendingRows : t.mem.pendingRows = s.mem.pendingRows
  mem_rowAt : t.mem.rowAt = s.mem.rowAt

theorem Quiet.refl (s : State) : Quiet s s := by constructor <;> intros <;> rfl

theorem Quiet.trans {s t u : State} (h : Quiet s t) (k : Quiet t u) : Quiet s u where
  rd r i hr := (k.rd r i hr).trans (h.rd r i hr)
  ctr c i hc := (k.ctr c i hc).trans (h.ctr c i hc)
  pending := k.pending.trans h.pending
  now := k.now.trans h.now
  free := k.free.trans h.free
  phys := k.phys.trans h.phys
  op := k.op.trans h.op
  prevOp := k.prevOp.trans h.prevOp
  cause := k.cause.trans h.cause
  leftOp := k.leftOp.trans h.leftOp
  hold := k.hold.trans h.hold
  stage := k.stage.trans h.stage
  tim := k.tim.trans h.tim
  boot := k.boot.trans h.boot
  mram := k.mram.trans h.mram
  flash := k.flash.trans h.flash
  win := k.win.trans h.win
  net := k.net.trans h.net
  keys := k.keys.trans h.keys
  hbr_paths := k.hbr_paths.trans h.hbr_paths
  hbr_perstLow := k.hbr_perstLow.trans h.hbr_perstLow
  hbr_spiCrcErr := k.hbr_spiCrcErr.trans h.hbr_spiCrcErr
  hbr_spiQ := k.hbr_spiQ.trans h.hbr_spiQ
  hbr_pcieQ := k.hbr_pcieQ.trans h.hbr_pcieQ
  hbr_reading := k.hbr_reading.trans h.hbr_reading
  hbr_l2 := k.hbr_l2.trans h.hbr_l2
  pair_mode := k.pair_mode.trans h.pair_mode
  pair_splitAt := k.pair_splitAt.trans h.pair_splitAt
  pwr_coef := k.pwr_coef.trans h.pwr_coef
  pwr_winLevel := k.pwr_winLevel.trans h.pwr_winLevel
  pwr_wakeOut := k.pwr_wakeOut.trans h.pwr_wakeOut
  pwr_enteredAt := k.pwr_enteredAt.trans h.pwr_enteredAt
  pwr_retLost := k.pwr_retLost.trans h.pwr_retLost
  pwr_fastOk := k.pwr_fastOk.trans h.pwr_fastOk
  pwr_stuckSeen := k.pwr_stuckSeen.trans h.pwr_stuckSeen
  pwr_inh := k.pwr_inh.trans h.pwr_inh
  pwr_waking := k.pwr_waking.trans h.pwr_waking
  pwr_retrain := k.pwr_retrain.trans h.pwr_retrain
  red_kickAt := k.red_kickAt.trans h.red_kickAt
  red_edgeAt := k.red_edgeAt.trans h.red_edgeAt
  red_hbLost := k.red_hbLost.trans h.red_hbLost
  red_statusAt := k.red_statusAt.trans h.red_statusAt
  red_partner := k.red_partner.trans h.red_partner
  red_digestEq := k.red_digestEq.trans h.red_digestEq
  red_healthyAt := k.red_healthyAt.trans h.red_healthyAt
  red_takeovers := k.red_takeovers.trans h.red_takeovers
  red_discoverAt := k.red_discoverAt.trans h.red_discoverAt
  red_echoSeq := k.red_echoSeq.trans h.red_echoSeq
  red_stopped := k.red_stopped.trans h.red_stopped
  mem_trk := k.mem_trk.trans h.mem_trk
  mem_merge := k.mem_merge.trans h.mem_merge
  mem_words := k.mem_words.trans h.mem_words
  mem_passAt := k.mem_passAt.trans h.mem_passAt
  mem_pendingRows := k.mem_pendingRows.trans h.mem_pendingRows
  mem_rowAt := k.mem_rowAt.trans h.mem_rowAt

variable (s : State)

theorem quiet_wr (r : Reg) (i : Nat) (w : Word) (h : r ∈ eventRegs) : Quiet s (s.wr r i w) := by
  constructor
  · intro r' i' h'; rw [State.rd_wr_reg]; rintro rfl; exact h' h
  · intros; rfl
  all_goals rfl

theorem quiet_bump (c : Ctr) (i : Nat) (h : c ∈ eventCtrs) : Quiet s (s.bump c i) := by
  constructor
  · intros; rfl
  · intro c' i' h'; rw [State.ctr_bump, if_neg]; rintro ⟨rfl, -⟩; exact h' h
  all_goals rfl

theorem quiet_bumpIf (b : Bool) (c : Ctr) (i : Nat) (h : c ∈ eventCtrs) : Quiet s (s.bumpIf b c i) := by
  cases b
  · exact Quiet.refl s
  · exact quiet_bump s c i h

theorem quiet_setMemErr (m a b : Nat) (e : Option (WordErr × Nat)) : Quiet s (s.setMemErr m a b e) := by constructor <;> intros <;> rfl

theorem quiet_setFld (f : RegField) (i v : Nat) (h : f.reg ∈ eventRegs) : Quiet s (s.setFld f i v) := quiet_wr _ _ _ _ h

theorem quiet_applyFlip (m a b enc : Nat) : Quiet s (s.applyFlip m a b enc) := by
  unfold State.applyFlip
  refine Quiet.trans ?_ (quiet_bump _ .memFlipApplied 0 (by decide))
  refine Quiet.trans ?_ (quiet_setFld _ _ _ _ (by decide))
  exact quiet_setMemErr _ _ _ _ _

theorem quiet_memWrite (m a b : Nat) : Quiet s (s.memWrite m a b) := by
  unfold State.memWrite
  have h1 : Quiet s { (s.setMemErr m a b none) with mem := { (s.setMemErr m a b none).mem with
      parity := tblDel (s.setMemErr m a b none).mem.parity (memKey m a b) } } := by constructor <;> intros <;> rfl
  dsimp only
  split
  · exact h1.trans (quiet_applyFlip _ _ _ _ _)
  · exact h1

theorem quiet_setBall (b : Nat) (l : Bool) : Quiet s (s.setBall b l) := by
  unfold State.setBall
  dsimp only
  split
  · exact Quiet.refl s
  · exact Quiet.trans (quiet_wr _ _ _ _ (by decide)) (quiet_wr _ _ _ _ (by decide))

theorem quiet_settle : Quiet s s.settle := by
  unfold State.settle
  exact Quiet.trans (quiet_setBall _ _ _) (Quiet.trans (quiet_setBall _ _ _) (quiet_setBall _ _ _))

theorem quiet_setMq (k : Nat) (q : Mq) : Quiet s (s.setMq k q) := by constructor <;> intros <;> rfl

theorem quiet_mqAppend (k : Nat) (it : MqItem) : Quiet s (s.mqAppend k it) := by
  unfold State.mqAppend
  exact Quiet.trans (quiet_memWrite _ _ _ _) (Quiet.trans (quiet_memWrite _ _ _ _) (quiet_setMq _ _ _))

theorem quiet_mqPostCore (k : Nat) (it : MqItem) : Quiet s (s.mqPostCore k it).1 := by
  unfold State.mqPostCore
  dsimp only
  split
  · exact Quiet.refl s
  · split
    · split
      · refine Quiet.trans ?_ (quiet_bump _ _ _ (by decide))
        refine Quiet.trans ?_ (quiet_mqAppend _ _ _)
        refine Quiet.trans ?_ (quiet_setMq _ _ _)
        exact Quiet.trans (quiet_bumpIf _ _ _ _ (by decide)) (quiet_bumpIf _ _ _ _ (by decide))
      · exact quiet_bump _ _ _ (by decide)
    · exact Quiet.trans (quiet_mqAppend _ _ _) (quiet_bump _ _ _ (by decide))

theorem quiet_emit (o : Out) : Quiet s (s.emit o) := by constructor <;> intros <;> rfl

theorem quiet_sendStatus : Quiet s s.sendStatus := by
  unfold State.sendStatus State.emitPair
  dsimp only
  split <;> constructor <;> intros <;> rfl

theorem Quiet.status {s u : State} (h : Quiet s u) (b : Bool) : Quiet s (if b then u.sendStatus else u) := by
  cases b
  · exact h
  · exact h.trans (quiet_sendStatus u)

theorem quiet_setRole (r : Role) : Quiet s (s.setRole r) := by
  unfold State.setRole
  by_cases h : s.red.role = r
  · rw [if_pos h]; exact Quiet.refl s
  · rw [if_neg h]; exact Quiet.status (by constructor <;> intros <;> rfl) _

theorem quiet_enterSafe (ss : SafeSt) : Quiet s (s.enterSafe ss) := by
  unfold State.enterSafe
  dsimp only
  split
  · constructor <;> intros <;> rfl
  · exact Quiet.trans ((by constructor <;> intros <;> rfl)) (quiet_setRole _ _)

/-- The record of the first fault. -/
theorem quiet_faultRec (code sub : Nat) (ss : SafeSt) : Quiet s (
    let u := s.wr .glbFaultRec 0 (putBits (putBits (putBits 0 31 28 code) 27 24 sub) 23 22 ss.code)
    let u := u.wr .glbFaultTime 0 (BitVec.ofNat 32 u.ltNs)
    u.wr .glbFaultTime 1 (BitVec.ofNat 32 (u.ltNs / 4294967296))) := by
  refine Quiet.trans ?_ (quiet_wr _ .glbFaultTime 1 _ (by decide))
  refine Quiet.trans ?_ (quiet_wr _ .glbFaultTime 0 _ (by decide))
  exact quiet_wr _ .glbFaultRec 0 _ (by decide)

theorem quiet_faultCore (code sub : Nat) : Quiet s (s.faultCore code sub) := by
  unfold State.faultCore
  dsimp only
  refine Quiet.trans ?_ (quiet_enterSafe _ _)
  have h1 : Quiet s (if code = 5 then s else { s with pair := { s.pair with halted := true } }) := by
    split
    · exact Quiet.refl s
    · constructor <;> intros <;> rfl
  have h2 := h1.trans (Quiet.trans (quiet_setBall _ 0 false) (quiet_bump _ .glbFaults 0 (by decide)))
  dsimp only at h2
  generalize ((if code = 5 then s else ({ s with pair := { s.pair with halted := true } } : State)).setBall 0 false).bump .glbFaults 0 = u at h2 ⊢
  split
  · exact h2.trans (quiet_faultRec u code sub _)
  · split
    · refine Quiet.trans ?_ (quiet_setFld _ F.glbFaultRec_ss 0 _ (by decide))
      split
      · exact h2.trans (Quiet.trans (quiet_setFld _ _ _ _ (by decide)) (quiet_setFld _ _ _ _ (by decide)))
      · exact h2
    · exact h2

theorem quiet_setVec (v : Nat) (m : MsixVec) : Quiet s (s.setVec v m) := by constructor <;> intros <;> rfl

theorem quiet_vecSend (v : Nat) : Quiet s (s.vecSend v) := by constructor <;> intros <;> rfl

theorem quiet_vecRequest (v : Nat) : Quiet s (s.vecRequest v) := by
  unfold State.vecRequest
  split
  · exact quiet_setVec _ _ _
  · exact quiet_vecSend _ _

theorem quiet_logOrder (k : Nat) : Quiet s (s.logOrder k) := by
  unfold State.logOrder
  dsimp only
  split
  · split
    · exact quiet_setMq _ _ _
    · exact Quiet.refl s
  · exact Quiet.refl s

theorem quiet_riseLog (src : Nat) : Quiet s (s.riseLog src).1 := by
  unfold State.riseLog
  split
  · exact Quiet.trans (quiet_mqPostCore _ _ _) (quiet_logOrder _ _)
  · exact Quiet.refl s

theorem quiet_riseNotify (src : Nat) : Quiet s (s.riseNotify src) := by
  unfold State.riseNotify
  have h1 : Quiet s (if s.on F.evtRoute_fw src then s.emit (.fwNotify src) else s) := by
    split
    · exact quiet_emit _ _
    · exact Quiet.refl s
  dsimp only
  generalize (if s.on F.evtRoute_fw src then s.emit (.fwNotify src) else s) = u at h1 ⊢
  split
  · exact h1.trans (quiet_vecRequest _ _)
  · exact h1

theorem quiet_rise (src : Nat) : Quiet s (s.rise src).1 := by
  have h1 : Quiet s ((s.wr .evtStat (src / 32) (putBits (s.rd .evtStat (src / 32)) (src % 32) (src % 32) 1)).riseLog src).1 :=
    Quiet.trans (quiet_wr _ .evtStat _ _ (by decide)) (quiet_riseLog _ _)
  unfold State.rise
  dsimp only
  generalize (s.wr .evtStat (src / 32) (putBits (s.rd .evtStat (src / 32)) (src % 32) (src % 32) 1)).riseLog src = x at h1 ⊢
  have h2 := h1.trans (quiet_riseNotify _ src)
  split
  · exact h2.trans (quiet_faultCore _ _ _)
  · exact h2

theorem quiet_raiseFuel (n : Nat) (s : State) (l : List Nat) : Quiet s (State.raiseFuel n s l) := by
  induction n generalizing s l with
  | zero => exact Quiet.refl s
  | succ n ih =>
    cases l with
    | nil => exact Quiet.refl s
    | cons src rest =>
      unfold State.raiseFuel
      split
      · exact ih _ _
      · exact (quiet_rise s src).trans (ih _ _)

theorem quiet_raiseAll (l : List Nat) : Quiet s (s.raiseAll l) := Quiet.trans (quiet_raiseFuel _ _ _) (quiet_settle _)

theorem quiet_raise (n : Nat) : Quiet s (s.raise n) := quiet_raiseAll s [n]

theorem quiet_raiseIf (b : Bool) (n : Nat) : Quiet s (s.raiseIf b n) := by
  unfold State.raiseIf; split
  · exact quiet_raise _ _
  · exact Quiet.refl s

theorem quiet_accessErr (b : Blk) : Quiet s (s.accessErr b) := quiet_raise _ _

theorem quiet_fault (code sub : Nat) : Quiet s (s.fault code sub) :=
  Quiet.trans (quiet_faultCore _ _ _) (quiet_raiseIf _ _ _)

theorem quiet_mqPost (k : Nat) (it : MqItem) : Quiet s (s.mqPost k it).1 :=
  Quiet.trans (quiet_mqPostCore _ _ _) (quiet_raiseAll _ _)

/-! ## The same, as rewriting rules -/

@[simp] theorem State.setBall_pending (b : Nat) (l : Bool) : (s.setBall b l).pending = s.pending := (quiet_setBall s b l).pending
@[simp] theorem State.setBall_now (b : Nat) (l : Bool) : (s.setBall b l).now = s.now := (quiet_setBall s b l).now
@[simp] theorem State.setBall_free (b : Nat) (l : Bool) : (s.setBall b l).free = s.free := (quiet_setBall s b l).free
@[simp] theorem State.setBall_phys (b : Nat) (l : Bool) : (s.setBall b l).phys = s.phys := (quiet_setBall s b l).phys
@[simp] theorem State.setBall_op (b : Nat) (l : Bool) : (s.setBall b l).op = s.op := (quiet_setBall s b l).op
@[simp] theorem State.setBall_prevOp (b : Nat) (l : Bool) : (s.setBall b l).prevOp = s.prevOp := (quiet_setBall s b l).prevOp
@[simp] theorem State.setBall_cause (b : Nat) (l : Bool) : (s.setBall b l).cause = s.cause := (quiet_setBall s b l).cause
@[simp] theorem State.setBall_leftOp (b : Nat) (l : Bool) : (s.setBall b l).leftOp = s.leftOp := (quiet_setBall s b l).leftOp
@[simp] theorem State.setBall_hold (b : Nat) (l : Bool) : (s.setBall b l).hold = s.hold := (quiet_setBall s b l).hold
@[simp] theorem State.setBall_stage (b : Nat) (l : Bool) : (s.setBall b l).stage = s.stage := (quiet_setBall s b l).stage
@[simp] theorem State.setBall_tim (b : Nat) (l : Bool) : (s.setBall b l).tim = s.tim := (quiet_setBall s b l).tim
@[simp] theorem State.setBall_boot (b : Nat) (l : Bool) : (s.setBall b l).boot = s.boot := (quiet_setBall s b l).boot
@[simp] theorem State.setBall_mram (b : Nat) (l : Bool) : (s.setBall b l).mram = s.mram := (quiet_setBall s b l).mram
@[simp] theorem State.setBall_flash (b : Nat) (l : Bool) : (s.setBall b l).flash = s.flash := (quiet_setBall s b l).flash
@[simp] theorem State.setBall_win (b : Nat) (l : Bool) : (s.setBall b l).win = s.win := (quiet_setBall s b l).win
@[simp] theorem State.setBall_net (b : Nat) (l : Bool) : (s.setBall b l).net = s.net := (quiet_setBall s b l).net
@[simp] theorem State.setBall_keys (b : Nat) (l : Bool) : (s.setBall b l).keys = s.keys := (quiet_setBall s b l).keys
@[simp] theorem State.setBall_hbr_paths (b : Nat) (l : Bool) : (s.setBall b l).hbr.paths = s.hbr.paths := (quiet_setBall s b l).hbr_paths
@[simp] theorem State.setBall_hbr_perstLow (b : Nat) (l : Bool) : (s.setBall b l).hbr.perstLow = s.hbr.perstLow := (quiet_setBall s b l).hbr_perstLow
@[simp] theorem State.setBall_hbr_spiCrcErr (b : Nat) (l : Bool) : (s.setBall b l).hbr.spiCrcErr = s.hbr.spiCrcErr := (quiet_setBall s b l).hbr_spiCrcErr
@[simp] theorem State.setBall_hbr_spiQ (b : Nat) (l : Bool) : (s.setBall b l).hbr.spiQ = s.hbr.spiQ := (quiet_setBall s b l).hbr_spiQ
@[simp] theorem State.setBall_hbr_pcieQ (b : Nat) (l : Bool) : (s.setBall b l).hbr.pcieQ = s.hbr.pcieQ := (quiet_setBall s b l).hbr_pcieQ
@[simp] theorem State.setBall_hbr_reading (b : Nat) (l : Bool) : (s.setBall b l).hbr.reading = s.hbr.reading := (quiet_setBall s b l).hbr_reading
@[simp] theorem State.setBall_hbr_l2 (b : Nat) (l : Bool) : (s.setBall b l).hbr.l2 = s.hbr.l2 := (quiet_setBall s b l).hbr_l2
@[simp] theorem State.setBall_pair_mode (b : Nat) (l : Bool) : (s.setBall b l).pair.mode = s.pair.mode := (quiet_setBall s b l).pair_mode
@[simp] theorem State.setBall_pair_splitAt (b : Nat) (l : Bool) : (s.setBall b l).pair.splitAt = s.pair.splitAt := (quiet_setBall s b l).pair_splitAt
@[simp] theorem State.setBall_pwr_coef (b : Nat) (l : Bool) : (s.setBall b l).pwr.coef = s.pwr.coef := (quiet_setBall s b l).pwr_coef
@[simp] theorem State.setBall_pwr_winLevel (b : Nat) (l : Bool) : (s.setBall b l).pwr.winLevel = s.pwr.winLevel := (quiet_setBall s b l).pwr_winLevel
@[simp] theorem State.setBall_pwr_wakeOut (b : Nat) (l : Bool) : (s.setBall b l).pwr.wakeOut = s.pwr.wakeOut := (quiet_setBall s b l).pwr_wakeOut
@[simp] theorem State.setBall_pwr_enteredAt (b : Nat) (l : Bool) : (s.setBall b l).pwr.enteredAt = s.pwr.enteredAt := (quiet_setBall s b l).pwr_enteredAt
@[simp] theorem State.setBall_pwr_retLost (b : Nat) (l : Bool) : (s.setBall b l).pwr.retLost = s.pwr.retLost := (quiet_setBall s b l).pwr_retLost
@[simp] theorem State.setBall_pwr_fastOk (b : Nat) (l : Bool) : (s.setBall b l).pwr.fastOk = s.pwr.fastOk := (quiet_setBall s b l).pwr_fastOk
@[simp] theorem State.setBall_pwr_stuckSeen (b : Nat) (l : Bool) : (s.setBall b l).pwr.stuckSeen = s.pwr.stuckSeen := (quiet_setBall s b l).pwr_stuckSeen
@[simp] theorem State.setBall_pwr_inh (b : Nat) (l : Bool) : (s.setBall b l).pwr.inh = s.pwr.inh := (quiet_setBall s b l).pwr_inh
@[simp] theorem State.setBall_pwr_waking (b : Nat) (l : Bool) : (s.setBall b l).pwr.waking = s.pwr.waking := (quiet_setBall s b l).pwr_waking
@[simp] theorem State.setBall_pwr_retrain (b : Nat) (l : Bool) : (s.setBall b l).pwr.retrain = s.pwr.retrain := (quiet_setBall s b l).pwr_retrain
@[simp] theorem State.setBall_red_kickAt (b : Nat) (l : Bool) : (s.setBall b l).red.kickAt = s.red.kickAt := (quiet_setBall s b l).red_kickAt
@[simp] theorem State.setBall_red_edgeAt (b : Nat) (l : Bool) : (s.setBall b l).red.edgeAt = s.red.edgeAt := (quiet_setBall s b l).red_edgeAt
@[simp] theorem State.setBall_red_hbLost (b : Nat) (l : Bool) : (s.setBall b l).red.hbLost = s.red.hbLost := (quiet_setBall s b l).red_hbLost
@[simp] theorem State.setBall_red_statusAt (b : Nat) (l : Bool) : (s.setBall b l).red.statusAt = s.red.statusAt := (quiet_setBall s b l).red_statusAt
@[simp] theorem State.setBall_red_partner (b : Nat) (l : Bool) : (s.setBall b l).red.partner = s.red.partner := (quiet_setBall s b l).red_partner
@[simp] theorem State.setBall_red_digestEq (b : Nat) (l : Bool) : (s.setBall b l).red.digestEq = s.red.digestEq := (quiet_setBall s b l).red_digestEq
@[simp] theorem State.setBall_red_healthyAt (b : Nat) (l : Bool) : (s.setBall b l).red.healthyAt = s.red.healthyAt := (quiet_setBall s b l).red_healthyAt
@[simp] theorem State.setBall_red_takeovers (b : Nat) (l : Bool) : (s.setBall b l).red.takeovers = s.red.takeovers := (quiet_setBall s b l).red_takeovers
@[simp] theorem State.setBall_red_discoverAt (b : Nat) (l : Bool) : (s.setBall b l).red.discoverAt = s.red.discoverAt := (quiet_setBall s b l).red_discoverAt
@[simp] theorem State.setBall_red_echoSeq (b : Nat) (l : Bool) : (s.setBall b l).red.echoSeq = s.red.echoSeq := (quiet_setBall s b l).red_echoSeq
@[simp] theorem State.setBall_red_stopped (b : Nat) (l : Bool) : (s.setBall b l).red.stopped = s.red.stopped := (quiet_setBall s b l).red_stopped
@[simp] theorem State.setBall_mem_trk (b : Nat) (l : Bool) : (s.setBall b l).mem.trk = s.mem.trk := (quiet_setBall s b l).mem_trk
@[simp] theorem State.setBall_mem_merge (b : Nat) (l : Bool) : (s.setBall b l).mem.merge = s.mem.merge := (quiet_setBall s b l).mem_merge
@[simp] theorem State.setBall_mem_words (b : Nat) (l : Bool) : (s.setBall b l).mem.words = s.mem.words := (quiet_setBall s b l).mem_words
@[simp] theorem State.setBall_mem_passAt (b : Nat) (l : Bool) : (s.setBall b l).mem.passAt = s.mem.passAt := (quiet_setBall s b l).mem_passAt
@[simp] theorem State.setBall_mem_pendingRows (b : Nat) (l : Bool) : (s.setBall b l).mem.pendingRows = s.mem.pendingRows := (quiet_setBall s b l).mem_pendingRows
@[simp] theorem State.setBall_mem_rowAt (b : Nat) (l : Bool) : (s.setBall b l).mem.rowAt = s.mem.rowAt := (quiet_setBall s b l).mem_rowAt
theorem State.rd_setBall (b : Nat) (l : Bool) (r : Reg) (i : Nat) (h : r ∉ eventRegs) : (s.setBall b l).rd r i = s.rd r i := (quiet_setBall s b l).rd r i h
theorem State.ctr_setBall (b : Nat) (l : Bool) (c : Ctr) (i : Nat) (h : c ∉ eventCtrs) : (s.setBall b l).ctr c i = s.ctr c i := (quiet_setBall s b l).ctr c i h

@[simp] theorem State.settle_pending : (s.settle).pending = s.pending := (quiet_settle s).pending
@[simp] theorem State.settle_now : (s.settle).now = s.now := (quiet_settle s).now
@[simp] theorem State.settle_free : (s.settle).free = s.free := (quiet_settle s).free
@[simp] theorem State.settle_phys : (s.settle).phys = s.phys := (quiet_settle s).phys
@[simp] theorem State.settle_op : (s.settle).op = s.op := (quiet_settle s).op
@[simp] theorem State.settle_prevOp : (s.settle).prevOp = s.prevOp := (quiet_settle s).prevOp
@[simp] theorem State.settle_cause : (s.settle).cause = s.cause := (quiet_settle s).cause
@[simp] theorem State.settle_leftOp : (s.settle).leftOp = s.leftOp := (quiet_settle s).leftOp
@[simp] theorem State.settle_hold : (s.settle).hold = s.hold := (quiet_settle s).hold
@[simp] theorem State.settle_stage : (s.settle).stage = s.stage := (quiet_settle s).stage
@[simp] theorem State.settle_tim : (s.settle).tim = s.tim := (quiet_settle s).tim
@[simp] theorem State.settle_boot : (s.settle).boot = s.boot := (quiet_settle s).boot
@[simp] theorem State.settle_mram : (s.settle).mram = s.mram := (quiet_settle s).mram
@[simp] theorem State.settle_flash : (s.settle).flash = s.flash := (quiet_settle s).flash
@[simp] theorem State.settle_win : (s.settle).win = s.win := (quiet_settle s).win
@[simp] theorem State.settle_net : (s.settle).net = s.net := (quiet_settle s).net
@[simp] theorem State.settle_keys : (s.settle).keys = s.keys := (quiet_settle s).keys
@[simp] theorem State.settle_hbr_paths : (s.settle).hbr.paths = s.hbr.paths := (quiet_settle s).hbr_paths
@[simp] theorem State.settle_hbr_perstLow : (s.settle).hbr.perstLow = s.hbr.perstLow := (quiet_settle s).hbr_perstLow
@[simp] theorem State.settle_hbr_spiCrcErr : (s.settle).hbr.spiCrcErr = s.hbr.spiCrcErr := (quiet_settle s).hbr_spiCrcErr
@[simp] theorem State.settle_hbr_spiQ : (s.settle).hbr.spiQ = s.hbr.spiQ := (quiet_settle s).hbr_spiQ
@[simp] theorem State.settle_hbr_pcieQ : (s.settle).hbr.pcieQ = s.hbr.pcieQ := (quiet_settle s).hbr_pcieQ
@[simp] theorem State.settle_hbr_reading : (s.settle).hbr.reading = s.hbr.reading := (quiet_settle s).hbr_reading
@[simp] theorem State.settle_hbr_l2 : (s.settle).hbr.l2 = s.hbr.l2 := (quiet_settle s).hbr_l2
@[simp] theorem State.settle_pair_mode : (s.settle).pair.mode = s.pair.mode := (quiet_settle s).pair_mode
@[simp] theorem State.settle_pair_splitAt : (s.settle).pair.splitAt = s.pair.splitAt := (quiet_settle s).pair_splitAt
@[simp] theorem State.settle_pwr_coef : (s.settle).pwr.coef = s.pwr.coef := (quiet_settle s).pwr_coef
@[simp] theorem State.settle_pwr_winLevel : (s.settle).pwr.winLevel = s.pwr.winLevel := (quiet_settle s).pwr_winLevel
@[simp] theorem State.settle_pwr_wakeOut : (s.settle).pwr.wakeOut = s.pwr.wakeOut := (quiet_settle s).pwr_wakeOut
@[simp] theorem State.settle_pwr_enteredAt : (s.settle).pwr.enteredAt = s.pwr.enteredAt := (quiet_settle s).pwr_enteredAt
@[simp] theorem State.settle_pwr_retLost : (s.settle).pwr.retLost = s.pwr.retLost := (quiet_settle s).pwr_retLost
@[simp] theorem State.settle_pwr_fastOk : (s.settle).pwr.fastOk = s.pwr.fastOk := (quiet_settle s).pwr_fastOk
@[simp] theorem State.settle_pwr_stuckSeen : (s.settle).pwr.stuckSeen = s.pwr.stuckSeen := (quiet_settle s).pwr_stuckSeen
@[simp] theorem State.settle_pwr_inh : (s.settle).pwr.inh = s.pwr.inh := (quiet_settle s).pwr_inh
@[simp] theorem State.settle_pwr_waking : (s.settle).pwr.waking = s.pwr.waking := (quiet_settle s).pwr_waking
@[simp] theorem State.settle_pwr_retrain : (s.settle).pwr.retrain = s.pwr.retrain := (quiet_settle s).pwr_retrain
@[simp] theorem State.settle_red_kickAt : (s.settle).red.kickAt = s.red.kickAt := (quiet_settle s).red_kickAt
@[simp] theorem State.settle_red_edgeAt : (s.settle).red.edgeAt = s.red.edgeAt := (quiet_settle s).red_edgeAt
@[simp] theorem State.settle_red_hbLost : (s.settle).red.hbLost = s.red.hbLost := (quiet_settle s).red_hbLost
@[simp] theorem State.settle_red_statusAt : (s.settle).red.statusAt = s.red.statusAt := (quiet_settle s).red_statusAt
@[simp] theorem State.settle_red_partner : (s.settle).red.partner = s.red.partner := (quiet_settle s).red_partner
@[simp] theorem State.settle_red_digestEq : (s.settle).red.digestEq = s.red.digestEq := (quiet_settle s).red_digestEq
@[simp] theorem State.settle_red_healthyAt : (s.settle).red.healthyAt = s.red.healthyAt := (quiet_settle s).red_healthyAt
@[simp] theorem State.settle_red_takeovers : (s.settle).red.takeovers = s.red.takeovers := (quiet_settle s).red_takeovers
@[simp] theorem State.settle_red_discoverAt : (s.settle).red.discoverAt = s.red.discoverAt := (quiet_settle s).red_discoverAt
@[simp] theorem State.settle_red_echoSeq : (s.settle).red.echoSeq = s.red.echoSeq := (quiet_settle s).red_echoSeq
@[simp] theorem State.settle_red_stopped : (s.settle).red.stopped = s.red.stopped := (quiet_settle s).red_stopped
@[simp] theorem State.settle_mem_trk : (s.settle).mem.trk = s.mem.trk := (quiet_settle s).mem_trk
@[simp] theorem State.settle_mem_merge : (s.settle).mem.merge = s.mem.merge := (quiet_settle s).mem_merge
@[simp] theorem State.settle_mem_words : (s.settle).mem.words = s.mem.words := (quiet_settle s).mem_words
@[simp] theorem State.settle_mem_passAt : (s.settle).mem.passAt = s.mem.passAt := (quiet_settle s).mem_passAt
@[simp] theorem State.settle_mem_pendingRows : (s.settle).mem.pendingRows = s.mem.pendingRows := (quiet_settle s).mem_pendingRows
@[simp] theorem State.settle_mem_rowAt : (s.settle).mem.rowAt = s.mem.rowAt := (quiet_settle s).mem_rowAt
theorem State.rd_settle (r : Reg) (i : Nat) (h : r ∉ eventRegs) : (s.settle).rd r i = s.rd r i := (quiet_settle s).rd r i h
theorem State.ctr_settle (c : Ctr) (i : Nat) (h : c ∉ eventCtrs) : (s.settle).ctr c i = s.ctr c i := (quiet_settle s).ctr c i h

@[simp] theorem State.raiseAll_pending (l : List Nat) : (s.raiseAll l).pending = s.pending := (quiet_raiseAll s l).pending
@[simp] theorem State.raiseAll_now (l : List Nat) : (s.raiseAll l).now = s.now := (quiet_raiseAll s l).now
@[simp] theorem State.raiseAll_free (l : List Nat) : (s.raiseAll l).free = s.free := (quiet_raiseAll s l).free
@[simp] theorem State.raiseAll_phys (l : List Nat) : (s.raiseAll l).phys = s.phys := (quiet_raiseAll s l).phys
@[simp] theorem State.raiseAll_op (l : List Nat) : (s.raiseAll l).op = s.op := (quiet_raiseAll s l).op
@[simp] theorem State.raiseAll_prevOp (l : List Nat) : (s.raiseAll l).prevOp = s.prevOp := (quiet_raiseAll s l).prevOp
@[simp] theorem State.raiseAll_cause (l : List Nat) : (s.raiseAll l).cause = s.cause := (quiet_raiseAll s l).cause
@[simp] theorem State.raiseAll_leftOp (l : List Nat) : (s.raiseAll l).leftOp = s.leftOp := (quiet_raiseAll s l).leftOp
@[simp] theorem State.raiseAll_hold (l : List Nat) : (s.raiseAll l).hold = s.hold := (quiet_raiseAll s l).hold
@[simp] theorem State.raiseAll_stage (l : List Nat) : (s.raiseAll l).stage = s.stage := (quiet_raiseAll s l).stage
@[simp] theorem State.raiseAll_tim (l : List Nat) : (s.raiseAll l).tim = s.tim := (quiet_raiseAll s l).tim
@[simp] theorem State.raiseAll_boot (l : List Nat) : (s.raiseAll l).boot = s.boot := (quiet_raiseAll s l).boot
@[simp] theorem State.raiseAll_mram (l : List Nat) : (s.raiseAll l).mram = s.mram := (quiet_raiseAll s l).mram
@[simp] theorem State.raiseAll_flash (l : List Nat) : (s.raiseAll l).flash = s.flash := (quiet_raiseAll s l).flash
@[simp] theorem State.raiseAll_win (l : List Nat) : (s.raiseAll l).win = s.win := (quiet_raiseAll s l).win
@[simp] theorem State.raiseAll_net (l : List Nat) : (s.raiseAll l).net = s.net := (quiet_raiseAll s l).net
@[simp] theorem State.raiseAll_keys (l : List Nat) : (s.raiseAll l).keys = s.keys := (quiet_raiseAll s l).keys
@[simp] theorem State.raiseAll_hbr_paths (l : List Nat) : (s.raiseAll l).hbr.paths = s.hbr.paths := (quiet_raiseAll s l).hbr_paths
@[simp] theorem State.raiseAll_hbr_perstLow (l : List Nat) : (s.raiseAll l).hbr.perstLow = s.hbr.perstLow := (quiet_raiseAll s l).hbr_perstLow
@[simp] theorem State.raiseAll_hbr_spiCrcErr (l : List Nat) : (s.raiseAll l).hbr.spiCrcErr = s.hbr.spiCrcErr := (quiet_raiseAll s l).hbr_spiCrcErr
@[simp] theorem State.raiseAll_hbr_spiQ (l : List Nat) : (s.raiseAll l).hbr.spiQ = s.hbr.spiQ := (quiet_raiseAll s l).hbr_spiQ
@[simp] theorem State.raiseAll_hbr_pcieQ (l : List Nat) : (s.raiseAll l).hbr.pcieQ = s.hbr.pcieQ := (quiet_raiseAll s l).hbr_pcieQ
@[simp] theorem State.raiseAll_hbr_reading (l : List Nat) : (s.raiseAll l).hbr.reading = s.hbr.reading := (quiet_raiseAll s l).hbr_reading
@[simp] theorem State.raiseAll_hbr_l2 (l : List Nat) : (s.raiseAll l).hbr.l2 = s.hbr.l2 := (quiet_raiseAll s l).hbr_l2
@[simp] theorem State.raiseAll_pair_mode (l : List Nat) : (s.raiseAll l).pair.mode = s.pair.mode := (quiet_raiseAll s l).pair_mode
@[simp] theorem State.raiseAll_pair_splitAt (l : List Nat) : (s.raiseAll l).pair.splitAt = s.pair.splitAt := (quiet_raiseAll s l).pair_splitAt
@[simp] theorem State.raiseAll_pwr_coef (l : List Nat) : (s.raiseAll l).pwr.coef = s.pwr.coef := (quiet_raiseAll s l).pwr_coef
@[simp] theorem State.raiseAll_pwr_winLevel (l : List Nat) : (s.raiseAll l).pwr.winLevel = s.pwr.winLevel := (quiet_raiseAll s l).pwr_winLevel
@[simp] theorem State.raiseAll_pwr_wakeOut (l : List Nat) : (s.raiseAll l).pwr.wakeOut = s.pwr.wakeOut := (quiet_raiseAll s l).pwr_wakeOut
@[simp] theorem State.raiseAll_pwr_enteredAt (l : List Nat) : (s.raiseAll l).pwr.enteredAt = s.pwr.enteredAt := (quiet_raiseAll s l).pwr_enteredAt
@[simp] theorem State.raiseAll_pwr_retLost (l : List Nat) : (s.raiseAll l).pwr.retLost = s.pwr.retLost := (quiet_raiseAll s l).pwr_retLost
@[simp] theorem State.raiseAll_pwr_fastOk (l : List Nat) : (s.raiseAll l).pwr.fastOk = s.pwr.fastOk := (quiet_raiseAll s l).pwr_fastOk
@[simp] theorem State.raiseAll_pwr_stuckSeen (l : List Nat) : (s.raiseAll l).pwr.stuckSeen = s.pwr.stuckSeen := (quiet_raiseAll s l).pwr_stuckSeen
@[simp] theorem State.raiseAll_pwr_inh (l : List Nat) : (s.raiseAll l).pwr.inh = s.pwr.inh := (quiet_raiseAll s l).pwr_inh
@[simp] theorem State.raiseAll_pwr_waking (l : List Nat) : (s.raiseAll l).pwr.waking = s.pwr.waking := (quiet_raiseAll s l).pwr_waking
@[simp] theorem State.raiseAll_pwr_retrain (l : List Nat) : (s.raiseAll l).pwr.retrain = s.pwr.retrain := (quiet_raiseAll s l).pwr_retrain
@[simp] theorem State.raiseAll_red_kickAt (l : List Nat) : (s.raiseAll l).red.kickAt = s.red.kickAt := (quiet_raiseAll s l).red_kickAt
@[simp] theorem State.raiseAll_red_edgeAt (l : List Nat) : (s.raiseAll l).red.edgeAt = s.red.edgeAt := (quiet_raiseAll s l).red_edgeAt
@[simp] theorem State.raiseAll_red_hbLost (l : List Nat) : (s.raiseAll l).red.hbLost = s.red.hbLost := (quiet_raiseAll s l).red_hbLost
@[simp] theorem State.raiseAll_red_statusAt (l : List Nat) : (s.raiseAll l).red.statusAt = s.red.statusAt := (quiet_raiseAll s l).red_statusAt
@[simp] theorem State.raiseAll_red_partner (l : List Nat) : (s.raiseAll l).red.partner = s.red.partner := (quiet_raiseAll s l).red_partner
@[simp] theorem State.raiseAll_red_digestEq (l : List Nat) : (s.raiseAll l).red.digestEq = s.red.digestEq := (quiet_raiseAll s l).red_digestEq
@[simp] theorem State.raiseAll_red_healthyAt (l : List Nat) : (s.raiseAll l).red.healthyAt = s.red.healthyAt := (quiet_raiseAll s l).red_healthyAt
@[simp] theorem State.raiseAll_red_takeovers (l : List Nat) : (s.raiseAll l).red.takeovers = s.red.takeovers := (quiet_raiseAll s l).red_takeovers
@[simp] theorem State.raiseAll_red_discoverAt (l : List Nat) : (s.raiseAll l).red.discoverAt = s.red.discoverAt := (quiet_raiseAll s l).red_discoverAt
@[simp] theorem State.raiseAll_red_echoSeq (l : List Nat) : (s.raiseAll l).red.echoSeq = s.red.echoSeq := (quiet_raiseAll s l).red_echoSeq
@[simp] theorem State.raiseAll_red_stopped (l : List Nat) : (s.raiseAll l).red.stopped = s.red.stopped := (quiet_raiseAll s l).red_stopped
@[simp] theorem State.raiseAll_mem_trk (l : List Nat) : (s.raiseAll l).mem.trk = s.mem.trk := (quiet_raiseAll s l).mem_trk
@[simp] theorem State.raiseAll_mem_merge (l : List Nat) : (s.raiseAll l).mem.merge = s.mem.merge := (quiet_raiseAll s l).mem_merge
@[simp] theorem State.raiseAll_mem_words (l : List Nat) : (s.raiseAll l).mem.words = s.mem.words := (quiet_raiseAll s l).mem_words
@[simp] theorem State.raiseAll_mem_passAt (l : List Nat) : (s.raiseAll l).mem.passAt = s.mem.passAt := (quiet_raiseAll s l).mem_passAt
@[simp] theorem State.raiseAll_mem_pendingRows (l : List Nat) : (s.raiseAll l).mem.pendingRows = s.mem.pendingRows := (quiet_raiseAll s l).mem_pendingRows
@[simp] theorem State.raiseAll_mem_rowAt (l : List Nat) : (s.raiseAll l).mem.rowAt = s.mem.rowAt := (quiet_raiseAll s l).mem_rowAt
theorem State.rd_raiseAll (l : List Nat) (r : Reg) (i : Nat) (h : r ∉ eventRegs) : (s.raiseAll l).rd r i = s.rd r i := (quiet_raiseAll s l).rd r i h
theorem State.ctr_raiseAll (l : List Nat) (c : Ctr) (i : Nat) (h : c ∉ eventCtrs) : (s.raiseAll l).ctr c i = s.ctr c i := (quiet_raiseAll s l).ctr c i h

@[simp] theorem State.raise_pending (n : Nat) : (s.raise n).pending = s.pending := (quiet_raise s n).pending
@[simp] theorem State.raise_now (n : Nat) : (s.raise n).now = s.now := (quiet_raise s n).now
@[simp] theorem State.raise_free (n : Nat) : (s.raise n).free = s.free := (quiet_raise s n).free
@[simp] theorem State.raise_phys (n : Nat) : (s.raise n).phys = s.phys := (quiet_raise s n).phys
@[simp] theorem State.raise_op (n : Nat) : (s.raise n).op = s.op := (quiet_raise s n).op
@[simp] theorem State.raise_prevOp (n : Nat) : (s.raise n).prevOp = s.prevOp := (quiet_raise s n).prevOp
@[simp] theorem State.raise_cause (n : Nat) : (s.raise n).cause = s.cause := (quiet_raise s n).cause
@[simp] theorem State.raise_leftOp (n : Nat) : (s.raise n).leftOp = s.leftOp := (quiet_raise s n).leftOp
@[simp] theorem State.raise_hold (n : Nat) : (s.raise n).hold = s.hold := (quiet_raise s n).hold
@[simp] theorem State.raise_stage (n : Nat) : (s.raise n).stage = s.stage := (quiet_raise s n).stage
@[simp] theorem State.raise_tim (n : Nat) : (s.raise n).tim = s.tim := (quiet_raise s n).tim
@[simp] theorem State.raise_boot (n : Nat) : (s.raise n).boot = s.boot := (quiet_raise s n).boot
@[simp] theorem State.raise_mram (n : Nat) : (s.raise n).mram = s.mram := (quiet_raise s n).mram
@[simp] theorem State.raise_flash (n : Nat) : (s.raise n).flash = s.flash := (quiet_raise s n).flash
@[simp] theorem State.raise_win (n : Nat) : (s.raise n).win = s.win := (quiet_raise s n).win
@[simp] theorem State.raise_net (n : Nat) : (s.raise n).net = s.net := (quiet_raise s n).net
@[simp] theorem State.raise_keys (n : Nat) : (s.raise n).keys = s.keys := (quiet_raise s n).keys
@[simp] theorem State.raise_hbr_paths (n : Nat) : (s.raise n).hbr.paths = s.hbr.paths := (quiet_raise s n).hbr_paths
@[simp] theorem State.raise_hbr_perstLow (n : Nat) : (s.raise n).hbr.perstLow = s.hbr.perstLow := (quiet_raise s n).hbr_perstLow
@[simp] theorem State.raise_hbr_spiCrcErr (n : Nat) : (s.raise n).hbr.spiCrcErr = s.hbr.spiCrcErr := (quiet_raise s n).hbr_spiCrcErr
@[simp] theorem State.raise_hbr_spiQ (n : Nat) : (s.raise n).hbr.spiQ = s.hbr.spiQ := (quiet_raise s n).hbr_spiQ
@[simp] theorem State.raise_hbr_pcieQ (n : Nat) : (s.raise n).hbr.pcieQ = s.hbr.pcieQ := (quiet_raise s n).hbr_pcieQ
@[simp] theorem State.raise_hbr_reading (n : Nat) : (s.raise n).hbr.reading = s.hbr.reading := (quiet_raise s n).hbr_reading
@[simp] theorem State.raise_hbr_l2 (n : Nat) : (s.raise n).hbr.l2 = s.hbr.l2 := (quiet_raise s n).hbr_l2
@[simp] theorem State.raise_pair_mode (n : Nat) : (s.raise n).pair.mode = s.pair.mode := (quiet_raise s n).pair_mode
@[simp] theorem State.raise_pair_splitAt (n : Nat) : (s.raise n).pair.splitAt = s.pair.splitAt := (quiet_raise s n).pair_splitAt
@[simp] theorem State.raise_pwr_coef (n : Nat) : (s.raise n).pwr.coef = s.pwr.coef := (quiet_raise s n).pwr_coef
@[simp] theorem State.raise_pwr_winLevel (n : Nat) : (s.raise n).pwr.winLevel = s.pwr.winLevel := (quiet_raise s n).pwr_winLevel
@[simp] theorem State.raise_pwr_wakeOut (n : Nat) : (s.raise n).pwr.wakeOut = s.pwr.wakeOut := (quiet_raise s n).pwr_wakeOut
@[simp] theorem State.raise_pwr_enteredAt (n : Nat) : (s.raise n).pwr.enteredAt = s.pwr.enteredAt := (quiet_raise s n).pwr_enteredAt
@[simp] theorem State.raise_pwr_retLost (n : Nat) : (s.raise n).pwr.retLost = s.pwr.retLost := (quiet_raise s n).pwr_retLost
@[simp] theorem State.raise_pwr_fastOk (n : Nat) : (s.raise n).pwr.fastOk = s.pwr.fastOk := (quiet_raise s n).pwr_fastOk
@[simp] theorem State.raise_pwr_stuckSeen (n : Nat) : (s.raise n).pwr.stuckSeen = s.pwr.stuckSeen := (quiet_raise s n).pwr_stuckSeen
@[simp] theorem State.raise_pwr_inh (n : Nat) : (s.raise n).pwr.inh = s.pwr.inh := (quiet_raise s n).pwr_inh
@[simp] theorem State.raise_pwr_waking (n : Nat) : (s.raise n).pwr.waking = s.pwr.waking := (quiet_raise s n).pwr_waking
@[simp] theorem State.raise_pwr_retrain (n : Nat) : (s.raise n).pwr.retrain = s.pwr.retrain := (quiet_raise s n).pwr_retrain
@[simp] theorem State.raise_red_kickAt (n : Nat) : (s.raise n).red.kickAt = s.red.kickAt := (quiet_raise s n).red_kickAt
@[simp] theorem State.raise_red_edgeAt (n : Nat) : (s.raise n).red.edgeAt = s.red.edgeAt := (quiet_raise s n).red_edgeAt
@[simp] theorem State.raise_red_hbLost (n : Nat) : (s.raise n).red.hbLost = s.red.hbLost := (quiet_raise s n).red_hbLost
@[simp] theorem State.raise_red_statusAt (n : Nat) : (s.raise n).red.statusAt = s.red.statusAt := (quiet_raise s n).red_statusAt
@[simp] theorem State.raise_red_partner (n : Nat) : (s.raise n).red.partner = s.red.partner := (quiet_raise s n).red_partner
@[simp] theorem State.raise_red_digestEq (n : Nat) : (s.raise n).red.digestEq = s.red.digestEq := (quiet_raise s n).red_digestEq
@[simp] theorem State.raise_red_healthyAt (n : Nat) : (s.raise n).red.healthyAt = s.red.healthyAt := (quiet_raise s n).red_healthyAt
@[simp] theorem State.raise_red_takeovers (n : Nat) : (s.raise n).red.takeovers = s.red.takeovers := (quiet_raise s n).red_takeovers
@[simp] theorem State.raise_red_discoverAt (n : Nat) : (s.raise n).red.discoverAt = s.red.discoverAt := (quiet_raise s n).red_discoverAt
@[simp] theorem State.raise_red_echoSeq (n : Nat) : (s.raise n).red.echoSeq = s.red.echoSeq := (quiet_raise s n).red_echoSeq
@[simp] theorem State.raise_red_stopped (n : Nat) : (s.raise n).red.stopped = s.red.stopped := (quiet_raise s n).red_stopped
@[simp] theorem State.raise_mem_trk (n : Nat) : (s.raise n).mem.trk = s.mem.trk := (quiet_raise s n).mem_trk
@[simp] theorem State.raise_mem_merge (n : Nat) : (s.raise n).mem.merge = s.mem.merge := (quiet_raise s n).mem_merge
@[simp] theorem State.raise_mem_words (n : Nat) : (s.raise n).mem.words = s.mem.words := (quiet_raise s n).mem_words
@[simp] theorem State.raise_mem_passAt (n : Nat) : (s.raise n).mem.passAt = s.mem.passAt := (quiet_raise s n).mem_passAt
@[simp] theorem State.raise_mem_pendingRows (n : Nat) : (s.raise n).mem.pendingRows = s.mem.pendingRows := (quiet_raise s n).mem_pendingRows
@[simp] theorem State.raise_mem_rowAt (n : Nat) : (s.raise n).mem.rowAt = s.mem.rowAt := (quiet_raise s n).mem_rowAt
theorem State.rd_raise (n : Nat) (r : Reg) (i : Nat) (h : r ∉ eventRegs) : (s.raise n).rd r i = s.rd r i := (quiet_raise s n).rd r i h
theorem State.ctr_raise (n : Nat) (c : Ctr) (i : Nat) (h : c ∉ eventCtrs) : (s.raise n).ctr c i = s.ctr c i := (quiet_raise s n).ctr c i h

@[simp] theorem State.raiseIf_pending (b : Bool) (n : Nat) : (s.raiseIf b n).pending = s.pending := (quiet_raiseIf s b n).pending
@[simp] theorem State.raiseIf_now (b : Bool) (n : Nat) : (s.raiseIf b n).now = s.now := (quiet_raiseIf s b n).now
@[simp] theorem State.raiseIf_free (b : Bool) (n : Nat) : (s.raiseIf b n).free = s.free := (quiet_raiseIf s b n).free
@[simp] theorem State.raiseIf_phys (b : Bool) (n : Nat) : (s.raiseIf b n).phys = s.phys := (quiet_raiseIf s b n).phys
@[simp] theorem State.raiseIf_op (b : Bool) (n : Nat) : (s.raiseIf b n).op = s.op := (quiet_raiseIf s b n).op
@[simp] theorem State.raiseIf_prevOp (b : Bool) (n : Nat) : (s.raiseIf b n).prevOp = s.prevOp := (quiet_raiseIf s b n).prevOp
@[simp] theorem State.raiseIf_cause (b : Bool) (n : Nat) : (s.raiseIf b n).cause = s.cause := (quiet_raiseIf s b n).cause
@[simp] theorem State.raiseIf_leftOp (b : Bool) (n : Nat) : (s.raiseIf b n).leftOp = s.leftOp := (quiet_raiseIf s b n).leftOp
@[simp] theorem State.raiseIf_hold (b : Bool) (n : Nat) : (s.raiseIf b n).hold = s.hold := (quiet_raiseIf s b n).hold
@[simp] theorem State.raiseIf_stage (b : Bool) (n : Nat) : (s.raiseIf b n).stage = s.stage := (quiet_raiseIf s b n).stage
@[simp] theorem State.raiseIf_tim (b : Bool) (n : Nat) : (s.raiseIf b n).tim = s.tim := (quiet_raiseIf s b n).tim
@[simp] theorem State.raiseIf_boot (b : Bool) (n : Nat) : (s.raiseIf b n).boot = s.boot := (quiet_raiseIf s b n).boot
@[simp] theorem State.raiseIf_mram (b : Bool) (n : Nat) : (s.raiseIf b n).mram = s.mram := (quiet_raiseIf s b n).mram
@[simp] theorem State.raiseIf_flash (b : Bool) (n : Nat) : (s.raiseIf b n).flash = s.flash := (quiet_raiseIf s b n).flash
@[simp] theorem State.raiseIf_win (b : Bool) (n : Nat) : (s.raiseIf b n).win = s.win := (quiet_raiseIf s b n).win
@[simp] theorem State.raiseIf_net (b : Bool) (n : Nat) : (s.raiseIf b n).net = s.net := (quiet_raiseIf s b n).net
@[simp] theorem State.raiseIf_keys (b : Bool) (n : Nat) : (s.raiseIf b n).keys = s.keys := (quiet_raiseIf s b n).keys
@[simp] theorem State.raiseIf_hbr_paths (b : Bool) (n : Nat) : (s.raiseIf b n).hbr.paths = s.hbr.paths := (quiet_raiseIf s b n).hbr_paths
@[simp] theorem State.raiseIf_hbr_perstLow (b : Bool) (n : Nat) : (s.raiseIf b n).hbr.perstLow = s.hbr.perstLow := (quiet_raiseIf s b n).hbr_perstLow
@[simp] theorem State.raiseIf_hbr_spiCrcErr (b : Bool) (n : Nat) : (s.raiseIf b n).hbr.spiCrcErr = s.hbr.spiCrcErr := (quiet_raiseIf s b n).hbr_spiCrcErr
@[simp] theorem State.raiseIf_hbr_spiQ (b : Bool) (n : Nat) : (s.raiseIf b n).hbr.spiQ = s.hbr.spiQ := (quiet_raiseIf s b n).hbr_spiQ
@[simp] theorem State.raiseIf_hbr_pcieQ (b : Bool) (n : Nat) : (s.raiseIf b n).hbr.pcieQ = s.hbr.pcieQ := (quiet_raiseIf s b n).hbr_pcieQ
@[simp] theorem State.raiseIf_hbr_reading (b : Bool) (n : Nat) : (s.raiseIf b n).hbr.reading = s.hbr.reading := (quiet_raiseIf s b n).hbr_reading
@[simp] theorem State.raiseIf_hbr_l2 (b : Bool) (n : Nat) : (s.raiseIf b n).hbr.l2 = s.hbr.l2 := (quiet_raiseIf s b n).hbr_l2
@[simp] theorem State.raiseIf_pair_mode (b : Bool) (n : Nat) : (s.raiseIf b n).pair.mode = s.pair.mode := (quiet_raiseIf s b n).pair_mode
@[simp] theorem State.raiseIf_pair_splitAt (b : Bool) (n : Nat) : (s.raiseIf b n).pair.splitAt = s.pair.splitAt := (quiet_raiseIf s b n).pair_splitAt
@[simp] theorem State.raiseIf_pwr_coef (b : Bool) (n : Nat) : (s.raiseIf b n).pwr.coef = s.pwr.coef := (quiet_raiseIf s b n).pwr_coef
@[simp] theorem State.raiseIf_pwr_winLevel (b : Bool) (n : Nat) : (s.raiseIf b n).pwr.winLevel = s.pwr.winLevel := (quiet_raiseIf s b n).pwr_winLevel
@[simp] theorem State.raiseIf_pwr_wakeOut (b : Bool) (n : Nat) : (s.raiseIf b n).pwr.wakeOut = s.pwr.wakeOut := (quiet_raiseIf s b n).pwr_wakeOut
@[simp] theorem State.raiseIf_pwr_enteredAt (b : Bool) (n : Nat) : (s.raiseIf b n).pwr.enteredAt = s.pwr.enteredAt := (quiet_raiseIf s b n).pwr_enteredAt
@[simp] theorem State.raiseIf_pwr_retLost (b : Bool) (n : Nat) : (s.raiseIf b n).pwr.retLost = s.pwr.retLost := (quiet_raiseIf s b n).pwr_retLost
@[simp] theorem State.raiseIf_pwr_fastOk (b : Bool) (n : Nat) : (s.raiseIf b n).pwr.fastOk = s.pwr.fastOk := (quiet_raiseIf s b n).pwr_fastOk
@[simp] theorem State.raiseIf_pwr_stuckSeen (b : Bool) (n : Nat) : (s.raiseIf b n).pwr.stuckSeen = s.pwr.stuckSeen := (quiet_raiseIf s b n).pwr_stuckSeen
@[simp] theorem State.raiseIf_pwr_inh (b : Bool) (n : Nat) : (s.raiseIf b n).pwr.inh = s.pwr.inh := (quiet_raiseIf s b n).pwr_inh
@[simp] theorem State.raiseIf_pwr_waking (b : Bool) (n : Nat) : (s.raiseIf b n).pwr.waking = s.pwr.waking := (quiet_raiseIf s b n).pwr_waking
@[simp] theorem State.raiseIf_pwr_retrain (b : Bool) (n : Nat) : (s.raiseIf b n).pwr.retrain = s.pwr.retrain := (quiet_raiseIf s b n).pwr_retrain
@[simp] theorem State.raiseIf_red_kickAt (b : Bool) (n : Nat) : (s.raiseIf b n).red.kickAt = s.red.kickAt := (quiet_raiseIf s b n).red_kickAt
@[simp] theorem State.raiseIf_red_edgeAt (b : Bool) (n : Nat) : (s.raiseIf b n).red.edgeAt = s.red.edgeAt := (quiet_raiseIf s b n).red_edgeAt
@[simp] theorem State.raiseIf_red_hbLost (b : Bool) (n : Nat) : (s.raiseIf b n).red.hbLost = s.red.hbLost := (quiet_raiseIf s b n).red_hbLost
@[simp] theorem State.raiseIf_red_statusAt (b : Bool) (n : Nat) : (s.raiseIf b n).red.statusAt = s.red.statusAt := (quiet_raiseIf s b n).red_statusAt
@[simp] theorem State.raiseIf_red_partner (b : Bool) (n : Nat) : (s.raiseIf b n).red.partner = s.red.partner := (quiet_raiseIf s b n).red_partner
@[simp] theorem State.raiseIf_red_digestEq (b : Bool) (n : Nat) : (s.raiseIf b n).red.digestEq = s.red.digestEq := (quiet_raiseIf s b n).red_digestEq
@[simp] theorem State.raiseIf_red_healthyAt (b : Bool) (n : Nat) : (s.raiseIf b n).red.healthyAt = s.red.healthyAt := (quiet_raiseIf s b n).red_healthyAt
@[simp] theorem State.raiseIf_red_takeovers (b : Bool) (n : Nat) : (s.raiseIf b n).red.takeovers = s.red.takeovers := (quiet_raiseIf s b n).red_takeovers
@[simp] theorem State.raiseIf_red_discoverAt (b : Bool) (n : Nat) : (s.raiseIf b n).red.discoverAt = s.red.discoverAt := (quiet_raiseIf s b n).red_discoverAt
@[simp] theorem State.raiseIf_red_echoSeq (b : Bool) (n : Nat) : (s.raiseIf b n).red.echoSeq = s.red.echoSeq := (quiet_raiseIf s b n).red_echoSeq
@[simp] theorem State.raiseIf_red_stopped (b : Bool) (n : Nat) : (s.raiseIf b n).red.stopped = s.red.stopped := (quiet_raiseIf s b n).red_stopped
@[simp] theorem State.raiseIf_mem_trk (b : Bool) (n : Nat) : (s.raiseIf b n).mem.trk = s.mem.trk := (quiet_raiseIf s b n).mem_trk
@[simp] theorem State.raiseIf_mem_merge (b : Bool) (n : Nat) : (s.raiseIf b n).mem.merge = s.mem.merge := (quiet_raiseIf s b n).mem_merge
@[simp] theorem State.raiseIf_mem_words (b : Bool) (n : Nat) : (s.raiseIf b n).mem.words = s.mem.words := (quiet_raiseIf s b n).mem_words
@[simp] theorem State.raiseIf_mem_passAt (b : Bool) (n : Nat) : (s.raiseIf b n).mem.passAt = s.mem.passAt := (quiet_raiseIf s b n).mem_passAt
@[simp] theorem State.raiseIf_mem_pendingRows (b : Bool) (n : Nat) : (s.raiseIf b n).mem.pendingRows = s.mem.pendingRows := (quiet_raiseIf s b n).mem_pendingRows
@[simp] theorem State.raiseIf_mem_rowAt (b : Bool) (n : Nat) : (s.raiseIf b n).mem.rowAt = s.mem.rowAt := (quiet_raiseIf s b n).mem_rowAt
theorem State.rd_raiseIf (b : Bool) (n : Nat) (r : Reg) (i : Nat) (h : r ∉ eventRegs) : (s.raiseIf b n).rd r i = s.rd r i := (quiet_raiseIf s b n).rd r i h
theorem State.ctr_raiseIf (b : Bool) (n : Nat) (c : Ctr) (i : Nat) (h : c ∉ eventCtrs) : (s.raiseIf b n).ctr c i = s.ctr c i := (quiet_raiseIf s b n).ctr c i h

@[simp] theorem State.accessErr_pending (b : Blk) : (s.accessErr b).pending = s.pending := (quiet_accessErr s b).pending
@[simp] theorem State.accessErr_now (b : Blk) : (s.accessErr b).now = s.now := (quiet_accessErr s b).now
@[simp] theorem State.accessErr_free (b : Blk) : (s.accessErr b).free = s.free := (quiet_accessErr s b).free
@[simp] theorem State.accessErr_phys (b : Blk) : (s.accessErr b).phys = s.phys := (quiet_accessErr s b).phys
@[simp] theorem State.accessErr_op (b : Blk) : (s.accessErr b).op = s.op := (quiet_accessErr s b).op
@[simp] theorem State.accessErr_prevOp (b : Blk) : (s.accessErr b).prevOp = s.prevOp := (quiet_accessErr s b).prevOp
@[simp] theorem State.accessErr_cause (b : Blk) : (s.accessErr b).cause = s.cause := (quiet_accessErr s b).cause
@[simp] theorem State.accessErr_leftOp (b : Blk) : (s.accessErr b).leftOp = s.leftOp := (quiet_accessErr s b).leftOp
@[simp] theorem State.accessErr_hold (b : Blk) : (s.accessErr b).hold = s.hold := (quiet_accessErr s b).hold
@[simp] theorem State.accessErr_stage (b : Blk) : (s.accessErr b).stage = s.stage := (quiet_accessErr s b).stage
@[simp] theorem State.accessErr_tim (b : Blk) : (s.accessErr b).tim = s.tim := (quiet_accessErr s b).tim
@[simp] theorem State.accessErr_boot (b : Blk) : (s.accessErr b).boot = s.boot := (quiet_accessErr s b).boot
@[simp] theorem State.accessErr_mram (b : Blk) : (s.accessErr b).mram = s.mram := (quiet_accessErr s b).mram
@[simp] theorem State.accessErr_flash (b : Blk) : (s.accessErr b).flash = s.flash := (quiet_accessErr s b).flash
@[simp] theorem State.accessErr_win (b : Blk) : (s.accessErr b).win = s.win := (quiet_accessErr s b).win
@[simp] theorem State.accessErr_net (b : Blk) : (s.accessErr b).net = s.net := (quiet_accessErr s b).net
@[simp] theorem State.accessErr_keys (b : Blk) : (s.accessErr b).keys = s.keys := (quiet_accessErr s b).keys
@[simp] theorem State.accessErr_hbr_paths (b : Blk) : (s.accessErr b).hbr.paths = s.hbr.paths := (quiet_accessErr s b).hbr_paths
@[simp] theorem State.accessErr_hbr_perstLow (b : Blk) : (s.accessErr b).hbr.perstLow = s.hbr.perstLow := (quiet_accessErr s b).hbr_perstLow
@[simp] theorem State.accessErr_hbr_spiCrcErr (b : Blk) : (s.accessErr b).hbr.spiCrcErr = s.hbr.spiCrcErr := (quiet_accessErr s b).hbr_spiCrcErr
@[simp] theorem State.accessErr_hbr_spiQ (b : Blk) : (s.accessErr b).hbr.spiQ = s.hbr.spiQ := (quiet_accessErr s b).hbr_spiQ
@[simp] theorem State.accessErr_hbr_pcieQ (b : Blk) : (s.accessErr b).hbr.pcieQ = s.hbr.pcieQ := (quiet_accessErr s b).hbr_pcieQ
@[simp] theorem State.accessErr_hbr_reading (b : Blk) : (s.accessErr b).hbr.reading = s.hbr.reading := (quiet_accessErr s b).hbr_reading
@[simp] theorem State.accessErr_hbr_l2 (b : Blk) : (s.accessErr b).hbr.l2 = s.hbr.l2 := (quiet_accessErr s b).hbr_l2
@[simp] theorem State.accessErr_pair_mode (b : Blk) : (s.accessErr b).pair.mode = s.pair.mode := (quiet_accessErr s b).pair_mode
@[simp] theorem State.accessErr_pair_splitAt (b : Blk) : (s.accessErr b).pair.splitAt = s.pair.splitAt := (quiet_accessErr s b).pair_splitAt
@[simp] theorem State.accessErr_pwr_coef (b : Blk) : (s.accessErr b).pwr.coef = s.pwr.coef := (quiet_accessErr s b).pwr_coef
@[simp] theorem State.accessErr_pwr_winLevel (b : Blk) : (s.accessErr b).pwr.winLevel = s.pwr.winLevel := (quiet_accessErr s b).pwr_winLevel
@[simp] theorem State.accessErr_pwr_wakeOut (b : Blk) : (s.accessErr b).pwr.wakeOut = s.pwr.wakeOut := (quiet_accessErr s b).pwr_wakeOut
@[simp] theorem State.accessErr_pwr_enteredAt (b : Blk) : (s.accessErr b).pwr.enteredAt = s.pwr.enteredAt := (quiet_accessErr s b).pwr_enteredAt
@[simp] theorem State.accessErr_pwr_retLost (b : Blk) : (s.accessErr b).pwr.retLost = s.pwr.retLost := (quiet_accessErr s b).pwr_retLost
@[simp] theorem State.accessErr_pwr_fastOk (b : Blk) : (s.accessErr b).pwr.fastOk = s.pwr.fastOk := (quiet_accessErr s b).pwr_fastOk
@[simp] theorem State.accessErr_pwr_stuckSeen (b : Blk) : (s.accessErr b).pwr.stuckSeen = s.pwr.stuckSeen := (quiet_accessErr s b).pwr_stuckSeen
@[simp] theorem State.accessErr_pwr_inh (b : Blk) : (s.accessErr b).pwr.inh = s.pwr.inh := (quiet_accessErr s b).pwr_inh
@[simp] theorem State.accessErr_pwr_waking (b : Blk) : (s.accessErr b).pwr.waking = s.pwr.waking := (quiet_accessErr s b).pwr_waking
@[simp] theorem State.accessErr_pwr_retrain (b : Blk) : (s.accessErr b).pwr.retrain = s.pwr.retrain := (quiet_accessErr s b).pwr_retrain
@[simp] theorem State.accessErr_red_kickAt (b : Blk) : (s.accessErr b).red.kickAt = s.red.kickAt := (quiet_accessErr s b).red_kickAt
@[simp] theorem State.accessErr_red_edgeAt (b : Blk) : (s.accessErr b).red.edgeAt = s.red.edgeAt := (quiet_accessErr s b).red_edgeAt
@[simp] theorem State.accessErr_red_hbLost (b : Blk) : (s.accessErr b).red.hbLost = s.red.hbLost := (quiet_accessErr s b).red_hbLost
@[simp] theorem State.accessErr_red_statusAt (b : Blk) : (s.accessErr b).red.statusAt = s.red.statusAt := (quiet_accessErr s b).red_statusAt
@[simp] theorem State.accessErr_red_partner (b : Blk) : (s.accessErr b).red.partner = s.red.partner := (quiet_accessErr s b).red_partner
@[simp] theorem State.accessErr_red_digestEq (b : Blk) : (s.accessErr b).red.digestEq = s.red.digestEq := (quiet_accessErr s b).red_digestEq
@[simp] theorem State.accessErr_red_healthyAt (b : Blk) : (s.accessErr b).red.healthyAt = s.red.healthyAt := (quiet_accessErr s b).red_healthyAt
@[simp] theorem State.accessErr_red_takeovers (b : Blk) : (s.accessErr b).red.takeovers = s.red.takeovers := (quiet_accessErr s b).red_takeovers
@[simp] theorem State.accessErr_red_discoverAt (b : Blk) : (s.accessErr b).red.discoverAt = s.red.discoverAt := (quiet_accessErr s b).red_discoverAt
@[simp] theorem State.accessErr_red_echoSeq (b : Blk) : (s.accessErr b).red.echoSeq = s.red.echoSeq := (quiet_accessErr s b).red_echoSeq
@[simp] theorem State.accessErr_red_stopped (b : Blk) : (s.accessErr b).red.stopped = s.red.stopped := (quiet_accessErr s b).red_stopped
@[simp] theorem State.accessErr_mem_trk (b : Blk) : (s.accessErr b).mem.trk = s.mem.trk := (quiet_accessErr s b).mem_trk
@[simp] theorem State.accessErr_mem_merge (b : Blk) : (s.accessErr b).mem.merge = s.mem.merge := (quiet_accessErr s b).mem_merge
@[simp] theorem State.accessErr_mem_words (b : Blk) : (s.accessErr b).mem.words = s.mem.words := (quiet_accessErr s b).mem_words
@[simp] theorem State.accessErr_mem_passAt (b : Blk) : (s.accessErr b).mem.passAt = s.mem.passAt := (quiet_accessErr s b).mem_passAt
@[simp] theorem State.accessErr_mem_pendingRows (b : Blk) : (s.accessErr b).mem.pendingRows = s.mem.pendingRows := (quiet_accessErr s b).mem_pendingRows
@[simp] theorem State.accessErr_mem_rowAt (b : Blk) : (s.accessErr b).mem.rowAt = s.mem.rowAt := (quiet_accessErr s b).mem_rowAt
theorem State.rd_accessErr (b : Blk) (r : Reg) (i : Nat) (h : r ∉ eventRegs) : (s.accessErr b).rd r i = s.rd r i := (quiet_accessErr s b).rd r i h
theorem State.ctr_accessErr (b : Blk) (c : Ctr) (i : Nat) (h : c ∉ eventCtrs) : (s.accessErr b).ctr c i = s.ctr c i := (quiet_accessErr s b).ctr c i h

@[simp] theorem State.fault_pending (code sub : Nat) : (s.fault code sub).pending = s.pending := (quiet_fault s code sub).pending
@[simp] theorem State.fault_now (code sub : Nat) : (s.fault code sub).now = s.now := (quiet_fault s code sub).now
@[simp] theorem State.fault_free (code sub : Nat) : (s.fault code sub).free = s.free := (quiet_fault s code sub).free
@[simp] theorem State.fault_phys (code sub : Nat) : (s.fault code sub).phys = s.phys := (quiet_fault s code sub).phys
@[simp] theorem State.fault_op (code sub : Nat) : (s.fault code sub).op = s.op := (quiet_fault s code sub).op
@[simp] theorem State.fault_prevOp (code sub : Nat) : (s.fault code sub).prevOp = s.prevOp := (quiet_fault s code sub).prevOp
@[simp] theorem State.fault_cause (code sub : Nat) : (s.fault code sub).cause = s.cause := (quiet_fault s code sub).cause
@[simp] theorem State.fault_leftOp (code sub : Nat) : (s.fault code sub).leftOp = s.leftOp := (quiet_fault s code sub).leftOp
@[simp] theorem State.fault_hold (code sub : Nat) : (s.fault code sub).hold = s.hold := (quiet_fault s code sub).hold
@[simp] theorem State.fault_stage (code sub : Nat) : (s.fault code sub).stage = s.stage := (quiet_fault s code sub).stage
@[simp] theorem State.fault_tim (code sub : Nat) : (s.fault code sub).tim = s.tim := (quiet_fault s code sub).tim
@[simp] theorem State.fault_boot (code sub : Nat) : (s.fault code sub).boot = s.boot := (quiet_fault s code sub).boot
@[simp] theorem State.fault_mram (code sub : Nat) : (s.fault code sub).mram = s.mram := (quiet_fault s code sub).mram
@[simp] theorem State.fault_flash (code sub : Nat) : (s.fault code sub).flash = s.flash := (quiet_fault s code sub).flash
@[simp] theorem State.fault_win (code sub : Nat) : (s.fault code sub).win = s.win := (quiet_fault s code sub).win
@[simp] theorem State.fault_net (code sub : Nat) : (s.fault code sub).net = s.net := (quiet_fault s code sub).net
@[simp] theorem State.fault_keys (code sub : Nat) : (s.fault code sub).keys = s.keys := (quiet_fault s code sub).keys
@[simp] theorem State.fault_hbr_paths (code sub : Nat) : (s.fault code sub).hbr.paths = s.hbr.paths := (quiet_fault s code sub).hbr_paths
@[simp] theorem State.fault_hbr_perstLow (code sub : Nat) : (s.fault code sub).hbr.perstLow = s.hbr.perstLow := (quiet_fault s code sub).hbr_perstLow
@[simp] theorem State.fault_hbr_spiCrcErr (code sub : Nat) : (s.fault code sub).hbr.spiCrcErr = s.hbr.spiCrcErr := (quiet_fault s code sub).hbr_spiCrcErr
@[simp] theorem State.fault_hbr_spiQ (code sub : Nat) : (s.fault code sub).hbr.spiQ = s.hbr.spiQ := (quiet_fault s code sub).hbr_spiQ
@[simp] theorem State.fault_hbr_pcieQ (code sub : Nat) : (s.fault code sub).hbr.pcieQ = s.hbr.pcieQ := (quiet_fault s code sub).hbr_pcieQ
@[simp] theorem State.fault_hbr_reading (code sub : Nat) : (s.fault code sub).hbr.reading = s.hbr.reading := (quiet_fault s code sub).hbr_reading
@[simp] theorem State.fault_hbr_l2 (code sub : Nat) : (s.fault code sub).hbr.l2 = s.hbr.l2 := (quiet_fault s code sub).hbr_l2
@[simp] theorem State.fault_pair_mode (code sub : Nat) : (s.fault code sub).pair.mode = s.pair.mode := (quiet_fault s code sub).pair_mode
@[simp] theorem State.fault_pair_splitAt (code sub : Nat) : (s.fault code sub).pair.splitAt = s.pair.splitAt := (quiet_fault s code sub).pair_splitAt
@[simp] theorem State.fault_pwr_coef (code sub : Nat) : (s.fault code sub).pwr.coef = s.pwr.coef := (quiet_fault s code sub).pwr_coef
@[simp] theorem State.fault_pwr_winLevel (code sub : Nat) : (s.fault code sub).pwr.winLevel = s.pwr.winLevel := (quiet_fault s code sub).pwr_winLevel
@[simp] theorem State.fault_pwr_wakeOut (code sub : Nat) : (s.fault code sub).pwr.wakeOut = s.pwr.wakeOut := (quiet_fault s code sub).pwr_wakeOut
@[simp] theorem State.fault_pwr_enteredAt (code sub : Nat) : (s.fault code sub).pwr.enteredAt = s.pwr.enteredAt := (quiet_fault s code sub).pwr_enteredAt
@[simp] theorem State.fault_pwr_retLost (code sub : Nat) : (s.fault code sub).pwr.retLost = s.pwr.retLost := (quiet_fault s code sub).pwr_retLost
@[simp] theorem State.fault_pwr_fastOk (code sub : Nat) : (s.fault code sub).pwr.fastOk = s.pwr.fastOk := (quiet_fault s code sub).pwr_fastOk
@[simp] theorem State.fault_pwr_stuckSeen (code sub : Nat) : (s.fault code sub).pwr.stuckSeen = s.pwr.stuckSeen := (quiet_fault s code sub).pwr_stuckSeen
@[simp] theorem State.fault_pwr_inh (code sub : Nat) : (s.fault code sub).pwr.inh = s.pwr.inh := (quiet_fault s code sub).pwr_inh
@[simp] theorem State.fault_pwr_waking (code sub : Nat) : (s.fault code sub).pwr.waking = s.pwr.waking := (quiet_fault s code sub).pwr_waking
@[simp] theorem State.fault_pwr_retrain (code sub : Nat) : (s.fault code sub).pwr.retrain = s.pwr.retrain := (quiet_fault s code sub).pwr_retrain
@[simp] theorem State.fault_red_kickAt (code sub : Nat) : (s.fault code sub).red.kickAt = s.red.kickAt := (quiet_fault s code sub).red_kickAt
@[simp] theorem State.fault_red_edgeAt (code sub : Nat) : (s.fault code sub).red.edgeAt = s.red.edgeAt := (quiet_fault s code sub).red_edgeAt
@[simp] theorem State.fault_red_hbLost (code sub : Nat) : (s.fault code sub).red.hbLost = s.red.hbLost := (quiet_fault s code sub).red_hbLost
@[simp] theorem State.fault_red_statusAt (code sub : Nat) : (s.fault code sub).red.statusAt = s.red.statusAt := (quiet_fault s code sub).red_statusAt
@[simp] theorem State.fault_red_partner (code sub : Nat) : (s.fault code sub).red.partner = s.red.partner := (quiet_fault s code sub).red_partner
@[simp] theorem State.fault_red_digestEq (code sub : Nat) : (s.fault code sub).red.digestEq = s.red.digestEq := (quiet_fault s code sub).red_digestEq
@[simp] theorem State.fault_red_healthyAt (code sub : Nat) : (s.fault code sub).red.healthyAt = s.red.healthyAt := (quiet_fault s code sub).red_healthyAt
@[simp] theorem State.fault_red_takeovers (code sub : Nat) : (s.fault code sub).red.takeovers = s.red.takeovers := (quiet_fault s code sub).red_takeovers
@[simp] theorem State.fault_red_discoverAt (code sub : Nat) : (s.fault code sub).red.discoverAt = s.red.discoverAt := (quiet_fault s code sub).red_discoverAt
@[simp] theorem State.fault_red_echoSeq (code sub : Nat) : (s.fault code sub).red.echoSeq = s.red.echoSeq := (quiet_fault s code sub).red_echoSeq
@[simp] theorem State.fault_red_stopped (code sub : Nat) : (s.fault code sub).red.stopped = s.red.stopped := (quiet_fault s code sub).red_stopped
@[simp] theorem State.fault_mem_trk (code sub : Nat) : (s.fault code sub).mem.trk = s.mem.trk := (quiet_fault s code sub).mem_trk
@[simp] theorem State.fault_mem_merge (code sub : Nat) : (s.fault code sub).mem.merge = s.mem.merge := (quiet_fault s code sub).mem_merge
@[simp] theorem State.fault_mem_words (code sub : Nat) : (s.fault code sub).mem.words = s.mem.words := (quiet_fault s code sub).mem_words
@[simp] theorem State.fault_mem_passAt (code sub : Nat) : (s.fault code sub).mem.passAt = s.mem.passAt := (quiet_fault s code sub).mem_passAt
@[simp] theorem State.fault_mem_pendingRows (code sub : Nat) : (s.fault code sub).mem.pendingRows = s.mem.pendingRows := (quiet_fault s code sub).mem_pendingRows
@[simp] theorem State.fault_mem_rowAt (code sub : Nat) : (s.fault code sub).mem.rowAt = s.mem.rowAt := (quiet_fault s code sub).mem_rowAt
theorem State.rd_fault (code sub : Nat) (r : Reg) (i : Nat) (h : r ∉ eventRegs) : (s.fault code sub).rd r i = s.rd r i := (quiet_fault s code sub).rd r i h
theorem State.ctr_fault (code sub : Nat) (c : Ctr) (i : Nat) (h : c ∉ eventCtrs) : (s.fault code sub).ctr c i = s.ctr c i := (quiet_fault s code sub).ctr c i h

@[simp] theorem State.memWrite_pending (m a b : Nat) : (s.memWrite m a b).pending = s.pending := (quiet_memWrite s m a b).pending
@[simp] theorem State.memWrite_now (m a b : Nat) : (s.memWrite m a b).now = s.now := (quiet_memWrite s m a b).now
@[simp] theorem State.memWrite_free (m a b : Nat) : (s.memWrite m a b).free = s.free := (quiet_memWrite s m a b).free
@[simp] theorem State.memWrite_phys (m a b : Nat) : (s.memWrite m a b).phys = s.phys := (quiet_memWrite s m a b).phys
@[simp] theorem State.memWrite_op (m a b : Nat) : (s.memWrite m a b).op = s.op := (quiet_memWrite s m a b).op
@[simp] theorem State.memWrite_prevOp (m a b : Nat) : (s.memWrite m a b).prevOp = s.prevOp := (quiet_memWrite s m a b).prevOp
@[simp] theorem State.memWrite_cause (m a b : Nat) : (s.memWrite m a b).cause = s.cause := (quiet_memWrite s m a b).cause
@[simp] theorem State.memWrite_leftOp (m a b : Nat) : (s.memWrite m a b).leftOp = s.leftOp := (quiet_memWrite s m a b).leftOp
@[simp] theorem State.memWrite_hold (m a b : Nat) : (s.memWrite m a b).hold = s.hold := (quiet_memWrite s m a b).hold
@[simp] theorem State.memWrite_stage (m a b : Nat) : (s.memWrite m a b).stage = s.stage := (quiet_memWrite s m a b).stage
@[simp] theorem State.memWrite_tim (m a b : Nat) : (s.memWrite m a b).tim = s.tim := (quiet_memWrite s m a b).tim
@[simp] theorem State.memWrite_boot (m a b : Nat) : (s.memWrite m a b).boot = s.boot := (quiet_memWrite s m a b).boot
@[simp] theorem State.memWrite_mram (m a b : Nat) : (s.memWrite m a b).mram = s.mram := (quiet_memWrite s m a b).mram
@[simp] theorem State.memWrite_flash (m a b : Nat) : (s.memWrite m a b).flash = s.flash := (quiet_memWrite s m a b).flash
@[simp] theorem State.memWrite_win (m a b : Nat) : (s.memWrite m a b).win = s.win := (quiet_memWrite s m a b).win
@[simp] theorem State.memWrite_net (m a b : Nat) : (s.memWrite m a b).net = s.net := (quiet_memWrite s m a b).net
@[simp] theorem State.memWrite_keys (m a b : Nat) : (s.memWrite m a b).keys = s.keys := (quiet_memWrite s m a b).keys
@[simp] theorem State.memWrite_hbr_paths (m a b : Nat) : (s.memWrite m a b).hbr.paths = s.hbr.paths := (quiet_memWrite s m a b).hbr_paths
@[simp] theorem State.memWrite_hbr_perstLow (m a b : Nat) : (s.memWrite m a b).hbr.perstLow = s.hbr.perstLow := (quiet_memWrite s m a b).hbr_perstLow
@[simp] theorem State.memWrite_hbr_spiCrcErr (m a b : Nat) : (s.memWrite m a b).hbr.spiCrcErr = s.hbr.spiCrcErr := (quiet_memWrite s m a b).hbr_spiCrcErr
@[simp] theorem State.memWrite_hbr_spiQ (m a b : Nat) : (s.memWrite m a b).hbr.spiQ = s.hbr.spiQ := (quiet_memWrite s m a b).hbr_spiQ
@[simp] theorem State.memWrite_hbr_pcieQ (m a b : Nat) : (s.memWrite m a b).hbr.pcieQ = s.hbr.pcieQ := (quiet_memWrite s m a b).hbr_pcieQ
@[simp] theorem State.memWrite_hbr_reading (m a b : Nat) : (s.memWrite m a b).hbr.reading = s.hbr.reading := (quiet_memWrite s m a b).hbr_reading
@[simp] theorem State.memWrite_hbr_l2 (m a b : Nat) : (s.memWrite m a b).hbr.l2 = s.hbr.l2 := (quiet_memWrite s m a b).hbr_l2
@[simp] theorem State.memWrite_pair_mode (m a b : Nat) : (s.memWrite m a b).pair.mode = s.pair.mode := (quiet_memWrite s m a b).pair_mode
@[simp] theorem State.memWrite_pair_splitAt (m a b : Nat) : (s.memWrite m a b).pair.splitAt = s.pair.splitAt := (quiet_memWrite s m a b).pair_splitAt
@[simp] theorem State.memWrite_pwr_coef (m a b : Nat) : (s.memWrite m a b).pwr.coef = s.pwr.coef := (quiet_memWrite s m a b).pwr_coef
@[simp] theorem State.memWrite_pwr_winLevel (m a b : Nat) : (s.memWrite m a b).pwr.winLevel = s.pwr.winLevel := (quiet_memWrite s m a b).pwr_winLevel
@[simp] theorem State.memWrite_pwr_wakeOut (m a b : Nat) : (s.memWrite m a b).pwr.wakeOut = s.pwr.wakeOut := (quiet_memWrite s m a b).pwr_wakeOut
@[simp] theorem State.memWrite_pwr_enteredAt (m a b : Nat) : (s.memWrite m a b).pwr.enteredAt = s.pwr.enteredAt := (quiet_memWrite s m a b).pwr_enteredAt
@[simp] theorem State.memWrite_pwr_retLost (m a b : Nat) : (s.memWrite m a b).pwr.retLost = s.pwr.retLost := (quiet_memWrite s m a b).pwr_retLost
@[simp] theorem State.memWrite_pwr_fastOk (m a b : Nat) : (s.memWrite m a b).pwr.fastOk = s.pwr.fastOk := (quiet_memWrite s m a b).pwr_fastOk
@[simp] theorem State.memWrite_pwr_stuckSeen (m a b : Nat) : (s.memWrite m a b).pwr.stuckSeen = s.pwr.stuckSeen := (quiet_memWrite s m a b).pwr_stuckSeen
@[simp] theorem State.memWrite_pwr_inh (m a b : Nat) : (s.memWrite m a b).pwr.inh = s.pwr.inh := (quiet_memWrite s m a b).pwr_inh
@[simp] theorem State.memWrite_pwr_waking (m a b : Nat) : (s.memWrite m a b).pwr.waking = s.pwr.waking := (quiet_memWrite s m a b).pwr_waking
@[simp] theorem State.memWrite_pwr_retrain (m a b : Nat) : (s.memWrite m a b).pwr.retrain = s.pwr.retrain := (quiet_memWrite s m a b).pwr_retrain
@[simp] theorem State.memWrite_red_kickAt (m a b : Nat) : (s.memWrite m a b).red.kickAt = s.red.kickAt := (quiet_memWrite s m a b).red_kickAt
@[simp] theorem State.memWrite_red_edgeAt (m a b : Nat) : (s.memWrite m a b).red.edgeAt = s.red.edgeAt := (quiet_memWrite s m a b).red_edgeAt
@[simp] theorem State.memWrite_red_hbLost (m a b : Nat) : (s.memWrite m a b).red.hbLost = s.red.hbLost := (quiet_memWrite s m a b).red_hbLost
@[simp] theorem State.memWrite_red_statusAt (m a b : Nat) : (s.memWrite m a b).red.statusAt = s.red.statusAt := (quiet_memWrite s m a b).red_statusAt
@[simp] theorem State.memWrite_red_partner (m a b : Nat) : (s.memWrite m a b).red.partner = s.red.partner := (quiet_memWrite s m a b).red_partner
@[simp] theorem State.memWrite_red_digestEq (m a b : Nat) : (s.memWrite m a b).red.digestEq = s.red.digestEq := (quiet_memWrite s m a b).red_digestEq
@[simp] theorem State.memWrite_red_healthyAt (m a b : Nat) : (s.memWrite m a b).red.healthyAt = s.red.healthyAt := (quiet_memWrite s m a b).red_healthyAt
@[simp] theorem State.memWrite_red_takeovers (m a b : Nat) : (s.memWrite m a b).red.takeovers = s.red.takeovers := (quiet_memWrite s m a b).red_takeovers
@[simp] theorem State.memWrite_red_discoverAt (m a b : Nat) : (s.memWrite m a b).red.discoverAt = s.red.discoverAt := (quiet_memWrite s m a b).red_discoverAt
@[simp] theorem State.memWrite_red_echoSeq (m a b : Nat) : (s.memWrite m a b).red.echoSeq = s.red.echoSeq := (quiet_memWrite s m a b).red_echoSeq
@[simp] theorem State.memWrite_red_stopped (m a b : Nat) : (s.memWrite m a b).red.stopped = s.red.stopped := (quiet_memWrite s m a b).red_stopped
@[simp] theorem State.memWrite_mem_trk (m a b : Nat) : (s.memWrite m a b).mem.trk = s.mem.trk := (quiet_memWrite s m a b).mem_trk
@[simp] theorem State.memWrite_mem_merge (m a b : Nat) : (s.memWrite m a b).mem.merge = s.mem.merge := (quiet_memWrite s m a b).mem_merge
@[simp] theorem State.memWrite_mem_words (m a b : Nat) : (s.memWrite m a b).mem.words = s.mem.words := (quiet_memWrite s m a b).mem_words
@[simp] theorem State.memWrite_mem_passAt (m a b : Nat) : (s.memWrite m a b).mem.passAt = s.mem.passAt := (quiet_memWrite s m a b).mem_passAt
@[simp] theorem State.memWrite_mem_pendingRows (m a b : Nat) : (s.memWrite m a b).mem.pendingRows = s.mem.pendingRows := (quiet_memWrite s m a b).mem_pendingRows
@[simp] theorem State.memWrite_mem_rowAt (m a b : Nat) : (s.memWrite m a b).mem.rowAt = s.mem.rowAt := (quiet_memWrite s m a b).mem_rowAt
theorem State.rd_memWrite (m a b : Nat) (r : Reg) (i : Nat) (h : r ∉ eventRegs) : (s.memWrite m a b).rd r i = s.rd r i := (quiet_memWrite s m a b).rd r i h
theorem State.ctr_memWrite (m a b : Nat) (c : Ctr) (i : Nat) (h : c ∉ eventCtrs) : (s.memWrite m a b).ctr c i = s.ctr c i := (quiet_memWrite s m a b).ctr c i h

@[simp] theorem State.enterSafe_pending (x : SafeSt) : (s.enterSafe x).pending = s.pending := (quiet_enterSafe s x).pending
@[simp] theorem State.enterSafe_now (x : SafeSt) : (s.enterSafe x).now = s.now := (quiet_enterSafe s x).now
@[simp] theorem State.enterSafe_free (x : SafeSt) : (s.enterSafe x).free = s.free := (quiet_enterSafe s x).free
@[simp] theorem State.enterSafe_phys (x : SafeSt) : (s.enterSafe x).phys = s.phys := (quiet_enterSafe s x).phys
@[simp] theorem State.enterSafe_op (x : SafeSt) : (s.enterSafe x).op = s.op := (quiet_enterSafe s x).op
@[simp] theorem State.enterSafe_prevOp (x : SafeSt) : (s.enterSafe x).prevOp = s.prevOp := (quiet_enterSafe s x).prevOp
@[simp] theorem State.enterSafe_cause (x : SafeSt) : (s.enterSafe x).cause = s.cause := (quiet_enterSafe s x).cause
@[simp] theorem State.enterSafe_leftOp (x : SafeSt) : (s.enterSafe x).leftOp = s.leftOp := (quiet_enterSafe s x).leftOp
@[simp] theorem State.enterSafe_hold (x : SafeSt) : (s.enterSafe x).hold = s.hold := (quiet_enterSafe s x).hold
@[simp] theorem State.enterSafe_stage (x : SafeSt) : (s.enterSafe x).stage = s.stage := (quiet_enterSafe s x).stage
@[simp] theorem State.enterSafe_tim (x : SafeSt) : (s.enterSafe x).tim = s.tim := (quiet_enterSafe s x).tim
@[simp] theorem State.enterSafe_boot (x : SafeSt) : (s.enterSafe x).boot = s.boot := (quiet_enterSafe s x).boot
@[simp] theorem State.enterSafe_mram (x : SafeSt) : (s.enterSafe x).mram = s.mram := (quiet_enterSafe s x).mram
@[simp] theorem State.enterSafe_flash (x : SafeSt) : (s.enterSafe x).flash = s.flash := (quiet_enterSafe s x).flash
@[simp] theorem State.enterSafe_win (x : SafeSt) : (s.enterSafe x).win = s.win := (quiet_enterSafe s x).win
@[simp] theorem State.enterSafe_net (x : SafeSt) : (s.enterSafe x).net = s.net := (quiet_enterSafe s x).net
@[simp] theorem State.enterSafe_keys (x : SafeSt) : (s.enterSafe x).keys = s.keys := (quiet_enterSafe s x).keys
@[simp] theorem State.enterSafe_hbr_paths (x : SafeSt) : (s.enterSafe x).hbr.paths = s.hbr.paths := (quiet_enterSafe s x).hbr_paths
@[simp] theorem State.enterSafe_hbr_perstLow (x : SafeSt) : (s.enterSafe x).hbr.perstLow = s.hbr.perstLow := (quiet_enterSafe s x).hbr_perstLow
@[simp] theorem State.enterSafe_hbr_spiCrcErr (x : SafeSt) : (s.enterSafe x).hbr.spiCrcErr = s.hbr.spiCrcErr := (quiet_enterSafe s x).hbr_spiCrcErr
@[simp] theorem State.enterSafe_hbr_spiQ (x : SafeSt) : (s.enterSafe x).hbr.spiQ = s.hbr.spiQ := (quiet_enterSafe s x).hbr_spiQ
@[simp] theorem State.enterSafe_hbr_pcieQ (x : SafeSt) : (s.enterSafe x).hbr.pcieQ = s.hbr.pcieQ := (quiet_enterSafe s x).hbr_pcieQ
@[simp] theorem State.enterSafe_hbr_reading (x : SafeSt) : (s.enterSafe x).hbr.reading = s.hbr.reading := (quiet_enterSafe s x).hbr_reading
@[simp] theorem State.enterSafe_hbr_l2 (x : SafeSt) : (s.enterSafe x).hbr.l2 = s.hbr.l2 := (quiet_enterSafe s x).hbr_l2
@[simp] theorem State.enterSafe_pair_mode (x : SafeSt) : (s.enterSafe x).pair.mode = s.pair.mode := (quiet_enterSafe s x).pair_mode
@[simp] theorem State.enterSafe_pair_splitAt (x : SafeSt) : (s.enterSafe x).pair.splitAt = s.pair.splitAt := (quiet_enterSafe s x).pair_splitAt
@[simp] theorem State.enterSafe_pwr_coef (x : SafeSt) : (s.enterSafe x).pwr.coef = s.pwr.coef := (quiet_enterSafe s x).pwr_coef
@[simp] theorem State.enterSafe_pwr_winLevel (x : SafeSt) : (s.enterSafe x).pwr.winLevel = s.pwr.winLevel := (quiet_enterSafe s x).pwr_winLevel
@[simp] theorem State.enterSafe_pwr_wakeOut (x : SafeSt) : (s.enterSafe x).pwr.wakeOut = s.pwr.wakeOut := (quiet_enterSafe s x).pwr_wakeOut
@[simp] theorem State.enterSafe_pwr_enteredAt (x : SafeSt) : (s.enterSafe x).pwr.enteredAt = s.pwr.enteredAt := (quiet_enterSafe s x).pwr_enteredAt
@[simp] theorem State.enterSafe_pwr_retLost (x : SafeSt) : (s.enterSafe x).pwr.retLost = s.pwr.retLost := (quiet_enterSafe s x).pwr_retLost
@[simp] theorem State.enterSafe_pwr_fastOk (x : SafeSt) : (s.enterSafe x).pwr.fastOk = s.pwr.fastOk := (quiet_enterSafe s x).pwr_fastOk
@[simp] theorem State.enterSafe_pwr_stuckSeen (x : SafeSt) : (s.enterSafe x).pwr.stuckSeen = s.pwr.stuckSeen := (quiet_enterSafe s x).pwr_stuckSeen
@[simp] theorem State.enterSafe_pwr_inh (x : SafeSt) : (s.enterSafe x).pwr.inh = s.pwr.inh := (quiet_enterSafe s x).pwr_inh
@[simp] theorem State.enterSafe_pwr_waking (x : SafeSt) : (s.enterSafe x).pwr.waking = s.pwr.waking := (quiet_enterSafe s x).pwr_waking
@[simp] theorem State.enterSafe_pwr_retrain (x : SafeSt) : (s.enterSafe x).pwr.retrain = s.pwr.retrain := (quiet_enterSafe s x).pwr_retrain
@[simp] theorem State.enterSafe_red_kickAt (x : SafeSt) : (s.enterSafe x).red.kickAt = s.red.kickAt := (quiet_enterSafe s x).red_kickAt
@[simp] theorem State.enterSafe_red_edgeAt (x : SafeSt) : (s.enterSafe x).red.edgeAt = s.red.edgeAt := (quiet_enterSafe s x).red_edgeAt
@[simp] theorem State.enterSafe_red_hbLost (x : SafeSt) : (s.enterSafe x).red.hbLost = s.red.hbLost := (quiet_enterSafe s x).red_hbLost
@[simp] theorem State.enterSafe_red_statusAt (x : SafeSt) : (s.enterSafe x).red.statusAt = s.red.statusAt := (quiet_enterSafe s x).red_statusAt
@[simp] theorem State.enterSafe_red_partner (x : SafeSt) : (s.enterSafe x).red.partner = s.red.partner := (quiet_enterSafe s x).red_partner
@[simp] theorem State.enterSafe_red_digestEq (x : SafeSt) : (s.enterSafe x).red.digestEq = s.red.digestEq := (quiet_enterSafe s x).red_digestEq
@[simp] theorem State.enterSafe_red_healthyAt (x : SafeSt) : (s.enterSafe x).red.healthyAt = s.red.healthyAt := (quiet_enterSafe s x).red_healthyAt
@[simp] theorem State.enterSafe_red_takeovers (x : SafeSt) : (s.enterSafe x).red.takeovers = s.red.takeovers := (quiet_enterSafe s x).red_takeovers
@[simp] theorem State.enterSafe_red_discoverAt (x : SafeSt) : (s.enterSafe x).red.discoverAt = s.red.discoverAt := (quiet_enterSafe s x).red_discoverAt
@[simp] theorem State.enterSafe_red_echoSeq (x : SafeSt) : (s.enterSafe x).red.echoSeq = s.red.echoSeq := (quiet_enterSafe s x).red_echoSeq
@[simp] theorem State.enterSafe_red_stopped (x : SafeSt) : (s.enterSafe x).red.stopped = s.red.stopped := (quiet_enterSafe s x).red_stopped
@[simp] theorem State.enterSafe_mem_trk (x : SafeSt) : (s.enterSafe x).mem.trk = s.mem.trk := (quiet_enterSafe s x).mem_trk
@[simp] theorem State.enterSafe_mem_merge (x : SafeSt) : (s.enterSafe x).mem.merge = s.mem.merge := (quiet_enterSafe s x).mem_merge
@[simp] theorem State.enterSafe_mem_words (x : SafeSt) : (s.enterSafe x).mem.words = s.mem.words := (quiet_enterSafe s x).mem_words
@[simp] theorem State.enterSafe_mem_passAt (x : SafeSt) : (s.enterSafe x).mem.passAt = s.mem.passAt := (quiet_enterSafe s x).mem_passAt
@[simp] theorem State.enterSafe_mem_pendingRows (x : SafeSt) : (s.enterSafe x).mem.pendingRows = s.mem.pendingRows := (quiet_enterSafe s x).mem_pendingRows
@[simp] theorem State.enterSafe_mem_rowAt (x : SafeSt) : (s.enterSafe x).mem.rowAt = s.mem.rowAt := (quiet_enterSafe s x).mem_rowAt
theorem State.rd_enterSafe (x : SafeSt) (r : Reg) (i : Nat) (h : r ∉ eventRegs) : (s.enterSafe x).rd r i = s.rd r i := (quiet_enterSafe s x).rd r i h
theorem State.ctr_enterSafe (x : SafeSt) (c : Ctr) (i : Nat) (h : c ∉ eventCtrs) : (s.enterSafe x).ctr c i = s.ctr c i := (quiet_enterSafe s x).ctr c i h

@[simp] theorem State.setRole_pending (x : Role) : (s.setRole x).pending = s.pending := (quiet_setRole s x).pending
@[simp] theorem State.setRole_now (x : Role) : (s.setRole x).now = s.now := (quiet_setRole s x).now
@[simp] theorem State.setRole_free (x : Role) : (s.setRole x).free = s.free := (quiet_setRole s x).free
@[simp] theorem State.setRole_phys (x : Role) : (s.setRole x).phys = s.phys := (quiet_setRole s x).phys
@[simp] theorem State.setRole_op (x : Role) : (s.setRole x).op = s.op := (quiet_setRole s x).op
@[simp] theorem State.setRole_prevOp (x : Role) : (s.setRole x).prevOp = s.prevOp := (quiet_setRole s x).prevOp
@[simp] theorem State.setRole_cause (x : Role) : (s.setRole x).cause = s.cause := (quiet_setRole s x).cause
@[simp] theorem State.setRole_leftOp (x : Role) : (s.setRole x).leftOp = s.leftOp := (quiet_setRole s x).leftOp
@[simp] theorem State.setRole_hold (x : Role) : (s.setRole x).hold = s.hold := (quiet_setRole s x).hold
@[simp] theorem State.setRole_stage (x : Role) : (s.setRole x).stage = s.stage := (quiet_setRole s x).stage
@[simp] theorem State.setRole_tim (x : Role) : (s.setRole x).tim = s.tim := (quiet_setRole s x).tim
@[simp] theorem State.setRole_boot (x : Role) : (s.setRole x).boot = s.boot := (quiet_setRole s x).boot
@[simp] theorem State.setRole_mram (x : Role) : (s.setRole x).mram = s.mram := (quiet_setRole s x).mram
@[simp] theorem State.setRole_flash (x : Role) : (s.setRole x).flash = s.flash := (quiet_setRole s x).flash
@[simp] theorem State.setRole_win (x : Role) : (s.setRole x).win = s.win := (quiet_setRole s x).win
@[simp] theorem State.setRole_net (x : Role) : (s.setRole x).net = s.net := (quiet_setRole s x).net
@[simp] theorem State.setRole_keys (x : Role) : (s.setRole x).keys = s.keys := (quiet_setRole s x).keys
@[simp] theorem State.setRole_hbr_paths (x : Role) : (s.setRole x).hbr.paths = s.hbr.paths := (quiet_setRole s x).hbr_paths
@[simp] theorem State.setRole_hbr_perstLow (x : Role) : (s.setRole x).hbr.perstLow = s.hbr.perstLow := (quiet_setRole s x).hbr_perstLow
@[simp] theorem State.setRole_hbr_spiCrcErr (x : Role) : (s.setRole x).hbr.spiCrcErr = s.hbr.spiCrcErr := (quiet_setRole s x).hbr_spiCrcErr
@[simp] theorem State.setRole_hbr_spiQ (x : Role) : (s.setRole x).hbr.spiQ = s.hbr.spiQ := (quiet_setRole s x).hbr_spiQ
@[simp] theorem State.setRole_hbr_pcieQ (x : Role) : (s.setRole x).hbr.pcieQ = s.hbr.pcieQ := (quiet_setRole s x).hbr_pcieQ
@[simp] theorem State.setRole_hbr_reading (x : Role) : (s.setRole x).hbr.reading = s.hbr.reading := (quiet_setRole s x).hbr_reading
@[simp] theorem State.setRole_hbr_l2 (x : Role) : (s.setRole x).hbr.l2 = s.hbr.l2 := (quiet_setRole s x).hbr_l2
@[simp] theorem State.setRole_pair_mode (x : Role) : (s.setRole x).pair.mode = s.pair.mode := (quiet_setRole s x).pair_mode
@[simp] theorem State.setRole_pair_splitAt (x : Role) : (s.setRole x).pair.splitAt = s.pair.splitAt := (quiet_setRole s x).pair_splitAt
@[simp] theorem State.setRole_pwr_coef (x : Role) : (s.setRole x).pwr.coef = s.pwr.coef := (quiet_setRole s x).pwr_coef
@[simp] theorem State.setRole_pwr_winLevel (x : Role) : (s.setRole x).pwr.winLevel = s.pwr.winLevel := (quiet_setRole s x).pwr_winLevel
@[simp] theorem State.setRole_pwr_wakeOut (x : Role) : (s.setRole x).pwr.wakeOut = s.pwr.wakeOut := (quiet_setRole s x).pwr_wakeOut
@[simp] theorem State.setRole_pwr_enteredAt (x : Role) : (s.setRole x).pwr.enteredAt = s.pwr.enteredAt := (quiet_setRole s x).pwr_enteredAt
@[simp] theorem State.setRole_pwr_retLost (x : Role) : (s.setRole x).pwr.retLost = s.pwr.retLost := (quiet_setRole s x).pwr_retLost
@[simp] theorem State.setRole_pwr_fastOk (x : Role) : (s.setRole x).pwr.fastOk = s.pwr.fastOk := (quiet_setRole s x).pwr_fastOk
@[simp] theorem State.setRole_pwr_stuckSeen (x : Role) : (s.setRole x).pwr.stuckSeen = s.pwr.stuckSeen := (quiet_setRole s x).pwr_stuckSeen
@[simp] theorem State.setRole_pwr_inh (x : Role) : (s.setRole x).pwr.inh = s.pwr.inh := (quiet_setRole s x).pwr_inh
@[simp] theorem State.setRole_pwr_waking (x : Role) : (s.setRole x).pwr.waking = s.pwr.waking := (quiet_setRole s x).pwr_waking
@[simp] theorem State.setRole_pwr_retrain (x : Role) : (s.setRole x).pwr.retrain = s.pwr.retrain := (quiet_setRole s x).pwr_retrain
@[simp] theorem State.setRole_red_kickAt (x : Role) : (s.setRole x).red.kickAt = s.red.kickAt := (quiet_setRole s x).red_kickAt
@[simp] theorem State.setRole_red_edgeAt (x : Role) : (s.setRole x).red.edgeAt = s.red.edgeAt := (quiet_setRole s x).red_edgeAt
@[simp] theorem State.setRole_red_hbLost (x : Role) : (s.setRole x).red.hbLost = s.red.hbLost := (quiet_setRole s x).red_hbLost
@[simp] theorem State.setRole_red_statusAt (x : Role) : (s.setRole x).red.statusAt = s.red.statusAt := (quiet_setRole s x).red_statusAt
@[simp] theorem State.setRole_red_partner (x : Role) : (s.setRole x).red.partner = s.red.partner := (quiet_setRole s x).red_partner
@[simp] theorem State.setRole_red_digestEq (x : Role) : (s.setRole x).red.digestEq = s.red.digestEq := (quiet_setRole s x).red_digestEq
@[simp] theorem State.setRole_red_healthyAt (x : Role) : (s.setRole x).red.healthyAt = s.red.healthyAt := (quiet_setRole s x).red_healthyAt
@[simp] theorem State.setRole_red_takeovers (x : Role) : (s.setRole x).red.takeovers = s.red.takeovers := (quiet_setRole s x).red_takeovers
@[simp] theorem State.setRole_red_discoverAt (x : Role) : (s.setRole x).red.discoverAt = s.red.discoverAt := (quiet_setRole s x).red_discoverAt
@[simp] theorem State.setRole_red_echoSeq (x : Role) : (s.setRole x).red.echoSeq = s.red.echoSeq := (quiet_setRole s x).red_echoSeq
@[simp] theorem State.setRole_red_stopped (x : Role) : (s.setRole x).red.stopped = s.red.stopped := (quiet_setRole s x).red_stopped
@[simp] theorem State.setRole_mem_trk (x : Role) : (s.setRole x).mem.trk = s.mem.trk := (quiet_setRole s x).mem_trk
@[simp] theorem State.setRole_mem_merge (x : Role) : (s.setRole x).mem.merge = s.mem.merge := (quiet_setRole s x).mem_merge
@[simp] theorem State.setRole_mem_words (x : Role) : (s.setRole x).mem.words = s.mem.words := (quiet_setRole s x).mem_words
@[simp] theorem State.setRole_mem_passAt (x : Role) : (s.setRole x).mem.passAt = s.mem.passAt := (quiet_setRole s x).mem_passAt
@[simp] theorem State.setRole_mem_pendingRows (x : Role) : (s.setRole x).mem.pendingRows = s.mem.pendingRows := (quiet_setRole s x).mem_pendingRows
@[simp] theorem State.setRole_mem_rowAt (x : Role) : (s.setRole x).mem.rowAt = s.mem.rowAt := (quiet_setRole s x).mem_rowAt
theorem State.rd_setRole (x : Role) (r : Reg) (i : Nat) (h : r ∉ eventRegs) : (s.setRole x).rd r i = s.rd r i := (quiet_setRole s x).rd r i h
theorem State.ctr_setRole (x : Role) (c : Ctr) (i : Nat) (h : c ∉ eventCtrs) : (s.setRole x).ctr c i = s.ctr c i := (quiet_setRole s x).ctr c i h

end Sys2Proof.Machine
end

