-- ==== Sys2Proof/Tests/Slice0.lean ====
section
/-! SUPPORT. Witnesses for the statements, tests of the well-formedness checks, the worked examples of the spec and the host's questions. -/

namespace Sys2Proof.Tests
open Sys2Proof Sys2Proof.Machine

set_option Elab.async false

/-! ## States that the witnesses start from -/

/-- The device in RUN, with everything else as after reset. -/
def runS : State := { State.reset with op := .run }

/-- RUN with the time base at a tick. -/
def at_ (n : Nat) (s : State := runS) : State := { s with now := n, tim := { s.tim with lt := n } }

/-- RUN with register words set. -/
def with_ (l : List (Reg × Nat × Nat)) (s : State := runS) : State := l.foldl (fun s x => s.wr x.1 x.2.1 (BitVec.ofNat 32 x.2.2)) s

/-- RUN with register fields set. -/
def flds (l : List (RegField × Nat × Nat)) (s : State := runS) : State := l.foldl (fun s x => s.setFld x.1 x.2.1 x.2.2) s

/-- `n` bytes of zero. -/
def zs (n : Nat) : List Byte := List.replicate n 0

/-! ## Register accesses, the host bridge and JTAG -/

theorem wit_StepRunsFrontCommand : ({ runS with pending := [Instr.perstAssert, .perstRelease] } : State).pending = .perstAssert :: [.perstRelease] := rfl

theorem wit_IdleStepIsOneTick : runS.pending = [] ∧ runS.fabricOn = true ∧ runS.hbr.spiQ = [] ∧ runS.hbr.pcieQ = [] ∧ runS.net.legRx = [] ∧
    ({ runS with op := .minimal } : State).fabricOn = true ∧ ({ runS with op := .minimal } : State).op ≠ .run ∧
    runS.tim.jumps = [] ∧ ({ runS with op := .sleep } : State).fabricOn = false := by decide +kernel

theorem wit_PlainRegisterWriteSetsItsField : runS.servesReg .pcie .evtVecCfg 0 = true ∧ runS.servesReg .spi .evtVecCfg 31 = true ∧
    runS.servesReg .fw .evtVecCfg 7 = true := by decide +kernel

/-- Ring 7 and port 15 are the last instances. -/
def staged : State :=
  { runS with stage := [(pairKey .pcie (Reg.hbrTxRingBase.addr 14) + 4, 1), (pairKey .pcie (Reg.tgaAdminBase.addr 45) + 4, 5),
      (pairKey .pcie (Reg.tgaAdminBase.addr 45) + 8, 0x10006)] }

/-- The high word of LT is captured for PCIe. -/
def captured : State := { runS with hold := [(pairKey .pcie (Reg.timLt.addr 1), 7)] }

theorem wit_MultiWordValues_high : captured.servesReg .pcie .timLt 1 = true ∧
    tblFind captured.hold (pairKey .pcie (Reg.timLt.addr 1)) = some 7 ∧ runS.servesReg .pcie .timLt 1 = true ∧
    tblFind runS.hold (pairKey .pcie (Reg.timLt.addr 1)) = none := by decide +kernel

theorem wit_MultiWordValues : runS.servesReg .pcie .timLt 0 = true ∧ runS.servesReg .pcie .hbrTxRingBase 15 = true ∧
    staged.servesReg .pcie .hbrTxRingBase 14 = true ∧ staged.on F.hbrTxRingCfg_en 7 = false ∧
    tblFind staged.stage (pairKey .pcie (Reg.hbrTxRingBase.addr 14) + 4) = some 1 ∧
    staged.servesReg .pcie .tgaAdminBase 45 = true ∧ (999999999 : Word).toNat < 1000000000 ∧ (staged.tide 15).pend = none ∧
    (staged.tide 15).busy = none ∧ tblFind staged.stage (pairKey .pcie (Reg.tgaAdminBase.addr 45) + 4) = some 5 ∧
    tblFind staged.stage (pairKey .pcie (Reg.tgaAdminBase.addr 45) + 8) = some 0x10006 := by decide +kernel

/-- The PCIe link is up. -/
def linked : State := with_ [(.hbrPcieStat, 0, 0x80000000)]

theorem wit_PcieRequestsTakeEffectOrFail : linked.pcieUp = true ∧ linked.reaches .pcie (Reg.evtVecCfg.addr 31) = true ∧
    linked.reaches .pcie (Reg.glbOpState.addr 0) = true ∧ 16 < (List.replicate 17 (15 : BitVec 4)).length ∧
    linked.hbr.pcieQ = [] ∧ runS.pcieUp = false ∧ runS.hbr.pcieQ = [] ∧
    32 ≤ ({ linked with hbr := { linked.hbr with pcieQ := List.replicate 32 ⟨false, 0, [(0, 15)], false, 0, 0, 0, []⟩ } } : State).hbr.pcieQ.length := by decide +kernel

theorem wit_ManagementSpiFramesAreServed : runS.mapUp = true ∧ runS.reaches .spi (Reg.evtVecCfg.addr 31) = true ∧ runS.hbr.spiQ = [] ∧
    runS.reaches .spi (Reg.glbOpState.addr 0) = true ∧ runS.reaches .spi (Reg.hbrSideband.addr 0) = true ∧
    crc8 ([0x0B] ++ beBytes 3 0 ++ [15]) + 1 ≠ crc8 ([0x0B] ++ beBytes 3 0 ++ [15]) := by decide +kernel

/-- Window 3 enabled; with checks and stop on error; with a read-ahead buffer of PCIe and a fence. -/
def aspi : State := with_ [(.hbrAspiCfg0, 3, 0x80000000)]
def aspiChk : State := { aspi with } |>.setFld F.hbrAspiCfg0_chk_en 3 1 |>.setFld F.hbrAspiCfg0_stop_on_err 3 1 |>.setFld F.hbrAspiCfg2_sts_mask 3 1
def aspiPf : State := (at_ 8000 aspi).setPath .pcie { PathSt.reset with fence := 15 }

/-- Checks on window 3, and the link up. -/
def aspiUp : State := with_ [(.hbrPcieStat, 0, 0x80000000)] aspiChk

theorem wit_AuxiliarySpiWindows : aspi.serves .pcie (0x800000 + 0x100000 * 3 + 4 * 1023) = true ∧ aspi.on F.hbrAspiCfg0_en 3 = true ∧
    aspi.fenced .pcie 3 = false ∧ aspi.on F.hbrAspiCfg0_chk_en 3 = false ∧ aspi.pf .pcie 3 = none ∧ aspi.pf .spi 3 = none ∧
    aspi.pf .fw 3 = none ∧ aspi.fld F.hbrAspiCfg0_pf_len 3 = 0 ∧
    aspiChk.serves .pcie (0x800000 + 0x100000 * 3) = true ∧ aspiChk.on F.hbrAspiCfg0_en 3 = true ∧ aspiChk.fenced .pcie 3 = false ∧
    aspiChk.on F.hbrAspiCfg0_chk_en 3 = true ∧ aspiChk.on F.hbrAspiCfg0_stop_on_err 3 = true ∧
    aspiPf.serves .pcie (0x800000 + 0x100000 * 3) = true ∧ aspiPf.on F.hbrAspiCfg0_en 3 = true ∧ aspiPf.fenced .pcie 3 = true ∧
    aspiUp.serves .pcie (0x800000 + 0x100000 * 3) = true ∧ aspiUp.on F.hbrAspiCfg0_en 3 = true ∧ aspiUp.pcieUp = true ∧
    aspiUp.hbr.pcieQ = [] ∧ aspiUp.fenced .pcie 3 = false ∧ aspiUp.on F.hbrAspiCfg0_stop_on_err 3 = true ∧
    1 &&& aspiChk.fld F.hbrAspiCfg2_sts_mask 3 ≠ aspiChk.fld F.hbrAspiCfg2_sts_val 3 := by decide +kernel

/-- A read-ahead buffer of one word, 10 us old. -/
def pfOld : State := (at_ 8000).setPf .pcie 3 (some ⟨0, [7], 0⟩)

theorem wit_AuxiliarySpiWindows_timeout : pfOld.pf .pcie 3 = some ⟨0, [7], 0⟩ ∧ 0 + tkUs 10 ≤ pfOld.tim.lt ∧
    aspiPf.servesReg .pcie .hbrPwFence 0 = true ∧ (aspiPf.pathSt .pcie).fence < 16 ∧ getBit (8 : Word) 3 = true ∧
    getBit (8 : Word) 0 = false := by decide +kernel

def ringOn : State := linked.setFld F.hbrDmaCfg_dma_en 0 1 |>.setFld F.hbrTxRingCfg_en 7 1 |>.setFld F.hbrRxRingCfg_en 7 1

theorem wit_RingsAndBusSignals : runS.servesReg .pcie .hbrTxRingTail 7 = true ∧ runS.servesReg .pcie .hbrRxRingTail 7 = true ∧
    ringOn.ringRuns false 7 = true ∧ ringOn.ringRuns true 7 = true ∧
    runS.pcieTrains = true ∧ linked.on F.hbrPcieStat_link_up = true ∧ linked.pcieTrains = true ∧
    ({ runS with hbr := { runS.hbr with perstLow := true } } : State).pcieTrains = false ∧
    runS.on F.hbrPcieStat_link_up = false ∧ runS.hbr.perstLow = false ∧ getBit (runS.rd .hbrSideband) 13 ≠ true ∧
    getBit (runS.rd .hbrSideband) 0 ≠ false := by decide +kernel

/-- Queue 47 enabled for the firmware (owner code 2) with depth 16 and two items, one of them held. -/
def mqS (m : Mark) : State := (with_ [(.mqCfg, 47, 0xC0000004)]).setMq 47 ⟨5, [⟨[1, 2, 3, 4]⟩, ⟨[5, 6, 7, 8]⟩], 1, m⟩

theorem wit_MessageQueues : (mqS .none).servesReg .fw .mqCmd 47 = true ∧ (mqS .none).mqOwner .fw 47 = true ∧
    ((mqS (.valid 5)).mq 47).mark = .valid 5 ∧ ((mqS .none).mq 47).mark = .none ∧ ((mqS .lost).mq 47).mark = .lost ∧
    0 < (1 : BitVec 13).toNat ∧ (1 : BitVec 13).toNat ≤ ((mqS .none).mq 47).held ∧ ((mqS .none).mq 47).held < (2 : BitVec 13).toNat := by
  decide +kernel

theorem wit_MessageQueues_reads : (mqS .none).servesReg .fw .mqPop 191 = true ∧
    (mqS .none).mqOwner .fw 47 = true ∧ (mqS .none).memClean = true ∧ ((mqS .none).mq 47).items[((mqS .none).mq 47).held]? = some ⟨[5, 6, 7, 8]⟩ ∧
    (mqS .none).servesReg .fw .mqCfg 47 = true ∧ (mqS .none).on F.mqCfg_en 47 = true ∧ F.mqCfg_en.of 0 = 0 ∧
    runS.on F.mqCfg_en 0 = false ∧ F.mqCfg_en.of 0xC0000004 = 1 ∧ 4 ≤ F.mqCfg_depth_log.of 0xC0000004 ∧
    F.mqCfg_depth_log.of 0xC000000C ≤ 12 ∧ F.mqCfg_owner.of 0xC000000C < 3 ∧
    runS.mqOthers 0 + 2 ^ F.mqCfg_depth_log.of 0xC000000C ≤ 16384 := by decide +kernel

/-- A vector with a pending request. -/
def vecPend (masked : Bool) : State := runS.setVec 31 { MsixVec.reset with pending := true, masked := masked }

theorem wit_EventsRiseAndAreDelivered : runS.servesReg .pcie .evtRaise 0 = true ∧ Ev.listed 0 = true ∧ Ev.listed (Ev.accessErr .upd) = true ∧
    runS.servesReg .pcie .evtRoute 425 = true ∧ F.evtRoute_dest.of 3 < 4 ∧ runS.fld F.evtRoute_dest 425 ≠ 4 ∧ F.evtRoute_dest.of 0x20000000 = 4 ∧
    ((vecPend false).vec 31).pending = true ∧ ((vecPend false).vec 31).masked = false ∧ (vecPend false).vecHeld 31 = false ∧
    ((vecPend true).vec 31).pending = true ∧ (vecPend true).vecHeld 31 = false ∧ (runS.vec 31).pending = false := by decide +kernel

/-- Port 0 enabled. -/
def port0 : State := runS.setFld F.macPortCfg_en 0 1

/-- The link of port 13 is up. -/
def up13 : State := runS.setFld F.macPortStat_link_up 13 1

theorem wit_PhyAndPortRegisters : runS.servesReg .pcie .macMdioCmd 0 = true ∧ F.macMdioCmd_go.of 0xC0000000 = 1 ∧
    F.macMdioCmd_rd.of 0xC0000000 = 1 ∧ F.macMdioCmd_rd.of 0x80000000 = 0 ∧ runS.serves .pcie (phyOff 13 3 1023) = true ∧
    runS.serves .pcie (phyOff 13 2 1023) = true ∧ runS.servesReg .pcie .macPortCfg 15 = true ∧ runS.on F.macPortCfg_en 15 = false ∧
    runS.servesReg .pcie .macPortCfg 12 = true ∧ runS.servesReg .pcie .macPortCfg 17 = true ∧ F.macPortCfg_en.of 0x80000000 = 1 ∧
    modeKnown 15 (F.macPortCfg_mode.of 0x82000000) = true ∧
    up13.serves .pcie (phyOff 13 2 1023) = true ∧ up13.linkUp 13 = true ∧
    port0.servesReg .pcie .macPortCfg 0 = true ∧ port0.on F.macPortCfg_en 0 = true ∧ modeKnown 0 (F.macPortCfg_mode.of 0x81000000) = true ∧
    F.macPortCfg_mode.of 0x81000000 ≠ port0.fld F.macPortCfg_mode 0 := by decide +kernel

/-- A device in FIELD. -/
def field : State := { runS with keys := { runS.keys with lc := 2 } }

theorem wit_JtagFollowsTheLifeCycle : field.op ≠ .off ∧ field.keys.lc = 2 ∧ field.net.dbg.open_ = false ∧
    runS.op ≠ .off ∧ runS.keys.lc = 0 := by decide +kernel


/-! ## Supplies, clocks, power and wake -/

def offS : State := { runS with op := .off, phys := { runS.phys with railsValid := false } }
def sleepS : State := { runS with op := .sleep }
def standbyS : State := { runS with op := .standby }

/-- OFF without VDD_AON, which comes back. -/
def noAon : State := { runS with op := .off, phys := { runS.phys with aonValid := false } }
/-- A row has been added in this tick. -/
def newRow : State := { runS with mem := { runS.mem with rowAt := some 0 } }

theorem wit_SupplyAndResetTransitions : offS.op = .off ∧ offS.phys.aonValid = true ∧ offS.phys.rstLow = false ∧
    offS.phys.railsValid = false ∧ runS.op ≠ .off ∧ runS.op ≠ .sleep ∧ sleepS.op = .sleep ∧
    ({ runS with phys := { runS.phys with rstLow := true } } : State).phys.aonValid = true ∧
    ({ runS with phys := { runS.phys with rstLow := true } } : State).phys.railsValid = true ∧
    noAon.phys.aonValid = false ∧ noAon.phys.railsValid = true ∧ noAon.phys.rstLow = false ∧ noAon.op = .off ∧
    runS.mem.rowAt ≠ some runS.now ∧ sleepS.mem.rowAt ≠ some sleepS.now ∧ newRow.op ≠ .off ∧ newRow.mem.rowAt = some newRow.now ∧
    standbyS.op = .standby ∧ standbyS.phys.rstLow = false := by decide +kernel

/-- Port 15 enabled, up and locked. -/
def port15 : State :=
  { flds [(F.macPortCfg_en, 15, 1), (F.macPortStat_link_up, 15, 1)] with phys := { runS.phys with phyLock := [15], rootLock := true } }

theorem wit_ClockLockAndLoss : State.reset.phys.rstLow = false ∧ State.reset.op = .boot ∧ State.reset.phys.railsValid = true ∧
    State.reset.phys.rootLock = false ∧ State.reset.boot.run.fwim = none ∧ State.reset.boot.run.minWait = none ∧ (1 : BitVec 8) ≠ 0 ∧
    State.reset.fld F.glbFaultRec_code = 0 ∧ runS.op = .run ∧ (at_ 800000000 (flds [(F.glbFaultRec_code, 0, 1)])).fld F.glbFaultRec_code ≠ 0 ∧
    (at_ 800000000 (flds [(F.glbFaultRec_code, 0, 1)])).faultNow = false ∧
    port15.linkUp 15 = true ∧ port15.on F.macPortCfg_en 15 = true ∧
    (port15.setFld F.macPortStat_link_up 15 0).linkUp 15 = false ∧
    (port15.setFld F.macPortStat_link_up 15 0).phys.phyLock.contains 15 = true := by decide +kernel

/-- Every wake source enabled, active high, with the filters of the CAN channels and the timer at its first second. -/
def wakes (s : State) : State :=
  at_ 800000000 (flds [(F.pwrWakeEn_can_en, 0, 65535), (F.pwrWakeEn_t1_en, 0, 4095), (F.pwrWakeEn_timer_en, 0, 1), (F.pwrWakeEn2_win_en, 0, 15),
    (F.pwrWakeEn2_lin_en, 0, 255), (F.pwrTimer_wake_s, 0, 1), (F.canLpfCfg_en, 15, 1), (F.canLpfCfg_wup_en, 15, 1),
    (F.canLpfCtl_dlc, 15, 0), (F.canLpfStat_fec, 15, 31), (F.macPortStat_link_up, 11, 1)] s)

theorem wit_WakeRequests : (wakes runS).phys.aonValid = true ∧ (wakes runS).phys.rstLow = false ∧ (wakes runS).op = .run ∧
    (wakes runS).pair.safe = none ∧ (wakes runS).pwr.ring.st = .idle ∧
    (wakes runS).wakeOn 0x33 = true ∧ tblGet (wakes runS).pwr.winLevel false 3 ≠ true ∧
    true ≠ gateBit ((wakes runS).fld F.pwrWakeEn2_win_pol) 3 ∧ (wakes runS).wakeOn 0x1B = true ∧ (wakes runS).linkUp 11 = true ∧
    (wakes runS).wakeOn 0x27 = true := by decide +kernel

theorem wit_WakeRequests_sleep : (wakes sleepS).phys.railsValid = true ∧ (wakes sleepS).pwr.waking = none ∧ (wakes sleepS).wakeOn 0x40 = true ∧
    (wakes sleepS).fld F.pwrTimer_wake_s ≠ 0 ∧
    (wakes sleepS).pwr.enteredAt + tkS ((wakes sleepS).fld F.pwrTimer_wake_s) ≤ (wakes sleepS).now ∧
    (wakes sleepS).wakeOn 0x1B = true ∧ (wakes sleepS).wakeOn 0x27 = true ∧ (wakes sleepS).wakeOn 15 = true ∧
    (wakes sleepS).on F.canLpfCfg_en 15 = true ∧ (wakes sleepS).on F.canLpfCfg_wup_en 15 = true ∧
    (wakes sleepS).lpfMatch 15 false 0 0 [] = true ∧ (wakes sleepS).fld F.canLpfCtl_fec_thr 15 ≤ (wakes sleepS).fld F.canLpfStat_fec 15 := by
  decide +kernel

/-- Ring members 0 and 31 on port 0, whose link is up. -/
def ring : State := flds [(F.pwrMember0_valid, 0, 1), (F.pwrMember0_valid, 31, 1), (F.macPortStat_link_up, 0, 1)]
def inRound (k : Nat) : State := (at_ 800000000 ring).setRing { Ring.reset with st := .round, round := 65535, await := some (k, 0) }

theorem wit_SleepRingRound : ring.mayRound = true ∧ ring.ownReason false = none ∧ ring.members = [0, 31] ∧ ring.memberUp 0 = true ∧
    (flds [(F.pwrCtrl_hold, 0, 1)] ring).mayRound = true ∧ (flds [(F.pwrCtrl_hold, 0, 1)] ring).ownReason false = some 0xE0 ∧
    (inRound 31).fabricOn = true ∧ (inRound 31).pwr.ring.st = .round ∧ (inRound 31).pwr.ring.await = some (31, 0) ∧
    (inRound 31).pwr.ring.round < 65536 ∧ (inRound 31).members.filter (fun m => decide (31 < m)) = [] ∧ (1 : BitVec 8) ≠ 0 ∧
    0 + tkMs ((inRound 0).fld F.pwrRingCfg_reply_ms) ≤ (inRound 0).tim.lt := by decide +kernel

def allIn (woken : Bool) : State := ring.setRing { Ring.reset with st := .round, allIn := true, consent := [0, 31], woken := woken }
def committed (tc10 : Nat) : State :=
  (at_ 800000000 (flds [(F.pwrTc10Cfg_tc10_en, 0, tc10)] ring)).setRing { Ring.reset with st := .committed, toSleep := true }
def entering (l : List Nat) : State := (at_ 800000000 ring).setRing { Ring.reset with st := .entering, lpsWait := l, toSleep := true }

theorem wit_SleepCommitAndEntry : (allIn true).servesReg .fw .pwrCtrl 0 = true ∧ F.pwrCtrl_commit.of 0x84000000 = 1 ∧
    F.pwrCtrl_wake_out.of 0x84000000 = 0 ∧ 1 ≤ F.pwrCtrl_target.of 0x84000000 ∧ F.pwrCtrl_target.of 0x88000000 ≤ 2 ∧
    (allIn false).pwr.ring.st = .round ∧ (allIn false).pwr.ring.allIn = true ∧ (allIn false).pwr.ring.woken = false ∧
    (allIn true).pwr.ring.woken = true := by decide +kernel

theorem wit_SleepCommitAndEntry_steps : (committed 1).fabricOn = true ∧ (committed 1).pwr.ring.st = .committed ∧
    (committed 1).pwr.ring.commitAt + tkUs (100 * (committed 1).fld F.pwrEntryCfg_commit_hold) ≤ (committed 1).tim.lt ∧
    gateBit ((committed 1).fld F.pwrTc10Cfg_tc10_en) 0 = true ∧
    (∀ p : Fin 12, gateBit ((committed 0).fld F.pwrTc10Cfg_tc10_en) p = false) ∧ (committed 1).pwr.ring.fresh = none ∧
    (committed 0).pwr.latched = none ∧ (entering [0, 11]).fabricOn = true ∧ (entering [0, 11]).pwr.ring.st = .entering ∧
    (entering [0, 11]).pwr.ring.lpsWait = [0, 11] ∧
    (entering [0, 11]).pwr.ring.lpsAt + tkMs ((entering [0, 11]).fld F.pwrEntryCfg_lps_ms) ≤ (entering [0, 11]).tim.lt ∧
    (entering [11]).pwr.ring.lpsWait = [11] ∧ (entering [11]).pwr.ring.toSleep = true ∧
    ((allIn false).setRing { Ring.reset with st := .round, consent := [0] }).pwr.ring.consent = [0] ∧
    (allIn false).on F.pwrMember0_kind 0 = false ∧ (allIn false).fld F.pwrMember0_port 0 = 0 := by decide +kernel

/-- A commit accepted in this tick, with a wake request on its way. -/
def abort : State := (wakes runS).setRing { Ring.reset with st := .committed, fresh := some 2 }

theorem wit_SleepCommitAndEntry_abort : abort.phys.aonValid = true ∧ abort.phys.rstLow = false ∧ abort.op = .run ∧ abort.pair.safe = none ∧
    abort.linkUp 11 = true ∧ abort.wakeOn 0x1B = true ∧ abort.pwr.ring.st = .committed ∧ abort.pwr.ring.fresh = some 2 := by decide +kernel

def pulse : State := { at_ 800000000 with pwr := { runS.pwr with wakeOut := some 0 } }
def lpf : State := { flds [(F.canLpfCfg_en, 15, 1)] with op := .sleep }

theorem wit_WakeOutAndFilterCounts : runS.servesReg .fw .pwrCtrl 0 = true ∧ F.pwrCtrl_wake_out.of 0x10000000 = 1 ∧
    F.pwrCtrl_commit.of 0x10000000 = 0 ∧ runS.pwr.wakeOut = none ∧ runS.phys.aonValid = true ∧ pulse.pwr.wakeOut = some 0 ∧
    0 + tkMs (pulse.fld F.pwrWakeoutCfg_width_ms) ≤ pulse.now ∧ lpf.lpfOn 15 = true ∧
    lpf.fld F.canLpfStat_fec 15 < lpf.fld F.canLpfCtl_fec_thr 15 := by decide +kernel


/-! ## Start, configuration sets and update. The flash holds a directory and signed images; the signatures were computed outside the model. -/

def dirB : List Byte :=
  beBytes 64 0x4449523100000001000000000002000000010000000300000001000000040000000100000005000000010000000000000000000000000000000000003D5B8EF0

def fwimB : List Byte :=
  beBytes 64 0x4657494D000101000000964000000001000000010000000400000000000000009F64A747E1B97F131FABB6B447296C9B6F0201E79FB3C5356E6C77E89B6A806A ++
  beBytes 64 0x8E533B6FA0BF7B4625BB30667C01FB607EF9F8B8A80FEF5B300628703187B2A373EB1DBDE03318366D069F83A6F5900053C73633CB041B21C55E1A86C1F400B4 ++
  beBytes 64 0x26EFCEBD0EE9E34A669187E18B3A9122B2F733945B649CC9F9F921E9F9DAD812278BCD31577F8A2BC9CC0EBF373A515498599319666FC66AF9692DEE5FA0781F ++
  beBytes 64 0x00000000000000000000000000000000000000000000000000000000000000000000000000000000000000000000000000000000000000000000000000000000 ++
  beBytes 4 0x01020304

def csetB : List Byte :=
  beBytes 64 0x4353455400010100000096400000000000000001000000020000000000000000C42522128B49193DE8CD45D8F7589CD7E085E65F138640D57D4482E5F7189623 ++
  beBytes 64 0xEA68D7B6FEDF0B71878938D51D71F8729E0ACB8C2C6DF8B3D79E8A4B90949EE02A2744C972C9FCE787014A964A8EA0C84D714FEAA4DE823FE85A224A4DD048FA ++
  beBytes 64 0x26EFCEBD0EE9E34A669187E18B3A9122B2F733945B649CC9F9F921E9F9DAD8123A97206364BA6ADFBE843DF9FB4E1A4FB17C63ECC0709E5915795714FE407A56 ++
  beBytes 64 0x00000000000000000000000000000000000000000000000000000000000000000000000000000000000000000000000000000000000000000000000000000000 ++
  beBytes 2 0x0506

def fwimSigner : List Byte :=
  beBytes 32 0x2238F0E348C0445A60AFFD248BFE765DB34318C0A10BFC9FC7423170E019D490

def csetSigner : List Byte :=
  beBytes 32 0xB460B27175FFA0D26F8B805BCBC5370F97590E3628506258BF832EE339DC5500

def csetDigest : List Byte :=
  beBytes 32 0x8384808C0A10FFBC19F255ABF4FE4EE6643B753F043760DFF07EFB6D1408E6A0

/-- Bytes at an offset of the flash. -/
def place (off : Nat) (bs : List Byte) : Tbl Byte := bs.zipIdx.filterMap fun x => if x.1 = 0xFF then none else some (off + x.2, x.1)

/-- A boot record, with the FWIM in slot A and set 0 recorded. -/
def rec_ (fsc : Nat) (a b : SlotSt) : BootRec :=
  { BootRec.factory with fsc := fsc, stA := a, stB := b, active := some ⟨0, csetDigest⟩, prev := some ⟨1, csetDigest⟩ }

/-- BOOT with its flash and signer keys, and a record. Slot B begins with zeros, which give it version 0. -/
def bootS (r : Option BootRec) : State :=
  { at_ 160000000 with
    op := .boot
    flash := place 0 dirB ++ place 0x20000 fwimB ++ place 0x30000 (zs 20) ++ place 0x40000 csetB
    keys := { runS.keys with lc := 1, slots := [(4, { KeySlot.empty with key := fwimSigner, attr := 0x80000000 }),
      (5, { KeySlot.empty with key := csetSigner, attr := 0x80000000 })] }
    phys := { runS.phys with rootLock := true }
    boot := { runS.boot with run := { runS.boot.run with bistOk := true } }
    mram := { runS.mram with boot := ⟨r.map fun x => (1, x), none⟩ } }

/-- BOOT in an attempt. -/
def trying (r : BootRec) (fwim : Option (Nat × Nat × Nat)) : State :=
  let s := bootS (some r)
  { s with boot := { s.boot with run := { s.boot.run with attempt := some 0, fwim := fwim } } }

/-- The same with port 15 enabled and its PLL not locked, and an entry into MINIMAL that waits or not. -/
def unlocked (w : Option (Nat × Nat)) : State :=
  let s := flds [(F.macPortCfg_en, 15, 1)] (trying (rec_ 3 .good .empty) none)
  { s with boot := { s.boot with run := { s.boot.run with minWait := w } } }

theorem wit_BootAttempts : (bootS (some (rec_ 2 .good .empty))).booting = true ∧
    (bootS (some (rec_ 2 .good .empty))).boot.run.attempt = none ∧
    (bootS (some (rec_ 2 .good .empty))).mram.boot.read = some (rec_ 2 .good .empty) ∧ (rec_ 2 .good .empty).fsc < 3 ∧
    (bootS (some (rec_ 2 .good .empty))).slots.isSome = true ∧
    (bootS (some (rec_ 3 .good .empty))).mram.boot.read = some (rec_ 3 .good .empty) ∧ 3 ≤ (rec_ 3 .good .empty).fsc ∧
    (bootS (some (rec_ 3 .good .empty))).mram.minOk = false ∧ (bootS none).booting = true ∧ (bootS none).mram.boot.read = none ∧
    (bootS none).boot.run.cause ≠ 8 ∧ (bootS none).mram.minOk = false ∧
    (trying (rec_ 2 .good .empty) none).booting = true ∧ (trying (rec_ 2 .good .empty) none).boot.run.attempt = some 0 ∧
    (trying (rec_ 2 .good .empty) none).bcr.fsc < 3 ∧ (trying (rec_ 2 .good .empty) none).boot.run.cset = none ∧
    0 + tkMs 200 ≤ (trying (rec_ 2 .good .empty) none).tim.lt ∧ 3 ≤ (trying (rec_ 3 .good .empty) none).bcr.fsc ∧
    (trying (rec_ 3 .good .empty) none).boot.run.cset = none ∧ (unlocked (some (3, 1))).phys.rootLock = true ∧
    (unlocked (some (3, 1))).pair.safe = none ∧
    (bootS (some (rec_ 3 .good .empty))).phyReady = true ∧ (bootS none).phyReady = true ∧
    (trying (rec_ 3 .good .empty) none).mram.minOk = false ∧ (trying (rec_ 3 .good .empty) none).phyReady = true ∧
    (unlocked none).booting = true ∧ (unlocked none).boot.run.attempt = some 0 ∧ 3 ≤ (unlocked none).bcr.fsc ∧
    0 + tkMs 200 ≤ (unlocked none).tim.lt ∧ (unlocked none).phyReady = false ∧
    (unlocked (some (3, 1))).fabricOn = true ∧ (unlocked (some (3, 1))).op = .boot ∧
    (unlocked (some (3, 1))).boot.run.minWait = some (3, 1) ∧ (unlocked (some (3, 1))).mram.minOk = false ∧
    (unlocked (some (3, 1))).on F.macPortCfg_en 15 = true ∧ (unlocked (some (3, 1))).phys.phyLock.contains 15 = false ∧
    (∀ q : Fin 16, q ≠ 15 → (unlocked (some (3, 1))).on F.macPortCfg_en q = true →
      (unlocked (some (3, 1))).phys.phyLock.contains q.val = true) := by decide +kernel

/-- A check that passes, with what is asked of its result. -/
def okWith {α : Type} (x : Except Nat α) (f : α → Bool) : Bool :=
  match x with
  | .ok i => f i
  | .error _ => false

set_option maxHeartbeats 4000000 in
theorem wit_fwimImage : okWith ((bootS none).imageCheck false (0x20000, 0x10000)) (fun i => decide (i.ver = 1 ∧ i.sec = 1)) = true := by decide +kernel

set_option maxHeartbeats 4000000 in
theorem wit_csetImage : okWith ((bootS none).imageCheck true (0x40000, 0x10000))
    (fun i => decide (i.ver = 1 ∧ i.need = 0 ∧ i.dig = csetDigest)) = true := by decide +kernel

/-- The checks of an image look at the flash, the keys and the registers alone. -/
theorem imageCheck_of (s t : State) (hf : t.flash = s.flash) (hk : t.keys = s.keys) (hr : t.regs = s.regs) (c : Bool) (a : SlotAt) :
    t.imageCheck c a = s.imageCheck c a := by
  have h1 : ∀ o n, t.flashBytes o n = s.flashBytes o n := fun o n => by simp [State.flashBytes, hf]
  have h2 : ∀ n, t.slot n = s.slot n := fun n => by simp [State.slot, hk]
  have h3 : ∀ n, t.slotEmpty n = s.slotEmpty n := fun n => by simp [State.slotEmpty, h2, hk]
  have h4 : t.rd .glbChipId = s.rd .glbChipId := by simp [State.rd, hr]
  simp [State.imageCheck, h1, h2, h3, h4]

theorem ok_of {α : Type} {x : Except Nat α} {f : α → Bool} (h : okWith x f = true) : ∃ i, x = .ok i ∧ f i = true := by
  cases x with
  | ok i => exact ⟨i, rfl, h⟩
  | error e => simp [okWith] at h

/-- An attempt with slot A ARMED; one with a set to load; and RUN with a load of set 0 of a version above the active one. -/
def armed : State := trying (rec_ 0 .armed .good) none
def loads : State := trying (rec_ 0 .good .empty) (some (0, 1, 1))
def runLoad (n : Nat) : State := { loads with op := .run, boot := { loads.boot with loading := some n, fwimVer := 1 } }

/-- FWIM that passes in slot A, and one that fails in the empty slot B. -/
theorem wit_FirmwareAndSetStart_fwim : armed.booting = true ∧ armed.boot.run.attempt.isSome = true ∧ armed.bcr.fsc < 3 ∧
    armed.boot.run.fwim = none ∧ armed.bcr.stA = .armed ∧ armed.bcr.stB = .good ∧ ∃ i, armed.fwimCheck 0 = .ok i := by
  refine ⟨by decide +kernel, by decide +kernel, by decide +kernel, by decide +kernel, by decide +kernel, by decide +kernel, ?_⟩
  obtain ⟨i, hi, hv⟩ := ok_of wit_fwimImage
  have hs : armed.slotAt 0 = (0x20000, 0x10000) := by decide +kernel
  have hm : armed.bcr.secMin = 0 := by decide +kernel
  refine ⟨i, ?_⟩
  unfold State.fwimCheck
  rw [hs, imageCheck_of (bootS none) armed rfl rfl rfl, hi, hm]
  rfl

/-- The flash holds a directory and no image. -/
def noImage : State := { trying (rec_ 0 .good .empty) none with flash := place 0 dirB }

theorem wit_FirmwareAndSetStart_error : noImage.booting = true ∧ noImage.boot.run.fwim = none ∧ noImage.bcr.stA = .good ∧
    noImage.bcr.stB = .empty ∧ noImage.bcr.primary = 0 ∧ noImage.bcr.fsc < 3 ∧
    (match noImage.fwimCheck 0 with | .ok _ => false | .error c => c == 3) = true := by decide +kernel

theorem csetImage_at (t : State) (hf : t.flash = (bootS none).flash) (hk : t.keys = (bootS none).keys) (hr : t.regs = (bootS none).regs) :
    ∃ i, t.imageCheck true (0x40000, 0x10000) = .ok i ∧ i.ver = 1 ∧ i.need = 0 ∧ i.dig = csetDigest := by
  obtain ⟨i, hi, hv⟩ := ok_of wit_csetImage
  exact ⟨i, by rw [imageCheck_of (bootS none) t hf hk hr, hi], of_decide_eq_true hv⟩

theorem wit_FirmwareAndSetStart_cset : loads.booting = true ∧ loads.boot.run.fwim = some (0, 1, 1) ∧ loads.boot.run.cset = none ∧
    loads.bcr.active = some ⟨0, csetDigest⟩ ∧ loads.bcr.csetTrial = false ∧
    (∃ i, loads.csetCheck 0 1 = .ok i ∧ i.dig = csetDigest) ∧ csetDigest ≠ fwimSigner := by
  refine ⟨by decide +kernel, by decide +kernel, by decide +kernel, by decide +kernel, by decide +kernel, ?_, by decide +kernel⟩
  obtain ⟨i, hi, -, hn, hd⟩ := csetImage_at loads rfl rfl rfl
  have hs : loads.slotAt (2 + 0) = (0x40000, 0x10000) := by decide +kernel
  refine ⟨i, ?_, hd⟩
  unfold State.csetCheck
  rw [hs, hi]
  simp [hn]

/-- The checks of a set pass for an empty one and fail for one that names a reserved port: either may be the content of a body, which is free. -/
def badSet : Cset := { Cset.empty with tabs := [(0x18, 0, [0x80500000, 0])] }

set_option maxHeartbeats 4000000 in
theorem wit_setCodes : (loads.clearMap.loadSet Cset.empty loads.epoch true loads.boot.fwimDig).code = 0 ∧
    (loads.clearMap.loadSet badSet loads.epoch true loads.boot.fwimDig).code = 8 ∧
    ((runLoad 0).loadSet Cset.empty ((runLoad 0).epoch + 1) false (runLoad 0).boot.fwimDig).code = 0 ∧
    ((runLoad 0).loadSet badSet ((runLoad 0).epoch + 1) false (runLoad 0).boot.fwimDig).code = 8 := by decide +kernel

/-- A fast start whose subset stands. -/
def fast : State :=
  { loads with
    boot := { loads.boot with run := { loads.boot.run with fast := true } }
    mram := { loads.mram with minCfg := some ⟨csetDigest, [], [[0x80000123, 5, 1, 0]], [], []⟩, minHdr := ⟨some (1, true), none⟩ } }

theorem wit_FirmwareAndSetStart_fast : fast.booting = true ∧ fast.boot.run.attempt.isSome = true ∧ fast.boot.run.fast = true ∧
    fast.boot.run.fastOn = false ∧ fast.boot.run.cset = none ∧ fast.mram.minCfg = some ⟨csetDigest, [], [[0x80000123, 5, 1, 0]], [], []⟩ ∧
    fast.mram.minOk = true ∧ fast.bcr.active.isSome = true ∧ fast.activeDigest = csetDigest := by decide +kernel

/-- RUN from slot A in a state, long after its entry. -/
def ranA (a : SlotSt) (fsc : Nat) : State :=
  let s := at_ 800000000000000
  { s with boot := { s.boot with runSlot := 0, fwTrial := a == .trial }, mram := { s.mram with boot := ⟨some (1, rec_ fsc a .empty), none⟩ } }
def minimalS : State := { ranA .good 3 with op := .minimal }

/-- RUN in a safe state. -/
def inSafe : State := { ranA .good 1 with pair := { (ranA .good 1).pair with safe := some .quiet } }

theorem wit_RestartsAndTrialTimers : (ranA .good 1).fabricOn = true ∧ (ranA .good 1).op = .run ∧ (ranA .good 1).settled = true ∧
    (ranA .good 1).boot.runAt + tkS ((ranA .good 1).fld F.cfgBootCfg_stable_s) ≤ (ranA .good 1).tim.lt ∧
    (ranA .good 1).servesReg .pcie .cfgRestart 0 = true ∧ F.cfgRestart_go.of 0x80000000 = 1 ∧ F.cfgRestart_kind.of 0x80000000 = 0 ∧
    minimalS.op = .minimal ∧ minimalS.servesReg .pcie .cfgRestart 0 = true ∧ F.cfgRestart_kind.of 0x80000001 = 1 ∧
    F.cfgRestart_slot_sel.of 0x80000001 = 0 ∧ minimalS.mram.boot.read.isSome = true ∧
    (ranA .trial 0).boot.fwTrial = true ∧ (ranA .trial 0).bcr.st (ranA .trial 0).boot.runSlot = .trial ∧
    (ranA .trial 0).pair.safe = none ∧ (ranA .trial 0).fabricOn = true ∧ (ranA .trial 0).op = .run ∧ (ranA .good 1).pair.safe = none ∧
    inSafe.servesReg .fw .cfgRestart 0 = true ∧ inSafe.op = .run ∧ inSafe.pair.safe.isSome = true ∧
    (ranA .trial 0).boot.runAt + tkS ((ranA .trial 0).fld F.updTrialCfg_confirm_s) < (ranA .trial 0).tim.lt := by decide +kernel

def shadow : Shadow := ⟨0, csetDigest, 1, Cset.empty⟩
def withShadow : State := { flds [(F.cfgLoadStat_done, 0, 1)] (ranA .good 0) with boot := { (ranA .good 0).boot with shadow := some shadow } }
def onTrial : State :=
  { ranA .good 0 with
    boot := { (ranA .good 0).boot with trialAt := some 0 }
    mram := { (ranA .good 0).mram with boot := ⟨some (1, { rec_ 0 .good .empty with csetTrial := true }), none⟩ } }

/-- A load is asked for and not done; a load runs under another name of the slot; and RUN whose cleanup is due. -/
def loadSet_ : State := flds [(F.cfgShadowCtrl_load, 0, 1)] (ranA .good 0)
def cleans : State := { ranA .good 0 with boot := { (ranA .good 0).boot with cleanup := true } }

theorem wit_ShadowSetsSwapAndTrial : (ranA .good 0).servesReg .pcie .cfgShadowCtrl 0 = true ∧ F.cfgShadowCtrl_discard.of 0x80000001 = 0 ∧
    F.cfgShadowCtrl_load.of 0x80000001 = 1 ∧ (ranA .good 0).op = .run ∧ (ranA .good 0).on F.cfgShadowCtrl_load = false ∧
    loadSet_.op = .run ∧ loadSet_.servesReg .pcie .cfgShadowCtrl 0 = true ∧ loadSet_.on F.cfgShadowCtrl_load = true ∧
    onTrial.op = .run ∧ onTrial.on F.cfgShadowCtrl_load = false ∧ withShadow.servesReg .pcie .cfgShadowCtrl 0 = true ∧
    withShadow.pair.mode ≠ .split ∧ onTrial.servesReg .pcie .cfgSwapCtrl 0 = true ∧ (ranA .good 0).loadBusy = false ∧ (ranA .good 0).boot.shadow = none ∧
    onTrial.servesReg .pcie .cfgShadowCtrl 0 = true ∧ onTrial.loadBusy = true ∧
    F.cfgShadowCtrl_discard.of 0x40000000 = 1 ∧ F.cfgShadowCtrl_load.of 0x40000000 = 0 ∧ withShadow.boot.shadow.isSome = true ∧
    withShadow.servesReg .pcie .cfgSwapCtrl 0 = true ∧ F.cfgSwapCtrl_swap_go.of 0xA0000000 = 1 ∧ F.cfgSwapCtrl_confirm.of 0xA0000000 = 0 ∧
    withShadow.boot.shadow = some shadow ∧ withShadow.on F.cfgLoadStat_done = true ∧ withShadow.fld F.cfgLoadStat_code = 0 := by
  decide +kernel

theorem wit_ShadowSetsSwapAndTrial_trial : F.cfgSwapCtrl_swap_go.of 0x40000000 = 0 ∧ F.cfgSwapCtrl_confirm.of 0x40000000 = 1 ∧
    onTrial.bcr.csetTrial = true ∧ onTrial.boot.reverting = false ∧ onTrial.fabricOn = true ∧ onTrial.op = .run ∧
    onTrial.boot.trialAt = some 0 ∧ onTrial.boot.loading = none ∧ onTrial.boot.cleanup = false ∧
    0 + tkS (onTrial.fld F.cfgBootCfg_cset_confirm_s) < onTrial.now ∧ onTrial.bcr.prev = some ⟨1, csetDigest⟩ ∧
    cleans.fabricOn = true ∧ cleans.boot.cleanup = true ∧ cleans.oldHeld = false ∧ cleans.on F.memFlipCtrl_arm = false ∧
    tblWf cleans.net.tabs = true ∧
    (runLoad 1).fabricOn = true ∧ (runLoad 1).op = .run ∧ (runLoad 1).boot.loading = some 1 ∧ (runLoad 1).boot.reverting = false ∧
    (match (runLoad 1).shadowCheck 1 false with | .ok _ => false | .error c => c == 3) = true := by decide +kernel

theorem wit_ShadowSetsSwapAndTrial_load : (runLoad 0).boot.loading = some 0 ∧ ∃ i, (runLoad 0).shadowCheck 0 false = .ok i := by
  refine ⟨rfl, ?_⟩
  obtain ⟨i, hi, hv, hn, -⟩ := csetImage_at (runLoad 0) rfl rfl rfl
  have hs : (runLoad 0).slotAt (2 + 0) = (0x40000, 0x10000) := by decide +kernel
  have hb : (runLoad 0).boot.csetVer = 0 := rfl
  refine ⟨i, ?_⟩
  unfold State.shadowCheck
  rw [hs, hi]
  simp [hn, hv, hb]

theorem wit_NvsStoreResults : (with_ [(.nvsStoreLen, 0, 1024)]).servesReg .pcie .nvsStoreCmd 0 = true ∧
    F.nvsStoreCmd_go.of 0x8007FC00 = 1 ∧ F.nvsStoreCmd_region.of 0x8007FC00 = 7 ∧ F.nvsStoreCmd_offset.of 0x8007FC00 % 8 = 0 ∧
    (with_ [(.nvsStoreLen, 0, 1024)]).fld F.nvsStoreLen_len % 8 = 0 ∧ 8 ≤ (with_ [(.nvsStoreLen, 0, 1024)]).fld F.nvsStoreLen_len ∧
    (with_ [(.nvsStoreLen, 0, 1024)]).fld F.nvsStoreLen_len ≤ 1024 ∧
    F.nvsStoreCmd_offset.of 0x8007FC00 + (with_ [(.nvsStoreLen, 0, 1024)]).fld F.nvsStoreLen_len ≤ 0x10000 ∧
    F.nvsStoreCmd_region.of 0x80030000 ≠ 7 ∧ F.nvsStoreCmd_offset.of 0x80070004 % 8 ≠ 0 := by decide +kernel

/-- RUN with a directory, a session and a message in the window of PCIe: 32 bytes of digest, type FWIM, size 0x10000. -/
def updS (st : SessSt) (a : SlotSt) : State :=
  let s := { ranA a 0 with flash := place 0 dirB }
  let s := s.winPut .pcie updWin (List.replicate 32 7 ++ [1, 0, 0, 0] ++ beBytes 4 0x10000)
  { s with mram := { s.mram with sess := ⟨some (1, ⟨st, false, ⟨true, 3⟩, [], List.replicate 32 9, 8192, 1, [], 0⟩), none⟩ },
           pwr := { s.pwr with idleAt := s.now } }

theorem wit_UpdateSessions_open : (updS .none .good).servesReg .pcie .updCmd 0 = true ∧ F.updCmd_go.of 0x81030000 = 1 ∧
    F.updCmd_op.of 0x81030000 = 1 ∧ fieldAt ((updS .none .good).winBytes .pcie updWin 40) 32 1 = 1 ∧ (updS .none .good).trialOf false = false ∧
    256 ≤ fieldAt ((updS .none .good).winBytes .pcie updWin 40) 36 4 ∧
    fieldAt ((updS .none .good).winBytes .pcie updWin 40) 36 4 ≤ ((updS .none .good).slotAt (1 - (updS .none .good).bcr.primary)).2 ∧
    (updS .none .good).mram.session.live = false ∧ (updS .receiving .good).mram.session.live = true ∧
    (updS .receiving .good).mram.session.digest ≠ ((updS .receiving .good).winBytes .pcie updWin 40).take 32 ∧
    (updS .receiving .good).idleS < 259200 := by decide +kernel

theorem crcRight_lt {poly r : Nat} (hp : poly < 2 ^ 32) (hr : r < 2 ^ 32) : crcRightBit poly r < 2 ^ 32 := by
  unfold crcRightBit
  split
  · exact Nat.xor_lt_two_pow (by omega) hp
  · omega

theorem crcRun_lt (bs : List Byte) : ∀ c : Nat, c < 2 ^ 32 → crc32Run 0x82F63B78 c bs < 2 ^ 32 := by
  induction bs with
  | nil => intro c h; exact h
  | cons b bs ih =>
    intro c h
    refine ih _ ?_
    have hb : b.toNat < 2 ^ 32 := by have := b.isLt; omega
    have : ∀ (l : List Nat) (r : Nat), r < 2 ^ 32 → l.foldl (fun r _ => crcRightBit 0x82F63B78 r) r < 2 ^ 32 := by
      intro l
      induction l with
      | nil => intro r h; exact h
      | cons a l ih => intro r h; exact ih _ (crcRight_lt (by decide) h)
    exact this _ _ (Nat.xor_lt_two_pow h hb)

theorem crc32c_lt (bs : List Byte) : crc32c bs < 2 ^ 32 := Nat.xor_lt_two_pow (crcRun_lt bs _ (by decide)) (by decide)

/-- A state with a word in the argument of the update commands, and what that leaves. -/
def argOf (s : State) (v : Nat) : State := with_ [(.updArg, 0, v)] s

theorem argOf_arg (s : State) (v : Nat) : (argOf s v).rd .updArg (updInst .pcie) = BitVec.ofNat 32 v := by
  simp [argOf, with_, updInst]

theorem argOf_win (s : State) (v : Nat) : (argOf s v).winBytes .pcie updWin 4096 = s.winBytes .pcie updWin 4096 := by
  simp [argOf, with_, State.winBytes, State.wr]

/-- The word that the window of a state asks for, and another. -/
theorem argOf_crc (s : State) :
    let c := crc32c (s.winBytes .pcie updWin 4096)
    crc32c ((argOf s c).winBytes .pcie updWin 4096) = ((argOf s c).rd .updArg (updInst .pcie)).toNat ∧
    crc32c ((argOf s (c + 1)).winBytes .pcie updWin 4096) ≠ ((argOf s (c + 1)).rd .updArg (updInst .pcie)).toNat := by
  intro c
  have h : c < 2 ^ 32 := crc32c_lt _
  rw [argOf_win, argOf_win, argOf_arg, argOf_arg]
  simp only [BitVec.toNat_ofNat]
  omega

theorem wit_UpdateSessions_chunk (v : Nat) : (argOf (updS .receiving .good) v).servesReg .pcie .updCmd 0 = true ∧
    F.updCmd_op.of 0x82030001 = 2 ∧ (argOf (updS .receiving .good) v).mram.session.st = .receiving ∧
    (argOf (updS .receiving .good) v).mram.session.owner = ⟨true, F.updCmd_source.of 0x82030001⟩ ∧
    F.updCmd_chunk.of 0x82030001 < ((argOf (updS .receiving .good) v).mram.session.size + 4095) / 4096 ∧
    (argOf (updS .receiving .good) v).mram.session.bitmap.contains (F.updCmd_chunk.of 0x82030001) = false := by
  have h : ∀ s : State, (argOf s v).mram = s.mram := fun s => by simp [argOf, with_, State.wr]
  rw [h]
  refine ⟨rfl, by decide +kernel, by decide +kernel, by decide +kernel, by decide +kernel, by decide +kernel⟩

/-- RUN from slot B, with a session whose file is the FWIM in slot A. -/
def verifies : State :=
  { bootS (some { rec_ 0 .receiving .good with primary := 1 }) with
    op := .run
    mram := { (bootS (some { rec_ 0 .receiving .good with primary := 1 })).mram with
      sess := ⟨some (1, ⟨.verifying, false, ⟨true, 3⟩, [], sha256 fwimB, 260, 0, [], 0⟩), none⟩ } }

theorem wit_UpdateSessions_verified : verifies.fabricOn = true ∧ verifies.mram.session.st = .verifying ∧
    verifies.updCheck verifies.mram.session = 0 := by
  refine ⟨by decide +kernel, by decide +kernel, ?_⟩
  obtain ⟨i, hi, hv⟩ := ok_of wit_fwimImage
  have hv := of_decide_eq_true hv
  have ha : verifies.slotAt verifies.mram.session.at_ = (0x20000, 0x10000) := by decide +kernel
  have hc : verifies.mram.session.cset = false := by decide +kernel
  have hs : sha256 (verifies.flashBytes 0x20000 verifies.mram.session.size) = verifies.mram.session.digest := by decide +kernel
  have hr : verifies.verIn verifies.bcr.primary = 0 := by decide +kernel
  have hm : verifies.bcr.secMin = 0 := by decide +kernel
  unfold State.updCheck
  rw [ha, hc]
  simp only [imageCheck_of (bootS none) verifies rfl rfl rfl, hi, hs, hr, hm, hv.1, hv.2]
  simp

theorem wit_UpdateSessions : F.updCmd_op.of 0x83030000 = 3 ∧ (updS .receiving .good).mram.session.live = true ∧
    (updS .receiving .good).mram.session.owner ≠ ⟨true, F.updCmd_source.of 0x83040000⟩ ∧ F.updCmd_op.of 0x84030000 = 4 ∧
    (updS .none .verified).mram.session.cset = false ∧ (updS .none .verified).bcr.stA = .verified ∧ F.updCmd_op.of 0x85030000 = 5 ∧
    (updS .none .trial).op = .run ∧ (updS .none .trial).boot.fwTrial = true ∧
    (updS .none .trial).bcr.st (updS .none .trial).boot.runSlot = .trial ∧ (updS .verifying .good).fabricOn = true ∧
    (updS .verifying .good).mram.session.st = .verifying ∧ (ranA .good 0).op ≠ .off ∧
    (ranA .good 0).mram.session.idle + 3600 ≤ (ranA .good 0).idleS := by decide +kernel



/-! ## Frames through the switch -/

/-- A port 15 in RUN with its link up and preemption enabled. -/
def up15 : State := flds [(F.macPortStat_link_up, 15, 1), (F.tgaPreemptCfg_en, 15, 1)]

/-- A reception that has brought some bytes, of a frame of 64 to 1522 bytes. -/
def rx_ (frm : Option Nat) (got : List Byte) (frags : Nat) : RxSt :=
  ⟨0, 0, [0, 0, 0, 0], 0, 1522, false, 0, false, frm, got, none, none, false, false, frags, false⟩

/-- Port 15 in a reception, and with the frame of it in the pipeline. -/
def receiving (pre : Bool) (frm : Option Nat) (got : List Byte) (frags : Nat) : State :=
  { up15.setRx 15 pre (some (rx_ frm got frags)) with
    net := { (up15.setRx 15 pre (some (rx_ frm got frags))).net with
      frames := [(1, { Frm.blank with inPort := 15, orig := got, inRx := true, refs := 1 })] } }

theorem wit_FramesAreReceivedAndChecked_start : up15.forwards = true ∧ up15.linkUp 15 = true ∧ up15.on F.tgaPreemptCfg_en 15 = true ∧
    (up15.port 15).reception true = none ∧ (receiving true none [] 0).forwards = true ∧ (receiving true none [] 0).linkUp 15 = true ∧
    (receiving true none [] 0).on F.tgaPreemptCfg_en 15 = true ∧ ((receiving true none [] 0).port 15).reception true ≠ none := by
  decide +kernel

theorem wit_FramesAreReceivedAndChecked : ((receiving true none [] 0).port 15).reception true = some (rx_ none [] 0) ∧
    (rx_ none [] 0).hold = none ∧ (rx_ none [] 0).gone = false ∧ (rx_ none [] 0).past = false ∧
    (receiving true none [] 0).pairOn 15 = false ∧ (rx_ none [] 0).maxLen < (zs 1519).length + 4 ∧
    (zs 59).length + 4 < 64 ∧ 64 ≤ (zs 60).length + 4 ∧ (zs 60).length + 4 ≤ (rx_ none [] 0).maxLen ∧
    (receiving true none [] 0).secyRx 15 = false ∧ (0 : BitVec 32).toNat ≠ crc32 (zs 60) ∧
    (BitVec.ofNat 32 (crc32 (zs 60))).toNat = crc32 (zs 60) ∧ (rx_ none [] 0).frags = 0 ∧ (zs 127).length < 128 ∧ 128 ≤ (zs 128).length ∧
    (rx_ none [] 0).maxLen ≤ ((rx_ none [] 0).got ++ zs 1522).length := by
  decide +kernel

theorem wit_FrameEndsInThePipeline : ((receiving false (some 1) (zs 128) 0).port 15).reception false = some (rx_ (some 1) (zs 128) 0) ∧
    ((receiving false (some 1) (zs 128) 0).frm 1).inRx = true ∧ ((receiving false (some 1) (zs 128) 0).frm 1).bad = false ∧
    (rx_ (some 1) (zs 128) 0).strip = none ∧ (rx_ (some 1) (zs 128) 0).past = false ∧ (rx_ (some 1) (zs 128) 0).frags = 0 ∧ (rx_ (some 1) (zs 128) 0).maxLen ≤ (zs 128 ++ zs 1394).length ∧
    (zs 128 ++ zs 1390).length + 4 ≤ (rx_ (some 1) (zs 128) 0).maxLen ∧ 64 ≤ (zs 128 ++ zs 1390).length + 4 := by
  decide +kernel

/-- A held frame at P17 and the host's port, rings and windows in use. -/
def heldFrm : HeldFrm := ⟨{ rx_ none [] 0 with hold := some (0, 1, zs 16) }, zs 100⟩
def inner : State :=
  let s := flds [(F.macPortStat_link_up, 15, 1), (F.tgaPreemptCfg_en, 15, 1), (F.qmgPortLim_host_en, 16, 1), (F.hbrDmaCfg_dma_en, 0, 1),
    (F.hbrTxRingCfg_en, 7, 1), (F.hbrTxRingCfg_size_log, 7, 6), (F.hbrTxRingTail_tail, 7, 3)]
  let s := s.setRx 15 true (some (rx_ none (zs 60) 5))
  s.setPort 14 { s.port 14 with held := [heldFrm] }

theorem wit_FragmentsHeldAndInnerFrames : inner.linkUp 15 = true ∧ inner.on F.tgaPreemptCfg_en 15 = true ∧
    (inner.port 15).rxp = some (rx_ none (zs 60) 5) ∧ (zs 60 ++ zs 67).length < 128 ∧ 128 ≤ (zs 60 ++ zs 68).length ∧ inner.secyRx 15 = false ∧
    inner.pairOn 15 = false ∧ (zs 60 ++ zs 68).length ≤ (rx_ none (zs 60) 5).maxLen ∧ (1 : Fin 4).val = (rx_ none [] 5).frags % 4 ∧ (2 : Fin 4).val ≠ (rx_ none [] 5).frags % 4 ∧
    inner.fabricOn = true ∧ (inner.port 14).held = [heldFrm] ∧ heldFrm.rx.hold = some (0, 1, zs 16) ∧ inner.memClean = true ∧
    inner.forwards = true ∧ inner.pair.halted = false ∧ inner.secyRx 17 = false ∧ (zs 60).length + 4 ≤ inner.fld F.macMaxFrame_max_len 17 ∧
    (zs 59).length + 4 < 64 ∧ inner.ringRuns false 7 = true ∧ 3 ≤ inner.ringAvail false 7 ∧ inner.linkUp 16 = true ∧
    inner.fld F.hbrTxRingCfg_size_log 7 ≤ 12 ∧
    (zs 60).length + 4 ≤ inner.fld F.macMaxFrame_max_len 16 ∧ inner.fld F.macMaxFrame_max_len 16 < (zs 9216).length + 4 := by
  decide +kernel

/-- Frame 1, whole, with one copy in a class queue of port 15, and with that copy in transmission. -/
def cp15 : Copy := ⟨1, 15, 127, 7, 1, false, .plain, 0⟩
def tx15 : TxCopy := ⟨cp15, 0, 0, [0, 0, 0, 0], 0, none, false, none, false, 0, 0, 0, false, none, none, none, 0⟩
def queued : State :=
  { up15 with net := { up15.net with
      frames := [(1, { Frm.blank with orig := zs 2000, bytes := zs 2000, tail := true, refs := 1 })], queues := [(127, [cp15])] } }
def sending (t : TxCopy) (pre : Bool) : State :=
  let s := { queued with net := { queued.net with queues := [] } }
  s.setPort 15 (if pre then { s.port 15 with pre := some t } else { s.port 15 with exp := some t })

theorem wit_CopiesBeginAndEnd : queued.forwards = true ∧ queued.linkUp 15 = true ∧ queued.quiet = false ∧ queued.plcaHeld 15 = false ∧
    (queued.port 15).exp = none ∧ (queued.port 15).pre = none ∧ queued.heads 15 = [cp15] ∧ queued.eligibleCopy cp15 = true ∧
    queued.secyTx 15 = false ∧ queued.memClean = true ∧ queued.pairOn 15 = false ∧ queued.segBusy 15 = false ∧ (sending tx15 false).lanesOff 15 = false ∧ up15.heads 15 = [] ∧ ((sending tx15 false).port 15).exp = some tx15 ∧
    ((sending tx15 false).port 15).pre = none ∧ ((sending tx15 false).frm 1).tail = true ∧ ((sending tx15 false).frm 1).leg = none := by
  decide +kernel

/-- Port 15 in the verification of preemption. -/
def verif (n : Nat) : State := at_ 8000000 (up15.setPort 15 { up15.port 15 with ver := ⟨2, false, n, 0⟩ })

/-- A state with the verification of port 15 passed. -/
def verified (s : State) : State := s.setPort 15 { s.port 15 with ver := ⟨3, true, 1, 0⟩ }
/-- Port 15 asked to cut its copy at its first byte. -/
def cutting : State := verified (sending { tx15 with cut := some 0 } true)

/-- A tide table of one second that closes every gate after 100 us, at the tick before 100 us. -/
def closing : State :=
  let s := (flds [(F.tgaCfg_en, 15, 1), (F.timDomCfg_en, 0, 1)] (verified (sending { tx15 with under := true } true)))
  let s := { s with net := { s.net with tides := [(15, { Tide.reset with run := some ⟨0, 1000000000, 0, 0, [(255, 100000, 0), (0, 900000, 0)]⟩ })] } }
  at_ 79999 { s with tim := { s.tim with doms := [(0, { Dom.reset with val := 99999 * 2 ^ 48 })] } }

theorem wit_PreemptionProtocol : (verif 2).fabricOn = true ∧ ((verif 2).port 15).ver.status = 2 ∧ ((verif 3).port 15).ver.status = 2 ∧
    ((verif 2).port 15).ver.since + tkMs ((verif 2).fld F.tgaPreemptCfg_verify_ms 15) ≤ (verif 2).tim.lt ∧
    (verif 2).linkUp 15 = true ∧ (verif 2).on F.tgaPreemptCfg_en 15 = true ∧ (verif 2).quiet = false ∧
    (cutting.port 15).pre = some { tx15 with cut := some 0 } ∧ cutting.forwards = true ∧ (cutting.port 15).exp = none ∧
    (cutting.port 15).ver.active = true ∧ cutting.lanesOff 15 = false ∧
    (60 : BitVec 14).toNat = max 0 (60 + 64 * cutting.fld F.tgaPreemptCfg_add_frag_size 15) ∧
    0 + 60 + 64 ≤ cutting.txLen { tx15 with cut := some 0 } := by decide +kernel

theorem wit_PreemptionProtocol_hold : (closing.port 15).pre = some { tx15 with under := true } ∧ closing.forwards = true ∧
    (closing.port 15).ver.active = true ∧ closing.gateOpen 15 7 = true ∧
    (closing.tideView 15).closing 7 (closing.tideNow 15) = some 100000 ∧
    slack (closing.tideVal 15) (closing.holdBytes 15) (closing.operRate 15) 100000 ≤ 0 := by decide +kernel

/-- A fence of port 15 whose limit has passed, with a copy of the older epoch. -/
def fenced : State :=
  at_ 800000000 { queued with net := { queued.net with fences := [⟨15, 1, 0⟩] } }

theorem wit_LinksFencesAndAudit : (flds [(F.macPortCfg_en, 15, 1)]).fabricOn = true ∧ (flds [(F.macPortCfg_en, 15, 1)]).linkUp 15 = false ∧
    (flds [(F.macPortCfg_en, 15, 1)]).on F.macPortCfg_en 15 = true ∧
    ({ flds [(F.macPortCfg_en, 15, 1)] with phys := { runS.phys with phyLock := [15] } } : State).phys.phyLock.contains 15 = true ∧
    runS.pair.safe = none ∧ (flds [(F.macPortCfg_en, 15, 1)]).modeOk 15 0 = true ∧ up15.linkUp 15 = true ∧
    fenced.net.fences.find? (fun y => y.port == 15) = some ⟨15, 1, 0⟩ ∧
    0 + tkUs (fenced.fld F.cfgSwapFenceLim_limit_us) ≤ fenced.tim.lt ∧ (fenced.waitingAt 15).filter (fun c => c.epoch != 1) = [cp15] ∧
    tblWf queued.net.frames = true ∧ (queued.frm 1).inRx = false ∧ queued.holders 1 ≠ 0 ∧ (sending tx15 false).holders 1 ≠ 0 ∧
    ({ queued with net := { queued.net with queues := [] } } : State).holders 1 = 0 := by
  decide +kernel


/-! ## Limits, shapers, meters and gates -/

/-- The last stream queue with a limit and a guarantee; with an enabled bucket in debt; and a meter above half its burst size. -/
def shaped : State :=
  let s := flds [(F.qmgSLim_limit, 1023, 100), (F.schSTbRate_en, 1023, 1), (F.schSTbDepth_depth, 1023, 2000), (F.schCbsSlope_en, 143, 1),
    (F.mtrCtrl_en, 2047, 1), (F.mtrCbs_cbs, 2047, 3000), (F.schMaxwait_max_wait_us, 143, 1)]
  { s with net := { s.net with levels := [(1167, -6400000)], qsched := [(143, ⟨0, 0, 800, false, 0⟩)] } }

theorem wit_LimitsAndHighWaterMarks : let r := qReg 1167 .qmgQLim .qmgSLim
    shaped.servesReg .pcie r.1 r.2 = true ∧ 8 ≤ F.qmgQLim_limit.of 0x00080000 ∧
    shaped.sumMin - shaped.qMin 1167 + F.qmgQLim_min.of 0x00080000 + 512 + shaped.fld F.skyCellLim_limit ≤ 65536 ∧
    65536 < shaped.sumMin - shaped.qMin 1167 + F.qmgQLim_min.of 0xFFFFFFFF + 512 + shaped.fld F.skyCellLim_limit ∧
    (qReg 1167 .qmgQCol .qmgSCol).1 = .qmgSCol ∧ shaped.servesReg .pcie .qmgSCol 1023 = true ∧ (1167 : Fin 1168).val % 18 ≠ 16 ∧
    shaped.servesReg .pcie .qmgPortLim (1167 % 18) = true ∧ shaped.servesReg .pcie .skyCellLim 0 = true ∧
    64 ≤ F.skyCellLim_limit.of 64 ∧ F.skyCellLim_limit.of 32768 ≤ 32768 ∧ shaped.sumMin + 512 + F.skyCellLim_limit.of 64 ≤ 65536 ∧
    65536 < (flds ((List.range 144).map fun q => (F.qmgQLim_min, q, 300))).sumMin + 512 + F.skyCellLim_limit.of 32768 ∧
    shaped.servesReg .pcie .qmgPortLim 16 = true ∧ 8 ≤ F.qmgPortLim_limit.of 0x80010000 ∧ F.qmgPortLim_limit.of 0x80010000 ≤ 65536 ∧
    shaped.linkUp 16 = false ∧ F.qmgPortLim_host_en.of 0x80010000 = 1 ∧
    (flds [(F.qmgPortLim_host_en, 16, 1)]).linkUp 16 = true ∧ F.qmgPortLim_host_en.of 0x00000008 = 0 ∧
    shaped.servesReg .pcie .qmgPoolHwm 0 = true ∧ shaped.poolUsed ≤ 65536 ∧ shaped.servesReg .pcie .qmgSharedHwm 0 = true ∧
    shaped.sharedUsed ≤ 65536 ∧ shaped.servesReg .pcie .qmgPortHwm 17 = true ∧ shaped.occPort 17 ≤ 65536 := by decide +kernel

theorem wit_ShaperAndMeterParameters : let r := qReg 1167 .schTbRate .schSTbRate
    let d := qReg 1167 .schTbDepth .schSTbDepth
    shaped.servesReg .fw r.1 r.2 = true ∧ shaped.tbOn 1167 = true ∧ F.schTbRate_en.of 0x80000001 = 1 ∧ runS.tbOn 1167 = false ∧
    shaped.servesReg .fw d.1 d.2 = true ∧ shaped.tbLevel 1167 = -6400000 ∧ shaped.servesReg .fw .schCbsSlope 143 = true ∧
    shaped.servesReg .fw .mtrCbs 2047 = true ∧ shaped.on F.mtrCtrl_en 2047 = true ∧
    shaped.servesReg .fw .mtrEbs 2047 = true ∧ shaped.servesReg .fw .mtrCtrl 2047 = true ∧ F.mtrCtrl_en.of 0x80000000 = 1 ∧
    shaped.servesReg .fw .mtrCir 2047 = true ∧ shaped.servesReg .fw .mtrPir 2047 = true ∧
    (shaped.mtrLevel 2047).1 ≤ (shaped.mtrFull 2047).1 ∧ (shaped.mtrLevel 2047).2 ≤ (shaped.mtrFull 2047).2 ∧
    shaped.fld F.schMaxwait_max_wait_us 143 ≠ 0 ∧ tkUs (shaped.fld F.schMaxwait_max_wait_us 143) ≤ (shaped.qs 143).timer ∧
    (shaped.qs 143).urgent = false := by decide +kernel

/-- Admin values of one entry of 1 ms at port 15 and gate 255, and both with a schedule that is due. -/
def tided : State :=
  with_ [(.tgaAdminCycle, 15, 1000000), (.tgaAdminLen, 15, 1), (.tgaAdminEntry, 1024 * 15, 0xFF0F4240), (.schGateCycle, 255, 1000000),
    (.schGateList, 255, 0x07FF0001), (.schGateAdmin0, 2047, 0x800F4240)] (flds [(F.timDomCfg_en, 0, 1)])
def sched1 : Sched := ⟨0, 1000000, 0, 0, [(255, 1000000, 0)]⟩
def due_ : State :=
  let t : Tide := { Tide.reset with pend := some (sched1, 0) }
  { tided with net := { tided.net with tides := [(15, t)], gates := [(255, t)] } }

theorem wit_TideTablesAndStreamGates : tided.servesReg .spi .tgaCfg 15 = true ∧ (tided.tide 15).pend = none ∧ F.tgaCfg_commit.of 0xC0000000 = 1 ∧
    F.tgaCfg_cancel.of 0xC0000000 = 0 ∧ F.tgaCfg_dom.of 0xC0000000 = tided.fld F.tgaCfg_dom 15 ∧
    tided.schedOk (tided.fld F.tgaAdminLen_list_len 15) (tided.tideAdmin 15) = true ∧
    runS.schedOk (runS.fld F.tgaAdminLen_list_len 15) (runS.tideAdmin 15) = false ∧ F.tgaCfg_cancel.of 0xA0000000 = 1 ∧
    F.tgaCfg_commit.of 0xA0000000 = 0 ∧ due_.fabricOn = true ∧ (due_.tide 15).pend = some (sched1, 0) ∧ due_.due (due_.tide 15) = true ∧
    due_.memClean = true ∧ tided.mem.merge = [] := by decide +kernel

theorem wit_TideTablesAndStreamGates_gate : tided.servesReg .spi .schGateCfg 255 = true ∧ (tided.gate 255).pend = none ∧
    F.schGateCfg_commit.of 0xC0000000 = 1 ∧ F.schGateCfg_domain.of 0xC0000000 = tided.fld F.schGateCfg_domain 255 ∧
    (∃ r, tided.gateAdmin 255 = some r ∧ tided.schedOk (tided.fld F.schGateList_list_len 255) r = true) ∧
    (due_.gate 255).pend = some (sched1, 0) ∧ due_.due (due_.gate 255) = true :=
  ⟨by decide +kernel, by decide +kernel, by decide +kernel, by decide +kernel, ⟨_, rfl, by decide +kernel⟩, by decide +kernel, by decide +kernel⟩


/-! ## Classifier tables and connections -/

/-- A rule of zero key with epoch bit 0, staged; the last overflow entry of bank 3 that holds it; and bank 3 with no place left. -/
def rule0 : List Word := List.replicate 15 0 ++ [0x80000001]
def stagedRule : State := with_ [(.clsEntData, 15, 0x80000001), (.clsEntIndex, 0, 33279)]
def ruled : State := stagedRule.setEnt 1 0 33279 rule0
def other : List Word := List.replicate 14 0 ++ [1, 0x80000001]
def full3 : State :=
  let b := 3 * 8192 + stagedRule.ruleBucket 3 (rule0.take 12) * 4
  let x : List Word := List.replicate 12 1 ++ [0, 0, 0, 0x80000001]
  let l := (List.range 4).map (fun w => (tabKey 1 0 (b + w), x)) ++ (List.range 128).map (fun w => (tabKey 1 0 (33152 + w), x))
  { stagedRule with net := { stagedRule.net with tabs := l } }

theorem wit_ClassifierTableCommands : stagedRule.servesReg .pcie .clsEntCmd 0 = true ∧
    ({ stagedRule with boot := { stagedRule.boot with loading := some 0 } } : State).loaderHolds = true ∧ stagedRule.loaderHolds = false ∧
    actReserved stagedRule.clsStaged = false ∧ stagedRule.hostMask (eb stagedRule.clsStaged 15 1 0) = true ∧
    ruled.ruleFind 3 ruled.clsStaged (fun m => (m &&& eb ruled.clsStaged 15 1 0) != 0) = some 33279 ∧
    stagedRule.ruleFind 3 stagedRule.clsStaged (fun m => (m &&& eb stagedRule.clsStaged 15 1 0) != 0) = none ∧
    (stagedRule.freeEnt 1 (3 * 8192) (stagedRule.ruleBucket 3 (stagedRule.clsStaged.take 12)) (32768 + 3 * 128) 128 entValid).isSome = true ∧
    full3.ruleFind 3 full3.clsStaged (fun m => (m &&& eb full3.clsStaged 15 1 0) != 0) = none ∧
    full3.freeEnt 1 (3 * 8192) (full3.ruleBucket 3 (full3.clsStaged.take 12)) (32768 + 3 * 128) 128 entValid = none ∧
    ruled.ruleFind 3 ruled.clsStaged (· == eb ruled.clsStaged 15 1 0) = some 33279 ∧ ruled.fld F.clsEntIndex_index = 33279 ∧
    stagedRule.mem.merge = [] ∧ full3.mem.merge = [] ∧ stagedRule.on F.memFlipCtrl_arm = false ∧ ruled.on F.memFlipCtrl_arm = false ∧
    full3.on F.memFlipCtrl_arm = false ∧ ruled.mem.errs = [] ∧ ruled.mem.parity = [] ∧ ruled.mem.merge = [] ∧ entValid (ruled.ent 1 0 33279) = true ∧
    (ruled.ent 1 0 33279).length = 16 ∧ entValid (stagedRule.ent 1 0 33279) = false := by decide +kernel

def conn0 : List Word := ctKey (zs 48) ++ [0, 0, 0, 0x80000000]

/-- A connection in the last overflow entry and a dynamic FDB entry, written at the first second, long ago. -/
def old : State :=
  at_ 80000000000000 (((runS.setEnt 3 0 133119 conn0).setEnt 0x10 0 66559 [0, 0, 0, 0xFFF00001]))
def fresh_ : State := { old with now := 800000000, tim := { old.tim with lt := 800000000 } }
def flow0 : Parse := ⟨1, 0, [], 0, none, none, none, none, false⟩

theorem wit_ExpiryAndSweep : flow0.kind = 1 ∧ old.ctFind (zs 48) 0 = (old, some (133119, conn0)) ∧
    old.ctExpired conn0 = true ∧ old.fabricOn = true ∧ entValid (old.ent 3 0 133119) = true ∧
    fresh_.ctExpired (fresh_.ent 3 0 133119) = false ∧ old.memClean = true ∧ old.mem.parity = [] ∧ old.on F.memFlipCtrl_arm = false ∧
   
    fdbValid (old.ent 0x10 0 66559) = true ∧ old.fdbExpired (old.ent 0x10 0 66559) = true ∧
    fresh_.fdbExpired (fresh_.ent 0x10 0 66559) = false ∧ fdbStatic (fresh_.ent 0x10 0 66559) = false := by decide +kernel

theorem wit_ExpiryAndSweep_hold : let s := fresh_.setEnt 0x10 0 66559 [0, 0, 0, 0x80000001]
    let t := fresh_.setEnt 0x10 0 66559 (eput [0, 0, 0, 0x80000001] 3 30 20 fresh_.nowMs)
    (s.fdbLookup 0 0 0).2.isSome = true ∧ s.fdbHeld (s.ent 0x10 0 66559) = false ∧ (s.ent 0x10 0 66559).length = 4 ∧
    t.fdbHeld (t.ent 0x10 0 66559) = true := by decide +kernel


/-! ## The forwarding database and streams -/

/-- A station of port 17 staged, with epoch bit 0, and the last overflow entry of the database with its address. -/
def fdbS : State := at_ 80000000000000 (with_ [(.fdbEntData, 2, 0x440), (.fdbEntData, 3, 0x80000001), (.fdbEntIndex, 0, 66559),
  (.fdbFlapCfg, 0, 0x00010001)])
def fdbE (w2 w3 : Word) : State := fdbS.setEnt 0x10 0 66559 [0, 0, w2, w3]
def fdbFull : State :=
  let x : List Word := [1, 0, 0, 0xFFF00001]
  let l := (List.range 4).map (fun w => (tabKey 0x10 0 (fdbS.fdbBucket 0 0 * 4 + w), x)) ++
    (List.range 1024).map (fun w => (tabKey 0x10 0 (65536 + w), x))
  { fdbS with net := { fdbS.net with tabs := l } }
def same_ (s : State) : List (Nat × List Word) :=
  (((s.fdbProbed 0 0).map fun n => (n, s.ent 0x10 0 n)).filter fun x => fdbKeyEq 0 0 x.2)
def nowWord (held : Bool) : Word :=
  putBits (putBits 0x80000001 19 4 (fdbS.nowS % 65536)) 30 20 (if held then fdbS.nowMs else 0x7FF)

theorem wit_ForwardingDatabaseCommands : fdbS.servesReg .spi .fdbEntCmd 0 = true ∧ fdbFid fdbS.fdbStaged = 0 ∧ fdbMac fdbS.fdbStaged = 0 ∧
    ({ fdbS with boot := { fdbS.boot with cleanup := true } } : State).loaderHolds = true ∧ fdbS.loaderHolds = false ∧
    same_ fdbS = [] ∧ (fdbS.freeEnt 0x10 0 (fdbS.fdbBucket 0 0) 65536 1024 fdbValid).isSome = true ∧
    same_ (fdbE 0x80000000 0xFFF00001) = [(66559, [0, 0, 0x80000000, 0xFFF00001])] ∧ fdbStatic [0, 0, 0x80000000, 0xFFF00001] = true ∧
    same_ (fdbE 0 0xFFF00001) = [(66559, [0, 0, 0, 0xFFF00001])] ∧ fdbStatic [0, 0, 0, 0xFFF00001] = false ∧
    fdbS.fdbExpired [0, 0, 0, 0xFFF00001] = true ∧
    same_ (fdbE 0x440 (nowWord false)) = [(66559, [0, 0, 0x440, nowWord false])] ∧ fdbS.fdbExpired [0, 0, 0x440, nowWord false] = false ∧
    fdbPort [0, 0, 0x440, nowWord false] = fdbPort fdbS.fdbStaged ∧ fdbPort [0, 0, 0, nowWord false] ≠ fdbPort fdbS.fdbStaged ∧
    fdbS.fdbHeld [0, 0, 0, nowWord false] = false ∧ fdbS.fdbExpired [0, 0, 0, nowWord true] = false ∧
    same_ (fdbE 0 (nowWord true)) = [(66559, [0, 0, 0, nowWord true])] ∧ fdbS.fdbHeld [0, 0, 0, nowWord true] = true ∧
    fdbS.flapRoll.net.flapN + 1 = fdbS.fld F.fdbFlapCfg_flap_thr ∧ fdbS.hostMask (eb fdbS.fdbStaged 3 1 0) = true ∧
    eb [0, 0, 0, 0xFFF00001] 3 1 0 = eb fdbS.fdbStaged 3 1 0 ∧ fdbS.fld F.fdbEntIndex_index = 66559 ∧
    fdbValid ((fdbE 0 0xFFF00001).ent 0x10 0 66559) = true ∧ fdbS.mem.errs = [] ∧ fdbS.mem.parity = [] ∧ fdbS.mem.merge = [] ∧ fdbS.on F.memFlipCtrl_arm = false ∧ fdbFull.mem.merge = [] ∧
    (fdbE 0 0xFFF00001).on F.memFlipCtrl_arm = false ∧
    tblWf (fdbE 0 0xFFF00001).net.tabs = true := by decide +kernel

def fullX : List Word := [1, 0, 0, 0xFFF00001]

theorem fdb_full : fdbFull.freeEnt 0x10 0 (fdbFull.fdbBucket 0 0) 65536 1024 fdbValid = none := by
  have hv : (List.range 4).find? (fun w => !fdbValid (fdbFull.ent 0x10 0 (0 + fdbFull.fdbBucket 0 0 * 4 + w))) = none := by decide +kernel
  have hb : fdbS.fdbBucket 0 0 < 16384 := by decide +kernel
  have hl : (fdbFull.listed 0x10 0 65536 (65536 + 1024)).filter (fun x => fdbValid x.2) =
      (List.range 1024).map fun w => (65536 + w, fullX) := by
    have ht : fdbFull.net.tabs = (List.range 4).map (fun w => (tabKey 0x10 0 (fdbS.fdbBucket 0 0 * 4 + w), fullX)) ++
        (List.range 1024).map (fun w => (tabKey 0x10 0 (65536 + w), fullX)) := rfl
    have hx : fdbValid fullX = true := by decide
    have hk : ∀ n, tabKey 0x10 0 n = 8388608 + n := fun n => rfl
    unfold State.listed
    rw [ht, List.filterMap_append, List.filterMap_map, List.filterMap_map, List.filterMap_eq_nil_iff.mpr, List.nil_append,
      List.filterMap_congr (g := some ∘ fun w => (65536 + w, fullX)), List.filterMap_eq_map, List.filter_eq_self.mpr]
    · intro a ha
      obtain ⟨w, -, rfl⟩ := List.mem_map.mp ha
      exact hx
    · intro w hw
      have := List.mem_range.mp hw
      simp only [hk, Function.comp]
      rw [if_pos (by omega)]
      simp only [Option.some.injEq, Prod.mk.injEq, and_true]
      omega
    · intro w hw
      have := List.mem_range.mp hw
      simp only [hk, Function.comp]
      rw [if_neg (by omega)]
  unfold State.freeEnt
  rw [hv]
  simp only [hl]
  have hf : (List.range (((List.range 1024).map fun w => (65536 + w, fullX)).length + 1)).find?
      (fun n => !((List.range 1024).map fun w => (65536 + w, fullX)).any fun x => x.1 == 65536 + n) = some 1024 := by
    simp only [List.length_map, List.length_range]
    rw [List.range_succ (n := 1024), List.find?_append, List.find?_eq_none.mpr ?_]
    · simp
      omega
    · intro n hn
      simpa using hn
  rw [hf]
  rfl

theorem tblGet_cases {α : Type} (l : Tbl α) (d : α) (k : Nat) : tblGet l d k = d ∨ ∃ x ∈ l, tblGet l d k = x.2 := by
  unfold tblGet
  induction l with
  | nil => exact .inl rfl
  | cons a l ih =>
    unfold tblFind
    split
    · exact .inr ⟨a, List.mem_cons_self, rfl⟩
    · rcases ih with h | ⟨x, hx, h⟩
      · exact .inl h
      · exact .inr ⟨x, List.mem_cons_of_mem _ hx, h⟩

theorem wit_ForwardingDatabaseCommands_full : same_ fdbFull = [] := by
  have h : ∀ n, fdbKeyEq 0 0 (fdbFull.ent 0x10 0 n) = false := by
    intro n
    unfold State.ent
    rcases tblGet_cases fdbFull.net.tabs (tabDefault 0x10) (tabKey 0x10 0 n) with e | ⟨x, hx, e⟩
    · rw [e]; decide
    · rw [e]
      have : x.2 = fullX := by
        rcases List.mem_append.mp hx with h | h <;> obtain ⟨w, -, rfl⟩ := List.mem_map.mp h <;> rfl
      rw [this]; decide
  simp [same_, h]

/-- Stream 4095 in use with recovery and reset_ms = 1; and a table entry whose words are damaged. -/
def strS : State := (at_ 80000000000000 (with_ [(.fdbFlapCfg, 0, 0xFFFF0001)])).setEnt 0x1A 0 4095 [0x80000000, 0, 0x40000200, 0, 0, 0, 0, 0]
def bad (id n : Nat) (s : State) : State :=
  let m := tabMem id
  if memParity m.1 then { s with mem := { s.mem with parity := [(memKey m.1 0 (m.2 + tabPos id 0 n), true)] } }
  else { s with mem := { s.mem with errs := [(memKey m.1 0 (m.2 + tabPos id 0 n * tabSize id / 2), .poison, 0)] } }

theorem wit_StreamResetsAndRepairs : strS.fabricOn = true ∧ 0 < tkMs (strS.fld F.fdbFlapCfg_flap_win_ms) ∧
    strS.net.flapAt + tkMs (strS.fld F.fdbFlapCfg_flap_win_ms) ≤ strS.tim.lt ∧
    (at_ 0 strS).tim.lt < (at_ 0 strS).net.flapAt + tkMs ((at_ 0 strS).fld F.fdbFlapCfg_flap_win_ms) ∧
    (strS.strState 4095).length = 16 ∧ strS.servesReg .pcie .fdbStrReset 0 = true ∧ F.fdbStrReset_stream_idx.of 4095 = 4095 ∧
    ebit (strS.strm strS.epoch 4095) 0 31 = true ∧ ebit (strS.strm strS.epoch 4095) 2 30 = true ∧
    ebit (strS.strState 4095) 1 31 = false ∧
    tblGet strS.net.lastOk 0 4095 + tkMs (eb (strS.strm strS.epoch 4095) 2 20 9) ≤ strS.tim.lt ∧ strS.pair.halted = false ∧ strS.on F.memFlipCtrl_arm = false := by
  decide +kernel

theorem wit_StreamResetsAndRepairs_damage : (bad 0x18 4095 strS).entBad 0x18 0 4095 = true ∧
    tblFind (bad 0x18 4095 strS).net.golden (tabKey 0x18 0 4095) = none ∧
    tblFind ({ bad 0x18 4095 strS with net := { strS.net with golden := [(tabKey 0x18 0 4095, [1, 2, 3, 4])] } } : State).net.golden
      (tabKey 0x18 0 4095) = some [1, 2, 3, 4] ∧
    (bad 0x1B 4095 strS).entBad 0x1B 1 4095 = true ∧ ((bad 0x1B 4095 strS).strState 4095).length = 16 ∧
    (bad 0x32 4095 (strS.setEnt 0x36 0 4095 [0xC0000000, 0, 0, 0])).entBad 0x32 0 4095 = true ∧
    fpPersist ((bad 0x32 4095 (strS.setEnt 0x36 0 4095 [0xC0000000, 0, 0, 0])).fparam strS.epoch 4095) = true ∧
    (strS.ent 0x32 0 4095).length = 4 ∧ strS.entBad 0x18 1 4095 = false := by decide +kernel


/-! ## Skerries and the Harbour -/

/-- A whole frame in the last Harbour slot, its descriptor, and Skerry 31 that holds it in a queue or a thread. -/
def d1 : Desc := ⟨1, 0, 8191, [(17, .plain)], false⟩
def sky1 (x : Skerry) (st : SlotState) : State :=
  let s := at_ 8000000 (with_ [(.skyResvMask, 0, 0x80000000)])
  let s := s.setEnt 0x30 0 0 [0x00400000, 1000, 0, 0, 0, 0, 0, 0]
  { s with net := { s.net with
      frames := [(1, { Frm.blank with inPort := 15, orig := zs 60, bytes := zs 60, tail := true, refs := 1 })], sky := [(31, x)]
      slots := [(8191, ⟨8191, 0, 1, true, st⟩)], ctxs := [(8191, ⟨zs 48, false, 15, 1, some (0, 0)⟩)] } }
def takes : State := sky1 ⟨[d1], [d1], [], 0, none⟩ (.pending none)
def runsD (t since : Nat) (st : SlotState) : State := sky1 ⟨[], [], [(t, ⟨d1, since, zs 60⟩)], 0, none⟩ st

/-- The same tick with the hold timer just started. -/
def young (s : State) : State := { s with net := { s.net with ctxs := [(8191, ⟨zs 48, false, 15, 1, some (0, 8000000)⟩)] } }

theorem wit_SkerryThreadsAndVerdicts : takes.fabricOn = true ∧ takes.skyOk 31 = true ∧ takes.memClean = true ∧ (runsD 3 0 (.pending none)).memClean = true ∧ tblFind (takes.skerry 31).threads 3 = none ∧
    (takes.skerry 31).norm = [d1] ∧ (takes.frm 1).tail = true ∧ takes.skyResv 31 = true ∧ (takes.skerry 31).resv = [d1] ∧
    tblFind ((runsD 3 0 (.pending none)).skerry 31).threads 3 = some ⟨d1, 0, zs 60⟩ ∧ (runsD 3 0 (.pending none)).slotWaits 8191 1 = true ∧
    (12 : Fin 13) ≠ 0 ∧ d1.dest ≠ [] ∧ (runsD 3 0 .void).slotWaits 8191 1 = false ∧
    (runsD 3 0 (.pending none)).hrbDue 8191 = true ∧ tblFind (runsD 3 0 (.pending none)).net.slots 8191 = some ⟨8191, 0, 1, true, .pending none⟩ ∧
    (runsD 3 0 (.pending none)).ctxWait 8191 ⟨zs 48, false, 15, 1, some (0, 0)⟩ = some (8191, ⟨8191, 0, 1, true, .pending none⟩) ∧
    (young (runsD 3 0 (.pending none))).hrbDue 8191 = false ∧ (runsD 3 0 .void).hrbDue 8191 = false ∧
    ebit ((runsD 3 0 (.pending none)).profOf d1) 0 19 = false ∧ eb ((runsD 3 0 .void).profOf d1) 1 23 0 = 1000 ∧ 0 + tkNs 1000 ≤ (runsD 3 0 .void).tim.lt ∧
    (runsD 3 0 .void).tim.lt < 8000000 + tkNs 1000 := by decide +kernel

/-- P17 takes an output of the slot; the flow's head is void, pending or ready, or waits behind a void slot. -/
def harb (st : SlotState) : State := (sky1 Skerry.reset st)

theorem wit_HarbourReleasesInOrder : tblFind (harb (.pending (some [⟨1, 17, .plain, none⟩]))).net.slots 8191 =
      some ⟨8191, 0, 1, true, .pending (some [⟨1, 17, .plain, none⟩])⟩ ∧ (harb .void).fabricOn = true ∧ (harb .void).memClean = true ∧
    tblFind (harb .void).net.ctxs 8191 = some ⟨zs 48, false, 15, 1, some (0, 0)⟩ ∧
    (harb .void).ctxHead 8191 ⟨zs 48, false, 15, 1, some (0, 0)⟩ = some (8191, ⟨8191, 0, 1, true, .void⟩) ∧
    (harb (.pending none)).ctxHead 8191 ⟨zs 48, false, 15, 1, some (0, 0)⟩ = some (8191, ⟨8191, 0, 1, true, .pending none⟩) ∧
    (harb (.ready [])).ctxHead 8191 ⟨zs 48, false, 15, 1, some (0, 0)⟩ = some (8191, ⟨8191, 0, 1, true, .ready []⟩) ∧
    (harb (.ready [⟨1, 17, .plain, none⟩])).ctxHead 8191 ⟨zs 48, false, 15, 1, some (0, 0)⟩ =
      some (8191, ⟨8191, 0, 1, true, .ready [⟨1, 17, .plain, none⟩]⟩) ∧
    ((harb .void).frm 1).bad = false ∧ ((harb .void).frm 1).tail = true ∧ ((harb .void).frm 1).leg = none ∧
    (harb .void).copyLen ((harb .void).frm 1) .plain ≤ 9216 ∧
    (harb .void).admitTest ((harb .void).frm 1) ((harb .void).queueOf ((harb .void).frm 1) 17).1 17 ((harb .void).frm 1).cells
      (some ((harb .void).copyLen ((harb .void).frm 1) .plain)) = none ∧
    (harb (.pending none)).ctxWait 8191 ⟨zs 48, false, 15, 1, some (0, 0)⟩ = some (8191, ⟨8191, 0, 1, true, .pending none⟩) ∧
    0 + tkNs ((harb .void).fld F.hrbCfg_hold_ns) ≤ (harb .void).tim.lt ∧
    (young (harb (.pending (some [⟨1, 17, .plain, none⟩])))).hrbDue 8191 = false := by decide +kernel

/-- Stealing on, one victim probed; and a state in which Skerry 30 alone is out of service. -/
def steals : State := flds [(F.skyStealCfg_en, 0, 1), (F.skyStealCfg_span, 0, 1), (F.skyStealCfg_min_depth, 0, 1)] takes
/-- The same with every thread of the victim busy; Skerry 31 has probed at the present tick. -/
def stealsB : State := flds [(F.skyStealCfg_en, 0, 1), (F.skyStealCfg_span, 0, 1), (F.skyStealCfg_min_depth, 0, 1)]
  (sky1 ⟨[d1], [], [(0, ⟨d1, 0, []⟩), (1, ⟨d1, 0, []⟩), (2, ⟨d1, 0, []⟩), (3, ⟨d1, 0, []⟩)], 0, some 8000000⟩ (.pending none))
def out30 : State := with_ [(.skyStatus, 0, 0xBFFFFFFF)] takes

theorem wit_StealingFaultsAndHomes : (flds [(F.skyStealCfg_en, 0, 0)]).on F.skyStealCfg_en = false ∧ steals.fabricOn = true ∧ steals.on F.skyStealCfg_en = true ∧
    steals.skyOk 30 = true ∧ (steals.skerry 30).norm = [] ∧ steals.skyIdle 30 = true ∧ 1 ≤ steals.fld F.skyStealCfg_span ∧
    (steals.skerry 31).norm = [d1] ∧ steals.fld F.skyStealCfg_min_depth ≤ 0 + 1 ∧ steals.maySteal d1 = true ∧
    ((steals.skerry 30).probeAt.all fun t => decide (t + 8 ≤ steals.tim.lt)) = true ∧ steals.stealLost 30 (31, d1) = true ∧
    stealsB.skyIdle 30 = true ∧ (stealsB.skerry 31).norm = [d1] ∧ stealsB.maySteal d1 = true ∧ stealsB.stealLost 30 (31, d1) = false ∧
    ((stealsB.skerry 31).probeAt.any fun t => decide (stealsB.tim.lt < t + 8)) = true ∧
    (takes.skerry 31).norm ≠ [] ∧ (takes.skerry 31).lastRun + tkUs 10 ≤ takes.tim.lt ∧ takes.servesReg .pcie .skyCtrl 0 = true ∧
    out30.servesReg .pcie .skyCtrl 0 = true ∧ out30.skyOk 30 = false ∧ out30.servesReg .pcie .skyHomeMap 63 = true ∧
    out30.skyOk (getBits 0x1E000000 28 24) = false ∧ takes.skyNext 31 (fun j => j != 31) = some 0 := by decide +kernel

theorem wit_FreshnessGenAndCommit : runS.fabricOn = true ∧ runS.memClean = true ∧ runS.coresOff = false ∧ runS.mem.parity = [] ∧ (runS.ent 0x32 0 4095).length = 4 ∧
    runS.red.role ≠ .faulted ∧ runS.lastOrd 4095 < (1 : BitVec 64).toNat ∧ runS.fv 4095 ≠ 2 ^ 64 - 1 ∧
    (0 : BitVec 64).toNat ≤ runS.lastOrd 4095 ∧ runS.fv 4095 < (1 : BitVec 64).toNat ∧ (0 : BitVec 64).toNat ≤ runS.fv 4095 := by
  decide +kernel


/-! ## The time base -/

/-- Domain 0 enabled with domain number 7; staged words of a set and a step of domain 3 by PCIe; domain 3 in a slew. -/
def clk (step : Word) : State :=
  let s := flds [(F.timDomCfg_en, 0, 1), (F.timDomCfg_ptp_dom, 0, 7)]
  { s with
    stage := [(pairKey .pcie (Reg.timDomSet.addr 9 + 4), 1), (pairKey .pcie (Reg.timDomSet.addr 9 + 8), 2),
      (pairKey .pcie (Reg.timDomStep.addr 6 + 4), step)]
    tim := { s.tim with doms := [(3, ⟨2 ^ 48 * 5000000000, 0, true⟩)] } }

theorem wit_DomainClockCommands : let e : Fin 4 := 0
    (clk 0).servesReg .pcie .timDomCfg 3 = true ∧ F.timDomCfg_ptp_dom.of 0x80000007 ≤ 127 ∧ F.timDomCfg_en.of 0x80000007 = 1 ∧
    (e ≠ 3 ∧ (clk 0).on F.timDomCfg_en e = true ∧ (clk 0).fld F.timDomCfg_ptp_dom e = F.timDomCfg_ptp_dom.of 0x80000007) ∧
    F.timDomCfg_en.of 0x00000007 ≠ 1 ∧ (clk 0).servesReg .pcie .timDomFreq 3 = true ∧ -1024000000 ≤ (0xC2F70000 : Word).toInt ∧
    (0x3D090000 : Word).toInt ≤ 1024000000 ∧ (0xC2F6FFFF : Word).toInt < -1024000000 ∧ 1024000000 < (0x3D090001 : Word).toInt ∧
    (clk 0).servesReg .pcie .timDomSet 9 = true ∧
    tblFind (clk 0).stage (pairKey .pcie (Reg.timDomSet.addr 9 + 4)) = some 1 ∧
    tblFind (clk 0).stage (pairKey .pcie (Reg.timDomSet.addr 9 + 8)) = some 2 ∧ (999999999 : Word).toNat < 1000000000 ∧
    1000000000 ≤ (1000000000 : Word).toNat ∧ (clk 0).servesReg .pcie .timDomStep 6 = true ∧
    tblFind (clk 0x3FFFFFFF).stage (pairKey .pcie (Reg.timDomStep.addr 6 + 4)) = some 0x3FFFFFFF := by decide +kernel

/-- Domain 3 with a set committed at tick 1000, one tick later. -/
def jumping : State := at_ 1001 { clk 0 with tim := { (clk 0).tim with jumps := [⟨1000, 3, true, 5000⟩] } }

theorem wit_DomainClockCommands_step : let v (hi lo : Nat) : Int := (BitVec.ofNat 64 (hi * 4294967296 + lo)).toInt
    let t : Int := (clk 0).domNext 3
    (v 0x3FFFFFFF 0xFFFFFFFF).natAbs < 2 ^ 62 ∧ 0 ≤ t + v 0x3FFFFFFF 0xFFFFFFFF * 2 ^ 48 ∧
    t + v 0x3FFFFFFF 0xFFFFFFFF * 2 ^ 48 < 2 ^ 48 * 1000000000 * 2 ^ 48 ∧ 2 ^ 62 ≤ (v 0x40000000 0).natAbs ∧
    t + v 0xFFFFFFFE 0 * 2 ^ 48 < 0 ∧ (clk 0).servesReg .pcie .timDomSlew 3 = true ∧ (clk 0).servesReg .pcie .timDomSlewCfg 3 = true ∧
    1 ≤ F.timDomSlewCfg_slew_ppm.of 1000 ∧ F.timDomSlewCfg_slew_ppm.of 1000 ≤ 1000 ∧ F.timDomSlewCfg_slew_ppm.of 0 = 0 ∧
    1000 < F.timDomSlewCfg_slew_ppm.of 1001 ∧ ((clk 0).dom 3).slewing = true ∧ ((clk 0).dom 3).rem = 0 ∧
    jumping.tim.jumps = [⟨1000, 3, true, 5000⟩] ∧ 1000 < jumping.tim.lt ∧ (at_ 1000 jumping).tim.jumps = [⟨1000, 3, true, 5000⟩] ∧
    (at_ 1000 jumping).tim.lt ≤ 1000 ∧ jumping.dom 3 = ⟨2 ^ 48 * 5000000000, 0, true⟩ ∧
    (clk 0).servesReg .pcie .timCtrl 0 = true := by decide +kernel

/-- Capture input 7, enabled for both edges with a storm limit of 5, and port 15 with a transmit timestamp that the host owns. -/
def openR : TscOpen := ⟨1000, 0, 0, true, 0, true⟩
def recs (n : Nat) : List Rec8 := List.replicate n (List.replicate 8 0)
def tscS (locked : Nat) (now : Nat) (x : Tsc) : State :=
  let s := at_ now (flds [(F.timTscCfg_en, 7, 1), (F.timTscCfg_edge, 7, 3), (F.timTscStorm_storm_max, 7, 5), (F.timTscStorm_storm_win_us, 7, 10),
    (F.timTscStat_locked, 7, locked), (F.timPortCfg_owner, 15, 1)])
  { s with tim := { s.tim with txts := [(15, recs 1)], tsc := [(7, x)] } }
def tsc_ (cnt : Nat) (r : Option TscOpen) (n : Nat) : Tsc := ⟨false, r, 1000, cnt, 0, false, recs n, none, none, 0, none⟩

/-- A write of an earlier tick has cleared, or set, the enable of input 7. -/
def off7 (t : Nat) : State := (tscS 0 1079 { tsc_ 4 (some openR) 15 with old := some (0x60000000, 0, t) }).setFld F.timTscCfg_en 7 0
def on7 : State := tscS 0 1079 { tsc_ 4 none 15 with old := some (0x60000000, 0, 1078) }

theorem wit_TimestampsAndCaptures : let a := tscS 0 1079 (tsc_ 4 (some openR) 15)
    a.servesReg .spi .timTxtsPop 15 = true ∧ F.timTxtsPop_pop.of 1 = 1 ∧ a.on F.timPortCfg_owner 15 = true ∧ a.txts 15 ≠ [] ∧
    a.fabricOn = true ∧ a.on F.timTscCfg_en 7 = true ∧ a.on F.timTscStat_locked 7 = false ∧ getBit (a.rd .timTscCfg 7) 29 = true ∧
    getBit (a.rd .timTscCfg 7) 30 = true ∧ a.tim.lt < (a.tsc 7).winStart + tkUs (a.fld F.timTscStorm_storm_win_us 7) ∧
    (a.tsc 7).winCnt + 1 ≤ a.fld F.timTscStorm_storm_max 7 ∧ (a.tsc 7).openRec = some openR ∧ a.tim.lt - 15 < openR.ltTick + 80 ∧ 15 ≤ a.tim.lt ∧ (a.tsc 7).levelAt = none ∧
    (∀ t, ({ tsc_ 4 none 15 with levelAt := some 1063 } : Tsc).levelAt = some t → t + 16 ≤ a.tim.lt) ∧
    ((tscS 0 1079 (tsc_ 4 none 15)).tsc 7).openRec = none ∧
    (tscS 0 1079 (tsc_ 5 none 15)).fld F.timTscStorm_storm_max 7 < ((tscS 0 1079 (tsc_ 5 none 15)).tsc 7).winCnt + 1 ∧
    (tscS 1 1079 (tsc_ 5 none 15)).on F.timTscStat_locked 7 = true ∧
    openR.ltTick + 96 ≤ (tscS 0 1096 (tsc_ 4 (some openR) 15)).tim.lt ∧ ((tscS 0 1096 (tsc_ 4 (some openR) 15)).tsc 7).fifo.length < 16 ∧
    16 ≤ ((tscS 0 1096 (tsc_ 4 (some openR) 16)).tsc 7).fifo.length ∧ a.tim.lt < openR.ltTick + 96 ∧
    ((tscS 0 9000 (tsc_ 4 none 15)).tsc 7).winStart + tkUs 10 ≤ (tscS 0 9000 (tsc_ 4 none 15)).tim.lt ∧
    (tscS 1 1079 (tsc_ 5 none 15)).servesReg .fw .timTscStat 7 = true ∧ F.timTscStat_locked.of 0x80000000 = 1 ∧
    a.servesReg .fw .timTscPop 7 = true ∧ F.timTscPop_pop.of 1 = 1 ∧ (a.tsc 7).fifo ≠ [] ∧ (runS.tsc 7).fifo = [] ∧
    a.servesReg .fw .timTscCfg 7 = true ∧ F.timTscCfg_en.of 0x60000000 = 0 ∧ F.timTscCfg_en.of 0xE0000000 = 1 ∧
    runS.on F.timTscCfg_en 7 = false ∧ a.memClean = true ∧ (a.tsc 7).level ≠ true ∧ (a.tsc 7).old = none ∧ (a.tsc 7).closing = none ∧
    (tscS 0 1095 (tsc_ 4 (some openR) 15)).tim.lt < openR.ltTick + 96 ∧ openR.ltTick + 80 ≤ (tscS 0 1095 (tsc_ 4 (some openR) 15)).tim.lt - 15 ∧
    a.on F.memFlipCtrl_arm = false ∧ ((tscS 1 1079 (tsc_ 5 none 15)).tsc 7).old = none ∧ 0 < tkUs (a.fld F.timTscStorm_storm_win_us 7) ∧
    a.tim.lt = 1079 ∧ (off7 1078).on F.timTscCfg_en 7 = false ∧ ((off7 1078).tsc 7).old = some (0x60000000, 0, 1078) ∧ (off7 1078).tim.lt = 1079 ∧
    (on7.tsc 7).old = some (0x60000000, 0, 1078) ∧ on7.on F.timTscCfg_en 7 = true ∧ F.timTscCfg_en.of 0x60000000 = 0 ∧
    (on7.tsc 7).openRec = none ∧ (on7.tsc 7).closing = none := by decide +kernel

/-- Output 1 enabled with a period of 1000 ns and a width of 20 ns, and a schedule of it. -/
def ppsQ : PpsSched := ⟨5000, 1000, 20, 0⟩
def ppsS (val : Nat) (x : Pps) : State :=
  let s := with_ [(.timPpsPeriod, 1, 1000), (.timPpsWidth, 1, 20)] (flds [(F.timPpsCfg_en, 1, 1)])
  { s with tim := { s.tim with doms := [(0, ⟨2 ^ 48 * val, 0, false⟩)], pps := [(1, x)] } }

/-- A schedule that runs while another is pending. -/
def both : State := ppsS 6000 ⟨some ppsQ, some { ppsQ with start := 7000 }, 6000, false, 5000⟩

theorem wit_PeriodicOutputs : let a := ppsS 5000 ⟨none, some ppsQ, 0, false, 0⟩
    let b (v : Nat) := ppsS v ⟨some ppsQ, none, 6000, true, 5000⟩
    a.servesReg .pcie .timPpsCfg 1 = true ∧ F.timPpsCfg_en.of 0xC0000000 = 1 ∧ F.timPpsCfg_commit.of 0xC0000000 = 1 ∧
    (b 5000).on F.timPpsCfg_en 1 = true ∧ ((b 5000).pps 1).pend = none ∧ (b 5000).ppsValid 1 = true ∧
    (with_ [(.timPpsWidth, 1, 19)] (b 5000)).ppsValid 1 = false ∧ ptpNs ((b 5000).ptpRead .timPpsStart 3) < (b 5000).domNs 0 + 1000 ∧
    F.timPpsCfg_en.of 0x40000000 = 0 ∧ a.fabricOn = true ∧ a.on F.timPpsCfg_en 1 = true ∧ (a.pps 1).pend = some ppsQ ∧
    ppsQ.start ≤ a.domNs ppsQ.dom ∧ ((b 5000).pps 1).run = some ppsQ ∧ ((b 6000).pps 1).next ≤ (b 6000).domNs 0 ∧
    (b 5999).domNs 0 < ((b 5999).pps 1).next ∧ ((b 5020).pps 1).active = true ∧
    ((b 5020).pps 1).began + ppsQ.width ≤ (b 5020).domNs 0 ∧ (b 5019).domNs 0 < ((b 5019).pps 1).began + ppsQ.width ∧
    (both.pps 1).pend = some { ppsQ with start := 7000 } ∧ both.domNs 0 < 7000 ∧ (both.pps 1).run = some ppsQ ∧ (both.pps 1).next ≤ both.domNs 0 ∧
    both.op = .run ∧ both.phys.rstLow = false ∧ ptpNs ((b 5000).ptpRead .timPpsStart 3) < (b 5000).domUp 0 + 1000 := by
  decide +kernel


/-! ## Legacy buses -/

/-- A short frame, and CAN channel 15 in a state, enabled in a mode. -/
def leg0 : LegRec := ⟨0x123, false, 0, 0, 0, 0, false, zs 8⟩
def lt0 : LegTx := ⟨leg0, 5, 0, 0⟩
def canS (mode flush auto : Nat) (c : Can) : State :=
  let s := at_ 8000000000 (flds [(F.canCtrl_en, 15, 1), (F.canCtrl_mode, 15, mode), (F.canCtrl_bo_flush, 15, flush), (F.canCtrl_bo_auto, 15, auto),
    (F.canTxCfg_max_age_us, 15, 0)])
  { s with net := { s.net with can := [(15, c)] } }
def can_ (tec rec_ fc : Nat) (q : List LegTx) (o : Option LegTx) : Can := ⟨tec, rec_, fc, 0, q, o, [(0x123, 5)], true⟩

/-- `k` frames wait in the receive FIFO of a virtual port. -/
def waits (port k : Nat) (s : State) : State :=
  { s with net := { s.net with legRx := List.replicate k ⟨port, leg0, 0, 0, 0⟩ } }

/-- A state in the safe state LINK_DOWN. -/
def down (s : State) : State := { s with pair := { s.pair with safe := some .linkDown } }

theorem wit_CanChannels : let a := canS 0 1 1 (can_ 250 127 1 [lt0] (some lt0))
    let b := canS 0 1 1 (can_ 250 127 0 [] none)
    let f := canS 0 1 1 (can_ 0 0 0 (List.replicate 64 lt0) (some lt0))
    a.fabricOn = true ∧ runS.canOpen 15 = false ∧ a.canOpen 15 = true ∧ (canS 0 1 1 (can_ 256 0 2 [] none)).canOpen 15 = true ∧
    a.on F.canCtrl_bo_flush 15 = true ∧ a.canFmtOk 15 leg0.fmt = true ∧ a.canFmtOk 15 1 = false ∧
    (4 : BitVec 64).toNat < tblGet (a.canCh 15).ords 0 leg0.ident ∧ tblGet (a.canCh 15).ords 0 leg0.ident ≤ (5 : BitVec 64).toNat ∧
    64 ≤ (f.canCh 15).txq.length ∧ (a.canCh 15).txq.length < 64 ∧
    ((a.canCh 15).txq.foldl (fun k x => k + x.leg.data.length) 0) + leg0.data.length ≤ 16384 ∧ (a.canCh 15).offer.isSome = true ∧
    (b.canCh 15).offer = none ∧ (b.canCh 15).txq = [] ∧ (b.canCh 15).joined = true ∧ a.forwards = true ∧ a.canOn 15 = true ∧
    a.canMode 15 ≠ 2 ∧ a.quiet = false ∧ a.legacyStandby = false ∧ 0 < (a.canCh 15).rec_ ∧ (a.canCh 15).rec_ ≤ 127 ∧
    (a.canCh 15).tec ≤ 255 ∧ (canS 2 1 1 (can_ 0 0 0 [] none)).canMode 15 = 2 ∧ (canS 2 1 1 (can_ 0 0 0 [] none)).canOn 15 = true ∧
    a.net.legRx = [] ∧ a.memClean = true ∧ a.on F.memFlipCtrl_arm = false ∧ b.memClean = true ∧ b.on F.memFlipCtrl_arm = false ∧
    (b.canCh 15).fc < 2 ∧ b.fld F.canTxCfg_max_age_us 15 = 0 ∧ (canS 0 1 1 (can_ 256 0 2 [] none)).on F.canCtrl_bo_flush 15 = true ∧
    2 ≤ ((canS 0 1 1 (can_ 256 0 2 [] none)).canCh 15).fc ∧ (canS 0 0 1 (can_ 256 0 2 [] none)).on F.canCtrl_bo_flush 15 = false ∧
    (canS 0 0 1 (can_ 256 0 2 [] none)).canOpen 15 = true ∧ a.legHeld (32 + 15) < 32 ∧ 32 ≤ (waits 47 32 a).legHeld (32 + 15) := by
  decide +kernel

theorem wit_CanChannels_busoff : let a := canS 0 1 1 (can_ 256 0 2 [lt0] none)
    (a.canCh 15).fc = 2 ∧ a.fabricOn = true ∧ a.on F.canCtrl_bo_auto 15 = true ∧
    (a.canCh 15).offAt + tkMs (a.fld F.canBoCfg_bo_delay_ms 15) ≤ a.tim.lt ∧
    (canS 0 1 0 (can_ 256 0 2 [] none)).on F.canCtrl_bo_auto 15 = false ∧ a.servesReg .fw .canBoCfg 15 = true ∧
    F.canBoCfg_recover.of 0x80000000 = 1 ∧ ((canS 0 1 1 (can_ 0 0 0 [] none)).canCh 15).fc < 2 ∧
    ((canS 0 1 1 (can_ 0 0 3 [] none)).canCh 15).fc = 3 ∧ (canS 0 1 1 (can_ 0 0 3 [] none)).canMode 15 ≠ 2 ∧
    ((canS 2 1 1 (can_ 0 0 3 [] none)).canCh 15).fc = 3 ∧ (canS 2 1 1 (can_ 0 0 3 [] none)).canMode 15 = 2 ∧ ((canS 0 1 1 (can_ 0 0 0 [lt0] (some lt0))).canCh 15).offer = some lt0 ∧
    (let x := canS 0 1 1 (can_ 0 0 0 [lt0] (some lt0))
    x.fld F.canTxCfg_max_age_us 15 = 0 ∧ x.canOn 15 = true ∧ x.canOpen 15 = true ∧ x.memClean = true ∧ x.pair.safe ≠ some .linkDown ∧
    (down x).pair.safe = some .linkDown ∧ (down x).canOn 15 = true ∧ ((down x).canCh 15).offer = some lt0) ∧
    (canS 0 1 1 (can_ 0 0 0 [] none)).canOn 15 = true ∧ ((canS 0 1 1 (can_ 0 0 0 [] none)).canCh 15).offer = none ∧ a.on F.canCtrl_en 15 = true := by decide +kernel

/-- LIN channel 7: identifier 63 in a direction, publishing from a queue or not, and a schedule of one slot of it. -/
def linS (master dir queue : Nat) (c : Lin) : State :=
  let s := at_ 8000000000 (flds [(F.linCtrl_en, 7, 1), (F.linCtrl_master, 7, master), (F.linFrame_dir, 511, dir), (F.linFrame_len, 511, 8),
    (F.linFrame_queue, 511, queue), (F.linTable_valid, 63, 1), (F.linTable_len, 63, 1), (F.linTable_base, 63, 127), (F.linSlot_frame_id, 1023, 63),
    (F.linSlot_slot_us, 1023, 100)])
  { s with net := { s.net with lin := [(7, c)] } }
def lin_ (pub : List LegTx) (slotAt wait : Option Nat) (event : Bool) (sw : Option Nat) : Lin :=
  { Lin.reset with pub := [(63, pub)], ords := [(63, 5)], table := 7, slotAt := slotAt, wait := wait, event := event, sw := sw }

theorem wit_LinChannelsAndPlca : let q := linS 1 1 1 (lin_ [lt0, lt0, lt0] none none false none)
    let f := linS 1 1 1 (lin_ [lt0, lt0, lt0, lt0] none none false none)
    linId 63 = 63 ∧ q.fabricOn = true ∧ runS.linRuns 7 = false ∧ q.linRuns 7 = true ∧ q.legacyStandby = false ∧ q.quiet = false ∧
    (linS 1 2 1 (lin_ [] none none false none)).linDir 7 63 ≠ 1 ∧ q.linDir 7 63 = 1 ∧ leg0.data.length = q.fld F.linFrame_len (linFrm 7 63) ∧
    (zs 7).length ≠ q.fld F.linFrame_len (linFrm 7 63) ∧ (4 : BitVec 64).toNat < tblGet (q.linCh 7).ords 0 63 ∧
    tblGet (q.linCh 7).ords 0 63 ≤ (5 : BitVec 64).toNat ∧ q.on F.linFrame_queue (linFrm 7 63) = true ∧
    q.memClean = true ∧ q.on F.memFlipCtrl_arm = false ∧
    4 ≤ (tblGet (f.linCh 7).pub [] 63).length ∧ (tblGet (q.linCh 7).pub [] 63).length < 4 ∧
    (linS 1 1 0 (lin_ [lt0] none none false none)).on F.linFrame_queue (linFrm 7 63) = false ∧ q.linMaster 7 = true ∧
    ((linS 1 1 1 (lin_ [] (some 7999999999) none false none)).linCh 7).slotAt = some 7999999999 ∧
    q.tim.lt < 7999999999 + tkUs (q.fld F.linSlot_slot_us (linSlotAt 7 (q.linEntry 7))) ∧ (q.linCh 7).slotAt = none ∧ (q.linCh 7).sw = none ∧
    (q.linCh 7).wait = none ∧ q.linTab 7 (q.linCh 7).table = some (127, 1) ∧
    q.fld F.linSlot_type (linSlotAt 7 (127 + (q.linCh 7).idx)) = 0 ∧ q.fld F.linSlot_frame_id (linSlotAt 7 (127 + (q.linCh 7).idx)) = 63 ∧
    tblGet (q.linCh 7).pub [] 63 = lt0 :: [lt0, lt0] ∧ (linS 1 2 1 (lin_ [] none none false none)).linDir 7 63 = 2 ∧
    0 + tkUs (q.fld F.linSlot_slot_us (linSlotAt 7 (q.linEntry 7))) ≤ q.tim.lt ∧
    ((linS 1 1 1 (lin_ [] (some 0) none false (some 3))).linCh 7).sw = some 3 ∧
    ((linS 1 1 1 (lin_ [] (some 0) none false (some 3))).linCh 7).coll = false ∧
    ((linS 1 1 1 (lin_ [] (some 0) none false (some 3))).linCh 7).back = none := by decide +kernel

theorem wit_LinChannelsAndPlca_rx : let t := linS 0 1 1 (lin_ [lt0] none none false none)
    let r := linS 0 2 1 (lin_ [] none (some 63) false none)
    linPid 63 ≠ 63 ∧ linPid ((BitVec.ofNat 8 (linPid 63)).toNat % 64) = (BitVec.ofNat 8 (linPid 63)).toNat ∧ t.forwards = true ∧
    t.linRuns 7 = true ∧ t.on F.linCtrl_master 7 = false ∧ t.quiet = false ∧ t.legacyStandby = false ∧ (t.linCh 7).wait = none ∧
    t.linDir 7 63 = 1 ∧ tblGet (t.linCh 7).pub [] 63 = lt0 :: [] ∧ (r.linCh 7).wait = some 63 ∧ (r.linCh 7).event = false ∧
    r.linDir 7 63 = 2 ∧ r.linSum 7 63 (zs 8) ≠ r.linSum 7 63 (zs 8) + 1 ∧
    ((linS 1 2 1 (lin_ [] none (some 63) true none)).linCh 7).event = true ∧ r.servesReg .fw .linSched 7 = true ∧
    F.linSched_switch.of 0x80000007 = 1 ∧ (r.linCh 7).sw = none ∧ (linS 1 1 1 (lin_ [] none none false none)).on F.linCtrl_master 7 = true ∧
    (r.linCh 7).lastAt + tkS 4 ≤ r.tim.lt ∧ t.memClean = true ∧ r.forwards = true ∧ r.linRuns 7 = true ∧ r.quiet = false ∧ r.legacyStandby = false ∧ r.net.legRx = [] ∧ r.memClean = true ∧ r.on F.memFlipCtrl_arm = false ∧
    r.legHeld (48 + 7) < 16 ∧ 16 ≤ (waits 55 16 r).legHeld (48 + 7) := by decide +kernel

/-- A PLCA follower of port P13 that hears the beacon. -/
def plca : State := flds [(F.tssPhyCfg_en, 1, 1), (F.tssPlcaCtrl_en, 1, 1), (F.tssPlcaCtrl_node_id, 1, 1), (F.tssPlcaStat_plca_status, 1, 1)]

theorem wit_LinChannelsAndPlca_plca : plca.fabricOn = true ∧ plca.plcaOn 1 = true ∧ plca.plcaLead 1 = false ∧
    plca.on F.tssPlcaStat_plca_status 1 = true := by decide +kernel


/-! ## The cipher engine -/

/-- Bytes in a window of a path, and a slot record in key slots of a state. -/
def win_ (p : Path) (off : Nat) (bs : List Byte) (s : State) : State := { s with win := bs.mapIdx fun i b => (winKey p (off + i), b) }
def key_ (l : List (Nat × KeySlot)) (s : State) : State := { s with keys := { s.keys with lc := 1, slots := l } }
def ks (attr : Word) : KeySlot := { KeySlot.empty with key := List.replicate 32 0x5A, attr := attr }

/-- Slot 255 holds a CAK for the host, with its pair or not; TX SA 71 is in use with a key; the argument gives a length. -/
def kek_ : List Byte := List.replicate 16 0x11
def mkaS (pair bad : Bool) (len : Nat) : State :=
  let s := key_ [(255, ks 0x80000024)] (flds [(F.cipJobArg_len, 0, len), (F.cipTxSa0_in_use, 71, 1), (F.cipTxSa0_key_ok, 71, 1),
    (F.cipTxscCtrl_enc_an, 17, 3)])
  { s with net := { s.net with cip := { s.net.cip with mka := if pair then [(255, List.replicate 16 0x22, kek_)] else [], trngBad := bad } } }
/-- The AES key wrap of 16 zero bytes under that key. -/
def wrapped : List Byte := beBytes 24 0x72e54e3237a9f5c913b00c7b015d196bda750578478a3865

set_option maxHeartbeats 4000000 in
theorem wit_MacsecKeyCommands : let a := mkaS true false 24
    a.memClean = true ∧ (mkaS true true 24).memClean = true ∧
       a.servesReg .pcie .cipTxscCtrl 17 = true ∧ secyPort 17 = true ∧ 4 * 17 + F.cipTxscCtrl_enc_an.of 0xFFFFFFFF = 71 ∧
    a.saInUse 71 = true ∧ a.saKeyOk 71 = true ∧ a.saInUse 68 = false ∧ a.servesReg .pcie .cipKcmd 0 = true ∧ a.pair.mode ≠ .split ∧
    a.mkaDenied .pcie 255 = false ∧ a.mkaDenied .pcie 254 = true ∧ a.fld F.cipJobArg_len = 24 ∧ (mkaS false false 0).fld F.cipJobArg_len = 0 ∧
    (a.kcmdSa true 1023).isSome = true ∧ (mkaS false false 24).mkaPair 255 = none ∧
    a.mkaPair 255 = some (List.replicate 16 0x22, kek_) ∧ a.kcmdSa false 71 = some (71, 17) ∧ a.saBusy 71 17 = true ∧ a.sakLen 17 + 8 = 24 ∧
    a.kcmdSa true 1023 = some (2047, 0) ∧ a.saBusy 2047 0 = false ∧ a.sakLen 0 + 8 = 24 ∧
    keyUnwrap kek_ ((win_ .pcie cipWin wrapped a).winBytes .pcie cipWin 24) = some (zs 16) ∧
    keyUnwrap kek_ (a.winBytes .pcie cipWin 24) = none ∧ a.net.cip.trngBad = false ∧ (mkaS true true 24).net.cip.trngBad = true := by
  decide +kernel

/-- A context of an algorithm in slot 1023 of the host, under the key of slot 7, which serves CMAC, GCM and wrapping. -/
def ctx_ (alg gen : Nat) : CipCtx := ctxInit alg 2 7 gen true (zs 12)
def jobS (alg len : Nat) (x : Option CipCtx) (bad : Bool) : State :=
  let s := key_ [(7, ks 0xC000005C)] (flds [(F.cipJobArg_alg, 0, alg), (F.cipJobArg_len, 0, len)])
  { s with net := { s.net with cip := { s.net.cip with ctx := x.toList.map fun x => (1023, x), trngBad := bad } } }

theorem wit_CipherJobs : let a := jobS 4 4096 (some (ctx_ 1 0)) false
    a.servesReg .pcie .cipJobCmd 0 = true ∧ a.memClean = true ∧ a.ctxClass 0 ≠ pathCls .pcie ∧
    a.ctxClass 1023 = pathCls .pcie ∧ a.fld F.cipJobArg_alg = 4 ∧ a.keyAllows 7 (pathCls .pcie) 3 = true ∧
    a.keyAllows 6 (pathCls .pcie) 3 = false ∧ (jobS 6 0 none false).fld F.cipJobArg_alg = 6 ∧ a.cipCtx 1023 = some (ctx_ 1 0) ∧
    (ctx_ 1 0).keyed = true ∧ (a.slot 7).gen ≠ (ctx_ 1 1).gen ∧ (a.slot 7).gen = (ctx_ 1 0).gen ∧ a.slotEmpty 7 = false ∧
    a.fld F.cipJobArg_len ≤ 4096 ∧ (ctx_ 3 0).alg ≤ 3 ∧ (ctx_ 3 0).aadDone = false ∧ (ctx_ 2 0).alg = 2 ∧ (ctx_ 4 0).alg = 4 ∧
    4 < (ctx_ 6 0).alg ∧ a.keyAllows 7 (pathCls .pcie) 6 = true ∧ getBit (a.slot 7).attr 30 = true ∧ (ctx_ 1 0).alg = 1 ∧
    a.net.cip.trngBad = false ∧ (jobS 4 4096 none true).net.cip.trngBad = true ∧ a.fabricOn = true := by decide +kernel

/-- A wrapped CMAC context: what SAVE_WRAP makes of context `ctx_ 4 0` under slot 7 with a zero IV. -/
def blob_ : List Byte := beBytes 48 0x5857430101000207000000000000000000000000026eef7e428447c22d84fc02276c1c562c5e2a46d14e425cd148aa3c ++
  beBytes 48 0xa5d54261478410484617198997d26cb3a74127621bdfa2a1eaacb2ede003971b2279d21ed1b00e37aa72e5523ed2259a ++
  beBytes 48 0xa83fb1f2bc11b0c1a6224a852a3f69ca65c8af13e14ed99b5f9899b8f03234d4bbf065813f2616284197e0d774dda465 ++
  beBytes 48 0xc1d91b0e074d2978aad8ec00ffb84363eaa5bface0b6ba0a75d0870acd56cdc398cc681073e463ce5cce547e8049fac1 ++
  beBytes 48 0x9204296aba49c37e8ea6fbaf36c8694912e774254bdbc2131d6f46e4af22af663401a598f6b2b9ab15ee134834c8d477 ++
  beBytes 48 0x5326556e544f40db423368668c07b14188aab075d14c2e0c34328635e9264632d76c2cb3fd80fc834de49036dc890939 ++
  beBytes 4 0xc85904fc

/-- What RESTORE_WRAP opens under slot 7, and what it opens where the slot holds the key of `ks`. -/
def opened (s : State) (p : Path) : List Byte × Bool := let b := s.winBytes p cipWin 292
  gcmDec (s.slot 7).bytes (bytesAt b 8 12) (b.take 8 ++ s.uid) (bytesAt b 20 256) (bytesAt b 276 16)
def opens (b : List Byte) : List Byte × Bool :=
  gcmDec (List.replicate 32 0x5A) (bytesAt b 8 12) (b.take 8 ++ zs 16) (bytesAt b 20 256) (bytesAt b 276 16)

theorem opened_eq {s : State} {p : Path} {b : List Byte}
    (h : s.winBytes p cipWin 292 = b ∧ (s.slot 7).bytes = List.replicate 32 0x5A ∧ s.uid = zs 16) : opened s p = opens b := by
  obtain ⟨rfl, h1, h2⟩ := h
  simp only [opened, opens, h1, h2]

theorem blob_opens : (opens blob_).2 = true ∧ (ctxOf (opens blob_).1).slot = 7 ∧ (ctxOf (opens blob_).1).gen = 0 := by decide +kernel

/-- A blob of zeros with a right tag, whose magic is wrong. -/
def blob0 : List Byte := zs 276 ++ beBytes 16 174452014298338775624223892257379193018

/-- The key of slot 7 with an attribute word and a generation, and a blob in the window of a path. -/
def restS (p : Path) (attr : Word) (gen : Nat) (b : List Byte) : State := win_ p cipWin b (key_ [(7, { ks attr with gen := gen })] runS)

theorem wit_CipherJobs_restore : let s := restS .pcie 0xC000005C 0 blob_
    let b := s.winBytes .pcie cipWin 292
    s.ctxClass 1023 = pathCls .pcie ∧ s.keyAllows 7 (pathCls .pcie) 6 = true ∧ getBit (s.slot 7).attr 30 = true ∧
    fieldAt b 0 4 = 0x58574301 ∧ fieldAt b 4 2 = 256 ∧ fieldAt b 6 1 = s.ctxClass 1023 ∧ (s.slot 7).gen = 0 := by decide +kernel

theorem wit_CipherJobs_restore_opens : let s := restS .pcie 0xC000005C 0 blob_
    (opened s .pcie).2 = true ∧ (s.slot (ctxOf (opened s .pcie).1).slot).gen = (ctxOf (opened s .pcie).1).gen := by
  intro s
  rw [opened_eq (s := s) (p := .pcie) (b := blob_) (by decide +kernel), blob_opens.2.1, blob_opens.2.2]
  exact ⟨blob_opens.1, by decide +kernel⟩

theorem wit_CipherJobs_restore_gen : let s := restS .pcie 0xC000005C 1 blob_
    (opened s .pcie).2 = true ∧ (s.slot (ctxOf (opened s .pcie).1).slot).gen ≠ (ctxOf (opened s .pcie).1).gen := by
  intro s
  rw [opened_eq (s := s) (p := .pcie) (b := blob_) (by decide +kernel), blob_opens.2.1, blob_opens.2.2]
  exact ⟨blob_opens.1, by decide +kernel⟩

theorem wit_CipherJobs_restore_class : let s := restS .fw 0xC000005E 0 blob_
    (opened s .fw).2 = true ∧ s.ctxClass 767 = pathCls .fw ∧ s.keyAllows 7 (pathCls .fw) 6 = true ∧
    fieldAt (s.winBytes .fw cipWin 292) 6 1 ≠ s.ctxClass 767 := by
  intro s
  rw [opened_eq (s := s) (p := .fw) (b := blob_) (by decide +kernel)]
  exact ⟨blob_opens.1, by decide +kernel⟩

theorem wit_CipherJobs_restore_format : let s := restS .pcie 0xC000005C 0 blob0
    (opened s .pcie).2 = true ∧ fieldAt (s.winBytes .pcie cipWin 292) 0 4 ≠ 0x58574301 ∧
    getBit ((restS .pcie 0x8000005C 0 blob0).slot 7).attr 30 = false ∧ (restS .pcie 0x8000005C 0 blob0).keyAllows 7 2 6 = true := by
  intro s
  rw [opened_eq (s := s) (p := .pcie) (b := blob0) (by decide +kernel)]
  exact ⟨by decide +kernel, by decide +kernel⟩

theorem wit_CipherJobs_refuse : let s := jobS 4 0 none false
    let b := s.winBytes .pcie cipWin 292
    (gcmDec (s.slot 7).bytes (bytesAt b 8 12) (b.take 8 ++ s.uid) (bytesAt b 20 256) (bytesAt b 276 16)).2 = false := by decide +kernel

/-! ## The key store -/

/-- An update of slot 9 by slot 1 to counter 1 with key 0, a transition from BLANK to FIELD, and the answer to a zero challenge. -/
def updMsg : List Byte := beBytes 48 0x4b554d010000000000000000000000000000000009010000000000010001000c0000000000000000000000002aedabca ++
  beBytes 44 0x15cd572bb4c3bc2fdcda59a1b31c31a5c643d24dc8ee45decdee009566a38f4f2e8e1d4c908bf7cfed07a861
def lcMsg : List Byte := beBytes 44 0x4c434d01000000000000000000000000000000000200000000000001610d887e53871870a8327756dcea43c2
def answer : List Byte := beBytes 16 0x5f1d75d16488d61a4595b52f7ea46333

/-- A device with a master key in slot 1, and messages in the window. -/
def master (l : List (Nat × KeySlot)) (m : List Byte) : State := win_ .pcie keyWin m (key_ ((1, ks 0x80010100) :: l) runS)
def keyCmdWord (op len : Nat) : Word := putBits (putBits 0x80000000 27 24 op) 8 0 len
def busy (s : State) : State := { s with keys := { s.keys with journal := some ⟨9, none⟩ } }
def split_ : State := { runS with pair := { runS.pair with mode := .split } }

theorem wit_KeyUpdatesAndLifeCycle : let s := master [] updMsg
    let m := s.winBytes .pcie keyWin 92
    s.servesReg .pcie .keyCmd 0 = true ∧ F.keyCmd_go.of (keyCmdWord 1 92) = 1 ∧ F.keyCmd_len.of (keyCmdWord 1 92) = 92 ∧
    F.keyCmd_op.of (keyCmdWord 1 92) = 1 ∧ F.keyCmd_op.of (keyCmdWord 2 44) = 2 ∧ F.keyCmd_len.of (keyCmdWord 2 44) = 44 ∧
    split_.servesReg .fw .keyCmd 0 = true ∧ split_.pair.mode = .split ∧ s.pair.mode ≠ .split ∧ s.keyBusy = false ∧ s.memClean = true ∧ (busy s).keyBusy = true ∧
    fieldAt m 20 1 = 9 ∧ s.updPre m = 0 ∧ (master [] []).updPre ((master [] []).winBytes .pcie keyWin 92) = 2 ∧
    (let t := master [(9, { ks 0x80010004 with ctr := 1, digest := sha256 updMsg })] updMsg; t.updPre m = 14) ∧
    (master [] []).lcCheck ((master [] []).winBytes .pcie keyWin 44) = 2 := by decide +kernel

set_option maxHeartbeats 4000000 in
theorem wit_KeyUpdatesAndLifeCycle_ok : let s := master [] updMsg
    (s.updKey (s.winBytes .pcie keyWin 92)).1 = 0 := by decide +kernel

set_option maxHeartbeats 4000000 in
theorem wit_KeyUpdatesAndLifeCycle_tag : let s := master [] (updMsg.set 91 0)
    s.updPre (s.winBytes .pcie keyWin 92) = 0 ∧ (s.updKey (s.winBytes .pcie keyWin 92)).1 ≠ 0 := by decide +kernel

set_option maxHeartbeats 4000000 in
theorem wit_KeyUpdatesAndLifeCycle_lc : let s := master [] lcMsg
    s.lcCheck (s.winBytes .pcie keyWin 44) = 0 ∧ fieldAt (s.winBytes .pcie keyWin 44) 20 1 = 2 := by decide +kernel

/-- The device in FIELD with a debug key in slot 2, and a number of failures and a challenge. -/
def dbgS (fails : Nat) (chal : Option (List Byte)) (m : List Byte) : State :=
  let s := win_ .pcie keyWin m (key_ [(2, ks 0x80010800)] runS)
  { s with keys := { s.keys with lc := 2 }, net := { s.net with dbg := ⟨false, fails, chal⟩ } }
def attS (safe : Option SafeSt) : State :=
  let s := master [(9, ks 0x80010400)] (zs 16 ++ [9])
  { s with pair := { s.pair with safe := safe } }

theorem wit_AttestationAndDebug : (attS none).servesReg .pcie .keyCmd 0 = true ∧ F.keyCmd_go.of (keyCmdWord 3 17) = 1 ∧
    F.keyCmd_op.of (keyCmdWord 3 17) = 3 ∧ F.keyCmd_len.of (keyCmdWord 3 17) = 17 ∧ (attS none).keyBusy = false ∧ (attS none).memClean = true ∧
    (dbgS 2 none []).memClean = true ∧ F.keyCmd_len.of (keyCmdWord 5 15) ≠ 16 ∧ (attS none).op = .run ∧
    (attS none).keys.lc = 1 ∧ (attS none).pair.safe = none ∧ fieldAt ((attS none).winBytes .pcie keyWin 17) 16 1 = 9 ∧
    (attS none).slotEmpty 9 = false ∧ getBit ((attS none).slot 9).attr 10 = true ∧ (attS none).keys.attCtr ≠ 4294967295 ∧
    (attS (some .quiet)).pair.safe.isSome = true ∧ F.keyCmd_op.of (keyCmdWord 4 0) = 4 ∧ (attS none).keys.lc ≠ 2 ∧
    (dbgS 0 none []).keys.lc = 2 ∧ (dbgS 0 none []).net.cip.trngBad = false ∧ F.keyCmd_op.of (keyCmdWord 5 16) = 5 ∧
    F.keyCmd_len.of (keyCmdWord 5 16) = 16 ∧ 3 ≤ (dbgS 3 none []).net.dbg.fails ∧ (dbgS 2 none []).net.dbg.fails < 3 ∧
    (dbgS 2 none []).slotEmpty 2 = false ∧ getBit ((dbgS 2 none []).slot 2).attr 11 = true ∧
    (dbgS 2 (some (zs 16)) []).net.dbg.chal = some (zs 16) ∧ (dbgS 2 none []).net.dbg.chal = none := by decide +kernel

set_option maxHeartbeats 4000000 in
theorem wit_AttestationAndDebug_unlock : let s := dbgS 2 (some (zs 16)) answer
    cmac (s.slot 2).bytes (zs 16 ++ s.uid) = s.winBytes .pcie keyWin 16 ∧
    cmac (s.slot 2).bytes (zs 16 ++ s.uid) ≠ (dbgS 2 none []).winBytes .pcie keyWin 16 := by decide +kernel


/-! ## The control pair and paired devices -/

def mode_ (m : LsMode) (at_ : Nat) (s : State) : State := { s with pair := { s.pair with mode := m, splitAt := at_ } }
def locked : State := flds [(F.glbSafeCfg_lock, 0, 1)]
def faultRec : State := flds [(F.glbFaultRec_code, 0, 1)]

/-- A fault recorded in this tick, and the cores halted by it or by an earlier one. -/
def faultS (now : Bool) : State :=
  let s := at_ 8 (with_ [(.glbFaultTime, 0, if now then 10 else 0)] faultRec)
  { s with pair := { s.pair with halted := true } }

theorem wit_RefereeFaultsAndSplit_now : (faultS true).faultNow = true ∧ (faultS false).faultNow = false ∧ (faultS false).pair.halted = true ∧
    (faultS true).fld F.glbFaultRec_code ≠ 0 ∧ (faultS false).fld F.glbFaultRec_code ≠ 0 ∧
    (mode_ .splitting 8 (at_ 8)).pair.mode = .splitting ∧ (mode_ .splitting 8 (at_ 8)).pair.splitAt = (at_ 8).tim.lt ∧
    (mode_ .splitting 8 (at_ 8)).mapUp = true ∧ (mode_ .splitting 8 (at_ 8)).pair.halted = false ∧ (mode_ .repairing 0 runS).pair.mode = .repairing := by
  decide +kernel

/-- No event is routed to FAULT_N after reset. -/
theorem wit_RefereeFaultsAndSplit_routes : ∀ n, runS.fld F.evtRoute_dest n ≠ 4 := fun n => by
  have h : runS.rd .evtRoute n = BitVec.ofNat 32 (if n = 34 then 0x48000000 else 0x40000000) := rfl
  show getBits (runS.rd .evtRoute n) 29 27 ≠ 4
  rw [h]
  split <;> decide

theorem wit_RefereeFaultsAndSplit : runS.mapUp = true ∧ runS.pair.halted = false ∧ runS.pair.mode = .lockstep ∧
    (0x80 : BitVec 8).getLsbD 7 = true ∧ (∀ j, j < 7 → (0x80 : BitVec 8).getLsbD j = false) ∧ runS.fld F.glbFaultRec_code = 0 ∧
    faultRec.fld F.glbFaultRec_code ≠ 0 ∧ runS.red.role = .detached ∧ (mode_ .split 0 runS).pair.mode ≠ .lockstep ∧
    runS.servesReg .spi .glbSafeCfg 0 = true ∧ runS.on F.glbSafeCfg_lock = false ∧ F.glbSafeCfg_clk_ss.of 0x2A < 3 ∧
    F.glbSafeCfg_evt_ss.of 0x2A < 3 ∧ F.glbSafeCfg_ls_ss.of 0x2A < 3 ∧ locked.on F.glbSafeCfg_lock = true ∧
    locked.servesReg .spi .glbSafeCfg 0 = true ∧ runS.servesReg .fw .glbLsCtrl 0 = true ∧ (mode_ .split 0 runS).servesReg .fw .glbLsCtrl 0 = true ∧
    (mode_ .split 0 (at_ 80000000)).pair.splitAt + tkMs ((mode_ .split 0 (at_ 80000000)).fld F.glbLsCfg_split_max_ms) ≤
      (mode_ .split 0 (at_ 80000000)).tim.lt ∧
    (mode_ .split 0 (at_ 79999999)).tim.lt < (mode_ .split 0 (at_ 79999999)).pair.splitAt +
      tkMs ((mode_ .split 0 (at_ 79999999)).fld F.glbLsCfg_split_max_ms) ∧ runS.servesReg .pcie .glbLsCtrl 0 = true ∧
    ({ runS with pair := { runS.pair with halted := true } } : State).pair.halted = true := by decide +kernel

/-- A paired device of UID 0 in a role, with pairing state of its own. -/
def paired_ (f : Red → Red) : State :=
  let s := at_ 800000000 (flds [(F.redCfg_en, 0, 1), (F.redCfg_rebound_ms, 0, 100), (F.redHbCfg_kick_ms, 0, 50), (F.macPortStat_link_up, 15, 1)])
  { s with red := f s.red }
def stat_ (uid : Byte) (r : Role) (safe : Bool) (d : Byte) : PairStatus :=
  ⟨List.replicate 16 uid, r, true, safe, false, 0, List.replicate 32 d⟩

theorem wit_PairHeartbeatAndRoles : let a := paired_ fun r => { r with kickAt := some 0, role := .active }
    let d := paired_ fun r => { r with role := .discover, statusAt := none, discoverAt := 0 }
    a.servesReg .fw .redHbKick 0 = true ∧ F.redHbKick_kick.of 1 = 1 ∧ a.op = .run ∧ a.pair.safe = none ∧ 0 < a.fld F.redHbCfg_kick_ms ∧
    a.servesReg .pcie .redHbKick 0 = true ∧ a.red.kickAt = some 0 ∧ 0 + tkMs (a.fld F.redHbCfg_kick_ms) ≤ a.tim.lt ∧ a.paired = true ∧
    (paired_ fun r => { r with hbLost := false, edgeAt := 0 }).red.hbLost = false ∧ 0 + tkUs (a.fld F.redHbCfg_loss_us) ≤ a.tim.lt ∧
    (paired_ fun r => { r with sentAt := none }).red.sentAt = none ∧ 0 + tkUs 100 ≤ a.tim.lt ∧ a.activeDigest.length = 32 ∧
    d.paired = true ∧ d.red.role = .discover ∧ d.red.statusAt = none ∧ d.red.discoverAt + tkMs 200 ≤ d.tim.lt ∧
    (stat_ 1 .active false 0).digest = a.activeDigest ∧ (stat_ 1 .active false 1).digest ≠ a.activeDigest ∧
    (stat_ 1 .discover false 0).role = .discover ∧ a.on F.redCfg_home_hi = false ∧ beNat a.uid < beNat (stat_ 1 .active false 0).uid ∧
    ¬(beNat a.uid < beNat (stat_ 0 .active false 0).uid) ∧ a.red.role = .active ∧
    (paired_ fun r => { r with digestEq := true }).red.digestEq = true ∧ (17 : BitVec 8).toNat < 18 ∧ 14 ≤ (zs 14).length ∧
    (down a).pair.safe = some .linkDown ∧ (down a).paired = true ∧ a.fabricOn = true ∧ d.fabricOn = true ∧
    (4095 : BitVec 16).toNat < 4096 ∧ a.memClean = true ∧ a.on F.memFlipCtrl_arm = false ∧ d.memClean = true ∧ d.mem.parity = [] ∧
    d.on F.memFlipCtrl_arm = false ∧ (d.ent 0x32 0 4095).length = 4 ∧ a.mem.parity = [] ∧ (a.ent 0x32 0 4095).length = 4 ∧
    d.fv 4095 < (1 : BitVec 64).toNat ∧ (0 : BitVec 64).toNat ≤ d.fv 4095 := by decide +kernel

/-- A STANDBY at home whose partner is known, alive, and ready for a rebound since the first tick; and takeovers in the last minutes. -/
def stby : State := paired_ fun r => { r with role := .standby, hbLost := true, confirmAt := some 0 }
def home_ (req : Bool) : State := paired_ fun r =>
  { r with role := .standby, hbLost := false, kickAt := some 799999999, partner := some (stat_ 1 .active false 0), digestEq := true,
           healthyAt := some 0, reboundReq := req }

theorem wit_TakeoversAndRebounds : stby.paired = true ∧ stby.red.role = .standby ∧ (stat_ 1 .faulted false 0).digest = stby.activeDigest ∧
    (stat_ 1 .faulted false 0).role = .faulted ∧ (stat_ 1 .active true 0).safe = true ∧ stby.red.hbLost = true ∧
    stby.red.confirmAt = some 0 ∧ 0 + tkUs (stby.fld F.redHbCfg_confirm_us) ≤ stby.tim.lt ∧ (home_ false).healthy = true ∧
    (home_ false).red.healthyAt = some 0 ∧ (home_ false).fld F.redCfg_rebound_ms ≠ 0 ∧
    0 + tkMs ((home_ false).fld F.redCfg_rebound_ms) ≤ (home_ false).tim.lt ∧
    (paired_ fun r => { r with role := .active, takeovers := [1, 2] }).red.role = .active ∧
    ((paired_ fun r => { r with role := .active, takeovers := [1, 2] }).red.takeovers.filter fun t =>
      decide (800000000 < t + tkS 600)).length < 3 ∧
    3 ≤ ((paired_ fun r => { r with role := .active, takeovers := [1, 2, 3] }).red.takeovers.filter fun t =>
      decide (800000000 < t + tkS 600)).length ∧ (home_ true).healthy = true ∧ (home_ true).paired = true ∧
    (paired_ fun r => { r with role := .active, takeovers := [1, 2] }).pair.safe ≠ some .linkDown ∧
    (paired_ fun r => { r with role := .active }).red.role ≠ .standby ∧ stby.red.role ≠ .active := by decide +kernel

/-- What a takeover says of tables: a stream with numbering, a persistent role-0 freshness entry, in canonical tables. -/
def numbering : State := (stby.setEnt 0x1A 0 4095 [0x80000000, 0, 0x80000000, 0, 0, 0, 0, 0]).setEnt 0x36 0 4095 [0x80000000, 0, 0, 0]

theorem wit_TakeoversAndRebounds_numbers :
    (4095, [0x80000000, 0, 0x80000000, 0, 0, 0, 0, 0]) ∈ numbering.listed 0x1A numbering.epoch 0 4096 ∧
    ebit [0x80000000, 0, 0x80000000, 0, 0, 0, 0, 0] 0 31 = true ∧ ebit [0x80000000, 0, 0x80000000, 0, 0, 0, 0, 0] 2 31 = true ∧
    numbering.strState 4095 ≠ [] ∧ tblWf numbering.net.tabs = true ∧ numbering.on F.memFlipCtrl_arm = false ∧ fpValid (numbering.fparam numbering.epoch 4095) = true ∧
    fpRole1 (numbering.fparam numbering.epoch 4095) = false ∧ (numbering.ent 0x32 0 4095).length = 4 := by decide +kernel


/-! ## Memory integrity -/

/-- A word of instance 31 of memory 0x07 in error, and a merge entry of memory 0x08. -/
def errS (e : WordErr) : State := at_ 80000 { runS with mem := { runS.mem with
  errs := [(memKey 7 31 0xFFFFFF, e, 0x40)], trk := [(7, [⟨31, 0xFFFFFF, 3, 0⟩])], passAt := some 0 } }
def ent_ (mem a at_ : Nat) : MergeEnt := ⟨mem, 0, a, none :: List.replicate 7 (some 0xFF), at_⟩
def mrg (l : List MergeEnt) (errs : Tbl (WordErr × Nat)) : State := at_ 80000 { runS with mem := { runS.mem with merge := l, errs := errs } }

/-- The last word of the mirror of the key slots in error. -/
def mirrorS : State := { runS with mem := { runS.mem with errs := [(memKey 10 0 4095, .uncorrectable, 0x40)] } }

theorem wit_ScrubbingMergingAndFlips_scrub : (errS .correctable).fabricOn = true ∧ (errS .correctable).on F.memScrubCfg_en = true ∧
    runS.mem.passAt = none ∧ (errS .correctable).mem.passAt = some 0 ∧
    ¬(0 + tkMs (max ((errS .correctable).fld F.memScrubCfg_period_ms) (2000 : BitVec 16).toNat) ≤ (errS .correctable).tim.lt) ∧
    (errS .correctable).tim.lt < 0 + tkMs (max ((errS .correctable).fld F.memScrubCfg_period_ms) (2000 : BitVec 16).toNat) ∧
    0 + tkMs (max ((errS .correctable).fld F.memScrubCfg_period_ms) (2000 : BitVec 16).toNat) ≤ (at_ 1600000000 (errS .correctable)).tim.lt ∧
    (31 : Fin 32).val < memInstances 7 ∧ (errS .correctable).mem.merge = [] ∧ memParity 7 = false ∧
    (errS .correctable).memErr 7 31 0xFFFFFF = some (.correctable, 0x40) ∧ runS.memErr 7 31 0xFFFFFF = none ∧
    (errS .correctable).on F.memCeLog0_valid = false ∧ tblGet (errS .correctable).mem.trk [] 7 = [⟨31, 0xFFFFFF, 3, 0⟩] ∧
    (errS .correctable).tim.lt < 0 + tkS 10 ∧ (errS .uncorrectable).memErr 7 31 0xFFFFFF = some (.uncorrectable, 0x40) ∧
    (errS .poison).memErr 7 31 0xFFFFFF = some (.poison, 0x40) ∧ memParity 21 = true ∧ runS.parityBad 21 0xFFFFFF = false ∧
    (errS .uncorrectable).skyOk 31 = true ∧ memInstances 8 = 1 ∧ memParity 8 = false ∧
    (mrg [] [(memKey 8 0 5, .uncorrectable, 1)]).memErr 8 0 5 = some (.uncorrectable, 1) ∧
    (mrg [] []).memErr 8 0 5 = none ∧
    (mirrorS.memErr 10 0 4095 = some (.uncorrectable, 0x40)) ∧ (0 : Fin 32).val < memInstances 10 ∧ memParity 10 = false ∧
    mirrorS.on F.memScrubCfg_en = true ∧ mirrorS.mem.merge = [] ∧ mirrorS.on F.memFlipCtrl_arm = false := by
  decide +kernel

/-- The flip mask armed for a word of memory 0x07. -/
def flips : State :=
  with_ [(.memFlipAddr, 0, 0xFFFFFF)] (flds [(F.memFlipCtrl_arm, 0, 1), (F.memFlipCtrl_mem_id, 0, 7), (F.memFlipCtrl_instance, 0, 31), (F.memFlipCtrl_addr_en, 0, 1)])

theorem wit_ScrubbingMergingAndFlips : (∀ i, i < 8 → (List.replicate 8 (some (0xFF : Byte)))[i]? = some (some 0xFF)) ∧
    runS.on F.memFlipCtrl_arm = false ∧ flips.on F.memFlipCtrl_arm = true ∧ flips.fld F.memFlipCtrl_mem_id = 7 ∧
    flips.fld F.memFlipCtrl_instance = 31 ∧ memHome 7 31 0xFFFFFF = .raw ∧ flips.mem.merge = [] ∧ memHome 8 0 5 = .tab 0x32 10 ∧
    flips.servesReg .spi .memFlipCtrl 0 = true ∧ (flips.rd .memFlipAddr).toNat = 0xFFFFFF ∧
    ((mrg ((List.range 7).map fun a => ent_ 8 a 0) []).mem.merge.filter fun x => x.mem == 8 && x.inst == 0).length < 8 ∧
    7 ≤ ((mrg ((List.range 8).map fun a => ent_ 8 a 0) []).mem.merge.filter fun x => x.mem == 8 && x.inst == 0).length - 1 ∧
    (∀ x ∈ (mrg ((List.range 8).map fun a => ent_ 8 a 0) []).mem.merge, ¬(x.mem = 8 ∧ x.inst = 0 ∧ x.addr = 8)) ∧
    (∀ x ∈ (mrg [ent_ 8 5 0] []).mem.merge, x.mem = 8 → x.last + 32 ≤ (mrg [ent_ 8 5 0] []).tim.lt) ∧
    (mrg [ent_ 8 5 0] []).memErr 8 0 5 = none ∧ (mrg [ent_ 8 5 0] []).on F.memFlipCtrl_arm = false ∧
    (mrg [ent_ 8 5 0] [(memKey 8 0 5, .uncorrectable, 1)]).memErr 8 0 5 = some (.uncorrectable, 1) ∧
    (mrg [ent_ 8 5 0] [(memKey 8 0 5, .poison, 255)]).memErr 8 0 5 = some (.poison, 255) ∧
    (ent_ 8 5 0).bytes[0]? = some none ∧ (ent_ 8 5 0).inst < 64 ∧ (ent_ 8 5 0).addr < 16777216 ∧
    (mrg [ent_ 8 5 79969] []).tim.lt < (ent_ 8 5 79969).last + 32 ∧ runS.servesReg .spi .memFlipCtrl 0 = true ∧
    F.memFlipCtrl_arm.of 0x80000000 = 1 ∧ F.memFlipCtrl_cancel.of 0x80000000 = 0 ∧ F.memFlipCtrl_cancel.of 0x20000000 = 1 := by
  decide +kernel

/-! ## The whole machine -/

theorem wit_StepKeepsTablesCanonical : State.reset.canon = true ∧ runS.canon = true ∧ (flds [(F.macPortStat_link_up, 15, 1)]).canon = true := by decide +kernel

/-- A stored intent of the transition from PROVISIONING to FIELD. -/
def intent : State := { runS with keys := { runS.keys with lc := 1, lcGoal := some (2, 1) } }

theorem wit_LifeCycleFollowsItsTable : (∀ g, intent.keys.lcGoal = some g → lcEdge intent.keys.lc g.1 = true) ∧
    (∀ g, State.reset.keys.lcGoal = some g → lcEdge State.reset.keys.lc g.1 = true) :=
  ⟨fun g h => by injection h with h; subst h; rfl, fun g h => by cases h⟩

theorem wit_JtagIdcode : State.reset.op ≠ .off := by decide +kernel

theorem wit_PtpValueOutOfRangeIsDiscarded : 1000000000 ≤ (1000000000 : Word).toNat ∧ runS.servesReg .pcie .timDomSet 9 = true ∧
    runS.servesReg .pcie .tgaAdminBase 45 = true ∧ runS.servesReg .pcie .schGateBase 765 = true := by decide +kernel

/-- A message of 92 bytes that is the last one accepted for slot 9. -/
def repeated : State :=
  master [(9, { ks 0x80010004 with ctr := 1, digest := sha256 updMsg })] updMsg

theorem wit_KeyRepeatChangesNothing : repeated.servesReg .pcie .keyCmd 0 = true ∧ F.keyCmd_go.of (keyCmdWord 1 92) = 1 ∧
    F.keyCmd_op.of (keyCmdWord 1 92) = 1 ∧ F.keyCmd_len.of (keyCmdWord 1 92) = 92 ∧ repeated.pair.mode ≠ .split ∧ repeated.keyBusy = false ∧ repeated.memClean = true ∧
    repeated.updPre (repeated.winBytes .pcie keyWin 92) = 14 := by decide +kernel


/-! ## Ill-formed commands: each check of WellFormed refuses one -/

def canLeg (ident : Nat) (ide : Bool) (fmt vcid : Nat) (data : List Byte) : LegRec := ⟨ident, ide, fmt, vcid, 0, 0, false, data⟩

theorem test_wf_can : canFrameWf (canLeg 0x7FF false 0 0 (zs 8)) = true ∧ canFrameWf (canLeg 0x800 false 0 0 (zs 8)) = false ∧
    canFrameWf (canLeg 0x20000000 true 0 0 (zs 8)) = false ∧ canFrameWf (canLeg 1 false 0 256 []) = false ∧
    canFrameWf { canLeg 1 false 0 0 [] with sdt := 256 } = false ∧ canFrameWf { canLeg 1 false 0 0 [] with acc := 4294967296 } = false ∧
    canFrameWf (canLeg 1 false 0 0 (zs 9)) = false ∧ canFrameWf (canLeg 1 false 1 0 (zs 65)) = false ∧
    canFrameWf (canLeg 1 true 2 0 (zs 1)) = false ∧ canFrameWf (canLeg 1 false 2 0 []) = false ∧
    canFrameWf (canLeg 1 false 2 0 (zs 2049)) = false ∧ canFrameWf (canLeg 1 false 3 0 []) = false ∧
    (Instr.canFrameRx 0 (canLeg 0x800 false 0 0 []) false false 0).wf = false ∧
    (Instr.legacyTxOffer 0 (canLeg 1 false 3 0 []) 0).wf = false := by decide +kernel

theorem test_wf_lin : (Instr.linTxOffer 0 (canLeg 63 false 0 0 (zs 8)) 0).wf = true ∧ (Instr.linTxOffer 0 (canLeg 64 false 0 0 (zs 8)) 0).wf = false ∧
    (Instr.linTxOffer 0 (canLeg 1 false 0 0 []) 0).wf = false ∧ (Instr.linTxOffer 0 (canLeg 1 false 0 0 (zs 9)) 0).wf = false ∧
    (Instr.linResponseRx 0 (zs 9) 0 .none false 0).wf = false ∧ (Instr.lpfWakeupFrame 0 false 0x800 8 (zs 8)).wf = false ∧
    (Instr.lpfWakeupFrame 0 true 0x800 8 (zs 9)).wf = false := by decide +kernel

theorem test_wf_frames : (Instr.rxLookupStart 0 false [] none).wf = false ∧ (Instr.rxLookupStart 0 false (zs 127) none).wf = true ∧ (Instr.rxLookupStart 0 false (zs 129) (some ⟨false, 0⟩)).wf = false ∧
    (Instr.rxOversizeDetected 0 false []).wf = false ∧ (Instr.macsecIcvCheckDone 16 0 .none).wf = false ∧
    (Instr.rxContinuationFragment 0 (.cont 0 [] true)).wf = false ∧ (Instr.skerryDescriptorDone 0 0 (.emit [])).wf = false ∧
    (Instr.skerryDescriptorDone 0 0 (.emit [⟨32, [], some (canLeg 1 false 0 0 []), none⟩])).wf = false ∧ (Instr.macsecIcvCheckDone 17 0 .none).wf = true ∧
    (Instr.partialWrite 0 0 0 [none]).wf = false ∧ (Instr.dmaTxFetchDone 0 0 false [] false).wf = false ∧
    (Instr.refereeMismatch 0).wf = false := by decide +kernel

theorem test_wf_status : (Instr.pairStatusRx ⟨zs 16, .active, true, false, false, 0, zs 32⟩).wf = true ∧
    (Instr.pairStatusRx ⟨zs 15, .active, true, false, false, 0, zs 32⟩).wf = false ∧
    (Instr.pairStatusRx ⟨zs 16, .active, true, false, false, 4294967296, zs 32⟩).wf = false ∧
    (Instr.pairStatusRx ⟨zs 16, .active, true, false, false, 0, zs 31⟩).wf = false := by decide +kernel

theorem test_wf_offsets : (Instr.registerWrite .fw 2 0).wf = false ∧ (Instr.lowWordReadCapture .fw 1).wf = false ∧
    (Instr.highWordStageWrite .fw 3 0).wf = false ∧ (Instr.lowWordCommitWrite .fw 2 0).wf = false ∧ (Instr.ptpValueCommit .fw 2 0).wf = false ∧
    (Instr.jtagAccess (.regRead 2)).wf = false ∧ (Instr.jtagAccess (.regWrite 2 0)).wf = false ∧
    (Instr.pcieMwr ⟨false, 2, [(0, 15)], false, 0, 0, []⟩).wf = false ∧ (Instr.pcieMwr ⟨false, 0, [], false, 0, 0, []⟩).wf = false ∧
    (Instr.pcieMrd ⟨false, 2, [15], [], false⟩).wf = false ∧ (Instr.pcieMrd ⟨false, 0, [], [], false⟩).wf = false ∧ (Instr.pcieMrd ⟨false, 0, List.replicate 1025 15, [], false⟩).wf = false := by
  decide +kernel

/-! ## The worked examples of the spec, and check values of the standards it names -/

/-- Queue 63 in "Example: the control shaper of P7 repaying a debt": its addresses and words (chapter 06). -/
theorem test_shaper_addresses : Reg.qmgQLim.addr 63 = 0x200000 + 0x13F0 ∧ Reg.schTbRate.addr 63 = 0x240000 + 0x17E0 ∧
    F.schTbRate_rate_kbps.of 0x80004E20 = 20000 ∧ F.qmgQLim_limit.of 0x00100008 = 16 ∧ F.qmgQLim_min.of 0x00100008 = 8 := by decide +kernel

/-- Steps 3 and 4: a level of -20 bytes stays when rate and depth are written, and SCH_TB_LEVEL reads 0xFFFF_FFEC. -/
def debt : State :=
  let s := with_ [(.schTbRate, 63, 0x80004E20), (.schTbDepth, 63, 0x118)]
  { s with net := { s.net with levels := [(63, -20 * 6400000)] } }

theorem test_shaper_debt : (match exec (.shaperRateWrite .pcie 63 0x80002710) debt with
    | .next t => (match exec (.shaperDepthWrite .pcie 63 0xC8) t with
      | .next u => decide (u.tbLevel 63 = -20 * 6400000 ∧ (u.readReg .pcie .schTbLevel 63).2 = 0xFFFFFFEC)
      | _ => false)
    | _ => false) = true := by decide +kernel

/-- Stream 12 of "Example: the front-left camera to the driving domain controller" has the bound 68,225 ns (chapter 02);
the largest frame of its best-effort queues is 1522 bytes (`max_frame`). -/
def camera (n p : Nat) : StreamDecl := ⟨n, p, [(7, 5)], 1522, 1522, 2, 400000000, 100000, false, none, none, true⟩
def cameras : Cset := { (default : Cset) with streams := [camera 12 4, camera 13 5], bursts := [(63, 600)] }

theorem test_camera_bound : (with_ ((.schTbRate, 63, 0x80004E20) ::
    [56, 57, 58, 59, 60].map fun q => (.qmgQCtrl, q, 0x870005F2 + (q - 56) * 2 ^ 20))).boundAt cameras 0 (camera 12 4) 7 5 = some 68225 := by decide +kernel

/-- The commit of "Example: the front-left zone link" takes effect at 1,700,000,100 s + 250,500,000 ns (chapter 08). -/
theorem test_change_time :
    ({ runS with tim := { runS.tim with doms := [(0, ⟨1700000100250000780 * 2 ^ 48, 0, false⟩)] } } : State).changeTime
      ⟨1700000000000000000, 500000, 0, 0, []⟩ = 1700000100250500000 := by decide +kernel

/-- Word 0 of both records of "Example: a chattering capture input" (chapter 07). -/
theorem test_capture_record : ((⟨0, 0, 0, true, 1, true⟩ : TscOpen).words false 1).getD 0 0 = 0xF0010000 := by decide +kernel

/-- The register of "Example: reading a queue counter over the management port" (chapter 17). -/
theorem test_queue_counter : Ctr.ofAddr 0x210FD0 = some (.qmgQDropQlim, 63) ∧ Ctr.ofAddr 0x087110 = some (.macDropOversize, 7) := by decide +kernel

/-- The example vectors of FIPS 197 (AES-128 and AES-256). -/
def ramp (n : Nat) : List Byte := (List.range n).map (BitVec.ofNat 8)
theorem test_aes : beNat (aesEnc (ramp 16) (beBytes 16 0x00112233445566778899AABBCCDDEEFF)) = 0x69C4E0D86A7B0430D8CDB78070B4C55A ∧
    beNat (aesEnc (ramp 32) (beBytes 16 0x00112233445566778899AABBCCDDEEFF)) = 0x8EA2B7CA516745BFEAFC49904B496089 := by decide +kernel

/-- SHA-256 of "abc" (FIPS 180-4), the CMAC of the empty message (RFC 4493), and the check values of the CRCs over "123456789". -/
theorem test_digests : beNat (sha256 [0x61, 0x62, 0x63]) = 0xBA7816BF8F01CFEA414140DE5DAE2223B00361A396177A9CB410FF61F20015AD ∧
    beNat (cmac (beBytes 16 0x2B7E151628AED2A6ABF7158809CF4F3C) []) = 0xBB1D6929E95937287FA37D129B756746 ∧
    crc32c (beBytes 9 0x313233343536373839) = 0xE3069283 ∧ crc32 (beBytes 9 0x313233343536373839) = 0xCBF43926 ∧
    crc8 (beBytes 9 0x313233343536373839) = 0xDF := by decide +kernel

/-! ## The host's questions -/

theorem test_no_bits (n w : Nat) : decodeTableWord n w = none := rfl
theorem test_idle : (match step State.reset with
    | .next t => decide (t.now = 1 ∧ t.tim.lt = 1 ∧ t.pending = [] ∧ t.regs = State.reset.regs ∧ t.ctrs = State.reset.ctrs ∧ t.op = .boot)
    | _ => false) = true := by decide +kernel

end Sys2Proof.Tests
end

section
/-! ## The register map

A kind of register is an array of rows. Every register of the array has an offset of its own, so a request of its offset reaches
it. -/

namespace Sys2Proof.Machine

open Sys2Proof

/-- The offset of the last register of an array. -/
def RegInfo.last (f : RegInfo) : Nat := f.base + f.s1 * (f.c1 - 1) + f.s2 * (f.c2 - 1)

/-- A row is shorter than the distance of two rows. -/
def RegInfo.grid (f : RegInfo) : Bool :=
  (f.c1 == 1 || f.s2 * (f.c2 - 1) < f.s1) && (f.c2 == 1 || 0 < f.s2)

/-- The array lies word by word below the windows of tables, outside the PHY mirror and the data windows. -/
def RegInfo.inMap (f : RegInfo) : Bool :=
  f.base % 4 == 0 && f.s1 % 4 == 0 && f.s2 % 4 == 0 && f.last < 0x500000 && (f.last < 0xA0000 || 0x100000 ≤ f.base) &&
    [(keyWin, 256), (cipWin, 4096), (updWin, 4096), (nvsWin, 1024)].all fun w => f.last < w.1 || w.1 + w.2 ≤ f.base

/-- The rows of two arrays with the same distance of rows take turns. -/
def RegInfo.rowsApart (f g : RegInfo) : Bool :=
  f.s1 == g.s1 && f.base % f.s1 + f.s2 * (f.c2 - 1) < g.base % f.s1 && g.base % f.s1 + g.s2 * (g.c2 - 1) < f.s1

/-- Two arrays share no offset: one ends before the other begins, their rows take turns, or the places in their
rows do. -/
def RegInfo.apart (f g : RegInfo) : Bool :=
  f.last < g.base || g.last < f.base || f.rowsApart g || g.rowsApart f ||
    (f.s1 % f.s2 == 0 && g.s1 == f.s1 && g.s2 == f.s2 && f.base % f.s2 != g.base % f.s2)

/-- The map finds every register of the kind: the kind is one of the map, and no other register has an offset of it. -/
def Reg.alone (r : Reg) : Bool :=
  r.info.grid && r.info.inMap && Reg.all.contains r && Reg.all.all fun q => q == r || r.info.apart q.info

/-! ### Offsets of registers -/

theorem Reg.addr_of_instAt {r : Reg} {off i : Nat} (h : r.instAt off = some i) : i < r.count ∧ r.addr i = off := by
  unfold Reg.instAt at h
  extract_lets f d a e b at h
  split at h
  · cases h
  · split at h
    · next hoff hab =>
      obtain ⟨ha, hb, he⟩ := hab
      obtain rfl : a * f.c2 + b = i := by simpa using h
      have hd : f.s1 * a ≤ d := by
        unfold a
        split
        · simp
        · exact Nat.mul_div_le d f.s1
      have hdiv : (a * f.c2 + b) / f.c2 = a := by
        rw [Nat.mul_comm, Nat.mul_add_div (by omega), Nat.div_eq_of_lt hb, Nat.add_zero]
      have hmod : (a * f.c2 + b) % f.c2 = b := by
        rw [Nat.mul_comm, Nat.mul_add_mod, Nat.mod_eq_of_lt hb]
      refine ⟨?_, ?_⟩
      · calc a * f.c2 + b < a * f.c2 + f.c2 := by omega
          _ = (a + 1) * f.c2 := by ring
          _ ≤ f.c1 * f.c2 := Nat.mul_le_mul_right _ ha
      · show f.base + f.s1 * ((a * f.c2 + b) / f.c2) + f.s2 * ((a * f.c2 + b) % f.c2) = off
        rw [hdiv, hmod]
        omega
    · cases h

theorem Reg.row_lt {r : Reg} {i : Nat} (hi : i < r.count) : i / r.info.c2 < r.info.c1 :=
  Nat.div_lt_of_lt_mul (by rwa [Nat.mul_comm])

theorem Reg.col_lt {r : Reg} {i : Nat} (hi : i < r.count) : i % r.info.c2 < r.info.c2 :=
  Nat.mod_lt _ (Nat.pos_of_ne_zero fun h => by simp [Reg.count, h] at hi)

theorem Reg.instAt_addr {r : Reg} {i : Nat} (h : r.info.grid = true) (hi : i < r.count) :
    r.instAt (r.addr i) = some i := by
  have hx := Reg.row_lt hi
  have hy := Reg.col_lt hi
  have hxy := Nat.div_add_mod' i r.info.c2
  simp only [RegInfo.grid, Bool.and_eq_true, Bool.or_eq_true, decide_eq_true_eq, beq_iff_eq] at h
  obtain ⟨hrow, hcol⟩ := h
  unfold Reg.instAt Reg.addr
  generalize r.info = f at *
  generalize i / f.c2 = x at *
  generalize i % f.c2 = y at *
  have ha : (if f.c1 = 1 then 0 else (f.s1 * x + f.s2 * y) / f.s1) = x := by
    split
    · omega
    · have hs : f.s2 * y ≤ f.s2 * (f.c2 - 1) := Nat.mul_le_mul_left _ (by omega)
      rw [Nat.mul_add_div (by omega), Nat.div_eq_of_lt (by omega), Nat.add_zero]
  have hb : (if f.c2 = 1 then 0 else f.s2 * y / f.s2) = y := by
    split
    · omega
    · exact Nat.mul_div_cancel_left _ (by omega)
  have hd : f.base + f.s1 * x + f.s2 * y - f.base = f.s1 * x + f.s2 * y := by omega
  have he : f.s1 * x + f.s2 * y - f.s1 * x = f.s2 * y := by omega
  have hge : ¬ f.base + f.s1 * x + f.s2 * y < f.base := by omega
  simp only [hd, ha, he, hb, if_neg hge, hx, hy, and_self, if_true, hxy]

theorem Reg.base_le_addr (r : Reg) (i : Nat) : r.info.base ≤ r.addr i := by
  unfold Reg.addr
  omega

theorem Reg.addr_le_last {r : Reg} {i : Nat} (hi : i < r.count) : r.addr i ≤ r.info.last := by
  have hx : r.info.s1 * (i / r.info.c2) ≤ r.info.s1 * (r.info.c1 - 1) :=
    Nat.mul_le_mul_left _ (Nat.le_sub_one_of_lt (Reg.row_lt hi))
  have hy : r.info.s2 * (i % r.info.c2) ≤ r.info.s2 * (r.info.c2 - 1) :=
    Nat.mul_le_mul_left _ (Nat.le_sub_one_of_lt (Reg.col_lt hi))
  unfold Reg.addr RegInfo.last
  omega

/-- The place in its row, as the offset modulo the distance of rows. -/
theorem Reg.addr_mod_row {r : Reg} {i m : Nat} (hm : r.info.s1 = m) (hi : i < r.count)
    (h : r.info.base % m + r.info.s2 * (r.info.c2 - 1) < m) :
    r.addr i % m = r.info.base % m + r.info.s2 * (i % r.info.c2) := by
  have hy : r.info.s2 * (i % r.info.c2) ≤ r.info.s2 * (r.info.c2 - 1) :=
    Nat.mul_le_mul_left _ (Nat.le_sub_one_of_lt (Reg.col_lt hi))
  unfold Reg.addr
  rw [hm, Nat.add_right_comm, Nat.add_mul_mod_self_left, Nat.add_mod, Nat.mod_eq_of_lt (a := r.info.s2 * _) (by omega),
    Nat.mod_eq_of_lt (by omega)]

theorem Reg.addr_ne_of_rowsApart {r q : Reg} {i j : Nat} (h : r.info.rowsApart q.info = true) (hi : i < r.count)
    (hj : j < q.count) : r.addr i ≠ q.addr j := by
  simp only [RegInfo.rowsApart, Bool.and_eq_true, decide_eq_true_eq, beq_iff_eq] at h
  obtain ⟨⟨hs, hlt⟩, hq⟩ := h
  have hy : r.info.s2 * (i % r.info.c2) ≤ r.info.s2 * (r.info.c2 - 1) :=
    Nat.mul_le_mul_left _ (Nat.le_sub_one_of_lt (Reg.col_lt hi))
  intro e
  have h1 := Reg.addr_mod_row rfl hi (by omega)
  have h2 := Reg.addr_mod_row hs.symm hj hq
  rw [e] at h1
  omega

theorem Reg.addr_mod_col {r : Reg} (h : r.info.s1 % r.info.s2 = 0) (i : Nat) :
    r.addr i % r.info.s2 = r.info.base % r.info.s2 := by
  obtain ⟨k, hk⟩ := Nat.dvd_of_mod_eq_zero h
  unfold Reg.addr
  rw [hk, Nat.add_mul_mod_self_left, Nat.mul_assoc, Nat.add_mul_mod_self_left]

theorem Reg.addr_ne {r q : Reg} {i j : Nat} (h : r.info.apart q.info = true) (hi : i < r.count) (hj : j < q.count) :
    r.addr i ≠ q.addr j := by
  have hri := Reg.base_le_addr r i
  have hqj := Reg.base_le_addr q j
  have hri' := Reg.addr_le_last hi
  have hqj' := Reg.addr_le_last hj
  simp only [RegInfo.apart, Bool.or_eq_true, decide_eq_true_eq] at h
  rcases h with (((h | h) | h) | h) | h
  · omega
  · omega
  · exact Reg.addr_ne_of_rowsApart h hi hj
  · exact (Reg.addr_ne_of_rowsApart h hj hi).symm
  · simp only [Bool.and_eq_true, beq_iff_eq, bne_iff_ne] at h
    obtain ⟨⟨⟨hs, h1⟩, h2⟩, hb⟩ := h
    intro e
    have hr := Reg.addr_mod_col hs i
    have hq := Reg.addr_mod_col (r := q) (by rw [h1, h2, hs]) j
    rw [h2, ← e, hr] at hq
    exact hb hq

theorem Reg.ofAddr_addr {r : Reg} {i : Nat} (h : r.alone = true) (hi : i < r.count) :
    Reg.ofAddr (r.addr i) = some (r, i) := by
  simp only [Reg.alone, Bool.and_eq_true, List.contains_iff_mem, List.all_eq_true, Bool.or_eq_true, beq_iff_eq] at h
  obtain ⟨⟨⟨hp, -⟩, hmem⟩, hap⟩ := h
  unfold Reg.ofAddr
  cases e : Reg.all.findSome? fun q => (q.instAt (r.addr i)).map fun j => (q, j) with
  | none =>
    have := List.findSome?_eq_none_iff.mp e r hmem
    simp [Reg.instAt_addr hp hi] at this
  | some x =>
    obtain ⟨q, hq, hx⟩ := List.exists_of_findSome?_eq_some e
    obtain ⟨j, hj, rfl⟩ := Option.map_eq_some_iff.mp hx
    obtain ⟨hjc, ha⟩ := Reg.addr_of_instAt hj
    obtain rfl | hne := hap q hq
    · rw [Reg.instAt_addr hp hi] at hj
      rw [Option.some.inj hj]
    · exact absurd ha.symm (Reg.addr_ne hne hi hjc)

/-! ### Where registers lie -/

theorem Reg.inMap_of_alone {r : Reg} (h : r.alone = true) : r.info.inMap = true := by
  simp only [Reg.alone, Bool.and_eq_true] at h
  exact h.1.1.2

theorem Reg.addr_word {r : Reg} (h : r.alone = true) (i : Nat) : r.addr i % 4 = 0 := by
  have hm := Reg.inMap_of_alone h
  simp only [RegInfo.inMap, Bool.and_eq_true, beq_iff_eq] at hm
  obtain ⟨⟨⟨⟨⟨hb, h1⟩, h2⟩, -⟩, -⟩, -⟩ := hm
  unfold Reg.addr
  rw [Nat.add_mod, Nat.add_mod r.info.base, Nat.mul_mod, Nat.mul_mod r.info.s2, hb, h1, h2, Nat.zero_mul, Nat.zero_mul]

theorem Reg.addr_lt {r : Reg} {i : Nat} (h : r.alone = true) (hi : i < r.count) : r.addr i < 0x500000 := by
  have hm := Reg.inMap_of_alone h
  simp only [RegInfo.inMap, Bool.and_eq_true, decide_eq_true_eq] at hm
  obtain ⟨⟨⟨-, hlt⟩, -⟩, -⟩ := hm
  exact lt_of_le_of_lt (Reg.addr_le_last hi) hlt

theorem Reg.addr_not_phy {r : Reg} {i : Nat} (h : r.alone = true) (hi : i < r.count) :
    ¬(0xA0000 ≤ r.addr i ∧ r.addr i < 0x100000) := by
  have hm := Reg.inMap_of_alone h
  have hl := Reg.addr_le_last hi
  have hb := Reg.base_le_addr r i
  simp only [RegInfo.inMap, Bool.and_eq_true, Bool.or_eq_true, decide_eq_true_eq] at hm
  obtain ⟨⟨-, hp⟩, -⟩ := hm
  omega

theorem Reg.addr_not_dataWin {r : Reg} {i : Nat} (h : r.alone = true) (hi : i < r.count) : inDataWin (r.addr i) = false := by
  have hm := Reg.inMap_of_alone h
  have hl := Reg.addr_le_last hi
  have hb := Reg.base_le_addr r i
  simp only [RegInfo.inMap, Bool.and_eq_true, List.all_eq_true, Bool.or_eq_true, decide_eq_true_eq] at hm
  obtain ⟨-, hw⟩ := hm
  have hk := hw (keyWin, 256) (by simp)
  have hc := hw (cipWin, 4096) (by simp)
  have hu := hw (updWin, 4096) (by simp)
  have hn := hw (nvsWin, 1024) (by simp)
  simp only [inDataWin, Bool.or_eq_false_iff, Bool.and_eq_false_iff, decide_eq_false_iff_not] at hk hc hu hn ⊢
  omega

/-- The offset of a register, as a command carries it. -/
theorem Reg.toNat_addr {r : Reg} {i : Nat} (h : r.alone = true) (hi : i < r.count) :
    (BitVec.ofNat 24 (r.addr i)).toNat / 4 * 4 = r.addr i := by
  have hlt := Reg.addr_lt h hi
  have hw := Reg.addr_word h i
  rw [BitVec.toNat_ofNat, Nat.mod_eq_of_lt (by omega)]
  omega

/-! ## Requests that are served -/

section Requests

variable {s : State} {p : Path} {r : Reg} {i : Nat} {data : Word}

theorem State.serves_iff {off : Nat} : s.serves p off = true ↔
    s.mapUp = true ∧ (p == .fw && s.coresOff) = false ∧ s.reaches p off = true ∧ (s.postQ p).isEmpty = true := by
  simp only [State.serves, Bool.and_eq_true, Bool.not_eq_true']
  tauto

theorem State.access_of_serves {off : Nat} {f : State → State} {be : Nat} {far : List Byte} (h : s.serves p off = true) :
    s.access p off data f be far = f (s.nextSeq p) := by
  obtain ⟨hm, hc, hr, hq⟩ := State.serves_iff.mp h
  have hr' : (s.nextSeq p).reaches p off = true := hr
  simp [State.access, hm, hc, hq, hr']

theorem State.busWrite_addr (h : r.alone = true) (hi : i < r.count) (hr : s.reaches p (r.addr i) = true) :
    s.busWrite p (r.addr i) data = s.wrRegister p r i data := by
  have hlt := Reg.addr_lt h hi
  unfold State.busWrite
  rw [if_neg (by omega)]
  unfold State.wrDword
  simp only [hr, Bool.not_true, Bool.false_eq_true, if_false, if_true, show ¬(15 = 0) by decide,
    show ¬(0xC00000 ≤ r.addr i) by omega, show ¬(0x800000 ≤ r.addr i) by omega]
  unfold State.wrMap
  rw [if_neg (by omega), if_neg (Reg.addr_not_phy h hi), if_neg (by simp [Reg.addr_not_dataWin h hi]), Reg.ofAddr_addr h hi]

/-- A served write of the offset of a register takes effect as the write of that register. -/
theorem State.access_addr (h : r.alone = true) (hi : i < r.count) (hs : s.servesReg p r i = true) :
    (let off := (BitVec.ofNat 24 (r.addr i)).toNat / 4 * 4
     s.access p off data fun u => u.busWrite p off data) = (s.nextSeq p).wrRegister p r i data := by
  obtain ⟨-, -, hr, -⟩ := State.serves_iff.mp hs
  rw [Reg.toNat_addr h hi]
  dsimp only
  rw [State.access_of_serves hs]
  exact State.busWrite_addr h hi hr

theorem exec_registerWrite_addr (h : r.alone = true) (hi : i < r.count) (hs : s.servesReg p r i = true) :
    exec (.registerWrite p (BitVec.ofNat 24 (r.addr i)) data) s = .next ((s.nextSeq p).wrRegister p r i data) :=
  congrArg _ (State.access_addr h hi hs)

theorem exec_highWordStageWrite_addr (h : r.alone = true) (hi : i < r.count) (hs : s.servesReg p r i = true) :
    exec (.highWordStageWrite p (BitVec.ofNat 24 (r.addr i)) data) s = .next ((s.nextSeq p).wrRegister p r i data) :=
  congrArg _ (State.access_addr h hi hs)

theorem exec_lowWordCommitWrite_addr (h : r.alone = true) (hi : i < r.count) (hs : s.servesReg p r i = true) :
    exec (.lowWordCommitWrite p (BitVec.ofNat 24 (r.addr i)) data) s = .next ((s.nextSeq p).wrRegister p r i data) :=
  congrArg _ (State.access_addr h hi hs)

theorem exec_ptpValueCommit_addr (h : r.alone = true) (hi : i < r.count) (hs : s.servesReg p r i = true) :
    exec (.ptpValueCommit p (BitVec.ofNat 24 (r.addr i)) data) s = .next ((s.nextSeq p).wrRegister p r i data) :=
  congrArg _ (State.access_addr h hi hs)

theorem State.busRead_addr (h : r.alone = true) (hi : i < r.count) (hw : s.regWords r i = none) :
    s.busRead p (r.addr i) = ((s.readReg p r i).1, (s.readReg p r i).2, false) := by
  have hlt := Reg.addr_lt h hi
  unfold State.busRead
  rw [if_neg (by omega), if_neg (Reg.addr_not_phy h hi), if_neg (by simp [Reg.addr_not_dataWin h hi]), Reg.ofAddr_addr h hi]
  simp only [State.regCheck, hw]

/-- A served read of a register that shows no word of a memory answers what the register reads. -/
theorem exec_lowWordReadCapture_addr (h : r.alone = true) (hi : i < r.count) (hs : s.servesReg p r i = true)
    (hw : s.regWords r i = none) :
    exec (.lowWordReadCapture p (BitVec.ofNat 24 (r.addr i))) s =
      .next ((s.readReg p r i).1.emit (.regRead p (r.addr i) (s.readReg p r i).2)) := by
  obtain ⟨hm, hc, hr, hq⟩ := State.serves_iff.mp hs
  have hlt := Reg.addr_lt h hi
  refine congrArg Host.Outcome.next (?_ : s.readFree p _ = _)
  rw [Reg.toNat_addr h hi]
  unfold State.readFree
  rw [if_neg (by omega)]
  unfold State.readRow State.drain State.readDword
  have h1 : ¬(0xC00000 ≤ r.addr i) := by omega
  have h2 : ¬(0x800000 ≤ r.addr i) := by omega
  simp [hm, hc, hq, hr, h1, h2, State.busRead_addr h hi hw]

end Requests

end Sys2Proof.Machine
end

section
/-! ## Status bits of events

A source that rises sets its status bit, and nothing that a rising source does clears a status bit. -/

namespace Sys2Proof.Machine

open Sys2Proof

variable {s t : State}

theorem getBit_putBits_one (w : Word) {k j : Nat} (hk : k < 32) (hj : j < 32) :
    getBit (putBits w k k 1) j = if j = k then true else getBit w j := by
  have e : w.toNat % 2 ^ k + 1 % 2 ^ (k - k + 1) * 2 ^ k + w.toNat / 2 ^ (k + 1) * 2 ^ (k + 1)
      = 2 ^ k * (1 + 2 * (w.toNat / 2 ^ (k + 1))) + w.toNat % 2 ^ k := by
    rw [Nat.sub_self, pow_succ]
    ring_nf
  have hlt : w.toNat % 2 ^ k < 2 ^ k := Nat.mod_lt _ (by positivity)
  simp only [getBit, putBits, BitVec.getLsbD, BitVec.toNat_ofNat, Nat.testBit_mod_two_pow, hj, decide_true, Bool.true_and]
  rw [e, Nat.testBit_two_pow_mul_add _ hlt]
  rcases Nat.lt_trichotomy j k with h | rfl | h
  · simp [h, h.ne, Nat.testBit_mod_two_pow]
  · simp [Nat.testBit_zero, Nat.add_mod]
  · obtain ⟨m, rfl⟩ : ∃ m, j = k + 1 + m := ⟨j - (k + 1), by omega⟩
    have hm : k + 1 + m - k = m + 1 := by omega
    have hd : (1 + 2 * (w.toNat / 2 ^ (k + 1))) / 2 = w.toNat / 2 ^ (k + 1) := by omega
    rw [if_neg (by omega), if_neg (by omega), hm, Nat.testBit_succ, hd, Nat.testBit_div_two_pow]
    congr 1
    omega

/-- The status bits of `t` are those of `s`. -/
def SameStat (s t : State) : Prop := ∀ i, t.rd .evtStat i = s.rd .evtStat i

namespace SameStat

theorem ite {a b : State} {c : Prop} [Decidable c] (ha : SameStat s a) (hb : SameStat s b) :
    SameStat s (if c then a else b) := by
  split
  exacts [ha, hb]

theorem refl (s : State) : SameStat s s := fun _ => rfl

theorem iteFst {α : Type} {a b : State × α} {c : Prop} [Decidable c] (ha : SameStat s a.1) (hb : SameStat s b.1) :
    SameStat s (if c then a else b).1 := by
  split
  exacts [ha, hb]

variable (h : SameStat s t)
include h

/-- Parts of the state other than the registers may change. -/
theorem frame {pending now free out phys op prevOp cause leftOp ctrs hold stage tim hbr mqs mem pwr boot mram flash win pair red
    net keys} : SameStat s ⟨pending, now, free, out, phys, op, prevOp, cause, leftOp, t.regs, ctrs, hold, stage, tim, hbr, mqs,
      mem, pwr, boot, mram, flash, win, pair, red, net, keys⟩ := h

theorem wr {r : Reg} {i : Nat} {w : Word} (hr : .evtStat ≠ r) : SameStat s (t.wr r i w) := fun j =>
  (State.rd_wr_reg t r _ i j w hr).trans (h j)

theorem setFld {f : RegField} {i v : Nat} (hr : .evtStat ≠ f.reg) : SameStat s (t.setFld f i v) := h.wr hr

theorem bump {c : Ctr} {i : Nat} : SameStat s (t.bump c i) := h

theorem bumpIf {b : Bool} {c : Ctr} {i : Nat} : SameStat s (t.bumpIf b c i) := ite h.bump h

theorem emit {o : Out} : SameStat s (t.emit o) := h

theorem setBall {b : Nat} {l : Bool} : SameStat s (t.setBall b l) := ite h ((h.wr (by decide)).wr (by decide))

theorem settle : SameStat s t.settle := h.setBall.setBall.setBall

theorem setMq {k : Nat} {q : Mq} : SameStat s (t.setMq k q) := h

theorem setMemErr {m a b : Nat} {e : Option (WordErr × Nat)} : SameStat s (t.setMemErr m a b e) := h

theorem applyFlip {m a b enc : Nat} : SameStat s (t.applyFlip m a b enc) :=
  (setFld (setMemErr h) (by decide)).bump

theorem memWrite {m a b : Nat} : SameStat s (t.memWrite m a b) := ite h.setMemErr.frame.applyFlip h.setMemErr.frame

theorem mqAppend {k : Nat} {it : MqItem} : SameStat s (t.mqAppend k it) := h.memWrite.memWrite.setMq

theorem mqPostCore {k : Nat} {it : MqItem} : SameStat s (t.mqPostCore k it).1 :=
  iteFst h (iteFst (iteFst h.bumpIf.bumpIf.setMq.mqAppend.bump h.bump) h.mqAppend.bump)

theorem logOrder {k : Nat} : SameStat s (t.logOrder k) := by
  unfold State.logOrder
  dsimp only
  split
  · exact ite h.setMq h
  · exact h

theorem riseLog {src : Nat} : SameStat s (t.riseLog src).1 := iteFst h.mqPostCore.logOrder h

theorem vecRequest {v : Nat} : SameStat s (t.vecRequest v) := ite h.frame (h.frame.frame)

theorem riseNotify {src : Nat} : SameStat s (t.riseNotify src) := ite (vecRequest (ite h.emit h)) (ite h.emit h)

theorem sendStatus : SameStat s t.sendStatus := ite h.frame h.frame.emit

theorem setRole {r : Role} : SameStat s (t.setRole r) := ite h (ite h.frame.sendStatus h.frame)

theorem enterSafe {ss : SafeSt} : SameStat s (t.enterSafe ss) := ite h.frame h.frame.setRole

theorem faultCore {code sub : Nat} : SameStat s (t.faultCore code sub) := by
  unfold State.faultCore
  extract_lets ss now old _ s1 s2 s3 s4 s5 s6
  have h2 : SameStat s s2 := bump (setBall (ite h h.frame))
  have h4 : SameStat s s4 := (h2.wr (by decide)).wr (by decide)
  have h5 : SameStat s s5 := ite ((h2.setFld (by decide)).setFld (by decide)) h2
  have h6 : SameStat s s6 := ite (h4.wr (by decide)) (ite (h5.setFld (by decide)) h2)
  exact h6.enterSafe

end SameStat

/-- After its status bit is set, a rising source changes no status bit. -/
theorem sameStat_rise (s : State) (src : Nat) :
    SameStat (s.wr .evtStat (src / 32) (putBits (s.rd .evtStat (src / 32)) (src % 32) (src % 32) 1)) (s.rise src).1 := by
  unfold State.rise
  extract_lets x t
  have ht : SameStat _ t := (SameStat.refl _).riseLog.riseNotify
  exact .iteFst ht.faultCore ht

theorem State.evtStat_rise (s : State) (src i : Nat) : (s.rise src).1.rd .evtStat i =
    if i = src / 32 then putBits (s.rd .evtStat i) (src % 32) (src % 32) 1 else s.rd .evtStat i := by
  rw [sameStat_rise s src i, State.rd_wr]
  by_cases h : i = src / 32 <;> simp [h]

theorem State.statBit_rise {src i b : Nat} (hb : b < 32) : getBit ((s.rise src).1.rd .evtStat i) b =
    (decide (i = src / 32 ∧ b = src % 32) || getBit (s.rd .evtStat i) b) := by
  rw [State.evtStat_rise]
  by_cases hi : i = src / 32
  · rw [if_pos hi, getBit_putBits_one _ (Nat.mod_lt _ (by decide)) hb]
    by_cases hk : b = src % 32 <;> simp [hi, hk]
  · simp [hi]

/-- Sources that rise clear no status bit. -/
theorem State.statBit_raiseFuel {n : Nat} {l : List Nat} {i b : Nat} (hb : b < 32)
    (h : getBit (s.rd .evtStat i) b = true) : getBit ((State.raiseFuel n s l).rd .evtStat i) b = true := by
  induction n generalizing s l with
  | zero => exact h
  | succ n ih =>
    cases l with
    | nil => exact h
    | cons src rest =>
      unfold State.raiseFuel
      split
      · exact ih h
      · exact ih (by rw [State.statBit_rise hb, h, Bool.or_true])

/-- A listed source that is raised has its status bit set. -/
theorem State.statBit_raise {src : Nat} (h : Ev.listed src = true) :
    getBit ((s.raise src).rd .evtStat (src / 32)) (src % 32) = true := by
  have hb : src % 32 < 32 := Nat.mod_lt _ (by decide)
  show getBit ((State.raiseFuel 13 s [src]).settle.rd .evtStat (src / 32)) (src % 32) = true
  rw [(SameStat.refl _).settle]
  unfold State.raiseFuel
  rw [if_neg (by simp [h])]
  exact State.statBit_raiseFuel hb (by rw [State.statBit_rise hb]; simp)

end Sys2Proof.Machine
end

section
/-! ## Plain writes, values of several words, and JTAG -/

namespace Sys2Proof.Machine

open Sys2Proof

variable {s : State}

@[simp] theorem State.pathSt_nextSeq (p : Path) :
    (s.nextSeq p).pathSt p = { s.pathSt p with seq := ((s.pathSt p).seq + 1) % 4294967296 } := tblGet_set_same ..

/-- A value put into a field is cut to the field, so cutting it before changes nothing. -/
theorem putBits_getBits_low (w v : Word) (hi : Nat) : putBits w hi 0 (getBits v hi 0) = putBits w hi 0 v.toNat := by
  simp [putBits, getBits]

theorem State.wrRegister_evtVecCfg (s : State) (p : Path) (v : Nat) (data : Word) :
    s.wrRegister p .evtVecCfg v data = s.wr .evtVecCfg v (putBits (s.rd .evtVecCfg v) 15 0 data.toNat) :=
  congrArg (s.wr .evtVecCfg v) (putBits_getBits_low (s.rd .evtVecCfg v) data 15)

/-- Settles O3: the register has one field, of any value, and its write goes through `State.writeReg`. -/
theorem plainRegisterWriteSetsItsField : Obligations.PlainRegisterWriteSetsItsField := by
  intro s p v data hs
  refine ⟨_, exec_registerWrite_addr (by decide +kernel) v.isLt hs, ?_⟩
  rw [State.wrRegister_evtVecCfg]
  refine ⟨State.rd_wr_same .., fun r i h => ?_, congrArg PathSt.seq (State.pathSt_nextSeq p), ?_⟩
  · rw [State.rd_wr, if_neg h]
    rfl
  · simp [keeps, Part.same]

/-- Settles O58: IDCODE is answered before any check of the life-cycle state. -/
theorem jtagIdcode : Obligations.JtagIdcode := by
  intro s lvl hop
  refine ⟨0x09640D3B, ?_, rfl, by decide⟩
  show Host.Outcome.next (if s.op = .off then s else _) = _
  rw [if_neg hop]
  rfl

theorem pairKey_ne_of_path {p q : Path} {off : Nat} (h : q ≠ p) : pairKey q off ≠ pairKey p off := by
  cases p <;> cases q <;> simp [pairKey, Path.code] at h ⊢

theorem pairKey_ne_of_off {p : Path} {a b : Nat} (h : a ≠ b) : pairKey p a ≠ pairKey p b := by
  unfold pairKey
  omega

/-! ### TIM_LT (R13) -/

theorem State.fifoFront_timLt (s : State) (i : Nat) : s.fifoFront .timLt i = s := by
  unfold State.fifoFront
  split <;> rfl

theorem State.readReg_timLt_low (s : State) (p : Path) :
    s.readReg p .timLt 0 = (s.holdWord p (Reg.timLt.addr 0 + 4) (word64 s.ltNs 1), word64 s.ltNs 0) := by
  unfold State.readReg
  rw [State.fifoFront_timLt]
  rfl

theorem State.readReg_timLt_high (s : State) (p : Path) :
    s.readReg p .timLt 1 = s.takeHeld p (Reg.timLt.addr 1) (word64 s.ltNs 1) := by
  unfold State.readReg
  rw [State.fifoFront_timLt]
  rfl

theorem exec_timLt_low {p : Path} (hs : s.servesReg p .timLt 0 = true) :
    exec (.lowWordReadCapture p (BitVec.ofNat 24 (Reg.timLt.addr 0))) s =
      .next ((s.holdWord p (Reg.timLt.addr 0 + 4) (word64 s.ltNs 1)).emit (.regRead p (Reg.timLt.addr 0) (word64 s.ltNs 0))) := by
  rw [exec_lowWordReadCapture_addr (by decide +kernel) (by decide) hs rfl, State.readReg_timLt_low]

theorem exec_timLt_high {p : Path} (hs : s.servesReg p .timLt 1 = true) :
    exec (.lowWordReadCapture p (BitVec.ofNat 24 (Reg.timLt.addr 1))) s =
      .next ((s.takeHeld p (Reg.timLt.addr 1) (word64 s.ltNs 1)).1.emit
        (.regRead p (Reg.timLt.addr 1) (s.takeHeld p (Reg.timLt.addr 1) (word64 s.ltNs 1)).2)) := by
  rw [exec_lowWordReadCapture_addr (by decide +kernel) (by decide) hs rfl, State.readReg_timLt_high]

theorem State.takeHeld_some {p : Path} {off : Nat} {live v : Word} (h : tblFind s.hold (pairKey p off) = some v) :
    s.takeHeld p off live = ({ s with hold := tblDel s.hold (pairKey p off) }, v) := by
  simp only [State.takeHeld, h]

theorem State.takeHeld_none {p : Path} {off : Nat} {live : Word} (h : tblFind s.hold (pairKey p off) = none) :
    s.takeHeld p off live = (s, live) := by
  simp only [State.takeHeld, h]

/-! ### Ring bases (R14) -/

theorem State.wrRegister_ringBase_high (s : State) (p : Path) (r : Nat) (data : Word) :
    s.wrRegister p .hbrTxRingBase (2 * r + 1) data = s.stageWord p (Reg.hbrTxRingBase.addr (2 * r + 1)) data := by
  simp [State.wrRegister, regExists, stageWords]

theorem State.wrRegister_ringBase_low (s : State) (p : Path) (r : Nat) (lo : Word) (h : s.on F.hbrTxRingCfg_en r = false) :
    s.wrRegister p .hbrTxRingBase (2 * r) lo = s.wrPair p .hbrTxRingBase (2 * r) (putBits lo 3 0 0) := by
  have hi : 2 * r / 2 = r := by omega
  simp [State.wrRegister, regExists, stageWords, State.wrCommit, State.wrRingBase, hi, h]

/-! ### Values in PTP format (R16, R17) -/

theorem State.wrRegister_tgaAdminBase (s : State) (path : Path) (p : Nat) (ns : Word) :
    s.wrRegister path .tgaAdminBase (3 * p) ns = s.wrTideBase path p ns := by
  have hi : 3 * p / 3 = p := by omega
  simp [State.wrRegister, regExists, stageWords, State.wrCommit, hi]

theorem State.wrRegister_schGateBase (s : State) (path : Path) (g : Nat) (ns : Word) :
    s.wrRegister path .schGateBase (3 * g) ns = s.wrGateBase path g ns := by
  have hi : 3 * g / 3 = g := by omega
  simp [State.wrRegister, regExists, stageWords, State.wrCommit, hi]

theorem State.wrRegister_timDomSet (s : State) (path : Path) (d : Nat) (ns : Word) :
    s.wrRegister path .timDomSet (3 * d) ns = s.wrDomSet path d ns := by
  have hi : 3 * d / 3 = d := by omega
  simp [State.wrRegister, regExists, stageWords, State.wrCommit, hi]

/-- The staging registers of words 1 and 2 of a value are emptied. -/
def State.unstageWords (s : State) (p : Path) (off : Nat) : State :=
  { s with stage := tblDel (tblDel s.stage (pairKey p (off + 4))) (pairKey p (off + 8)) }

theorem State.ptpTake_inRange {p : Path} {r : Reg} {i : Nat} {ns w1 w2 : Word} (h : ns.toNat < 1000000000)
    (h1 : tblFind s.stage (pairKey p (r.addr i + 4)) = some w1) (h2 : tblFind s.stage (pairKey p (r.addr i + 8)) = some w2) :
    s.ptpTake p r i ns = (some (ns, w1, BitVec.ofNat 32 (w2.toNat % 65536)), s.unstageWords p (r.addr i)) := by
  have h2' := (tblFind_del_other s.stage _ _ (pairKey_ne_of_off (p := p) (show r.addr i + 8 ≠ r.addr i + 4 by omega))).trans h2
  simp [State.ptpTake, State.unstage, State.unstageWords, h, h1, h2']

theorem State.ptpTake_outOfRange (s : State) (p : Path) (r : Reg) (i : Nat) {ns : Word} (h : 1000000000 ≤ ns.toNat) :
    s.ptpTake p r i ns = (none, (s.unstageWords p (r.addr i)).accessErr r.info.blk) := by
  have h' : ¬ns.toNat < 1000000000 := by omega
  simp [State.ptpTake, State.unstage, State.unstageWords, h']

theorem State.tideClosed_free {t : Tide} (hp : t.pend = none) (hb : t.busy = none) : s.tideClosed t = false := by
  simp [State.tideClosed, hp, hb]

theorem State.wrTideBase_inRange {path : Path} {p : Nat} {ns w1 w2 : Word} (h : ns.toNat < 1000000000)
    (hp : (s.tide p).pend = none) (hb : (s.tide p).busy = none)
    (h1 : tblFind s.stage (pairKey path (Reg.tgaAdminBase.addr (3 * p) + 4)) = some w1)
    (h2 : tblFind s.stage (pairKey path (Reg.tgaAdminBase.addr (3 * p) + 8)) = some w2) :
    s.wrTideBase path p ns = (s.unstageWords path (Reg.tgaAdminBase.addr (3 * p))).ptpWrite .tgaAdminBase (3 * p)
      (ns, w1, BitVec.ofNat 32 (w2.toNat % 65536)) := by
  have hc : (s.unstageWords path (Reg.tgaAdminBase.addr (3 * p))).tideClosed (s.tide p) = false := State.tideClosed_free hp hb
  unfold State.wrTideBase
  rw [State.ptpTake_inRange h h1 h2]
  exact if_neg (by rw [Bool.not_eq_true]; exact hc)

/-- Settles O4: reads go by the holding register of the path, and writes by its staging registers. -/
theorem multiWordValues : Obligations.MultiWordValues := by
  refine ⟨fun s p => ⟨fun hs => ?_, fun hs => ⟨fun v hv => ?_, fun hv => ?_⟩, fun r data hs => ?_,
    fun r lo hi hs hen hst => ?_⟩, fun s path p ns w1 w2 hs hns hp hb h1 h2 => ?_⟩
  · refine ⟨_, exec_timLt_low hs, rfl, tblFind_put_same .., rfl, fun q hq => ?_⟩
    exact tblFind_put_other _ _ _ _ (pairKey_ne_of_path hq)
  · rw [exec_timLt_high hs, State.takeHeld_some hv]
    rfl
  · rw [exec_timLt_high hs, State.takeHeld_none hv]
    rfl
  · refine ⟨_, exec_highWordStageWrite_addr (by decide +kernel) (show 2 * r.val + 1 < 16 by omega) hs, ?_⟩
    rw [State.wrRegister_ringBase_high]
    exact ⟨tblFind_put_same .., rfl⟩
  · refine ⟨_, exec_lowWordCommitWrite_addr (by decide +kernel) (show 2 * r.val < 16 by omega) hs, ?_⟩
    rw [State.wrRegister_ringBase_low (s.nextSeq p) p r lo hen]
    refine ⟨?_, ?_, tblFind_del_same ..⟩
    · simp [State.wrPair, State.unstage, hst]
    · simp [State.wrPair, State.unstage, State.rd_wr]
  · refine ⟨_, exec_ptpValueCommit_addr (by decide +kernel) (show 3 * p.val < 48 by omega) hs, ?_⟩
    rw [State.wrRegister_tgaAdminBase, State.wrTideBase_inRange (s := s.nextSeq path) hns hp hb h1 h2]
    simp [State.ptpWrite, State.rd_wr]

theorem State.wrTideBase_outOfRange (s : State) (path : Path) (p : Nat) {ns : Word} (h : 1000000000 ≤ ns.toNat) :
    s.wrTideBase path p ns = (s.unstageWords path (Reg.tgaAdminBase.addr (3 * p))).accessErr .tga := by
  unfold State.wrTideBase
  rw [State.ptpTake_outOfRange _ _ _ _ h]
  rfl

theorem State.wrGateBase_outOfRange (s : State) (path : Path) (g : Nat) {ns : Word} (h : 1000000000 ≤ ns.toNat) :
    s.wrGateBase path g ns = (s.unstageWords path (Reg.schGateBase.addr (3 * g))).accessErr .sch := by
  unfold State.wrGateBase
  rw [State.ptpTake_outOfRange _ _ _ _ h]
  rfl

theorem State.wrDomSet_outOfRange (s : State) (path : Path) (d : Nat) {ns : Word} (h : 1000000000 ≤ ns.toNat) :
    s.wrDomSet path d ns = (s.unstageWords path (Reg.timDomSet.addr (3 * d))).accessErr .tim := by
  unfold State.wrDomSet
  rw [State.ptpTake_outOfRange _ _ _ _ h]
  rfl

/-- A commit that only empties the staging registers and raises the access error of the block leaves the rest as it is. -/
theorem exec_ptpValueCommit_discarded {p : Path} {r : Reg} {i : Nat} {b : Blk} {ns : Word} (ha : r.alone = true)
    (hi : i < r.count) (hs : s.servesReg p r i = true) (hr : r ∉ eventRegs) (hb : Ev.listed (Ev.accessErr b) = true)
    (hw : ∀ u : State, u.wrRegister p r i ns = (u.unstageWords p (r.addr i)).accessErr b) :
    ∃ t, exec (.ptpValueCommit p (BitVec.ofNat 24 (r.addr i)) ns) s = .next t ∧
      t.rd r i = s.rd r i ∧ t.rd r (i + 1) = s.rd r (i + 1) ∧ t.rd r (i + 2) = s.rd r (i + 2) ∧
      t.tim = s.tim ∧ t.net = s.net ∧
      tblFind t.stage (pairKey p (r.addr i + 4)) = none ∧ tblFind t.stage (pairKey p (r.addr i + 8)) = none ∧
      getBit (t.rd .evtStat (Ev.accessErr b / 32)) (Ev.accessErr b % 32) = true ∧ regsBut eventRegs s t := by
  refine ⟨_, exec_ptpValueCommit_addr ha hi hs, ?_⟩
  rw [hw]
  have hq := quiet_accessErr ((s.nextSeq p).unstageWords p (r.addr i)) b
  refine ⟨hq.rd r _ hr, hq.rd r _ hr, hq.rd r _ hr, hq.tim, hq.net, ?_, ?_, State.statBit_raise hb,
    fun q j hj => hq.rd q j hj⟩
  · rw [hq.stage]
    simp [State.unstageWords, tblFind_del]
  · rw [hq.stage]
    simp [State.unstageWords]

/-- Settles O59: for each target, the check of the nanoseconds stands before every other effect but the emptying of the staging
registers. -/
theorem ptpValueOutOfRangeIsDiscarded : Obligations.PtpValueOutOfRangeIsDiscarded := by
  intro s p ns hns
  refine ⟨fun d hs => ?_, fun q hs => ?_, fun g hs => ?_⟩
  · exact exec_ptpValueCommit_discarded (by decide +kernel) (show 3 * d.val < 12 by omega) hs (by decide) (by decide)
      fun u => (u.wrRegister_timDomSet p d ns).trans (u.wrDomSet_outOfRange p d hns)
  · exact exec_ptpValueCommit_discarded (by decide +kernel) (show 3 * q.val < 48 by omega) hs (by decide) (by decide)
      fun u => (u.wrRegister_tgaAdminBase p q ns).trans (u.wrTideBase_outOfRange p q hns)
  · exact exec_ptpValueCommit_discarded (by decide +kernel) (show 3 * g.val < 768 by omega) hs (by decide) (by decide)
      fun u => (u.wrRegister_schGateBase p g ns).trans (u.wrGateBase_outOfRange p g hns)

end Sys2Proof.Machine
end

section
/-! ## The tables stay canonical

A table of the machine is changed by `tblSet`, `tblPut`, `tblDel`, `tblKeep` and filters alone, and each of them keeps
its form. `Canon.frame` covers a change of any other part of the state. For each function `f` of the model that answers a
state, `Canon.f` says that it keeps the tables canonical; its proof follows the text of `f`, call by call. -/

namespace Sys2Proof.Machine

open Sys2Proof

variable {s : State}

/-- `State.canon` as a proposition, with a name for each part. -/
structure Canon (s : State) : Prop where
  regs : tblWf s.regs = true
  ctrs : tblWf s.ctrs = true
  nonzero : tblClean 0 s.ctrs = true
  hold : tblWf s.hold = true
  stage : tblWf s.stage = true
  win : tblWf s.win = true
  flash : tblWf s.flash = true

theorem canon_iff : Canon s ↔ s.canon = true := by
  simp only [State.canon, Bool.and_eq_true]
  exact ⟨fun h => ⟨⟨⟨⟨⟨⟨h.regs, h.ctrs⟩, h.nonzero⟩, h.hold⟩, h.stage⟩, h.win⟩, h.flash⟩,
    fun ⟨⟨⟨⟨⟨⟨hr, hc⟩, hz⟩, hh⟩, hs⟩, hw⟩, hf⟩ => ⟨hr, hc, hz, hh, hs, hw, hf⟩⟩

/-- The outcome of a command is a state with canonical tables, if it is a state. -/
def CanonOut : Host.Outcome State Fault Refusal → Prop
  | .next t => Canon t
  | _ => True

/-- A state with the tables of `s`, whatever its other parts. -/
theorem Canon.frame {pending now free out phys op prevOp cause leftOp tim hbr mqs mem pwr boot mram pair red net keys}
    (h : Canon s) : Canon ⟨pending, now, free, out, phys, op, prevOp, cause, leftOp, s.regs, s.ctrs, s.hold, s.stage,
      tim, hbr, mqs, mem, pwr, boot, mram, s.flash, s.win, pair, red, net, keys⟩ := { h with }

theorem Canon.ite {a b : State} {c : Prop} [Decidable c] (ha : Canon a) (hb : Canon b) : Canon (if c then a else b) := by
  split
  exacts [ha, hb]

theorem Canon.pair {α : Type} {a : α} (h : Canon s) : Canon (s, a).1 := h

theorem Canon.iteFst {α : Type} {a b : State × α} {c : Prop} [Decidable c] (ha : Canon a.1) (hb : Canon b.1) :
    Canon (if c then a else b).1 := by
  split
  exacts [ha, hb]

theorem Canon.iteRun {a b : LoadRun} {c : Prop} [Decidable c] (ha : Canon a.s) (hb : Canon b.s) :
    Canon (if c then a else b).s := by
  split
  exacts [ha, hb]

theorem Canon.foldl {α : Type} {f : State → α → State} {l : List α} (h : Canon s)
    (hf : ∀ u a, Canon u → Canon (f u a)) : Canon (l.foldl f s) := List.foldlRecOn l f h fun u hu a _ => hf u a hu

theorem Canon.foldlFst {α β : Type} {f : State × β → α → State × β} {x : State × β} {l : List α} (h : Canon x.1)
    (hf : ∀ u a, Canon u.1 → Canon (f u a).1) : Canon (l.foldl f x).1 :=
  List.foldlRecOn (motive := fun x => Canon x.1) l f h fun u hu a _ => hf u a hu

theorem Canon.ofFst {α : Type} {x : State × α} {t : State} {a : α} (h : Canon x.1) (e : x = (t, a)) : Canon t := by
  subst e
  exact h

theorem Canon.ofSnd {α : Type} {x : α × State} {t : State} {a : α} (h : Canon x.2) (e : x = (a, t)) : Canon t := by
  subst e
  exact h

/-! ### Ops -/

theorem Canon.wr {r i w} (h : Canon s) : Canon (s.wr r i w) := { h with regs := tblWf_set _ _ _ _ h.regs }

theorem Canon.setFld {f i v} (h : Canon s) : Canon (s.setFld f i v) := h.wr

theorem Canon.bumpBy {c i n} (h : Canon s) : Canon (s.bumpBy c i n) :=
  { h with ctrs := tblWf_set _ _ _ _ h.ctrs, nonzero := tblClean_set _ _ _ _ h.nonzero }

theorem Canon.bump {c i} (h : Canon s) : Canon (s.bump c i) := h.bumpBy

theorem Canon.bumpIf {b c i} (h : Canon s) : Canon (s.bumpIf b c i) := .ite h.bump h

theorem Canon.emit {o} (h : Canon s) : Canon (s.emit o) := h.frame

theorem Canon.drawWord (h : Canon s) : Canon s.drawWord.2 := h.frame

theorem Canon.drawTrng {n} (h : Canon s) : Canon (s.drawTrng n).2 := h.frame

theorem Canon.setMemErr {mem inst addr e} (h : Canon s) : Canon (s.setMemErr mem inst addr e) := h.frame

theorem Canon.applyFlip {mem inst addr enc} (h : Canon s) : Canon (s.applyFlip mem inst addr enc) :=
  h.setMemErr.setFld.bump

theorem Canon.memWrite {mem inst addr} (h : Canon s) : Canon (s.memWrite mem inst addr) :=
  .ite h.setMemErr.frame.applyFlip h.setMemErr.frame

theorem Canon.poisonWrite {mem inst addr} (h : Canon s) : Canon (s.poisonWrite mem inst addr) :=
  .ite h.applyFlip h.setMemErr

theorem Canon.memFill {mem inst lo n} (h : Canon s) : Canon (s.memFill mem inst lo n) := .ite h.frame.applyFlip h.frame

theorem Canon.setBall {b level} (h : Canon s) : Canon (s.setBall b level) := .ite h h.wr.wr

theorem Canon.pins (h : Canon s) : Canon s.pins := h.setBall.setBall.foldl fun _ _ h1 => h1.setBall

theorem Canon.restBalls (h : Canon s) : Canon s.restBalls := h.setBall.setBall.setBall.setBall.frame

theorem Canon.settle (h : Canon s) : Canon s.settle := h.setBall.setBall.setBall

theorem Canon.setMq {k q} (h : Canon s) : Canon (s.setMq k q) := h.frame

theorem Canon.mqAppend {k it} (h : Canon s) : Canon (s.mqAppend k it) := h.memWrite.memWrite.setMq

theorem Canon.mqPostCore {k it} (h : Canon s) : Canon (s.mqPostCore k it).1 :=
  .iteFst h (.iteFst (.iteFst h.bumpIf.bumpIf.setMq.mqAppend.bump h.bump) h.mqAppend.bump)

theorem Canon.setSess {x} (h : Canon s) : Canon (s.setSess x) := h.frame

theorem Canon.setBcr {r} (h : Canon s) : Canon (s.setBcr r) := h.frame

theorem Canon.emitPair {bs} (h : Canon s) : Canon (s.emitPair bs) := .ite h h.emit

theorem Canon.sendStatus (h : Canon s) : Canon s.sendStatus := h.frame.emitPair

theorem Canon.setRole {r} (h : Canon s) : Canon (s.setRole r) := .ite h (.ite h.frame.sendStatus h.frame)

theorem Canon.enterSafe {ss} (h : Canon s) : Canon (s.enterSafe ss) := .ite h.frame h.frame.setRole

theorem Canon.faultCore {code sub} (h : Canon s) : Canon (s.faultCore code sub) := by
  unfold State.faultCore
  extract_lets ss now old _ s1 s2 s3 s4 s5 s6
  have h2 : Canon s2 := .bump (.setBall (.ite h h.frame))
  have h5 : Canon s5 := .ite h2.setFld.setFld h2
  have h6 : Canon s6 := .ite h2.wr.wr.wr (.ite h5.setFld h2)
  exact h6.enterSafe

theorem Canon.setVec {v m} (h : Canon s) : Canon (s.setVec v m) := h.frame

theorem Canon.vecSend {v} (h : Canon s) : Canon (s.vecSend v) := h.setVec.emit

theorem Canon.vecRequest {v} (h : Canon s) : Canon (s.vecRequest v) := .ite h.setVec h.vecSend

theorem Canon.logOrder {k} (h : Canon s) : Canon (s.logOrder k) := by
  unfold State.logOrder
  dsimp only
  split
  · exact .ite h.setMq h
  · exact h

theorem Canon.riseLog {src} (h : Canon s) : Canon (s.riseLog src).1 := .iteFst h.mqPostCore.logOrder h

theorem Canon.riseNotify {src} (h : Canon s) : Canon (s.riseNotify src) :=
  .ite (.vecRequest (.ite h.emit h)) (.ite h.emit h)

theorem Canon.rise {src} (h : Canon s) : Canon (s.rise src).1 :=
  .iteFst h.wr.riseLog.riseNotify.faultCore h.wr.riseLog.riseNotify

theorem Canon.raiseFuel {n l} (h : Canon s) : Canon (State.raiseFuel n s l) := by
  induction n generalizing s l with
  | zero => exact h
  | succ n ih =>
    cases l with
    | nil => exact h
    | cons src rest =>
      unfold State.raiseFuel
      exact .ite (ih h) (ih h.rise)

theorem Canon.raiseAll {srcs} (h : Canon s) : Canon (s.raiseAll srcs) := h.raiseFuel.settle

theorem Canon.raise {src} (h : Canon s) : Canon (s.raise src) := h.raiseAll

theorem Canon.raiseIf {b src} (h : Canon s) : Canon (s.raiseIf b src) := .ite h.raise h

theorem Canon.accessErr {b} (h : Canon s) : Canon (s.accessErr b) := h.raise

theorem Canon.fault {code sub} (h : Canon s) : Canon (s.fault code sub) := h.faultCore.raiseIf

theorem Canon.mqPost {k it} (h : Canon s) : Canon (s.mqPost k it).1 := h.mqPostCore.raiseAll

theorem Canon.writeReg {r i data} (h : Canon s) : Canon (s.writeReg r i data) := .ite h.wr.accessErr h.wr

/-! ### Access -/

theorem Canon.setPath {p x} (h : Canon s) : Canon (s.setPath p x) := h.frame

theorem Canon.nextSeq {p} (h : Canon s) : Canon (s.nextSeq p) := h.setPath

theorem Canon.fence {p off} (h : Canon s) : Canon (s.fence p off) := by
  unfold State.fence
  split
  · exact h
  · exact .ite h.setPath.raise h

theorem Canon.pwFail {r} (h : Canon s) : Canon (s.pwFail r) := by
  unfold State.pwFail
  extract_lets seq reqId tag b t
  have ht : Canon t := by
    unfold t
    split
    · exact h.bump.bump
    · exact h.bump.wr.wr.wr.wr.wr.wr.wr
  exact ht.raise.fence

theorem Canon.pwFailDword {p c off data} (h : Canon s) : Canon (s.pwFailDword p c off data) := h.pwFail

theorem Canon.setPostQ {p l} (h : Canon s) : Canon (s.setPostQ p l) := by
  unfold State.setPostQ
  split
  · exact h.frame
  · exact h.frame
  · exact h

theorem Canon.post {p r} (h : Canon s) : Canon (s.post p r) := h.setPostQ

theorem Canon.postWrite {p off data be far} (h : Canon s) : Canon (s.postWrite p off data be far) :=
  .ite (.ite h (.ite h.nextSeq.bump h.nextSeq.pwFailDword)) h.nextSeq.post.frame

theorem Canon.access {p off data f be far} (h : Canon s) (hf : ∀ u, Canon u → Canon (f u)) :
    Canon (s.access p off data f be far) :=
  .ite h (.ite h.postWrite (.ite (hf _ h.nextSeq) (.ite h.nextSeq.bump h.nextSeq.pwFailDword)))

theorem Canon.accessReg {p r i data f} (h : Canon s) (hf : ∀ u, Canon u → Canon (f u)) :
    Canon (s.accessReg p r i data f) := h.access hf

theorem Canon.stageWord {p off w} (h : Canon s) : Canon (s.stageWord p off w) :=
  { h with stage := tblWf_put _ _ _ h.stage }

theorem Canon.unstage {p off live} (h : Canon s) : Canon (s.unstage p off live).2 :=
  { h with stage := tblWf_del _ _ h.stage }

theorem Canon.ptpTake {p r i ns} (h : Canon s) : Canon (s.ptpTake p r i ns).2 := by
  unfold State.ptpTake
  dsimp only [State.unstage]
  have hu (k k') : Canon { s with stage := tblDel (tblDel s.stage k) k' } :=
    { h with stage := tblWf_del _ _ (tblWf_del _ _ h.stage) }
  split
  · exact hu _ _
  · exact (hu _ _).accessErr

theorem Canon.ptpWrite {r i v} (h : Canon s) : Canon (s.ptpWrite r i v) := h.wr.wr.wr

/-! ### KeyBase -/

theorem Canon.setMirror {n x} (h : Canon s) : Canon (s.setMirror n x) := h.frame

theorem Canon.mirrorWrite {n} (h : Canon s) : Canon (s.mirrorWrite n) := h.foldl fun _ _ h1 => h1.memWrite

theorem Canon.setKeySlot {n x} (h : Canon s) : Canon (s.setKeySlot n x) := h.frame.setMirror.mirrorWrite

theorem Canon.reloadSlot {n} (h : Canon s) : Canon (s.reloadSlot n) := h.setMirror.mirrorWrite

theorem Canon.loadSlots (h : Canon s) : Canon s.loadSlots := h.frame

theorem Canon.keyFail {mem addr} (h : Canon s) : Canon (s.keyFail mem addr) := .ite h.reloadSlot h

/-! ### Tables -/

theorem Canon.setEnt {id par n e} (h : Canon s) : Canon (s.setEnt id par n e) := h.frame

/-! ### MemOps -/

theorem Canon.logCe {mem inst addr synd source} (h : Canon s) : Canon (s.logCe mem inst addr synd source) :=
  .ite h h.wr.wr.wr.wr

theorem Canon.logUe {type mem inst addr synd source} (h : Canon s) : Canon (s.logUe type mem inst addr synd source) :=
  .ite h h.wr.wr.wr.wr

theorem Canon.addRepair {mem inst row} (h : Canon s) : Canon (s.addRepair mem inst row) :=
  .ite h (.ite h.bump.raise h.frame)

theorem Canon.tearRow (h : Canon s) : Canon s.tearRow := .ite h.frame h

theorem Canon.weakRow {mem inst addr} (h : Canon s) : Canon (s.weakRow mem inst addr) := h.wr.wr.bump.raise.addRepair

theorem Canon.offerTrk {mem inst addr} (h : Canon s) : Canon (s.offerTrk mem inst addr) := by
  unfold State.offerTrk
  dsimp only
  split
  · exact .ite h.frame.weakRow h.frame
  · exact .ite h.frame h.bump

theorem Canon.corrected {mem inst addr synd source} (h : Canon s) : Canon (s.corrected mem inst addr synd source) :=
  h.setMemErr.bump.logCe.raise.offerTrk

theorem Canon.saFail {mem addr} (h : Canon s) : Canon (s.saFail mem addr) :=
  .ite h (.raise (.frame (h.wr.foldl fun _ _ h1 => h1.setMemErr)))

theorem Canon.uncorrectable {mem inst addr synd source} (h : Canon s) : Canon (s.uncorrectable mem inst addr synd
    source) :=
  h.setMemErr.bump.logUe.raise.saFail.keyFail

theorem Canon.poisonRead {mem inst addr source} (h : Canon s) : Canon (s.poisonRead mem inst addr source) :=
  h.bump.logUe.saFail.keyFail

theorem Canon.parityFail {mem addr source} (h : Canon s) : Canon (s.parityFail mem addr source) :=
  h.frame.setMemErr.bump.logUe.raise.offerTrk

theorem Canon.putTabW {id g w} (h : Canon s) : Canon (s.putTabW id g w) := h.setEnt

theorem Canon.putRawWord {mem inst addr bs} (h : Canon s) : Canon (s.putRawWord mem inst addr bs) := h.frame

theorem Canon.putOperWord {p i w} (h : Canon s) : Canon (s.putOperWord p i w) := by
  unfold State.putOperWord
  dsimp only
  split
  · exact h.frame
  · exact h

theorem Canon.putMemWord {mem inst addr bs} (h : Canon s) : Canon (s.putMemWord mem inst addr bs) := by
  unfold State.putMemWord
  split
  · exact h.putRawWord
  · exact h.putTabW.putTabW
  · exact h.wr.putRawWord
  · exact h.putOperWord.putRawWord

theorem Canon.flushEnt {e} (h : Canon s) : Canon (s.flushEnt e) := by
  unfold State.flushEnt
  split
  · exact .ite h.putMemWord.memWrite h.putMemWord.memWrite
  · exact .ite h.putMemWord.memWrite h.corrected.putMemWord.memWrite
  · exact .ite h.putMemWord.memWrite h.putMemWord.poisonWrite.bump.logUe.raise
  · exact .ite h.putMemWord.memWrite h.putMemWord.poisonWrite.bump.logUe

theorem Canon.flushWhere {p} (h : Canon s) : Canon (s.flushWhere p) := h.frame.foldl fun _ _ h1 => h1.flushEnt

theorem Canon.flushBlk {b} (h : Canon s) : Canon (s.flushBlk b) := h.flushWhere

theorem Canon.partialWrite {mem inst addr bytes} (h : Canon s) : Canon (s.partialWrite mem inst addr bytes) := by
  unfold State.partialWrite
  dsimp only
  split
  · exact .ite h.frame.flushWhere h.frame
  · split
    · split
      · exact .flushWhere (.frame (.ite h.flushWhere h))
      · exact h.frame.flushWhere
    · split
      · exact .frame (.ite h.flushWhere h)
      · exact h.frame

theorem Canon.flushWord {mem inst addr} (h : Canon s) : Canon (s.flushWord mem inst addr) := h.flushWhere

theorem Canon.memRead {mem inst addr u source} (h : Canon s) : Canon (s.memRead mem inst addr u source).1 := by
  unfold State.memRead
  dsimp only
  split
  · exact h.flushWord
  · exact h.flushWord.corrected
  · exact h.flushWord.uncorrectable
  · exact h.flushWord.setMemErr.poisonRead

theorem Canon.wordsRead {mem inst addr n source} (h : Canon s) : Canon (s.wordsRead mem inst addr n source).1 :=
  .iteFst h (h.foldlFst fun _ _ h1 => h1.memRead)

theorem Canon.useRead {mem inst addr n} (h : Canon s) : Canon (s.useRead mem inst addr n).1 :=
  .iteFst h (h.foldlFst fun _ _ h1 => h1.flushWord.memRead.bumpIf)

theorem Canon.keyFetch {n} (h : Canon s) : Canon (s.keyFetch n) := h.wordsRead

theorem Canon.keysFetch (h : Canon s) : Canon s.keysFetch := .ite h (h.foldl fun _ _ h1 => h1.keyFetch)

theorem Canon.itemRead {addr n} (h : Canon s) : Canon (s.itemRead addr n).1 := h.wordsRead

theorem Canon.itemWrite {addr n} (h : Canon s) : Canon (s.itemWrite addr n) := h.foldl fun _ _ h1 => h1.memWrite

theorem Canon.stateRead {i} (h : Canon s) : Canon (s.stateRead i).1 :=
  .iteFst h (.iteFst h.memRead.memWrite.bump h.memRead)

theorem Canon.probeEntry {mem idx u source} (h : Canon s) : Canon (s.probeEntry mem idx u source) :=
  .ite h (.ite h.parityFail h)

theorem Canon.wrFlipCtrl {data} (h : Canon s) : Canon (s.wrFlipCtrl data) :=
  .ite h (.ite h.writeReg.setFld (.ite h.writeReg.setFld h.writeReg))

theorem Canon.execScrubPassStart {lastMs} (h : Canon s) : CanonOut (execScrubPassStart lastMs s) := by
  unfold Machine.execScrubPassStart
  split
  · exact h
  · split
    · exact h.frame
    · exact .ite (.frame (.ite h.setFld.setFld h.setFld)) h

theorem Canon.scrub {mem inst addr u} (h : Canon s) : Canon (s.scrub mem inst addr u) := by
  unfold State.scrub
  split
  · exact h
  · split
    · exact h.probeEntry
    · dsimp only
      split
      · exact h.flushWord.setMemErr
      · exact h.flushWord.memRead

/-! ### HostMq -/

theorem Canon.wrProducer {r data} (h : Canon s) : Canon (s.wrProducer r data) := .ite h.accessErr h.writeReg

theorem Canon.wrMqCfg {k data} (h : Canon s) : Canon (s.wrMqCfg k data) :=
  .ite (.ite h.writeReg.setMq h.accessErr) (.ite h.accessErr h.writeReg)

theorem Canon.mqBad {k} (h : Canon s) : Canon (s.mqBad k).1 := .iteFst h h.memRead.memRead

theorem Canon.mqPass {k} (h : Canon s) : Canon (s.mqPass k) := h.setMq

theorem Canon.mqSkip {n k} (h : Canon s) : Canon (State.mqSkip n s k) := by
  induction n generalizing s with
  | zero => exact h
  | succ n ih => exact .ite h (.ite (ih h.mqBad.mqPass.bump.bump) h.mqBad)

theorem Canon.mqFront {k} (h : Canon s) : Canon (s.mqFront k) := h.mqSkip

theorem Canon.mqPopRead {path k j} (h : Canon s) : Canon (s.mqPopRead path k j).1 := by
  unfold State.mqPopRead
  split
  · exact h.accessErr
  · split
    · dsimp only
      split
      · exact h.mqFront.setMq
      · exact h.mqFront
    · dsimp only
      split <;> exact h.mqFront

theorem Canon.mqResult {k v} (h : Canon s) : Canon (s.mqResult k v) := h.setFld

theorem Canon.mqMark {k} (h : Canon s) : Canon (s.mqMark k) := h.setMq.mqResult

theorem Canon.mqRewind {k} (h : Canon s) : Canon (s.mqRewind k) := by
  unfold State.mqRewind
  dsimp only
  split
  · exact h.setMq.mqResult
  · exact h.mqResult
  · exact h.setMq.mqResult

theorem Canon.mqRelease {k n} (h : Canon s) : Canon (s.mqRelease k n) :=
  .ite h.mqResult (.ite h.frame.mqResult h.setMq.mqResult)

theorem Canon.mqReset {k} (h : Canon s) : Canon (s.mqReset k) := h.setMq.mqResult

theorem Canon.wrMqCmd {path k data} (h : Canon s) : Canon (s.wrMqCmd path k data) := by
  unfold State.wrMqCmd
  split
  · exact h.accessErr
  · split
    · exact h.mqMark
    · exact h.mqRewind
    · exact h.mqRelease
    · exact h.mqReset
    · exact h

theorem Canon.wrEvtRaise {data} (h : Canon s) : Canon (s.wrEvtRaise data) := h.raise

theorem Canon.wrEvtRoute {loader src data} (h : Canon s) : Canon (s.wrEvtRoute loader src data) :=
  .ite h.accessErr h.writeReg.settle

theorem Canon.wrEvtStat {g data} (h : Canon s) : Canon (s.wrEvtStat g data) := h.writeReg.settle

theorem Canon.msixUnmask {v} (h : Canon s) : Canon (s.msixUnmask v) := .ite h.setVec.vecSend h.setVec

/-! ### TideOps -/

theorem Canon.setDom {d x} (h : Canon s) : Canon (s.setDom d x) := h.frame

theorem Canon.setPort {p x} (h : Canon s) : Canon (s.setPort p x) := h.frame

theorem Canon.setTide {p t} (h : Canon s) : Canon (s.setTide p t) := h.frame

theorem Canon.setGate {g t} (h : Canon s) : Canon (s.setGate g t) := h.frame

theorem Canon.lateMark {p} (h : Canon s) : Canon (s.lateMark p) := .ite h h.setPort

theorem Canon.tideTakeover {p} (h : Canon s) : Canon (s.tideTakeover p) :=
  .raise (.lateMark (.setTide (h.foldl fun _ _ h1 => h1.memWrite.memWrite)))

theorem Canon.gateTakeover {g} (h : Canon s) : Canon (s.gateTakeover g) :=
  .wr (.setGate (h.foldl fun _ _ h1 => h1.wr.wr))

theorem Canon.tideDomainJump {d} (h : Canon s) : Canon (s.tideDomainJump d) :=
  .foldl (h.foldl fun _ _ h1 => .ite (.tideTakeover (.ite h1.setPort h1)) (.ite (.lateMark (.setTide (.ite h1.setPort
    h1))) (.ite h1.setPort h1))) (fun _ _ h1 => .ite h1.gateTakeover (.ite h1.setGate h1))

theorem Canon.tideIdle {p} (h : Canon s) : Canon (s.tideIdle p) := by
  unfold State.tideIdle
  split
  · exact h.setFld.setTide.setFld.raise
  · exact h.setTide.setFld.raise

theorem Canon.tideDomainOff {d} (h : Canon s) : Canon (s.tideDomainOff d) :=
  .foldl (h.foldl fun _ _ h1 => .ite h1.tideIdle h1) (fun _ _ h1 => .ite h1.setGate.wr h1)

theorem Canon.tideCommit {p} (h : Canon s) : Canon (s.tideCommit p) :=
  .ite h (.ite h.accessErr (.ite h.setTide.ptpWrite h.setTide.ptpWrite.setFld))

theorem Canon.wrTgaCfg {p data} (h : Canon s) : Canon (s.wrTgaCfg p data) := by
  unfold State.wrTgaCfg
  extract_lets waits d s1 s2 _ s3
  have h1 : Canon s1 := h.writeReg
  have h2 : Canon s2 := .ite h1.setFld.accessErr h1
  have h3 : Canon s3 := .ite h2.setTide h2
  exact .ite h3.flushBlk.tideCommit h3

theorem Canon.wrTideAdmin {r i p data} (h : Canon s) : Canon (s.wrTideAdmin r i p data) :=
  .ite h.accessErr (.writeReg (.ite h.memWrite h))

theorem Canon.wrTideBase {path p ns} (h : Canon s) : Canon (s.wrTideBase path p ns) := by
  unfold State.wrTideBase
  split
  next v t e =>
    have ht : Canon t := .ofSnd h.ptpTake e
    split
    · exact ht
    · exact .ite ht.accessErr ht.ptpWrite

theorem Canon.gateCommit {g} (h : Canon s) : Canon (s.gateCommit g) := by
  unfold State.gateCommit
  split
  · exact .ite h h.accessErr
  · exact .ite h (.ite h.accessErr h.setGate)

theorem Canon.wrGateCfg {g data} (h : Canon s) : Canon (s.wrGateCfg g data) := by
  unfold State.wrGateCfg
  extract_lets waits d s1 s2
  have h2 : Canon s2 := .ite h.writeReg.setFld.accessErr h.writeReg
  exact .ite h2.flushBlk.gateCommit h2

theorem Canon.wrGateAdmin {r i g data} (h : Canon s) : Canon (s.wrGateAdmin r i g data) := .ite h.accessErr h.writeReg

theorem Canon.wrGatePool {r i data} (h : Canon s) : Canon (s.wrGatePool r i data) := .ite h.accessErr h.writeReg

theorem Canon.wrGateBase {path g ns} (h : Canon s) : Canon (s.wrGateBase path g ns) := by
  unfold State.wrGateBase
  split
  next v t e =>
    have ht : Canon t := .ofSnd h.ptpTake e
    split
    · exact ht
    · exact .ite ht.accessErr ht.ptpWrite

theorem Canon.tideCheck {p} (h : Canon s) : Canon (s.tideCheck p) := by
  unfold State.tideCheck
  split
  · exact h
  · exact .ite h (.ite h.memRead (.ite h.memRead.memRead.tideIdle h.memRead.memRead.memWrite.setTide))

/-! ### TimeBase -/

theorem Canon.wrDomRate {r d data} (h : Canon s) : Canon (s.wrDomRate r d data) := h.writeReg.frame

theorem Canon.tickDoms (h : Canon s) : Canon s.tickDoms := .frame (h.foldl fun _ _ h1 => .ite h1.setDom h1)

theorem Canon.keepPast (h : Canon s) : Canon s.keepPast := h.frame

theorem Canon.tickTime (h : Canon s) : Canon s.tickTime := h.frame.tickDoms

theorem Canon.setPps {m x} (h : Canon s) : Canon (s.setPps m x) := h.frame

theorem Canon.ppsJump {d} (h : Canon s) : Canon (s.ppsJump d) := h.foldl fun _ _ h1 => h1.setPps

theorem Canon.domJump {d val} (h : Canon s) : Canon (s.domJump d val) := h.setDom.setFld.ppsJump.tideDomainJump.raise

theorem Canon.applyJump {j} (h : Canon s) : Canon (s.applyJump j) := .ite h.domJump h.accessErr

theorem Canon.applyJumps (h : Canon s) : Canon s.applyJumps := h.frame.foldl fun _ _ h1 => h1.applyJump

theorem Canon.domCommit {d set ns} (h : Canon s) : Canon (s.domCommit d set ns) := h.frame

theorem Canon.wrDomCfg {d data} (h : Canon s) : Canon (s.wrDomCfg d data) :=
  .ite h.accessErr (.ite h.writeReg.tideDomainOff h.writeReg)

theorem Canon.wrDomSet {p d ns} (h : Canon s) : Canon (s.wrDomSet p d ns) := by
  unfold State.wrDomSet
  split
  next v t e =>
    have ht : Canon t := .ofSnd h.ptpTake e
    split
    · exact ht
    · exact ht.ptpWrite.domCommit

theorem Canon.wrDomStep {p d lo} (h : Canon s) : Canon (s.wrDomStep p d lo) :=
  have hu : ∀ k, Canon { s with stage := tblDel s.stage k } := fun _ => { h with stage := tblWf_del _ _ h.stage }
  .ite (hu _).wr.wr.domCommit (hu _).wr.wr.accessErr

theorem Canon.wrDomSlew {d amount} (h : Canon s) : Canon (s.wrDomSlew d amount) := h.setDom

theorem Canon.snapshot (h : Canon s) : Canon s.snapshot := h.wr.wr.foldl fun _ _ h1 => h1.ptpWrite

theorem Canon.wrTimCtrl {data} (h : Canon s) : Canon (s.wrTimCtrl data) := .ite h.snapshot h

theorem Canon.setTxts {p q} (h : Canon s) : Canon (s.setTxts p q) := h.frame

theorem Canon.txtsAppend {p r} (h : Canon s) : Canon (s.txtsAppend p r) := .ite h.itemWrite.setTxts.bump h.bump.raise

theorem Canon.txtsDrop {p} (h : Canon s) : Canon (s.txtsDrop p) := h.setTxts.frame

theorem Canon.txtsFront {n p} (h : Canon s) : Canon (s.txtsFront n p) := by
  induction n generalizing s with
  | zero => exact h
  | succ n ih => exact .ite h (.ite (ih h.itemRead.txtsDrop.bump) h.itemRead)

theorem Canon.txtsPop {path p} (h : Canon s) : Canon (s.txtsPop path p) :=
  .ite h.txtsFront.txtsDrop h.txtsFront.accessErr

theorem Canon.setTsc {n x} (h : Canon s) : Canon (s.setTsc n x) := h.frame

theorem Canon.tscSettle {n} (h : Canon s) : Canon (s.tscSettle n) := by
  unfold State.tscSettle
  split
  · dsimp only
    split
    · exact .ite h.setTsc h
    · exact h
  · dsimp only
    split
    · exact .ite h.setTsc h
    · exact h

theorem Canon.tscClose {n} (h : Canon s) : Canon (s.tscClose n) := by
  unfold State.tscClose
  dsimp only
  split
  · exact h
  · exact .ite h.itemWrite.setTsc h.setTsc.bump.raise

theorem Canon.tscRoll {n} (h : Canon s) : Canon (s.tscRoll n) := .ite h.setTsc h

theorem Canon.tscCapture {n rising} (h : Canon s) : Canon (s.tscCapture n rising) := by
  unfold State.tscCapture
  dsimp only
  split
  · exact h.bump.setTsc
  · exact .ite h.bump.setTsc.bump (.ite (.setTsc (.tscClose (.ite h.bump.tscClose h.bump))) (.setTsc (.ite
      h.bump.tscClose h.bump)))

theorem Canon.tscLevel {n rising} (h : Canon s) : Canon (s.tscLevel n rising) := h.setTsc

theorem Canon.tscEdge {n rising} (h : Canon s) : Canon (s.tscEdge n rising) :=
  .ite h.tscLevel (.ite h.tscRoll.setTsc.setFld.tscLevel.bump.raise h.tscRoll.setTsc.tscCapture.tscLevel)

theorem Canon.execTscRecordClose {n} (h : Canon s) : CanonOut (execTscRecordClose n s) := by
  unfold Machine.execTscRecordClose
  dsimp only
  split
  · exact .ite h.tscSettle.tscClose h.tscSettle
  · exact h.tscSettle

theorem Canon.wrTscStat {n data} (h : Canon s) : Canon (s.wrTscStat n data) :=
  .ite h.tscSettle.setFld.setTsc h.tscSettle

theorem Canon.tscDrop {n} (h : Canon s) : Canon (s.tscDrop n) := h.setTsc

theorem Canon.tscFront {n p} (h : Canon s) : Canon (s.tscFront n p) := by
  induction n generalizing s with
  | zero => exact h
  | succ n ih => exact .ite h (.ite (ih h.itemRead.tscDrop.bump) h.itemRead)

theorem Canon.wrTscPop {n data} (h : Canon s) : Canon (s.wrTscPop n data) :=
  .ite h (.ite h.tscFront.accessErr h.tscFront.tscDrop)

theorem Canon.wrTscReg {r n data} (h : Canon s) : Canon (s.wrTscReg r n data) := h.tscSettle.writeReg.setTsc

theorem Canon.wrTscCfg {n data} (h : Canon s) : Canon (s.wrTscCfg n data) := h.wrTscReg

theorem Canon.ppsCommit {m} (h : Canon s) : Canon (s.ppsCommit m) :=
  .ite h (.ite h.accessErr (.ite h.setPps.setFld h.setPps))

theorem Canon.wrPpsCfg {m data} (h : Canon s) : Canon (s.wrPpsCfg m data) := by
  unfold State.wrPpsCfg
  split
  · dsimp only
    split
    · exact h.writeReg.setPps
    · split
      · exact h.writeReg.setPps.ppsCommit
      · exact h.writeReg.ppsCommit
  · dsimp only
    split
    · exact h.writeReg.setPps
    · split
      · exact h.writeReg.setPps
      · exact h.writeReg

theorem Canon.ppsEdge {m} (h : Canon s) : Canon (s.ppsEdge m) := by
  unfold State.ppsEdge
  refine .ite h ?_
  split
  · refine .ite h.setPps.bump ?_
    split
    · exact .ite h.setPps.bump h
    · exact h
  · exact .ite h.setPps.bump h
  · exact h

theorem Canon.execPpsPulseEnd {m} (h : Canon s) : CanonOut (execPpsPulseEnd m s) := by
  unfold Machine.execPpsPulseEnd
  split
  · exact .ite h.setPps h
  · exact h

/-! ### NetOps -/

theorem Canon.readEnt {id par n src} (h : Canon s) : Canon (s.readEnt id par n src).1 :=
  .iteFst h (.iteFst h.probeEntry h.wordsRead)

theorem Canon.writeEnt {id par n e} (h : Canon s) : Canon (s.writeEnt id par n e) :=
  .setEnt (.ite h.memWrite (h.foldl fun _ _ h1 => h1.memWrite))

theorem Canon.delEnt {id par n} (h : Canon s) : Canon (s.delEnt id par n) := h.writeEnt.frame

theorem Canon.readAll {id par src idx} (h : Canon s) : Canon (s.readAll id par src idx).1 :=
  h.foldlFst fun _ _ h1 => .iteFst h1.readEnt h1.readEnt

theorem Canon.cfgEnt {id par n} (h : Canon s) : Canon (s.cfgEnt id par n).1 := .iteFst h.readEnt.bump h.readEnt

theorem Canon.wrShadow {r i w} (h : Canon s) : Canon (s.wrShadow r i w) := h.frame

theorem Canon.setFrm {i f} (h : Canon s) : Canon (s.setFrm i f) := h.frame

theorem Canon.holdFrm {i n} (h : Canon s) : Canon (s.holdFrm i n) := h.setFrm

theorem Canon.dropRef {i} (h : Canon s) : Canon (s.dropRef i) := h.setFrm

theorem Canon.storeFrm {cells a b} (h : Canon s) : Canon (s.storeFrm cells a b) :=
  h.foldl fun _ _ h1 => .ite h1.memFill h1

theorem Canon.frameRead {i} (h : Canon s) : Canon (s.frameRead i).1 := .iteFst h (h.foldlFst fun _ _ h1 => h1.wordsRead)

theorem Canon.newFrm {f} (h : Canon s) : Canon (s.newFrm f).1 := h.frame.storeFrm

theorem Canon.setQueue {q l} (h : Canon s) : Canon (s.setQueue q l) := h.frame

theorem Canon.hwm {f i v} (h : Canon s) : Canon (s.hwm f i v) := .ite h.setFld h

theorem Canon.marks (h : Canon s) : Canon s.marks := .hwm (.hwm (h.hwm.hwm.foldl fun _ _ h1 => h1.hwm))

/-! ### Classify -/

theorem Canon.ctFind {key hash} (h : Canon s) : Canon (s.ctFind key hash).1 :=
  h.readAll.foldl fun _ _ h1 => .ite h1.delEnt h1

theorem Canon.ctLookup {x key dir hash} (h : Canon s) : Canon (s.ctLookup x key dir hash).1 := by
  unfold State.ctLookup
  extract_lets fl r t
  have ht : Canon t := h.ctFind (key := key)
  clear_value t
  refine .iteFst h ?_
  split
  · exact .iteFst ht ht
  · exact .iteFst ht ht.writeEnt

theorem Canon.ctCreate {x key dir hash rule} (h : Canon s) : Canon (s.ctCreate x key dir hash rule).1 := by
  unfold State.ctCreate
  dsimp only
  split
  · exact .pair h.ctFind.bump.writeEnt.bump
  · split
    · exact .pair h.ctFind.writeEnt.bump
    · exact .pair h.ctFind

theorem Canon.probeRules {par ct port prio x sel} (h : Canon s) : Canon (s.probeRules par ct port prio x sel).1 := by
  refine h.foldlFst fun a bank ha => ?_
  dsimp only
  split
  · exact ha
  · split
    · exact ha.cfgEnt
    · exact ha.cfgEnt.readAll

theorem Canon.ruleCount {n} (h : Canon s) : Canon (s.ruleCount n) := h.setEnt

theorem Canon.ruleStage {port prio par ct x key dir hash} (h : Canon s) :
    Canon (s.ruleStage port prio par ct x key dir hash).1 := by
  unfold State.ruleStage
  extract_lets c
  have hc : Canon c.1 := h.cfgEnt
  clear_value c
  split
  · exact hc
  · extract_lets p u t
    have hp : Canon p.1 := hc.probeRules
    have ht : Canon t := hp.foldl fun _ _ hu => hu.ruleCount
    clear_value t p
    refine .iteFst hp (.iteFst hp.bump ?_)
    split
    · exact .ite ht.bump (.ite ht.bump ht)
    · exact .iteFst ht.bump (.iteFst ht.bump (.iteFst (.iteFst ht.ctCreate ht.ctCreate.bump) ht))

theorem Canon.classify {port prio par x key dir hash} (h : Canon s) : Canon (s.classify port prio par x key dir hash).1
    :=
  .iteFst h (.iteFst h.ctLookup.bump h.ctLookup.ruleStage)

theorem Canon.applyEdits {port par d bytes} (h : Canon s) : Canon (s.applyEdits port par d bytes).1 := by
  unfold State.applyEdits
  split
  · exact h
  · split
    · exact h.bumpIf
    · split
      · dsimp only
        split
        · exact h.cfgEnt
        · exact h.cfgEnt.bumpIf
      · dsimp only
        split
        · exact h.cfgEnt
        · exact h.cfgEnt.bumpIf

theorem Canon.clsStage {e} (h : Canon s) : Canon (s.clsStage e) := h.foldl fun _ _ h1 => h1.wr

theorem Canon.clsDone {res idx} (h : Canon s) : Canon (s.clsDone res idx) := h.wr

theorem Canon.ruleInsert {bank e} (h : Canon s) : Canon (s.ruleInsert bank e).1 := by
  unfold State.ruleInsert
  split
  · exact h
  · split
    · exact h
    · exact h.writeEnt.setEnt

theorem Canon.clsInsert {b} (h : Canon s) : Canon (s.clsInsert b) :=
  .ite h.clsDone (.ite h.clsDone (.ite h.clsDone h.ruleInsert.clsDone))

theorem Canon.clsDelete {b} (h : Canon s) : Canon (s.clsDelete b) := by
  unfold State.clsDelete
  split
  · exact h.clsDone
  · split
    · exact h.clsDone
    · split
      · dsimp only
        split
        · exact h.delEnt.clsDone
        · exact h.clsDone
      · dsimp only
        split
        · exact h.delEnt.clsDone
        · exact h.clsDone

theorem Canon.clsRead {b} (h : Canon s) : Canon (s.clsRead b) := by
  unfold State.clsRead
  split
  · exact h.clsDone
  · split
    · exact h.clsDone
    · split
      · exact h.clsDone
      · exact .ite h.readEnt.clsStage.clsDone h.readEnt.clsStage.clsDone

theorem Canon.clsSetAction {b} (h : Canon s) : Canon (s.clsSetAction b) := by
  unfold State.clsSetAction
  split
  · exact h.clsDone
  · split
    · exact h.clsDone
    · split
      · exact h.clsDone
      · exact .ite h.clsDone (.ite h.clsDone h.writeEnt.clsDone)

theorem Canon.clsSetEpoch {b} (h : Canon s) : Canon (s.clsSetEpoch b) := by
  unfold State.clsSetEpoch
  split
  · exact h.clsDone
  · split
    · exact h.clsDone
    · split
      · exact h.clsDone
      · exact .ite h.clsDone (.ite h.clsDone h.writeEnt.clsDone)

theorem Canon.purge {id par p} (h : Canon s) : Canon (s.purge id par p) := h.foldl fun _ _ h1 => .ite h1.delEnt h1

theorem Canon.clsFlush (h : Canon s) : Canon s.clsFlush := .ite h.clsDone h.purge.clsDone

theorem Canon.wrClsEntCmd {p data} (h : Canon s) : Canon (s.wrClsEntCmd p data) :=
  .ite h.writeReg (.ite h.writeReg.flushBlk.clsInsert (.ite h.writeReg.flushBlk.clsDelete (.ite
    h.writeReg.flushBlk.clsRead (.ite h.writeReg.flushBlk.clsSetAction (.ite h.writeReg.flushBlk.clsSetEpoch (.ite
    h.writeReg.flushBlk.clsFlush h.writeReg.flushBlk.clsDone))))))

theorem Canon.clsCmd {p op table bank} (h : Canon s) : Canon (s.clsCmd p op table bank) :=
  h.accessReg (fun _ h1 => h1.wrClsEntCmd)

/-! ### Forward -/

theorem Canon.vlan {par vid} (h : Canon s) : Canon (s.vlan par vid).1 := h.readEnt

theorem Canon.fdbLookup {par fid mac} (h : Canon s) : Canon (s.fdbLookup par fid mac).1 := h.readAll

theorem Canon.daLookup {par v da} (h : Canon s) : Canon (s.daLookup par v da).1 := by
  unfold State.daLookup
  extract_lets r
  have hr : Canon r.1 := h.fdbLookup
  clear_value r
  split
  · exact .iteFst hr (.iteFst (.iteFst (.pair hr.readEnt) (.pair hr.readEnt)) hr)
  · exact hr

theorem Canon.refine {port epoch v routed x} (h : Canon s) : Canon (s.refine port epoch v routed x).1 := by
  unfold State.refine
  split
  · exact h.bump
  · exact .iteFst h.bump (.iteFst h.bump h)
  · exact .iteFst h.bump h
  · exact .iteFst h.bump.bump h.bump

theorem Canon.pendDrop {p} (h : Canon s) : Canon (s.pendDrop p) := h.frame

theorem Canon.postNotice {x} (h : Canon s) : Canon (s.postNotice x).1 := .iteFst h h.mqPost

theorem Canon.offerNotice {ty fid mac old port arr} (h : Canon s) : Canon (s.offerNotice ty fid mac old port arr) := by
  unfold State.offerNotice
  split <;> exact .ite h.bump (.ite h.postNotice.bump.frame h.postNotice.bump)

theorem Canon.saLookup {port epoch v sa arr} (h : Canon s) : Canon (s.saLookup port epoch v sa arr).1 := by
  unfold State.saLookup
  extract_lets fid learn r t
  have ht : Canon t := h.fdbLookup
  clear_value t
  refine .iteFst h ?_
  split
  · exact .ite ht.offerNotice ht
  · exact .iteFst (.iteFst ht.bump ht) (.iteFst (.ite ht ht.writeEnt) (.ite ht.offerNotice ht))

theorem Canon.trieWalk {id par l e best} (h : Canon s) : Canon (s.trieWalk id par l e best).1 := by
  induction l generalizing s e best with
  | nil => exact h
  | cons x l ih => exact .iteFst h (.iteFst h.readEnt (ih h.readEnt))

theorem Canon.lpm {par v6 da} (h : Canon s) : Canon (s.lpm par v6 da).1 := by
  unfold State.lpm
  split
  · exact .iteFst h.readEnt h.readEnt.trieWalk
  · dsimp only
    split
    · split
      · exact h.readAll.readEnt
      · split <;> exact h.readAll.readEnt
    · split
      · exact h.readAll.readEnt.trieWalk
      · split <;> exact h.readAll.readEnt.trieWalk

theorem Canon.route {port epoch x y vid bytes} (h : Canon s) : Canon (s.route port epoch x y vid bytes).1 := by
  unfold State.route
  refine .iteFst h.bump ?_
  extract_lets v6 r
  have hr : Canon r.1 := h.lpm
  clear_value r
  refine .iteFst hr.bump ?_
  split
  · exact hr.bump
  · refine .iteFst hr.bump (.iteFst hr.bump ?_)
    extract_lets n nh nvid rm mac b v d f
    have hn : Canon n.1 := hr.readEnt
    have hv : Canon v.1 := hn.vlan
    have hd : Canon d.1 := .iteFst hv.daLookup hv
    exact .iteFst hn.bump (.iteFst hn.bump (.iteFst hv.bump (.iteFst hv.bump hd.refine)))

theorem Canon.ethLookup {port epoch x bytes arr} (h : Canon s) : Canon (s.ethLookup port epoch x bytes arr).1 :=
  .iteFst h.vlan.bump (.iteFst h.vlan.bump (.iteFst h.vlan.saLookup (.iteFst h.vlan.saLookup.vlan.bump (.iteFst
    h.vlan.saLookup.vlan.route (.iteFst h.vlan.saLookup.vlan.bump h.vlan.saLookup.vlan.daLookup.refine)))))

theorem Canon.fdbDone {res idx} (h : Canon s) : Canon (s.fdbDone res idx) := h.wr

theorem Canon.fdbDonePair {e res idx} (h : Canon s) : Canon (s.fdbDonePair e res idx) := h.pendDrop.fdbDone

theorem Canon.flapRoll (h : Canon s) : Canon s.flapRoll := .ite h.frame h

theorem Canon.flapHeld {e} (h : Canon s) : Canon (s.flapHeld e) :=
  .ite h.bump.flapRoll.frame.wr.wr.wr.raise h.bump.flapRoll.frame

theorem Canon.fdbLearn {e} (h : Canon s) : Canon (s.fdbLearn e) := by
  unfold State.fdbLearn
  extract_lets idx same
  clear_value same
  split
  · exact h.fdbDonePair
  · split
    · exact .ite h.writeEnt.fdbDonePair (.ite h.writeEnt.fdbDonePair (.ite h.flapHeld.fdbDonePair
        h.writeEnt.fdbDonePair))
    · split
      · exact h.writeEnt.fdbDonePair
      · exact h.bump.fdbDonePair

theorem Canon.runtimeLearn (h : Canon s) : Canon s.runtimeLearn := .ite (h.foldl fun _ _ h1 => h1.fdbLearn) h

theorem Canon.fdbPlace {e} (h : Canon s) : Canon (s.fdbPlace e).1 := by
  unfold State.fdbPlace
  split
  · dsimp only
    split <;> exact h
  · dsimp only
    split
    · exact h
    · exact h.writeEnt

theorem Canon.fdbInsert {b} (h : Canon s) : Canon (s.fdbInsert b) :=
  .ite h.fdbDone (.ite h.fdbDonePair h.fdbPlace.fdbDonePair)

theorem Canon.fdbDelete {b} (h : Canon s) : Canon (s.fdbDelete b) := by
  unfold State.fdbDelete
  split
  · exact h.fdbDone
  · dsimp only
    split
    · exact h.delEnt.fdbDonePair
    · exact h.fdbDonePair

theorem Canon.fdbRead {b} (h : Canon s) : Canon (s.fdbRead b) := by
  unfold State.fdbRead
  extract_lets n r put
  have hp {u e} (hu : Canon u) : Canon (put u e) := hu.foldl fun _ _ hv => hv.wr
  have hr : Canon r.1 := h.readEnt
  exact .ite h.fdbDone (.ite h.fdbDone (.ite (hp hr).fdbDone (hp hr).fdbDone))

theorem Canon.fdbPurge {port fid} (h : Canon s) : Canon (s.fdbPurge port fid) := h.purge.pendDrop

theorem Canon.fdbFlush {b} (h : Canon s) : Canon (s.fdbFlush b) := .ite h.fdbDone h.fdbPurge.fdbDone

theorem Canon.wrFdbEntCmd {p data} (h : Canon s) : Canon (s.wrFdbEntCmd p data) :=
  .ite h.writeReg (.ite h.writeReg.flushBlk.fdbInsert (.ite h.writeReg.flushBlk.fdbDelete (.ite
    h.writeReg.flushBlk.fdbRead (.ite h.writeReg.flushBlk.fdbFlush (.ite (.ite h.writeReg.flushBlk.fdbDone
    h.writeReg.flushBlk.fdbLearn) h.writeReg.flushBlk.fdbDone)))))

theorem Canon.fdbCmd {p op} (h : Canon s) : Canon (s.fdbCmd p op) := h.accessReg (fun _ h1 => h1.wrFdbEntCmd)

theorem Canon.wrFlapCfg {data} (h : Canon s) : Canon (s.wrFlapCfg data) := h.writeReg.frame

/-! ### Streams -/

theorem Canon.sidProbe {port epoch x m} (h : Canon s) : Canon (s.sidProbe port epoch x m).1 := h.readAll

theorem Canon.identify {port epoch x} (h : Canon s) : Canon (s.identify port epoch x).1 := by
  unfold State.identify
  split
  · exact h
  · extract_lets r bad
    have hr : Canon r.1 := h.foldlFst fun _ _ hu => hu.sidProbe (epoch := epoch)
    have hb {u} (hu : Canon u) : Canon (bad u).1 := .iteFst hu.bump hu
    clear_value r bad
    split
    · exact hb hr
    · split
      · exact hr
      · exact .iteFst (hb hr.readEnt) (.iteFst hr.readEnt hr.readEnt)

theorem Canon.setStr {k e} (h : Canon s) : Canon (s.setStr k e) := h.writeEnt

theorem Canon.strReset {k} (h : Canon s) : Canon (s.strReset k) := h.setStr

theorem Canon.readStr {k} (h : Canon s) : Canon (s.readStr k) := .ite h.readEnt.strReset h.readEnt

theorem Canon.recovery {k par seq} (h : Canon s) : Canon (s.recovery k par seq).1 :=
  .ite h.readStr.setStr.frame h.readStr.setStr

theorem Canon.wrStrReset {data} (h : Canon s) : Canon (s.wrStrReset data) := h.strReset

theorem Canon.seqGen {k par echo} (h : Canon s) : Canon (s.seqGen k par echo).1 := by
  unfold State.seqGen
  split
  · exact h
  · split
    · exact h
    · exact .iteFst h.readStr.setStr h.bump

theorem Canon.setMtr {m l} (h : Canon s) : Canon (s.setMtr m l) := h.frame

theorem Canon.mtrRead {m} (h : Canon s) : Canon (s.mtrRead m).1 :=
  .iteFst (.frame (.iteFst h.stateRead h)) (.iteFst h.stateRead h)

theorem Canon.meter {m len dei st} (h : Canon s) : Canon (s.meter m len dei st).1 := by
  unfold State.meter
  extract_lets rd t first c0 c1 l r u st' y z
  have ht : Canon t := h.mtrRead
  have hu : Canon u := .ite ht.setMtr.memWrite ht
  have hy : Canon y := hu.bump
  have hz : Canon z := hu.bump.bump
  exact .iteFst ht (.iteFst hu.bump (.iteFst (.iteFst hy.bump hy) (.iteFst hu.bump (.ite hz.setFld hz))))

theorem Canon.gateCheck {g len st} (h : Canon s) : Canon (s.gateCheck g len st).1 := by
  unfold State.gateCheck
  extract_lets drop rd t u
  have hd {u c} (hu : Canon u) : Canon (drop u c).1 := hu.bump.bump
  clear_value drop
  refine .iteFst h.bump (.iteFst (hd h) (.iteFst (hd h) ?_))
  split
  · exact h.bump
  · extract_lets m
    have hu : Canon u := h.stateRead.setGate
    exact .iteFst hu (.iteFst (hd (.ite hu.setFld hu)) (.iteFst hu.bump (.iteFst (hd (.ite hu.setFld hu))
      hu.setGate.memWrite.bump)))

theorem Canon.police {port x par rule dei len sdu maxLen sec} (h : Canon s) :
    Canon (s.police port x par rule dei len sdu maxLen sec).1 := by
  unfold State.police
  extract_lets maxSdu base l st g m m' t
  have hg : Canon g.1 := by
    unfold g
    split
    · exact .iteFst h.gateCheck h
    · exact h
  have hm : Canon m.1 := by
    unfold m
    split
    · exact .iteFst hg.meter hg
    · exact hg
  have hm' : Canon m'.1 := by
    unfold m'
    split
    · exact hm.meter
    · exact hm
  have ht : Canon t := .ite hm' (.ite hm'.bump (.ite hm'.bump hm'))
  exact .iteFst h (.iteFst h.bump ht)

theorem Canon.creditTail {f trueLen} (h : Canon s) : Canon (s.creditTail f trueLen) := by
  unfold State.creditTail
  split
  · exact h
  · extract_lets d t
    have ht : Canon t := h.foldl fun _ _ hu => .ite hu.setMtr hu
    clear_value t
    split
    · exact .ite ht.setGate ht
    · exact ht

theorem Canon.wrMeter {r m data} (h : Canon s) : Canon (s.wrMeter r m data) :=
  .ite h.writeReg.frame.setMtr h.writeReg.frame

theorem Canon.repairEnt {id par n} (h : Canon s) : Canon (s.repairEnt id par n) := by
  unfold State.repairEnt
  split
  · exact h
  · split
    · exact h.strReset
    · split
      · exact h.writeEnt.bump
      · exact h.delEnt.bump.raise

/-! ### LegacyTx -/

theorem Canon.setCan {n c} (h : Canon s) : Canon (s.setCan n c) := h.frame

theorem Canon.setLin {n c} (h : Canon s) : Canon (s.setLin n c) := h.frame

theorem Canon.canChooseN {k n} (h : Canon s) : Canon (State.canChooseN k s n) := by
  induction k generalizing s with
  | zero => exact h
  | succ k ih =>
    unfold State.canChooseN
    dsimp only
    split
    · exact h.setCan
    · exact .ite (ih h.setCan.bump) (.ite (ih h.itemRead.setCan.bump) h.itemRead.setCan)

theorem Canon.canChoose {n} (h : Canon s) : Canon (s.canChoose n) := .ite h.canChooseN h.setCan

theorem Canon.canOffer {n l ord} (h : Canon s) : Canon (s.canOffer n l ord) :=
  .ite h.bump (.ite h.bump (.ite h.bump (.ite h.bump (.ite h.bump (.ite h.setCan.itemWrite.canChoose
    h.setCan.itemWrite)))))

theorem Canon.linOffer {n l ord} (h : Canon s) : Canon (s.linOffer n l ord) :=
  .ite h.bump (.ite h.bump (.ite h.bump (.ite (.ite h.bump h.setLin.itemWrite) h.setLin.bumpIf.itemWrite)))

theorem Canon.legOffer {port l ord} (h : Canon s) : Canon (s.legOffer port l ord) := .ite h.canOffer (.ite h.linOffer h)

/-! ### Admission -/

theorem Canon.setQs {q x} (h : Canon s) : Canon (s.setQs q x) := h.frame

theorem Canon.wake {p q c} (h : Canon s) : Canon (s.wake p q c) := .ite h.setQs h

theorem Canon.admitCopy {i p x} (h : Canon s) : Canon (s.admitCopy i p x) := by
  unfold State.admitCopy
  extract_lets f qc len k
  clear_value k
  refine .ite h (.ite h.bump ?_)
  split
  · exact h.bump
  · exact h.wake.setQueue.holdFrm.bump.marks

theorem Canon.emptied {q} (h : Canon s) : Canon (s.emptied q) := .ite h.setQs h

theorem Canon.fenceSweep (h : Canon s) : Canon s.fenceSweep := h.frame

theorem Canon.dropWaiting {c p} (h : Canon s) : Canon (s.dropWaiting c p) := by
  unfold State.dropWaiting
  split
  · exact .fenceSweep (h.foldl fun _ _ h1 => .ite h1 (h1.setQueue.emptied.foldl fun _ _ h2 => h2.bump.dropRef))
  · exact .fenceSweep (h.foldl fun _ _ h1 => .ite h1 (h1.setQueue.emptied.foldl fun _ _ h2 => h2.dropRef))

theorem Canon.mapTx {b} (h : Canon s) : Canon (s.mapTx b) := h.foldl fun _ _ h1 => .ite h1 h1.setPort

theorem Canon.setCtx {n c} (h : Canon s) : Canon (s.setCtx n c) := h.frame

theorem Canon.setSlot {n x} (h : Canon s) : Canon (s.setSlot n x) := h.frame

theorem Canon.holdCtx {n} (h : Canon s) : Canon (s.holdCtx n) := by
  unfold State.holdCtx
  split
  · exact h
  · split
    · exact h.setCtx
    · split <;> exact h.setCtx

theorem Canon.dropOuts {l} (h : Canon s) : Canon (s.dropOuts l) := h.foldl fun _ _ h1 => h1.dropRef

theorem Canon.slotTo {n st} (h : Canon s) : Canon (s.slotTo n st) := by
  unfold State.slotTo
  split
  · exact h
  · exact h.setSlot.dropOuts.holdCtx

theorem Canon.voidSlot {n} (h : Canon s) : Canon (s.voidSlot n) := by
  unfold State.voidSlot
  split
  · exact h.slotTo
  · exact h

theorem Canon.dropDescs {i} (h : Canon s) : Canon (s.dropDescs i) :=
  h.foldl fun _ _ h1 => .ite h1 (h1.frame.foldl fun _ _ h2 => h2.dropRef)

theorem Canon.foundBad {i} (h : Canon s) : Canon (s.foundBad i) :=
  .ite h h.setFrm.bumpIf.dropWaiting.mapTx.dropDescs.voidSlot.dropRef

theorem Canon.tooLong {i too c} (h : Canon s) : Canon (s.tooLong i too c) := by
  unfold State.tooLong
  split <;> exact .mapTx (.dropWaiting (h.foldl fun _ _ h1 => h1.bump))

theorem Canon.tailCharge {i} (h : Canon s) : Canon (s.tailCharge i) :=
  .mapTx (h.foldl fun _ _ h1 => .ite h1.setQueue h1)

theorem Canon.tailTooLong {i} (h : Canon s) : Canon (s.tailTooLong i) := by
  unfold State.tailTooLong
  exact h.tooLong.tooLong

/-! ### Keys -/

theorem Canon.winPut {p off bs} (h : Canon s) : Canon (s.winPut p off bs) := by
  induction bs generalizing s off with
  | nil => exact h
  | cons b bs ih => exact ih { h with win := tblWf_set _ _ _ _ h.win }

theorem Canon.keyDone {p res slot} (h : Canon s) : Canon (s.keyDone p res slot) := .ite h.wr h.wr.winPut

theorem Canon.journalTo {n k x} (h : Canon s) : Canon (s.journalTo n k x) := .ite h.frame.setKeySlot h.frame

theorem Canon.keyUpdate {p stores} (h : Canon s) : Canon (s.keyUpdate p stores) :=
  .ite h.bump.keyDone (.ite h.bump.winPut.keyDone (.ite h.bump.keyDone (.ite h.bump.keyDone (.ite
    h.journalTo.bump.keyDone h.journalTo.bump.winPut.keyDone))))

theorem Canon.journalRecover (h : Canon s) : Canon s.journalRecover := by
  unfold State.journalRecover
  dsimp only
  split
  · exact h.loadSlots
  · split
    · exact h.loadSlots.frame.setKeySlot
    · exact h.loadSlots.frame.setMirror

theorem Canon.destroySlots {onlyProv} (h : Canon s) : Canon (s.destroySlots onlyProv) :=
  h.foldl fun _ _ h1 => .ite h1.setKeySlot h1

theorem Canon.lcComplete (h : Canon s) : Canon s.lcComplete := by
  unfold State.lcComplete
  split
  · exact h
  · exact h.destroySlots.frame

theorem Canon.lcBegin {p} (h : Canon s) : Canon (s.lcBegin p).1 := by
  unfold State.lcBegin
  extract_lets m r
  clear_value r
  exact .iteFst (.pair h.bump.keyDone) (.pair h.frame)

theorem Canon.keyAttestCmd {p stored} (h : Canon s) : Canon (s.keyAttestCmd p stored) :=
  .ite h.keyDone (.ite h.keyDone (.ite h.keyDone (.ite h.keyDone (.ite h.keyDone (.ite h.keyDone
    h.frame.winPut.bump.keyDone)))))

theorem Canon.dbgChal {p} (h : Canon s) : Canon (s.dbgChal p) :=
  .ite h.keyDone (.ite h.keyDone (.ite h.keyDone h.drawTrng.frame.winPut.keyDone))

theorem Canon.dbgFail {p res} (h : Canon s) : Canon (s.dbgFail p res) := by
  unfold State.dbgFail
  exact h.frame.bump.keyDone

theorem Canon.dbgUnlock {p} (h : Canon s) : Canon (s.dbgUnlock p) := by
  unfold State.dbgUnlock
  dsimp only
  split
  · exact h.frame.keyDone
  · split
    · exact h.frame.keyDone
    · split
      · exact h.frame.keyDone
      · split
        · exact h.frame.keyDone
        · split
          · exact h.frame.dbgFail
          · exact .ite h.frame.keyDone h.frame.dbgFail

/-! ### MacSec -/

theorem Canon.setSaWord {n w} (h : Canon s) : Canon (s.setSaWord n w) := .ite h.wr h.wr

theorem Canon.setNextPn {n v} (h : Canon s) : Canon (s.setNextPn n v) := h.wr.wr

theorem Canon.saRead {n} (h : Canon s) : Canon (s.saRead n) := h.wordsRead

theorem Canon.secyIn {p bs} (h : Canon s) : Canon (s.secyIn p bs).1 := by
  unfold State.secyIn
  split
  · exact .iteFst h.bump (.iteFst h.bump h.bump)
  · split
    · exact h.bump
    · split
      · exact .iteFst h.bump h.bump
      · exact .iteFst (.iteFst h.saRead.bump h.saRead.bump) (.iteFst h.saRead.bump h.saRead)

theorem Canon.secyCheck {p sa pn key bs} (h : Canon s) : Canon (s.secyCheck p sa pn key bs).1 := by
  unfold State.secyCheck
  split
  · split
    · exact h.bump
    · exact .iteFst h.bump h.bump.setNextPn
  · split
    · exact h.bump
    · exact .iteFst h.bump h.bump.setNextPn

theorem Canon.pnThresh {p sa} (h : Canon s) : Canon (s.pnThresh p sa) := .ite h.setPort.raise h

theorem Canon.secyOut {p bs len} (h : Canon s) : Canon (s.secyOut p bs len).1 :=
  .iteFst h (.iteFst h.bump (.iteFst h.saRead.bump (.iteFst h.saRead.bump (.iteFst h.saRead.bump.raise
    h.saRead.setNextPn.bump.pnThresh))))

theorem Canon.wrEncAn {p data} (h : Canon s) : Canon (s.wrEncAn p data) :=
  .ite h.accessErr (.ite h.writeReg h.accessErr)

theorem Canon.wrSecyCfg {p data} (h : Canon s) : Canon (s.wrSecyCfg p data) :=
  .ite h.accessErr (.ite h.accessErr h.writeReg)

theorem Canon.kcmdDone {res} (h : Canon s) : Canon (s.kcmdDone res) := h.setFld

theorem Canon.deriveMka {path slot len} (h : Canon s) : Canon (s.deriveMka path slot len) :=
  .ite h.kcmdDone (.ite h.bump.kcmdDone h.frame.kcmdDone)

theorem Canon.mkpduIcv {path slot len} (h : Canon s) : Canon (s.mkpduIcv path slot len) := by
  unfold State.mkpduIcv
  split
  · exact h.kcmdDone
  · split
    · exact h.bump.kcmdDone
    · split
      · exact h.kcmdDone
      · exact h.winPut.kcmdDone

theorem Canon.loadSak {sa p key} (h : Canon s) : Canon (s.loadSak sa p key) := h.frame.memFill.setSaWord.setPort

theorem Canon.unwrapSak {path slot rx sa len} (h : Canon s) : Canon (s.unwrapSak path slot rx sa len) := by
  unfold State.unwrapSak
  split
  · exact h.kcmdDone
  · split
    · exact h.kcmdDone
    · split
      · exact h.bump.kcmdDone
      · split
        · exact h.kcmdDone
        · split
          · exact h.kcmdDone
          · split
            · exact h.kcmdDone
            · exact h.loadSak.kcmdDone

theorem Canon.genSak {path slot rx sa} (h : Canon s) : Canon (s.genSak path slot rx sa) := by
  unfold State.genSak
  split
  · exact h.kcmdDone
  · split
    · exact h.bump.kcmdDone
    · split
      · exact h.kcmdDone
      · exact .ite h.kcmdDone (.ite h.kcmdDone h.drawTrng.loadSak.winPut.kcmdDone)

theorem Canon.clearSa {rx sa} (h : Canon s) : Canon (s.clearSa rx sa) := by
  unfold State.clearSa
  split
  · exact h.kcmdDone
  · exact .ite h.kcmdDone h.frame.setSaWord.kcmdDone

theorem Canon.kcmdRun {path} (h : Canon s) : Canon (s.kcmdRun path) := by
  unfold State.kcmdRun
  dsimp only
  split
  · exact h.keyFetch.deriveMka
  · exact h.keyFetch.mkpduIcv
  · exact h.keyFetch.unwrapSak
  · exact h.keyFetch.genSak
  · exact h.keyFetch.clearSa
  · exact h.keyFetch.kcmdDone

theorem Canon.wrKcmd {path data} (h : Canon s) : Canon (s.wrKcmd path data) :=
  .ite h.accessErr (.ite h.writeReg.flushBlk.kcmdRun h.writeReg)

/-! ### Jobs -/

theorem Canon.setCipCtx {c x} (h : Canon s) : Canon (s.setCipCtx c x) := .frame (h.foldl fun _ _ h1 => h1.memWrite)

theorem Canon.readCtx {c} (h : Canon s) : Canon (s.readCtx c).1 :=
  .iteFst (.pair h) (.iteFst (.pair h.wordsRead.setCipCtx) h.wordsRead)

theorem Canon.jobDone {res} (h : Canon s) : Canon (s.jobDone res) := h.setFld

theorem Canon.jobDenied (h : Canon s) : Canon s.jobDenied := h.bump.jobDone

theorem Canon.jobInit {path slot c} (h : Canon s) : Canon (s.jobInit path slot c) :=
  .ite h.jobDone (.ite h.jobDone (.ite h.jobDenied h.setCipCtx.jobDone))

theorem Canon.jobCtx {path c} (h : Canon s) : Canon (s.jobCtx path c).1 := by
  unfold State.jobCtx
  split
  · exact h
  · dsimp only
    split
    · exact h.readCtx
    · split
      · exact h.readCtx
      · exact .iteFst h.readCtx h.readCtx

theorem Canon.jobUpdate {path c} (h : Canon s) : Canon (s.jobUpdate path c) := by
  unfold State.jobUpdate
  dsimp only
  split
  · exact h.jobCtx.jobDone
  · exact .ite h.jobCtx.jobDone (.ite h.jobCtx.setCipCtx.winPut.jobDone (.ite h.jobCtx.setCipCtx.jobDone
      h.jobCtx.setCipCtx.jobDone))

theorem Canon.jobFinal {path c} (h : Canon s) : Canon (s.jobFinal path c) := by
  unfold State.jobFinal
  dsimp only
  split
  · exact h.jobCtx.jobDone
  · exact .ite h.jobCtx.setCipCtx.jobDone h.jobCtx.setCipCtx.winPut.jobDone

theorem Canon.jobSave {path slot c} (h : Canon s) : Canon (s.jobSave path slot c) := by
  unfold State.jobSave
  dsimp only
  split
  · exact h.jobCtx.jobDone
  · exact .ite h.jobCtx.jobDenied (.ite h.jobCtx.jobDone (.ite h.jobCtx.jobDone (.ite h.jobCtx.jobDone
      h.jobCtx.drawTrng.winPut.jobDone)))

theorem Canon.jobRestore {path slot c} (h : Canon s) : Canon (s.jobRestore path slot c) :=
  .ite h.bump.jobDone (.ite h.bump.jobDenied (.ite h.bump.jobDone (.ite h.bump.jobDone (.ite h.bump.jobDone (.ite
    h.bump.jobDone h.setCipCtx.jobDone)))))

theorem Canon.jobEcdsa {path} (h : Canon s) : Canon (s.jobEcdsa path) := h.jobDone

theorem Canon.jobRandom {path} (h : Canon s) : Canon (s.jobRandom path) :=
  .ite h.jobDone (.ite h.jobDone h.drawTrng.winPut.jobDone)

theorem Canon.jobRun {path} (h : Canon s) : Canon (s.jobRun path) := by
  unfold State.jobRun
  extract_lets slot c t
  have ht : Canon t := by
    unfold t
    split
    · exact h.keyFetch.keyFetch
    · exact h.keyFetch
  split
  · exact ht.jobInit
  · exact ht.jobUpdate
  · exact ht.jobFinal
  · exact ht.jobSave
  · exact ht.jobRestore
  · exact ht.jobEcdsa
  · exact ht.jobRandom
  · exact ht.jobDone

theorem Canon.wrJobCmd {path data} (h : Canon s) : Canon (s.wrJobCmd path data) :=
  .ite h.writeReg.flushBlk.jobRun h.writeReg

/-! ### Lookup -/

theorem Canon.skyRecord {cause k thr prof ord hash inPort xlt} (h : Canon s) : Canon (s.skyRecord cause k thr prof ord
    hash inPort xlt) :=
  .ite h.mqPost h

theorem Canon.skyDrop {cause k thr prof xlt f} (h : Canon s) : Canon (s.skyDrop cause k thr prof xlt f) :=
  .ite h.bump.skyRecord h.bump

theorem Canon.setSky {k x} (h : Canon s) : Canon (s.setSky k x) := h.frame

theorem Canon.dispatch {i prof slot dest} (h : Canon s) : Canon (s.dispatch i prof slot dest) := by
  unfold State.dispatch
  dsimp only
  split
  · exact h.cfgEnt.voidSlot
  · split
    · exact h.cfgEnt.drawWord.skyDrop.voidSlot
    · exact .ite h.cfgEnt.skyDrop.voidSlot (.ite h.cfgEnt.bump.voidSlot h.cfgEnt.setFrm.setSky.marks)

theorem Canon.ctxFail {n} (h : Canon s) : Canon (s.ctxFail n) := by
  unfold State.ctxFail
  exact .setCtx (h.foldl fun _ _ h1 => h1.voidSlot.setSlot.bump)

theorem Canon.ctxRead {n} (h : Canon s) : Canon (s.ctxRead n) := .ite h.wordsRead.ctxFail h.wordsRead

theorem Canon.takeSlot {i n steer} (h : Canon s) : Canon (s.takeSlot i n steer).1 := by
  unfold State.takeSlot
  split
  · exact h
  · split
    · exact h.bump
    · split
      · exact h.bump.holdCtx
      · exact h.setSlot.memFill.setCtx.memFill.setFrm.holdCtx

theorem Canon.sequence {i steer} (h : Canon s) : Canon (s.sequence i steer).1 := by
  unfold State.sequence
  extract_lets f t
  have ht : Canon t := by
    unfold t
    split
    · exact h.ctxRead
    · exact h
  clear_value t
  split
  · exact ht.takeSlot
  · refine .iteFst ht ?_
    split
    · exact ht.bump
    · exact ht.setCtx.takeSlot

theorem Canon.mapProbe {port epoch l} (h : Canon s) : Canon (s.mapProbe port epoch l).1 := h.readAll

theorem Canon.legDest {f m d} (h : Canon s) : Canon (s.legDest f m d).1 :=
  .iteFst h.bump (.iteFst h.bump (.iteFst h (.iteFst h.bump h)))

theorem Canon.ethDest {i x d} (h : Canon s) : Canon (s.ethDest i x d).1 := by
  unfold State.ethDest
  extract_lets f e
  have he : Canon e.1 := h.applyEdits
  clear_value e
  refine .iteFst h ?_
  split
  · exact he
  · refine .iteFst he.bump ?_
    split
    · extract_lets t fv v u _ f' w
      have hv : Canon v.1 := .iteFst he.setFrm.vlan he.setFrm
      have hw : Canon w := hv.setFrm
      exact .iteFst hv.bump (.iteFst hw hw.bump)
    · extract_lets t r
      have hr : Canon r.1 := he.setFrm.ethLookup
      clear_value r
      split
      · exact hr
      · exact hr.setFrm

theorem Canon.sendEcho {f} (h : Canon s) : Canon (s.sendEcho f) := by
  unfold State.sendEcho
  split
  · exact h.emitPair.bump
  · exact h

theorem Canon.streamStage {i x echo} (h : Canon s) : Canon (s.streamStage i x echo).1 := by
  unfold State.streamStage
  extract_lets f
  split
  · exact h
  · extract_lets par g f' t u
    have hg : Canon g.1 := h.seqGen
    have hu : Canon u := .ite hg.setFrm.sendEcho hg.setFrm
    exact .iteFst hg (.iteFst hu.recovery hu)

theorem Canon.policeFrm {i x d} (h : Canon s) : Canon (s.policeFrm i x d).1 := h.police.setFrm

theorem Canon.legCopy {i p l} (h : Canon s) : Canon (s.legCopy i p l) := .ite h.frameRead.bump h.frameRead.legOffer

theorem Canon.deliver {i p x} (h : Canon s) : Canon (s.deliver i p x) := by
  unfold State.deliver
  split
  · exact h.admitCopy
  · split
    · exact h.legCopy
    · exact h

theorem Canon.slotPlan {i n dest} (h : Canon s) : Canon (s.slotPlan i n dest) := by
  unfold State.slotPlan
  split
  · exact h.setSlot.holdFrm
  · exact h

theorem Canon.stage7 {i d slot dest} (h : Canon s) : Canon (s.stage7 i d slot dest) := by
  unfold State.stage7
  split
  · exact .ite h.slotPlan h.dispatch
  · exact h.slotPlan
  · exact h.foldl fun _ _ h1 => h1.deliver

theorem Canon.saAlone {f x d} (h : Canon s) : Canon (s.saAlone f x d) := .ite h (.ite h.vlan h.vlan.saLookup)

theorem Canon.plan {i x m d echo} (h : Canon s) : Canon (s.plan i x m d echo).1 := by
  unfold State.plan
  extract_lets f r _ t g e
  have hg : Canon g.1 := h.identify.setFrm.streamStage
  have he : Canon e.1 := by
    unfold e
    split
    · exact hg.legDest
    · exact hg.ethDest
  clear_value e
  refine .iteFst h.identify.saAlone (.iteFst hg.saAlone ?_)
  split
  · exact he
  · exact he.policeFrm

theorem Canon.mirrorCopy {i d} (h : Canon s) : Canon (s.mirrorCopy i d) := by
  unfold State.mirrorCopy
  split
  · exact h.admitCopy
  · exact h

theorem Canon.stages {i x m d slot echo} (h : Canon s) : Canon (s.stages i x m d slot echo) := by
  unfold State.stages
  dsimp only
  split
  · exact h.plan.mirrorCopy.voidSlot
  · exact h.plan.mirrorCopy.stage7

theorem Canon.flow {i x m echo} (h : Canon s) : Canon (s.flow i x m echo) := by
  unfold State.flow
  dsimp only
  split
  · exact h.admitCopy
  · split
    · exact h.classify
    · split
      · exact h.classify.setFrm.mirrorCopy
      · split
        · exact h.classify.setFrm.sequence.mirrorCopy
        · exact h.classify.setFrm.sequence.stages

theorem Canon.ingest {f echo} (h : Canon s) : Canon (s.ingest f echo).1 := by
  unfold State.ingest
  extract_lets ep ord net s1 x s2 m s3 prio k f1 n
  have hm : Canon m.1 := by
    have h2 : Canon s2 := .bumpIf h.frame
    unfold m
    split
    · exact h2.mapProbe
    · exact h2
  have hn : Canon n.1 := hm.newFrm
  clear_value n
  exact .pair hn.marks.flow.runtimeLearn.dropRef

/-! ### PairBase -/

theorem Canon.bist {fail} (h : Canon s) : Canon (s.bist fail) := h.wr

theorem Canon.setMode {m} (h : Canon s) : Canon (s.setMode m) := h.frame

theorem Canon.flagsChanged {old} (h : Canon s) : Canon (s.flagsChanged old) := .ite h.sendStatus h

theorem Canon.split (h : Canon s) : Canon s.split := .ite h h.frame

theorem Canon.splitDone (h : Canon s) : Canon s.splitDone := .ite h h.setMode.bump.raise.flagsChanged

theorem Canon.repair {fail} (h : Canon s) : Canon (s.repair fail) :=
  .ite h (.ite h.bist.setMode.raise.flagsChanged h.bist.setMode.fault)

theorem Canon.wrRedCfg {data} (h : Canon s) : Canon (s.wrRedCfg data) := .ite h.writeReg h.writeReg.setRole

/-! ### Fresh -/

theorem Canon.setFv {n v} (h : Canon s) : Canon (s.setFv n v) := h.writeEnt

theorem Canon.mramPut {off bs} (h : Canon s) : Canon (s.mramPut off bs) := by
  induction bs generalizing s off with
  | nil => exact h
  | cons b bs ih => exact ih h.frame

theorem Canon.freshStore {n v} (h : Canon s) : Canon (s.freshStore n v) := h.mramPut

theorem Canon.freshSave {n v fail} (h : Canon s) : Canon (s.freshSave n v fail).1 := by
  unfold State.freshSave
  extract_lets t u
  have hu : Canon u := .ite h.splitDone.frame.repair h.splitDone
  exact .iteFst hu hu.freshStore

theorem Canon.sendFresh {n} (h : Canon s) : Canon (s.sendFresh n) := .ite h.emitPair h

theorem Canon.freshGen {epoch n ord fail} (h : Canon s) : Canon (s.freshGen epoch n ord fail).1 :=
  .iteFst h.readEnt (.iteFst h.readEnt (.iteFst (.iteFst h.readEnt.freshSave h.readEnt) (.sendFresh (.writeEnt (.iteFst
    h.readEnt.freshSave h.readEnt)))))

theorem Canon.freshCommit {epoch n v fail} (h : Canon s) : Canon (s.freshCommit epoch n v fail).1 :=
  .iteFst h.readEnt (.sendFresh (.ite h.readEnt.setFv.frame.freshSave h.readEnt.setFv.frame))

theorem Canon.freshLoad (h : Canon s) : Canon s.freshLoad := h.foldl fun _ _ h1 => .ite h1.setFv h1

theorem Canon.freshRepair {n} (h : Canon s) : Canon (s.freshRepair n) := .ite h (.ite h.setFv (.ite h.setFv h))

theorem Canon.advanceFresh {k} (h : Canon s) : Canon (s.advanceFresh k) := h.foldl fun _ _ h1 => .ite h1.setFv h1

theorem Canon.freshFromPair {n v} (h : Canon s) : Canon (s.freshFromPair n v) := .ite h.freshCommit h

theorem Canon.takeoverStreams {skip} (h : Canon s) : Canon (s.takeoverStreams skip) :=
  h.foldl fun _ _ h1 => .ite h1.setStr h1

theorem Canon.echoIn {seq port bytes} (h : Canon s) : Canon (s.echoIn seq port bytes) := h.ingest

/-! ### Legacy -/

theorem Canon.chanIn {x} (h : Canon s) : Canon (s.chanIn x) := .ite h.bump h.ingest

theorem Canon.legTake {x} (h : Canon s) : Canon (s.legTake x) := .ite h.itemRead.bump h.itemRead.chanIn

theorem Canon.drainLeg (h : Canon s) : Canon s.drainLeg := h.frame.foldl fun _ _ h1 => h1.legTake

theorem Canon.legPut {port cap l stall ago got lost ch} (h : Canon s) : Canon (s.legPut port cap l stall ago got lost
    ch) :=
  .ite h.bump (.ite h.bump.itemWrite.frame h.bump.itemWrite.frame.drainLeg)

theorem Canon.canFlush {n c} (h : Canon s) : Canon (s.canFlush n c) := h.setCan.bumpBy

theorem Canon.canCount {n tec rec_} (h : Canon s) : Canon (s.canCount n tec rec_) :=
  .ite (.ite h.setCan.setCan.bump.raise.canFlush h.setCan.setCan.bump.raise) h.setCan

theorem Canon.canError {n e tx step} (h : Canon s) : Canon (s.canError n e tx step) :=
  .ite h.bump (.ite h.bump.canCount.canChoose h.bump.canCount.canChoose)

theorem Canon.canRecover {n} (h : Canon s) : Canon (s.canRecover n) := h.setCan

theorem Canon.wrBoCfg {n data} (h : Canon s) : Canon (s.wrBoCfg n data) :=
  .ite h.writeReg (.ite h.writeReg.canRecover h.writeReg.accessErr)

theorem Canon.canRxOk {n} (h : Canon s) : Canon (s.canRxOk n) := .ite h.drawWord.canCount h.canCount

theorem Canon.canRx {n l rtr stall ago} (h : Canon s) : Canon (s.canRx n l rtr stall ago) :=
  .ite h (.ite h.canRxOk.bump h.canRxOk.legPut)

theorem Canon.canEnd {n} (h : Canon s) : Canon (s.canEnd n) := by
  unfold State.canEnd
  dsimp only
  split
  · exact h
  · exact h.setCan.bump.emit.canCount

theorem Canon.canSent {n} (h : Canon s) : Canon (s.canSent n) := .ite h h.canEnd.canChoose

theorem Canon.canJoin {n} (h : Canon s) : Canon (s.canJoin n) := h.setCan.canChoose

theorem Canon.canLeave {n} (h : Canon s) : Canon (s.canLeave n) := h.setCan

theorem Canon.writeTaken {r n data taken} (h : Canon s) : Canon (s.writeTaken r n data taken) :=
  .ite h.wr.accessErr h.wr

theorem Canon.wrCanCtrl {n data} (h : Canon s) : Canon (s.wrCanCtrl n data) :=
  .ite h.writeTaken.canFlush.canLeave (.ite h.writeTaken.canLeave (.ite h.writeTaken h.writeTaken.canChoose))

theorem Canon.wrCanTiming {r n data} (h : Canon s) : Canon (s.wrCanTiming r n data) := .ite h.accessErr h.writeTaken

theorem Canon.linFront {fuel n id} (h : Canon s) : Canon (s.linFront fuel n id) := by
  induction fuel generalizing s with
  | zero => exact h
  | succ fuel ih =>
    unfold State.linFront
    split
    · exact .ite (ih h.itemRead.setLin.bump) h.itemRead
    · exact h

theorem Canon.linHeader {n id event} (h : Canon s) : Canon (s.linHeader n id event) := by
  unfold State.linHeader
  split
  · dsimp only
    split
    · exact .ite h.linFront.setLin h.linFront.setLin.emit.bump
    · exact h.linFront.setLin
  · dsimp only
    split
    · exact .ite h.setLin h.setLin.emit.bump
    · exact h.setLin

theorem Canon.linNoResp {n} (h : Canon s) : Canon (s.linNoResp n) := by
  unfold State.linNoResp
  dsimp only
  split
  · exact h.setLin.bumpIf
  · exact h

theorem Canon.linSlot {n} (h : Canon s) : Canon (s.linSlot n) := by
  unfold State.linSlot
  extract_lets c due
  clear_value due
  refine .ite h ?_
  dsimp only
  split
  · exact h.linNoResp.setLin
  · split
    · exact h.linNoResp.setLin
    · exact h.linNoResp.setLin.emit.linHeader

theorem Canon.linActive {n} (h : Canon s) : Canon (s.linActive n) := h.setLin

theorem Canon.linErr {n e badSum} (h : Canon s) : Canon (s.linErr n e badSum) := by
  unfold State.linErr
  split
  · exact h.bump
  · exact h.bump
  · exact h.bump
  · exact h.bumpIf

theorem Canon.linSleepRx {n id data} (h : Canon s) : Canon (s.linSleepRx n id data) := .ite h.setLin h

theorem Canon.linRx {n data sum e stall ago} (h : Canon s) : Canon (s.linRx n data sum e stall ago) := by
  unfold State.linRx
  dsimp only
  split
  · exact h.setLin.linErr
  · exact .ite h.setLin.bump.setLin (.ite h.setLin.linErr (.ite h.setLin.linSleepRx h.setLin.linSleepRx.legPut))

theorem Canon.wrLinSched {n data} (h : Canon s) : Canon (s.wrLinSched n data) := .ite h.writeReg.setLin h.writeReg

theorem Canon.linIdle {n} (h : Canon s) : Canon (s.linIdle n) := .ite h h.setLin.raise

theorem Canon.wrLinCtrl {n data} (h : Canon s) : Canon (s.wrLinCtrl n data) :=
  .ite h.writeReg (.ite h.writeReg.setLin.emit h.writeReg.setLin)

theorem Canon.takeoverLegacy (h : Canon s) : Canon s.takeoverLegacy :=
  .foldl (h.foldl fun _ _ h1 => .ite h1.canLeave h1) (fun _ _ h1 => .ite h1.setLin h1)

theorem Canon.legacyDrop (h : Canon s) : Canon s.legacyDrop :=
  .foldl (h.foldl fun _ _ h1 => .canFlush (.ite h1.canEnd h1)) (fun _ _ h1 => h1.setLin.bumpBy)

theorem Canon.linSendSleep {n} (h : Canon s) : Canon (s.linSendSleep n) := h.setLin.emit.emit.bump

theorem Canon.linGoToSleep (h : Canon s) : Canon s.linGoToSleep := h.foldl fun _ _ h1 => .ite h1.linSendSleep h1

theorem Canon.legacyReenter (h : Canon s) : Canon s.legacyReenter :=
  .foldl (h.foldl fun _ _ h1 => .ite h1.canLeave h1) (fun _ _ h1 => .ite (.ite h1.setLin h1.setLin.emit) h1)

theorem Canon.linWakeUp {n} (h : Canon s) : Canon (s.linWakeUp n) := h.setLin

theorem Canon.wrPlca {r k data} (h : Canon s) : Canon (s.wrPlca r k data) :=
  .raiseIf (.ite h.writeReg.setFld (.ite h.writeReg h.writeReg.setFld))

/-! ### LoadTabs -/

theorem Canon.loadEnt {id par n e} (h : Canon s) : Canon (s.loadEnt id par n e) := h.writeEnt.frame

theorem Canon.clearCopy {par id} (h : Canon s) : Canon (s.clearCopy par id) := h.frame

theorem Canon.loadCopies {par l} (h : Canon s) : Canon (s.loadCopies par l) :=
  .foldl (h.foldl fun _ _ h1 => h1.clearCopy) (fun _ _ h1 => .ite h1.loadEnt h1)

theorem Canon.remask {m n v} (h : Canon s) : Canon (s.remask m n v) := by
  unfold State.remask
  dsimp only
  split
  · exact h.writeEnt.frame
  · exact h.writeEnt

theorem Canon.narrow {m par} (h : Canon s) : Canon (s.narrow m par) := h.foldl fun _ _ h1 => .ite h1.remask h1

theorem Canon.place {m base bucket par e} (h : Canon s) : Canon (s.place m base bucket par e).1 := by
  unfold State.place
  extract_lets same
  split
  · exact h.loadEnt
  · split
    · exact .ite h.loadEnt.setEnt h.loadEnt
    · exact h

theorem Canon.placeRule {par bank e} (h : Canon s) : Canon (s.placeRule par bank e).1 := h.place

theorem Canon.placeFdb {par e} (h : Canon s) : Canon (s.placeFdb par e).1 :=
  .place (h.foldl fun _ _ h1 => .ite h1.writeEnt h1)

theorem Canon.placeHost {par e} (h : Canon s) : Canon (s.placeHost par e).1 := h.place

theorem Canon.placeSid {par e} (h : Canon s) : Canon (s.placeSid par e).1 := h.place

theorem Canon.placeMap {par e} (h : Canon s) : Canon (s.placeMap par e).1 := h.place

theorem Canon.cleanTab {m par} (h : Canon s) : Canon (s.cleanTab m par) := h.foldl fun _ _ h1 => .ite h1.delEnt h1

theorem Canon.trieNode {a : TrieAcc} {pool off cnt ws} (h : Canon a.s) : Canon (a.node pool off cnt ws).1.s := by
  unfold TrieAcc.node
  dsimp only
  split
  · exact h
  · split
    · dsimp only
      exact h.foldl fun _ _ hu => hu.loadEnt
    · exact h

theorem Canon.trieEntry {pool lv} {a : TrieAcc} {best l} (h : Canon a.s) : Canon (TrieAcc.entry pool lv a best l).1.s := by
  induction lv generalizing a best l with
  | nil =>
    unfold TrieAcc.entry
    dsimp only
    split <;> exact h
  | cons x lv ih =>
    unfold TrieAcc.entry
    dsimp only
    split
    · exact h
    · refine Canon.trieNode ?_
      exact List.foldlRecOn (motive := fun x : TrieAcc × List Word => Canon x.1.s) _ _ h fun _ hx _ _ => ih hx

theorem Canon.loadTrie {par v6 routes} (h : Canon s) : Canon (s.loadTrie par v6 routes).1 := by
  unfold State.loadTrie
  generalize List.range 65536 = slots
  refine .iteFst h ?_
  refine List.foldlRecOn (motive := fun a : TrieAcc => Canon a.s) _ _ h fun a ha b _ => ?_
  dsimp only
  split
  · exact ha.trieEntry
  · exact ha.trieEntry.loadEnt

/-! ### LoadChecks -/

theorem Canon.withRegs {c par} (h : Canon s) : Canon (s.withRegs c par) := h.foldl fun _ _ h1 => .ite h1.wrShadow h1.wr

theorem Canon.loadRules {c par n before l} (h : Canon s) : Canon (State.loadRules c par n before l s).1 := by
  induction l generalizing s n before with
  | nil => exact h
  | cons r l ih => exact .iteFst h (.iteFst (ih h.placeRule) h)

theorem Canon.loadList {α : Type} {place : State → α → State × Bool} {check full n l}
    (h : Canon s) (hp : ∀ u e, Canon u → Canon (place u e).1) : Canon (State.loadList place check full n l s).1 := by
  induction l generalizing s n with
  | nil => exact h
  | cons e l ih => exact .iteFst h (.iteFst h (ih (hp s e h)))

theorem Canon.thenLoad {r : State × Fail} {f : State → State × Fail} (h : Canon r.1) (hf : ∀ u, Canon u → Canon (f u).1) :
    Canon (thenLoad r f).1 := by
  unfold Machine.thenLoad
  split
  · exact h
  · exact hf _ h

theorem Canon.loadFwd {c par boot live} (h : Canon s) : Canon (s.loadFwd c par boot live).1 :=
  .thenLoad (.thenLoad (.thenLoad (.thenLoad (.thenLoad (.thenLoad (.thenLoad (h.loadList (fun _ _ h1 => h1.placeFdb))
    (fun _ h1 => .iteFst h1 h1.loadTrie.loadTrie)) (fun _ h1 => h1.loadList (fun _ _ h2 => .iteFst h2.placeHost h2)))
    (fun _ h1 => h1.loadList (fun _ _ h2 => h2.placeHost))) (fun _ h1 => h1)) (fun _ h1 => h1.loadList (fun _ _ h2 =>
    h2.placeSid))) (fun _ h1 => h1)) (fun _ h1 => h1)

theorem Canon.loadMap {par all n fast l} (h : Canon s) : Canon (State.loadMap par all n fast l s).1 := by
  induction l generalizing s n fast with
  | nil => exact h
  | cons e l ih => exact .iteFst h (.iteFst h (.iteFst h (ih h.placeMap)))

theorem Canon.loadLegacy {c par} (h : Canon s) : Canon (s.loadLegacy c par).1 := by
  unfold State.loadLegacy
  split
  · exact h
  · exact h.loadMap

theorem Canon.setResv {c par} (h : Canon s) : Canon (s.setResv c par) := h.foldl fun _ _ h1 => h1.setFld

/-! ### Contract -/

theorem Canon.contractRun {c par dig t l} (h : Canon s) : Canon (State.contractRun c par dig t l s).1 := by
  induction l generalizing s with
  | nil => exact h
  | cons d l ih => exact .iteFst h (.iteFst h (ih h.frame))

theorem Canon.setBudgets {c par} (h : Canon s) : Canon (s.setBudgets c par) := h.foldl fun _ _ h1 => .ite h1 h1.loadEnt

theorem Canon.contract {c par dig t} (h : Canon s) : Canon (s.contract c par dig t).1 := by
  unfold State.contract
  dsimp only
  split
  · exact h.frame.contractRun.wr
  · exact h.frame.contractRun.drawWord.wr

/-! ### HostBridge -/

theorem Canon.setPf {p w b} (h : Canon s) : Canon (s.setPf p w b) := h.setPath

theorem Canon.discardPf {p w} (h : Canon s) : Canon (s.discardPf p w) := by
  unfold State.discardPf
  split
  · exact h
  · exact h.setPf.foldl fun _ _ h1 => h1.bump.setFld.raise

theorem Canon.discardPfAll {w} (h : Canon s) : Canon (s.discardPfAll w) := h.discardPf.discardPf.discardPf

theorem Canon.aspiWrite {p w off data be reqId tag sts} (h : Canon s) : Canon (s.aspiWrite p w off data be reqId tag
    sts).1 :=
  .iteFst h.bump (.iteFst h.pwFail (.iteFst h (.iteFst h.pwFail (.iteFst (.iteFst h.discardPfAll.emit.emit
    h.discardPfAll.emit.emit.pwFail) h.discardPfAll.emit))))

theorem Canon.aspiXfer {w a} (h : Canon s) : Canon (s.aspiXfer w a) := h.emit

theorem Canon.aspiRead {p w a words} (h : Canon s) : Canon (s.aspiRead p w a words).1 := by
  unfold State.aspiRead
  extract_lets fromPeriph
  have hf : Canon (fromPeriph s).1 := by
    have hx {l : List Nat} : Canon (l.foldl (fun u i => u.aspiXfer w (a + 1 + i)) ((s.discardPf p w).aspiXfer w a)) :=
      h.discardPf.aspiXfer.foldl fun _ _ hu => hu.aspiXfer
    exact .ite hx hx.setPf
  clear_value fromPeriph
  split
  · split
    · exact .iteFst h.setPf hf
    · exact hf
  · exact hf

theorem Canon.execPrefetchTimeout {path w} (h : Canon s) : CanonOut (execPrefetchTimeout path w s) := by
  unfold Machine.execPrefetchTimeout
  split
  · exact .ite h.discardPf h
  · exact h

theorem Canon.wrPwFence {p data} (h : Canon s) : Canon (s.wrPwFence p data) := h.setPath

theorem Canon.execPcieUnsupported {kind} (h : Canon s) : CanonOut (execPcieUnsupported kind s) := by
  unfold Machine.execPcieUnsupported
  split
  · exact h
  · split
    · exact h.bump.emit
    · exact h.bump.emit
    · exact h.bump.emit
    · exact h.emit
    · exact h.emit
    · exact h

theorem Canon.stopRing {rx r} (h : Canon s) : Canon (s.stopRing rx r) := .ite h.setFld.setFld h.setFld.setFld

theorem Canon.wrRingCfg {rx r data} (h : Canon s) : Canon (s.wrRingCfg rx r data) := .ite h.writeReg h.writeReg.stopRing

theorem Canon.ringAdvance {rx r k} (h : Canon s) : Canon (s.ringAdvance rx r k) := .ite h.setFld h

/-! ### PairOps -/

theorem Canon.wrSafeCfg {data} (h : Canon s) : Canon (s.wrSafeCfg data) := .ite h.accessErr h.writeReg.setFld

theorem Canon.wrLsCtrl {path data fail} (h : Canon s) : Canon (s.wrLsCtrl path data fail) :=
  .ite h.accessErr (.ite (.ite h.split h) (.ite h.repair h))

theorem Canon.health (h : Canon s) : Canon s.health := h.frame

theorem Canon.wrHbKick {path data} (h : Canon s) : Canon (s.wrHbKick path data) := .ite h.frame.flagsChanged.health h

theorem Canon.execHbKickTimeout (h : Canon s) : CanonOut (execHbKickTimeout s) := by
  unfold Machine.execHbKickTimeout
  split
  · exact .ite (.ite h.frame.setBall.health.sendStatus h.frame.setBall.health) h
  · exact h

theorem Canon.takeover (h : Canon s) : Canon s.takeover :=
  h.frame.setRole.takeoverStreams.advanceFresh.takeoverLegacy.bump.raise.health

theorem Canon.noteStatus {st} (h : Canon s) : Canon (s.noteStatus st) := .raiseIf (.frame (h.foldl fun _ _ h1 => h1.wr))

theorem Canon.statusRx {st} (h : Canon s) : Canon (s.statusRx st) := by
  unfold State.statusRx
  extract_lets n _ t
  have hn : Canon n := h.noteStatus
  have ht : Canon t := by
    unfold t
    split
    · exact .ite hn.setRole (.ite hn.setRole hn)
    · exact .ite hn.takeover (.ite (.ite hn.frame.raise hn.takeover) hn)
    · exact .ite hn.setRole.bump.raise hn
    · exact hn
  exact ht.health

theorem Canon.pairEcho {stream seq port bytes} (h : Canon s) : Canon (s.pairEcho stream seq port bytes) :=
  .ite h (.ite (.ite h.bump h.frame.bump.echoIn) h.bump)

theorem Canon.pairFresh {idx fv} (h : Canon s) : Canon (s.pairFresh idx fv) := .ite h.freshFromPair h

theorem Canon.execTakeoverConfirmTimeout (h : Canon s) : CanonOut (execTakeoverConfirmTimeout s) := by
  unfold Machine.execTakeoverConfirmTimeout
  split
  · exact .ite h.takeover h
  · exact h

theorem Canon.execReboundTimerExpiry (h : Canon s) : CanonOut (execReboundTimerExpiry s) := by
  unfold Machine.execReboundTimerExpiry
  split
  · exact .ite h.frame.emitPair h
  · exact h

theorem Canon.reboundReq (h : Canon s) : Canon s.reboundReq :=
  .ite h (.ite h.raise h.frame.emitPair.setRole.bump.raise.health)

theorem Canon.handover (h : Canon s) : Canon s.handover :=
  .ite h h.setRole.takeoverStreams.takeoverLegacy.bump.raise.health

/-! ### Rx -/

theorem Canon.setRx {p pre r} (h : Canon s) : Canon (s.setRx p pre r) := h.setPort

theorem Canon.vbMark (h : Canon s) : Canon s.vbMark := h.hwm

theorem Canon.rxEnter {p r bs whole ahead} (h : Canon s) : Canon (s.rxEnter p r bs whole ahead).1 := by
  unfold State.rxEnter
  extract_lets v t
  have hv : Canon v.1 := .iteFst h.secyIn h
  have ht : Canon t := hv
  clear_value t
  split
  · exact ht
  · exact .iteFst ht.setPort ht
  · exact ht.ingest
  · exact ht.ingest

theorem Canon.pairRx {bs} (h : Canon s) : Canon (s.pairRx bs) := by
  unfold State.pairRx
  split
  · exact h.bump
  · split
    · exact h.pairEcho
    · exact h.statusRx
    · exact h.reboundReq
    · exact h.handover
    · exact h.pairFresh
    · exact h.bump

theorem Canon.rxWhole {p r bs t} (h : Canon s) : Canon (s.rxWhole p r bs t) := by
  unfold State.rxWhole
  split
  · exact h.bump
  · exact .ite h.pairRx h.rxEnter.vbMark

theorem Canon.rxArrive {p pre r ahead} (h : Canon s) : Canon (s.rxArrive p pre r ahead) :=
  .ite h.setRx.marks h.rxEnter.setRx.vbMark

theorem Canon.rxLookup {p pre bs tail ahead} (h : Canon s) : Canon (s.rxLookup p pre bs tail ahead) := by
  unfold State.rxLookup
  split
  · exact h
  · split
    · exact h
    · split
      · exact h.setRx.rxWhole
      · exact h.rxArrive

theorem Canon.growFrm {i orig} (h : Canon s) : Canon (s.growFrm i orig) := h.setFrm.storeFrm.marks

theorem Canon.rxMore {p pre more} (h : Canon s) : Canon (s.rxMore p pre more) := by
  unfold State.rxMore
  split
  · exact h
  · split
    · exact h
    · split
      · exact .ite (.foundBad (.ite h.setRx.growFrm h.setRx.marks)) (.ite h.setRx.growFrm h.setRx.marks)
      · exact .ite h.setRx.marks h.rxArrive

theorem Canon.rxOversize {p pre rest} (h : Canon s) : Canon (s.rxOversize p pre rest) := by
  unfold State.rxOversize
  split
  · exact h
  · split
    · exact h
    · split
      · exact h.setRx.marks
      · exact h.setRx.growFrm.foundBad

theorem Canon.creditFrm {i} (h : Canon s) : Canon (s.creditFrm i) := h.creditTail

theorem Canon.goodTail {i} (h : Canon s) : Canon (s.goodTail i) :=
  .ite h.setFrm.creditFrm.tailCharge.bump.foundBad (.ite h.setFrm.creditFrm.tailCharge.bump.foundBad (.ite
    h.setFrm.creditFrm.tailCharge.tailTooLong.sendEcho h.setFrm.creditFrm.tailCharge.tailTooLong))

theorem Canon.endRx {i} (h : Canon s) : Canon (s.endRx i) := h.setFrm

theorem Canon.rxEnd {p pre rest t} (h : Canon s) : Canon (s.rxEnd p pre rest t) := by
  unfold State.rxEnd
  split
  · exact h
  · extract_lets whole s1 fault s2
    have h2 : Canon s2 := h.setRx.bumpIf
    clear_value s2 fault
    split
    · refine .ite ?_ (.ite ?_ h2.rxWhole)
      · split
        · exact h2.bump
        · exact h2
      · split
        · exact h2.bump
        · exact h2.setPort.vbMark
    · extract_lets o s3 s4
      have h4 : Canon s4 := (Canon.ite h2 h2.growFrm).setFrm
      clear_value s4
      split
      · exact h4.bump.creditFrm.tailCharge.foundBad.endRx
      · exact h4.goodTail.endRx

theorem Canon.rxBroken {p pre rest} (h : Canon s) : Canon (s.rxBroken p pre rest) := h.rxEnd

theorem Canon.assyErr {p} (h : Canon s) : Canon (s.assyErr p) := h.bump.rxBroken

theorem Canon.rxStart {p frac smdS} (h : Canon s) : Canon (s.rxStart p frac smdS) :=
  .setRx (.ite h (.ite h.assyErr h.rxBroken))

theorem Canon.rxFragment {p g} (h : Canon s) : Canon (s.rxFragment p g) := by
  unfold State.rxFragment
  split
  · exact h
  · split
    · exact h.bump
    · exact h.rxMore
    · exact .ite h.assyErr h
    · dsimp only
      split
      · exact h.bump
      · exact .ite h.bump.assyErr h.bump.setRx.rxMore

theorem Canon.icvDone {p addr u} (h : Canon s) : Canon (s.icvDone p addr u) := by
  unfold State.icvDone
  split
  · exact h
  · split
    · exact .ite h.setPort.memRead.memWrite.bump h.setPort.memRead
    · dsimp only
      split
      · exact h.setPort.memRead.memWrite.bump
      · split
        · exact h.setPort.memRead.secyCheck
        · exact h.setPort.memRead.secyCheck.ingest

theorem Canon.rxInside {p tsReq bs} (h : Canon s) : Canon (s.rxInside p tsReq bs) := by
  unfold State.rxInside
  dsimp only
  split
  · exact h.bump
  · exact h.rxEnter.vbMark

theorem Canon.txDone {r n status} (h : Canon s) : Canon (s.txDone r n status) :=
  .raise (.ringAdvance (h.foldl fun _ _ h1 => h1.emit))

theorem Canon.dmaTx {r ndesc tsReq bs poisoned} (h : Canon s) : Canon (s.dmaTx r ndesc tsReq bs poisoned) :=
  .ite h (.ite (.ite h.bump.txDone h) (.ite h.txDone.stopRing.bump.raise (.ite h.bump.txDone (.ite h.bump.txDone
    h.rxInside.txDone))))

/-! ### Sched -/

theorem Canon.setLevel {q l} (h : Canon s) : Canon (s.setLevel q l) := h.frame

theorem Canon.tbDebit {q n} (h : Canon s) : Canon (s.tbDebit q n) := .ite h.setLevel.memWrite h

theorem Canon.setCredit {q v} (h : Canon s) : Canon (s.setCredit q v) := h.frame

theorem Canon.shaperRead {q} (h : Canon s) : Canon (s.shaperRead q).1 := by
  unfold State.shaperRead
  extract_lets a _ _ t b
  have ha : Canon a.1 := .iteFst h.stateRead h
  have ht : Canon t := .ite ha.frame ha
  have hb : Canon b.1 := .iteFst ht.stateRead ht
  exact .ite hb.setCredit hb

theorem Canon.wrQLim {q data} (h : Canon s) : Canon (s.wrQLim q data) := .ite h.accessErr h.writeReg.marks

theorem Canon.wrSkyCellLim {data} (h : Canon s) : Canon (s.wrSkyCellLim data) := .ite h.accessErr h.writeReg

theorem Canon.wrHwm {r p} (h : Canon s) : Canon (s.wrHwm r p) := by
  unfold State.wrHwm
  split <;> exact h.setFld

theorem Canon.wrTbRate {q data} (h : Canon s) : Canon (s.wrTbRate q data) := .ite h.writeReg h.writeReg.setLevel

theorem Canon.wrTbDepth {q data} (h : Canon s) : Canon (s.wrTbDepth q data) := h.writeReg.setLevel

theorem Canon.wrCbsHi {q data} (h : Canon s) : Canon (s.wrCbsHi q data) := h.writeReg.setCredit

theorem Canon.wrCbsSlope {q data} (h : Canon s) : Canon (s.wrCbsSlope q data) := .ite h.writeReg h.writeReg.setCredit

theorem Canon.wrSchPortCfg {p data} (h : Canon s) : Canon (s.wrSchPortCfg p data) := .ite h.accessErr h.writeReg

theorem Canon.wrMaxwait {q data} (h : Canon s) : Canon (s.wrMaxwait q data) := .ite h.writeReg.setQs h.writeReg

theorem Canon.starve {q} (h : Canon s) : Canon (s.starve q) := .ite h.setQs h

theorem Canon.tickBuckets (h : Canon s) : Canon s.tickBuckets := h.foldl fun _ _ h1 => h1.setLevel

theorem Canon.tickCredit {q} (h : Canon s) : Canon (s.tickCredit q) :=
  .ite h (.ite h.setCredit (.ite h.setCredit (.ite h.setCredit h)))

theorem Canon.tickStarve (h : Canon s) : Canon s.tickStarve := by
  refine h.foldl fun u x hu => ?_
  dsimp only
  split
  · exact .ite hu.setQs hu
  · exact hu

theorem Canon.tickMeters (h : Canon s) : Canon s.tickMeters := h.foldl fun _ _ h1 => h1.setMtr

theorem Canon.tickSched (h : Canon s) : Canon s.tickSched :=
  .tickStarve (h.tickBuckets.tickMeters.foldl fun _ _ h1 => h1.tickCredit)

/-! ### Tx -/

theorem Canon.countDefers {p} (h : Canon s) : Canon (s.countDefers p) := by
  refine h.foldl fun u c hu => ?_
  split
  · exact .ite hu hu.setPort.bump
  · exact hu

theorem Canon.undefer {c} (h : Canon s) : Canon (s.undefer c) := h.setPort

theorem Canon.poisonFrame {i} (h : Canon s) : Canon (s.poisonFrame i) := h.bumpBy.foundBad

theorem Canon.poisonSent {i idx} (h : Canon s) : Canon (s.poisonSent i idx) := h.mapTx.poisonFrame

theorem Canon.queueReset {q} (h : Canon s) : Canon (s.queueReset q) := h.setQueue.emptied.fenceSweep.bumpBy.mapTx.raise

theorem Canon.cellAudit (h : Canon s) : Canon s.cellAudit := h.foldl fun _ _ h1 => h1.setFrm

theorem Canon.popHead {c urg} (h : Canon s) : Canon (s.popHead c urg) := by
  unfold State.popHead
  extract_lets s1 s2 _ s3 _ s4
  have h2 : Canon s2 := h.setQueue.undefer.bumpIf
  have h3 : Canon s3 := .ite h2.setQs h2
  exact (Canon.ite h3.frame h3).fenceSweep

theorem Canon.tickPoints (h : Canon s) : Canon s.tickPoints := h.mapTx

theorem Canon.begin_ {c urg frac} (h : Canon s) : Canon (s.begin_ c urg frac) := by
  unfold State.begin_
  dsimp only
  split
  · exact .dropRef (.iteFst h.popHead h.popHead.secyOut)
  · exact .setPort (.setFrm (.bumpIf (.iteFst h.popHead h.popHead.secyOut)))

theorem Canon.hostError {c} (h : Canon s) : Canon (s.hostError c) := h.emit.ringAdvance.raise

theorem Canon.poisonGrant {c urg frac idx} (h : Canon s) : Canon (s.poisonGrant c urg frac idx) :=
  .ite h.dropWaiting.bump (.ite h.hostError.dropWaiting.bump (.ite h.poisonFrame h.begin_.poisonSent))

theorem Canon.grant {c urg frac rd} (h : Canon s) : Canon (s.grant c urg frac rd) := by
  unfold State.grant
  split
  · dsimp only
    split
    · exact h.shaperRead.dropWaiting
    · split
      · exact h.shaperRead.frameRead.begin_
      · exact h.shaperRead.frameRead.poisonGrant
  · exact .ite h.shaperRead.dropWaiting (.ite h.shaperRead.memRead.memWrite.queueReset h.shaperRead.memRead.begin_)
  · exact .ite h.shaperRead.dropWaiting (.ite h.shaperRead.memRead.poisonGrant h.shaperRead.memRead.begin_)

theorem Canon.resume {p t} (h : Canon s) : Canon (s.resume p t) := h.setPort.bump

theorem Canon.cutPre {p} (h : Canon s) : Canon (s.cutPre p) := h.setPort

theorem Canon.opportunity {p frac rd} (h : Canon s) : Canon (s.opportunity p frac rd) := by
  unfold State.opportunity
  dsimp only
  split
  · exact h.countDefers
  · split
    · exact .grant (.ite h.countDefers.cutPre.bump h.countDefers)
    · split
      · exact .ite h.countDefers.resume h.countDefers
      · split
        · exact h.countDefers.grant
        · exact h.countDefers

theorem Canon.writeBufs {r n i k} (h : Canon s) : Canon (s.writeBufs r n i k) :=
  .ite h (.raise (h.foldl fun _ _ h1 => h1.emit.ringAdvance))

theorem Canon.toHost {c bs len i} (h : Canon s) : Canon (s.toHost c bs len i) := h.emit.writeBufs

theorem Canon.sendLast {t wire} (h : Canon s) : Canon (s.sendLast t wire) := .ite h h.emit

theorem Canon.send {t wire} (h : Canon s) : Canon (s.send t wire) := by
  unfold State.send
  split
  · dsimp only
    split
    · exact .ite h.emit.toHost h.emit
    · exact .ite h.emit (.ite h.hostError.bump h.emit)
  · dsimp only
    split
    · exact .ite h.emit.toHost h.emit
    · exact .ite h.emit (.ite h.toHost h.emit)

theorem Canon.wfqEnd {c len} (h : Canon s) : Canon (s.wfqEnd c len) := .ite h.setQs h

theorem Canon.txStamp {t bit} (h : Canon s) : Canon (s.txStamp t bit) := .ite h.txtsAppend h

theorem Canon.lostTx {t} (h : Canon s) : Canon (s.lostTx t) := h.emit.txStamp.dropRef

theorem Canon.abortTx {t} (h : Canon s) : Canon (s.abortTx t) := h.bump.lostTx

theorem Canon.expressStarts {p frac} (h : Canon s) : Canon (s.expressStarts p frac) := h.setPort

theorem Canon.lateSec {t} (h : Canon s) : Canon (s.lateSec t).1 := .iteFst h.bump h

theorem Canon.finish {t0 express} (h : Canon s) : Canon (s.finish t0 express) :=
  .dropRef (.txStamp (.wfqEnd (.ite h.lateSec.setPort.sendLast.send.bump.bumpIf.bumpIf.bumpIf.tbDebit.tbDebit
    h.lateSec.setPort.sendLast.send.bump.bumpIf.bumpIf.bumpIf.tbDebit)))

theorem Canon.hostPart {t} (h : Canon s) : Canon (s.hostPart t) := h.setPort.writeBufs

theorem Canon.copyEnd {p express frac} (h : Canon s) : Canon (s.copyEnd p express frac) := by
  unfold State.copyEnd
  split
  · dsimp only
    split
    · exact h
    · exact .ite h (.ite h.hostPart h.finish)
  · dsimp only
    split
    · exact h
    · exact .ite h (.ite h.hostPart h.finish.expressStarts)

theorem Canon.collide {p late frac} (h : Canon s) : Canon (s.collide p late frac) := by
  unfold State.collide
  split
  · exact h
  · exact .ite h (.ite h.bump.setPort.lostTx h.bump.setPort)

theorem Canon.cutLanes {p} (h : Canon s) : Canon (s.cutLanes p) := h.setPort.foldl fun _ _ h1 => h1.abortTx

theorem Canon.execTxCopyEnd {p express frac col} (h : Canon s) : CanonOut (execTxCopyEnd p express frac s col) := by
  unfold Machine.execTxCopyEnd
  split
  · split
    · exact h.cutLanes
    · split
      · exact h.copyEnd
      · exact h.collide
  · exact h

theorem Canon.txMore {i more} (h : Canon s) : Canon (s.txMore i more) := .ite h.rxMore h

theorem Canon.fragEnd {p sent frac more} (h : Canon s) : Canon (s.fragEnd p sent frac more) := by
  unfold State.fragEnd
  split
  · exact h
  · exact .ite h.txMore h.txMore.emit.setPort.expressStarts

theorem Canon.hold_ {p} (h : Canon s) : Canon (s.hold_ p) := by
  unfold State.hold_
  dsimp only
  split
  · exact h
  · exact .ite (.bump (.setPort (.ite h h.cutPre))) h

/-! ### Ports -/

theorem Canon.preemptOff {p status} (h : Canon s) : Canon (s.preemptOff p status) := h.setPort.raiseIf

theorem Canon.portLost {p rest} (h : Canon s) : Canon (s.portLost p rest) :=
  .preemptOff (.foldl (.rxBroken (.rxBroken (.dropWaiting (h.setPort.foldl fun _ _ h1 => h1.abortTx)))) (fun _ _ h1 =>
    h1.setCredit))

theorem Canon.linkDown {p rest} (h : Canon s) : Canon (s.linkDown p rest) := by
  unfold State.linkDown
  extract_lets s1 s2 s3
  have h2 : Canon s2 := .ite h.portLost.setFld.fdbPurge h.portLost.setFld
  exact .ite h (.ite h2.raise.health h2.raise)

theorem Canon.phyDrop {p rest} (h : Canon s) : Canon (s.phyDrop p rest) := h.frame.linkDown

theorem Canon.phyUnlock {p rest} (h : Canon s) : Canon (s.phyUnlock p rest) := h.phyDrop.raiseIf

theorem Canon.sendVerify {p} (h : Canon s) : Canon (s.sendVerify p) := .ite h h.setPort.emit

theorem Canon.verifyStart {p} (h : Canon s) : Canon (s.verifyStart p) := .ite h (.ite h.setPort h.setPort.sendVerify)

theorem Canon.retrained {p fast sig} (h : Canon s) : Canon (s.retrained p fast sig) :=
  .ite h.setPort (.ite h.setPort.frame.wr h.setPort.frame.bump)

theorem Canon.linkRise {p mode fast sig} (h : Canon s) : Canon (s.linkRise p mode fast sig) :=
  .ite h (.ite h.setFld.setFld.raise.raiseIf.verifyStart.retrained.health
    h.setFld.setFld.raise.raiseIf.verifyStart.retrained)

theorem Canon.wrPreemptCfg {p data} (h : Canon s) : Canon (s.wrPreemptCfg p data) :=
  .ite h (.ite h.writeReg.preemptOff (.ite h.writeReg.setPort (.ite h.writeReg.setPort h.writeReg)))

theorem Canon.fenceExpire {p} (h : Canon s) : Canon (s.fenceExpire p) := by
  unfold State.fenceExpire
  split
  · exact h
  · exact .ite h.dropWaiting.bumpBy h

theorem Canon.hostDown (h : Canon s) : Canon s.hostDown :=
  .ite h (.raise (.ite h.portLost.setFld.fdbPurge h.portLost.setFld))

theorem Canon.wrPortLim {p data} (h : Canon s) : Canon (s.wrPortLim p data) :=
  .ite h.writeReg.hostDown h.writeReg.raiseIf

theorem Canon.wrLimit {which i data} (h : Canon s) : Canon (s.wrLimit which i data) := by
  unfold State.wrLimit
  split
  · exact h.wrQLim
  · exact h.writeReg
  · exact h.wrPortLim
  · exact h.wrSkyCellLim

theorem Canon.wrPortCfg {p data} (h : Canon s) : Canon (s.wrPortCfg p data) :=
  .ite h (.ite h.accessErr (.ite (.accessErr (.ite h.wr.phyDrop h.wr)) (.ite h.wr.phyDrop h.wr)))

theorem Canon.wrMdioCmd {data answer} (h : Canon s) : Canon (s.wrMdioCmd data answer) :=
  .ite h.writeReg (.ite h.writeReg.emit.setFld h.writeReg.emit)

theorem Canon.wrPhy {off data what} (h : Canon s) : Canon (s.wrPhy off data what) := by
  unfold State.wrPhy
  split
  · exact .ite h.accessErr h.accessErr
  · exact .ite h.accessErr h.accessErr
  · exact .ite h.accessErr h.frame.linkDown
  · exact .ite h.accessErr h.frame

theorem Canon.rdPhy {off} (h : Canon s) : Canon (s.rdPhy off).1 := .iteFst h h.frame

theorem Canon.perstAssert (h : Canon s) : Canon s.perstAssert := by
  have hp : Canon ((List.range 8).foldl (fun s r => (s.stopRing false r).stopRing true r) s) :=
    h.foldl fun _ _ hu => hu.stopRing.stopRing
  have hk (t : State) (f) (ht : Canon t) : Canon { t with hold := tblKeep f t.hold } :=
    { ht with hold := tblWf_keep _ _ ht.hold }
  exact ((hk _ _ hp.hostDown.setPath).frame.wr.raiseIf.setBall).settle

/-! ### Skerry -/

theorem Canon.hrbExpire {n} (h : Canon s) : Canon (s.hrbExpire n) := by
  unfold State.hrbExpire
  split
  · exact h
  · split
    · dsimp only
      split
      · exact h.bump.slotTo.setCtx
      · exact h.bump.slotTo
    · exact h

theorem Canon.hrbRun {fuel n} (h : Canon s) : Canon (s.hrbRun fuel n) := by
  induction fuel generalizing s with
  | zero => exact h
  | succ fuel ih => exact .ite (ih h.hrbExpire) h

theorem Canon.hrbHolds {slot} (h : Canon s) : Canon (s.hrbHolds slot) := by
  unfold State.hrbHolds
  split
  · exact h.hrbRun
  · exact h

theorem Canon.execBufferWriteComplete {slot} (h : Canon s) : CanonOut (execBufferWriteComplete slot s) := by
  unfold Machine.execBufferWriteComplete
  dsimp only
  split
  · split
    · exact h.hrbHolds.setSlot.holdCtx
    · exact h.hrbHolds
  · exact h.hrbHolds

theorem Canon.legacyOrder {o ord} (h : Canon s) : Canon (s.legacyOrder o ord).1 := by
  unfold State.legacyOrder
  split
  · exact h
  · exact .iteFst h.bump h.frame

theorem Canon.releaseOut {o} (h : Canon s) : Canon (s.releaseOut o) := by
  unfold State.releaseOut
  split
  · exact .dropRef (.ite h h.admitCopy)
  · dsimp only
    split
    · exact h.dropRef
    · split
      · exact .dropRef (.ite h.legacyOrder.legCopy h.legacyOrder)
      · exact h.dropRef

theorem Canon.freeHead {n k c} (h : Canon s) : Canon (s.freeHead n k c) := h.setSlot.bump.holdCtx

theorem Canon.headRead {n} (h : Canon s) : Canon (s.headRead n) := by
  unfold State.headRead
  split
  · exact .ite h.wordsRead.memFill.voidSlot h.wordsRead
  · exact h

theorem Canon.release {n} (h : Canon s) : Canon (s.release n) := by
  unfold State.release
  dsimp only
  split
  · exact h.ctxRead.headRead
  · split
    · exact h.ctxRead.headRead
    · split
      · exact h.ctxRead.headRead.freeHead.foldl fun _ _ h1 => h1.releaseOut
      · exact h.ctxRead.headRead.freeHead
      · exact h.ctxRead.headRead

theorem Canon.threadTake {k t} (h : Canon s) : Canon (s.threadTake k t) := by
  unfold State.threadTake
  refine .ite h (.ite ?_ ?_)
  all_goals
    split
    · exact .ite h.setSky h
    · exact h

theorem Canon.threadEnd {k t} (h : Canon s) : Canon (s.threadEnd k t) := h.setSky

theorem Canon.execSkerryWatchdog {k t} (h : Canon s) : CanonOut (execSkerryWatchdog k t s) := by
  unfold Machine.execSkerryWatchdog
  split
  · exact h
  · exact .ite h (.dropRef (.ite h.threadEnd.skyDrop.bump.voidSlot h.threadEnd.skyDrop.bump))

theorem Canon.xltRead {par prof} (h : Canon s) : Canon (s.xltRead par prof).1 := by
  unfold State.xltRead
  refine .iteFst h (.keyFetch (.keyFetch (.foldlFst ?_ fun _ _ hu => .iteFst hu hu.cfgEnt)))
  exact h.cfgEnt

theorem Canon.secocCheck {f prof e data} (h : Canon s) : Canon (s.secocCheck f prof e data).1 := by
  unfold State.secocCheck
  dsimp only
  split
  · exact h
  · split
    · exact h
    · split
      · exact h
      · exact .iteFst h.bump (.iteFst h h.freshCommit)

theorem Canon.legacyOut {f prof x payload} (h : Canon s) : Canon (s.legacyOut f prof x payload).1 := by
  unfold State.legacyOut
  extract_lets e l sec p fvb macb room pdu g
  clear_value room
  refine .iteFst h (.iteFst h ?_)
  split
  · exact h.freshGen
  · exact .iteFst h.freshGen.bump h.freshGen

theorem Canon.addOut {f prof x payload acc} (h : Canon s) : Canon (s.addOut f prof x payload acc).1 := by
  unfold State.addOut
  dsimp only
  split <;> exact h.legacyOut

theorem Canon.acfIn {f prof p} (h : Canon s) : Canon (s.acfIn f prof p).1 := by
  unfold State.acfIn
  dsimp only
  split
  · exact h
  · refine .iteFst h (Canon.foldlFst h fun a m ha => ?_)
    split
    · exact ha
    · exact ha.addOut

theorem Canon.trailerCheck {f prof e svc mth client payload} (h : Canon s) : Canon (s.trailerCheck f prof e svc mth
    client payload).1 :=
  .iteFst h.bump (.iteFst h (.iteFst h h.freshCommit))

theorem Canon.sipIn {f prof p} (h : Canon s) : Canon (s.sipIn f prof p).1 := by
  unfold State.sipIn
  split
  · exact h
  · dsimp only
    split
    · exact h
    · split
      · exact h
      · split
        · exact .iteFst h.trailerCheck h
        · split <;> exact .addOut (.iteFst h.trailerCheck h)

theorem Canon.legacyIn {f prof l prog wrap gw} (h : Canon s) : Canon (s.legacyIn f prof l prog wrap gw).1 := by
  unfold State.legacyIn
  extract_lets dir hit
  clear_value hit
  split
  · exact h
  · extract_lets c
    have hc : Canon c.1 := .iteFst h.secocCheck h
    clear_value c
    split
    · exact hc
    · refine .iteFst ?_ (.iteFst hc (.iteFst hc hc))
      split <;> exact hc.addOut

theorem Canon.translate {f prof wraps gw} (h : Canon s) : Canon (s.translate f prof wraps gw).1 := by
  unfold State.translate
  split
  · exact .iteFst h.legacyIn h
  · exact .iteFst h.acfIn (.iteFst h.sipIn h)

theorem Canon.builtFrm {f o refs} (h : Canon s) : Canon (s.builtFrm f o refs).1 := h.newFrm

theorem Canon.emitOuts {k t d prof f outs} (h : Canon s) : Canon (s.emitOuts k t d prof f outs).1 := by
  refine .foldlFst (h.foldl fun _ _ hu => hu.skyDrop) fun a o ha => ?_
  dsimp only
  split
  · exact ha.builtFrm
  · exact .pair ha.skyDrop

theorem Canon.slotReady {n outs} (h : Canon s) : Canon (s.slotReady n outs) := h.slotTo

theorem Canon.authPass {f prof} (h : Canon s) : Canon (s.authPass f prof).1 := by
  unfold State.authPass
  split
  · split
    · exact h
    · dsimp only
      split
      · exact h
      · exact h.trailerCheck
  · exact h

theorem Canon.verdict {k t d v} (h : Canon s) : Canon (s.verdict k t d v) := by
  unfold State.verdict
  extract_lets f prof dropIt a u
  have hd {u c x} (hu : Canon u) : Canon (dropIt u c x) := hu.skyDrop.voidSlot
  clear_value dropIt
  split
  · exact hd h
  · exact .ite (hd h) (hd h)
  · exact h.holdFrm.slotReady
  · have ha : Canon a.1 := h.authPass
    split
    · exact hd ha
    · extract_lets w
      have hw : Canon w := by
        unfold w
        split
        · exact .ite ha.setFrm ha
        · exact ha
      exact .ite ha.skyDrop.slotReady hw.holdFrm.slotReady
  · exact h.emitOuts.slotReady
  · extract_lets x
    have hx : Canon x.1 := h.translate
    clear_value x
    split
    · exact hd hx
    · extract_lets u r
      have hr : Canon r.1 := (hx.foldl fun _ _ hu => hu.skyDrop).emitOuts
      exact .ite hr.voidSlot hr.slotReady

theorem Canon.lateRun {d v} (h : Canon s) : Canon (s.lateRun d v) := by
  unfold State.lateRun
  split
  · exact h.translate
  · exact h.authPass
  · exact h

theorem Canon.skyReads {d} (h : Canon s) : Canon (s.skyReads d).1 := h.frameRead.xltRead

theorem Canon.descDone {k t v} (h : Canon s) : Canon (s.descDone k t v) := by
  unfold State.descDone
  split
  · exact h
  · exact .marks (.dropRef (.ite h.threadEnd.bump.hrbHolds.skyReads.verdict (.bump (.ite
      h.threadEnd.bump.hrbHolds.skyReads h.threadEnd.bump.hrbHolds.skyReads.lateRun))))

theorem Canon.stealProbe {k} (h : Canon s) : Canon (s.stealProbe k) := by
  unfold State.stealProbe
  split
  · exact h
  · dsimp only
    split
    · exact h.setSky
    · exact .ite h.setSky h.setSky.setSky.setSky.bump.bump

theorem Canon.voidDescs {l} (h : Canon s) : Canon (s.voidDescs l) :=
  h.foldl fun _ _ h1 => .dropRef (.ite h1.voidSlot h1)

theorem Canon.rehome {k j} (h : Canon s) : Canon (s.rehome k j) := h.foldl fun _ _ h1 => .ite h1 h1.wr

theorem Canon.skyFault {k cause} (h : Canon s) : Canon (s.skyFault k cause) := by
  unfold State.skyFault
  split
  · exact h
  · dsimp only
    split
    · exact h.wr.wr.setSky.voidDescs.rehome.bump.raise.drawWord.drawWord.drawWord.skyRecord
    · exact h.wr.wr.setSky.voidDescs.bump.raise.drawWord.drawWord.drawWord.skyRecord

theorem Canon.skyMemFault {mem k bad} (h : Canon s) : Canon (s.skyMemFault mem k bad) := .ite h.skyFault h

theorem Canon.skyFetch {k} (h : Canon s) : Canon (s.skyFetch k) :=
  .ite h (h.foldl fun _ _ h1 => .skyMemFault (h1.foldlFst fun _ _ h2 => h2.memRead))

theorem Canon.skyMemClear {k} (h : Canon s) : Canon (s.skyMemClear k) :=
  h.frame.foldl fun _ _ h1 => .ite h1.applyFlip h1

theorem Canon.wrSkyCtrl {data ok} (h : Canon s) : Canon (s.wrSkyCtrl data ok) := by
  unfold State.wrSkyCtrl
  extract_lets s1 k s2 s3
  have h1 : Canon s1 := h.writeReg.flushBlk
  have h2 : Canon s2 := .ite h1.skyFault h1
  exact .ite (.ite h2.skyMemClear.wr h2.skyMemClear) h2

theorem Canon.wrHomeMap {n data} (h : Canon s) : Canon (s.wrHomeMap n data) := .ite h.wr.accessErr h.wr

/-! ### Load -/

theorem Canon.runCheck {a : LoadRun} {r code f} (h : Canon a.s) (hf : ∀ u, Canon u → Canon (f u).1) :
    Canon (a.check r code f).s := by
  unfold LoadRun.check
  split
  · exact h
  · dsimp only
    split <;> exact hf _ h

theorem Canon.runTest {a : LoadRun} {code} {f} (h : Canon a.s) : Canon (a.test code f).s := .iteRun h h

theorem Canon.loadSet {c par boot dig} (h : Canon s) : Canon (s.loadSet c par boot dig).s := by
  unfold State.loadSet
  extract_lets net s0 s1 s2 a0 a1 a2 a3 a4 a5 a6 a7 a8 a9 a10 x w a11
  have h0 : Canon s0 := .ite h (.foldl h.frame fun _ _ hu => hu.narrow)
  have h2 : Canon s2 := by
    refine h0.withRegs.loadCopies.foldl fun u b hu => ?_
    split
    · exact .ite hu.setFld hu
    · exact hu
  have pure {a : LoadRun} {r code f} (ha : Canon a.s) : Canon (a.check r code (Machine.pureCheck f)).s :=
    ha.runCheck fun _ hu => hu
  have rules : Canon a2.s := (Canon.runTest (a := a0) h2.setResv).runCheck fun _ hu => hu.loadRules.thenLoad fun _ hv => hv
  have fwd : Canon a5.s := ((pure rules).runCheck fun _ hu => hu.loadFwd).runCheck fun _ hu => hu.loadLegacy
  have ha : Canon a10.s := pure (pure (pure (pure (pure fwd))))
  have hx : Canon x.1 := ha.contract
  have ha' : Canon a11.s := by
    unfold a11
    clear_value w x a10
    split
    · exact ha
    · split
      · dsimp only
        exact hx.setBudgets
      · exact hx
  exact pure ha'.runTest

theorem Canon.runFinish {a : LoadRun} (ha : Canon a.s) (h : Canon s) : Canon (a.finish s) := by
  have hb : Canon { a.s with regs := s.regs } := { ha with regs := h.regs }
  exact (Canon.ite hb.wr h.frame).foldl fun _ _ hu => hu.wr

theorem Canon.applyReg {x} (h : Canon s) : Canon (s.applyReg x) := by
  unfold State.applyReg
  split
  · exact h.wrSafeCfg
  · split
    · exact .ite h (.ite h.wrPortCfg.wrPortCfg h.wrPortCfg)
    · exact .ite h h.wrDomCfg
    · exact .ite h h.wrDomRate
    · exact .ite h h.wrDomRate
    · exact .ite h h.wrPreemptCfg
    · exact .ite h h.wrLinCtrl
    · exact .ite h h.wrTbRate
    · exact .ite h h.wrTbRate
    · exact .ite h h.wrTbDepth
    · exact .ite h h.wrTbDepth
    · exact .ite h h.wrCbsSlope
    · exact .ite h h.wrCbsHi
    · exact .ite h h.wrMaxwait
    · exact .ite h h.wrSchPortCfg
    · exact .ite h h.wrMeter
    · exact .ite h h.wrMeter
    · exact .ite h h.wrMeter
    · exact .ite h h.wrMeter
    · exact .ite h h.wrMeter
    · exact .ite h h.wrSecyCfg
    · exact .ite h h.wrEncAn
    · exact .ite h h.wrPlca
    · exact .ite h h.wrPlca
    · exact .ite h h.wrPlca
    · exact .ite h h.wrFlapCfg
    · exact .ite h h.wrSafeCfg
    · exact .ite h h.wrRedCfg
    · exact .ite h h.wrEvtRoute
    · exact .ite h h.wrPortLim
    · exact .ite h h.wrHomeMap
    · exact .ite h h.wrProducer
    · exact .ite h h.wrProducer
    · exact .ite h h.wrTscCfg
    · exact .ite h h.wrTscReg
    · exact .ite h h.wrPpsCfg
    · exact .ite h h.writeReg.pins
    · exact .ite h h.writeReg

theorem Canon.applyRegs {l} (h : Canon s) : Canon (s.applyRegs l) :=
  .foldl (h.foldl fun _ _ h1 => h1.applyReg) (fun _ _ h1 => h1.applyReg)

theorem Canon.putRegs {l p} (h : Canon s) : Canon (s.putRegs l p) := h.foldl fun _ _ h1 => h1.wr

theorem Canon.applyCan {l n} (h : Canon s) : Canon (s.applyCan l n) :=
  .ite h (.ite h.wrCanCtrl (.wrCanCtrl (.foldl (.ite h.wrCanCtrl h) (fun _ _ h1 => h1.wrCanTiming))))

theorem Canon.applyTide {l same p} (h : Canon s) : Canon (s.applyTide l same p) :=
  .ite h (.ite h.putRegs.setTide.tideCommit h.putRegs.setTide)

theorem Canon.applyGates {l boot} (h : Canon s) : Canon (s.applyGates l boot) :=
  .foldl (h.putRegs.foldl fun _ _ h1 => h1.putRegs) (fun _ _ h1 => .ite h1.setGate.gateCommit h1)

theorem Canon.fillStarted {old l} (h : Canon s) : Canon (State.fillStarted old s l) := by
  refine h.foldl fun u x hu => ?_
  split
  · exact .ite hu hu.setLevel
  · exact .ite hu hu.setLevel
  · exact .ite hu hu.setMtr
  · exact hu

theorem Canon.ptpErrors {c} (h : Canon s) : Canon (s.ptpErrors c) := h.foldl fun _ _ h1 => .ite h1.accessErr h1

theorem Canon.applySet {c boot} (h : Canon s) : Canon (s.applySet c boot) := by
  unfold State.applySet
  refine (Canon.applyGates (Canon.foldl (Canon.foldl (Canon.setResv (Canon.fillStarted (Canon.foldl h.ptpErrors.applyRegs
    fun u b hu => ?_))) fun _ _ hu => hu.applyCan) fun _ _ hu => hu.applyTide)).marks
  split
  · exact .ite hu.wrTbDepth hu
  · exact hu

theorem Canon.storeMinimal {c digest} (h : Canon s) : Canon (s.storeMinimal c digest) := h.frame

theorem Canon.swapCopies (h : Canon s) : Canon s.swapCopies := by
  refine { h with regs := ?_ }
  exact List.foldlRecOn (motive := fun t => tblWf t = true) _ _ (tblWf_filter _ _ h.regs)
    fun t ht x _ => tblWf_put t x.1 x.2 ht

theorem Canon.swapTo {sh trial} (h : Canon s) : Canon (s.swapTo sh trial) :=
  .storeMinimal (.frame (.raise (.bump (h.setBcr.swapCopies.applySet.frame.fenceSweep.wr.foldl fun _ _ h1 =>
    h1.strReset))))

/-! ### Life -/

theorem Canon.sendWup (h : Canon s) : Canon s.sendWup := h.foldl fun _ _ h1 => h1.emit

theorem Canon.enterBoot {cause hard} (h : Canon s) : Canon (s.enterBoot cause hard) := by
  have hr : tblWf (s.keptRegs hard) = true := tblWf_filter _ _ h.regs
  unfold State.enterBoot
  extract_lets woke run s0 phys hbr pwr boot t
  have ht : Canon t := ⟨hr, rfl, rfl, rfl, rfl, rfl, h.flash⟩
  exact ht.wr.raiseIf

theorem Canon.goOff (h : Canon s) : Canon s.goOff := .ite h.pins h.frame.restBalls.setBall.pins

theorem Canon.suppliesValid {ioA ioB} (h : Canon s) : Canon (s.suppliesValid ioA ioB) := by
  unfold State.suppliesValid
  extract_lets was _ t
  have ht : Canon t := .ite h h.frame
  exact .ite ht (.ite ht.enterBoot (.ite ht.enterBoot (.ite ht.enterBoot ht)))

theorem Canon.suppliesLost {aon} (h : Canon s) : Canon (s.suppliesLost aon) :=
  .ite h.tearRow.frame.goOff (.ite h.tearRow.frame h.tearRow.frame.goOff)

theorem Canon.aonValid (h : Canon s) : Canon s.aonValid := by
  have hr : tblWf (s.regsOf fuseRegs) = true := tblWf_filter _ _ h.regs
  have ha : Canon { s with regs := s.regsOf fuseRegs } := { h with regs := hr }
  exact .ite h (.ite ha.frame.enterBoot ha.frame)

theorem Canon.rstAssert (h : Canon s) : Canon s.rstAssert := .ite h.frame h.frame.frame.restBalls

theorem Canon.rstRelease (h : Canon s) : Canon s.rstRelease :=
  .ite h (.ite h.frame (.ite h.frame.enterBoot (.ite h.frame h.frame.frame)))

theorem Canon.rootUnlock (h : Canon s) : Canon s.rootUnlock := .ite h.frame.fault h.frame

theorem Canon.retentionFault {rails} (h : Canon s) : Canon (s.retentionFault rails) :=
  .ite h (.ite (.enterBoot (.ite h.sendWup h)) h.frame)

/-! ### KeyOps -/

theorem Canon.lcChange {p cut} (h : Canon s) : Canon (s.lcChange p cut) := .ite h.lcBegin.lcComplete.enterBoot h.lcBegin

theorem Canon.wrKeyCmd {p data stores cut stored} (h : Canon s) : Canon (s.wrKeyCmd p data stores cut stored) := by
  unfold State.wrKeyCmd
  split
  · exact h.accessErr
  · split
    · exact h.writeReg
    · split
      · exact h.writeReg.flushBlk.keysFetch.keyUpdate
      · exact h.writeReg.flushBlk.keysFetch.lcChange
      · exact h.writeReg.flushBlk.keysFetch.keyAttestCmd
      · exact h.writeReg.flushBlk.keysFetch.dbgChal
      · exact h.writeReg.flushBlk.keysFetch.dbgUnlock
      · exact h.writeReg.flushBlk.keysFetch.keyDone

/-! ### Power -/

theorem Canon.sendBall {type k} (h : Canon s) : Canon (s.sendBall type k) := .ite h (.ite (.ite h h.emit.bump) h.emit)

theorem Canon.setRing {r} (h : Canon s) : Canon (s.setRing r) := h.frame

theorem Canon.ringEnd (h : Canon s) : Canon s.ringEnd := .setRing (h.foldl fun _ _ h1 => h1.sendBall)

theorem Canon.wakeRecord {code late} (h : Canon s) : Canon (s.wakeRecord code late) := .ite h.wr h.wr.wr

theorem Canon.wakeOutPulse (h : Canon s) : Canon s.wakeOutPulse := h.frame.pins

theorem Canon.clearStuck (h : Canon s) : Canon s.clearStuck := .frame (h.foldl fun _ _ h1 => h1.setFld.setFld)

theorem Canon.wakeTaken {code} (h : Canon s) : Canon (s.wakeTaken code) := by
  unfold State.wakeTaken
  exact h.frame.pins

theorem Canon.wakeEdge {code} (h : Canon s) : Canon (s.wakeEdge code) := by
  unfold State.wakeEdge
  extract_lets s1 s2 s3
  have h3 : Canon s3 := .wakeTaken (.clearStuck (.ite h.wakeOutPulse h))
  exact .ite h (.ite (.ite h3.sendWup.enterBoot h3.sendWup) (.ite h3.sendWup.enterBoot h3))

theorem Canon.wakeLate {code} (h : Canon s) : Canon (s.wakeLate code) := h.frame.bump.foldl fun _ _ h1 => h1.emit

theorem Canon.commitBack {fsc} (h : Canon s) : Canon (s.commitBack fsc) := h.setBcr.bumpBy.setFld.bump.ringEnd

theorem Canon.wakeRequest {code} (h : Canon s) : Canon (s.wakeRequest code) := by
  have hr {c} : Canon (s.wakeRecord code c) := h.wakeRecord
  unfold State.wakeRequest
  refine .ite h ?_
  split
  · exact h
  · exact hr
  iterate 2 exact hr.wakeEdge
  all_goals
    refine .ite hr ?_
    split
    · exact hr
    · exact hr.frame
    all_goals
      split
      · exact hr.commitBack
      · exact hr.wakeLate

theorem Canon.wakeIn {n level} (h : Canon s) : Canon (s.wakeIn n level) := .ite h.frame.pins.wakeRequest h.frame.pins

theorem Canon.lpfError {n} (h : Canon s) : Canon (s.lpfError n) := .ite h.setFld h.setFld.setFld.wakeRequest

theorem Canon.vetoMember {k reason} (h : Canon s) : Canon (s.vetoMember k reason).1 := by
  unfold State.vetoMember
  extract_lets s1 n s2 stuck _ s3 f out s4
  have h3 : Canon s3 := .ite h.setFld.setFld.frame h.setFld.setFld
  exact .ite h3.setFld.bump h3

theorem Canon.ringVeto {member reason} (h : Canon s) : Canon (s.ringVeto member reason) := by
  unfold State.ringVeto
  split
  · exact .ringEnd (.raiseAll (.vetoMember (.ite h.bump h.bump.wr.wr.wr.wr)))
  · exact .ringEnd (.raiseAll (.ite h.bump h.bump.wr.wr.wr.wr))

theorem Canon.ringConsent {k} (h : Canon s) : Canon (s.ringConsent k) := h.setFld.frame.setRing

theorem Canon.ringPass {l} (h : Canon s) : Canon (s.ringPass l) := by
  induction l generalizing s with
  | nil => exact h.setRing
  | cons k rest ih => exact .ite h.sendBall.setRing (.ite (ih h.ringConsent) h.ringVeto)

theorem Canon.ringStart {writing} (h : Canon s) : Canon (s.ringStart writing) := by
  unfold State.ringStart
  dsimp only
  split
  · exact h.bump.setRing.ringVeto
  · exact h.bump.setRing.ringPass

theorem Canon.ringReturn {k verdict} (h : Canon s) : Canon (s.ringReturn k verdict) :=
  .ite h.ringConsent.ringPass h.ringVeto

theorem Canon.execRingReplyTimeout (h : Canon s) : CanonOut (execRingReplyTimeout s) := by
  unfold Machine.execRingReplyTimeout
  split
  · exact .ite h.ringVeto h
  · exact h

theorem Canon.idleZero (h : Canon s) : Canon s.idleZero := h.frame

theorem Canon.idleStore (h : Canon s) : Canon s.idleStore := h.setSess

theorem Canon.commitTo {toSleep fsc} (h : Canon s) : Canon (s.commitTo toSleep fsc) := h.setRing

theorem Canon.sleepEntry (h : Canon s) : Canon s.sleepEntry :=
  .foldl (.ite h.setRing.setRole h.setRing) (fun _ _ h1 => h1.sendBall)

theorem Canon.tickCommit (h : Canon s) : Canon s.tickCommit := .ite h.sleepEntry h

theorem Canon.tryCommit (h : Canon s) : Canon s.tryCommit :=
  .ite h (.ite h.setFld.bump.ringEnd h.setBcr.idleStore.bump.commitTo)

theorem Canon.wrPwrCtrl {path data} (h : Canon s) : Canon (s.wrPwrCtrl path data) := by
  unfold State.wrPwrCtrl
  extract_lets s1 s2
  have h2 : Canon s2 := .ite h.writeReg.wakeOutPulse h.writeReg
  exact .ite h2 (.ite h2.tryCommit h2.accessErr)

theorem Canon.execWakeOutPulseEnd (h : Canon s) : CanonOut (execWakeOutPulseEnd s) := by
  unfold Machine.execWakeOutPulseEnd
  split
  · exact .ite h.frame.pins h
  · exact h

theorem Canon.saveCoef (h : Canon s) : Canon s.saveCoef := h.frame

theorem Canon.standbyPort {p} (h : Canon s) : Canon (s.standbyPort p) :=
  .ite h (.ite (.raise (.ite h.portLost.setFld h.portLost)) (.ite h.portLost.setFld h.portLost))

theorem Canon.emptyHarbour (h : Canon s) : Canon s.emptyHarbour :=
  .foldl (h.foldl fun _ _ h1 => .ite h1.bump.slotTo h1) (fun _ _ h1 => h1.release)

theorem Canon.dropFrames (h : Canon s) : Canon s.dropFrames :=
  .frame (.foldl (h.dropWaiting.foldl fun _ _ h1 => h1.bumpBy) (fun _ _ h1 => .ite h1.bump h1.bump))

theorem Canon.enterStandby (h : Canon s) : Canon s.enterStandby :=
  .frame (.setBall (.setBall (.legacyDrop (.dropFrames (.emptyHarbour (h.foldl fun _ _ h1 => h1.standbyPort))))))

theorem Canon.enterSleep (h : Canon s) : Canon s.enterSleep := by
  have hr : tblWf (s.regsOf sleepRegs) = true := tblWf_filter _ _ h.regs
  unfold State.enterSleep
  extract_lets s0 phys hbr pwr boot t
  have ht : Canon t := ⟨hr, rfl, rfl, rfl, rfl, rfl, h.flash⟩
  exact ht.restBalls.setBall.pins

theorem Canon.enterTarget (h : Canon s) : Canon s.enterTarget := by
  unfold State.enterTarget
  dsimp only
  split
  · exact .wakeEdge (.ite h.saveCoef.setBall.enterSleep h.saveCoef.setBall.enterStandby)
  · exact .ite h.saveCoef.setBall.enterSleep h.saveCoef.setBall.enterStandby

theorem Canon.lpsDone {p} (h : Canon s) : Canon (s.lpsDone p) := .ite h.setRing.enterTarget h.setRing

theorem Canon.holdEnd (h : Canon s) : Canon s.holdEnd := by
  unfold State.holdEnd
  extract_lets s1 ps s2 _ s3
  have h3 : Canon s3 := (h.linGoToSleep.legacyDrop.foldl fun _ _ hu => hu.emit).setRing
  exact .ite h3.enterTarget h3

theorem Canon.lpsRx {p} (h : Canon s) : Canon (s.lpsRx p) := .ite h.emit h.emit.bump

theorem Canon.resumeRun (h : Canon s) : Canon s.resumeRun := by
  unfold State.resumeRun
  extract_lets dur _ _ _ _ _ _ s1 s2 s3 s4 _ s5 s6 s7
  have h2 : Canon s2 := h.frame.wr
  have h5 : Canon s5 := .frame (.setFld (.setFld (.ite h2.setBall h2)))
  have h6 : Canon s6 := .ite h5.setRole h5
  exact h6.freshLoad.legacyReenter.sendWup.raiseAll

theorem Canon.partnerCommit {n l} (h : Canon s) : Canon (s.partnerCommit n l) := .ite h.setRing.commitTo.sleepEntry h

/-! ### Boot -/

theorem Canon.ospiSwitch (h : Canon s) : Canon s.ospiSwitch := h.frame

theorem Canon.histOpen {outcome} (h : Canon s) : Canon (s.histOpen outcome) := .frame (.ite h.setBcr h)

theorem Canon.histClose {outcome} (h : Canon s) : Canon (s.histClose outcome) := h.frame

theorem Canon.histFail (h : Canon s) : Canon s.histFail := by
  unfold State.histFail
  split
  · exact .ite h.frame h
  · exact h

theorem Canon.clearMap (h : Canon s) : Canon s.clearMap := h.foldl fun _ _ h1 => h1.delEnt

theorem Canon.mapEntries {l} (h : Canon s) : Canon (s.mapEntries l) := h.foldl fun _ _ h1 => h1.placeMap

theorem Canon.unload (h : Canon s) : Canon s.unload := by
  have hr : Canon { s with regs := s.regs.filter fun x => !unloadRegs.any fun r => r.ctorIdx == x.1 % 512 } :=
    { h with regs := tblWf_filter _ _ h.regs }
  exact .ite h (.foldl hr.frame fun _ _ hu => hu.wrPortCfg)

theorem Canon.applyMinimal {m} (h : Canon s) : Canon (s.applyMinimal m) :=
  h.applySet.clearMap.mapEntries.mapEntries.foldl fun _ _ h1 => .ite h1.loadEnt (.ite h1.placeFdb h1)

theorem Canon.enterMinimal {cause reason} (h : Canon s) : Canon (s.enterMinimal cause reason) :=
  .freshLoad (.histOpen (.ite h.frame.frame.wr.setFld h.frame.frame.wr))

theorem Canon.toMinimal {cause reason} (h : Canon s) : Canon (s.toMinimal cause reason) := by
  unfold State.toMinimal
  split
  · exact .ite h.applyMinimal.enterMinimal h.applyMinimal.frame
  · exact .ite h.enterMinimal h.frame

theorem Canon.fastStart (h : Canon s) : Canon s.fastStart := by
  unfold State.fastStart
  split
  · exact h
  · exact .ite h h.applySet.clearMap.mapEntries.frame

theorem Canon.enterRun {fwim} (h : Canon s) : Canon (s.enterRun fwim) :=
  .ite h.histClose.frame.freshLoad.setRole h.histClose.frame.freshLoad

theorem Canon.tryRun (h : Canon s) : Canon s.tryRun := by
  unfold State.tryRun
  split
  · exact .ite h.enterRun h
  · exact h

theorem Canon.tryLeave (h : Canon s) : Canon s.tryLeave := by
  unfold State.tryLeave
  split
  · exact .ite h.enterMinimal h
  · exact h.tryRun

theorem Canon.rootLocked {fail} (h : Canon s) : Canon (s.rootLocked fail) := by
  unfold State.rootLocked
  split
  · exact h
  · split
    · exact .ite h (.ite h.frame.bist.frame.tryLeave h.frame.bist.fault)
    · exact .ite h (.ite (.ite h.sendWup.enterBoot.frame.bist.frame h.sendWup.enterBoot.frame.bist.fault) h.resumeRun)
    · exact h.frame
    · exact h.frame
    · exact h
    · exact h

theorem Canon.phyLocked {p} (h : Canon s) : Canon (s.phyLocked p) := .ite h h.frame.tryLeave

theorem Canon.attemptFail {code detail ord} (h : Canon s) : Canon (s.attemptFail code detail ord) :=
  .ite h.frame.histClose.bump.unload.frame.toMinimal h.frame.histClose.bump.unload.frame

theorem Canon.rootSecret (h : Canon s) : Canon s.rootSecret := .ite h h.drawTrng.frame.frame

theorem Canon.rebuildBcr (h : Canon s) : Canon s.rebuildBcr := h.setBcr

theorem Canon.ospiStart (h : Canon s) : Canon s.ospiStart := h.emit.emit.frame

theorem Canon.startAttempt (h : Canon s) : Canon s.startAttempt := by
  unfold State.startAttempt
  extract_lets s1 lost s2 again s3 _ s4 _ _ s5 s6 s7
  have h1 : Canon s1 := .ite h.journalRecover.lcComplete.rootSecret h
  have h2 : Canon s2 := .ite h1.rebuildBcr h1
  have h3 : Canon s3 := .histFail (.ite h2.bump h2)
  have h7 : Canon s7 := h3.setBcr.frame.histOpen.ospiStart
  exact .ite h2.toMinimal (.ite h3.toMinimal (.ite h7.attemptFail h7.ospiSwitch))

theorem Canon.execBootAttemptTimeout (h : Canon s) : CanonOut (execBootAttemptTimeout s) := by
  unfold Machine.execBootAttemptTimeout
  split
  · exact .ite h.attemptFail h
  · exact h

theorem Canon.fwimFirst (h : Canon s) : Canon s.fwimFirst.1 := by
  unfold State.fwimFirst
  split
  · dsimp only
    split
    · exact h.setBcr
    · exact h
    · exact h
  · dsimp only
    split
    · exact h.setBcr
    · exact h.setBcr
    · exact h

theorem Canon.fwimRun {n i fallback} (h : Canon s) : Canon (s.fwimRun n i fallback) := .frame (.ite h.setBcr h)

theorem Canon.fwimLoad (h : Canon s) : Canon s.fwimLoad := by
  unfold State.fwimLoad
  split
  next t n e =>
    have ht : Canon t := .ofFst h.fwimFirst e
    split
    · exact ht.fwimRun
    · dsimp only
      split
      · exact ht.setBcr.attemptFail
      · split
        · exact ht.setBcr.fwimRun
        · exact ht.setBcr.setBcr.frame.attemptFail

theorem Canon.bootRevert (h : Canon s) : Canon s.bootRevert := .ite h.setBcr.frame h

theorem Canon.csetTry {slot i} (h : Canon s) : Canon (s.csetTry slot i).1 := by
  unfold State.csetTry
  extract_lets c a
  have ha : Canon (a.finish s) := h.clearMap.loadSet.runFinish h
  clear_value a
  exact .iteFst ha ha.applySet.storeMinimal.frame

theorem Canon.csetActive {x fwim} (h : Canon s) : Canon (s.csetActive x fwim) := by
  unfold State.csetActive
  split
  · exact h.attemptFail
  · refine .ite h.attemptFail ?_
    extract_lets r
    have hr : Canon r.1 := h.csetTry
    clear_value r
    split
    · exact hr.attemptFail
    · exact hr.tryRun

theorem Canon.csetSearch {fwim l code} (h : Canon s) : Canon (s.csetSearch fwim l code) := by
  -- The equation lemma of `csetSearch` would evaluate `csetTry`, so the recursion is opened by its definition.
  delta State.csetSearch
  dsimp only [List.brecOn, List.brecOn.go]
  induction l generalizing s code with
  | nil =>
    exact h.attemptFail
  | cons n rest ih =>
    dsimp only [State.csetSearch._f]
    split
    · exact ih h
    next i _ =>
      have hr := (h.setBcr (r := { s.bcr with active := some ⟨n, i.dig⟩, epoch := 1 })).csetTry (slot := n) (i := i)
      generalize (s.setBcr _).csetTry n i = r at hr ⊢
      split
      · exact ih hr.frame
      · exact hr.tryRun

theorem Canon.csetLoad {fwim} (h : Canon s) : Canon (s.csetLoad fwim) := by
  unfold State.csetLoad
  dsimp only
  split
  · exact h.bootRevert.csetActive
  · exact h.bootRevert.csetSearch

theorem Canon.execCsetLoadComplete (h : Canon s) : CanonOut (execCsetLoadComplete s) := by
  unfold Machine.execCsetLoadComplete
  split
  · exact .ite h.csetLoad h
  · exact h

theorem Canon.restart (h : Canon s) : Canon s.restart := .enterBoot (.ite h.setBcr h)

theorem Canon.retrySlot {sel t} (h : Canon s) (e : s.retrySlot sel = some t) : Canon t := by
  unfold State.retrySlot at e
  dsimp only at e
  split at e
  · cases e; exact h
  · split at e
    · cases e
    · split at e <;> cases e <;> exact h.setBcr

theorem Canon.wrRestart {path data} (h : Canon s) : Canon (s.wrRestart path data) := by
  unfold State.wrRestart
  refine .ite h.writeReg (.ite h.accessErr (.ite h.writeReg.restart (.ite ?_ h.accessErr)))
  split
  next t e =>
    have ht := h.writeReg.retrySlot e
    exact (Canon.ite ht.setBcr ht).enterBoot
  · exact h.accessErr

/-! ### Update -/

theorem Canon.loadStat {done busy code slot} (h : Canon s) : Canon (s.loadStat done busy code slot) := h.wr

theorem Canon.dropShadow (h : Canon s) : Canon s.dropShadow :=
  .ite h (.frame (h.foldl fun _ _ h1 => h1.narrow.cleanTab))

theorem Canon.loadStart {slot revert} (h : Canon s) : Canon (s.loadStart slot revert) :=
  h.dropShadow.setFld.frame.loadStat

theorem Canon.loadRequest {slot} (h : Canon s) : Canon (s.loadRequest slot).1 :=
  .iteFst (.ite h.bump.setFld h.bump.loadStat) h.loadStart

theorem Canon.wrShadowCtrl {data} (h : Canon s) : Canon (s.wrShadowCtrl data) := by
  unfold State.wrShadowCtrl
  extract_lets s1 s2 l
  have h2 : Canon s2 := .ite h.writeReg.dropShadow h.writeReg
  have hl : Canon l.1 := h2.loadRequest
  exact .ite h (.ite (.ite hl.setFld hl) h2)

theorem Canon.trialEnd (h : Canon s) : Canon s.trialEnd := h.setBcr.frame

theorem Canon.loadFail {code slot} (h : Canon s) : Canon (s.loadFail code slot) :=
  .ite h.frame.setFld.loadStat.bump.trialEnd.raise h.frame.setFld.loadStat.bump

theorem Canon.loadDone {sh revert} (h : Canon s) : Canon (s.loadDone sh revert) :=
  .ite h.frame.setFld.loadStat.swapTo.setFld.bump.raise h.frame.setFld.loadStat

theorem Canon.loadEnd {slot} (h : Canon s) : Canon (s.loadEnd slot) := by
  unfold State.loadEnd
  split
  · exact h.loadFail
  · exact .ite (h.loadSet.runFinish h).loadFail (h.loadSet.runFinish h).loadDone

theorem Canon.execShadowLoadComplete (h : Canon s) : CanonOut (execShadowLoadComplete s) := by
  unfold Machine.execShadowLoadComplete
  split
  · exact .ite h.loadEnd h
  · exact h

theorem Canon.wrSwapCtrl {path data} (h : Canon s) : Canon (s.wrSwapCtrl path data) := by
  unfold State.wrSwapCtrl
  split
  · exact h.accessErr
  · split
    · exact .ite h.writeReg.trialEnd h.writeReg
    · dsimp only
      split
      · exact .swapTo (.ite h.writeReg.trialEnd h.writeReg)
      · exact .accessErr (.ite h.writeReg.trialEnd h.writeReg)

theorem Canon.confirmLate (h : Canon s) : Canon s.confirmLate := by
  unfold State.confirmLate
  split
  · exact h.loadStart
  · exact h.trialEnd.raise

theorem Canon.execCsetConfirmTimeout (h : Canon s) : CanonOut (execCsetConfirmTimeout s) := by
  unfold Machine.execCsetConfirmTimeout
  split
  · exact .ite h.confirmLate h
  · exact h

theorem Canon.epochCleanup (h : Canon s) : Canon s.epochCleanup := .frame (h.foldl fun _ _ h1 => h1.cleanTab)

theorem Canon.nvsDone {res} (h : Canon s) : Canon (s.nvsDone res) := h.wr

theorem Canon.storeBytes {bs x} (h : Canon s) : Canon (s.storeBytes bs x).1 := by
  unfold State.storeBytes
  split
  · exact h.frame
  · exact h

theorem Canon.nvsStore {path r} (h : Canon s) : Canon (s.nvsStore path r) := by
  unfold State.nvsStore
  extract_lets region off len x u
  refine .ite h.nvsDone ?_
  split
  · exact h.nvsDone
  · have hu : Canon u := h.storeBytes
    clear_value u
    refine .ite h.nvsDone ?_
    split
    · exact hu.mramPut.suppliesLost
    · exact hu.mramPut.bump.nvsDone
    · exact hu.mramPut.bump.nvsDone
    · exact hu.bump.bump.nvsDone

theorem Canon.wrNvsCmd {path data r} (h : Canon s) : Canon (s.wrNvsCmd path data r) :=
  .ite h.accessErr (.ite h.writeReg.nvsStore h.writeReg)

theorem Canon.updDone {p res} (h : Canon s) : Canon (s.updDone p res) := h.setFld

theorem Canon.sessEnd {st} (h : Canon s) : Canon (s.sessEnd st) := .setSess (.ite h h.setBcr)

theorem Canon.sessOpen {o cset dig size} (h : Canon s) : Canon (s.sessOpen o cset dig size) :=
  .setSess (.idleZero (.ite h h.setBcr))

theorem Canon.updOpen {p o} (h : Canon s) : Canon (s.updOpen p o) :=
  .ite h.updDone (.ite h.updDone (.ite h.sessOpen.updDone (.ite (.ite h.idleZero.setSess.updDone
    h.idleZero.setSess.updDone) (.ite h.updDone h.sessEnd.sessOpen.updDone))))

theorem Canon.updAbort {p o} (h : Canon s) : Canon (s.updAbort p o) := .ite h.sessEnd.updDone h.updDone

theorem Canon.flashPut {off bs} (h : Canon s) : Canon (s.flashPut off bs) := by
  induction bs generalizing s off with
  | nil => exact h
  | cons b bs ih => exact ih { h with flash := tblWf_set _ _ _ _ h.flash }

theorem Canon.flashSector {off bs good} (h : Canon s) : Canon (s.flashSector off bs good) :=
  .ite h.flashPut h.frame.flashPut

theorem Canon.updChunk {p o chunk good} (h : Canon s) : Canon (s.updChunk p o chunk good) :=
  .ite h.updDone (.ite h.updDone (.ite h.updDone (.ite h.bump.updDone (.ite h.bump.updDone (.ite
    h.flashSector.bump.updDone h.flashSector.idleZero.setSess.bump.updDone)))))

theorem Canon.updVerified {c} (h : Canon s) : Canon (s.updVerified c) := .ite h.wr.sessEnd h.wr.sessEnd.bump

theorem Canon.updVerify (h : Canon s) : Canon s.updVerify := h.updVerified

theorem Canon.flashLate (h : Canon s) : Canon s.flashLate := by
  unfold State.flashLate
  split
  · exact h.attemptFail
  · split
    · exact h
    · split
      · exact .ite h.loadFail h
      · exact .ite h.updVerified h

theorem Canon.updArm {p} (h : Canon s) : Canon (s.updArm p) :=
  .ite h.loadRequest.updDone (.ite h.setBcr.updDone (.ite h.setBcr.updDone h.updDone))

theorem Canon.updConfirm {p} (h : Canon s) : Canon (s.updConfirm p) := .ite h.updDone h.setBcr.frame.updDone

theorem Canon.wrUpdCmd {p data good} (h : Canon s) : Canon (s.wrUpdCmd p data good) := by
  unfold State.wrUpdCmd
  split
  · exact h.writeReg
  · split
    · exact h.writeReg.updOpen
    · exact h.writeReg.updChunk
    · exact h.writeReg.updAbort
    · exact h.writeReg.updArm
    · exact h.writeReg.updConfirm
    · exact h.writeReg.updDone

/-! ### BusRead -/

theorem Canon.holdWord {p off w} (h : Canon s) : Canon (s.holdWord p off w) :=
  { h with hold := tblWf_put _ _ _ h.hold }

theorem Canon.takeHeld {p off live} (h : Canon s) : Canon (s.takeHeld p off live).1 := by
  unfold State.takeHeld
  split
  · exact { h with hold := tblWf_del _ _ h.hold }
  · exact h

theorem Canon.fifoFront {r i} (h : Canon s) : Canon (s.fifoFront r i) := by
  unfold State.fifoFront
  split
  · exact h
  · split
    · exact h.txtsFront
    · exact h.txtsFront
    · exact h.tscFront
    · exact h.tscFront
    · exact h

theorem Canon.regCheck {r i} (h : Canon s) : Canon (s.regCheck r i).1 := by
  unfold State.regCheck
  split
  · exact h.useRead
  · exact h

theorem Canon.readReg {p r i} (h : Canon s) : Canon (s.readReg p r i).1 :=
  .iteFst h (.iteFst h.fifoFront.mqPopRead (.iteFst (.iteFst h.fifoFront.drawWord h.fifoFront) (.iteFst
    h.fifoFront.holdWord (.iteFst h.fifoFront.takeHeld (.iteFst h.fifoFront (.iteFst (h.fifoFront.foldl fun _ _ h1 =>
    h1.holdWord) h.fifoFront.takeHeld))))))

theorem Canon.readCtr {p off c i high} (h : Canon s) : Canon (s.readCtr p off c i high).1 :=
  .iteFst h.takeHeld h.holdWord

theorem Canon.readTab {p off id par n j} (h : Canon s) : Canon (s.readTab p off id par n j).1 := by
  unfold State.readTab
  split
  · exact h.drawWord
  · split
    · exact .takeHeld (.iteFst h h.useRead)
    · exact .holdWord (.iteFst h h.useRead)
    · exact .iteFst h h.useRead

theorem Canon.readWindow {p off} (h : Canon s) : Canon (s.readWindow p off).1 := .iteFst h (.iteFst h h.readTab)

theorem Canon.busRead {p off} (h : Canon s) : Canon (s.busRead p off).1 := by
  unfold State.busRead
  refine .iteFst h.readWindow (.iteFst (.pair h.rdPhy) (.iteFst h ?_))
  split
  · exact h.regCheck.readReg
  · split
    · exact h.readCtr
    · exact .iteFst h h

/-! ### BusWrite -/

theorem Canon.wrPair {p r i lo} (h : Canon s) : Canon (s.wrPair p r i lo) := h.unstage.wr.wr

theorem Canon.wrRingBase {p rx i lo} (h : Canon s) : Canon (s.wrRingBase p rx i lo) := .ite h.unstage h.wrPair

theorem Canon.wrTxNextPn {p i lo} (h : Canon s) : Canon (s.wrTxNextPn p i lo) := .ite h.wrPair.setPort h.wrPair

theorem Canon.wrCommit {p r i lo} (h : Canon s) : Canon (s.wrCommit p r i lo) := by
  unfold State.wrCommit
  split
  · exact h.wrRingBase
  · exact h.wrRingBase
  · exact h.wrDomStep
  · exact h.wrDomSet
  · exact h.wrTideBase
  · exact h.wrGateBase
  · exact h.wrTxNextPn
  · exact h.wrPair

theorem Canon.wrBootOnly {r data} (h : Canon s) : Canon (s.wrBootOnly r data) := .ite h.writeReg h

theorem Canon.wrHrbHwm (h : Canon s) : Canon s.wrHrbHwm := h.setFld.setFld

theorem Canon.wrVbHwm (h : Canon s) : Canon s.wrVbHwm := h.setFld

theorem Canon.wrArbCfg {data} (h : Canon s) : Canon (s.wrArbCfg data) := .ite h.accessErr h.writeReg

theorem Canon.wrHbCfg {data} (h : Canon s) : Canon (s.wrHbCfg data) := .ite h.accessErr h.writeReg

theorem Canon.wrSystem {p r i data} (h : Canon s) : Canon (s.wrSystem p r i data) := by
  unfold State.wrSystem
  split
  · exact h.wrLsCtrl
  · exact h.wrSafeCfg
  · exact h.wrEvtStat
  · exact h.wrProducer
  · exact h.wrEvtRaise
  · exact h.wrEvtRoute
  · exact h.wrPwFence
  · exact h.wrRingCfg
  · exact h.wrRingCfg
  · exact h.wrMqCfg
  · exact h.wrMqCmd
  · exact h.wrRestart
  · exact h.wrShadowCtrl
  · exact h.wrSwapCtrl
  · exact h.wrNvsCmd
  · exact h.wrUpdCmd
  · exact h.writeReg
  · exact h.writeReg

theorem Canon.wrPath {p r i data} (h : Canon s) : Canon (s.wrPath p r i data) := by
  unfold State.wrPath
  split
  · exact h.wrPortCfg
  · exact .ite h h.writeReg
  · exact h.drawWord.wrMdioCmd
  · exact h.wrBootOnly
  · exact h.wrClsEntCmd
  · exact h.wrBootOnly
  · exact h.wrProducer
  · exact h.wrFlapCfg
  · exact h.wrStrReset
  · exact h.wrFdbEntCmd
  · exact h.wrSkyCtrl
  · exact h.wrSkyCellLim
  · exact h.wrProducer
  · exact h.wrHomeMap
  · exact h.wrHrbHwm
  · exact h.writeReg

theorem Canon.wrQueueing {p r i data} (h : Canon s) : Canon (s.wrQueueing p r i data) := by
  unfold State.wrQueueing
  split
  · exact h.wrHwm
  · exact h.wrHwm
  · exact h.wrHwm
  · exact h.wrPortLim
  · exact h.wrQLim
  · exact h.wrQLim
  · exact h.wrSchPortCfg
  · exact h.wrMaxwait
  · exact h.wrTbRate
  · exact h.wrTbRate
  · exact h.wrTbDepth
  · exact h.wrTbDepth
  · exact h.wrCbsSlope
  · exact h.wrCbsHi
  · exact h.wrMeter
  · exact h.wrMeter
  · exact h.wrMeter
  · exact h.wrMeter
  · exact h.wrMeter
  · exact h.wrGateCfg
  · exact h.wrGateAdmin
  · exact h.wrGateAdmin
  · exact h.wrGatePool
  · exact h.wrGatePool
  · exact h.wrTgaCfg
  · exact h.wrTideAdmin
  · exact h.wrTideAdmin
  · exact h.wrTideAdmin
  · exact h.wrTideAdmin
  · exact h.wrPreemptCfg
  · exact h.wrTimCtrl
  · exact h.wrDomCfg
  · exact h.wrDomSlew
  · exact h.wrDomRate
  · exact h.wrDomRate
  · exact .ite h.txtsPop h
  · exact h.wrTscCfg
  · exact h.wrTscReg
  · exact h.wrTscStat
  · exact h.wrTscPop
  · exact h.wrPpsCfg
  · exact h.writeReg
  · exact h.writeReg

theorem Canon.wrEdge {p r i data} (h : Canon s) : Canon (s.wrEdge p r i data) := by
  unfold State.wrEdge
  split
  · exact h.wrCanCtrl
  · exact h.wrCanTiming
  · exact h.wrCanTiming
  · exact h.wrCanTiming
  · exact h.wrCanTiming
  · exact h.wrCanTiming
  · exact h.wrBoCfg
  · exact h.wrLinCtrl
  · exact h.wrLinSched
  · exact h.wrPlca
  · exact h.wrPlca
  · exact h.wrPlca
  · exact h.wrArbCfg
  · exact h.wrBootOnly
  · exact h.wrVbHwm
  · exact h.wrJobCmd
  · exact h.wrKcmd
  · exact h.wrSecyCfg
  · exact h.wrEncAn
  · exact h.wrKeyCmd
  · exact h.wrRedCfg
  · exact h.wrHbCfg
  · exact h.wrHbKick
  · exact h.wrFlipCtrl
  · exact h.wrPwrCtrl
  · exact h.writeReg.pins
  · exact h.writeReg

theorem Canon.wrRegister {p r i data} (h : Canon s) : Canon (s.wrRegister p r i data) := by
  unfold State.wrRegister
  refine .ite h (.ite h.accessErr (.ite (.ite h.wrCommit (.ite h.accessErr (.ite h.accessErr h.stageWord))) ?_))
  split
  iterate 7 exact h.wrSystem
  iterate 6 exact h.wrPath
  iterate 4 exact h.wrQueueing
  iterate 8 exact h.wrEdge

theorem Canon.wrWindow {p off data be} (h : Canon s) : Canon (s.wrWindow p off data be) :=
  h.foldl fun _ _ h1 => .ite h1.winPut h1

theorem Canon.wrMap {p off data} (h : Canon s) : Canon (s.wrMap p off data) := by
  unfold State.wrMap
  split
  · exact h.accessErr
  · split
    · exact h.wrPhy
    · split
      · exact h.wrWindow
      · split
        · exact h.wrRegister
        · exact .ite h h.accessErr

theorem Canon.wrDword {p off data be reqId tag sts} (h : Canon s) : Canon (s.wrDword p off data be reqId tag sts).1 :=
  .iteFst h (.iteFst h.pwFail (.iteFst h.pwFail (.iteFst h.aspiWrite (.iteFst h.wrMap (.iteFst h.wrWindow h.pwFail)))))

theorem Canon.busWrite {p off data} (h : Canon s) : Canon (s.busWrite p off data) := .wrDword (.ite h.frame h)

/-! ### Bus -/

theorem Canon.readDword {p off far t x} (h : Canon s) (e : s.readDword p off far = some (t, x)) : Canon t := by
  unfold State.readDword at e
  dsimp only at e
  split at e
  · cases e
  · split at e
    · split at e
      · cases e; exact h.aspiRead
      · cases e
    · cases e; exact h.busRead

theorem Canon.refuseRead (h : Canon s) : Canon s.refuseRead := h.bump

theorem Canon.wrDwords {p reqId tag l far off} (h : Canon s) : Canon (wrDwords p reqId tag l far off s) := by
  induction l generalizing s far off with
  | nil => exact h
  | cons x l ih => exact .ite h.wrDword (ih h.wrDword)

theorem Canon.rdDwords {p n far off t x} (h : Canon s) (e : rdDwords p n far off s = some (t, x)) : Canon t := by
  induction n generalizing s far off t x with
  | zero => cases e; exact h
  | succ n ih =>
    unfold Machine.rdDwords at e
    split at e
    · cases e
    next u _ _ _ hu =>
      obtain ⟨r, hr, hx⟩ := Option.map_eq_some_iff.mp e
      cases hx
      exact ih (h.readDword hu) hr

theorem Canon.wrMsix {off data be} (h : Canon s) : Canon (s.wrMsix off data be) := by
  unfold State.wrMsix
  split
  · exact h
  · split
    · exact h.setVec
    · exact h.setVec
    · exact h.setVec
    · exact .ite h.msixUnmask h.setVec

theorem Canon.wrMsixDwords {l off} (h : Canon s) : Canon (wrMsixDwords l off s) := by
  induction l generalizing s off with
  | nil => exact h
  | cons x l ih => exact ih h.wrMsix

theorem Canon.wrRequest {p r} (h : Canon s) : Canon (s.wrRequest p r) :=
  .ite (.ite h h.wrMsixDwords) (.ite h.bump (.ite h.pwFail (.ite h.pwFail (.ite h.pwFail h.wrDwords))))

theorem Canon.runPosted {p r} (h : Canon s) : Canon (s.runPosted p r) :=
  .ite h.setPath.wrRequest.setPath h.setPath.wrRequest

theorem Canon.drainPosted {p n} (h : Canon s) : Canon (drainPosted p n s) := by
  induction n generalizing s with
  | zero => exact h
  | succ n ih =>
    unfold Machine.drainPosted
    split
    · exact h
    · exact ih h.setPostQ.runPosted

theorem Canon.drain {p} (h : Canon s) : Canon (s.drain p) := .ite h h.drainPosted.settle

theorem Canon.drainHost (h : Canon s) : Canon s.drainHost := h.drain.drain

theorem Canon.answerRefused {p off} (h : Canon s) : Canon (s.answerRefused p off) := by
  unfold State.answerRefused
  split
  · exact h.drawWord.emit
  · exact h.refuseRead
  · exact h.refuseRead.emit

theorem Canon.readRow {p off words} (h : Canon s) : Canon (s.readRow p off words) := by
  unfold State.readRow
  refine .ite h ?_
  dsimp only
  split
  next e => exact (h.drain.readDword e).emit
  · exact h.drain.answerRefused

theorem Canon.readFree {p off} (h : Canon s) : Canon (s.readFree p off) := .ite h.frame.readRow h.readRow

theorem Canon.mwr {t stall} (h : Canon s) : Canon (s.mwr t stall) := .ite h (.ite h.nextSeq.post h.nextSeq.post.drain)

theorem Canon.cfgRead {a bes} (h : Canon s) : Canon (s.cfgRead a bes) := h.emit.frame

theorem Canon.mrd {t} (h : Canon s) : Canon (s.mrd t) := by
  unfold State.mrd
  refine .ite h.drain.cfgRead (.ite h.drain.refuseRead.emit (.ite h.drain.emit ?_))
  split
  next e => exact (h.drain.rdDwords e).emit
  · exact h.drain.refuseRead.emit

theorem Canon.inFrame {f} (h : Canon s) (hf : ∀ u, Canon u → Canon (f u)) : Canon (s.inFrame f) :=
  (hf _ h.setBall).setBall

theorem Canon.spiErr {crc} (h : Canon s) : Canon (s.spiErr crc) := h.frame.bump.raise

theorem Canon.spiGood (h : Canon s) : Canon s.spiGood := h.frame

theorem Canon.spiFail {c bs} (h : Canon s) : Canon (s.spiFail c bs) := .ite h.bump h.pwFailDword

theorem Canon.spiWrite {bs far stall} (h : Canon s) : Canon (s.spiWrite bs far stall) :=
  .ite h (.ite h.spiErr.spiFail (.ite h.nextSeq.spiErr.spiFail (.ite h.nextSeq.spiGood.spiFail (.ite
    h.nextSeq.spiGood.post.settle h.nextSeq.spiGood.post.drain))))

theorem Canon.execSpiWriteFrame {bytes far stall} (h : Canon s) : CanonOut (execSpiWriteFrame bytes far stall s) :=
  Canon.ite (h.inFrame fun _ hu => hu).spiWrite h

theorem Canon.setReading {b} (h : Canon s) : Canon (s.setReading b) := h.frame

theorem Canon.spiRespond {st ws} (h : Canon s) : Canon (s.spiRespond st ws) := h.setReading.setBall.emit

theorem Canon.spiRead {bs far} (h : Canon s) : Canon (s.spiRead bs far) := by
  have hd : Canon (((s.setReading true).setBall 2 false).drain .spi) := h.setReading.setBall.drain
  unfold State.spiRead
  refine .ite h (.ite h.spiErr (.ite hd.spiErr.spiRespond ?_))
  dsimp only
  split
  next e =>
    split at e
    · cases e
    · exact (hd.spiGood.rdDwords e).spiRespond
  · exact hd.spiGood.refuseRead.spiRespond

theorem Canon.spiStatusFrame {complete} (h : Canon s) : Canon (s.spiStatusFrame complete) := .ite h.emit h.spiErr

theorem Canon.jtagMode {open_} (h : Canon s) : Canon (s.jtagMode open_) := h.emit

theorem Canon.jtagRead {off} (h : Canon s) : Canon (s.jtagRead off) := by
  unfold State.jtagRead
  split
  next e => exact (h.readDword e).emit
  · exact h.emit

theorem Canon.jtag {op} (h : Canon s) : Canon (s.jtag op) := by
  unfold State.jtag
  split
  · exact h.emit
  · exact h.jtagMode
  · exact h.jtagMode
  · exact h.jtagMode
  · exact .ite h.jtagMode (.ite h.jtagRead h)
  · exact .ite h.jtagMode (.ite h.nextSeq.busWrite h)
  · exact h.jtagMode
  · exact h.jtagMode

/-! ### Clock -/

theorem Canon.tickRedlink (h : Canon s) : Canon s.tickRedlink := .ite (.ite h.setBall h) h.setBall

theorem Canon.pairFetch (h : Canon s) : Canon s.pairFetch := by
  unfold State.pairFetch
  extract_lets lo l r t u
  have ht : Canon t := h.foldlFst fun _ _ hu => hu.useRead
  exact .ite h (.ite ht (.ite ht.frame.repair ht.frame.restart))

theorem Canon.tickFabric (h : Canon s) : Canon s.tickFabric :=
  h.tickCommit.keepPast.applyJumps.tickTime.tickPoints.tickSched.drainHost.drainLeg.tickRedlink.splitDone.pairFetch

theorem Canon.tick (h : Canon s) : Canon s.tick := .ite h.frame.tickFabric h.frame

/-! ### The step -/

theorem Canon.exec {c : Instr} (h : Canon s) : CanonOut (exec c s) := by
  cases c with
  | suppliesValid => exact h.suppliesValid
  | rstNAssert => exact h.rstAssert
  | rstNRelease => exact h.rstRelease
  | suppliesLost => exact h.suppliesLost
  | rootPllLock => exact h.rootLocked
  | rootPllLossOfLock => exact h.rootUnlock
  | phyPllLossOfLock => exact Canon.ite h.phyUnlock h
  | retentionSupplyFault => exact h.retentionFault
  | bootAttemptStart => exact Canon.ite h.startAttempt h
  | flashReadTimeout => exact h.flashLate
  | bootAttemptTimeout => exact h.execBootAttemptTimeout
  | fwimLoadComplete => exact Canon.ite h.fwimLoad h
  | csetLoadComplete => exact h.execCsetLoadComplete
  | fastStartConfigReady => exact Canon.ite h.fastStart h
  | stableTimerExpiry => exact Canon.ite h.setBcr h
  | registerWrite => exact h.access (fun _ h1 => h1.busWrite)
  | lowWordReadCapture => exact h.readFree
  | highWordStageWrite => exact h.access (fun _ h1 => h1.busWrite)
  | lowWordCommitWrite => exact h.access (fun _ h1 => h1.busWrite)
  | ptpValueCommit => exact h.access (fun _ h1 => h1.busWrite)
  | rxFrameStart => exact Canon.ite h h.rxStart
  | rxLookupStart => exact h.rxLookup
  | rxOversizeDetected => exact h.rxOversize
  | rxFrameEnd => exact h.rxEnd
  | macsecIcvCheckDone => exact Canon.ite h.icvDone h
  | bufferWriteComplete => exact h.execBufferWriteComplete
  | txOpportunity => exact Canon.ite h.opportunity h
  | txCopyEnd => exact h.execTxCopyEnd
  | fragmentEnd => exact Canon.ite (.ite h.cutLanes h.fragEnd) h
  | linkUp => exact Canon.ite h.linkRise h
  | linkDown => exact Canon.ite h.linkDown h
  | fenceLimitExpiry => exact Canon.ite h.fenceExpire h
  | clsInsert => exact h.clsCmd
  | clsDelete => exact h.clsCmd
  | clsRead => exact h.clsCmd
  | clsSetAction => exact h.clsCmd
  | clsSetEpoch => exact h.clsCmd
  | clsFlush => exact h.clsCmd
  | ctEntryExpiry => exact h
  | ctSweepDelete => exact Canon.ite h.delEnt.bump h
  | epochCleanup => exact Canon.ite h.epochCleanup h
  | fdbInsert => exact h.fdbCmd
  | fdbDelete => exact h.fdbCmd
  | fdbRead => exact h.fdbCmd
  | fdbFlush => exact h.fdbCmd
  | fdbLearn => exact h.fdbCmd
  | pendingFilterTimeout => exact Canon.ite h.pendDrop h
  | fdbEntryExpiry => exact h
  | fdbSweepDelete => exact Canon.ite h.delEnt.bump h
  | fdbHoldElapse => exact Canon.ite h.writeEnt h
  | flapWindowEnd => exact Canon.ite h.flapRoll h
  | streamResetWrite => exact h.accessReg (fun _ h1 => h1.wrStrReset)
  | recoveryResetTimeout => exact Canon.ite h.strReset h
  | parityRepair => exact Canon.ite h (.ite h.freshRepair h.repairEnt)
  | skerryThreadTake => exact Canon.threadTake (.ite h.skyFetch h)
  | skerryDescriptorDone => exact Canon.ite h.descDone h
  | skerryWatchdog => exact h.execSkerryWatchdog
  | stealProbe => exact h.stealProbe
  | harbourRelease => exact Canon.ite h.release h
  | harbourHoldTimeout => exact Canon.ite h.hrbExpire h
  | freshnessGen => exact Canon.ite h.freshGen.emit h
  | freshnessCommit => exact Canon.ite h.freshCommit.emit h
  | skerryStallTimeout => exact Canon.ite h.skyFault h
  | skerryFault => exact Canon.ite h.skyFault h
  | skerryRetire => exact h.accessReg (fun _ h1 => h1.wrSkyCtrl)
  | skerryRestore => exact h.accessReg (fun _ h1 => h1.wrSkyCtrl)
  | homeMapWrite => exact h.accessReg (fun _ h1 => h1.wrHomeMap)
  | hostEnWrite => exact h.accessReg (fun _ h1 => h1.wrPortLim)
  | queueLimitWrite => exact h.accessReg (fun _ h1 => h1.wrLimit)
  | hwmWrite => exact h.accessReg (fun _ h1 => h1.wrHwm)
  | shaperRateWrite => exact h.accessReg (fun _ h1 => h1.wrTbRate)
  | shaperDepthWrite => exact h.accessReg (fun _ h1 => h1.wrTbDepth)
  | cbsSlopeWrite => exact h.accessReg (fun _ h1 => h1.wrCbsSlope)
  | starvationTimeout => exact h.starve
  | meterParamWrite => exact h.accessReg (fun _ h1 => h1.wrMeter)
  | streamGateCommit => exact h.accessReg (fun _ h1 => h1.wrGateCfg)
  | streamGateEntryChange => exact Canon.ite h.setGate h
  | domainCfgWrite => exact h.accessReg (fun _ h1 => h1.wrDomCfg)
  | domainFreqWrite => exact h.accessReg (fun _ h1 => h1.wrDomRate)
  | domainSet => exact h.accessReg (fun _ h1 => h1.wrDomSet)
  | domainStep => exact h.accessReg (fun _ h1 => h1.wrDomStep)
  | domainSlewStart => exact h.accessReg (fun _ h1 => h1.wrDomSlew)
  | slewRateWrite => exact h.accessReg (fun _ h1 => h1.wrDomRate)
  | slewEnd => exact Canon.ite h.setDom h
  | timeSnapshot => exact h.accessReg (fun _ h1 => h1.snapshot)
  | txtsPop => exact h.accessReg (fun _ h1 => .ite h1.txtsPop h1)
  | tscEdge => exact Canon.ite h h.tscSettle.tscEdge
  | tscRecordClose => exact h.execTscRecordClose
  | tscStormWindowEnd => exact Canon.ite h.tscSettle.tscRoll h.tscSettle
  | tscRearm => exact h.accessReg (fun _ h1 => h1.wrTscStat)
  | tscPop => exact h.accessReg (fun _ h1 => h1.wrTscPop)
  | tscCfgWrite => exact h.accessReg (fun _ h1 => h1.wrTscCfg)
  | ppsCommit => exact h.accessReg (fun _ h1 => h1.wrPpsCfg)
  | ppsEdge => exact h.ppsEdge
  | ppsPulseEnd => exact h.execPpsPulseEnd
  | tideCommit => exact h.accessReg (fun _ h1 => h1.wrTgaCfg)
  | tideCancel => exact h.accessReg (fun _ h1 => h1.wrTgaCfg)
  | tideTakeover => exact Canon.ite h.tideTakeover h
  | tideBusyEnd => exact h.setTide
  | tideEntryChange => exact Canon.ite h.setTide.tideCheck.lateMark h
  | preemptHold => exact Canon.ite h.hold_ h
  | verifyMpacketTimer => exact Canon.ite (.ite h.sendVerify h.setPort) h
  | verifyMpacketRx => exact Canon.ite h.emit h
  | respondMpacketRx => exact Canon.ite h.setPort h
  | rxContinuationFragment => exact Canon.ite h.rxFragment h
  | canFrameRx => exact Canon.ite (.ite h.canRx h.canRx.partnerCommit) h
  | canError => exact Canon.ite h.canError h
  | canBusoffDelayExpiry => exact Canon.ite h.canRecover h
  | canRecover => exact h.accessReg (fun _ h1 => h1.wrBoCfg)
  | canRecoveryComplete => exact Canon.ite h.setCan.canChoose h
  | legacyTxOffer => exact Canon.ite h.canOffer h
  | canTxComplete => exact Canon.ite h.canSent h
  | canArbLost => exact Canon.ite h.bump.canChoose h
  | linTxOffer => exact Canon.ite h.linOffer h
  | linSlotStart => exact Canon.ite h.linSlot h
  | linHeaderRx => exact Canon.ite (.ite h.linNoResp.linHeader h.linActive) h
  | linResponseRx => exact Canon.ite h.linRx h
  | linSchedSwitch => exact h.accessReg (fun _ h1 => h1.wrLinSched)
  | linBusIdle => exact Canon.ite h.linIdle h
  | linWakeupSignal => exact Canon.wakeRequest (.ite h.linWakeUp h)
  | lpfWakeupFrame => exact Canon.ite h.setFld.wakeRequest h
  | lpfWakeupPattern => exact Canon.ite h.setFld.wakeRequest h
  | lpfFecOverflow => exact Canon.ite h.lpfError h
  | plcaBeaconLoss => exact Canon.ite h.setFld.bump.raiseAll h
  | plcaBeaconRx => exact Canon.ite h.setFld h
  | encAnWrite => exact h.accessReg (fun _ h1 => h1.wrEncAn)
  | deriveMka => exact h.accessReg (fun _ h1 => h1.wrKcmd)
  | mkpduIcv => exact h.accessReg (fun _ h1 => h1.wrKcmd)
  | unwrapSak => exact h.accessReg (fun _ h1 => h1.wrKcmd)
  | genSak => exact h.accessReg (fun _ h1 => h1.wrKcmd)
  | clearSa => exact h.accessReg (fun _ h1 => h1.wrKcmd)
  | jobInit => exact h.accessReg (fun _ h1 => h1.wrJobCmd)
  | jobUpdate => exact h.accessReg (fun _ h1 => h1.wrJobCmd)
  | jobFinal => exact h.accessReg (fun _ h1 => h1.wrJobCmd)
  | jobSaveWrap => exact h.accessReg (fun _ h1 => h1.wrJobCmd)
  | jobRestoreWrap => exact h.accessReg (fun _ h1 => h1.wrJobCmd)
  | jobEcdsaVerify => exact h.accessReg (fun _ h1 => h1.wrJobCmd)
  | jobRandom => exact h.accessReg (fun _ h1 => h1.wrJobCmd)
  | trngHealthFail => exact Canon.ite h h.frame.setFld.bump.raise
  | trngHealthRecover => exact h.frame
  | keyUpdate => exact h.accessReg (fun _ h1 => h1.wrKeyCmd)
  | keyLcChange => exact h.accessReg (fun _ h1 => h1.wrKeyCmd)
  | keyAttest => exact h.accessReg (fun _ h1 => h1.wrKeyCmd)
  | debugChal => exact h.accessReg (fun _ h1 => h1.wrKeyCmd)
  | debugUnlock => exact h.accessReg (fun _ h1 => h1.wrKeyCmd)
  | refereeMismatch => exact Canon.ite h h.setMode.fault
  | refereeFault => exact Canon.ite h (.fault (.ite h.setMode h))
  | safeCfgWrite => exact h.accessReg (fun _ h1 => h1.wrSafeCfg)
  | lsSplit => exact h.accessReg (fun _ h1 => h1.wrLsCtrl)
  | checkerAccessDenied => exact Canon.ite h.bump.emit h
  | lsRepair => exact Canon.ite h.repair (h.accessReg (fun _ h1 => h1.wrLsCtrl))
  | lsSplitTimeout => exact Canon.ite h.bump.raise.repair h
  | hbKick => exact h.accessReg (fun _ h1 => h1.wrHbKick)
  | hbKickTimeout => exact h.execHbKickTimeout
  | hbLoss => exact Canon.ite h.frame.raise.health h
  | redlinkBEdge => exact h.setBall.frame.bumpIf.health
  | pairStatusSend => exact Canon.ite h.sendStatus h
  | pairStatusRx => exact Canon.ite h.statusRx h
  | pairEchoRx => exact h.pairEcho
  | pairFreshRx => exact h.pairFresh
  | discoverTimeout => exact Canon.ite h.setRole.health h
  | takeoverConfirmTimeout => exact h.execTakeoverConfirmTimeout
  | reboundTimerExpiry => exact h.execReboundTimerExpiry
  | reboundReqRx => exact h.reboundReq
  | handoverRx => exact h.handover
  | scrubPassStart => exact h.execScrubPassStart
  | scrubRead => exact h.scrub.skyMemFault
  | partialWrite => exact Canon.ite h h.partialWrite
  | mergeIdleFlush => exact h.flushWhere
  | cellAudit => exact Canon.ite h.cellAudit h
  | flipArm => exact h.accessReg (fun _ h1 => h1.wrFlipCtrl)
  | flipCancel => exact h.accessReg (fun _ h1 => h1.wrFlipCtrl)
  | wakeInEdge => exact Canon.ite h.wakeIn h
  | sleepTimerExpiry => exact Canon.ite h.wakeRequest h
  | tc10WupDetect => exact Canon.ite h.wakeRequest h
  | tc10WurRx => exact Canon.ite h.bump.wakeRequest h
  | ringRoundStart => exact Canon.ite h.ringStart h
  | ringReturnRx => exact Canon.ite h.ringReturn h
  | ringReplyTimeout => exact h.execRingReplyTimeout
  | pwrCommit => exact h.accessReg (fun _ h1 => h1.wrPwrCtrl)
  | commitHoldEnd => exact Canon.ite h.holdEnd h
  | lpsAckRx => exact Canon.ite h.lpsDone h
  | lpsTimeout => exact Canon.ite h.bump.lpsDone h
  | lpsRx => exact Canon.ite h.lpsRx h
  | wakeOutWrite => exact h.accessReg (fun _ h1 => h1.wrPwrCtrl)
  | wakeOutPulseEnd => exact h.execWakeOutPulseEnd
  | cfgRestartRestart => exact h.accessReg (fun _ h1 => h1.wrRestart)
  | cfgRestartRetry => exact h.accessReg (fun _ h1 => h1.wrRestart)
  | shadowLoad => exact h.accessReg (fun _ h1 => h1.wrShadowCtrl)
  | shadowLoadComplete => exact h.execShadowLoadComplete
  | shadowDiscard => exact h.accessReg (fun _ h1 => h1.wrShadowCtrl)
  | swap => exact h.accessReg (fun _ h1 => h1.wrSwapCtrl)
  | swapConfirm => exact h.accessReg (fun _ h1 => h1.wrSwapCtrl)
  | csetConfirmTimeout => exact h.execCsetConfirmTimeout
  | nvsStore => exact h.accessReg (fun _ h1 => h1.wrNvsCmd)
  | updOpen => exact h.accessReg (fun _ h1 => h1.wrUpdCmd)
  | updChunk => exact h.accessReg (fun _ h1 => h1.wrUpdCmd)
  | updVerifyComplete => exact Canon.ite h.updVerify h
  | updAbort => exact h.accessReg (fun _ h1 => h1.wrUpdCmd)
  | updArm => exact h.accessReg (fun _ h1 => h1.wrUpdCmd)
  | updConfirm => exact h.accessReg (fun _ h1 => h1.wrUpdCmd)
  | updIdleStore => exact Canon.ite h.idleStore h
  | fwimTrialTimeout => exact Canon.ite h.restart h
  | pcieMwr => exact Canon.ite h.mwr h
  | pcieMrd => exact Canon.ite h.mrd h
  | pcieUnsupported => exact h.execPcieUnsupported
  | pcieLinkChange => exact Canon.ite h h.frame.wr.raiseIf.settle
  | spiWriteFrame => exact h.execSpiWriteFrame
  | spiReadFrame => exact Canon.ite (.settle (h.inFrame (fun _ h1 => h1.spiRead))) h
  | spiStatusFrame => exact Canon.ite (h.inFrame (fun _ h1 => h1.spiStatusFrame)) h
  | aspiWindowWrite => exact h.access (fun _ h1 => h1.aspiWrite)
  | aspiWindowRead => exact h.readRow
  | prefetchTimeout => exact h.execPrefetchTimeout
  | pwFenceClear => exact h.accessReg (fun _ h1 => h1.wrPwFence)
  | perstAssert => exact h.perstAssert
  | perstRelease => exact h.frame.setBall.settle
  | txRingTailWrite => exact h.accessReg (fun _ h1 => h1.writeReg)
  | dmaTxFetchDone => exact h.dmaTx
  | rxRingTailWrite => exact h.accessReg (fun _ h1 => h1.writeReg)
  | dmaError => exact Canon.ite h (.raise (.bump (.stopRing (.ite (.ite h.emit.raise h.emit.raise) h))))
  | sidebandChange => exact h.setBall
  | mqCfgWrite => exact h.accessReg (fun _ h1 => h1.wrMqCfg)
  | mqPop => exact Canon.ite h (.ite h.drain.mqPopRead.emit h.drain.answerRefused)
  | mqMark => exact h.accessReg (fun _ h1 => h1.wrMqCmd)
  | mqRewind => exact h.accessReg (fun _ h1 => h1.wrMqCmd)
  | mqRelease => exact h.accessReg (fun _ h1 => h1.wrMqCmd)
  | mqReset => exact h.accessReg (fun _ h1 => h1.wrMqCmd)
  | evtRaise => exact h.accessReg (fun _ h1 => h1.wrEvtRaise)
  | evtRouteWrite => exact h.accessReg (fun _ h1 => h1.wrEvtRoute)
  | msixHoldoffEnd => exact Canon.ite h.vecSend h
  | msixUnmask => exact h.msixUnmask
  | mdioAccess => exact h.accessReg (fun _ h1 => h1.wrMdioCmd)
  | phyMirrorWrite => exact h.access (fun _ h1 => h1.wrPhy)
  | portCfgWrite => exact h.accessReg (fun _ h1 => h1.wrPortCfg)
  | vddAonValid => exact h.aonValid
  | phyPllLock => exact Canon.ite h.phyLocked h
  | streamGateTakeover => exact Canon.ite h.gateTakeover h
  | jtagAccess => exact Canon.ite h h.frame.jtag
  | controlPortFrameIn => exact Canon.ite h.rxInside h
  | canIntegrationComplete => exact Canon.ite h.canJoin h
  | lpfFrameEnd => exact Canon.ite h (.ite h.setFld h.lpfError)

/-- Settles O55: each update of a table keeps its form, and every command and the tick are made of such updates. -/
theorem stepKeepsTablesCanonical : Obligations.StepKeepsTablesCanonical := by
  intro s t hs ht
  have h : Canon s := canon_iff.mpr hs
  have hstep : CanonOut (step s) := by
    unfold step
    split
    · exact h.tick
    · exact h.frame.exec
  rw [ht] at hstep
  exact canon_iff.mp hstep

end Sys2Proof.Machine
end

section
/-! ## Bits of a word after a field is put -/

namespace Sys2Proof.Machine

open Sys2Proof

/-- A bit of a field that has been put is one of the value; every other bit is the old one. -/
theorem getBit_putBits (w : Word) {hi lo j : Nat} (v : Nat) (h : lo ≤ hi) (hj : j < 32) :
    getBit (putBits w hi lo v) j = if lo ≤ j ∧ j ≤ hi then v.testBit (j - lo) else getBit w j := by
  have hlow : w.toNat % 2 ^ lo < 2 ^ lo := Nat.mod_lt _ (by positivity)
  have hval : v % 2 ^ (hi - lo + 1) < 2 ^ (hi - lo + 1) := Nat.mod_lt _ (by positivity)
  have parts : w.toNat % 2 ^ lo + v % 2 ^ (hi - lo + 1) * 2 ^ lo + w.toNat / 2 ^ (hi + 1) * 2 ^ (hi + 1) =
      2 ^ lo * (2 ^ (hi - lo + 1) * (w.toNat / 2 ^ (hi + 1)) + v % 2 ^ (hi - lo + 1)) + w.toNat % 2 ^ lo := by
    rw [show hi + 1 = lo + (hi - lo + 1) by omega, pow_add]
    ring
  simp only [getBit, putBits, BitVec.getLsbD, BitVec.toNat_ofNat, Nat.testBit_mod_two_pow, hj, decide_true, Bool.true_and]
  rw [parts, Nat.testBit_two_pow_mul_add _ hlow, Nat.testBit_two_pow_mul_add _ hval]
  rcases Nat.lt_or_ge j lo with hl | hl
  · simp [hl, Nat.testBit_mod_two_pow, Nat.not_le_of_lt hl]
  · rcases Nat.lt_or_ge hi j with hh | hh
    · rw [if_neg (by omega), if_neg (by omega), if_neg (by omega), Nat.testBit_div_two_pow]
      congr 1
      omega
    · have hin : j - lo < hi - lo + 1 := by omega
      simp [hl, hh, hin, Nat.not_lt_of_le hl, Nat.testBit_mod_two_pow]

theorem testBit_getBits (w : Word) (hi lo j : Nat) :
    (getBits w hi lo).testBit j = (decide (j < hi - lo + 1) && getBit w (j + lo)) := by
  simp [getBits, getBit, BitVec.getLsbD, Nat.testBit_mod_two_pow, Nat.testBit_div_two_pow]

/-- A field above the one that is put keeps its value. -/
theorem getBits_putBits_above (w : Word) {hi lo a b : Nat} (v : Nat) (h : lo ≤ hi) (hb : hi < b) (hab : b ≤ a) (ha : a < 32) :
    getBits (putBits w hi lo v) a b = getBits w a b := by
  refine Nat.eq_of_testBit_eq fun j => ?_
  rw [testBit_getBits, testBit_getBits]
  by_cases hj : j < a - b + 1
  · rw [getBit_putBits w v h (by omega), if_neg (by omega)]
  · simp [hj]

end Sys2Proof.Machine
end

section
/-! ## What traffic and its loss leave alone

`Steady s t` says what the loss of a link, the end of its receptions and the purge of a table leave as in `s`: the operating state,
the pins and clocks, and every register that neither an event nor a high-water mark changes. -/

namespace Sys2Proof.Machine

open Sys2Proof

variable {s t u : State}

/-- The registers that events and high-water marks change (R177). -/
def trafficRegs : List Reg := eventRegs ++ [.qmgPoolHwm, .qmgSharedHwm, .qmgPortHwm, .hrbHwm]

/-- `t` has the operating state, the pins and the clocks of `s`, and its registers but for `trafficRegs`. -/
structure Steady (s t : State) : Prop where
  op : t.op = s.op
  phys : t.phys = s.phys
  rd : ∀ r i, r ∉ trafficRegs → t.rd r i = s.rd r i

theorem State.rxWhole_err (s : State) (p : Nat) (r : RxSt) (bs : List Byte) :
    s.rxWhole p r bs ⟨true, 0⟩ = s.bump .macDropRxerr p := rfl

theorem rxFault_err (maxLen : Nat) (past : Bool) (bs : List Byte) :
    rxFault maxLen past bs ⟨true, 0⟩ = some .macDropRxerr := rfl

namespace Steady

theorem refl (s : State) : Steady s s := ⟨rfl, rfl, fun _ _ _ => rfl⟩

theorem ite {a b : State} {c : Prop} [Decidable c] (ha : Steady s a) (hb : Steady s b) : Steady s (if c then a else b) := by
  split
  exacts [ha, hb]

variable (h : Steady s t)
include h

theorem fld {f : RegField} {i : Nat} (hf : f.reg ∉ trafficRegs) : t.fld f i = s.fld f i :=
  congrArg (getBits · f.hi f.lo) (h.rd f.reg i hf)

theorem quiet (q : Quiet t u) : Steady s u :=
  ⟨q.op.trans h.op, q.phys.trans h.phys, fun r i hr => (q.rd r i (mt (List.mem_append_left _) hr)).trans (h.rd r i hr)⟩

/-- Parts of the state other than the operating state, the pins and clocks, and the registers may change. -/
theorem frame {pending now free out prevOp cause leftOp ctrs hold stage tim hbr mqs mem pwr boot mram flash win pair red net keys} :
    Steady s ⟨pending, now, free, out, t.phys, t.op, prevOp, cause, leftOp, t.regs, ctrs, hold, stage, tim, hbr, mqs, mem, pwr,
      boot, mram, flash, win, pair, red, net, keys⟩ := ⟨h.op, h.phys, h.rd⟩

theorem foldl {α : Type} {f : State → α → State} {l : List α} (hf : ∀ u a, Steady s u → Steady s (f u a)) :
    Steady s (l.foldl f t) := List.foldlRecOn l f h fun u hu a _ => hf u a hu

theorem setFld {f : RegField} {i v : Nat} (hf : f.reg ∈ trafficRegs) : Steady s (t.setFld f i v) :=
  ⟨h.op, h.phys, fun r j hr => (State.rd_wr_reg t _ r i j _ fun e => hr (e ▸ hf)).trans (h.rd r j hr)⟩

theorem hwm {f : RegField} {i v : Nat} (hf : f.reg ∈ trafficRegs) : Steady s (t.hwm f i v) := ite (h.setFld hf) h

theorem marks : Steady s t.marks :=
  .hwm (.hwm (.foldl (.hwm (h.hwm (by decide)) (by decide)) fun _ _ h1 => h1.hwm (by decide)) (by decide)) (by decide)

theorem bump {c : Ctr} {i : Nat} : Steady s (t.bump c i) := h.frame

theorem bumpIf {b : Bool} {c : Ctr} {i : Nat} : Steady s (t.bumpIf b c i) := ite h.bump h

theorem memWrite {m a b : Nat} : Steady s (t.memWrite m a b) := h.quiet (quiet_memWrite ..)

theorem memFill {m a lo n : Nat} : Steady s (t.memFill m a lo n) := ite (quiet h.frame (quiet_applyFlip ..)) h.frame

theorem setPort {p : Nat} {x : PortSt} : Steady s (t.setPort p x) := h.frame

theorem setFrm {i : Nat} {f : Frm} : Steady s (t.setFrm i f) := h.frame

theorem dropRef {i : Nat} : Steady s (t.dropRef i) := h.setFrm

theorem setQueue {q : Nat} {l : List Copy} : Steady s (t.setQueue q l) := h.frame

theorem emptied {q : Nat} : Steady s (t.emptied q) := ite h.frame h

theorem dropWaiting {c : Option Ctr} {p : Copy → Bool} : Steady s (t.dropWaiting c p) := by
  unfold State.dropWaiting
  refine frame (h.foldl fun _ _ h1 => ite h1 (h1.setQueue.emptied.foldl fun _ _ h2 => ?_))
  split
  · exact h2.bump.dropRef
  · exact h2.dropRef

theorem mapTx {b : TxCopy → TxCopy} : Steady s (t.mapTx b) := h.foldl fun _ _ h1 => ite h1 h1.setPort

/-! ### Frames -/

theorem storeFrm {cells : List Nat} {a b : Nat} : Steady s (t.storeFrm cells a b) := h.foldl fun _ _ h1 => ite h1.memFill h1

theorem growFrm {i : Nat} {orig : List Byte} : Steady s (t.growFrm i orig) := h.setFrm.storeFrm.marks

theorem creditTail {f : Frm} {n : Nat} : Steady s (t.creditTail f n) := by
  unfold State.creditTail
  split
  · exact h
  · extract_lets d u
    have hu : Steady s u := h.foldl fun _ _ h1 => ite h1.frame h1
    clear_value u
    split
    · exact ite hu.frame hu
    · exact hu

theorem tailCharge {i : Nat} : Steady s (t.tailCharge i) := .mapTx (h.foldl fun _ _ h1 => ite h1.setQueue h1)

theorem dropDescs {i : Nat} : Steady s (t.dropDescs i) :=
  h.foldl fun _ _ h1 => ite h1 (h1.frame.foldl fun _ _ h2 => h2.dropRef)

theorem holdCtx {n : Nat} : Steady s (t.holdCtx n) := by
  unfold State.holdCtx
  split
  · exact h
  · refine ite h.frame ?_
    split <;> exact h.frame

theorem voidSlot {n : Option Nat} : Steady s (t.voidSlot n) := by
  unfold State.voidSlot State.slotTo
  split
  · split
    · exact h
    · exact holdCtx (h.frame.foldl fun _ _ h1 => h1.dropRef)
  · exact h

theorem foundBad {i : Nat} : Steady s (t.foundBad i) :=
  ite h h.setFrm.bumpIf.dropWaiting.mapTx.dropDescs.voidSlot.dropRef

/-- A reception that ends in a receive error brings nothing to the pipeline. -/
theorem rxBroken {p : Nat} {pre : Bool} {rest : List Byte} : Steady s (t.rxBroken p pre rest) := by
  unfold State.rxBroken State.rxEnd
  split
  · exact h
  · next r _ =>
    extract_lets whole s1 fault s2
    have h2 : Steady s s2 := bumpIf h.setPort
    have hf : fault = some .macDropRxerr := rxFault_err ..
    clear_value s2 fault
    subst hf
    split
    · refine ite h2.bump (ite h2.bump ?_)
      rw [State.rxWhole_err]
      exact h2.bump
    · exact setFrm (foundBad (tailCharge (creditTail (bump (setFrm (ite h2 h2.growFrm))))))

/-! ### Links and tables -/

theorem txtsAppend {p : Nat} {r : Rec8} : Steady s (t.txtsAppend p r) :=
  ite (frame (h.foldl fun _ _ h1 => h1.memWrite)) (h.bump.quiet (quiet_raise ..))

theorem abortTx {c : TxCopy} : Steady s (t.abortTx c) := dropRef (ite (h.bump.frame.txtsAppend) h.bump.frame)

theorem preemptOff {p status : Nat} : Steady s (t.preemptOff p status) := h.setPort.quiet (quiet_raiseIf ..)

theorem portLost {p : Nat} {rest : List Byte} : Steady s (t.portLost p rest) :=
  .preemptOff (.foldl (.rxBroken (.rxBroken (.dropWaiting (h.setPort.foldl fun _ _ h1 => h1.abortTx)))) fun _ _ h1 => h1.frame)

theorem delEnt {id par n : Nat} : Steady s (t.delEnt id par n) :=
  frame (frame (ite h.memWrite (h.foldl fun _ _ h1 => h1.memWrite)))

theorem fdbPurge {port fid : Option Nat} : Steady s (t.fdbPurge port fid) :=
  frame (h.foldl fun _ _ h1 => ite h1.delEnt h1)

theorem health : Steady s t.health := h.frame

end Steady

end Sys2Proof.Machine
end

section
/-! ## What the notice of an event leaves alone

`Noted s t` says what the log entry of a rising source, its message and its notice leave as in `s`: the control pair, the pair of
devices, and every register but the one that holds an armed flip mask. -/

namespace Sys2Proof.Machine

open Sys2Proof

variable {s t : State}

/-- `t` has the control pair, the role and the registers of `s`, but for the armed flip mask. -/
structure Noted (s t : State) : Prop where
  pair : t.pair = s.pair
  red : t.red = s.red
  rd : ∀ r i, r ≠ .memFlipCtrl → t.rd r i = s.rd r i

namespace Noted

theorem refl (s : State) : Noted s s := ⟨rfl, rfl, fun _ _ _ => rfl⟩

theorem ite {a b : State} {c : Prop} [Decidable c] (ha : Noted s a) (hb : Noted s b) : Noted s (if c then a else b) := by
  split
  exacts [ha, hb]

theorem iteFst {α : Type} {a b : State × α} {c : Prop} [Decidable c] (ha : Noted s a.1) (hb : Noted s b.1) :
    Noted s (if c then a else b).1 := by
  split
  exacts [ha, hb]

variable (h : Noted s t)
include h

/-- Parts of the state other than the control pair, the pair of devices and the registers may change. -/
theorem frame {pending now free out phys op prevOp cause leftOp ctrs hold stage tim hbr mqs mem pwr boot mram flash win net keys} :
    Noted s ⟨pending, now, free, out, phys, op, prevOp, cause, leftOp, t.regs, ctrs, hold, stage, tim, hbr, mqs, mem, pwr, boot,
      mram, flash, win, t.pair, t.red, net, keys⟩ := ⟨h.pair, h.red, h.rd⟩

theorem wrFlip {i : Nat} {w : Word} : Noted s (t.wr .memFlipCtrl i w) :=
  ⟨h.pair, h.red, fun r j hr => (State.rd_wr_reg t _ r i j w hr).trans (h.rd r j hr)⟩

theorem applyFlip {m a b enc : Nat} : Noted s (t.applyFlip m a b enc) := frame (wrFlip h.frame)

theorem memWrite {m a b : Nat} : Noted s (t.memWrite m a b) := ite h.frame.applyFlip h.frame

theorem bumpIf {b : Bool} {c : Ctr} {i : Nat} : Noted s (t.bumpIf b c i) := ite h.frame h

theorem mqAppend {k : Nat} {it : MqItem} : Noted s (t.mqAppend k it) := h.memWrite.memWrite.frame

theorem mqPostCore {k : Nat} {it : MqItem} : Noted s (t.mqPostCore k it).1 :=
  iteFst h (iteFst (iteFst (frame (mqAppend h.bumpIf.bumpIf.frame)) h.frame) h.mqAppend.frame)

theorem logOrder {k : Nat} : Noted s (t.logOrder k) := by
  unfold State.logOrder
  dsimp only
  split
  · exact ite h.frame h
  · exact h

theorem riseLog {src : Nat} : Noted s (t.riseLog src).1 := iteFst h.mqPostCore.logOrder h

theorem riseNotify {src : Nat} : Noted s (t.riseNotify src) := by
  have hn : Noted s (if t.on F.evtRoute_fw src then t.emit (.fwNotify src) else t) := ite h.frame h
  exact ite (ite hn.frame hn.frame) hn

end Noted

end Sys2Proof.Machine
end

section
/-! ## Faults

After a fault that halts the cores (R335, R336) these stay until the device starts anew, whatever events rise. -/

namespace Sys2Proof.Machine

open Sys2Proof

variable {s t : State} {c : Nat}

/-! ### The safe state -/

@[simp] theorem State.setRole_pair (s : State) (r : Role) : (s.setRole r).pair = s.pair := by
  unfold State.setRole
  dsimp only
  repeat' split
  all_goals simp

@[simp] theorem State.setRole_regs (s : State) (r : Role) : (s.setRole r).regs = s.regs := by
  unfold State.setRole
  dsimp only
  repeat' split
  all_goals simp

@[simp] theorem State.setRole_ctrs (s : State) (r : Role) : (s.setRole r).ctrs = s.ctrs := by
  unfold State.setRole
  dsimp only
  repeat' split
  all_goals simp

@[simp] theorem State.sendStatus_role (s : State) : s.sendStatus.red.role = s.red.role := by
  unfold State.sendStatus State.emitPair
  dsimp only
  split <;> rfl

theorem State.statusIf_role (s : State) (b : Bool) : (if b then s.sendStatus else s).red.role = s.red.role := by
  cases b <;> simp

@[simp] theorem State.setRole_role (s : State) (r : Role) : (s.setRole r).red.role = r := by
  unfold State.setRole
  split
  · assumption
  · exact State.statusIf_role ..

@[simp] theorem State.enterSafe_regs (s : State) (ss : SafeSt) : (s.enterSafe ss).regs = s.regs := by
  unfold State.enterSafe
  dsimp only
  split <;> simp

@[simp] theorem State.enterSafe_ctrs (s : State) (ss : SafeSt) : (s.enterSafe ss).ctrs = s.ctrs := by
  unfold State.enterSafe
  dsimp only
  split <;> simp

@[simp] theorem State.enterSafe_halted (s : State) (ss : SafeSt) : (s.enterSafe ss).pair.halted = s.pair.halted := by
  unfold State.enterSafe
  dsimp only
  split <;> simp

@[simp] theorem State.enterSafe_safe (s : State) (ss : SafeSt) : (s.enterSafe ss).pair.safe.isSome = true := by
  unfold State.enterSafe
  dsimp only
  split <;> simp

theorem State.enterSafe_role (s : State) (ss : SafeSt) :
    (s.enterSafe ss).red.role = .detached ∨ (s.enterSafe ss).red.role = .faulted := by
  unfold State.enterSafe
  dsimp only
  split
  · exact .inl ‹_›
  · simp

@[simp] theorem State.rd_enterSafe_all (s : State) (ss : SafeSt) (r : Reg) (i : Nat) : (s.enterSafe ss).rd r i = s.rd r i := by
  simp [State.rd]

/-! ### The balls -/

theorem State.ball_setBall (s : State) {b j : Nat} (l : Bool) (hb : b < 32) (hj : j < 32) :
    getBit ((s.setBall b l).rd .hbrSideband) j = if j = b then l else getBit (s.rd .hbrSideband) j := by
  have bit (w : Word) : getBit (putBits w b b l.toNat) j = if j = b then l else getBit w j := by
    rw [getBit_putBits w l.toNat le_rfl hj]
    by_cases h : j = b
    · subst h
      cases l <;> simp
    · rw [if_neg (by omega), if_neg h]
  unfold State.setBall
  dsimp only
  split
  · next hl =>
    split
    · next hjb => exact hjb ▸ hl
    · rfl
  · rw [State.rd_wr_reg _ _ _ _ _ _ (by decide), State.rd_wr_same]
    exact bit _

theorem State.rd_setBall_other (s : State) (b : Nat) (l : Bool) {r : Reg} (h1 : r ≠ .hbrSideband) (h2 : r ≠ .hbrSidebandSeen)
    (i : Nat) : (s.setBall b l).rd r i = s.rd r i := by
  unfold State.setBall
  dsimp only
  split
  · rfl
  · rw [State.rd_wr_reg _ _ _ _ _ _ h2, State.rd_wr_reg _ _ _ _ _ _ h1]

theorem State.setBall_pair (s : State) (b : Nat) (l : Bool) : (s.setBall b l).pair = s.pair := by
  unfold State.setBall
  dsimp only
  split <;> rfl

theorem State.setBall_red (s : State) (b : Nat) (l : Bool) : (s.setBall b l).red = s.red := by
  unfold State.setBall
  dsimp only
  split <;> rfl

theorem State.setBall_ctrs (s : State) (b : Nat) (l : Bool) : (s.setBall b l).ctrs = s.ctrs := by
  unfold State.setBall
  dsimp only
  split <;> rfl

/-! ### The fault that stands -/

/-- A fault of code `c` stands: it is recorded, the cores are halted, FAULT_N is low, a safe state holds, and the role of the device
is that of one in a safe state. -/
structure FaultStands (c : Nat) (t : State) : Prop where
  code : t.fld F.glbFaultRec_code = c
  halted : t.pair.halted = true
  faultN : getBit (t.rd .hbrSideband) 0 = false
  safe : t.pair.safe.isSome = true
  role : t.red.role = .detached ∨ t.red.role = .faulted

theorem faultStands_enterSafe (ss : SafeSt) (hc : t.fld F.glbFaultRec_code = c) (hh : t.pair.halted = true)
    (hn : getBit (t.rd .hbrSideband) 0 = false) : FaultStands c (t.enterSafe ss) where
  code := by simpa [State.fld] using hc
  halted := by simpa using hh
  faultN := by simpa using hn
  safe := by simp
  role := State.enterSafe_role t ss

/-- The code of a new record. -/
theorem fld_faultRecord (sub ss : Nat) (hc : c < 16) :
    getBits (putBits (putBits (putBits 0 31 28 c) 27 24 sub) 23 22 ss) 31 28 = c := by
  rw [getBits_putBits_above _ _ (by decide) (by decide) (by decide) (by decide),
    getBits_putBits_above _ _ (by decide) (by decide) (by decide) (by decide), getBits_putBits _ _ _ _ (by decide) (by decide)]
  exact Nat.mod_eq_of_lt hc

theorem State.fld_faultCode (s : State) : s.fld F.glbFaultRec_code = getBits (s.rd .glbFaultRec) 31 28 := rfl

theorem State.fld_setBall_faultRec (s : State) (b : Nat) (l : Bool) :
    (s.setBall b l).fld F.glbFaultRec_code = s.fld F.glbFaultRec_code := by
  rw [State.fld_faultCode, State.rd_setBall_other s b l (by decide) (by decide), ← State.fld_faultCode]

theorem faultStands_record {w t0 t1 : Word} (ss : SafeSt) (hh : s.pair.halted = true) (hn : getBit (s.rd .hbrSideband) 0 = false)
    (hw : getBits w 31 28 = c) :
    FaultStands c ((((s.wr .glbFaultRec 0 w).wr .glbFaultTime 0 t0).wr .glbFaultTime 1 t1).enterSafe ss) := by
  refine faultStands_enterSafe ss ?_ hh ?_
  · rw [State.fld_faultCode, State.rd_wr_reg _ _ _ _ _ _ (by decide), State.rd_wr_reg _ _ _ _ _ _ (by decide),
      State.rd_wr_same, hw]
  · rw [State.rd_wr_reg _ _ _ _ _ _ (by decide), State.rd_wr_reg _ _ _ _ _ _ (by decide),
      State.rd_wr_reg _ _ _ _ _ _ (by decide), hn]

/-- A first fault that halts the cores stands. -/
theorem faultStands_faultCore (sub : Nat) (h5 : c ≠ 5) (hc : c < 16) (h0 : s.fld F.glbFaultRec_code = 0) :
    FaultStands c (s.faultCore c sub) := by
  unfold State.faultCore
  extract_lets ss now old _ s1 s2 s3 s4 s5 s6
  have e1 : s1 = { s with pair := { s.pair with halted := true } } := if_neg h5
  have h2 : s2.fld F.glbFaultRec_code = 0 := by
    refine (State.fld_setBall_faultRec s1 0 false).trans ?_
    rw [e1]
    exact h0
  have hpair : s2.pair.halted = true := by
    refine (congrArg Pair.halted (State.setBall_pair s1 0 false)).trans ?_
    rw [e1]
  have hball : getBit (s2.rd .hbrSideband) 0 = false := (State.ball_setBall s1 false (by decide) (by decide)).trans (if_pos rfl)
  have e6 : s6 = s4.wr .glbFaultTime 1 (BitVec.ofNat 32 (s4.ltNs / 4294967296)) := if_pos h2
  rw [e6]
  exact faultStands_record ss hpair hball (fld_faultRecord sub ss.code hc)

/-- While a fault of another tick stands recorded, a further fault leaves the record, is counted, and applies its safe state. -/
theorem State.faultCore_later (code sub : Nat) (h0 : s.fld F.glbFaultRec_code ≠ 0) (hn : s.faultNow = false) :
    (s.faultCore code sub).rd .glbFaultRec = s.rd .glbFaultRec ∧ (s.faultCore code sub).pair.safe.isSome = true ∧
      (s.faultCore code sub).ctr .glbFaults = s.ctr .glbFaults + 1 := by
  unfold State.faultCore
  extract_lets ss now old _ s1 s2 s3 s4 s5 s6
  have hregs : s1.regs = s.regs := by
    unfold s1
    split <;> rfl
  have hctrs : s1.ctrs = s.ctrs := by
    unfold s1
    split <;> rfl
  have hrec : s2.rd .glbFaultRec = s.rd .glbFaultRec :=
    (State.rd_setBall_other s1 0 false (by decide) (by decide) 0).trans (congrArg (tblGet · _ _) hregs)
  have h2 : s2.fld F.glbFaultRec_code ≠ 0 := by
    rw [State.fld_faultCode, hrec, ← State.fld_faultCode]
    exact h0
  have e6 : s6 = s2 := (if_neg h2).trans (if_neg (by simp [now, hn]))
  rw [e6]
  refine ⟨(State.rd_enterSafe_all ..).trans hrec, State.enterSafe_safe .., ?_⟩
  have hc : (s1.setBall 0 false).ctrs = s.ctrs := (State.setBall_ctrs ..).trans hctrs
  have h3 : s2.ctr .glbFaults = s.ctr .glbFaults + 1 := by
    refine (State.ctr_bump (s1.setBall 0 false) .glbFaults .glbFaults 0 0).trans ?_
    rw [if_pos ⟨rfl, rfl⟩]
    simp only [State.ctr, hc]
  rw [← h3]
  simp only [State.ctr, State.enterSafe_ctrs]

namespace FaultStands

variable (h : FaultStands c s)
include h

theorem noted (q : Noted s t) : FaultStands c t where
  code := by rw [State.fld_faultCode, q.rd .glbFaultRec 0 (by decide), ← State.fld_faultCode, h.code]
  halted := q.pair ▸ h.halted
  faultN := (q.rd .hbrSideband 0 (by decide)).symm ▸ h.faultN
  safe := q.pair ▸ h.safe
  role := q.red ▸ h.role

theorem wr {r : Reg} {i : Nat} {w : Word} (hr : .glbFaultRec ≠ r) (hb : .hbrSideband ≠ r) : FaultStands c (s.wr r i w) :=
  { h with
    code := by rw [State.fld_faultCode, State.rd_wr_reg s r _ i 0 w hr, ← State.fld_faultCode, h.code]
    faultN := by rw [State.rd_wr_reg s r _ i 0 w hb, h.faultN] }

theorem wrRec {w : Word} (hw : getBits w 31 28 = c) : FaultStands c (s.wr .glbFaultRec 0 w) :=
  { h with
    code := by rw [State.fld_faultCode, State.rd_wr_same, hw]
    faultN := by rw [State.rd_wr_reg _ _ _ _ _ _ (by decide), h.faultN] }

/-- The entry of the safe state in the record. -/
theorem setFaultSs {v : Nat} : FaultStands c (s.setFld F.glbFaultRec_ss 0 v) :=
  h.wrRec ((getBits_putBits_above (s.rd .glbFaultRec) v (by decide) (by decide) (by decide) (by decide)).trans h.code)

theorem setBall {b : Nat} {l : Bool} (hb : b < 32) (h0 : b = 0 → l = false) : FaultStands c (s.setBall b l) where
  code := (State.fld_setBall_faultRec ..).trans h.code
  halted := State.setBall_pair s b l ▸ h.halted
  faultN := by
    rw [State.ball_setBall s l hb (by decide)]
    split
    · next e => exact h0 e.symm
    · exact h.faultN
  safe := State.setBall_pair s b l ▸ h.safe
  role := State.setBall_red s b l ▸ h.role

theorem bump {k : Ctr} {i : Nat} : FaultStands c (s.bump k i) := { h with }

theorem enterSafe {ss : SafeSt} : FaultStands c (s.enterSafe ss) := faultStands_enterSafe ss h.code h.halted h.faultN

theorem settle : FaultStands c s.settle :=
  .setBall (.setBall (.setBall h (by decide) (by simp)) (by decide) (by simp)) (by decide) (by simp)

variable (h0 : c ≠ 0) (h5 : c ≤ 5)
include h0 h5

/-- A fault by an event leaves the record of a lower code, but for its safe state. -/
theorem faultCore : FaultStands c (s.faultCore 5 0) := by
  unfold State.faultCore
  extract_lets ss now old _ s1 s2 s3 s4 s5 s6
  have e1 : s1 = s := if_pos rfl
  have h2 : FaultStands c s2 := bump (setBall (e1 ▸ h) (by decide) fun _ => rfl)
  have e5 : s5 = s2 := if_neg (by rw [h2.code]; omega)
  have h6 : FaultStands c s6 := by
    unfold s6
    rw [if_neg (by rw [h2.code]; exact h0), e5]
    split
    exacts [h2.setFaultSs, h2]
  exact h6.enterSafe

theorem rise {src : Nat} : FaultStands c (s.rise src).1 := by
  unfold State.rise
  extract_lets x u
  have hu : FaultStands c u :=
    noted (h.wr (r := .evtStat) (by decide) (by decide)) (Noted.refl _).riseLog.riseNotify
  split
  exacts [hu.faultCore h0 h5, hu]

theorem raiseFuel {n : Nat} {l : List Nat} : FaultStands c (State.raiseFuel n s l) := by
  induction n generalizing s l with
  | zero => exact h
  | succ n ih =>
    cases l with
    | nil => exact h
    | cons src rest =>
      unfold State.raiseFuel
      split
      exacts [ih h, ih (h.rise h0 h5)]

theorem raiseIf {b : Bool} {src : Nat} : FaultStands c (s.raiseIf b src) := by
  unfold State.raiseIf
  split
  exacts [settle (h.raiseFuel h0 h5), h]

end FaultStands

/-- A first fault of a code from 1 to 4 stands when its event has risen. -/
theorem faultStands_fault (sub : Nat) (h0 : c ≠ 0) (h5 : c < 5) (hs : s.fld F.glbFaultRec_code = 0) :
    FaultStands c (s.fault c sub) :=
  (faultStands_faultCore sub (by omega) (by omega) hs).raiseIf h0 (by omega)

end Sys2Proof.Machine
end

section
/-! ## The clocks and the state after reset -/

namespace Sys2Proof.Machine

open Sys2Proof

variable {s : State}

/-! ### The root PLL -/

theorem State.tryLeave_of_not_boot (h : s.op ≠ .boot) : s.tryLeave = s := by
  have hop : (s.op == .boot) = false := by simp [h]
  unfold State.tryLeave
  split
  · simp [State.minimalReady, hop]
  · unfold State.tryRun
    split
    · simp [State.booting, hop]
    · rfl

theorem State.tryLeave_of_no_image (hf : s.boot.run.fwim = none) (hm : s.boot.run.minWait = none) : s.tryLeave = s := by
  simp [State.tryLeave, State.tryRun, hf, hm]

theorem State.bist_done (s : State) (fail : BitVec 8) : (s.bist fail).on F.glbLsBist_done = true := by
  have h : (s.bist fail).fld F.glbLsBist_done = 1 := by
    unfold State.bist
    rw [State.fld_wr, if_pos ⟨rfl, rfl⟩]
    dsimp only [F.glbLsBist_done]
    rw [getBits_putBits_above _ _ (by decide) (by decide) (by decide) (by decide),
      getBits_putBits_above _ _ (by decide) (by decide) (by decide) (by decide)]
    exact getBits_putBits _ 31 31 1 (by decide) (by decide)
  simp [State.on, h]

theorem State.bist_lane_fail (s : State) (fail : BitVec 8) : (s.bist fail).fld F.glbLsBist_lane_fail = fail.toNat := by
  unfold State.bist
  rw [State.fld_wr, if_pos ⟨rfl, rfl⟩]
  exact (getBits_putBits _ 7 0 _ (by decide) (by decide)).trans (Nat.mod_eq_of_lt fail.isLt)

/-- The root PLL in lock, or not. -/
def State.withRootLock (s : State) (l : Bool) : State := { s with phys := { s.phys with rootLock := l } }

theorem State.fld_withRootLock (s : State) (l : Bool) (f : RegField) (i : Nat) : (s.withRootLock l).fld f i = s.fld f i := rfl

/-- The injection test of this BOOT has passed. -/
def State.testPassed (s : State) : State := { s with boot := { s.boot with run := { s.boot.run with bistOk := true } } }

theorem State.rootLocked_of_boot (fail : BitVec 8) (hr : s.phys.rstLow = false) (hop : s.op = .boot)
    (hv : s.phys.railsValid = true) (hl : s.phys.rootLock = false) : s.rootLocked fail =
      if fail = 0 then ((s.withRootLock true).bist fail).testPassed.tryLeave
      else ((s.withRootLock true).bist fail).fault 3 (lowestLane fail) := by
  unfold State.rootLocked
  rw [if_neg (by simp [hr, hv])]
  split
  · rw [if_neg (by simp [hl])]
    rfl
  all_goals simp_all

theorem State.rootUnlock_of_running (hr : s.phys.rstLow = false) (hop : s.op = .run ∨ s.op = .minimal) :
    s.rootUnlock = (s.withRootLock false).fault 4 0 := by
  have h : (s.mapUp && s.op != .boot) = true := by
    unfold State.mapUp
    rcases hop with hop | hop <;> simp [hr, hop]
  exact if_pos h

/-! ### The PLLs of the ports -/

theorem State.fabricOn_of (hr : s.phys.rstLow = false) (hop : s.op = .run ∨ s.op = .minimal) : s.fabricOn = true := by
  unfold State.fabricOn State.mapUp
  rcases hop with hop | hop <;> simp [hr, hop]

theorem State.linkUp_port (s : State) {p : Nat} (hp : p < 16) : s.linkUp p = s.on F.macPortStat_link_up p := by
  unfold State.linkUp
  rw [if_neg (by omega), if_neg (by omega)]

theorem Ev.listed_linkChange (p : Fin 16) : Ev.listed (Ev.linkChange p) = true := by
  revert p
  decide

/-- A link that goes down ends with its event: what follows the clearing of its bit leaves the operating state, the clocks and the
registers of links alone, and clears no status bit. -/
theorem State.linkDown_raises {p : Nat} (rest : List Byte) (h : s.linkUp p = true) :
    ∃ u, Steady ((s.portLost p rest).setFld F.macPortStat_link_up p 0) u ∧
      Steady (u.raise (Ev.linkChange p)) (s.linkDown p rest) ∧ SameStat (u.raise (Ev.linkChange p)) (s.linkDown p rest) := by
  unfold State.linkDown
  rw [if_neg (by simp [h])]
  extract_lets s1 s2 s3
  refine ⟨s2, .ite (Steady.refl s1).fdbPurge (.refl s1), ?_⟩
  exact ⟨.ite (Steady.refl s3).health (.refl s3), .ite (SameStat.refl s3).frame (.refl s3)⟩

/-- What the loss of a link leaves behind. -/
theorem State.linkDown_spec (p : Fin 16) (rest : List Byte) (h : s.linkUp p = true) :
    (s.linkDown p rest).linkUp p = false ∧ (s.linkDown p rest).op = s.op ∧ (s.linkDown p rest).phys = s.phys ∧
      getBit ((s.linkDown p rest).rd .evtStat (Ev.linkChange p / 32)) (Ev.linkChange p % 32) = true := by
  obtain ⟨u, hu, ht, hstat⟩ := State.linkDown_raises rest h
  have hlost : Steady s (s.portLost p rest) := (Steady.refl s).portLost
  have hdown : Steady ((s.portLost p rest).setFld F.macPortStat_link_up p 0) (s.linkDown p rest) := by
    have hr := hu.quiet (quiet_raise u (Ev.linkChange p))
    exact ⟨ht.op.trans hr.op, ht.phys.trans hr.phys, fun r i h => (ht.rd r i h).trans (hr.rd r i h)⟩
  refine ⟨?_, hdown.op.trans ((State.setFld_op ..).trans hlost.op),
    hdown.phys.trans ((State.setFld_phys ..).trans hlost.phys), ?_⟩
  · rw [State.linkUp_port _ p.isLt]
    unfold State.on
    rw [hdown.fld (by decide), State.fld_setFld_same _ _ _ _ (by decide) (by decide)]
    rfl
  · rw [hstat]
    exact State.statBit_raise (Ev.listed_linkChange p)

/-- The PLL of a port, no longer in lock. -/
def State.dropLock (s : State) (p : Nat) : State := { s with phys := { s.phys with phyLock := s.phys.phyLock.filter (· != p) } }

theorem State.dropLock_phyLock (s : State) (p : Nat) : (s.dropLock p).phys.phyLock.contains p = false := by
  simp [State.dropLock]

theorem State.phyUnlock_of_up {p : Nat} (rest : List Byte) (h : s.linkUp p = true) :
    s.phyUnlock p rest = (s.dropLock p).linkDown p rest := by
  unfold State.phyUnlock
  dsimp only
  rw [h]
  rfl

theorem State.phyUnlock_of_down {p : Nat} (rest : List Byte) (h : s.linkUp p = false) (hl : s.phys.phyLock.contains p = true) :
    s.phyUnlock p rest = (s.dropLock p).raise (Ev.linkChange p) := by
  have hlink : (s.dropLock p).linkUp p = false := h
  have hdrop : s.phyDrop p rest = s.dropLock p := if_pos (congrArg (!·) hlink)
  unfold State.phyUnlock
  dsimp only
  rw [h, hl, hdrop]
  rfl

theorem State.phyLocked_of_running {p : Nat} (hen : s.on F.macPortCfg_en p = true) (hop : s.op ≠ .boot) : s.phyLocked p =
    if s.phys.phyLock.contains p then s else { s with phys := { s.phys with phyLock := p :: s.phys.phyLock } } := by
  unfold State.phyLocked
  rw [hen, State.tryLeave_of_not_boot (s := { s with phys := { s.phys with phyLock := p :: s.phys.phyLock } }) hop]
  rfl

/-- Settles O14: what locks or unlocks a PLL is followed through its fault, its link and its event. -/
theorem clockLockAndLoss : Obligations.ClockLockAndLoss := by
  intro s hr
  refine ⟨fun hop hv hl hf hm => ?_, fun fail h0 hop hv hl hc => ?_, fun hop hc => ?_, fun hop hc hn => ?_,
    fun p rest hop hup => ?_, fun p rest hop hup hlk => ?_, fun p hop hen => ?_⟩
  · refine ⟨_, rfl, ?_⟩
    have e : ((s.withRootLock true).bist 0).testPassed.tryLeave = ((s.withRootLock true).bist 0).testPassed :=
      State.tryLeave_of_no_image hf hm
    rw [State.rootLocked_of_boot 0 hr hop hv hl, if_pos rfl, e]
    exact ⟨rfl, rfl, hop, State.bist_done _ 0, State.bist_lane_fail _ 0, rfl⟩
  · refine ⟨_, rfl, ?_⟩
    rw [State.rootLocked_of_boot fail hr hop hv hl, if_neg h0]
    have q := quiet_fault ((s.withRootLock true).bist fail) 3 (lowestLane fail)
    have f : FaultStands 3 (((s.withRootLock true).bist fail).fault 3 (lowestLane fail)) :=
      faultStands_fault _ (by decide) (by decide) ((State.fld_wr ..).trans ((if_neg (by decide)).trans hc))
    refine ⟨q.op.trans hop, f.halted, f.code, ?_, congrArg (·.run.bistOk) q.boot, f.faultN⟩
    exact (congrArg (getBits · 7 0) (q.rd .glbLsBist 0 (by decide))).trans (State.bist_lane_fail _ fail)
  · refine ⟨_, rfl, ?_⟩
    rw [State.rootUnlock_of_running hr hop]
    have q := quiet_fault (s.withRootLock false) 4 0
    have f : FaultStands 4 ((s.withRootLock false).fault 4 0) := faultStands_fault 0 (by decide) (by decide) hc
    exact ⟨q.op, congrArg Phys.rootLock q.phys, f.halted, f.faultN, f.code, f.safe, f.role, q.rd⟩
  · refine ⟨_, rfl, ?_⟩
    have e : (s.withRootLock false).fault 4 0 = (s.withRootLock false).faultCore 4 0 :=
      if_neg (by rw [State.fld_withRootLock]; simpa using hc)
    rw [State.rootUnlock_of_running hr hop, e]
    obtain ⟨hrec, hsafe, hctr⟩ := State.faultCore_later (s := s.withRootLock false) 4 0 hc hn
    exact ⟨hrec, hsafe, hctr⟩
  · refine ⟨_, congrArg Host.Outcome.next (if_pos (State.fabricOn_of hr (.inl hop))), ?_⟩
    rw [State.phyUnlock_of_up rest hup]
    obtain ⟨hdown, hsame, hphys, hstat⟩ := State.linkDown_spec (s := s.dropLock p) p rest hup
    exact ⟨hdown, hphys ▸ s.dropLock_phyLock p, hsame.trans hop, hstat⟩
  · refine ⟨_, congrArg Host.Outcome.next (if_pos (State.fabricOn_of hr (.inl hop))), ?_⟩
    rw [State.phyUnlock_of_down rest hup hlk]
    have q := quiet_raise (s.dropLock p) (Ev.linkChange p)
    exact ⟨q.phys ▸ s.dropLock_phyLock p, State.statBit_raise (Ev.listed_linkChange p), q.net⟩
  · refine ⟨_, congrArg Host.Outcome.next (if_pos (State.fabricOn_of hr hop)), ?_⟩
    rw [State.phyLocked_of_running hen (by rcases hop with h | h <;> simp [h])]
    split
    · next hlk => exact ⟨hlk, rfl, rfl⟩
    · exact ⟨by simp, rfl, rfl⟩

/-- Settles O57: every table is empty after reset, so each register and counter reads its default. -/
theorem resetState : Obligations.ResetState := by
  refine ⟨rfl, rfl, rfl, rfl, by decide, rfl, rfl, rfl, fun _ _ => rfl, fun _ _ => rfl, by decide, by decide, by decide, by decide⟩

end Sys2Proof.Machine
end

section
/-! ## What the way of a frame through the switch leaves alone

`Piped s t` says what the stages from the lookup of a frame to its queues (R34, R93), its tail and its loss leave as in `s`: the operating
state, the pins and clocks, the time, the classification ordinal, every register outside `pipeRegs`, and the counts of R41. For each
function `f` on that way, `Piped.f` says that it keeps this; its proof follows the text of `f`, call by call. -/

namespace Sys2Proof.Machine

open Sys2Proof

/-- The counters of the ingress checks (R41). -/
def rxCtrs : List Ctr := [.macDropRxerr, .macDropOversize, .macDropRunt, .macDropFcs]

/-- The registers that a frame in the switch can change: marks and events (R177, R451), error logs and weak rows (R358, R364), the merged
words of a tide list (R362), the results of learning and of flaps (R91, R118), the flags of stream gates (R194), and the words of an SA
(R277, R283). -/
def pipeRegs : List Reg := trafficRegs ++ [.memCeLog0, .memCeLog1, .memCeLogLt, .memUeLog0, .memUeLog1, .memUeLogLt, .memWeakLast0,
  .memWeakLast1, .tgaAdminEntry, .fdbEntStat, .fdbFlapLast0, .fdbFlapLast1, .fdbFlapLast2, .schGateCfg, .cipTxSa0, .cipRxSa0,
  .cipTxSaNextPn, .cipRxSaNextPn, .mtrCtrl, .cipVbStat]

/-- `t` has the operating state, the pins and clocks, the time and the ordinal of `s`, its registers but for `pipeRegs`, and its counts
of R41. -/
structure Piped (s t : State) : Prop where
  op : t.op = s.op
  phys : t.phys = s.phys
  tim : t.tim = s.tim
  ord : t.net.ord = s.net.ord
  rd : ∀ r i, r ∉ pipeRegs → t.rd r i = s.rd r i
  ctr : ∀ c ∈ rxCtrs, ∀ i, t.ctr c i = s.ctr c i

theorem rxCtrs_not_event : ∀ c ∈ rxCtrs, c ∉ eventCtrs := by decide

namespace Piped

-- A default tactic waits for all proofs before it, so these are elaborated in their order.
set_option Elab.async false

variable {s₀ s t : State}

theorem refl (s : State) : Piped s s := ⟨rfl, rfl, rfl, rfl, fun _ _ _ => rfl, fun _ _ _ => rfl⟩

theorem ite {a b : State} {c : Prop} [Decidable c] (ha : Piped s₀ a) (hb : Piped s₀ b) : Piped s₀ (if c then a else b) := by
  split
  exacts [ha, hb]

theorem iteFst {α : Type} {a b : State × α} {c : Prop} [Decidable c] (ha : Piped s₀ a.1) (hb : Piped s₀ b.1) :
    Piped s₀ (if c then a else b).1 := by
  split
  exacts [ha, hb]

theorem foldlFst {α β : Type} {f : State × β → α → State × β} {x : State × β} {l : List α} (h : Piped s₀ x.1)
    (hf : ∀ u a, Piped s₀ u.1 → Piped s₀ (f u a).1) : Piped s₀ (l.foldl f x).1 :=
  List.foldlRecOn (motive := fun x => Piped s₀ x.1) l f h fun u hu a _ => hf u a hu

variable (h : Piped s₀ s)
include h

theorem trans (k : Piped s t) : Piped s₀ t :=
  ⟨k.op.trans h.op, k.phys.trans h.phys, k.tim.trans h.tim, k.ord.trans h.ord, fun r i hr => (k.rd r i hr).trans (h.rd r i hr),
    fun c hc i => (k.ctr c hc i).trans (h.ctr c hc i)⟩

theorem fld {f : RegField} {i : Nat} (hf : f.reg ∉ pipeRegs := by decide) : s.fld f i = s₀.fld f i :=
  congrArg (getBits · f.hi f.lo) (h.rd f.reg i hf)

theorem pair {α : Type} {a : α} : Piped s₀ (s, a).1 := h

/-- Parts of the state other than those that `Piped` names may change. -/
theorem frame {pending now free out prevOp cause leftOp hold stage hbr mqs mem pwr boot mram flash win pair red net keys}
    (hn : net.ord = s.net.ord := by rfl) : Piped s₀ ⟨pending, now, free, out, s.phys, s.op, prevOp, cause, leftOp, s.regs, s.ctrs,
      hold, stage, s.tim, hbr, mqs, mem, pwr, boot, mram, flash, win, pair, red, net, keys⟩ :=
  ⟨h.op, h.phys, h.tim, hn.trans h.ord, h.rd, h.ctr⟩

theorem foldl {α : Type} {f : State → α → State} {l : List α} (hf : ∀ u a, Piped s₀ u → Piped s₀ (f u a)) :
    Piped s₀ (l.foldl f s) := List.foldlRecOn l f h fun u hu a _ => hf u a hu

theorem quiet (q : Quiet s t) : Piped s₀ t :=
  h.trans ⟨q.op, q.phys, q.tim, congrArg Net.ord q.net, fun r i hr => q.rd r i (mt (fun e => List.mem_append_left _
    (List.mem_append_left _ e)) hr), fun c hc i => q.ctr c i (rxCtrs_not_event c hc)⟩

/-! ### Registers, counters and memories -/

theorem wr {r i w} (hr : r ∈ pipeRegs := by decide) : Piped s₀ (s.wr r i w) :=
  h.trans ⟨rfl, rfl, rfl, rfl, fun r' j hj => State.rd_wr_reg s r r' i j w fun e => hj (e ▸ hr), fun _ _ _ => rfl⟩

theorem setFld {f i v} (hr : f.reg ∈ pipeRegs := by decide) : Piped s₀ (s.setFld f i v) := h.wr hr

theorem bump {c i} (hc : c ∉ rxCtrs := by decide) : Piped s₀ (s.bump c i) :=
  h.trans ⟨rfl, rfl, rfl, rfl, fun _ _ _ => rfl, fun c' hc' j =>
    (State.ctr_bump s c c' i j).trans (if_neg fun ⟨e, _⟩ => hc (e ▸ hc'))⟩

theorem bumpIf {b c i} (hc : c ∉ rxCtrs := by decide) : Piped s₀ (s.bumpIf b c i) := ite (h.bump hc) h

theorem raise {src} : Piped s₀ (s.raise src) := h.quiet (quiet_raise ..)

theorem mqPost {k it} : Piped s₀ (s.mqPost k it).1 := h.quiet (quiet_mqPost ..)

theorem applyFlip {mem inst addr enc} : Piped s₀ (s.applyFlip mem inst addr enc) := h.quiet (quiet_applyFlip ..)

theorem memWrite {mem inst addr} : Piped s₀ (s.memWrite mem inst addr) := h.quiet (quiet_memWrite ..)

theorem setMemErr {mem inst addr e} : Piped s₀ (s.setMemErr mem inst addr e) := h.frame

theorem memFill {mem inst lo n} : Piped s₀ (s.memFill mem inst lo n) := ite h.frame.applyFlip h.frame

theorem drawWord : Piped s₀ s.drawWord.2 := h.frame

theorem emit {o} : Piped s₀ (s.emit o) := h.frame

theorem logCe {mem inst addr synd source} : Piped s₀ (s.logCe mem inst addr synd source) :=
  .ite h h.wr.wr.wr.wr

theorem logUe {type mem inst addr synd source} : Piped s₀ (s.logUe type mem inst addr synd source) :=
  .ite h h.wr.wr.wr.wr

theorem addRepair {mem inst row} : Piped s₀ (s.addRepair mem inst row) :=
  .ite h (.ite h.bump.raise h.frame)

theorem weakRow {mem inst addr} : Piped s₀ (s.weakRow mem inst addr) := h.wr.wr.bump.raise.addRepair

theorem offerTrk {mem inst addr} : Piped s₀ (s.offerTrk mem inst addr) := by
  unfold State.offerTrk
  dsimp only
  split
  · exact .ite h.frame.weakRow h.frame
  · exact .ite h.frame h.bump

theorem corrected {mem inst addr synd source} : Piped s₀ (s.corrected mem inst addr synd source) :=
  h.setMemErr.bump.logCe.raise.offerTrk

theorem setMirror {n x} : Piped s₀ (s.setMirror n x) := h.frame

theorem mirrorWrite {n} : Piped s₀ (s.mirrorWrite n) := h.foldl fun _ _ h1 => h1.memWrite

theorem reloadSlot {n} : Piped s₀ (s.reloadSlot n) := h.setMirror.mirrorWrite

theorem keyFail {mem addr} : Piped s₀ (s.keyFail mem addr) := .ite h.reloadSlot h

theorem saFail {mem addr} : Piped s₀ (s.saFail mem addr) :=
  .ite h (.raise (.frame ((h.wr (by split <;> decide)).foldl fun _ _ h1 => h1.setMemErr)))

theorem uncorrectable {mem inst addr synd source} : Piped s₀ (s.uncorrectable mem inst addr synd source) :=
  h.setMemErr.bump.logUe.raise.saFail.keyFail

theorem poisonRead {mem inst addr source} : Piped s₀ (s.poisonRead mem inst addr source) :=
  h.bump.logUe.saFail.keyFail

theorem parityFail {mem addr source} : Piped s₀ (s.parityFail mem addr source) :=
  h.frame.setMemErr.bump.logUe.raise.offerTrk

theorem setEnt {id par n e} : Piped s₀ (s.setEnt id par n e) := h.frame

theorem putTabW {id g w} : Piped s₀ (s.putTabW id g w) := h.setEnt

theorem putRawWord {mem inst addr bs} : Piped s₀ (s.putRawWord mem inst addr bs) := h.frame

theorem putOperWord {p i w} : Piped s₀ (s.putOperWord p i w) := by
  unfold State.putOperWord
  dsimp only
  split
  · exact h.frame
  · exact h

theorem putMemWord {mem inst addr bs} : Piped s₀ (s.putMemWord mem inst addr bs) := by
  unfold State.putMemWord
  split
  · exact h.putRawWord
  · exact h.putTabW.putTabW
  · exact h.wr.putRawWord
  · exact h.putOperWord.putRawWord

theorem poisonWrite {mem inst addr} : Piped s₀ (s.poisonWrite mem inst addr) :=
  .ite h.applyFlip h.setMemErr

theorem flushEnt {e} : Piped s₀ (s.flushEnt e) := by
  unfold State.flushEnt
  split
  · exact .ite h.putMemWord.memWrite h.putMemWord.memWrite
  · exact .ite h.putMemWord.memWrite h.corrected.putMemWord.memWrite
  · exact .ite h.putMemWord.memWrite h.putMemWord.poisonWrite.bump.logUe.raise
  · exact .ite h.putMemWord.memWrite h.putMemWord.poisonWrite.bump.logUe

theorem flushWhere {p} : Piped s₀ (s.flushWhere p) := h.frame.foldl fun _ _ h1 => h1.flushEnt

theorem flushWord {mem inst addr} : Piped s₀ (s.flushWord mem inst addr) := h.flushWhere

theorem memRead {mem inst addr u source} : Piped s₀ (s.memRead mem inst addr u source).1 := by
  unfold State.memRead
  dsimp only
  split
  · exact h.flushWord
  · exact h.flushWord.corrected
  · exact h.flushWord.uncorrectable
  · exact h.flushWord.setMemErr.poisonRead

theorem wordsRead {mem inst addr n source} : Piped s₀ (s.wordsRead mem inst addr n source).1 :=
  .iteFst h (h.foldlFst fun _ _ h1 => h1.memRead)

theorem itemRead {addr n} : Piped s₀ (s.itemRead addr n).1 := h.wordsRead

theorem itemWrite {addr n} : Piped s₀ (s.itemWrite addr n) := h.foldl fun _ _ h1 => h1.memWrite

theorem stateRead {i} : Piped s₀ (s.stateRead i).1 :=
  .iteFst h (.iteFst h.memRead.memWrite.bump h.memRead)

theorem probeEntry {mem idx u source} : Piped s₀ (s.probeEntry mem idx u source) :=
  .ite h (.ite h.parityFail h)

theorem readEnt {id par n src} : Piped s₀ (s.readEnt id par n src).1 :=
  .iteFst h (.iteFst h.probeEntry h.wordsRead)

theorem writeEnt {id par n e} : Piped s₀ (s.writeEnt id par n e) :=
  .setEnt (.ite h.memWrite (h.foldl fun _ _ h1 => h1.memWrite))

theorem delEnt {id par n} : Piped s₀ (s.delEnt id par n) := h.writeEnt.frame

theorem readAll {id par src idx} : Piped s₀ (s.readAll id par src idx).1 :=
  h.foldlFst fun _ _ h1 => .iteFst h1.readEnt h1.readEnt

theorem cfgEnt {id par n} : Piped s₀ (s.cfgEnt id par n).1 := .iteFst h.readEnt.bump h.readEnt

theorem setFrm {i f} : Piped s₀ (s.setFrm i f) := h.frame

theorem holdFrm {i n} : Piped s₀ (s.holdFrm i n) := h.setFrm

theorem dropRef {i} : Piped s₀ (s.dropRef i) := h.setFrm

theorem storeFrm {cells a b} : Piped s₀ (s.storeFrm cells a b) :=
  h.foldl fun _ _ h1 => .ite h1.memFill h1

theorem frameRead {i} : Piped s₀ (s.frameRead i).1 := .iteFst h (h.foldlFst fun _ _ h1 => h1.wordsRead)

theorem newFrm {f} : Piped s₀ (s.newFrm f).1 := h.frame.storeFrm

theorem setQueue {q l} : Piped s₀ (s.setQueue q l) := h.frame

theorem hwm {f i v} (hr : f.reg ∈ pipeRegs := by decide) : Piped s₀ (s.hwm f i v) := .ite (h.setFld hr) h

theorem marks : Piped s₀ s.marks := .hwm (.hwm (h.hwm.hwm.foldl fun _ _ h1 => h1.hwm))

theorem ctFind {key hash} : Piped s₀ (s.ctFind key hash).1 :=
  h.readAll.foldl fun _ _ h1 => .ite h1.delEnt h1

theorem ctLookup {x key dir hash} : Piped s₀ (s.ctLookup x key dir hash).1 := by
  unfold State.ctLookup
  extract_lets fl r t
  have ht : Piped s₀ t := h.ctFind (key := key)
  clear_value t
  refine .iteFst h ?_
  split
  · exact .iteFst ht ht
  · exact .iteFst ht ht.writeEnt

theorem ctCreate {x key dir hash rule} : Piped s₀ (s.ctCreate x key dir hash rule).1 := by
  unfold State.ctCreate
  dsimp only
  split
  · exact .pair h.ctFind.bump.writeEnt.bump
  · split
    · exact .pair h.ctFind.writeEnt.bump
    · exact .pair h.ctFind

theorem probeRules {par ct port prio x sel} : Piped s₀ (s.probeRules par ct port prio x sel).1 := by
  refine h.foldlFst fun a bank ha => ?_
  dsimp only
  split
  · exact ha
  · split
    · exact ha.cfgEnt
    · exact ha.cfgEnt.readAll

theorem ruleCount {n} : Piped s₀ (s.ruleCount n) := h.setEnt

theorem ruleStage {port prio par ct x key dir hash} :
    Piped s₀ (s.ruleStage port prio par ct x key dir hash).1 := by
  unfold State.ruleStage
  extract_lets c
  have hc : Piped s₀ c.1 := h.cfgEnt
  clear_value c
  split
  · exact hc
  · extract_lets p u t
    have hp : Piped s₀ p.1 := hc.probeRules
    have ht : Piped s₀ t := hp.foldl fun _ _ hu => hu.ruleCount
    clear_value t p
    refine .iteFst hp (.iteFst hp.bump ?_)
    split
    · exact .ite ht.bump (.ite ht.bump ht)
    · exact .iteFst ht.bump (.iteFst ht.bump (.iteFst (.iteFst ht.ctCreate ht.ctCreate.bump) ht))

theorem classify {port prio par x key dir hash} : Piped s₀ (s.classify port prio par x key dir hash).1 :=
  .iteFst h (.iteFst h.ctLookup.bump h.ctLookup.ruleStage)

theorem applyEdits {port par d bytes} : Piped s₀ (s.applyEdits port par d bytes).1 := by
  unfold State.applyEdits
  split
  · exact h
  · split
    · exact h.bumpIf
    · split
      · dsimp only
        split
        · exact h.cfgEnt
        · exact h.cfgEnt.bumpIf
      · dsimp only
        split
        · exact h.cfgEnt
        · exact h.cfgEnt.bumpIf

theorem vlan {par vid} : Piped s₀ (s.vlan par vid).1 := h.readEnt

theorem fdbLookup {par fid mac} : Piped s₀ (s.fdbLookup par fid mac).1 := h.readAll

theorem daLookup {par v da} : Piped s₀ (s.daLookup par v da).1 := by
  unfold State.daLookup
  extract_lets r
  have hr : Piped s₀ r.1 := h.fdbLookup
  clear_value r
  split
  · exact .iteFst hr (.iteFst (.iteFst (.pair hr.readEnt) (.pair hr.readEnt)) hr)
  · exact hr

omit h in
/-- No lookup of a destination ends in a count of R41. -/
theorem daLookup_drop {par v da c} (e : (s.daLookup par v da).2 = .drop c) : c ∉ rxCtrs := by
  unfold State.daLookup at e
  dsimp only at e
  split at e
  · split at e
    · cases e; decide
    · split at e
      · split at e <;> cases e; decide
      · cases e
  · split at e
    · cases e
    · split at e <;> cases e

theorem refine {port epoch v routed x} (hx : ∀ c, x = .drop c → c ∉ rxCtrs) : Piped s₀ (s.refine port epoch v routed x).1 := by
  unfold State.refine
  split
  · exact h.bump (hx _ rfl)
  · exact .iteFst h.bump (.iteFst h.bump h)
  · exact .iteFst h.bump h
  · extract_lets u
    have hu : Piped s₀ u := h.bump (by split <;> [decide; split <;> decide])
    exact .iteFst hu.bump hu

theorem pendDrop {p} : Piped s₀ (s.pendDrop p) := h.frame

theorem postNotice {x} : Piped s₀ (s.postNotice x).1 := .iteFst h h.mqPost

theorem offerNotice {ty fid mac old port arr} : Piped s₀ (s.offerNotice ty fid mac old port arr) := by
  unfold State.offerNotice
  split <;> exact .ite h.bump (.ite h.postNotice.bump.frame h.postNotice.bump)

theorem saLookup {port epoch v sa arr} : Piped s₀ (s.saLookup port epoch v sa arr).1 := by
  unfold State.saLookup
  extract_lets fid learn r t
  have ht : Piped s₀ t := h.fdbLookup
  clear_value t
  refine .iteFst h ?_
  split
  · exact .ite ht.offerNotice ht
  · exact .iteFst (.iteFst ht.bump ht) (.iteFst (.ite ht ht.writeEnt) (.ite ht.offerNotice ht))

theorem trieWalk {id par l e best} : Piped s₀ (s.trieWalk id par l e best).1 := by
  induction l generalizing s e best with
  | nil => exact h
  | cons x l ih => exact .iteFst h (.iteFst h.readEnt (ih h.readEnt))

theorem lpm {par v6 da} : Piped s₀ (s.lpm par v6 da).1 := by
  unfold State.lpm
  split
  · exact .iteFst h.readEnt h.readEnt.trieWalk
  · dsimp only
    split
    · split
      · exact h.readAll.readEnt
      · split <;> exact h.readAll.readEnt
    · split
      · exact h.readAll.readEnt.trieWalk
      · split <;> exact h.readAll.readEnt.trieWalk

theorem route {port epoch x y vid bytes} : Piped s₀ (s.route port epoch x y vid bytes).1 := by
  unfold State.route
  refine .iteFst h.bump ?_
  extract_lets v6 r
  have hr : Piped s₀ r.1 := h.lpm
  clear_value r
  refine .iteFst hr.bump ?_
  split
  · exact hr.bump
  · refine .iteFst hr.bump (.iteFst hr.bump ?_)
    extract_lets n nh nvid rm mac b v d f
    have hn : Piped s₀ n.1 := hr.readEnt
    have hv : Piped s₀ v.1 := hn.vlan
    have hd : Piped s₀ d.1 := .iteFst hv.daLookup hv
    have hc : ∀ c, d.2 = .drop c → c ∉ rxCtrs := by
      intro c e
      unfold d at e
      split at e
      · exact daLookup_drop e
      · cases e
    exact .iteFst hn.bump (.iteFst hn.bump (.iteFst hv.bump (.iteFst hv.bump (hd.refine hc))))

theorem ethLookup {port epoch x bytes arr} : Piped s₀ (s.ethLookup port epoch x bytes arr).1 :=
  .iteFst h.vlan.bump (.iteFst h.vlan.bump (.iteFst h.vlan.saLookup (.iteFst h.vlan.saLookup.vlan.bump (.iteFst
    h.vlan.saLookup.vlan.route (.iteFst h.vlan.saLookup.vlan.bump (h.vlan.saLookup.vlan.daLookup.refine fun _ => daLookup_drop))))))

theorem fdbDone {res idx} : Piped s₀ (s.fdbDone res idx) := h.wr

theorem fdbDonePair {e res idx} : Piped s₀ (s.fdbDonePair e res idx) := h.pendDrop.fdbDone

theorem flapRoll : Piped s₀ s.flapRoll := .ite h.frame h

theorem setFlapN {n : Nat} : Piped s₀ { s with net := { s.net with flapN := n } } := h.frame

theorem flapHeld {e} : Piped s₀ (s.flapHeld e) :=
  .ite h.bump.flapRoll.setFlapN.wr.wr.wr.raise h.bump.flapRoll.setFlapN

theorem fdbLearn {e} : Piped s₀ (s.fdbLearn e) := by
  unfold State.fdbLearn
  extract_lets idx same
  clear_value same
  split
  · exact h.fdbDonePair
  · split
    · exact .ite h.writeEnt.fdbDonePair (.ite h.writeEnt.fdbDonePair (.ite h.flapHeld.fdbDonePair
        h.writeEnt.fdbDonePair))
    · split
      · exact h.writeEnt.fdbDonePair
      · exact h.bump.fdbDonePair

theorem runtimeLearn : Piped s₀ s.runtimeLearn := .ite (h.foldl fun _ _ h1 => h1.fdbLearn) h

theorem sidProbe {port epoch x m} : Piped s₀ (s.sidProbe port epoch x m).1 := h.readAll

theorem identify {port epoch x} : Piped s₀ (s.identify port epoch x).1 := by
  unfold State.identify
  split
  · exact h
  · extract_lets r bad
    have hr : Piped s₀ r.1 := h.foldlFst fun _ _ hu => hu.sidProbe (epoch := epoch)
    have hb {u} (hu : Piped s₀ u) : Piped s₀ (bad u).1 := .iteFst hu.bump hu
    clear_value r bad
    split
    · exact hb hr
    · split
      · exact hr
      · exact .iteFst (hb hr.readEnt) (.iteFst hr.readEnt hr.readEnt)

theorem setStr {k e} : Piped s₀ (s.setStr k e) := h.writeEnt

theorem strReset {k} : Piped s₀ (s.strReset k) := h.setStr

theorem readStr {k} : Piped s₀ (s.readStr k) := .ite h.readEnt.strReset h.readEnt

theorem recovery {k par seq} : Piped s₀ (s.recovery k par seq).1 :=
  .ite h.readStr.setStr.frame h.readStr.setStr

theorem seqGen {k par echo} : Piped s₀ (s.seqGen k par echo).1 := by
  unfold State.seqGen
  split
  · exact h
  · split
    · exact h
    · exact .iteFst h.readStr.setStr (h.bump (by split <;> decide))

theorem setMtr {m l} : Piped s₀ (s.setMtr m l) := h.frame

theorem mtrRead {m} : Piped s₀ (s.mtrRead m).1 :=
  .iteFst (.frame (.iteFst h.stateRead h)) (.iteFst h.stateRead h)

theorem meter {m len dei st} : Piped s₀ (s.meter m len dei st).1 := by
  unfold State.meter
  extract_lets rd t first c0 c1 l r u st' y z
  have ht : Piped s₀ t := h.mtrRead
  have hu : Piped s₀ u := .ite ht.setMtr.memWrite ht
  have hy : Piped s₀ y := hu.bump
  have hz : Piped s₀ z := hu.bump.bump
  exact .iteFst ht (.iteFst hu.bump (.iteFst (.iteFst hy.bump hy) (.iteFst hu.bump (.ite hz.setFld hz))))

theorem setGate {g t} : Piped s₀ (s.setGate g t) := h.frame

theorem gateCheck {g len st} : Piped s₀ (s.gateCheck g len st).1 := by
  unfold State.gateCheck
  extract_lets drop rd t u
  have hd {u c} (hu : Piped s₀ u) (hc : c ∉ rxCtrs := by decide) : Piped s₀ (drop u c).1 := (hu.bump hc).bump
  clear_value drop
  refine .iteFst h.bump (.iteFst (hd h) (.iteFst (hd h) ?_))
  split
  · exact h.bump
  · extract_lets m
    have hu : Piped s₀ u := h.stateRead.setGate
    exact .iteFst hu (.iteFst (hd (.ite hu.setFld hu)) (.iteFst hu.bump (.iteFst (hd (.ite hu.setFld hu))
      hu.setGate.memWrite.bump)))

theorem police {port x par rule dei len sdu maxLen sec} :
    Piped s₀ (s.police port x par rule dei len sdu maxLen sec).1 := by
  unfold State.police
  extract_lets maxSdu base l st g m m' t
  have hg : Piped s₀ g.1 := by
    unfold g
    split
    · exact .iteFst h.gateCheck h
    · exact h
  have hm : Piped s₀ m.1 := by
    unfold m
    split
    · exact .iteFst hg.meter hg
    · exact hg
  have hm' : Piped s₀ m'.1 := by
    unfold m'
    split
    · exact hm.meter
    · exact hm
  have ht : Piped s₀ t := .ite hm' (.ite hm'.bump (.ite hm'.bump hm'))
  exact .iteFst h (.iteFst h.bump ht)

theorem creditTail {f trueLen} : Piped s₀ (s.creditTail f trueLen) := by
  unfold State.creditTail
  split
  · exact h
  · extract_lets d t
    have ht : Piped s₀ t := h.foldl fun _ _ hu => .ite hu.setMtr hu
    clear_value t
    split
    · exact .ite ht.setGate ht
    · exact ht

theorem setCan {n c} : Piped s₀ (s.setCan n c) := h.frame

theorem setLin {n c} : Piped s₀ (s.setLin n c) := h.frame

theorem canChooseN {k n} : Piped s₀ (State.canChooseN k s n) := by
  induction k generalizing s with
  | zero => exact h
  | succ k ih =>
    unfold State.canChooseN
    dsimp only
    split
    · exact h.setCan
    · exact .ite (ih h.setCan.bump) (.ite (ih h.itemRead.setCan.bump) h.itemRead.setCan)

theorem canChoose {n} : Piped s₀ (s.canChoose n) := .ite h.canChooseN h.setCan

theorem canOffer {n l ord} : Piped s₀ (s.canOffer n l ord) :=
  .ite h.bump (.ite h.bump (.ite h.bump (.ite h.bump (.ite h.bump (.ite h.setCan.itemWrite.canChoose
    h.setCan.itemWrite)))))

theorem linOffer {n l ord} : Piped s₀ (s.linOffer n l ord) :=
  .ite h.bump (.ite h.bump (.ite h.bump (.ite (.ite h.bump h.setLin.itemWrite) h.setLin.bumpIf.itemWrite)))

theorem legOffer {port l ord} : Piped s₀ (s.legOffer port l ord) := .ite h.canOffer (.ite h.linOffer h)

theorem setPort {p x} : Piped s₀ (s.setPort p x) := h.frame

theorem setQs {q x} : Piped s₀ (s.setQs q x) := h.frame

theorem wake {p q c} : Piped s₀ (s.wake p q c) := .ite h.setQs h

omit h in
/-- No test of admission counts a cause of R41. -/
theorem admitTest_count {f q p k len c} (e : s.admitTest f q p k len = some c) : c ∉ rxCtrs := by
  unfold State.admitTest at e
  dsimp only at e
  repeat' split at e
  all_goals cases e
  all_goals decide

theorem admitCopy {i p x} : Piped s₀ (s.admitCopy i p x) := by
  unfold State.admitCopy
  extract_lets f qc len k
  clear_value k
  refine .ite h (.ite h.bump ?_)
  split
  · next e => exact h.bump (admitTest_count e)
  · exact h.wake.setQueue.holdFrm.bump.marks

theorem emptied {q} : Piped s₀ (s.emptied q) := .ite h.setQs h

theorem fenceSweep : Piped s₀ s.fenceSweep := h.frame

theorem dropWaiting {c p} (hc : ∀ k, c = some k → k ∉ rxCtrs := by rintro _ ⟨⟩) : Piped s₀ (s.dropWaiting c p) := by
  unfold State.dropWaiting
  split
  · exact .fenceSweep (h.foldl fun _ _ h1 => .ite h1 (h1.setQueue.emptied.foldl fun _ _ h2 => (h2.bump (hc _ rfl)).dropRef))
  · exact .fenceSweep (h.foldl fun _ _ h1 => .ite h1 (h1.setQueue.emptied.foldl fun _ _ h2 => h2.dropRef))

theorem mapTx {b} : Piped s₀ (s.mapTx b) := h.foldl fun _ _ h1 => .ite h1 h1.setPort

theorem setCtx {n c} : Piped s₀ (s.setCtx n c) := h.frame

theorem setSlot {n x} : Piped s₀ (s.setSlot n x) := h.frame

theorem holdCtx {n} : Piped s₀ (s.holdCtx n) := by
  unfold State.holdCtx
  split
  · exact h
  · split
    · exact h.setCtx
    · split <;> exact h.setCtx

theorem dropOuts {l} : Piped s₀ (s.dropOuts l) := h.foldl fun _ _ h1 => h1.dropRef

theorem slotTo {n st} : Piped s₀ (s.slotTo n st) := by
  unfold State.slotTo
  split
  · exact h
  · exact h.setSlot.dropOuts.holdCtx

theorem voidSlot {n} : Piped s₀ (s.voidSlot n) := by
  unfold State.voidSlot
  split
  · exact h.slotTo
  · exact h

theorem dropDescs {i} : Piped s₀ (s.dropDescs i) :=
  h.foldl fun _ _ h1 => .ite h1 (h1.frame.foldl fun _ _ h2 => h2.dropRef)

theorem foundBad {i} : Piped s₀ (s.foundBad i) :=
  .ite h h.setFrm.bumpIf.dropWaiting.mapTx.dropDescs.voidSlot.dropRef

theorem tooLong {i too c} (hc : ∀ k, c = some k → k ∉ rxCtrs := by rintro _ ⟨⟩) : Piped s₀ (s.tooLong i too c) := by
  unfold State.tooLong
  split
  · exact .mapTx (.dropWaiting (h.foldl fun _ _ h1 => h1.bump (hc _ rfl)))
  · exact .mapTx (.dropWaiting (h.foldl fun _ _ h1 => h1.bump))

theorem tailCharge {i} : Piped s₀ (s.tailCharge i) :=
  .mapTx (h.foldl fun _ _ h1 => .ite h1.setQueue h1)

theorem tailTooLong {i} : Piped s₀ (s.tailTooLong i) := by
  unfold State.tailTooLong
  exact h.tooLong.tooLong (by rintro _ ⟨⟩; decide)

theorem setNextPn {n v} : Piped s₀ (s.setNextPn n v) :=
  have hr : (saPnReg n).1 ∈ pipeRegs := by unfold saPnReg; split <;> dsimp only <;> decide
  (h.wr hr).wr hr

theorem secyCheck {p sa pn key bs} : Piped s₀ (s.secyCheck p sa pn key bs).1 := by
  unfold State.secyCheck
  split
  · split
    · exact h.bump (by split <;> decide)
    · exact .iteFst h.bump (setNextPn (h.bump (by split <;> decide)))
  · split
    · exact h.bump (by split <;> decide)
    · exact .iteFst h.bump (setNextPn (h.bump (by split <;> decide)))

theorem skyRecord {cause k thr prof ord hash inPort xlt} :
    Piped s₀ (s.skyRecord cause k thr prof ord hash inPort xlt) :=
  .ite h.mqPost h

theorem skyDrop {cause k thr prof xlt f} : Piped s₀ (s.skyDrop cause k thr prof xlt f) :=
  .ite h.bump.skyRecord h.bump

theorem setSky {k x} : Piped s₀ (s.setSky k x) := h.frame

theorem dispatch {i prof slot dest} : Piped s₀ (s.dispatch i prof slot dest) := by
  unfold State.dispatch
  dsimp only
  split
  · exact h.cfgEnt.voidSlot
  · split
    · exact h.cfgEnt.drawWord.skyDrop.voidSlot
    · exact .ite h.cfgEnt.skyDrop.voidSlot (.ite h.cfgEnt.bump.voidSlot h.cfgEnt.setFrm.setSky.marks)

theorem ctxFail {n} : Piped s₀ (s.ctxFail n) := by
  unfold State.ctxFail
  exact .setCtx (h.foldl fun _ _ h1 => h1.voidSlot.setSlot.bump)

theorem ctxRead {n} : Piped s₀ (s.ctxRead n) := .ite h.wordsRead.ctxFail h.wordsRead

theorem takeSlot {i n steer} : Piped s₀ (s.takeSlot i n steer).1 := by
  unfold State.takeSlot
  split
  · exact h
  · split
    · exact h.bump
    · split
      · exact h.bump.holdCtx
      · exact h.setSlot.memFill.setCtx.memFill.setFrm.holdCtx

theorem sequence {i steer} : Piped s₀ (s.sequence i steer).1 := by
  unfold State.sequence
  extract_lets f t
  have ht : Piped s₀ t := by
    unfold t
    split
    · exact h.ctxRead
    · exact h
  clear_value t
  split
  · exact ht.takeSlot
  · refine .iteFst ht ?_
    split
    · exact ht.bump
    · exact ht.setCtx.takeSlot

theorem mapProbe {port epoch l} : Piped s₀ (s.mapProbe port epoch l).1 := h.readAll

theorem legDest {f m d} : Piped s₀ (s.legDest f m d).1 :=
  .iteFst h.bump (.iteFst h.bump (.iteFst h (.iteFst (h.bump (by split <;> decide)) h)))

theorem ethDest {i x d} : Piped s₀ (s.ethDest i x d).1 := by
  unfold State.ethDest
  extract_lets f e
  have he : Piped s₀ e.1 := h.applyEdits
  clear_value e
  refine .iteFst h ?_
  split
  · exact he
  · refine .iteFst he.bump ?_
    split
    · extract_lets t fv v u _ f' w
      have hv : Piped s₀ v.1 := .iteFst he.setFrm.vlan he.setFrm
      have hw : Piped s₀ w := hv.setFrm
      exact .iteFst hv.bump (.iteFst hw hw.bump)
    · extract_lets t r
      have hr : Piped s₀ r.1 := he.setFrm.ethLookup
      clear_value r
      split
      · exact hr
      · exact hr.setFrm

theorem emitPair {bs} : Piped s₀ (s.emitPair bs) := .ite h h.emit

theorem sendEcho {f} : Piped s₀ (s.sendEcho f) := by
  unfold State.sendEcho
  split
  · exact h.emitPair.bump
  · exact h

theorem streamStage {i x echo} : Piped s₀ (s.streamStage i x echo).1 := by
  unfold State.streamStage
  extract_lets f
  split
  · exact h
  · extract_lets par g f' t u
    have hg : Piped s₀ g.1 := h.seqGen
    have hu : Piped s₀ u := .ite hg.setFrm.sendEcho hg.setFrm
    exact .iteFst hg (.iteFst hu.recovery hu)

theorem policeFrm {i x d} : Piped s₀ (s.policeFrm i x d).1 := h.police.setFrm

theorem legCopy {i p l} : Piped s₀ (s.legCopy i p l) := .ite h.frameRead.bump h.frameRead.legOffer

theorem deliver {i p x} : Piped s₀ (s.deliver i p x) := by
  unfold State.deliver
  split
  · exact h.admitCopy
  · split
    · exact h.legCopy
    · exact h

theorem slotPlan {i n dest} : Piped s₀ (s.slotPlan i n dest) := by
  unfold State.slotPlan
  split
  · exact h.setSlot.holdFrm
  · exact h

theorem stage7 {i d slot dest} : Piped s₀ (s.stage7 i d slot dest) := by
  unfold State.stage7
  split
  · exact .ite h.slotPlan h.dispatch
  · exact h.slotPlan
  · exact h.foldl fun _ _ h1 => h1.deliver

theorem saAlone {f x d} : Piped s₀ (s.saAlone f x d) := .ite h (.ite h.vlan h.vlan.saLookup)

theorem plan {i x m d echo} : Piped s₀ (s.plan i x m d echo).1 := by
  unfold State.plan
  extract_lets f r _ t g e
  have hg : Piped s₀ g.1 := h.identify.setFrm.streamStage
  have he : Piped s₀ e.1 := by
    unfold e
    split
    · exact hg.legDest
    · exact hg.ethDest
  clear_value e
  refine .iteFst h.identify.saAlone (.iteFst hg.saAlone ?_)
  split
  · exact he
  · exact he.policeFrm

theorem mirrorCopy {i d} : Piped s₀ (s.mirrorCopy i d) := by
  unfold State.mirrorCopy
  split
  · exact h.admitCopy
  · exact h

theorem stages {i x m d slot echo} : Piped s₀ (s.stages i x m d slot echo) := by
  unfold State.stages
  dsimp only
  split
  · exact h.plan.mirrorCopy.voidSlot
  · exact h.plan.mirrorCopy.stage7

theorem flow {i x m echo} : Piped s₀ (s.flow i x m echo) := by
  unfold State.flow
  dsimp only
  split
  · exact h.admitCopy
  · split
    · exact h.classify
    · split
      · exact h.classify.setFrm.mirrorCopy
      · split
        · exact h.classify.setFrm.sequence.mirrorCopy
        · exact h.classify.setFrm.sequence.stages

theorem vbMark : Piped s₀ s.vbMark := h.hwm

theorem setRx {p pre r} : Piped s₀ (s.setRx p pre r) := h.setPort

theorem growFrm {i orig} : Piped s₀ (s.growFrm i orig) := h.setFrm.storeFrm.marks

theorem creditFrm {i} : Piped s₀ (s.creditFrm i) := h.creditTail

theorem goodTail {i} : Piped s₀ (s.goodTail i) :=
  .ite h.setFrm.creditFrm.tailCharge.bump.foundBad (.ite h.setFrm.creditFrm.tailCharge.bump.foundBad (.ite
    h.setFrm.creditFrm.tailCharge.tailTooLong.sendEcho h.setFrm.creditFrm.tailCharge.tailTooLong))

theorem endRx {i} : Piped s₀ (s.endRx i) := h.setFrm

end Piped

/-- The state with the next classification ordinal taken. -/
def State.takeOrd (s : State) : State := { s with net := { s.net with ord := s.net.ord + 1 } }

/-- A frame that enters the pipeline takes one ordinal, and leaves the rest as the stages do. -/
theorem piped_ingest (s : State) (f : Frm) (echo : Option Nat) : Piped s.takeOrd (s.ingest f echo).1 := by
  unfold State.ingest
  extract_lets ep ord net s1 x s2 m s3 prio k f1 n
  have hm : Piped s.takeOrd m.1 := by
    have h2 : Piped s.takeOrd s2 := (Piped.refl s.takeOrd).bumpIf
    unfold m
    split
    · exact h2.mapProbe
    · exact h2
  have hn : Piped s.takeOrd n.1 := hm.newFrm
  clear_value n
  exact .pair hn.marks.flow.runtimeLearn.dropRef

end Sys2Proof.Machine
end

section
/-! ## The record of a frame in reception

A frame in reception is kept whatever refers to it (R167). `Carries i f s` says that record `i` of `s` is `f` but for the number of its
references; what becomes of the copies, slots and charges of frames leaves it so. -/

namespace Sys2Proof.Machine

open Sys2Proof

-- A default tactic waits for all proofs before it, so these are elaborated in their order.
set_option Elab.async false

variable {s t : State} {i : Nat} {f g : Frm}

theorem State.frm_setFrm (s : State) (j i : Nat) (f : Frm) : (s.setFrm j f).frm i =
    if i = j then (if f.refs = 0 ∧ !f.inRx then Frm.blank else f) else s.frm i := by
  unfold State.frm State.setFrm
  dsimp only
  split
  · rw [tblFind_del]
    split <;> rfl
  · rw [tblFind_put]
    split <;> rfl

theorem State.frm_setFrm_inRx (s : State) (i : Nat) (hf : f.inRx = true) : (s.setFrm i f).frm i = f := by
  rw [State.frm_setFrm, if_pos rfl, if_neg (by simp [hf])]

/-- Record `i` is `f` but for its references. -/
def Carries (i : Nat) (f : Frm) (s : State) : Prop := ∃ n, s.frm i = { f with refs := n }

theorem carries_frm (i : Nat) (s : State) : Carries i (s.frm i) s := ⟨_, rfl⟩

namespace Carries

theorem inRx (h : Carries i f s) : (s.frm i).inRx = f.inRx := by
  obtain ⟨n, e⟩ := h
  rw [e]

theorem bad (h : Carries i f s) : (s.frm i).bad = f.bad := by
  obtain ⟨n, e⟩ := h
  rw [e]

theorem tail (h : Carries i f s) : (s.frm i).tail = f.tail := by
  obtain ⟨n, e⟩ := h
  rw [e]

theorem ite {a b : State} {c : Prop} [Decidable c] (ha : Carries i f a) (hb : Carries i f b) : Carries i f (if c then a else b) := by
  split
  exacts [ha, hb]

theorem foldl {α : Type} {b : State → α → State} {l : List α} (h : Carries i f s)
    (hb : ∀ u a, Carries i f u → Carries i f (b u a)) : Carries i f (l.foldl b s) := List.foldlRecOn l b h fun u hu a _ => hb u a hu

/-- Anything but the frame records may change. -/
theorem frame (h : Carries i f s) (e : t.net.frames = s.net.frames := by rfl) : Carries i f t := by
  obtain ⟨n, hn⟩ := h
  exact ⟨n, by rw [← hn]; unfold State.frm; rw [e]⟩

variable (hf : f.inRx = true) (h : Carries i f s)
include h

theorem quiet (q : Quiet s t) : Carries i f t := h.frame (congrArg Net.frames q.net)

theorem memFill {m a lo n : Nat} : Carries i f (s.memFill m a lo n) :=
  ite (quiet h.frame (quiet_applyFlip ..)) h.frame

theorem storeFrm {cells : List Nat} {a b : Nat} : Carries i f (s.storeFrm cells a b) := h.foldl fun _ _ h1 => ite h1.memFill h1

theorem hwm {x : RegField} {j v : Nat} : Carries i f (s.hwm x j v) := ite h.frame h

theorem marks : Carries i f s.marks := hwm (hwm (foldl h.hwm.hwm fun _ _ h1 => h1.hwm))

theorem bump {c : Ctr} {j : Nat} : Carries i f (s.bump c j) := h.frame

theorem bumpIf {b : Bool} {c : Ctr} {j : Nat} : Carries i f (s.bumpIf b c j) := ite h.bump h

theorem setRx {p : Nat} {pre : Bool} {r : Option RxSt} : Carries i f (s.setRx p pre r) := h.frame

theorem emptied {q : Nat} : Carries i f (s.emptied q) := ite h.frame h

theorem setQueue {q : Nat} {l : List Copy} : Carries i f (s.setQueue q l) := h.frame

theorem fenceSweep : Carries i f s.fenceSweep := h.frame

theorem mapTx {b : TxCopy → TxCopy} : Carries i f (s.mapTx b) := h.foldl fun _ _ h1 => ite h1 h1.frame

theorem holdCtx {n : Nat} : Carries i f (s.holdCtx n) := by
  unfold State.holdCtx
  split
  · exact h
  · refine ite h.frame ?_
    split <;> exact h.frame

theorem creditTail {x : Frm} {n : Nat} : Carries i f (s.creditTail x n) := by
  unfold State.creditTail
  split
  · exact h
  · extract_lets d u
    have hu : Carries i f u := h.foldl fun _ _ h1 => ite h1.frame h1
    clear_value u
    split
    · exact ite hu.frame hu
    · exact hu

theorem creditFrm {j : Nat} : Carries i f (s.creditFrm j) := h.creditTail

theorem tailCharge {j : Nat} : Carries i f (s.tailCharge j) := mapTx (h.foldl fun _ _ h1 => ite h1.frame h1)

theorem emitPair {bs : List Byte} : Carries i f (s.emitPair bs) := ite h h.frame

theorem sendEcho {x : Frm} : Carries i f (s.sendEcho x) := by
  unfold State.sendEcho
  split
  · exact bump h.emitPair
  · exact h

omit h in
theorem setFrm (hf : f.inRx = true) {n : Nat} : Carries i f (s.setFrm i { f with refs := n }) := ⟨n, State.frm_setFrm_inRx s i hf⟩

include hf

theorem dropRef {j : Nat} : Carries i f (s.dropRef j) := by
  by_cases hij : i = j
  · subst hij
    obtain ⟨n, e⟩ := h
    unfold State.dropRef
    rw [e]
    exact setFrm hf
  · obtain ⟨n, e⟩ := h
    exact ⟨n, by rw [State.dropRef, State.frm_setFrm, if_neg hij, e]⟩

theorem dropWaiting {c : Option Ctr} {p : Copy → Bool} : Carries i f (s.dropWaiting c p) := by
  unfold State.dropWaiting
  refine fenceSweep (h.foldl fun _ _ h1 => ite h1 (foldl (emptied h1.setQueue) fun _ _ h2 => ?_))
  split
  · exact dropRef hf h2.bump
  · exact dropRef hf h2

theorem dropOuts {l : List SlotOut} : Carries i f (s.dropOuts l) := h.foldl fun _ _ h1 => dropRef hf h1

theorem voidSlot {n : Option Nat} : Carries i f (s.voidSlot n) := by
  unfold State.voidSlot State.slotTo
  split
  · split
    · exact h
    · exact holdCtx (dropOuts hf h.frame)
  · exact h

theorem dropDescs {j : Nat} : Carries i f (s.dropDescs j) :=
  h.foldl fun _ _ h1 => ite h1 (foldl h1.frame fun _ _ h2 => dropRef hf h2)

theorem tooLong {j : Nat} {too : State → Copy → Bool} {c : Option Ctr} : Carries i f (s.tooLong j too c) := by
  unfold State.tooLong
  refine mapTx (dropWaiting hf (h.foldl fun _ _ h1 => ?_))
  split <;> exact h1.bump

theorem tailTooLong {j : Nat} : Carries i f (s.tailTooLong j) := by
  unfold State.tailTooLong
  exact tooLong hf (tooLong hf h)

/-- A frame found bad is marked (R43), and its record otherwise kept. -/
theorem foundBad : Carries i { f with bad := true } (s.foundBad i) := by
  have hg : ({ f with bad := true } : Frm).inRx = true := hf
  obtain ⟨n, e⟩ := h
  have hset : Carries i { f with bad := true } (s.setFrm i { s.frm i with bad := true, refs := (s.frm i).refs + 1 }) := by
    rw [e]
    exact setFrm hg
  have hsame : (s.frm i).bad = true → Carries i { f with bad := true } s := fun hb => ⟨n, by rw [e] at hb ⊢; rw [← hb]⟩
  unfold State.foundBad
  dsimp only
  split
  · next hb => exact hsame hb
  · exact dropRef hg (voidSlot hg (dropDescs hg (mapTx (dropWaiting hg hset.bumpIf))))

/-- More bytes change what a record holds of the frame, and nothing else of it. -/
theorem growFrm {o : List Byte} : ∃ g, Carries i g (s.growFrm i o) ∧ g.inRx = f.inRx ∧ g.bad = f.bad ∧ g.tail = f.tail := by
  unfold State.growFrm
  extract_lets f0 k bytes f1 f2
  have hin : f2.inRx = true := h.inRx.trans hf
  have hset : Carries i f2 (s.setFrm i f2) := setFrm (n := f2.refs) hin
  exact ⟨f2, hset.storeFrm.marks, h.inRx, h.bad, h.tail⟩

end Carries

end Sys2Proof.Machine
end

section
/-! ## The end of a frame in the pipeline (R41 to R45) -/

namespace Sys2Proof.Machine

open Sys2Proof

variable {s : State}

/-! ### The checks -/

theorem crcRightBit_lt {poly r : Nat} (hp : poly < 2 ^ 32) (hr : r < 2 ^ 32) : crcRightBit poly r < 2 ^ 32 := by
  unfold crcRightBit
  split
  · exact Nat.xor_lt_two_pow (by omega) hp
  · omega

theorem crc32_lt (bs : List Byte) : crc32 bs < 2 ^ 32 := by
  refine Nat.xor_lt_two_pow ?_ (by decide)
  refine List.foldlRecOn (motive := fun r => r < 2 ^ 32) bs _ (by decide) fun r hr b _ => ?_
  refine List.foldlRecOn (motive := fun r => r < 2 ^ 32) _ _ ?_ fun r hr _ _ => crcRightBit_lt (by decide) hr
  exact Nat.xor_lt_two_pow hr (Nat.lt_of_lt_of_le b.isLt (by decide))

/-- A frame with the right FCS fails the tests of R41 by its length alone. -/
theorem rxFault_goodFcs {maxLen : Nat} {bs : List Byte} : rxFault maxLen false bs ⟨false, BitVec.ofNat 32 (crc32 bs)⟩ =
    if maxLen < bs.length + 4 then some .macDropOversize else if bs.length + 4 < 64 then some .macDropRunt else none := by
  have hfcs : (BitVec.ofNat 32 (crc32 bs)).toNat = crc32 bs := by
    rw [BitVec.toNat_ofNat, Nat.mod_eq_of_lt (crc32_lt bs)]
  simp [rxFault, hfcs]

/-! ### The end of reception -/

theorem State.endRx_frm (s : State) (i : Nat) : ((s.endRx i).frm i).inRx = false ∧
    (((s.endRx i).frm i).refs ≠ 0 → ((s.endRx i).frm i).tail = (s.frm i).tail) := by
  unfold State.endRx
  rw [State.frm_setFrm, if_pos rfl]
  split
  · exact ⟨rfl, fun hr => absurd rfl hr⟩
  · exact ⟨rfl, fun _ => rfl⟩

/-- The tail of a good frame stays with its record, whether or not the frame proves too long. -/
theorem Carries.goodTail {i : Nat} {f : Frm} (hf : f.inRx = true) (h : Carries i f s) : ((s.goodTail i).frm i).tail = true := by
  have ht : ({ f with tail := true } : Frm).inRx = true := hf
  unfold State.goodTail
  extract_lets f0 u g x m alive w
  have hu : Carries i { f with tail := true } u := by
    refine creditFrm ?_ |>.tailCharge
    obtain ⟨n, e⟩ := h
    rw [show f0 = { f with refs := n } from e]
    exact setFrm (f := { f with tail := true }) ht
  clear_value u
  have hw : Carries i { f with tail := true } w := tailTooLong ht hu
  split
  · exact (foundBad ht hu.bump).tail
  · split
    · exact (foundBad ht hu.bump).tail
    · exact tail (ite hw.sendEcho hw)

section Tail

variable {p i : Nat} {pre : Bool} {r : RxSt} {rest : List Byte}

/-- The state in which the end of frame `i` meets its checks: its last bytes are stored. -/
def State.lastBytes (s : State) (p : Nat) (pre : Bool) (i : Nat) (bytes : List Byte) : State :=
  let u := (s.setRx p pre none).growFrm i bytes
  u.setFrm i { u.frm i with sec := 0 }

/-- What the checks of R41 make of frame `i` at its end: it fails one and is found bad, or it is good. -/
def State.afterChecks (s : State) (p i : Nat) : Option Ctr → State
  | some c => ((((s.bump c p).creditFrm i).tailCharge i).foundBad i).endRx i
  | none => (s.goodTail i).endRx i

/-- A frame that fails a check is counted once, under the cause that it fails. -/
theorem State.afterChecks_count (s : State) (p i : Nat) {c : Ctr} (hc : c ∈ rxCtrs) :
    (s.afterChecks p i (some c)).ctr c p = s.ctr c p + 1 := by
  have h : Piped (s.bump c p) (s.afterChecks p i (some c)) := (Piped.refl (s.bump c p)).creditFrm.tailCharge.foundBad.endRx
  rw [h.ctr c hc, State.ctr_bump, if_pos ⟨rfl, rfl⟩]

theorem State.lastBytes_piped (bytes : List Byte) : Piped s (s.lastBytes p pre i bytes) := (Piped.refl s).setRx.growFrm.setFrm

theorem State.lastBytes_carries (bytes : List Byte) (hf : (s.frm i).inRx = true) :
    ∃ f, f.inRx = true ∧ Carries i f (s.lastBytes p pre i bytes) := by
  obtain ⟨f, ⟨n, e⟩, hin, -⟩ := Carries.growFrm (o := bytes) hf ((carries_frm i s).setRx (p := p) (pre := pre) (r := none))
  refine ⟨{ f with sec := 0 }, hin.trans hf, ?_⟩
  unfold State.lastBytes
  dsimp only
  rw [e]
  exact Carries.setFrm (f := { f with sec := 0 }) (hin.trans hf)

variable (hr : (s.port p).reception pre = some r) (hi : r.frm = some i) (hp : r.past = false) (hs : r.strip = none)
  (hg : r.frags = 0)
include hr hi hp hs hg

/-- The end of a frame whose lookup has begun: its last bytes are stored, and the checks decide. -/
theorem State.rxEnd_of_frm (t : RxTail) : s.rxEnd p pre rest t =
    (s.lastBytes p pre i ((r.got ++ rest).take r.maxLen)).afterChecks p i (rxFault r.maxLen false (r.got ++ rest) t) := by
  unfold State.rxEnd
  split
  · next e => cases hr.symm.trans e
  · next r' e =>
    obtain rfl : r = r' := Option.some.inj (hr.symm.trans e)
    extract_lets whole u fault v _ o
    have hv : v = u := by simp [v, hg, State.bumpIf]
    have hfault : fault = rxFault r.maxLen false whole t := congrArg (rxFault r.maxLen · whole t) hp
    clear_value v fault
    subst hv hfault
    split
    · next e => cases hi.symm.trans e
    · next i' e =>
      obtain rfl : i = i' := Option.some.inj (hi.symm.trans e)
      extract_lets w f x
      have ho : o = whole.take r.maxLen := by simp [o, RxSt.frameBytes, hs]
      have hw : w = u.growFrm i (whole.take r.maxLen) := by rw [← ho]; exact if_neg (by simp [hp])
      have hx : x = s.lastBytes p pre i (whole.take r.maxLen) := by
        unfold State.lastBytes
        rw [← hw]
        simp [x, f, hs]
      rw [hx]
      rfl

end Tail

/-- Settles O26: its bytes are stored and its checks decide; the record is kept through all that the frame leaves behind. -/
theorem frameEndsInThePipeline : Obligations.FrameEndsInThePipeline := by
  intro s p pre r i rest hr hi hp hin hbad hs hg
  refine ⟨fun hlen => ?_, ?_, fun hmax hmin => ?_⟩
  · refine ⟨_, rfl, ?_⟩
    have e : s.rxOversize p pre rest = ((s.setRx p pre (some { r with past := true, got := (r.got ++ rest).take r.maxLen })).growFrm i
        (r.frameBytes ((r.got ++ rest).take r.maxLen))).foundBad i := by
      have hshort : ¬r.got.length + rest.length < r.maxLen := by simpa using hlen
      simp [State.rxOversize, hr, hi, hp, hshort]
    rw [e]
    obtain ⟨f, hf, hfin, -⟩ := Carries.growFrm (o := r.frameBytes ((r.got ++ rest).take r.maxLen)) hin
      ((carries_frm i s).setRx (p := p) (pre := pre) (r := some { r with past := true, got := (r.got ++ rest).take r.maxLen }))
    have ht := Carries.foundBad (hfin.trans hin) hf
    exact ⟨ht.bad, ht.inRx.trans (hfin.trans hin), ((Piped.refl s).setRx.growFrm.foundBad).ord⟩
  · refine ⟨_, rfl, ?_⟩
    rw [State.rxEnd_of_frm hr hi hp hs hg, rxFault_err]
    have hu := State.lastBytes_piped (s := s) (p := p) (pre := pre) (i := i) ((r.got ++ rest).take r.maxLen)
    generalize s.lastBytes p pre i ((r.got ++ rest).take r.maxLen) = u at hu ⊢
    exact ⟨(State.afterChecks_count u p i (by decide)).trans (by rw [hu.ctr _ (by decide)]), (State.endRx_frm _ i).1⟩
  · refine ⟨_, rfl, ?_⟩
    rw [State.rxEnd_of_frm hr hi hp hs hg, rxFault_goodFcs, if_neg (by omega), if_neg (by omega)]
    have hu := State.lastBytes_piped (s := s) (p := p) (pre := pre) (i := i) ((r.got ++ rest).take r.maxLen)
    obtain ⟨f, hf, hc⟩ := State.lastBytes_carries (s := s) (p := p) (pre := pre) ((r.got ++ rest).take r.maxLen) hin
    generalize s.lastBytes p pre i ((r.got ++ rest).take r.maxLen) = u at hu hc ⊢
    have hend := State.endRx_frm (u.goodTail i) i
    exact ⟨hend.1, fun hrefs => (hend.2 hrefs).trans (hc.goodTail hf), fun c hcs => (hu.goodTail.endRx).ctr c hcs p⟩

end Sys2Proof.Machine
end

section
/-! ## What has been sent stays sent -/

namespace Sys2Proof.Machine

open Sys2Proof

variable {s : State} {o : Out}

/-- The device has sent `o`. -/
def Sent (o : Out) (s : State) : Prop := o ∈ s.out

namespace Sent

theorem ite {a b : State} {c : Prop} [Decidable c] (ha : Sent o a) (hb : Sent o b) : Sent o (if c then a else b) := by
  split
  exacts [ha, hb]

theorem iteFst {α : Type} {a b : State × α} {c : Prop} [Decidable c] (ha : Sent o a.1) (hb : Sent o b.1) :
    Sent o (if c then a else b).1 := by
  split
  exacts [ha, hb]

variable (h : Sent o s)
include h

theorem frame {pending now free phys op prevOp cause leftOp regs ctrs hold stage tim hbr mqs mem pwr boot mram flash win pair red net
    keys} : Sent o ⟨pending, now, free, s.out, phys, op, prevOp, cause, leftOp, regs, ctrs, hold, stage, tim, hbr, mqs, mem, pwr, boot,
      mram, flash, win, pair, red, net, keys⟩ := h

theorem emit {x : Out} : Sent o (s.emit x) := List.mem_cons_of_mem _ h

theorem setBall {b : Nat} {l : Bool} : Sent o (s.setBall b l) := ite h h

theorem settle : Sent o s.settle := h.setBall.setBall.setBall

theorem setFld {f : RegField} {i v : Nat} : Sent o (s.setFld f i v) := h

theorem wr {q : Reg} {i : Nat} {w : Word} : Sent o (s.wr q i w) := h

theorem bump {c : Ctr} {i : Nat} : Sent o (s.bump c i) := h

theorem setMemErr {m a b : Nat} {e : Option (WordErr × Nat)} : Sent o (s.setMemErr m a b e) := h

theorem applyFlip {m a b enc : Nat} : Sent o (s.applyFlip m a b enc) := bump (setFld (setMemErr h))

theorem memWrite {m a b : Nat} : Sent o (s.memWrite m a b) := ite h.setMemErr.frame.applyFlip h.setMemErr.frame

theorem bumpIf {b : Bool} {c : Ctr} {i : Nat} : Sent o (s.bumpIf b c i) := ite h.bump h

theorem mqAppend {k : Nat} {it : MqItem} : Sent o (s.mqAppend k it) := h.memWrite.memWrite.frame

theorem mqPostCore {k : Nat} {it : MqItem} : Sent o (s.mqPostCore k it).1 :=
  iteFst h (iteFst (iteFst (frame (mqAppend h.bumpIf.bumpIf.frame)) h.frame) h.mqAppend.frame)

theorem logOrder {k : Nat} : Sent o (s.logOrder k) := by
  unfold State.logOrder
  dsimp only
  split
  · exact ite h.frame h
  · exact h

theorem riseLog {src : Nat} : Sent o (s.riseLog src).1 := iteFst h.mqPostCore.logOrder h

theorem vecRequest {v : Nat} : Sent o (s.vecRequest v) := ite h.frame h.emit

theorem riseNotify {src : Nat} : Sent o (s.riseNotify src) := ite (vecRequest (ite h.emit h)) (ite h.emit h)

theorem sendStatus : Sent o s.sendStatus := ite h.frame h.emit

theorem setRole {r : Role} : Sent o (s.setRole r) := ite h (ite h.frame.sendStatus h.frame)

theorem enterSafe {ss : SafeSt} : Sent o (s.enterSafe ss) := ite h.frame h.frame.setRole

theorem faultCore {code sub : Nat} : Sent o (s.faultCore code sub) := by
  unfold State.faultCore
  extract_lets ss now old _ s1 s2 s3 s4 s5 s6
  have h2 : Sent o s2 := bump (setBall (ite h h.frame))
  have h4 : Sent o s4 := h2.wr.wr
  have h5 : Sent o s5 := ite h2.setFld.setFld h2
  have h6 : Sent o s6 := ite h4.wr (ite h5.setFld h2)
  exact h6.enterSafe

theorem rise {src : Nat} : Sent o (s.rise src).1 := by
  unfold State.rise
  extract_lets x u
  have hx : Sent o x.1 := h.wr.riseLog
  exact iteFst hx.riseNotify.faultCore hx.riseNotify

theorem raiseFuel {n : Nat} {l : List Nat} : Sent o (State.raiseFuel n s l) := by
  induction n generalizing s l with
  | zero => exact h
  | succ n ih =>
    cases l with
    | nil => exact h
    | cons src rest =>
      unfold State.raiseFuel
      exact ite (ih h) (ih h.rise)

theorem raise {src : Nat} : Sent o (s.raise src) := h.raiseFuel.settle

end Sent

end Sys2Proof.Machine
end

section
/-! ## Fragments and held frames (R241, R277, R279) -/

namespace Sys2Proof.Machine

open Sys2Proof

variable {s t : State} {p : Nat} {pre : Bool} {r : RxSt}

/-! ### Ports and marks -/

theorem State.port_setPort (s : State) (p : Nat) (x : PortSt) : (s.setPort p x).port p = x := tblGet_set_same ..

theorem State.reception_setRx (s : State) (p : Nat) (pre : Bool) (r : Option RxSt) :
    ((s.setRx p pre r).port p).reception pre = r := by
  unfold State.setRx
  rw [State.port_setPort]
  cases pre <;> rfl

@[simp] theorem State.hwm_net (s : State) (f : RegField) (i v : Nat) : (s.hwm f i v).net = s.net := by
  unfold State.hwm
  split <;> rfl

@[simp] theorem State.hwm_ctrs (s : State) (f : RegField) (i v : Nat) : (s.hwm f i v).ctrs = s.ctrs := by
  unfold State.hwm
  split <;> rfl

/-- The registers of the high-water marks of the packet buffer (R177). -/
def markRegs : List Reg := [.qmgPoolHwm, .qmgSharedHwm, .qmgPortHwm, .hrbHwm]

/-- `t` has the switching side and the counters of `s`, and its registers but for `markRegs`. -/
structure Marked (s t : State) : Prop where
  net : t.net = s.net
  ctrs : t.ctrs = s.ctrs
  rd : regsBut markRegs s t

theorem Marked.hwm {f : RegField} {i v : Nat} (h : Marked s t) (hf : f.reg ∈ markRegs := by decide) : Marked s (t.hwm f i v) where
  net := (State.hwm_net ..).trans h.net
  ctrs := (State.hwm_ctrs ..).trans h.ctrs
  rd q j hq := by
    unfold State.hwm
    split
    · exact (State.rd_wr_reg _ _ _ _ _ _ fun (e : q = f.reg) => hq (e ▸ hf)).trans (h.rd q j hq)
    · exact h.rd q j hq

theorem marked_marks (s : State) : Marked s s.marks :=
  have h : Marked s s := ⟨rfl, rfl, fun _ _ _ => rfl⟩
  .hwm (.hwm (List.foldlRecOn (motive := Marked s) _ _ h.hwm.hwm fun _ h1 _ _ => h1.hwm))

/-! ### Fragments (R241) -/

/-- More bytes of a frame before its lookup, within its largest length: they wait, or its lookup starts. -/
theorem State.rxMore_of_none {more : List Byte} (hr : (s.port p).reception pre = some r) (hf : r.frm = none) (hp : r.past = false)
    (hmax : (r.got ++ more).length ≤ r.maxLen) (hne : more ≠ []) : s.rxMore p pre more =
      if r.hold.isSome || r.gone then (s.setRx p pre (some { r with got := r.got ++ more })).marks
      else s.rxArrive p pre { r with got := r.got ++ more } := by
  have hlong : decide (r.maxLen < (r.got ++ more).length) = false := by simpa using hmax
  have hn : ({ r with got := (r.got ++ more).take r.maxLen, past := decide (r.maxLen < (r.got ++ more).length) } : RxSt) =
      { r with got := r.got ++ more } := by rw [List.take_of_length_le hmax, hlong, ← hp]
  have hgo : (r.past || more.isEmpty) = false := by simp [hp, hne]
  unfold State.rxMore
  split
  · next e => cases hr.symm.trans e
  · next r' e =>
    obtain rfl : r = r' := Option.some.inj (hr.symm.trans e)
    rw [if_neg (by simp [hgo])]
    dsimp only
    split
    · next e => cases hf.symm.trans e
    · rw [hn, hlong]
      rfl

/-- Bytes that leave a frame short of its lookup wait in its reception. -/
theorem State.rxMore_short {more : List Byte} (hr : (s.port p).reception pre = some r) (hf : r.frm = none) (hp : r.past = false)
    (hlen : (r.got ++ more).length < 128) (hmax : (r.got ++ more).length ≤ r.maxLen) :
    ((s.rxMore p pre more).port p).reception pre = some { r with got := r.got ++ more } ∧ (s.rxMore p pre more).ctrs = s.ctrs ∧
      regsBut markRegs s (s.rxMore p pre more) := by
  by_cases hne : more = []
  · subst hne
    have e : s.rxMore p pre [] = s := by
      unfold State.rxMore
      rw [hr]
      exact if_pos (Bool.or_true _)
    rw [e, List.append_nil]
    exact ⟨hr, rfl, fun _ _ _ => rfl⟩
  · have e : s.rxMore p pre more = (s.setRx p pre (some { r with got := r.got ++ more })).marks := by
      rw [State.rxMore_of_none hr hf hp hmax hne]
      split
      · rfl
      · exact if_pos (.inl hlen)
    have hm := marked_marks (s.setRx p pre (some { r with got := r.got ++ more }))
    rw [e]
    refine ⟨?_, hm.ctrs, hm.rd⟩
    unfold State.port
    rw [hm.net]
    exact State.reception_setRx s p pre _

/-! ### Into the pipeline -/

theorem State.ingest_number (s : State) {f : Frm} (echo : Option Nat) (hf : f.leg = none) : (s.ingest f echo).2 = s.net.nextF := by
  unfold State.ingest
  rw [hf]
  show (State.bumpIf _ _ _ _).net.nextF = _
  rw [State.bumpIf_net]

/-- A frame that no SecY checks enters the pipeline, with the next number and the next ordinal. -/
theorem State.rxEnter_clear (r : RxSt) (bs : List Byte) (whole : Bool) (ahead : Nat) (h : s.secyRx p = false) :
    Piped s.takeOrd (s.rxEnter p r bs whole ahead).1 ∧
      (s.rxEnter p r bs whole ahead).2 = { r with got := bs, frm := some s.net.nextF } := by
  have e : s.rxEnter p r bs whole ahead = ((s.ingest (s.rxFrm p r bs 0 false whole bs) none).1,
      { r with got := bs, frm := some (s.ingest (s.rxFrm p r bs 0 false whole bs) none).2 }) := by
    unfold State.rxEnter
    rw [h]
    rfl
  rw [e, State.ingest_number s none rfl]
  exact ⟨piped_ingest s _ none, rfl⟩

/-- The 128th byte of a frame in reception starts its lookup (R34). -/
theorem State.rxArrive_lookup (pre : Bool) (h128 : 128 ≤ r.got.length) (hpair : s.pairOn p = false) (hsecy : s.secyRx p = false) :
    (s.rxArrive p pre r).net.ord = s.net.ord + 1 ∧
      ((s.rxArrive p pre r).port p).reception pre = some { r with frm := some s.net.nextF } := by
  obtain ⟨hpiped, hrx⟩ := State.rxEnter_clear r r.got false 16 hsecy
  unfold State.rxArrive
  rw [if_neg (by simp [hpair]; omega)]
  dsimp only
  rw [hrx]
  constructor
  · exact hpiped.setRx.vbMark.ord
  · unfold State.port State.vbMark
    rw [State.hwm_net]
    exact State.reception_setRx _ p pre _

/-! ### A broken reassembly (R241) -/

theorem State.rxBroken_of_none (hr : (s.port p).reception pre = some r) (hf : r.frm = none) (rest : List Byte) :
    s.rxBroken p pre rest = (s.setRx p pre none).bump .macDropRxerr p := by
  unfold State.rxBroken State.rxEnd
  split
  · next e => cases hr.symm.trans e
  · next r' e =>
    obtain rfl : r = r' := Option.some.inj (hr.symm.trans e)
    rw [hf]
    simp only [rxFault_err, Option.isNone_some, Bool.and_false, State.bumpIf, Bool.false_eq_true, if_false, State.rxWhole_err, ite_self]

/-- A reassembly that fails before its lookup ends, with an assembly error and a receive error. -/
theorem State.assyErr_spec (hr : (s.port p).rxp = some r) (hf : r.frm = none) : ((s.assyErr p).port p).rxp = none ∧
    (s.assyErr p).ctr .tgaRxAssyErr p = s.ctr .tgaRxAssyErr p + 1 ∧ (s.assyErr p).ctr .macDropRxerr p = s.ctr .macDropRxerr p + 1 := by
  have e : s.assyErr p = ((s.bump .tgaRxAssyErr p).setRx p true none).bump .macDropRxerr p :=
    State.rxBroken_of_none (s := s.bump .tgaRxAssyErr p) (pre := true) hr hf []
  have hc (c : Ctr) : ((s.bump .tgaRxAssyErr p).setRx p true none).ctr c p = (s.bump .tgaRxAssyErr p).ctr c p := rfl
  rw [e]
  exact ⟨State.reception_setRx _ p true none, by simp [State.ctr_bump, hc], by simp [State.ctr_bump, hc]⟩

/-! ### Reads of a memory without errors -/

theorem State.flushWord_clean (h : s.memClean = true) (mem inst addr : Nat) : s.flushWord mem inst addr = s := by
  obtain ⟨-, hm⟩ : s.mem.errs = [] ∧ s.mem.merge = [] := by simpa [State.memClean] using h
  have e : ({ s with mem := { s.mem with merge := [] } } : State) = s := by rw [← hm]
  unfold State.flushWord State.flushWhere
  simp only [hm, List.filter_nil, List.foldl_nil]
  exact e

theorem State.memErr_clean (h : s.memClean = true) (mem inst addr : Nat) : s.memErr mem inst addr = none := by
  obtain ⟨he, -⟩ : s.mem.errs = [] ∧ s.mem.merge = [] := by simpa [State.memClean] using h
  unfold State.memErr
  rw [he]
  rfl

theorem State.memRead_clean (h : s.memClean = true) (mem inst addr source : Nat) :
    s.memRead mem inst addr .none source = (s, false) := by
  unfold State.memRead
  rw [State.flushWord_clean h]
  dsimp only
  rw [State.memErr_clean h]
  rfl

/-- `t` has the switching side of `s`, and its counters but for those of events and of bad words. -/
structure BadWord (s t : State) : Prop where
  net : t.net = s.net
  ctr : ∀ c i, c ∉ eventCtrs ++ [.memUe, .memPoisonUse] → t.ctr c i = s.ctr c i

theorem BadWord.trans {u : State} (h : BadWord s t) (k : BadWord t u) : BadWord s u :=
  ⟨k.net.trans h.net, fun c i hc => (k.ctr c i hc).trans (h.ctr c i hc)⟩

theorem BadWord.wr {q : Reg} {i : Nat} {w : Word} (h : BadWord s t) : BadWord s (t.wr q i w) := h.trans ⟨rfl, fun _ _ _ => rfl⟩

theorem BadWord.logUe {type mem inst addr synd source : Nat} (h : BadWord s t) :
    BadWord s (t.logUe type mem inst addr synd source) := by
  unfold State.logUe
  split
  · exact h
  · exact h.wr.wr.wr.wr

theorem BadWord.bump {c : Ctr} {i : Nat} (h : BadWord s t) (hc : c ∈ eventCtrs ++ [.memUe, .memPoisonUse]) : BadWord s (t.bump c i) :=
  h.trans ⟨rfl, fun c' j hc' => (State.ctr_bump t c c' i j).trans (if_neg fun ⟨e, _⟩ => hc' (e ▸ hc))⟩

theorem BadWord.quiet {u : State} (h : BadWord s t) (q : Quiet t u) : BadWord s u :=
  h.trans ⟨q.net, fun c i hc => q.ctr c i (mt (List.mem_append_left _) hc)⟩

theorem State.saFail_other (s : State) {mem : Nat} (addr : Nat) (h : mem ≠ 9) : s.saFail mem addr = s := if_pos (.inl h)

theorem State.keyFail_other (s : State) {mem : Nat} (addr : Nat) (h : mem ≠ 10) : s.keyFail mem addr = s :=
  if_neg fun e => h e.1

/-- A word that two flips hit reads as poisoned (R359). -/
theorem State.memRead_double (h : s.memClean = true) {mem : Nat} (inst addr source : Nat) (y : Byte) (h9 : mem ≠ 9) (h10 : mem ≠ 10) :
    (s.memRead mem inst addr (.double y) source).2 = true ∧ BadWord s (s.memRead mem inst addr (.double y) source).1 := by
  unfold State.memRead
  rw [State.flushWord_clean h]
  dsimp only
  rw [State.memErr_clean h]
  have hs : BadWord s (s.setMemErr mem inst addr (some (.poison, 255))) := ⟨rfl, fun _ _ _ => rfl⟩
  by_cases hy : y = 255
  · simp only [errFound, hy, if_true]
    refine ⟨trivial, ?_⟩
    unfold State.poisonRead
    rw [State.keyFail_other _ _ h10, State.saFail_other _ _ h9]
    exact (hs.bump (by decide)).logUe
  · simp only [errFound, hy, if_false]
    refine ⟨trivial, ?_⟩
    unfold State.uncorrectable
    dsimp only
    rw [State.keyFail_other _ _ h10, State.saFail_other _ _ h9]
    exact (hs.bump (by decide)).logUe.quiet (quiet_raise ..)

/-! ### The verify hold (R277, R279) -/

section Held

variable {h : HeldFrm} {rest : List HeldFrm} (hh : (s.port p).held = h :: rest) (hc : s.memClean = true)
include hh hc

/-- A held frame with a bad word is dropped, and the word is written anew. -/
theorem State.icvDone_poisoned (addr : Nat) (y : Byte) : ((s.icvDone p addr (.double y)).port p).held = rest ∧
    (s.icvDone p addr (.double y)).ctr .cipVbPoison 0 = s.ctr .cipVbPoison 0 + 1 ∧
    (s.icvDone p addr (.double y)).net.ord = s.net.ord := by
  have hc' : (s.setPort p { s.port p with held := rest }).memClean = true := hc
  obtain ⟨hbad, hm⟩ := State.memRead_double hc' (mem := 1) 0 addr 0 y (by decide) (by decide)
  have hq := hm.quiet (quiet_memWrite _ 1 0 addr)
  have e : s.icvDone p addr (.double y) =
      (((s.setPort p { s.port p with held := rest }).memRead 1 0 addr (.double y) 0).1.memWrite 1 0 addr).bump .cipVbPoison := by
    unfold State.icvDone
    rw [hh]
    exact if_pos hbad
  rw [e]
  generalize (State.memWrite _ _ _ _ : State) = u at hq ⊢
  refine ⟨?_, ?_, (congrArg Net.ord hq.net : u.net.ord = _)⟩
  · unfold State.port
    rw [State.bump_net, hq.net]
    exact congrArg PortSt.held (State.port_setPort s p _)
  · rw [State.ctr_bump, if_pos ⟨rfl, rfl⟩, hq.ctr _ _ (by decide)]
    rfl

/-- A held frame enters the pipeline when its check passes it. -/
theorem State.icvDone_ord {x : Nat × Nat × List Byte} (hx : h.rx.hold = some x) : (s.icvDone p 0 .none).net.ord =
    if ((s.setPort p { s.port p with held := rest }).secyCheck p x.1 x.2.1 x.2.2 h.bytes).2.isSome then s.net.ord + 1
    else s.net.ord := by
  have hs : Piped s (s.setPort p { s.port p with held := rest }) := (Piped.refl s).setPort
  have hc' : (s.setPort p { s.port p with held := rest }).memClean = true := hc
  unfold State.icvDone
  rw [hh]
  dsimp only
  rw [State.memRead_clean hc', hx]
  dsimp only
  generalize s.setPort p { s.port p with held := rest } = u at hs ⊢
  have hk : Piped s (u.secyCheck p x.1 x.2.1 x.2.2 h.bytes).1 := hs.secyCheck
  rw [if_neg Bool.false_ne_true]
  split
  · next e => rw [e]; exact hk.ord
  · next o e => rw [e]; exact (piped_ingest _ _ none).ord.trans (congrArg (· + 1) hk.ord)

end Held

end Sys2Proof.Machine
end

section
/-! ## The frames of the control pair and of the transmit rings (R41, R441, R443) -/

namespace Sys2Proof.Machine

open Sys2Proof

variable {s : State} {p : Nat}

/-! ### Frames from inside (R41, R206) -/

/-- A frame from inside within its limits enters the pipeline. -/
theorem State.rxInside_good (ts : Bool) {bs : List Byte} (hsecy : s.secyRx p = false) (hmin : 64 ≤ bs.length + 4)
    (hmax : bs.length + 4 ≤ s.fld F.macMaxFrame_max_len p) : Piped s.takeOrd (s.rxInside p ts bs) := by
  unfold State.rxInside
  extract_lets r
  have hfault : rxFault r.maxLen false bs ⟨false, BitVec.ofNat 32 (crc32 bs)⟩ = none :=
    rxFault_goodFcs.trans ((if_neg (Nat.not_lt.mpr hmax)).trans (if_neg (Nat.not_lt.mpr hmin)))
  rw [hfault]
  exact (State.rxEnter_clear r bs true 16 hsecy).1.vbMark

theorem State.rxInside_runt (ts : Bool) {bs : List Byte} (hmin : bs.length + 4 < 64)
    (hmax : bs.length + 4 ≤ s.fld F.macMaxFrame_max_len p) : s.rxInside p ts bs = s.bump .macDropRunt p := by
  unfold State.rxInside
  extract_lets r
  have hfault : rxFault r.maxLen false bs ⟨false, BitVec.ofNat 32 (crc32 bs)⟩ = some .macDropRunt :=
    rxFault_goodFcs.trans ((if_neg (Nat.not_lt.mpr hmax)).trans (if_pos hmin))
  rw [hfault]

/-! ### The write-back of a transmit frame (R440, R441) -/

theorem State.foldl_emit {α : Type} (g : α → Out) (l : List α) (s : State) :
    l.foldl (fun s a => s.emit (g a)) s = { s with out := (l.map g).reverse ++ s.out } := by
  induction l generalizing s with
  | nil => rfl
  | cons a l ih => rw [List.foldl_cons, ih]; simp [State.emit]

/-- The head that a transmit ring advances to. -/
theorem State.fld_ringAdvance {r k : Nat} (hen : s.on F.hbrTxRingCfg_en r = true) (hlog : s.fld F.hbrTxRingCfg_size_log r ≤ 12) :
    (s.ringAdvance false r k).fld F.hbrTxRingHead_head r =
      (s.fld F.hbrTxRingHead_head r + k) % 2 ^ s.fld F.hbrTxRingCfg_size_log r := by
  have hpow : 2 ^ s.fld F.hbrTxRingCfg_size_log r ≤ 2 ^ 12 := Nat.pow_le_pow_right (by decide) hlog
  have hlt := Nat.mod_lt (s.fld F.hbrTxRingHead_head r + k) (Nat.two_pow_pos (s.fld F.hbrTxRingCfg_size_log r))
  have e : s.ringAdvance false r k = s.setFld F.hbrTxRingHead_head r
      ((s.fld F.hbrTxRingHead_head r + k) % 2 ^ s.fld F.hbrTxRingCfg_size_log r) := if_pos hen
  rw [e, State.fld_setFld_same _ _ _ _ (by decide) (by decide)]
  exact Nat.mod_eq_of_lt (Nat.lt_of_lt_of_le hlt hpow)

theorem State.ringAdvance_net (s : State) (rx : Bool) (r k : Nat) : (s.ringAdvance rx r k).net = s.net := by
  unfold State.ringAdvance
  extract_lets m f
  exact (apply_ite State.net ..).trans (ite_self _)

theorem State.ringAdvance_ctr (s : State) (rx : Bool) (r k : Nat) (c : Ctr) (i : Nat) :
    (s.ringAdvance rx r k).ctr c i = s.ctr c i := by
  unfold State.ringAdvance
  extract_lets m f
  exact (apply_ite (State.ctr · c i) ..).trans (ite_self _)

theorem Sent.ringAdvance {o : Out} {rx : Bool} {r k : Nat} (h : Sent o s) : Sent o (s.ringAdvance rx r k) := ite h.setFld h

theorem Sent.stopRing {o : Out} {rx : Bool} {r : Nat} (h : Sent o s) : Sent o (s.stopRing rx r) := ite h.setFld.setFld h.setFld.setFld

/-- The descriptors of a frame are written back to transmit ring `r`: the last of the `n` carries `status`, and the switching side
and the counters but for those of events are as before. -/
structure WrittenBack (r n status : Nat) (s t : State) : Prop where
  net : t.net = s.net
  ctr : ∀ c i, c ∉ eventCtrs → t.ctr c i = s.ctr c i
  last : Sent (.txDesc r ((s.fld F.hbrTxRingHead_head r + n - 1) % 2 ^ s.fld F.hbrTxRingCfg_size_log r) (some status)) t

/-- The last descriptor of a frame carries its status. -/
theorem State.txDone_spec {r n : Nat} (status : Nat) (hn : 0 < n) : WrittenBack r n status s (s.txDone r n status) := by
  unfold State.txDone
  extract_lets h m u
  have hu : u = { s with out := _ ++ s.out } := State.foldl_emit _ _ s
  have hnet : (u.ringAdvance false r n).net = s.net := (State.ringAdvance_net ..).trans (hu ▸ rfl)
  have hctr (c : Ctr) (i : Nat) : (u.ringAdvance false r n).ctr c i = s.ctr c i := (State.ringAdvance_ctr ..).trans (hu ▸ rfl)
  have hq := quiet_raise (u.ringAdvance false r n) (Ev.dmaTx r)
  have hlast : Sent (.txDesc r ((h + n - 1) % m) (some status)) u := by
    rw [hu]
    refine List.mem_append_left _ (List.mem_reverse.mpr (List.mem_map.mpr ⟨n - 1, by simpa using hn, ?_⟩))
    rw [if_pos (by omega), Nat.add_sub_assoc hn]
  exact ⟨hq.net.trans hnet, fun c i hc => (hq.ctr c i hc).trans (hctr c i), hlast.ringAdvance.raise⟩

/-- The head passes the descriptors of a frame. -/
theorem State.txDone_head {r n : Nat} (status : Nat) (hen : s.on F.hbrTxRingCfg_en r = true)
    (hlog : s.fld F.hbrTxRingCfg_size_log r ≤ 12) : (s.txDone r n status).fld F.hbrTxRingHead_head r =
      (s.fld F.hbrTxRingHead_head r + n) % 2 ^ s.fld F.hbrTxRingCfg_size_log r := by
  unfold State.txDone
  extract_lets h m u
  have hu : u = { s with out := _ ++ s.out } := State.foldl_emit _ _ s
  have hfld : ((u.ringAdvance false r n).raise (Ev.dmaTx r)).fld F.hbrTxRingHead_head r =
      (u.ringAdvance false r n).fld F.hbrTxRingHead_head r :=
    congrArg (getBits · _ _) ((quiet_raise (u.ringAdvance false r n) (Ev.dmaTx r)).rd _ r (by decide))
  rw [hfld, hu]
  exact State.fld_ringAdvance hen hlog

/-! ### Fetches (R441, R443) -/

theorem State.stopRing_net (s : State) (rx : Bool) (r : Nat) : (s.stopRing rx r).net = s.net := by
  cases rx
  · exact (State.setFld_net ..).trans (State.setFld_net ..)
  · exact (State.setFld_net ..).trans (State.setFld_net ..)

theorem State.stopRing_ctr (s : State) (rx : Bool) (r : Nat) (c : Ctr) (i : Nat) : (s.stopRing rx r).ctr c i = s.ctr c i := by
  cases rx
  · exact (State.ctr_setFld ..).trans (State.ctr_setFld ..)
  · exact (State.ctr_setFld ..).trans (State.ctr_setFld ..)

/-- A ring that is stopped does not run (R443). -/
theorem State.fld_stopRing (s : State) (r : Nat) : (s.stopRing false r).fld F.hbrTxRingCfg_en r = 0 := by
  have e : (s.stopRing false r).fld F.hbrTxRingCfg_en r = (s.setFld F.hbrTxRingCfg_en r 0).fld F.hbrTxRingCfg_en r :=
    congrArg (getBits · _ _) (State.rd_wr_reg _ _ _ _ _ _ (by decide))
  rw [e, State.fld_setFld_same _ _ _ _ (by decide) (by decide), Nat.zero_mod]

/-- A DMA error is counted and raised, and changes nothing of the rings. -/
theorem State.dmaErr_spec (u : State) (r : Nat) : ((u.bump .hbrDmaErr).raise Ev.dmaErr).net = u.net ∧
    ((u.bump .hbrDmaErr).raise Ev.dmaErr).ctr .hbrDmaErr 0 = u.ctr .hbrDmaErr 0 + 1 ∧
    ((u.bump .hbrDmaErr).raise Ev.dmaErr).fld F.hbrTxRingCfg_en r = u.fld F.hbrTxRingCfg_en r := by
  have hq := quiet_raise (u.bump .hbrDmaErr) Ev.dmaErr
  refine ⟨hq.net, ?_, congrArg (getBits · _ _) (hq.rd .hbrTxRingCfg r (by decide))⟩
  rw [hq.ctr _ _ (by decide), State.ctr_bump, if_pos ⟨rfl, rfl⟩]

section Fetch

variable {r n : Nat} {ts : Bool} {bs : List Byte} (hfw : s.forwards = true) (hrun : s.ringRuns false r = true) (hn : 0 < n)
  (havail : n ≤ s.ringAvail false r) (hup : s.linkUp 16 = true)
include hfw hrun hn havail hup

/-- A fetch of a ring that runs and holds its descriptors, while P16 is up. -/
theorem State.dmaTx_of_ready (poisoned : Bool) : s.dmaTx r n ts bs poisoned =
    if poisoned then (((s.txDone r n 4).stopRing false r).bump .hbrDmaErr).raise Ev.dmaErr
    else if s.fld F.macMaxFrame_max_len 16 < bs.length + 4 then (s.bump .macDropOversize 16).txDone r n 2
    else if bs.length + 4 < 64 then (s.bump .macDropRunt 16).txDone r n 1
    else (s.rxInside 16 ts bs).txDone r n 0 := by
  have hn' : (n == 0) = false := by simpa using Nat.pos_iff_ne_zero.mp hn
  unfold State.dmaTx
  rw [if_neg (by simp [hrun, hn', havail, hfw])]
  dsimp only
  rw [if_neg (by simp [hup])]

theorem State.dmaTx_good (hlog : s.fld F.hbrTxRingCfg_size_log r ≤ 12) (hmin : 64 ≤ bs.length + 4)
    (hmax : bs.length + 4 ≤ s.fld F.macMaxFrame_max_len 16) : (s.dmaTx r n ts bs false).net.ord = s.net.ord + 1 ∧
      Out.txDesc r ((s.fld F.hbrTxRingHead_head r + n - 1) % 2 ^ s.fld F.hbrTxRingCfg_size_log r) (some 0) ∈
        (s.dmaTx r n ts bs false).out ∧
      (s.dmaTx r n ts bs false).fld F.hbrTxRingHead_head r =
        (s.fld F.hbrTxRingHead_head r + n) % 2 ^ s.fld F.hbrTxRingCfg_size_log r := by
  have hu : Piped s.takeOrd (s.rxInside 16 ts bs) := State.rxInside_good ts rfl hmin hmax
  have hhead : (s.rxInside 16 ts bs).fld F.hbrTxRingHead_head r = s.fld F.hbrTxRingHead_head r := hu.fld
  have hsize : (s.rxInside 16 ts bs).fld F.hbrTxRingCfg_size_log r = s.fld F.hbrTxRingCfg_size_log r := hu.fld
  have hen : (s.rxInside 16 ts bs).on F.hbrTxRingCfg_en r = true := by
    have hfld : (s.rxInside 16 ts bs).fld F.hbrTxRingCfg_en r = s.fld F.hbrTxRingCfg_en r := hu.fld
    rw [State.on, hfld]
    exact (Bool.and_eq_true_iff.mp hrun).2
  have hback := State.txDone_spec (s := s.rxInside 16 ts bs) (r := r) 0 hn
  rw [State.dmaTx_of_ready hfw hrun hn havail hup, if_neg Bool.false_ne_true, if_neg (Nat.not_lt.mpr hmax),
    if_neg (Nat.not_lt.mpr hmin)]
  refine ⟨(congrArg Net.ord hback.net).trans hu.ord, ?_, ?_⟩
  · have hlast := hback.last
    rwa [hhead, hsize] at hlast
  · rw [State.txDone_head 0 hen (hsize ▸ hlog), hhead, hsize]

theorem State.dmaTx_long (hmax : s.fld F.macMaxFrame_max_len 16 < bs.length + 4) :
    (s.dmaTx r n ts bs false).net.ord = s.net.ord ∧
      Out.txDesc r ((s.fld F.hbrTxRingHead_head r + n - 1) % 2 ^ s.fld F.hbrTxRingCfg_size_log r) (some 2) ∈
        (s.dmaTx r n ts bs false).out ∧
      (s.dmaTx r n ts bs false).ctr .macDropOversize 16 = s.ctr .macDropOversize 16 + 1 := by
  have hback := State.txDone_spec (s := s.bump .macDropOversize 16) (r := r) 2 hn
  rw [State.dmaTx_of_ready hfw hrun hn havail hup, if_neg Bool.false_ne_true, if_pos hmax]
  refine ⟨congrArg Net.ord hback.net, hback.last, ?_⟩
  rw [hback.ctr _ _ (by decide), State.ctr_bump, if_pos ⟨rfl, rfl⟩]

theorem State.dmaTx_poisoned : (s.dmaTx r n ts bs true).net.ord = s.net.ord ∧
    Out.txDesc r ((s.fld F.hbrTxRingHead_head r + n - 1) % 2 ^ s.fld F.hbrTxRingCfg_size_log r) (some 4) ∈
      (s.dmaTx r n ts bs true).out ∧
    (s.dmaTx r n ts bs true).ringRuns false r = false ∧ (s.dmaTx r n ts bs true).ctr .hbrDmaErr 0 = s.ctr .hbrDmaErr 0 + 1 := by
  have hback := State.txDone_spec (s := s) (r := r) 4 hn
  rw [State.dmaTx_of_ready hfw hrun hn havail hup, if_pos rfl]
  generalize s.txDone r n 4 = u at hback ⊢
  obtain ⟨hnet, hctr, hen⟩ := State.dmaErr_spec (u.stopRing false r) r
  rw [State.fld_stopRing] at hen
  refine ⟨?_, hback.last.stopRing.bump.raise, ?_, ?_⟩
  · rw [hnet, State.stopRing_net, hback.net]
  · exact Bool.and_eq_false_iff.mpr (.inr ((congrArg (· != 0) hen).trans rfl))
  · rw [hctr, State.stopRing_ctr, hback.ctr _ _ (by decide)]

end Fetch

/-! ### The obligation -/

section Fragment

variable {p : Fin 16} {r : RxSt} (hup : s.linkUp p = true) (hen : s.on F.tgaPreemptCfg_en p = true)
include hup hen

/-- A fragment at a port that is up and preempts. -/
theorem exec_rxContinuationFragment (g : RxFrag) : exec (.rxContinuationFragment p g) s = .next (match g with
    | .unknownSmd => s.bump .tgaRxSmdErr p
    | .first bytes => s.rxMore p true bytes
    | .firstBad => if (s.port p).rxp.isSome then s.assyErr p else s
    | .cont count bytes good => match (s.port p).rxp with
      | none => s.bump .tgaRxFrags p
      | some r => if count.val ≠ r.frags % 4 ∨ !good then (s.bump .tgaRxFrags p).assyErr p
        else ((s.bump .tgaRxFrags p).setRx p true (some { r with frags := r.frags + 1 })).rxMore p true bytes) := by
  refine congrArg Host.Outcome.next ((if_pos hup).trans ?_)
  unfold State.rxFragment
  rw [if_neg (by simp [hen])]
  cases g <;> rfl

variable (hr : (s.port p).rxp = some r) (hf : r.frm = none) (hp : r.past = false) (count : Fin 4) (bytes : List Byte)
include hr

/-- A continuation fragment in order adds its bytes to the reassembly. -/
theorem exec_cont_inOrder (hcount : count.val = r.frags % 4) : exec (.rxContinuationFragment p (.cont count bytes true)) s =
    .next (((s.bump .tgaRxFrags p).setRx p true (some { r with frags := r.frags + 1 })).rxMore p true bytes) := by
  rw [exec_rxContinuationFragment hup hen, hr]
  exact congrArg Host.Outcome.next (if_neg (by simp [hcount]))

/-- A continuation fragment out of order, or with a bad check sum, breaks the reassembly. -/
theorem exec_cont_broken {good : Bool} (hbad : count.val ≠ r.frags % 4 ∨ good = false) :
    exec (.rxContinuationFragment p (.cont count bytes good)) s = .next ((s.bump .tgaRxFrags p).assyErr p) := by
  rw [exec_rxContinuationFragment hup hen, hr]
  exact congrArg Host.Outcome.next (if_pos (hbad.imp_right (by simp [·])))

include hf hp

/-- A continuation fragment that leaves the frame short of its lookup. -/
theorem exec_cont_short (hcount : count.val = r.frags % 4) (hlen : (r.got ++ bytes).length < 128)
    (hmax : (r.got ++ bytes).length ≤ r.maxLen) : ∃ t, exec (.rxContinuationFragment p (.cont count bytes true)) s = .next t ∧
      (t.port p).rxp = some { r with frags := r.frags + 1, got := r.got ++ bytes } ∧
      t.ctr .tgaRxFrags p = s.ctr .tgaRxFrags p + 1 ∧ regsBut markRegs s t := by
  obtain ⟨hrx, hctrs, hregs⟩ := State.rxMore_short (State.reception_setRx (s.bump .tgaRxFrags p) p true
    (some { r with frags := r.frags + 1 })) hf hp hlen hmax
  refine ⟨_, exec_cont_inOrder hup hen hr count bytes hcount, hrx, ?_, hregs⟩
  have hctr : ((s.bump .tgaRxFrags p).setRx p true (some { r with frags := r.frags + 1 })).ctr .tgaRxFrags p =
      s.ctr .tgaRxFrags p + 1 := (State.ctr_bump ..).trans (if_pos ⟨rfl, rfl⟩)
  rw [State.ctr, hctrs]
  exact hctr

/-- A continuation fragment that brings the 128th byte of a frame. -/
theorem exec_cont_lookup (hcount : count.val = r.frags % 4) (hlen : 128 ≤ (r.got ++ bytes).length) (hne : bytes ≠ [])
    (hmax : (r.got ++ bytes).length ≤ r.maxLen) (hhold : r.hold = none) (hgone : r.gone = false) (hsecy : s.secyRx p = false)
    (hpair : s.pairOn p = false) :
    ∃ t, exec (.rxContinuationFragment p (.cont count bytes true)) s = .next t ∧ t.net.ord = s.net.ord + 1 ∧
      (t.port p).rxp = some { r with frags := r.frags + 1, got := r.got ++ bytes, frm := some s.net.nextF } := by
  refine ⟨_, exec_cont_inOrder hup hen hr count bytes hcount, ?_⟩
  rw [State.rxMore_of_none (State.reception_setRx (s.bump .tgaRxFrags p) p true (some { r with frags := r.frags + 1 })) hf hp hmax hne,
    if_neg (by simp [hhold, hgone])]
  exact State.rxArrive_lookup true hlen hpair hsecy

end Fragment

/-- Settles O27: fragments are collected by `rxMore`, a broken reassembly ends as a receive error, a held frame takes the path of
its check, and a frame from inside enters the pipeline with its descriptors written back. -/
theorem fragmentsHeldAndInnerFrames : Obligations.FragmentsHeldAndInnerFrames := by
  unfold Obligations.FragmentsHeldAndInnerFrames
  intro s
  refine ⟨fun p hup hen => ?_, fun p h rest x hfab hh hx hc => ?_, fun ts bs hfw hhalt hsecy => ?_,
    fun r n ts bs hfw hrun hn havail hup hlog => ?_⟩
  · refine ⟨exec_rxContinuationFragment hup hen _, fun r count bytes hr hf hp => ⟨exec_cont_short hup hen hr hf hp count bytes,
      exec_cont_lookup hup hen hr hf hp count bytes, fun good hbad => ?_, fun hlen hmax => ?_, ?_⟩⟩
    · obtain ⟨hrx, hassy, hrxerr⟩ := State.assyErr_spec (s := s.bump .tgaRxFrags p) hr hf
      exact ⟨_, exec_cont_broken hup hen hr count bytes hbad, hrx, by simpa [State.ctr_bump] using hassy,
        by simpa [State.ctr_bump] using hrxerr⟩
    · obtain ⟨hrx, hctrs, -⟩ := State.rxMore_short (pre := true) hr hf hp hlen hmax
      exact ⟨_, exec_rxContinuationFragment hup hen _, hrx, by rw [State.ctr, hctrs]; rfl⟩
    · refine ⟨_, (exec_rxContinuationFragment hup hen .firstBad).trans ?_, State.assyErr_spec hr hf⟩
      exact congrArg Host.Outcome.next (if_pos (hr ▸ rfl))
  · exact ⟨fun a y => ⟨_, congrArg Host.Outcome.next (if_pos hfab), State.icvDone_poisoned hh hc a.toNat y⟩,
      _, congrArg Host.Outcome.next (if_pos hfab), State.icvDone_ord hh hc hx⟩
  · have e : exec (.controlPortFrameIn ts bs) s = .next (s.rxInside 17 ts bs) :=
      congrArg Host.Outcome.next (if_pos (by simp [hfw, hhalt]))
    exact ⟨fun hmin hmax => ⟨_, e, (State.rxInside_good ts hsecy hmin hmax).ord⟩,
      fun hmin hmax => e.trans (congrArg _ (State.rxInside_runt ts hmin hmax))⟩
  · exact ⟨fun hmin hmax => ⟨_, rfl, State.dmaTx_good hfw hrun hn havail hup hlog hmin hmax⟩,
      fun hmax => ⟨_, rfl, State.dmaTx_long hfw hrun hn havail hup hmax⟩, _, rfl, State.dmaTx_poisoned hfw hrun hn havail hup⟩

end Sys2Proof.Machine
end

section
/-! ## Entries of the tables

A write of an entry is a write of its words and of its place in the table. `Wrote s u id par n e` says what it does: the entry is `e`, and
the other entries, and all registers and counters but those of the flip mask, stay. -/

namespace Sys2Proof.Machine

open Sys2Proof

variable {s t u : State} {id par n : Nat} {e : List Word}

/-! ### Keys -/

theorem tabKey_right_inj (id par n m : Nat) : tabKey id par n = tabKey id par m ↔ n = m := by
  unfold tabKey
  omega

/-- Entries of two tables have different keys. -/
theorem tabKey_ne {id id' : Nat} (par par' : Nat) {n m : Nat} (h : id ≠ id') (hn : n < 262144) (hm : m < 262144) :
    tabKey id par n ≠ tabKey id' par' m := by
  unfold tabKey
  split <;> split <;> omega

theorem State.ent_setEnt_same (s : State) (id par n : Nat) (e : List Word) : (s.setEnt id par n e).ent id par n = e :=
  tblGet_set_same ..

theorem State.ent_setEnt_other (s : State) {id par n id' par' m : Nat} (e : List Word) (h : tabKey id' par' m ≠ tabKey id par n) :
    (s.setEnt id par n e).ent id' par' m = s.ent id' par' m :=
  tblGet_set_other _ _ _ _ _ _ h

/-! ### Writes of memory words -/

/-- `t` is `s` after writes of memory words: registers and counters are those of `s` but for the flip mask that a write may take
(R371). -/
structure Stored (s t : State) : Prop where
  net : t.net = s.net
  regs : regsBut [.memFlipCtrl] s t
  ctrs : ctrsBut [.memFlipApplied] s t
  arm : s.on F.memFlipCtrl_arm = false → t.on F.memFlipCtrl_arm = false

theorem Stored.refl (s : State) : Stored s s := ⟨rfl, fun _ _ _ => rfl, fun _ _ _ => rfl, fun h => h⟩

theorem Stored.trans (h : Stored s t) (k : Stored t u) : Stored s u :=
  ⟨k.net.trans h.net, fun r i hr => (k.regs r i hr).trans (h.regs r i hr), fun c i hc => (k.ctrs c i hc).trans (h.ctrs c i hc),
    fun ha => k.arm (h.arm ha)⟩

/-- A flip mask that is not armed is armed for no word. -/
theorem State.flipArmed_unarmed (h : s.on F.memFlipCtrl_arm = false) (mem inst : Nat) (f : Nat → Bool) :
    s.flipArmed mem inst f = false := by
  simp [State.flipArmed, h]

theorem Stored.applyFlip (hs : s.on F.memFlipCtrl_arm = true) (mem inst addr enc : Nat) : Stored s (s.applyFlip mem inst addr enc) where
  net := (quiet_applyFlip ..).net
  regs r i hr := State.rd_wr_reg (s.setMemErr mem inst addr (flipError (memParity mem) s.flipData
    (s.fld F.memFlipCtrl_chk_mask ^^^ enc))) .memFlipCtrl r 0 i _ fun e => hr (List.mem_singleton.mpr e)
  ctrs c i hc := by
    unfold State.applyFlip
    rw [State.ctr_bump, if_neg fun e => hc (List.mem_singleton.mpr e.1), State.ctr_setFld]
    rfl
  arm h := absurd hs (by simp [h])

theorem Stored.memWrite (s : State) (mem inst addr : Nat) : Stored s (s.memWrite mem inst addr) := by
  unfold State.memWrite
  extract_lets w m v
  have hv : Stored s v := ⟨rfl, fun _ _ _ => rfl, fun _ _ _ => rfl, fun h => h⟩
  split
  · next ha =>
    cases hon : v.on F.memFlipCtrl_arm with
    | true => exact hv.trans (.applyFlip hon ..)
    | false => exact absurd ha (by simp [State.flipArmed_unarmed hon])
  · exact hv

/-! ### Writes of entries -/

/-- An entry of the table is stored as it is given: the table has SECDED, where a flip is an error of the word, or no flip is armed. -/
def State.storesAsGiven (s : State) (id : Nat) : Prop := memParity (tabMem id).1 = false ∨ s.on F.memFlipCtrl_arm = false

/-- `u` is `s` after a write of `e` to entry `n` of a table. -/
structure Wrote (s : State) (id par n : Nat) (e : List Word) (u : State) : Prop where
  same : u.ent id par n = e
  other : ∀ id' par' m, tabKey id' par' m ≠ tabKey id par n → u.ent id' par' m = s.ent id' par' m
  regs : regsBut [.memFlipCtrl] s u
  ctrs : ctrsBut [.memFlipApplied] s u
  arm : s.on F.memFlipCtrl_arm = false → u.on F.memFlipCtrl_arm = false

theorem Wrote.of_stored (h : Stored s t) (id par n : Nat) (e : List Word) : Wrote s id par n e (t.setEnt id par n e) where
  same := t.ent_setEnt_same id par n e
  other id' par' m hk := by
    rw [t.ent_setEnt_other e hk, State.ent, h.net, State.ent]
  regs := h.regs
  ctrs := h.ctrs
  arm := h.arm

theorem State.wrote_writeEnt (h : s.storesAsGiven id) (par n : Nat) (e : List Word) : Wrote s id par n e (s.writeEnt id par n e) := by
  unfold State.writeEnt
  extract_lets m k e' w
  have he : e' = e := if_neg (by rcases h with h | h <;> simp [m, h, State.flipArmed_unarmed])
  have hw : Stored s w := by
    refine iteInduction (motive := Stored s) (fun _ => .memWrite ..) fun _ => ?_
    exact List.foldlRecOn (motive := Stored s) _ _ (.refl s) fun t ht _ _ => ht.trans (.memWrite ..)
  rw [he]
  exact .of_stored hw id par n e

theorem State.wrote_delEnt (h : s.storesAsGiven id) (par n : Nat) : Wrote s id par n (tabDefault id) (s.delEnt id par n) :=
  have hw := State.wrote_writeEnt h par n (tabDefault id)
  ⟨hw.same, hw.other, hw.regs, hw.ctrs, hw.arm⟩

theorem Wrote.storesAsGiven (h : Wrote s id par n e u) {id' : Nat} (hs : s.storesAsGiven id') : u.storesAsGiven id' := hs.imp_right h.arm

/-- The other entries of the table stay. -/
theorem Wrote.ent_ne (h : Wrote s id par n e u) {m : Nat} (hm : m ≠ n) : u.ent id par m = s.ent id par m :=
  h.other id par m (mt (tabKey_right_inj id par m n).mp hm)

theorem Wrote.ent (h : Wrote s id par n e u) (m : Nat) : u.ent id par m = if m = n then e else s.ent id par m := by
  split
  · next hm => exact hm ▸ h.same
  · next hm => exact h.ent_ne hm

/-! ### Deletion of many entries -/

/-- A value that is not the default is listed. -/
theorem mem_of_tblGet_ne {α : Type} (l : Tbl α) {d : α} {k : Nat} (h : tblGet l d k ≠ d) : (k, tblGet l d k) ∈ l := by
  induction l with
  | nil => exact absurd rfl h
  | cons x l ih =>
    obtain ⟨j, v⟩ := x
    by_cases hk : k = j
    · simp [tblGet, tblFind, hk]
    · simp only [tblGet, tblFind, if_neg hk] at h ⊢
      exact List.mem_cons_of_mem _ (ih h)

/-- An entry that differs from its default is listed. -/
theorem State.mem_listed (par : Nat) {lo hi : Nat} (hlo : lo ≤ n) (hhi : n < hi) (h : s.ent id par n ≠ tabDefault id) :
    (n, s.ent id par n) ∈ s.listed id par lo hi := by
  have hkey : tabKey id par n = tabKey id par 0 + n := by simp [tabKey]
  refine List.mem_filterMap.mpr ⟨_, mem_of_tblGet_ne _ h, ?_⟩
  simp [hkey, hlo, hhi, State.ent]

/-- Deletion, one after the other, of the entries of a list for which `p` holds. -/
theorem State.foldl_delEnt (p : List Word → Bool) (l : List (Nat × List Word)) (h : s.storesAsGiven id) :
    let u := l.foldl (fun s x => if p x.2 then s.delEnt id par x.1 else s) s
    (∀ m, u.ent id par m = if l.any (fun x => x.1 == m && p x.2) = true then tabDefault id else s.ent id par m) ∧
      (∀ id' par' m, (∀ x ∈ l, tabKey id' par' m ≠ tabKey id par x.1) → u.ent id' par' m = s.ent id' par' m) := by
  induction l generalizing s with
  | nil => simp
  | cons x l ih =>
    rw [List.foldl_cons]
    cases hp : p x.2 with
    | false =>
      obtain ⟨hent, hother⟩ := ih h
      refine ⟨fun m => ?_, fun id' par' m hk => hother id' par' m fun y hy => hk y (.tail _ hy)⟩
      rw [List.any_cons, hp, Bool.and_false, Bool.false_or]
      exact hent m
    | true =>
      have hw := State.wrote_delEnt h par x.1
      obtain ⟨hent, hother⟩ := ih (hw.storesAsGiven h)
      refine ⟨fun m => ?_, fun id' par' m hk =>
        (hother id' par' m fun y hy => hk y (.tail _ hy)).trans (hw.other _ _ _ (hk x (.head _)))⟩
      refine (hent m).trans ?_
      rw [hw.ent m, List.any_cons, hp, Bool.and_true]
      by_cases hm : x.1 = m
      · rw [if_pos hm.symm, ite_self, beq_iff_eq.mpr hm, Bool.true_or, if_pos rfl]
      · rw [if_neg (Ne.symm hm), beq_eq_false_iff_ne.mpr hm, Bool.false_or]

/-- After a purge no entry of the table satisfies the test. -/
theorem State.purge_spec (h : s.storesAsGiven id) {p : List Word → Bool} (hd : p (tabDefault id) = false) (hn : n < tabCount id) :
    p ((s.purge id par p).ent id par n) = false := by
  obtain ⟨hent, -⟩ := State.foldl_delEnt (par := par) p (s.listed id par 0 (tabCount id)) h
  unfold State.purge
  rw [hent n]
  split
  · exact hd
  · next hno =>
    by_contra hp
    refine hno (List.any_eq_true.mpr ⟨_, State.mem_listed par (Nat.zero_le n) hn fun e => hp (e ▸ hd), ?_⟩)
    simpa using hp

/-- A purge leaves the other tables alone. -/
theorem State.ent_purge_other (h : s.storesAsGiven id) (p : List Word → Bool) {id' par' m : Nat} (hid : id' ≠ id) (hm : m < 262144)
    (hc : tabCount id ≤ 262144) : (s.purge id par p).ent id' par' m = s.ent id' par' m := by
  refine (State.foldl_delEnt (par := par) p (s.listed id par 0 (tabCount id)) h).2 id' par' m fun x hx => ?_
  obtain ⟨y, -, hy⟩ := List.mem_filterMap.mp hx
  split at hy
  · next hr =>
    obtain rfl := Option.some.inj hy
    exact tabKey_ne par' par hid hm (by simp only; omega)
  · exact absurd hy (by simp)

/-! ### Reads and free places -/

/-- A read without errors answers the entry. -/
theorem State.readEnt_clean (h : s.memClean = true) (hp : s.mem.parity = []) (id par n src : Nat) :
    s.readEnt id par n src = (s, s.ent id par n, false) := by
  simp [State.readEnt, h, hp]

theorem State.readAll_clean (h : s.memClean = true) (hp : s.mem.parity = []) (id par src : Nat) (idx : List Nat) :
    s.readAll id par src idx = (s, idx.map fun n => (n, s.ent id par n), []) := by
  have hfold : ∀ l : List (Nat × List Word), idx.foldl (fun (a : State × List (Nat × List Word) × List Nat) n =>
      let r := a.1.readEnt id par n src
      if r.2.2 then (r.1, a.2.1, a.2.2 ++ [n]) else (r.1, a.2.1 ++ [(n, r.2.1)], a.2.2)) (s, l, []) =
      (s, l ++ idx.map fun n => (n, s.ent id par n), []) := by
    induction idx with
    | nil => simp
    | cons n idx ih => intro l; simp [State.readEnt_clean h hp, ih]
  exact hfold []

/-- An entry that an insertion takes lies in the bucket or in the overflow store (R82). -/
theorem State.freeEnt_range {id base bucket ovf cnt : Nat} {used : List Word → Bool}
    (h : s.freeEnt id base bucket ovf cnt used = some n) :
    (base + bucket * 4 ≤ n ∧ n < base + bucket * 4 + 4) ∨ (ovf ≤ n ∧ n < ovf + cnt) := by
  unfold State.freeEnt at h
  split at h
  · next w hw =>
    have hlt : w < 4 := List.mem_range.mp (List.mem_of_find?_eq_some hw)
    obtain rfl := Option.some.inj h
    omega
  · obtain ⟨k, -, hk⟩ := Option.bind_eq_some_iff.mp h
    split at hk
    · obtain rfl := Option.some.inj hk
      omega
    · exact absurd hk (by simp)

end Sys2Proof.Machine
end

section
/-! ## Expiry and the sweep (R89, R116, R119, R120) -/

namespace Sys2Proof.Machine

open Sys2Proof

variable {s : State}

/-- A connection lookup that finds an expired entry answers as one that finds none: MISS, or INVALID for a TCP frame that opens no
connection (R89). -/
theorem State.ctLookup_expired {x : Parse} {key : List Byte} {hash k : Nat} {e : List Word} (dir : Bool) (hkind : x.kind = 1 ∨ x.kind = 2)
    (hfind : s.ctFind key hash = (s, some (k, e))) (hexp : s.ctExpired e = true) :
    s.ctLookup x key dir hash = (s, if x.tcp = true ∧ ¬(x.val 0x12 / 2 % 2 = 1 ∧ x.val 0x12 / 16 % 2 = 0) then 6 else 1) := by
  have hk : ¬(x.kind ≠ 1 ∧ x.kind ≠ 2) := by omega
  unfold State.ctLookup
  rw [if_neg hk, hfind]
  dsimp only
  rw [Option.filter_some_neg (by simp [hexp])]
  cases htcp : x.tcp with
  | false => simp
  | true => by_cases hopen : x.val 0x12 / 2 % 2 = 1 ∧ x.val 0x12 / 16 % 2 = 0 <;> simp [hopen]

/-- Without errors an FDB lookup hits a valid entry of the key that is not expired (R110, R119). -/
theorem State.fdbLookup_hit (h : s.memClean = true) (hp : s.mem.parity = []) {par fid mac k : Nat} {e : List Word}
    (hit : (s.fdbLookup par fid mac).2 = some (k, e)) : s.fdbExpired e = false ∧ fdbKeyEq fid mac e = true := by
  unfold State.fdbLookup at hit
  rw [State.readAll_clean h hp] at hit
  have hok := List.find?_some hit
  simp only [Bool.and_eq_true, Bool.not_eq_true'] at hok
  obtain ⟨⟨hkey, -⟩, hlive⟩ := hok
  exact ⟨hlive, hkey⟩

/-- The deletion of an entry, counted once. -/
theorem State.delEnt_bump {id : Nat} (h : s.storesAsGiven id) (n : Nat) {c : Ctr} (hc : c ≠ .memFlipApplied) :
    ((s.delEnt id 0 n).bump c).ent id 0 n = tabDefault id ∧
      (∀ m, m ≠ n → ((s.delEnt id 0 n).bump c).ent id 0 m = s.ent id 0 m) ∧
      ((s.delEnt id 0 n).bump c).ctr c = s.ctr c + 1 := by
  have hw := State.wrote_delEnt h 0 n
  refine ⟨hw.same, fun m hm => hw.ent_ne hm, ?_⟩
  rw [State.ctr_bump, if_pos ⟨rfl, rfl⟩, hw.ctrs c 0 (by simpa using hc)]

/-- The sweep of the connections: an expired entry is deleted and counted, any other stays (R89). -/
theorem exec_ctSweepDelete (n : BitVec 18) (hfab : s.fabricOn = true) (hv : entValid (s.ent 3 0 n.toNat) = true) :
    exec (.ctSweepDelete n) s =
      .next (if s.ctExpired (s.ent 3 0 n.toNat) = true then (s.delEnt 3 0 n.toNat).bump .clsCtExpire else s) := by
  show execCtSweepDelete n s = _
  simp only [execCtSweepDelete, hfab, hv, Bool.true_and]

/-- The sweep of the FDB: an expired entry is deleted and counted, any other stays (R119). -/
theorem exec_fdbSweepDelete (n : BitVec 17) (hfab : s.fabricOn = true) (hv : fdbValid (s.ent 0x10 0 n.toNat) = true) :
    exec (.fdbSweepDelete n) s =
      .next (if s.fdbExpired (s.ent 0x10 0 n.toNat) = true then (s.delEnt 0x10 0 n.toNat).bump .fdbAgeDel else s) := by
  show execFdbSweepDelete n s = _
  simp only [execFdbSweepDelete, hfab, hv, Bool.true_and]

/-- Settles O35: an expired entry fails the test of every lookup, and the sweep is one `delEnt` with one count. -/
theorem expiryAndSweep : Obligations.ExpiryAndSweep := by
  unfold Obligations.ExpiryAndSweep
  intro s
  refine ⟨fun n => ⟨rfl, fun x key dir hash k e hkind hfind hexp => State.ctLookup_expired dir hkind hfind hexp, fun hfab hv => ?_⟩,
    fun n => ⟨rfl, fun hc hp par fid mac k e hit => State.fdbLookup_hit hc hp hit, fun hfab harm hv => ?_⟩⟩
  · have hexec := exec_ctSweepDelete n hfab hv
    refine ⟨fun hexp => ?_, fun hexp => by simpa [hexp] using hexec⟩
    obtain ⟨hsame, hother, hctr⟩ := State.delEnt_bump (s := s) (id := 3) (.inl rfl) n.toNat (c := .clsCtExpire) (by decide)
    refine ⟨_, hexec.trans (congrArg _ (if_pos hexp)), ?_, fun m hm => hother _ (mt BitVec.eq_of_toNat_eq hm), hctr⟩
    rw [hsame]
    decide
  · have hexec := exec_fdbSweepDelete n hfab hv
    refine ⟨fun hexp => ?_, fun hexp => by simpa [hexp] using hexec, fun hstat hheld _ => ?_, fun hheld => ?_⟩
    · obtain ⟨hsame, hother, hctr⟩ := State.delEnt_bump (s := s) (id := 0x10) (.inr harm) n.toNat (c := .fdbAgeDel) (by decide)
      refine ⟨_, hexec.trans (congrArg _ (if_pos hexp)), ?_, fun m hm => hother _ (mt BitVec.eq_of_toNat_eq hm), hctr⟩
      rw [hsame]
      decide
    · have hw := State.wrote_writeEnt (s := s) (id := 0x10) (.inr harm) 0 n.toNat (eput (s.ent 0x10 0 n.toNat) 3 30 20 0x7FF)
      exact ⟨_, congrArg Host.Outcome.next (if_pos (by simp [hfab, hv, hstat, hheld])), hw.same, hw.regs⟩
    · exact congrArg Host.Outcome.next (if_neg (by simp [hheld]))

end Sys2Proof.Machine
end

section
/-! ## The commands of CLS_ENT_CMD (R97, R98) -/

namespace Sys2Proof.Machine

open Sys2Proof

variable {s u : State} {p : Path} {n : Nat} {e : List Word}

/-! ### The write that starts a command -/

theorem State.flushBlk_of_merge_nil (h : s.mem.merge = []) (b : Blk) : s.flushBlk b = s := by
  have e : ({ s with mem := { s.mem with merge := [] } } : State) = s := by rw [← h]
  unfold State.flushBlk State.flushWhere
  simp only [h, List.filter_nil, List.foldl_nil]
  exact e

/-- The fields of CLS_ENT_CMD over its other bits. -/
def clsCmdFields (w : Word) (op table bank : Nat) : Word := putBits (putBits (putBits w 27 24 op) 19 18 table) 17 16 bank

/-- The state in which a command acts: its fields stand in CLS_ENT_CMD. -/
def State.clsAsked (s : State) (p : Path) (op table bank : Nat) : State :=
  (s.nextSeq p).wr .clsEntCmd 0 (clsCmdFields (s.rd .clsEntCmd) op table bank)

/-- The fields of CLS_ENT_CMD take those of a written word, and no value of them is refused. -/
theorem State.writeReg_clsEntCmd (s : State) (data : Word) : s.writeReg .clsEntCmd 0 data =
    s.wr .clsEntCmd 0 (clsCmdFields (s.rd .clsEntCmd) (getBits data 27 24) (getBits data 19 18) (getBits data 17 16)) := rfl

section Fields

variable (w : Word) {op table bank : Nat} (hop : op < 16) (htable : table < 4) (hbank : bank < 4)

include hop in
theorem getBits_clsCmdFields_op : getBits (clsCmdFields w op table bank) 27 24 = op := by
  unfold clsCmdFields
  rw [getBits_putBits_above _ _ (by decide) (by decide) (by decide) (by decide),
    getBits_putBits_above _ _ (by decide) (by decide) (by decide) (by decide), getBits_putBits _ _ _ _ (by decide) (by decide)]
  exact Nat.mod_eq_of_lt hop

include htable in
theorem getBits_clsCmdFields_table : getBits (clsCmdFields w op table bank) 19 18 = table := by
  unfold clsCmdFields
  rw [getBits_putBits_above _ _ (by decide) (by decide) (by decide) (by decide), getBits_putBits _ _ _ _ (by decide) (by decide)]
  exact Nat.mod_eq_of_lt htable

include hbank in
theorem getBits_clsCmdFields_bank : getBits (clsCmdFields w op table bank) 17 16 = bank := by
  unfold clsCmdFields
  rw [getBits_putBits _ _ _ _ (by decide) (by decide)]
  exact Nat.mod_eq_of_lt hbank

/-- The word of a command has go set. -/
theorem getBit_clsCmdWord_go : getBit (clsCmdWord op table bank) 31 = true := by
  unfold clsCmdWord
  rw [getBit_putBits _ _ (by decide) (by decide), if_neg (by decide), getBit_putBits _ _ (by decide) (by decide), if_neg (by decide),
    getBit_putBits _ _ (by decide) (by decide), if_neg (by decide)]
  decide

end Fields

/-- `t` is `s` when a command has been asked for: its fields stand in CLS_ENT_CMD, and what the commands read else is that of `s`. -/
structure ClsAsked (s : State) (table bank : Nat) (t : State) : Prop where
  net : t.net = s.net
  mem : t.mem = s.mem
  boot : t.boot = s.boot
  mram : t.mram = s.mram
  rd : ∀ r i, r ≠ .clsEntCmd → t.rd r i = s.rd r i
  table : t.clsTable = table
  bank : t.fld F.clsEntCmd_bank = bank

theorem State.clsAsked_spec (s : State) (p : Path) {op table bank : Nat} (htable : table < 4) (hbank : bank < 4) :
    ClsAsked s table bank (s.clsAsked p op table bank) where
  net := (State.wr_net ..).trans (State.nextSeq_net ..)
  mem := (State.wr_mem ..).trans (State.nextSeq_mem ..)
  boot := (State.wr_boot ..).trans (State.nextSeq_boot ..)
  mram := (State.wr_mram ..).trans (State.nextSeq_mram ..)
  rd r i hr := State.rd_wr_reg (s.nextSeq p) .clsEntCmd r 0 i _ hr
  table := (congrArg (getBits · 19 18) (State.rd_wr_same ..)).trans (getBits_clsCmdFields_table _ htable)
  bank := (congrArg (getBits · 17 16) (State.rd_wr_same ..)).trans (getBits_clsCmdFields_bank _ hbank)

namespace ClsAsked

variable {t : State} {table bank : Nat} (a : ClsAsked s table bank t)
include a

theorem fld {f : RegField} (hf : f.reg ≠ .clsEntCmd) (i : Nat) : t.fld f i = s.fld f i :=
  congrArg (getBits · f.hi f.lo) (a.rd f.reg i hf)

theorem ent (id par n : Nat) : t.ent id par n = s.ent id par n := by
  rw [State.ent, a.net, State.ent]

theorem listed (id par lo hi : Nat) : t.listed id par lo hi = s.listed id par lo hi := by
  rw [State.listed, a.net, State.listed]

theorem loaderHolds : t.loaderHolds = s.loaderHolds := by
  rw [State.loaderHolds, a.boot, State.loaderHolds]

theorem hostMask (mask : Nat) : t.hostMask mask = s.hostMask mask := by
  rw [State.hostMask, State.epoch, State.bcr, a.mram, State.hostMask, State.epoch, State.bcr]

theorem memClean : t.memClean = s.memClean := by
  rw [State.memClean, a.mem, State.memClean]

theorem staged : t.clsStaged = s.clsStaged := List.map_congr_left fun k _ => a.rd _ k (by decide)

theorem storesAsGiven {id : Nat} (h : s.storesAsGiven id) : t.storesAsGiven id :=
  h.imp_right fun harm => by rwa [State.on, a.fld (by decide)]

theorem freeEnt (id base bucket ovf cnt : Nat) (used : List Word → Bool) :
    t.freeEnt id base bucket ovf cnt used = s.freeEnt id base bucket ovf cnt used := by
  simp only [State.freeEnt, a.ent, a.listed]

theorem ruleBucket (b : Nat) (key : List Word) : t.ruleBucket b key = s.ruleBucket b key := by
  rw [State.ruleBucket, a.rd _ _ (by decide), State.ruleBucket]

theorem ruleFind (b : Nat) (e : List Word) (f : Nat → Bool) : t.ruleFind b e f = s.ruleFind b e f := by
  simp only [State.ruleFind, State.ruleProbed, State.probed, a.ruleBucket, a.ent, a.listed]

end ClsAsked

variable (hs : s.servesReg p .clsEntCmd 0 = true) (hm : s.mem.merge = [])
include hs hm

/-- A served go write runs the command that op names. -/
theorem State.clsCmd_eq {op table bank : Nat} (hop : op < 16) (htable : table < 4) (hbank : bank < 4) :
    s.clsCmd p op table bank = (let h := p != .fw; let u := s.clsAsked p op table bank
      if op = 1 then u.clsInsert h
      else if op = 2 then u.clsDelete h
      else if op = 3 then u.clsRead h
      else if op = 4 then u.clsSetAction h
      else if op = 5 then u.clsSetEpoch h
      else if op = 6 then u.clsFlush
      else u.clsDone 5 0) := by
  have hw : (s.nextSeq p).writeReg .clsEntCmd 0 (clsCmdWord op table bank) = s.clsAsked p op table bank := by
    rw [State.writeReg_clsEntCmd]
    have h1 : getBits (clsCmdWord op table bank) 27 24 = op := getBits_clsCmdFields_op _ hop
    have h2 : getBits (clsCmdWord op table bank) 19 18 = table := getBits_clsCmdFields_table _ htable
    have h3 : getBits (clsCmdWord op table bank) 17 16 = bank := getBits_clsCmdFields_bank _ hbank
    rw [h1, h2, h3, State.rd_nextSeq, State.clsAsked]
  have hu : (s.clsAsked p op table bank).mem.merge = [] := by rw [(s.clsAsked_spec p htable hbank).mem, hm]
  have hf : (s.clsAsked p op table bank).fld F.clsEntCmd_op = op :=
    (congrArg (getBits · 27 24) (State.rd_wr_same ..)).trans (getBits_clsCmdFields_op _ hop)
  unfold State.clsCmd State.accessReg
  rw [State.access_of_serves (off := Reg.clsEntCmd.addr 0) hs]
  simp only [State.wrClsEntCmd, hw, getBit_clsCmdWord_go, State.flushBlk_of_merge_nil hu, hf, Bool.not_true,
    Bool.false_eq_true, if_false]

variable (table bank : BitVec 2)

theorem exec_clsInsert : ∃ t, ClsAsked s table.toNat bank.toNat t ∧
    exec (.clsInsert p table bank) s = .next (t.clsInsert (p != .fw)) := by
  refine ⟨_, s.clsAsked_spec p (op := 1) table.isLt bank.isLt, ?_⟩
  show Host.Outcome.next (s.clsCmd p 1 table.toNat bank.toNat) = _
  simp [State.clsCmd_eq hs hm (op := 1) (by decide) table.isLt bank.isLt]

theorem exec_clsDelete : ∃ t, ClsAsked s table.toNat bank.toNat t ∧
    exec (.clsDelete p table bank) s = .next (t.clsDelete (p != .fw)) := by
  refine ⟨_, s.clsAsked_spec p (op := 2) table.isLt bank.isLt, ?_⟩
  show Host.Outcome.next (s.clsCmd p 2 table.toNat bank.toNat) = _
  simp [State.clsCmd_eq hs hm (op := 2) (by decide) table.isLt bank.isLt]

theorem exec_clsRead : ∃ t, ClsAsked s table.toNat 0 t ∧ exec (.clsRead p table) s = .next (t.clsRead (p != .fw)) := by
  refine ⟨_, s.clsAsked_spec p (op := 3) table.isLt (bank := 0) (by decide), ?_⟩
  show Host.Outcome.next (s.clsCmd p 3 table.toNat 0) = _
  simp [State.clsCmd_eq hs hm (op := 3) (by decide) table.isLt (bank := 0) (by decide)]

theorem exec_clsSetAction : ∃ t, ClsAsked s table.toNat 0 t ∧ exec (.clsSetAction p table) s = .next (t.clsSetAction (p != .fw)) := by
  refine ⟨_, s.clsAsked_spec p (op := 4) table.isLt (bank := 0) (by decide), ?_⟩
  show Host.Outcome.next (s.clsCmd p 4 table.toNat 0) = _
  simp [State.clsCmd_eq hs hm (op := 4) (by decide) table.isLt (bank := 0) (by decide)]

theorem exec_clsSetEpoch : ∃ t, ClsAsked s table.toNat 0 t ∧ exec (.clsSetEpoch p table) s = .next (t.clsSetEpoch (p != .fw)) := by
  refine ⟨_, s.clsAsked_spec p (op := 5) table.isLt (bank := 0) (by decide), ?_⟩
  show Host.Outcome.next (s.clsCmd p 5 table.toNat 0) = _
  simp [State.clsCmd_eq hs hm (op := 5) (by decide) table.isLt (bank := 0) (by decide)]

theorem exec_clsFlush : ∃ t, ClsAsked s table.toNat 0 t ∧ exec (.clsFlush p table) s = .next (t.clsFlush) := by
  refine ⟨_, s.clsAsked_spec p (op := 6) table.isLt (bank := 0) (by decide), ?_⟩
  show Host.Outcome.next (s.clsCmd p 6 table.toNat 0) = _
  simp [State.clsCmd_eq hs hm (op := 6) (by decide) table.isLt (bank := 0) (by decide)]

end Sys2Proof.Machine
end

section
/-! ## What the commands on the classifier's tables do (R97, R98) -/

namespace Sys2Proof.Machine

open Sys2Proof

variable {s u : State} {n : Nat} {e : List Word} {h : Bool}

/-! ### Results and staging registers -/

theorem State.clsDone_stat (s : State) {res idx : Nat} (hres : res < 16) (hidx : idx < 262144) :
    (s.clsDone res idx).fld F.clsEntStat_result = res ∧ (s.clsDone res idx).fld F.clsEntStat_index = idx := by
  have hrd : (s.clsDone res idx).rd .clsEntStat = putBits (putBits 0 31 28 res) 17 0 idx := State.rd_wr_same ..
  constructor
  · refine (congrArg (getBits · 31 28) hrd).trans ?_
    rw [getBits_putBits_above _ _ (by decide) (by decide) (by decide) (by decide), getBits_putBits _ _ _ _ (by decide) (by decide)]
    exact Nat.mod_eq_of_lt hres
  · refine (congrArg (getBits · 17 0) hrd).trans ?_
    rw [getBits_putBits _ _ _ _ (by decide) (by decide)]
    exact Nat.mod_eq_of_lt hidx

@[simp] theorem State.clsDone_net (s : State) (res idx : Nat) : (s.clsDone res idx).net = s.net := State.wr_net ..

@[simp] theorem State.clsDone_ent (s : State) (res idx id par n : Nat) : (s.clsDone res idx).ent id par n = s.ent id par n := by
  rw [State.ent, State.clsDone_net, State.ent]

/-- Writes of the first words of a register array, one after the other. -/
theorem State.rd_foldl_wr (s : State) (r : Reg) (f : Nat → Word) (n i : Nat) :
    ((List.range n).foldl (fun s k => s.wr r k (f k)) s).rd r i = if i < n then f i else s.rd r i := by
  induction n with
  | zero => simp
  | succ n ih =>
    rw [List.range_succ, List.foldl_append, List.foldl_cons, List.foldl_nil, State.rd_wr, ih]
    by_cases hi : i = n
    · simp [hi]
    · have hlt : i < n + 1 ↔ i < n := by omega
      simp [hi, hlt]

/-- After READ the staging registers hold the words of the entry. -/
theorem State.rd_clsStage_done (s : State) (e : List Word) (res idx : Nat) (k : Fin 16) :
    ((s.clsStage e).clsDone res idx).rd .clsEntData k = ew e k :=
  (State.rd_wr_reg _ _ _ _ _ _ (by decide)).trans ((s.rd_foldl_wr .clsEntData (ew e) 16 k).trans (if_pos k.isLt))

@[simp] theorem State.clsStage_net (s : State) (e : List Word) : (s.clsStage e).net = s.net :=
  List.foldlRecOn (motive := fun t => t.net = s.net) _ _ rfl fun t ht k _ => (State.wr_net t .clsEntData k (ew e k)).trans ht

/-! ### Commands that are refused -/

theorem State.clsInsert_badTable (ht : s.clsTable ≠ 0) : s.clsInsert h = s.clsDone 5 0 := if_pos ht

theorem State.clsDelete_badTable (ht : 2 ≤ s.clsTable) : s.clsDelete h = s.clsDone 5 0 := if_pos ht

theorem State.clsRead_badTable (ht : 2 ≤ s.clsTable) : s.clsRead h = s.clsDone 5 0 := if_pos ht

theorem State.clsSetAction_badTable (ht : s.clsTable ≠ 0) : s.clsSetAction h = s.clsDone 5 0 := if_pos ht

theorem State.clsSetEpoch_badTable (ht : s.clsTable ≠ 0) : s.clsSetEpoch h = s.clsDone 5 0 := if_pos ht

theorem State.clsFlush_badTable (ht : s.clsTable ≠ 1) : s.clsFlush = s.clsDone 5 0 := if_pos ht

section Rules

variable (ht : s.clsTable = 0)
include ht

theorem State.clsBusy_iff : s.clsBusy h = true ↔ h = true ∧ s.loaderHolds = true := by
  simp [State.clsBusy, ht]

section Busy

variable (hb : s.clsBusy h = true)
include hb

theorem State.clsInsert_busy : s.clsInsert h = s.clsDone 4 0 := (if_neg (not_not_intro ht)).trans (if_pos hb)

theorem State.clsDelete_busy : s.clsDelete h = s.clsDone 4 0 := (if_neg (by omega)).trans (if_pos hb)

theorem State.clsRead_busy : s.clsRead h = s.clsDone 4 0 := (if_neg (by omega)).trans (if_pos hb)

theorem State.clsSetAction_busy : s.clsSetAction h = s.clsDone 4 0 := (if_neg (not_not_intro ht)).trans (if_pos hb)

theorem State.clsSetEpoch_busy : s.clsSetEpoch h = s.clsDone 4 0 := (if_neg (not_not_intro ht)).trans (if_pos hb)

end Busy

/-! ### Commands on the rule table that are carried out -/

variable (hb : ¬ s.clsBusy h = true)
include hb

theorem State.clsInsert_rule (hact : actReserved s.clsStaged = false) (hmask : h = true → s.hostMask (eb s.clsStaged 15 1 0) = true) :
    s.clsInsert h = (let r := s.ruleInsert (s.fld F.clsEntCmd_bank) s.clsStaged; r.1.clsDone r.2.1 r.2.2) := by
  unfold State.clsInsert
  rw [if_neg (not_not_intro ht), if_neg hb, if_neg (by cases h <;> simp_all)]

theorem State.clsDelete_found
    (hf : s.ruleFind (s.fld F.clsEntCmd_bank) s.clsStaged (fun m => m == eb s.clsStaged 15 1 0) = some n) :
    s.clsDelete h = (s.delEnt 1 0 n).clsDone 0 n := by
  unfold State.clsDelete
  rw [if_neg (by omega), if_neg hb, if_pos ht, hf]

variable (hidx : s.fld F.clsEntIndex_index = n) (hn : n < 33280)
include hidx hn

omit hb in
theorem State.clsIdx_rule : s.clsIdx = some n := by
  unfold State.clsIdx
  rw [if_pos ht, hidx]
  exact if_pos hn

theorem State.clsRead_valid (hc : s.memClean = true) (hp : s.mem.parity = []) (hv : entValid (s.ent 1 0 n) = true) :
    s.clsRead h = (s.clsStage (s.ent 1 0 n)).clsDone 0 n := by
  unfold State.clsRead
  rw [if_neg (by omega), if_neg hb, State.clsIdx_rule ht hidx hn]
  simp [ht, State.readEnt_clean hc hp, hv]

theorem State.clsRead_invalid (hc : s.memClean = true) (hp : s.mem.parity = []) (hv : entValid (s.ent 1 0 n) = false) :
    s.clsRead h = (s.clsStage []).clsDone 3 n := by
  unfold State.clsRead
  rw [if_neg (by omega), if_neg hb, State.clsIdx_rule ht hidx hn]
  simp [ht, State.readEnt_clean hc hp, hv]

theorem State.clsSetAction_valid (hact : actReserved s.clsStaged = false) (hv : entValid (s.ent 1 0 n) = true) :
    s.clsSetAction h = (s.writeEnt 1 0 n (((s.ent 1 0 n).set 13 (ew s.clsStaged 13 &&& 0xFFFF0FFF)).set 14
      (ew s.clsStaged 14 &&& 0xFFFFFFC0))).clsDone 0 n := by
  unfold State.clsSetAction
  rw [if_neg (not_not_intro ht), if_neg hb, State.clsIdx_rule ht hidx hn]
  simp [hact, hv]

theorem State.clsSetEpoch_valid (hmask : h = true → s.hostMask (eb s.clsStaged 15 1 0) = true) (hv : entValid (s.ent 1 0 n) = true) :
    s.clsSetEpoch h = (s.writeEnt 1 0 n (eput (s.ent 1 0 n) 15 1 0 (eb s.clsStaged 15 1 0))).clsDone 0 n := by
  unfold State.clsSetEpoch
  rw [if_neg (not_not_intro ht), if_neg hb, State.clsIdx_rule ht hidx hn]
  cases h <;> simp_all

end Rules

/-! ### INSERT -/

/-- The entry that INSERT stores for staged words: valid, with the staged ep_mask, and without the reserved bits. -/
def ruleEntry (e : List Word) : List Word :=
  e.take 12 ++ [ew e 12 &&& 0xFFFFBF00, ew e 13 &&& 0xFFFF0FFF, ew e 14 &&& 0xFFFFFFC0, BitVec.ofNat 32 (2147483648 + eb e 15 1 0)]

theorem ew_ruleEntry_last (hlen : 12 ≤ e.length) : ew (ruleEntry e) 15 = BitVec.ofNat 32 (2147483648 + eb e 15 1 0) := by
  simp [ew, ruleEntry, hlen]

theorem eb_lt (e : List Word) (i hi lo : Nat) : eb e i hi lo < 2 ^ (hi - lo + 1) := Nat.mod_lt _ (by positivity)

theorem entValid_ruleEntry (hlen : 12 ≤ e.length) : entValid (ruleEntry e) = true := by
  have hm : eb e 15 1 0 < 4 := eb_lt e 15 1 0
  unfold entValid ebit
  rw [ew_ruleEntry_last hlen]
  interval_cases eb e 15 1 0 <;> decide

theorem eb_ruleEntry_mask (hlen : 12 ≤ e.length) : eb (ruleEntry e) 15 1 0 = eb e 15 1 0 := by
  have hm : eb e 15 1 0 < 4 := eb_lt e 15 1 0
  rw [eb, ew_ruleEntry_last hlen]
  interval_cases eb e 15 1 0 <;> decide

theorem take_ruleEntry (hlen : 12 ≤ e.length) : (ruleEntry e).take 12 = e.take 12 :=
  List.take_left' (by simp [hlen])

variable {bank : Nat}

theorem State.ruleInsert_exists (hf : s.ruleFind bank e (fun m => (m &&& eb e 15 1 0) != 0) = some n) :
    s.ruleInsert bank e = (s, 1, n) := by
  unfold State.ruleInsert
  rw [hf]

section Free

variable (hf : s.ruleFind bank e (fun m => (m &&& eb e 15 1 0) != 0) = none)
include hf

theorem State.ruleInsert_full
    (hfree : s.freeEnt 1 (bank * 8192) (s.ruleBucket bank (e.take 12)) (32768 + bank * 128) 128 entValid = none) :
    s.ruleInsert bank e = (s, 2, 0) := by
  unfold State.ruleInsert
  rw [hf, hfree]

theorem State.ruleInsert_free
    (hfree : s.freeEnt 1 (bank * 8192) (s.ruleBucket bank (e.take 12)) (32768 + bank * 128) 128 entValid = some n) :
    s.ruleInsert bank e = ((s.writeEnt 1 0 n (ruleEntry e)).setEnt 2 0 n [0, 0], 0, n) := by
  unfold State.ruleInsert
  rw [hf, hfree]
  rfl

end Free

/-- A free entry of a bank lies in the rule table. -/
theorem State.freeRule_lt {key : List Word} {used : List Word → Bool} (hbank : bank < 4)
    (hfree : s.freeEnt 1 (bank * 8192) (s.ruleBucket bank key) (32768 + bank * 128) 128 used = some n) : n < 33280 := by
  have hb : s.ruleBucket bank key < 2048 := Nat.mod_lt _ (by decide)
  have hr := State.freeEnt_range hfree
  omega

/-- INSERT stores the rule and clears its hit counter; the other rules stay. -/
theorem State.ruleInsert_spec (h : s.storesAsGiven 1) (hn : n < 33280) (e : List Word) :
    let u := (s.writeEnt 1 0 n e).setEnt 2 0 n [0, 0]
    u.ent 1 0 n = e ∧ u.ent 2 0 n = [0, 0] ∧ ∀ m : Fin 33280, m.val ≠ n → u.ent 1 0 m = s.ent 1 0 m := by
  have hw := State.wrote_writeEnt h 0 n e
  have hkey (m : Nat) (hm : m < 33280) : tabKey 1 0 m ≠ tabKey 2 0 n := tabKey_ne 0 0 (by decide) (by omega) (by omega)
  refine ⟨?_, State.ent_setEnt_same .., fun m hm => ?_⟩
  · rw [State.ent_setEnt_other _ _ (hkey n hn), hw.same]
  · rw [State.ent_setEnt_other _ _ (hkey m m.isLt), hw.ent_ne hm]

/-! ### The obligation -/

/-- CLS_ENT_STAT shows a result and an index. -/
def clsAnswer (res idx : Nat) (u : State) : Prop := u.fld F.clsEntStat_result = res ∧ u.fld F.clsEntStat_index = idx

section Commands

variable {p : Path} {i : Instr} {t : State} {res table bank : Nat}

/-- A command that only answers leaves the switching side as it was. -/
theorem clsAnswers {f : State → State} (he : ∃ t, ClsAsked s table bank t ∧ exec i s = .next (f t))
    (hf : ∀ t, ClsAsked s table bank t → f t = t.clsDone res n) (hres : res < 16 := by decide) (hn : n < 262144 := by decide) :
    ∃ u, exec i s = .next u ∧ clsAnswer res n u ∧ u.net = s.net := by
  obtain ⟨t, a, he⟩ := he
  exact ⟨_, he.trans (congrArg _ (hf t a)), State.clsDone_stat _ hres hn, (State.clsDone_net ..).trans a.net⟩

/-- A command on the rule table meets no loader that holds it. -/
theorem ClsAsked.notBusy (a : ClsAsked s 0 bank t) (hl : p ≠ .fw → s.loaderHolds = false) : ¬ t.clsBusy (p != .fw) = true := by
  rw [State.clsBusy_iff a.table, a.loaderHolds]
  rintro ⟨hp, hh⟩
  rw [hl (by simpa using hp)] at hh
  exact absurd hh (by decide)

/-- The staged mask is one that the sender may set. -/
theorem ClsAsked.maskOk (a : ClsAsked s table bank t) (hmask : p ≠ .fw → s.hostMask (eb s.clsStaged 15 1 0) = true) :
    (p != .fw) = true → t.hostMask (eb t.clsStaged 15 1 0) = true := fun hp => by
  rw [a.staged, a.hostMask]
  exact hmask (by simpa using hp)

variable (hs : s.servesReg p .clsEntCmd 0 = true) (hm : s.mem.merge = [])
include hs hm

/-- A reserved table code is BAD_ARG (R97). -/
theorem clsCommands_badTable (table bank : BitVec 2) (ht : table = 2 ∨ table = 3) :
    (∃ u, exec (.clsInsert p table bank) s = .next u ∧ clsAnswer 5 0 u ∧ u.net = s.net) ∧
    (∃ u, exec (.clsDelete p table bank) s = .next u ∧ clsAnswer 5 0 u ∧ u.net = s.net) ∧
    (∃ u, exec (.clsRead p table) s = .next u ∧ clsAnswer 5 0 u ∧ u.net = s.net) ∧
    (∃ u, exec (.clsSetAction p table) s = .next u ∧ clsAnswer 5 0 u ∧ u.net = s.net) ∧
    (∃ u, exec (.clsSetEpoch p table) s = .next u ∧ clsAnswer 5 0 u ∧ u.net = s.net) ∧
    (∃ u, exec (.clsFlush p table) s = .next u ∧ clsAnswer 5 0 u ∧ u.net = s.net) := by
  have h2 {t : State} {b : Nat} (a : ClsAsked s table.toNat b t) : 2 ≤ t.clsTable := by
    rw [a.table]
    rcases ht with rfl | rfl <;> decide
  exact ⟨clsAnswers (exec_clsInsert hs hm table bank) fun _ a => State.clsInsert_badTable (by have := h2 a; omega),
    clsAnswers (exec_clsDelete hs hm table bank) fun _ a => State.clsDelete_badTable (h2 a),
    clsAnswers (exec_clsRead hs hm table) fun _ a => State.clsRead_badTable (h2 a),
    clsAnswers (exec_clsSetAction hs hm table) fun _ a => State.clsSetAction_badTable (by have := h2 a; omega),
    clsAnswers (exec_clsSetEpoch hs hm table) fun _ a => State.clsSetEpoch_badTable (by have := h2 a; omega),
    clsAnswers (exec_clsFlush hs hm table) fun _ a => State.clsFlush_badTable (by have := h2 a; omega)⟩

/-- A rule table that the loader holds is BUSY for host software (R98). -/
theorem clsCommands_busy (hp : p ≠ .fw) (hl : s.loaderHolds = true) (bank : BitVec 2) :
    (∃ u, exec (.clsInsert p 0 bank) s = .next u ∧ clsAnswer 4 0 u ∧ u.net = s.net) ∧
    (∃ u, exec (.clsDelete p 0 bank) s = .next u ∧ clsAnswer 4 0 u ∧ u.net = s.net) ∧
    (∃ u, exec (.clsRead p 0) s = .next u ∧ clsAnswer 4 0 u ∧ u.net = s.net) ∧
    (∃ u, exec (.clsSetAction p 0) s = .next u ∧ clsAnswer 4 0 u ∧ u.net = s.net) ∧
    (∃ u, exec (.clsSetEpoch p 0) s = .next u ∧ clsAnswer 4 0 u ∧ u.net = s.net) := by
  have hb {t : State} {b : Nat} (a : ClsAsked s 0 b t) : t.clsBusy (p != .fw) = true :=
    (State.clsBusy_iff a.table).mpr ⟨by simpa using hp, a.loaderHolds.trans hl⟩
  exact ⟨clsAnswers (exec_clsInsert hs hm 0 bank) fun _ a => State.clsInsert_busy a.table (hb a),
    clsAnswers (exec_clsDelete hs hm 0 bank) fun _ a => State.clsDelete_busy a.table (hb a),
    clsAnswers (exec_clsRead hs hm 0) fun _ a => State.clsRead_busy a.table (hb a),
    clsAnswers (exec_clsSetAction hs hm 0) fun _ a => State.clsSetAction_busy a.table (hb a),
    clsAnswers (exec_clsSetEpoch hs hm 0) fun _ a => State.clsSetEpoch_busy a.table (hb a)⟩

/-- FLUSH leaves no connection, and every rule (R97). -/
theorem clsFlush_deletesConnections : ∃ u, exec (.clsFlush p 1) s = .next u ∧ clsAnswer 0 0 u ∧
    (∀ n : Fin 133120, entValid (u.ent 3 0 n) = false) ∧ ∀ m : Fin 33280, u.ent 1 0 m = s.ent 1 0 m := by
  obtain ⟨t, a, he⟩ := exec_clsFlush hs hm 1
  have hst : t.storesAsGiven 3 := .inl rfl
  have hrun : t.clsFlush = (t.purge 3 0 entValid).clsDone 0 0 := if_neg (not_not_intro a.table)
  refine ⟨_, he.trans (congrArg _ hrun), State.clsDone_stat _ (by decide) (by decide), fun n => ?_, fun m => ?_⟩
  · rw [State.clsDone_ent]
    exact State.purge_spec hst (by decide) n.isLt
  · rw [State.clsDone_ent, State.ent_purge_other hst _ (by decide) (by omega) (by decide), a.ent]

section Carried

variable (hl : p ≠ .fw → s.loaderHolds = false)
include hl

/-- INSERT into a bank (R97). -/
theorem clsInsert_results (harm : s.on F.memFlipCtrl_arm = false) (hact : actReserved s.clsStaged = false)
    (hmask : p ≠ .fw → s.hostMask (eb s.clsStaged 15 1 0) = true) (bank : BitVec 2) (n : Nat) : let e := s.clsStaged
    (s.ruleFind bank.toNat e (fun m => (m &&& eb e 15 1 0) != 0) = some n → n < 33280 →
      ∃ u, exec (.clsInsert p 0 bank) s = .next u ∧ clsAnswer 1 n u ∧ u.net = s.net) ∧
    (s.ruleFind bank.toNat e (fun m => (m &&& eb e 15 1 0) != 0) = none →
      (s.freeEnt 1 (bank.toNat * 8192) (s.ruleBucket bank.toNat (e.take 12)) (32768 + bank.toNat * 128) 128 entValid = some n →
        ∃ u, exec (.clsInsert p 0 bank) s = .next u ∧ clsAnswer 0 n u ∧ entValid (u.ent 1 0 n) = true ∧
          (u.ent 1 0 n).take 12 = e.take 12 ∧ eb (u.ent 1 0 n) 15 1 0 = eb e 15 1 0 ∧ u.ent 2 0 n = [0, 0] ∧
          ∀ m : Fin 33280, m.val ≠ n → u.ent 1 0 m = s.ent 1 0 m) ∧
      (s.freeEnt 1 (bank.toNat * 8192) (s.ruleBucket bank.toNat (e.take 12)) (32768 + bank.toNat * 128) 128 entValid = none →
        ∃ u, exec (.clsInsert p 0 bank) s = .next u ∧ clsAnswer 2 0 u ∧ u.net = s.net)) := by
  intro e
  have hlen : 12 ≤ e.length := by simp [e, State.clsStaged]
  have hcmd {t r : State} {res i : Nat} (a : ClsAsked s 0 bank.toNat t) (hr : t.ruleInsert bank.toNat e = (r, res, i)) :
      t.clsInsert (p != .fw) = r.clsDone res i := by
    rw [State.clsInsert_rule a.table (a.notBusy hl) (by rwa [a.staged]) (a.maskOk hmask), a.bank, a.staged, hr]
  refine ⟨fun hf hn => ?_, fun hf => ⟨fun hfree => ?_, fun hfree => ?_⟩⟩
  · exact clsAnswers (exec_clsInsert hs hm 0 bank) (hn := by omega) fun _ a =>
      hcmd a (State.ruleInsert_exists ((a.ruleFind ..).trans hf))
  · obtain ⟨t, a, he⟩ := exec_clsInsert hs hm 0 bank
    have hn := State.freeRule_lt bank.isLt hfree
    have hr := State.ruleInsert_free ((a.ruleFind ..).trans hf) (by rw [a.freeEnt, a.ruleBucket, hfree])
    obtain ⟨hrule, hhits, hother⟩ := State.ruleInsert_spec (a.storesAsGiven (.inr harm)) hn (ruleEntry e)
    refine ⟨_, he.trans (congrArg _ (hcmd a hr)), State.clsDone_stat _ (by decide) (by omega), ?_⟩
    simp only [State.clsDone_ent, hrule, hhits]
    exact ⟨entValid_ruleEntry hlen, take_ruleEntry hlen, eb_ruleEntry_mask hlen, trivial, fun m hm => (hother m hm).trans (a.ent ..)⟩
  · exact clsAnswers (exec_clsInsert hs hm 0 bank) fun _ a => hcmd a (State.ruleInsert_full ((a.ruleFind ..).trans hf)
      (by rw [a.freeEnt, a.ruleBucket, hfree]))

/-- DELETE of the entry with the staged key, profile and mask (R97). -/
theorem clsDelete_deletesRule (harm : s.on F.memFlipCtrl_arm = false) (bank : BitVec 2)
    (hf : s.ruleFind bank.toNat s.clsStaged (fun m => m == eb s.clsStaged 15 1 0) = some n) (hn : n < 33280) :
    ∃ u, exec (.clsDelete p 0 bank) s = .next u ∧ clsAnswer 0 n u ∧ u.ent 1 0 n = List.replicate 16 0 ∧
      ∀ m : Fin 33280, m.val ≠ n → u.ent 1 0 m = s.ent 1 0 m := by
  obtain ⟨t, a, he⟩ := exec_clsDelete hs hm 0 bank
  have hw := State.wrote_delEnt (a.storesAsGiven (id := 1) (.inr harm)) 0 n
  have hd := State.clsDelete_found a.table (a.notBusy hl) (by rw [a.bank, a.staged, a.ruleFind, hf])
  exact ⟨_, he.trans (congrArg _ hd), State.clsDone_stat _ (by decide) (by omega), (State.clsDone_ent ..).trans hw.same,
    fun m hne => (State.clsDone_ent ..).trans ((hw.ent_ne hne).trans (a.ent ..))⟩

/-! ### Commands on the entry of CLS_ENT_INDEX -/

variable (hidx : s.fld F.clsEntIndex_index = n) (hn : n < 33280)
include hidx hn

/-- READ without errors stages a valid entry, or zeros with NOT_FOUND (R97). -/
theorem clsRead_stagesRule (hc : s.memClean = true) (hp : s.mem.parity = []) :
    (entValid (s.ent 1 0 n) = true → ∃ u, exec (.clsRead p 0) s = .next u ∧ clsAnswer 0 n u ∧
      (∀ k : Fin 16, u.rd .clsEntData k = ew (s.ent 1 0 n) k) ∧ u.net = s.net) ∧
    (entValid (s.ent 1 0 n) = false → ∃ u, exec (.clsRead p 0) s = .next u ∧ clsAnswer 3 n u ∧
      (∀ k : Fin 16, u.rd .clsEntData k = 0) ∧ u.net = s.net) := by
  obtain ⟨t, a, he⟩ := exec_clsRead hs hm 0
  have hi : t.fld F.clsEntIndex_index = n := (a.fld (by decide) 0).trans hidx
  have hc' : t.memClean = true := a.memClean.trans hc
  have hp' : t.mem.parity = [] := by rw [a.mem, hp]
  have hstage (e : List Word) (res : Nat) : ((t.clsStage e).clsDone res n).net = s.net := by
    rw [State.clsDone_net, State.clsStage_net, a.net]
  refine ⟨fun hv => ?_, fun hv => ?_⟩
  · have hr := State.clsRead_valid a.table (a.notBusy hl) hi hn hc' hp' (by rw [a.ent, hv])
    rw [a.ent] at hr
    exact ⟨_, he.trans (congrArg _ hr), State.clsDone_stat _ (by decide) (by omega), State.rd_clsStage_done _ _ _ _, hstage ..⟩
  · have hr := State.clsRead_invalid a.table (a.notBusy hl) hi hn hc' hp' (by rw [a.ent, hv])
    exact ⟨_, he.trans (congrArg _ hr), State.clsDone_stat _ (by decide) (by omega), State.rd_clsStage_done _ _ _ _, hstage ..⟩

section Writes

variable (harm : s.on F.memFlipCtrl_arm = false) (hv : entValid (s.ent 1 0 n) = true)
include harm hv

/-- SET_ACTION writes words 13 and 14 (R97). -/
theorem clsSetAction_writesAction (hact : actReserved s.clsStaged = false) : ∃ u, exec (.clsSetAction p 0) s = .next u ∧ clsAnswer 0 n u ∧
    u.ent 1 0 n = ((s.ent 1 0 n).set 13 (ew s.clsStaged 13 &&& 0xFFFF0FFF)).set 14 (ew s.clsStaged 14 &&& 0xFFFFFFC0) := by
  obtain ⟨t, a, he⟩ := exec_clsSetAction hs hm 0
  have hset := State.clsSetAction_valid a.table (a.notBusy hl) ((a.fld (by decide) 0).trans hidx) hn (by rwa [a.staged]) (by rwa [a.ent])
  rw [a.staged, a.ent] at hset
  exact ⟨_, he.trans (congrArg _ hset), State.clsDone_stat _ (by decide) (by omega),
    (State.clsDone_ent ..).trans (State.wrote_writeEnt (a.storesAsGiven (.inr harm)) 0 n _).same⟩

/-- SET_EPOCH writes ep_mask (R97, R98). -/
theorem clsSetEpoch_writesMask (hmask : p ≠ .fw → s.hostMask (eb s.clsStaged 15 1 0) = true) : ∃ u, exec (.clsSetEpoch p 0) s = .next u ∧
    clsAnswer 0 n u ∧ u.ent 1 0 n = eput (s.ent 1 0 n) 15 1 0 (eb s.clsStaged 15 1 0) := by
  obtain ⟨t, a, he⟩ := exec_clsSetEpoch hs hm 0
  have hset := State.clsSetEpoch_valid a.table (a.notBusy hl) ((a.fld (by decide) 0).trans hidx) hn (a.maskOk hmask) (by rwa [a.ent])
  rw [a.staged, a.ent] at hset
  exact ⟨_, he.trans (congrArg _ hset), State.clsDone_stat _ (by decide) (by omega),
    (State.clsDone_ent ..).trans (State.wrote_writeEnt (a.storesAsGiven (.inr harm)) 0 n _).same⟩

end Writes

end Carried

end Commands

/-- Settles O34: a served go write runs its command on the staged words, and each command is a search, a write of one entry, or an
answer. INSERT makes the entry valid whatever valid bit is staged (log entry 96). -/
theorem classifierTableCommands : Obligations.ClassifierTableCommands := by
  unfold Obligations.ClassifierTableCommands
  intro s p hs hm e idx done
  refine ⟨fun table bank ht => clsCommands_badTable hs hm table bank ht, fun hp hl bank => clsCommands_busy hs hm hp hl bank,
    fun hl harm => ⟨fun bank n => ⟨?_, ?_⟩, fun hn => ⟨?_, ?_, ?_, ?_⟩⟩, clsFlush_deletesConnections hs hm⟩
  · exact fun hact hmask => clsInsert_results hs hm hl harm hact hmask bank n
  · exact fun hf hn => clsDelete_deletesRule hs hm hl harm bank hf hn
  · exact fun herr hpar hmrg hv => (clsRead_stagesRule hs hm hl rfl hn (by simp [State.memClean, herr, hmrg]) hpar).1 hv
  · exact fun hact _ hv => clsSetAction_writesAction hs hm hl rfl hn harm hv hact
  · exact fun hmask _ hv => clsSetEpoch_writesMask hs hm hl rfl hn harm hv hmask
  · exact fun hv herr hpar hmrg => (clsRead_stagesRule hs hm hl rfl hn (by simp [State.memClean, herr, hmrg]) hpar).2 hv

end Sys2Proof.Machine
end

section
/-! ## The commands of FDB_ENT_CMD (R98, R132) -/

namespace Sys2Proof.Machine

open Sys2Proof

variable {s : State} {p : Path} {op : Nat}

/-- The state in which a command acts: op stands in FDB_ENT_CMD. -/
def State.fdbAsked (s : State) (p : Path) (op : Nat) : State :=
  (s.nextSeq p).wr .fdbEntCmd 0 (putBits (s.rd .fdbEntCmd) 27 24 op)

/-- The field op takes that of a written word, and no value of it is refused. -/
theorem State.writeReg_fdbEntCmd (s : State) (data : Word) :
    s.writeReg .fdbEntCmd 0 data = s.wr .fdbEntCmd 0 (putBits (s.rd .fdbEntCmd) 27 24 (getBits data 27 24)) := rfl

/-! ### What the request leaves alone -/

section Asked

variable (s : State) (p : Path) (op : Nat)

@[simp] theorem State.fdbAsked_net : (s.fdbAsked p op).net = s.net := (State.wr_net ..).trans (State.nextSeq_net ..)
@[simp] theorem State.fdbAsked_mem : (s.fdbAsked p op).mem = s.mem := (State.wr_mem ..).trans (State.nextSeq_mem ..)
@[simp] theorem State.fdbAsked_tim : (s.fdbAsked p op).tim = s.tim := (State.wr_tim ..).trans (State.nextSeq_tim ..)
@[simp] theorem State.fdbAsked_boot : (s.fdbAsked p op).boot = s.boot := (State.wr_boot ..).trans (State.nextSeq_boot ..)
@[simp] theorem State.fdbAsked_mram : (s.fdbAsked p op).mram = s.mram := (State.wr_mram ..).trans (State.nextSeq_mram ..)

@[simp] theorem State.ctr_fdbAsked (c : Ctr) (i : Nat) : (s.fdbAsked p op).ctr c i = s.ctr c i := State.ctr_wr (s.nextSeq p) ..

theorem State.rd_fdbAsked {r : Reg} (h : r ≠ .fdbEntCmd) (i : Nat) : (s.fdbAsked p op).rd r i = s.rd r i :=
  State.rd_wr_reg (s.nextSeq p) .fdbEntCmd r 0 i _ h

theorem State.fld_fdbAsked {f : RegField} (h : f.reg ≠ .fdbEntCmd) (i : Nat) : (s.fdbAsked p op).fld f i = s.fld f i :=
  congrArg (getBits · f.hi f.lo) (s.rd_fdbAsked p op h i)

theorem State.on_fdbAsked {f : RegField} (h : f.reg ≠ .fdbEntCmd) (i : Nat) : (s.fdbAsked p op).on f i = s.on f i :=
  congrArg (· != 0) (s.fld_fdbAsked p op h i)

@[simp] theorem State.ent_fdbAsked (id par n : Nat) : (s.fdbAsked p op).ent id par n = s.ent id par n := by
  simp only [State.ent, State.fdbAsked_net]

@[simp] theorem State.listed_fdbAsked (id par lo hi : Nat) : (s.fdbAsked p op).listed id par lo hi = s.listed id par lo hi := by
  simp only [State.listed, State.fdbAsked_net]

@[simp] theorem State.nowS_fdbAsked : (s.fdbAsked p op).nowS = s.nowS := by
  simp only [State.nowS, State.fdbAsked_tim, State.fdbAsked_net]

@[simp] theorem State.nowMs_fdbAsked : (s.fdbAsked p op).nowMs = s.nowMs := by
  simp only [State.nowMs, State.fdbAsked_tim]

@[simp] theorem State.loaderHolds_fdbAsked : (s.fdbAsked p op).loaderHolds = s.loaderHolds := by
  simp only [State.loaderHolds, State.fdbAsked_boot]

@[simp] theorem State.hostMask_fdbAsked (m : Nat) : (s.fdbAsked p op).hostMask m = s.hostMask m := by
  simp only [State.hostMask, State.epoch, State.bcr, State.fdbAsked_mram]

@[simp] theorem State.memClean_fdbAsked : (s.fdbAsked p op).memClean = s.memClean := by
  simp only [State.memClean, State.fdbAsked_mem]

theorem State.storesAsGiven_fdbAsked {id : Nat} (h : s.storesAsGiven id) : (s.fdbAsked p op).storesAsGiven id :=
  h.imp_right (s.on_fdbAsked p op (by decide) 0).trans

@[simp] theorem State.fdbStaged_fdbAsked : (s.fdbAsked p op).fdbStaged = s.fdbStaged :=
  List.map_congr_left fun k _ => s.rd_fdbAsked p op (by decide) k

@[simp] theorem State.fdbDyn_fdbAsked (e : List Word) : (s.fdbAsked p op).fdbDyn e = s.fdbDyn e := by
  simp only [State.fdbDyn, State.nowS_fdbAsked, State.nowMs_fdbAsked]

@[simp] theorem State.fdbBucket_fdbAsked (fid mac : Nat) : (s.fdbAsked p op).fdbBucket fid mac = s.fdbBucket fid mac := by
  rw [State.fdbBucket, s.rd_fdbAsked p op (by decide), State.fdbBucket]

@[simp] theorem State.fdbProbed_fdbAsked (fid mac : Nat) : (s.fdbAsked p op).fdbProbed fid mac = s.fdbProbed fid mac := by
  simp only [State.fdbProbed, State.probed, State.fdbBucket_fdbAsked, State.listed_fdbAsked]

@[simp] theorem State.freeEnt_fdbAsked (id base bucket ovf cnt : Nat) (used : List Word → Bool) :
    (s.fdbAsked p op).freeEnt id base bucket ovf cnt used = s.freeEnt id base bucket ovf cnt used := by
  simp only [State.freeEnt, State.ent_fdbAsked, State.listed_fdbAsked]

@[simp] theorem State.fdbExpired_fdbAsked (e : List Word) : (s.fdbAsked p op).fdbExpired e = s.fdbExpired e := by
  rw [State.fdbExpired, s.fld_fdbAsked p op (by decide), State.nowS_fdbAsked, State.fdbExpired]

@[simp] theorem State.fdbHeld_fdbAsked (e : List Word) : (s.fdbAsked p op).fdbHeld e = s.fdbHeld e := by
  rw [State.fdbHeld, s.fld_fdbAsked p op (by decide), State.nowMs_fdbAsked, State.fdbHeld]

end Asked

/-! ### The write that starts a command -/

section Start

variable (hs : s.servesReg p .fdbEntCmd 0 = true) (hm : s.mem.merge = [])
include hs hm

/-- A served go write runs the command that op names. -/
theorem State.fdbCmd_eq (hop : op < 16) :
    s.fdbCmd p op = (let h := p != .fw; let u := s.fdbAsked p op
      if op = 1 then u.fdbInsert h
      else if op = 2 then u.fdbDelete h
      else if op = 3 then u.fdbRead h
      else if op = 6 then u.fdbFlush h
      else if op = 7 then (if h && u.loaderHolds then u.fdbDone 4 0 else u.fdbLearn u.fdbStaged)
      else u.fdbDone 5 0) := by
  have hword : getBits (putBits (putBits 0 31 31 1) 27 24 op) 27 24 = op :=
    (getBits_putBits _ _ _ _ (by decide) (by decide)).trans (Nat.mod_eq_of_lt hop)
  have hgo : getBit (putBits (putBits 0 31 31 1) 27 24 op) 31 = true := by
    rw [getBit_putBits _ _ (by decide) (by decide), if_neg (by decide)]
    decide
  have hw : (s.nextSeq p).writeReg .fdbEntCmd 0 (putBits (putBits 0 31 31 1) 27 24 op) = s.fdbAsked p op := by
    rw [State.writeReg_fdbEntCmd, hword, State.rd_nextSeq, State.fdbAsked]
  have hfld : (s.fdbAsked p op).fld F.fdbEntCmd_op = op :=
    (congrArg (getBits · 27 24) (State.rd_wr_same ..)).trans
      ((getBits_putBits _ _ _ _ (by decide) (by decide)).trans (Nat.mod_eq_of_lt hop))
  have hu : (s.fdbAsked p op).mem.merge = [] := by rw [State.fdbAsked_mem, hm]
  unfold State.fdbCmd State.accessReg
  rw [State.access_of_serves (off := Reg.fdbEntCmd.addr 0) hs]
  simp only [State.wrFdbEntCmd, hw, hgo, State.flushBlk_of_merge_nil hu, hfld, Bool.not_true,
    Bool.false_eq_true, if_false]

theorem exec_fdbInsert : exec (.fdbInsert p) s = .next ((s.fdbAsked p 1).fdbInsert (p != .fw)) := by
  show Host.Outcome.next (s.fdbCmd p 1) = _
  simp [State.fdbCmd_eq hs hm (op := 1) (by decide)]

theorem exec_fdbDelete : exec (.fdbDelete p) s = .next ((s.fdbAsked p 2).fdbDelete (p != .fw)) := by
  show Host.Outcome.next (s.fdbCmd p 2) = _
  simp [State.fdbCmd_eq hs hm (op := 2) (by decide)]

theorem exec_fdbRead : exec (.fdbRead p) s = .next ((s.fdbAsked p 3).fdbRead (p != .fw)) := by
  show Host.Outcome.next (s.fdbCmd p 3) = _
  simp [State.fdbCmd_eq hs hm (op := 3) (by decide)]

theorem exec_fdbFlush : exec (.fdbFlush p) s = .next ((s.fdbAsked p 6).fdbFlush (p != .fw)) := by
  show Host.Outcome.next (s.fdbCmd p 6) = _
  simp [State.fdbCmd_eq hs hm (op := 6) (by decide)]

theorem exec_fdbLearn : exec (.fdbLearn p) s = .next (if (p != .fw) && s.loaderHolds then (s.fdbAsked p 7).fdbDone 4 0
    else (s.fdbAsked p 7).fdbLearn s.fdbStaged) := by
  show Host.Outcome.next (s.fdbCmd p 7) = _
  simp [State.fdbCmd_eq hs hm (op := 7) (by decide)]

end Start

/-! ### Results -/

/-- FDB_ENT_STAT shows a result and an index. -/
def fdbAnswer (res idx : Nat) (u : State) : Prop := u.fld F.fdbEntStat_result = res ∧ u.fld F.fdbEntStat_index = idx

section Results

variable (s : State) (e : List Word) (res idx : Nat)

@[simp] theorem State.fdbDone_net : (s.fdbDone res idx).net = s.net := State.wr_net ..
@[simp] theorem State.ctr_fdbDone (c : Ctr) (i : Nat) : (s.fdbDone res idx).ctr c i = s.ctr c i := State.ctr_wr ..

theorem State.rd_fdbDone {r : Reg} (h : r ≠ .fdbEntStat) (i : Nat) : (s.fdbDone res idx).rd r i = s.rd r i :=
  State.rd_wr_reg s .fdbEntStat r 0 i _ h

@[simp] theorem State.fdbDonePair_tabs : (s.fdbDonePair e res idx).net.tabs = s.net.tabs :=
  (congrArg Net.tabs (State.fdbDone_net (s.pendDrop _) res idx)).trans rfl

@[simp] theorem State.ent_fdbDonePair (id par n : Nat) : (s.fdbDonePair e res idx).ent id par n = s.ent id par n := by
  simp only [State.ent, State.fdbDonePair_tabs]

@[simp] theorem State.ctr_fdbDonePair (c : Ctr) (i : Nat) : (s.fdbDonePair e res idx).ctr c i = s.ctr c i :=
  (s.pendDrop _).ctr_fdbDone res idx c i

theorem State.rd_fdbDonePair {r : Reg} (h : r ≠ .fdbEntStat) (i : Nat) : (s.fdbDonePair e res idx).rd r i = s.rd r i :=
  (s.pendDrop _).rd_fdbDone res idx h i

/-- A command that completes releases the filter entry of its pair (R113). -/
theorem State.fdbDonePair_pendFind : (s.fdbDonePair e res idx).pendFind (fdbFid e) (fdbMac e) = none := by
  have hnet : (s.fdbDonePair e res idx).net.pend = s.net.pend.filter fun x => !(x.fid == fdbFid e && x.mac == fdbMac e) :=
    congrArg Net.pend (State.fdbDone_net (s.pendDrop _) res idx)
  rw [State.pendFind, hnet]
  refine List.find?_eq_none.mpr fun x hx => ?_
  obtain ⟨-, hkept⟩ := List.mem_filter.mp hx
  exact Bool.not_eq_true _ ▸ Bool.not_eq_true' _ ▸ hkept

variable {res idx}

theorem State.fdbDone_answer (hres : res < 16) (hidx : idx < 131072) : fdbAnswer res idx (s.fdbDone res idx) := by
  have hrd : (s.fdbDone res idx).rd .fdbEntStat = putBits (putBits 0 31 28 res) 16 0 idx := State.rd_wr_same ..
  constructor
  · refine (congrArg (getBits · 31 28) hrd).trans ?_
    rw [getBits_putBits_above _ _ (by decide) (by decide) (by decide) (by decide), getBits_putBits _ _ _ _ (by decide) (by decide)]
    exact Nat.mod_eq_of_lt hres
  · refine (congrArg (getBits · 16 0) hrd).trans ?_
    rw [getBits_putBits _ _ _ _ (by decide) (by decide)]
    exact Nat.mod_eq_of_lt hidx

theorem State.fdbDonePair_answer (hres : res < 16) (hidx : idx < 131072) : fdbAnswer res idx (s.fdbDonePair e res idx) :=
  (s.pendDrop _).fdbDone_answer hres hidx

end Results

end Sys2Proof.Machine
end

section
/-! ## LEARN and its table of results (R113, R115, R117) -/

namespace Sys2Proof.Machine

open Sys2Proof

variable {s : State} {e x : List Word} {n : Nat}

/-! ### Entries with the key of a staged entry -/

/-- The probed entries that are valid and have the key of `e`. -/
def State.fdbSame (s : State) (e : List Word) : List (Nat × List Word) :=
  ((s.fdbProbed (fdbFid e) (fdbMac e)).map fun n => (n, s.ent 0x10 0 n)).filter fun x => fdbKeyEq (fdbFid e) (fdbMac e) x.2

/-- The place that an insertion of `e` takes (R82). -/
def State.fdbFree (s : State) (e : List Word) : Option Nat :=
  s.freeEnt 0x10 0 (s.fdbBucket (fdbFid e) (fdbMac e)) 65536 1024 fdbValid

@[simp] theorem State.fdbSame_fdbAsked (s : State) (p : Path) (op : Nat) (e : List Word) : (s.fdbAsked p op).fdbSame e = s.fdbSame e := by
  simp [State.fdbSame]

@[simp] theorem State.fdbFree_fdbAsked (s : State) (p : Path) (op : Nat) (e : List Word) : (s.fdbAsked p op).fdbFree e = s.fdbFree e := by
  simp [State.fdbFree]

theorem State.fdbFree_lt (h : s.fdbFree e = some n) : n < 66560 := by
  have hb : s.fdbBucket (fdbFid e) (fdbMac e) < 16384 := Nat.mod_lt _ (by decide)
  have hr := State.freeEnt_range h
  omega

/-- A search for an entry of the key that satisfies `q` goes through the entries with the key. -/
theorem State.fdbSame_find (s : State) (e : List Word) (q : List Word → Bool) : (s.fdbSame e).find? (fun x => q x.2) =
    ((s.fdbProbed (fdbFid e) (fdbMac e)).find? fun n =>
      fdbKeyEq (fdbFid e) (fdbMac e) (s.ent 0x10 0 n) && q (s.ent 0x10 0 n)).map fun n => (n, s.ent 0x10 0 n) := by
  rw [State.fdbSame, List.find?_filter, List.find?_map]
  simp

/-! ### The rows of the table -/

theorem State.fdbLearn_new (hsame : s.fdbSame e = []) (hfree : s.fdbFree e = some n) :
    s.fdbLearn e = (s.writeEnt 0x10 0 n (s.fdbDyn e)).fdbDonePair e 0 n := by
  unfold State.fdbSame at hsame
  unfold State.fdbFree at hfree
  simp only [State.fdbLearn, hsame, List.find?_nil, hfree]

theorem State.fdbLearn_full (hsame : s.fdbSame e = []) (hfree : s.fdbFree e = none) :
    s.fdbLearn e = (s.bump .fdbLearnFail).fdbDonePair e 2 0 := by
  unfold State.fdbSame at hsame
  unfold State.fdbFree at hfree
  simp only [State.fdbLearn, hsame, List.find?_nil, hfree]

section Known

variable (hsame : s.fdbSame e = [(n, x)])
include hsame

theorem State.fdbLearn_static (hstat : fdbStatic x = true) : s.fdbLearn e = s.fdbDonePair e 9 n := by
  unfold State.fdbSame at hsame
  simp only [State.fdbLearn, hsame, List.find?_cons, hstat]

variable (hdyn : fdbStatic x = false)
include hdyn

/-- LEARN of a key that one dynamic entry has. -/
theorem State.fdbLearn_dynamic : s.fdbLearn e =
    if s.fdbExpired x then (s.writeEnt 0x10 0 n (s.fdbDyn e)).fdbDonePair e 0 n
    else if fdbPort x = fdbPort e then (s.writeEnt 0x10 0 n (eput x 3 19 4 (s.nowS % 65536))).fdbDonePair e 0 n
    else if s.fdbHeld x then (s.flapHeld e).fdbDonePair e 8 n
    else (s.writeEnt 0x10 0 n (eput (eput x 2 11 6 (fdbPort e)) 3 30 20 s.nowMs)).fdbDonePair e 7 n := by
  unfold State.fdbSame at hsame
  simp only [State.fdbLearn, hsame, List.find?_cons, hdyn, List.find?_nil]

theorem State.fdbLearn_expired (hexp : s.fdbExpired x = true) :
    s.fdbLearn e = (s.writeEnt 0x10 0 n (s.fdbDyn e)).fdbDonePair e 0 n :=
  (State.fdbLearn_dynamic hsame hdyn).trans (if_pos hexp)

variable (hlive : s.fdbExpired x = false)
include hlive

theorem State.fdbLearn_refresh (hport : fdbPort x = fdbPort e) :
    s.fdbLearn e = (s.writeEnt 0x10 0 n (eput x 3 19 4 (s.nowS % 65536))).fdbDonePair e 0 n := by
  simp [State.fdbLearn_dynamic hsame hdyn, hlive, hport]

variable (hport : fdbPort x ≠ fdbPort e)
include hport

theorem State.fdbLearn_held (hheld : s.fdbHeld x = true) : s.fdbLearn e = (s.flapHeld e).fdbDonePair e 8 n := by
  simp [State.fdbLearn_dynamic hsame hdyn, hlive, hport, hheld]

theorem State.fdbLearn_move (hheld : s.fdbHeld x = false) :
    s.fdbLearn e = (s.writeEnt 0x10 0 n (eput (eput x 2 11 6 (fdbPort e)) 3 30 20 s.nowMs)).fdbDonePair e 7 n := by
  simp [State.fdbLearn_dynamic hsame hdyn, hlive, hport, hheld]

end Known

/-- Every result of LEARN completes the command for its pair (R113). -/
theorem State.fdbLearn_pendFind (s : State) (e : List Word) : (s.fdbLearn e).pendFind (fdbFid e) (fdbMac e) = none := by
  unfold State.fdbLearn
  extract_lets idx same
  clear_value same
  split
  · exact State.fdbDonePair_pendFind ..
  · cases same with
    | cons y ys =>
      dsimp only
      split
      · exact State.fdbDonePair_pendFind ..
      · split
        · exact State.fdbDonePair_pendFind ..
        · split <;> exact State.fdbDonePair_pendFind ..
    | nil =>
      dsimp only
      split <;> exact State.fdbDonePair_pendFind ..

/-! ### Flaps -/

/-- The flap window that began at `a` has counted `n`. -/
def State.withFlaps (s : State) (a n : Nat) : State := { s with net := { s.net with flapAt := a, flapN := n } }

/-- The start of the flap window that holds the present. -/
def State.flapStart (s : State) : Nat :=
  s.net.flapAt + (s.tim.lt - s.net.flapAt) / tkMs (s.fld F.fdbFlapCfg_flap_win_ms) * tkMs (s.fld F.fdbFlapCfg_flap_win_ms)

section Flaps

variable (s : State) (a n : Nat)

theorem State.withFlaps_net : (s.withFlaps a n).net = { s.net with flapAt := a, flapN := n } := rfl
theorem State.withFlaps_tabs : (s.withFlaps a n).net.tabs = s.net.tabs := rfl
theorem State.ctr_withFlaps (c : Ctr) (i : Nat) : (s.withFlaps a n).ctr c i = s.ctr c i := rfl
theorem State.fld_withFlaps (f : RegField) (i : Nat) : (s.withFlaps a n).fld f i = s.fld f i := rfl

theorem State.flapRoll_eq : s.flapRoll =
    if s.net.flapAt + tkMs (s.fld F.fdbFlapCfg_flap_win_ms) ≤ s.tim.lt then s.withFlaps s.flapStart 0 else s := rfl

theorem State.flapRoll_tabs : s.flapRoll.net.tabs = s.net.tabs := by
  rw [State.flapRoll_eq]
  split
  · exact State.withFlaps_tabs ..
  · rfl

theorem State.ctr_flapRoll (c : Ctr) (i : Nat) : s.flapRoll.ctr c i = s.ctr c i := by
  rw [State.flapRoll_eq]
  split
  · exact State.ctr_withFlaps ..
  · rfl

theorem State.fld_flapRoll (f : RegField) (i : Nat) : s.flapRoll.fld f i = s.fld f i := by
  rw [State.flapRoll_eq]
  split
  · exact State.fld_withFlaps ..
  · rfl

/-- The windows follow the time and FDB_FLAP_CFG. -/
theorem State.flapRoll_net_congr {t : State} (hnet : t.net = s.net) (htim : t.tim = s.tim)
    (hfld : t.fld F.fdbFlapCfg_flap_win_ms = s.fld F.fdbFlapCfg_flap_win_ms) : t.flapRoll.net = s.flapRoll.net := by
  have hstart : t.flapStart = s.flapStart := by simp only [State.flapStart, hnet, htim, hfld]
  rw [State.flapRoll_eq, State.flapRoll_eq, hnet, htim, hfld, hstart]
  split
  · rw [State.withFlaps_net, State.withFlaps_net, hnet]
  · exact hnet

/-- The state after a HELD result has been counted, in FDB_FLAP_COUNT and in the window of the present. -/
def State.flapCounted : State :=
  let t := (s.bump .fdbFlapCount).flapRoll
  t.withFlaps t.net.flapAt (t.net.flapN + 1)

theorem State.flapCounted_tabs : s.flapCounted.net.tabs = s.net.tabs := (State.withFlaps_tabs ..).trans (State.flapRoll_tabs _)

theorem State.ctr_flapCounted : s.flapCounted.ctr .fdbFlapCount = s.ctr .fdbFlapCount + 1 :=
  (State.ctr_withFlaps ..).trans ((State.ctr_flapRoll ..).trans ((s.ctr_bump ..).trans (if_pos ⟨rfl, rfl⟩)))

theorem State.fld_flapCounted (f : RegField) (i : Nat) : s.flapCounted.fld f i = s.fld f i :=
  (State.fld_withFlaps ..).trans (State.fld_flapRoll (s.bump .fdbFlapCount) f i)

/-- MAC_FLAP rises with the pair and the port of `e` (R117). -/
def State.flapNoted (s : State) (e : List Word) : State :=
  (((s.wr .fdbFlapLast0 0 (ew e 0)).wr .fdbFlapLast1 0 (ew e 1 &&& 0xFFFF0FFF)).wr .fdbFlapLast2 0
    (BitVec.ofNat 32 (fdbPort e))).raise Ev.macFlap

theorem State.flapHeld_eq (e : List Word) : s.flapHeld e =
    if s.flapRoll.net.flapN + 1 = s.fld F.fdbFlapCfg_flap_thr then s.flapCounted.flapNoted e else s.flapCounted := by
  rw [← State.flapRoll_net_congr s (t := s.bump .fdbFlapCount) rfl rfl rfl, ← s.fld_flapCounted]
  unfold State.flapHeld State.flapCounted
  generalize (s.bump .fdbFlapCount).flapRoll = t
  rfl

@[simp] theorem State.flapNoted_tabs (e : List Word) : (s.flapNoted e).net.tabs = s.net.tabs :=
  congrArg Net.tabs (State.raise_net ..)

theorem State.ctr_flapNoted (e : List Word) {c : Ctr} (hc : c ∉ eventCtrs) (i : Nat) : (s.flapNoted e).ctr c i = s.ctr c i :=
  (State.ctr_raise _ _ c i hc).trans (by rw [State.ctr_wr, State.ctr_wr, State.ctr_wr])

theorem State.flapNoted_stat (e : List Word) :
    getBit ((s.flapNoted e).rd .evtStat (Ev.macFlap / 32)) (Ev.macFlap % 32) = true := State.statBit_raise (by decide)

theorem State.flapNoted_port (e : List Word) : (s.flapNoted e).fld F.fdbFlapLast2_port = fdbPort e := by
  have hrd : (s.flapNoted e).rd .fdbFlapLast2 = BitVec.ofNat 32 (fdbPort e) :=
    (State.rd_raise _ _ .fdbFlapLast2 0 (by decide)).trans (State.rd_wr_same ..)
  have hport : fdbPort e < 64 := eb_lt e 2 11 6
  refine (congrArg (getBits · 5 0) hrd).trans ?_
  unfold getBits
  rw [BitVec.toNat_ofNat]
  omega

end Flaps

/-- A HELD result is counted, toward a flap too, and the one that reaches flap_thr raises MAC_FLAP with the port of the pair (R117). -/
theorem State.flapHeld_spec (s : State) (e : List Word) :
    (s.flapHeld e).net.tabs = s.net.tabs ∧ (s.flapHeld e).ctr .fdbFlapCount = s.ctr .fdbFlapCount + 1 ∧
    (s.flapRoll.net.flapN + 1 = s.fld F.fdbFlapCfg_flap_thr →
      getBit ((s.flapHeld e).rd .evtStat (Ev.macFlap / 32)) (Ev.macFlap % 32) = true ∧
        (s.flapHeld e).fld F.fdbFlapLast2_port = fdbPort e) := by
  have htabs := s.flapCounted_tabs
  have hcount := s.ctr_flapCounted
  rw [State.flapHeld_eq]
  split
  · exact ⟨(State.flapNoted_tabs ..).trans htabs, (State.ctr_flapNoted _ e (by decide) 0).trans hcount,
      fun _ => ⟨State.flapNoted_stat .., State.flapNoted_port ..⟩⟩
  · next hne => exact ⟨htabs, hcount, fun h => absurd h hne⟩

end Sys2Proof.Machine
end

section
/-! ## The other commands of FDB_ENT_CMD (R98, R121, R132) -/

namespace Sys2Proof.Machine

open Sys2Proof

variable {s : State} {e x : List Word} {n : Nat}

/-! ### Deletion of the entries that a test selects -/

theorem tblRising_lt {α : Type} {t : Tbl α} {b k : Nat} {v : α} (hw : tblRising (some b) t = true) (h : (k, v) ∈ t) : b < k := by
  induction t generalizing b with
  | nil => exact absurd h List.not_mem_nil
  | cons y t ih =>
    obtain ⟨a, z⟩ := y
    simp only [tblRising, Bool.and_eq_true, decide_eq_true_eq] at hw
    obtain ⟨hb, hw⟩ := hw
    rcases List.mem_cons.mp h with h | h
    · obtain ⟨rfl, -⟩ := Prod.mk.inj h
      exact hb
    · exact hb.trans (ih hw h)

/-- What a canonical table lists at a key is what is read there. -/
theorem tblFind_of_mem {α : Type} {t : Tbl α} {k : Nat} {v : α} (hw : tblWf t = true) (h : (k, v) ∈ t) : tblFind t k = some v := by
  induction t with
  | nil => exact absurd h List.not_mem_nil
  | cons y t ih =>
    obtain ⟨a, z⟩ := y
    rcases List.mem_cons.mp h with h | h
    · obtain ⟨rfl, rfl⟩ := Prod.mk.inj h
      exact if_pos rfl
    · have hak : a < k := tblRising_lt hw h
      exact (if_neg (by omega)).trans (ih (tblRising_none t hw) h)

/-- A canonical table lists an entry under its index. -/
theorem State.ent_of_mem_listed {id par lo hi : Nat} (hw : tblWf s.net.tabs = true) (h : (n, e) ∈ s.listed id par lo hi) :
    s.ent id par n = e := by
  obtain ⟨⟨k, v⟩, hmem, hkv⟩ := List.mem_filterMap.mp h
  dsimp only at hkv
  split at hkv
  · next hr =>
    obtain ⟨rfl, rfl⟩ := Prod.mk.inj (Option.some.inj hkv)
    have hkey : tabKey id par (k - tabKey id par 0) = k := by
      unfold tabKey at hr ⊢
      omega
    rw [State.ent, hkey, tblGet, tblFind_of_mem hw hmem, Option.getD_some]
  · cases hkv

/-- A purge deletes the entries of the table for which the test holds, and no others. -/
theorem State.ent_purge {id par : Nat} (h : s.storesAsGiven id) (hw : tblWf s.net.tabs = true) {q : List Word → Bool}
    (hd : q (tabDefault id) = false) (hn : n < tabCount id) :
    (s.purge id par q).ent id par n = if q (s.ent id par n) = true then tabDefault id else s.ent id par n := by
  obtain ⟨hent, -⟩ := State.foldl_delEnt (par := par) q (s.listed id par 0 (tabCount id)) h
  unfold State.purge
  rw [hent n]
  refine if_congr ?_ rfl rfl
  rw [List.any_eq_true]
  constructor
  · rintro ⟨⟨m, v⟩, hmem, hq⟩
    simp only [Bool.and_eq_true, beq_iff_eq] at hq
    obtain ⟨rfl, hq⟩ := hq
    rwa [State.ent_of_mem_listed hw hmem]
  · intro hq
    exact ⟨_, State.mem_listed par (Nat.zero_le n) hn fun hdef => Bool.noConfusion (hd.symm.trans (hdef ▸ hq)), by simpa using hq⟩

/-- The entries that FLUSH selects: dynamic ones, of a port or a FID where one is given (R121). -/
def fdbSelected (port fid : Option Nat) (x : List Word) : Bool :=
  fdbValid x && !fdbStatic x && port.all (fdbPort x == ·) && fid.all (fdbFid x == ·)

theorem State.ent_fdbPurge (h : s.storesAsGiven 0x10) (hw : tblWf s.net.tabs = true) (port fid : Option Nat) (hn : n < 66560) :
    (s.fdbPurge port fid).ent 0x10 0 n = if fdbSelected port fid (s.ent 0x10 0 n) = true then [0, 0, 0, 0] else s.ent 0x10 0 n := by
  have hd : fdbSelected port fid (tabDefault 0x10) = false := by simp [fdbSelected, show fdbValid (tabDefault 0x10) = false by decide]
  exact State.ent_purge (par := 0) h hw hd hn

/-! ### The entry that INSERT stores -/

theorem getBits_and_of_ones (w : Word) {c : Word} {hi lo : Nat} (h : ∀ j < hi - lo + 1, getBit c (j + lo) = true) :
    getBits (w &&& c) hi lo = getBits w hi lo := by
  refine Nat.eq_of_testBit_eq fun j => ?_
  rw [testBit_getBits, testBit_getBits]
  by_cases hj : j < hi - lo + 1
  · have hc : c.getLsbD (j + lo) = true := h j hj
    simp [getBit, hc]
  · simp [hj]

theorem getBits_or_of_zeros (w : Word) {c : Word} {hi lo : Nat} (h : ∀ j < hi - lo + 1, getBit c (j + lo) = false) :
    getBits (w ||| c) hi lo = getBits w hi lo := by
  refine Nat.eq_of_testBit_eq fun j => ?_
  rw [testBit_getBits, testBit_getBits]
  by_cases hj : j < hi - lo + 1
  · have hc : c.getLsbD (j + lo) = false := h j hj
    simp [getBit, hc]
  · simp [hj]

/-- The entry that INSERT stores for staged words: valid and static, in no hold, with the staged ep_mask, and without the reserved bits. -/
def fdbStaticEntry (e : List Word) : List Word :=
  [ew e 0, ew e 1 &&& 0xFFFF0FFF, (ew e 2 &&& 0x6FFC0FC0) ||| 0x80000000, BitVec.ofNat 32 (0xFFF00000 + eb e 3 1 0)]

theorem fdbValid_fdbStaticEntry (e : List Word) : fdbValid (fdbStaticEntry e) = true := by
  have hm : eb e 3 1 0 < 4 := eb_lt e 3 1 0
  show getBit (BitVec.ofNat 32 (0xFFF00000 + eb e 3 1 0)) 31 = true
  interval_cases eb e 3 1 0 <;> decide

theorem fdbStatic_fdbStaticEntry (e : List Word) : fdbStatic (fdbStaticEntry e) = true := by
  show getBit ((ew e 2 &&& 0x6FFC0FC0) ||| 0x80000000) 31 = true
  rw [getBit, BitVec.getLsbD_or, show (0x80000000 : Word).getLsbD 31 = true by decide, Bool.or_true]

theorem fdbFid_fdbStaticEntry (e : List Word) : fdbFid (fdbStaticEntry e) = fdbFid e :=
  getBits_and_of_ones (ew e 1) (c := 0xFFFF0FFF) (hi := 11) (lo := 0) (by decide)

theorem fdbMac_fdbStaticEntry (e : List Word) : fdbMac (fdbStaticEntry e) = fdbMac e :=
  congrArg ((ew e 0).toNat * 65536 + ·) (getBits_and_of_ones (ew e 1) (c := 0xFFFF0FFF) (hi := 31) (lo := 16) (by decide))

theorem fdbPort_fdbStaticEntry (e : List Word) : fdbPort (fdbStaticEntry e) = fdbPort e :=
  (getBits_or_of_zeros _ (c := 0x80000000) (hi := 11) (lo := 6) (by decide)).trans
    (getBits_and_of_ones (ew e 2) (c := 0x6FFC0FC0) (hi := 11) (lo := 6) (by decide))

theorem State.fdbPlace_free (hsame : s.fdbSame e = []) (hfree : s.fdbFree e = some n) :
    s.fdbPlace e = (s.writeEnt 0x10 0 n (fdbStaticEntry e), 0, n) := by
  have hfind := s.fdbSame_find e fun x => (eb x 3 1 0 &&& eb e 3 1 0) != 0
  rw [hsame, List.find?_nil] at hfind
  unfold State.fdbFree at hfree
  simp only [State.fdbPlace, Option.map_eq_none_iff.mp hfind.symm, hfree]
  rfl

/-! ### Commands that are refused, and commands that are carried out -/

section Busy

variable {h : Bool} (hb : (h && s.loaderHolds) = true)
include hb

theorem State.fdbInsert_busy : s.fdbInsert h = s.fdbDone 4 0 := if_pos hb

theorem State.fdbDelete_busy : s.fdbDelete h = s.fdbDone 4 0 := if_pos hb

theorem State.fdbRead_busy : s.fdbRead h = s.fdbDone 4 0 := if_pos hb

theorem State.fdbFlush_busy : s.fdbFlush h = s.fdbDone 4 0 := if_pos hb

end Busy

/-- The staging registers take the words of an entry. -/
def State.fdbStage (s : State) (e : List Word) : State := (List.range 4).foldl (fun s k => s.wr .fdbEntData k (ew e k)) s

@[simp] theorem State.fdbStage_net (s : State) (e : List Word) : (s.fdbStage e).net = s.net :=
  List.foldlRecOn (motive := fun t => t.net = s.net) _ _ rfl fun t ht k _ => (State.wr_net t .fdbEntData k (ew e k)).trans ht

theorem State.rd_fdbStage_done (s : State) (e : List Word) (res idx : Nat) (k : Fin 4) :
    ((s.fdbStage e).fdbDone res idx).rd .fdbEntData k = ew e k :=
  (State.rd_fdbDone _ _ _ (by decide) _).trans ((s.rd_foldl_wr .fdbEntData (ew e) 4 k).trans (if_pos k.isLt))

section Carried

variable {h : Bool} (hb : ¬ (h && s.loaderHolds) = true)
include hb

theorem State.fdbInsert_free (hmask : h = true → s.hostMask (eb s.fdbStaged 3 1 0) = true) (hsame : s.fdbSame s.fdbStaged = [])
    (hfree : s.fdbFree s.fdbStaged = some n) :
    s.fdbInsert h = (s.writeEnt 0x10 0 n (fdbStaticEntry s.fdbStaged)).fdbDonePair s.fdbStaged 0 n := by
  unfold State.fdbInsert
  rw [if_neg hb, if_neg (by cases h <;> simp_all), State.fdbPlace_free hsame hfree]

theorem State.fdbDelete_none (hsame : s.fdbSame s.fdbStaged = []) : s.fdbDelete h = s.fdbDonePair s.fdbStaged 3 0 := by
  have hfind := s.fdbSame_find s.fdbStaged fun x => eb x 3 1 0 == eb s.fdbStaged 3 1 0
  rw [hsame, List.find?_nil] at hfind
  unfold State.fdbDelete
  rw [if_neg hb, Option.map_eq_none_iff.mp hfind.symm]

theorem State.fdbDelete_found (hsame : s.fdbSame s.fdbStaged = [(n, x)]) (hmask : eb x 3 1 0 = eb s.fdbStaged 3 1 0) :
    s.fdbDelete h = (s.delEnt 0x10 0 n).fdbDonePair s.fdbStaged 0 n := by
  have hfind := s.fdbSame_find s.fdbStaged fun x => eb x 3 1 0 == eb s.fdbStaged 3 1 0
  rw [hsame, List.find?_cons_of_pos (by simpa using hmask)] at hfind
  obtain ⟨m, hm, hmn⟩ := Option.map_eq_some_iff.mp hfind.symm
  obtain ⟨rfl, -⟩ := Prod.mk.inj hmn
  unfold State.fdbDelete
  rw [if_neg hb, hm]

theorem State.fdbRead_valid (hidx : s.fld F.fdbEntIndex_index = n) (hn : n < 66560) (hc : s.memClean = true) (hp : s.mem.parity = [])
    (hv : fdbValid (s.ent 0x10 0 n) = true) : s.fdbRead h = (s.fdbStage (s.ent 0x10 0 n)).fdbDone 0 n := by
  unfold State.fdbRead
  rw [hidx, if_neg hb, if_neg (by omega), State.readEnt_clean hc hp]
  exact if_neg (by simp [hv])

theorem State.fdbFlush_carried : s.fdbFlush h =
    (s.fdbPurge (if s.on F.fdbFlushSel_by_port then some (s.fld F.fdbFlushSel_port) else none)
      (if s.on F.fdbFlushSel_by_fid then some (s.fld F.fdbFlushSel_fid) else none)).fdbDone 0 0 := if_neg hb

end Carried

end Sys2Proof.Machine
end

section
/-! ## The results of the commands of FDB_ENT_CMD -/

namespace Sys2Proof.Machine

open Sys2Proof

variable {s : State} {p : Path} {e x : List Word} {n res : Nat}

/-- A LEARN or INSERT that writes an entry shows its index, and the entry is read back. -/
theorem State.writeDone_spec (h : s.storesAsGiven 0x10) (e v : List Word) (hres : res < 16) (hn : n < 66560) :
    fdbAnswer res n ((s.writeEnt 0x10 0 n v).fdbDonePair e res n) ∧ ((s.writeEnt 0x10 0 n v).fdbDonePair e res n).ent 0x10 0 n = v :=
  ⟨State.fdbDonePair_answer _ e hres (by omega), (State.ent_fdbDonePair ..).trans (State.wrote_writeEnt h 0 n v).same⟩

/-- A selection by a value that is given only where a flag is set. -/
theorem all_of_flag (b : Bool) (v w : Nat) : (if b then some v else none : Option Nat).all (w == ·) = true ↔ (b = true → w = v) := by
  cases b <;> simp

section Served

variable (hs : s.servesReg p .fdbEntCmd 0 = true) (hm : s.mem.merge = [])
include hs hm

/-- A table that the loader holds is BUSY for host software (R98). -/
theorem fdbCommands_busy (hp : p ≠ .fw) (hl : s.loaderHolds = true) :
    (∃ u, exec (.fdbInsert p) s = .next u ∧ fdbAnswer 4 0 u ∧ u.net = s.net) ∧
    (∃ u, exec (.fdbDelete p) s = .next u ∧ fdbAnswer 4 0 u ∧ u.net = s.net) ∧
    (∃ u, exec (.fdbRead p) s = .next u ∧ fdbAnswer 4 0 u ∧ u.net = s.net) ∧
    (∃ u, exec (.fdbFlush p) s = .next u ∧ fdbAnswer 4 0 u ∧ u.net = s.net) ∧
    (∃ u, exec (.fdbLearn p) s = .next u ∧ fdbAnswer 4 0 u ∧ u.net = s.net) := by
  have hb : ((p != .fw) && s.loaderHolds) = true := by simp [hp, hl]
  have hb' (op : Nat) : ((p != .fw) && (s.fdbAsked p op).loaderHolds) = true := by rwa [State.loaderHolds_fdbAsked]
  have hanswers {i : Instr} (op : Nat) (he : exec i s = .next ((s.fdbAsked p op).fdbDone 4 0)) :
      ∃ u, exec i s = .next u ∧ fdbAnswer 4 0 u ∧ u.net = s.net :=
    ⟨_, he, State.fdbDone_answer _ (by decide) (by decide), (State.fdbDone_net ..).trans (s.fdbAsked_net p op)⟩
  exact ⟨hanswers 1 ((exec_fdbInsert hs hm).trans (congrArg _ (State.fdbInsert_busy (hb' 1)))),
    hanswers 2 ((exec_fdbDelete hs hm).trans (congrArg _ (State.fdbDelete_busy (hb' 2)))),
    hanswers 3 ((exec_fdbRead hs hm).trans (congrArg _ (State.fdbRead_busy (hb' 3)))),
    hanswers 6 ((exec_fdbFlush hs hm).trans (congrArg _ (State.fdbFlush_busy (hb' 6)))),
    hanswers 7 ((exec_fdbLearn hs hm).trans (congrArg _ (if_pos hb)))⟩

section Carried

variable (hl : p ≠ .fw → s.loaderHolds = false)
include hl

omit hs hm in
theorem State.fdbAsked_notBusy (op : Nat) : ¬ ((p != .fw) && (s.fdbAsked p op).loaderHolds) = true := by
  rw [State.loaderHolds_fdbAsked, Bool.and_eq_true]
  rintro ⟨hp, hh⟩
  exact Bool.noConfusion ((hl (bne_iff_ne.mp hp)).symm.trans hh)

theorem exec_fdbLearn_carried : exec (.fdbLearn p) s = .next ((s.fdbAsked p 7).fdbLearn s.fdbStaged) := by
  have hb := State.fdbAsked_notBusy hl 7
  rw [State.loaderHolds_fdbAsked] at hb
  exact (exec_fdbLearn hs hm).trans (congrArg _ (if_neg hb))

/-- LEARN releases the filter entry of its pair (R113). -/
theorem fdbLearn_releases : ∃ u, exec (.fdbLearn p) s = .next u ∧ u.pendFind (fdbFid s.fdbStaged) (fdbMac s.fdbStaged) = none :=
  ⟨_, exec_fdbLearn_carried hs hm hl, State.fdbLearn_pendFind ..⟩

/-- A row of the table that writes entry `n`. -/
theorem fdbLearn_writes (harm : s.on F.memFlipCtrl_arm = false) (hn : n < 66560) {v : List Word} (hres : res < 16)
    (hrow : (s.fdbAsked p 7).fdbLearn s.fdbStaged = ((s.fdbAsked p 7).writeEnt 0x10 0 n v).fdbDonePair s.fdbStaged res n) :
    ∃ u, exec (.fdbLearn p) s = .next u ∧ fdbAnswer res n u ∧ u.ent 0x10 0 n = v :=
  ⟨_, (exec_fdbLearn_carried hs hm hl).trans (congrArg _ hrow),
    State.writeDone_spec (s.storesAsGiven_fdbAsked p 7 (.inr harm)) s.fdbStaged v hres hn⟩

/-! ### LEARN of a key that no entry has -/

section Unknown

variable (hsame : s.fdbSame s.fdbStaged = [])
include hsame

theorem fdbLearn_inserts (harm : s.on F.memFlipCtrl_arm = false) (hfree : s.fdbFree s.fdbStaged = some n) :
    ∃ u, exec (.fdbLearn p) s = .next u ∧ fdbAnswer 0 n u ∧ u.ent 0x10 0 n = s.fdbDyn s.fdbStaged ∧
      u.pendFind (fdbFid s.fdbStaged) (fdbMac s.fdbStaged) = none := by
  have hrow := State.fdbLearn_new ((s.fdbSame_fdbAsked p 7 _).trans hsame) ((s.fdbFree_fdbAsked p 7 _).trans hfree)
  rw [State.fdbDyn_fdbAsked] at hrow
  obtain ⟨hdone, hent⟩ := State.writeDone_spec (s.storesAsGiven_fdbAsked p 7 (.inr harm)) s.fdbStaged (s.fdbDyn s.fdbStaged)
    (res := 0) (by decide) (State.fdbFree_lt hfree)
  exact ⟨_, (exec_fdbLearn_carried hs hm hl).trans (congrArg _ hrow), hdone, hent, State.fdbDonePair_pendFind ..⟩

theorem fdbLearn_fails (hfree : s.fdbFree s.fdbStaged = none) :
    ∃ u, exec (.fdbLearn p) s = .next u ∧ fdbAnswer 2 0 u ∧ u.ctr .fdbLearnFail = s.ctr .fdbLearnFail + 1 ∧ u.net.tabs = s.net.tabs := by
  have hrow := State.fdbLearn_full ((s.fdbSame_fdbAsked p 7 _).trans hsame) ((s.fdbFree_fdbAsked p 7 _).trans hfree)
  refine ⟨_, (exec_fdbLearn_carried hs hm hl).trans (congrArg _ hrow), State.fdbDonePair_answer _ _ (by decide) (by decide), ?_, ?_⟩
  · rw [State.ctr_fdbDonePair, State.ctr_bump, if_pos ⟨rfl, rfl⟩, State.ctr_fdbAsked]
  · rw [State.fdbDonePair_tabs, State.bump_net, State.fdbAsked_net]

end Unknown

/-! ### LEARN of a key that one entry has -/

section Known

variable (hsame : s.fdbSame s.fdbStaged = [(n, x)]) (hn : n < 66560)
include hsame hn

theorem fdbLearn_keepsStatic (hstat : fdbStatic x = true) : ∃ u, exec (.fdbLearn p) s = .next u ∧ fdbAnswer 9 n u ∧
    u.net.tabs = s.net.tabs ∧ u.pendFind (fdbFid s.fdbStaged) (fdbMac s.fdbStaged) = none := by
  have hrow := State.fdbLearn_static ((s.fdbSame_fdbAsked p 7 _).trans hsame) hstat
  refine ⟨_, (exec_fdbLearn_carried hs hm hl).trans (congrArg _ hrow), State.fdbDonePair_answer _ _ (by decide) (by omega), ?_,
    State.fdbDonePair_pendFind ..⟩
  rw [State.fdbDonePair_tabs, State.fdbAsked_net]

section Dynamic

variable (hdyn : fdbStatic x = false)
include hdyn

theorem fdbLearn_replacesExpired (harm : s.on F.memFlipCtrl_arm = false) (hexp : s.fdbExpired x = true) :
    ∃ u, exec (.fdbLearn p) s = .next u ∧ fdbAnswer 0 n u ∧ u.ent 0x10 0 n = s.fdbDyn s.fdbStaged := by
  have hrow := State.fdbLearn_expired ((s.fdbSame_fdbAsked p 7 _).trans hsame) hdyn ((s.fdbExpired_fdbAsked p 7 x).trans hexp)
  rw [State.fdbDyn_fdbAsked] at hrow
  exact fdbLearn_writes hs hm hl harm hn (by decide) hrow

variable (hlive : s.fdbExpired x = false)
include hlive

theorem fdbLearn_refreshes (harm : s.on F.memFlipCtrl_arm = false) (hport : fdbPort x = fdbPort s.fdbStaged) :
    ∃ u, exec (.fdbLearn p) s = .next u ∧ fdbAnswer 0 n u ∧ u.ent 0x10 0 n = eput x 3 19 4 (s.nowS % 65536) := by
  have hrow := State.fdbLearn_refresh ((s.fdbSame_fdbAsked p 7 _).trans hsame) hdyn ((s.fdbExpired_fdbAsked p 7 x).trans hlive) hport
  rw [State.nowS_fdbAsked] at hrow
  exact fdbLearn_writes hs hm hl harm hn (by decide) hrow

variable (hport : fdbPort x ≠ fdbPort s.fdbStaged)
include hport

theorem fdbLearn_moves (harm : s.on F.memFlipCtrl_arm = false) (hheld : s.fdbHeld x = false) :
    ∃ u, exec (.fdbLearn p) s = .next u ∧ fdbAnswer 7 n u ∧
      u.ent 0x10 0 n = eput (eput x 2 11 6 (fdbPort s.fdbStaged)) 3 30 20 s.nowMs := by
  have hrow := State.fdbLearn_move ((s.fdbSame_fdbAsked p 7 _).trans hsame) hdyn ((s.fdbExpired_fdbAsked p 7 x).trans hlive) hport
    ((s.fdbHeld_fdbAsked p 7 x).trans hheld)
  rw [State.nowMs_fdbAsked] at hrow
  exact fdbLearn_writes hs hm hl harm hn (by decide) hrow

/-- A held entry stays, and the result counts toward a flap (R116, R117). -/
theorem fdbLearn_holds (hheld : s.fdbHeld x = true) : ∃ u, exec (.fdbLearn p) s = .next u ∧ fdbAnswer 8 n u ∧
    u.net.tabs = s.net.tabs ∧ u.ctr .fdbFlapCount = s.ctr .fdbFlapCount + 1 ∧
    (s.flapRoll.net.flapN + 1 = s.fld F.fdbFlapCfg_flap_thr →
      getBit (u.rd .evtStat (Ev.macFlap / 32)) (Ev.macFlap % 32) = true ∧ u.fld F.fdbFlapLast2_port = fdbPort s.fdbStaged) := by
  have hrow := State.fdbLearn_held ((s.fdbSame_fdbAsked p 7 _).trans hsame) hdyn ((s.fdbExpired_fdbAsked p 7 x).trans hlive) hport
    ((s.fdbHeld_fdbAsked p 7 x).trans hheld)
  have hroll : (s.fdbAsked p 7).flapRoll.net = s.flapRoll.net :=
    s.flapRoll_net_congr (s.fdbAsked_net p 7) (s.fdbAsked_tim p 7) (s.fld_fdbAsked p 7 (by decide) 0)
  obtain ⟨htabs, hcount, hflap⟩ := (s.fdbAsked p 7).flapHeld_spec s.fdbStaged
  rw [hroll, s.fld_fdbAsked p 7 (by decide)] at hflap
  refine ⟨_, (exec_fdbLearn_carried hs hm hl).trans (congrArg _ hrow), State.fdbDonePair_answer _ _ (by decide) (by omega), ?_, ?_,
    fun hthr => ?_⟩
  · rw [State.fdbDonePair_tabs, htabs, State.fdbAsked_net]
  · rw [State.ctr_fdbDonePair, hcount, State.ctr_fdbAsked]
  · obtain ⟨hstat, hlast⟩ := hflap hthr
    refine ⟨?_, ?_⟩
    · rw [State.rd_fdbDonePair _ _ _ _ (by decide), hstat]
    · rw [State.fld, State.rd_fdbDonePair _ _ _ _ (by decide)]
      exact hlast

end Dynamic

/-- DELETE of the entry with the staged key and mask (R132). -/
theorem fdbDelete_deletes (harm : s.on F.memFlipCtrl_arm = false) (hmask : eb x 3 1 0 = eb s.fdbStaged 3 1 0) :
    ∃ u, exec (.fdbDelete p) s = .next u ∧ fdbAnswer 0 n u ∧ fdbValid (u.ent 0x10 0 n) = false := by
  have hrun := State.fdbDelete_found (State.fdbAsked_notBusy hl 2) (by rw [State.fdbStaged_fdbAsked, State.fdbSame_fdbAsked, hsame])
    (by rw [State.fdbStaged_fdbAsked, hmask])
  refine ⟨_, (exec_fdbDelete hs hm).trans (congrArg _ hrun), State.fdbDonePair_answer _ _ (by decide) (by omega), ?_⟩
  rw [State.ent_fdbDonePair, (State.wrote_delEnt (s.storesAsGiven_fdbAsked p 2 (.inr harm)) 0 n).same]
  decide

end Known

/-! ### INSERT and DELETE of a key that no entry has, READ and FLUSH -/

/-- INSERT places a static entry with the staged key and port (R132). -/
theorem fdbInsert_places (harm : s.on F.memFlipCtrl_arm = false) (hmask : p ≠ .fw → s.hostMask (eb s.fdbStaged 3 1 0) = true)
    (hsame : s.fdbSame s.fdbStaged = []) (hfree : s.fdbFree s.fdbStaged = some n) :
    ∃ u, exec (.fdbInsert p) s = .next u ∧ fdbAnswer 0 n u ∧ fdbValid (u.ent 0x10 0 n) = true ∧ fdbStatic (u.ent 0x10 0 n) = true ∧
      fdbFid (u.ent 0x10 0 n) = fdbFid s.fdbStaged ∧ fdbMac (u.ent 0x10 0 n) = fdbMac s.fdbStaged ∧
      fdbPort (u.ent 0x10 0 n) = fdbPort s.fdbStaged := by
  have hrun := State.fdbInsert_free (n := n) (State.fdbAsked_notBusy hl 1)
    (fun hp => by rw [State.fdbStaged_fdbAsked, State.hostMask_fdbAsked, hmask (bne_iff_ne.mp hp)])
    (by rw [State.fdbStaged_fdbAsked, State.fdbSame_fdbAsked, hsame]) (by rw [State.fdbStaged_fdbAsked, State.fdbFree_fdbAsked, hfree])
  rw [State.fdbStaged_fdbAsked] at hrun
  obtain ⟨hdone, hent⟩ := State.writeDone_spec (s.storesAsGiven_fdbAsked p 1 (.inr harm)) s.fdbStaged (fdbStaticEntry s.fdbStaged)
    (res := 0) (by decide) (State.fdbFree_lt hfree)
  refine ⟨_, (exec_fdbInsert hs hm).trans (congrArg _ hrun), hdone, ?_⟩
  rw [hent]
  exact ⟨fdbValid_fdbStaticEntry _, fdbStatic_fdbStaticEntry _, fdbFid_fdbStaticEntry _, fdbMac_fdbStaticEntry _,
    fdbPort_fdbStaticEntry _⟩

/-- DELETE of a key that no entry has is NOT_FOUND (R132). -/
theorem fdbDelete_notFound (hsame : s.fdbSame s.fdbStaged = []) :
    ∃ u, exec (.fdbDelete p) s = .next u ∧ fdbAnswer 3 0 u ∧ u.net.tabs = s.net.tabs := by
  have hrun := State.fdbDelete_none (State.fdbAsked_notBusy hl 2) (by rw [State.fdbStaged_fdbAsked, State.fdbSame_fdbAsked, hsame])
  refine ⟨_, (exec_fdbDelete hs hm).trans (congrArg _ hrun), State.fdbDonePair_answer _ _ (by decide) (by decide), ?_⟩
  rw [State.fdbDonePair_tabs, State.fdbAsked_net]

/-- READ without errors stages a valid entry (R132). -/
theorem fdbRead_stages (hidx : s.fld F.fdbEntIndex_index = n) (hn : n < 66560) (hv : fdbValid (s.ent 0x10 0 n) = true)
    (hc : s.memClean = true) (hpar : s.mem.parity = []) :
    ∃ u, exec (.fdbRead p) s = .next u ∧ fdbAnswer 0 n u ∧ (∀ k : Fin 4, u.rd .fdbEntData k = ew (s.ent 0x10 0 n) k) ∧
      u.net = s.net := by
  have hrun := State.fdbRead_valid (State.fdbAsked_notBusy hl 3) ((s.fld_fdbAsked p 3 (by decide) 0).trans hidx) hn
    ((s.memClean_fdbAsked p 3).trans hc) (by rw [State.fdbAsked_mem, hpar]) (by rwa [State.ent_fdbAsked])
  rw [State.ent_fdbAsked] at hrun
  refine ⟨_, (exec_fdbRead hs hm).trans (congrArg _ hrun), State.fdbDone_answer _ (by decide) (by omega),
    State.rd_fdbStage_done _ _ _ _, ?_⟩
  rw [State.fdbDone_net, State.fdbStage_net, State.fdbAsked_net]

/-- FLUSH deletes the dynamic entries that FDB_FLUSH_SEL selects, and no others (R121). -/
theorem fdbFlush_deletes (harm : s.on F.memFlipCtrl_arm = false) (hw : tblWf s.net.tabs = true) :
    ∃ u, exec (.fdbFlush p) s = .next u ∧ fdbAnswer 0 0 u ∧ ∀ n : Fin 66560, u.ent 0x10 0 n =
      if fdbSelected (if s.on F.fdbFlushSel_by_port then some (s.fld F.fdbFlushSel_port) else none)
          (if s.on F.fdbFlushSel_by_fid then some (s.fld F.fdbFlushSel_fid) else none) (s.ent 0x10 0 n) = true
        then [0, 0, 0, 0] else s.ent 0x10 0 n := by
  have hrun := State.fdbFlush_carried (State.fdbAsked_notBusy hl 6)
  rw [s.on_fdbAsked p 6 (by decide), s.on_fdbAsked p 6 (by decide), s.fld_fdbAsked p 6 (by decide),
    s.fld_fdbAsked p 6 (by decide)] at hrun
  refine ⟨_, (exec_fdbFlush hs hm).trans (congrArg _ hrun), State.fdbDone_answer _ (by decide) (by decide), fun n => ?_⟩
  have hpurge := State.ent_fdbPurge (s.storesAsGiven_fdbAsked p 6 (.inr harm)) (by rwa [State.fdbAsked_net])
    (if s.on F.fdbFlushSel_by_port then some (s.fld F.fdbFlushSel_port) else none)
    (if s.on F.fdbFlushSel_by_fid then some (s.fld F.fdbFlushSel_fid) else none) n.isLt
  rw [State.ent_fdbAsked] at hpurge
  rw [State.ent, State.fdbDone_net]
  exact hpurge

end Carried

end Served

/-- Settles O36: a served go write runs its command on the staged words, and each command is a search by the key, a write of one entry,
a purge, or an answer; LEARN and INSERT complete for their pair. -/
theorem forwardingDatabaseCommands : Obligations.ForwardingDatabaseCommands := by
  unfold Obligations.ForwardingDatabaseCommands
  intro s p hs hm e same free done
  refine ⟨fun hp hl => fdbCommands_busy hs hm hp hl, fun hl harm => ⟨fdbLearn_releases hs hm hl,
    fun n hsame hfree => fdbLearn_inserts hs hm hl hsame harm hfree, fun hsame hfree => fdbLearn_fails hs hm hl hsame hfree,
    fun n x hsame hn => ⟨fun hstat => fdbLearn_keepsStatic hs hm hl hsame hn hstat,
      fun hdyn hexp => fdbLearn_replacesExpired hs hm hl hsame hn hdyn harm hexp,
      fun hdyn hlive _ => ⟨fun hport => fdbLearn_refreshes hs hm hl hsame hn hdyn hlive harm hport,
        fun hport hheld => fdbLearn_moves hs hm hl hsame hn hdyn hlive hport harm hheld,
        fun hport hheld => fdbLearn_holds hs hm hl hsame hn hdyn hlive hport hheld⟩⟩,
    fun hmask hsame => ⟨fun n hfree => fdbInsert_places hs hm hl harm hmask hsame hfree, fdbDelete_notFound hs hm hl hsame⟩,
    fun n x hsame hn hmask => fdbDelete_deletes hs hm hl hsame hn harm hmask, ?_, fun hw => ?_⟩⟩
  · intro n hn hv herr hpar _
    exact fdbRead_stages hs hm hl rfl hn hv (by simp [State.memClean, herr, hm]) hpar
  · obtain ⟨u, he, hdone, hent⟩ := fdbFlush_deletes hs hm hl harm hw
    refine ⟨u, he, hdone, fun n => (hent n).trans (if_congr ?_ rfl rfl)⟩
    simp only [fdbSelected, Bool.and_eq_true, Bool.not_eq_true', all_of_flag, and_assoc]

end Sys2Proof.Machine
end

section
/-! ## Timeouts, recovery resets and the repair of table entries (R113, R117, R129, R367, R369) -/

namespace Sys2Proof.Machine

open Sys2Proof

variable {s : State} {e : List Word} {k n : Nat}

/-! ### Filter timeouts and flap windows -/

/-- Of the windows of length `w` that follow each other from `a`, the one that holds `t`. -/
theorem window_holds {a t w : Nat} (hw : 0 < w) (h : a ≤ t) : a + (t - a) / w * w ≤ t ∧ t < a + (t - a) / w * w + w := by
  have hle := Nat.div_mul_le_self (t - a) w
  have hlt := Nat.lt_div_mul_add (a := t - a) hw
  omega

/-- The flap window that holds the present has begun and has not ended. -/
theorem State.flapStart_window (hw : 0 < tkMs (s.fld F.fdbFlapCfg_flap_win_ms)) (h : s.net.flapAt ≤ s.tim.lt) :
    s.flapStart ≤ s.tim.lt ∧ s.tim.lt < s.flapStart + tkMs (s.fld F.fdbFlapCfg_flap_win_ms) := window_holds hw h

theorem exec_flapWindowEnd (hfab : s.fabricOn = true) : exec .flapWindowEnd s = .next s.flapRoll :=
  congrArg Host.Outcome.next (if_pos hfab)

theorem keeps_withFlaps (s : State) (a n : Nat) : keeps [.regs, .ctrs, .mem, .tim] s (s.withFlaps a n) := by
  simp [keeps, Part.same, State.withFlaps]

/-! ### Words of an entry -/

theorem ew_set (w : Word) {i : Nat} (hi : i < e.length) (j : Nat) : ew (e.set i w) j = if j = i then w else ew e j := by
  by_cases h : j = i
  · subst h
    simp [ew, hi]
  · simp [ew, h, Ne.symm h]

/-- The words of a value of 64 bits. -/
theorem words_toNat (v : Nat) :
    (BitVec.ofNat 32 (v / 4294967296)).toNat * 4294967296 + (BitVec.ofNat 32 v).toNat = v % 2 ^ 64 := by
  rw [BitVec.toNat_ofNat, BitVec.toNat_ofNat]
  omega

theorem ew64_ePut64 {i : Nat} (hi : i + 1 < e.length) (v : Nat) : ew64 (ePut64 e i v) i = v % 2 ^ 64 := by
  have hlen : i + 1 < (e.set i (BitVec.ofNat 32 v)).length := by rwa [List.length_set]
  rw [ew64, ePut64, ew_set _ hlen, ew_set _ hlen, if_pos rfl, if_neg (by omega), ew_set _ (by omega), if_pos rfl, words_toNat]

/-! ### The reset of a recovery function -/

/-- State words of a stream whose recovery has entered reset. -/
def strResetWords (e : List Word) : List Word := strAdd (eput e 1 31 31 1) 5 1

theorem ew_strResetWords (hlen : e.length = 16) (j : Nat) : ew (strResetWords e) j =
    if j = 15 then BitVec.ofNat 32 ((strCnt e 5 + 1) / 4294967296)
    else if j = 14 then BitVec.ofNat 32 (strCnt e 5 + 1)
    else if j = 1 then putBits (ew e 1) 31 31 1 else ew e j := by
  have hcnt : strCnt (eput e 1 31 31 1) 5 = strCnt e 5 := by
    simp only [strCnt, eput, ew_set _ (show 1 < e.length by omega)]
    rfl
  unfold strResetWords strAdd
  rw [hcnt, ew_set _ (by simp [eput, hlen]), ew_set _ (by simp [eput, hlen]), eput, ew_set _ (by omega)]

/-- The state of a stream has entered reset, which is counted, and its history stays. -/
def strIsReset (e e' : List Word) : Prop :=
  ebit e' 1 31 = true ∧ strCnt e' 5 = (strCnt e 5 + 1) % 2 ^ 64 ∧ strHist e' = strHist e

theorem strIsReset_strResetWords (hlen : e.length = 16) : strIsReset e (strResetWords e) := by
  have hew := ew_strResetWords hlen
  refine ⟨?_, ?_, ?_⟩
  · rw [ebit, hew]
    exact (getBit_putBits_one _ (by decide) (by decide)).trans (if_pos rfl)
  · rw [strCnt, hew, hew]
    exact words_toNat _
  · rw [strHist, hew, hew]
    rfl

theorem State.strState_strReset (harm : s.on F.memFlipCtrl_arm = false) (k : Nat) :
    (s.strReset k).strState k = strResetWords (s.strState k) := (State.wrote_writeEnt (.inr harm) 0 k _).same

theorem State.strReset_spec (harm : s.on F.memFlipCtrl_arm = false) (hlen : (s.strState k).length = 16) :
    strIsReset (s.strState k) ((s.strReset k).strState k) := by
  rw [State.strState_strReset harm]
  exact strIsReset_strResetWords hlen

/-- A served write of FDB_STR_RESET resets the stream that it names (R129). -/
theorem exec_streamResetWrite {p : Path} {data : Word} (hs : s.servesReg p .fdbStrReset 0 = true)
    (hk : F.fdbStrReset_stream_idx.of data = k) : exec (.streamResetWrite p data) s = .next ((s.nextSeq p).strReset k) :=
  congrArg Host.Outcome.next ((State.access_of_serves hs).trans (congrArg (s.nextSeq p).strReset hk))

/-- The timeout of a recovery that is not in reset and has passed no frame for reset_ms (R129). -/
theorem exec_recoveryResetTimeout {k : BitVec 12} (hfab : s.fabricOn = true) (hused : ebit (s.strm s.epoch k.toNat) 0 31 = true)
    (hrec : ebit (s.strm s.epoch k.toNat) 2 30 = true) (hrst : ebit (s.strState k.toNat) 1 31 = false)
    (hdue : tblGet s.net.lastOk 0 k.toNat + tkMs (eb (s.strm s.epoch k.toNat) 2 20 9) ≤ s.tim.lt) :
    exec (.recoveryResetTimeout k) s = .next (s.strReset k.toNat) :=
  congrArg Host.Outcome.next (if_pos (by simp [hfab, hused, hrec, hrst, hdue]))

/-! ### Freshness values -/

theorem beNat_lt (bs : List Byte) : beNat bs < 256 ^ bs.length := by
  induction bs using List.reverseRecOn with
  | nil => decide
  | append_singleton bs b ih =>
    have hb : b.toNat < 256 := b.isLt
    rw [beNat, List.foldl_append, List.length_append, List.length_singleton, pow_succ]
    change beNat bs * 256 + b.toNat < _
    omega

theorem State.freshStored_lt (s : State) (n : Nat) : s.freshStored n < 2 ^ 64 := by
  have hcopy (c : Nat) : beNat (s.mramBytes (freshOff n c) 8) < 2 ^ 64 := by
    have h := beNat_lt (s.mramBytes (freshOff n c) 8)
    rwa [State.mramBytes, List.length_map, List.length_range] at h
  exact max_lt (hcopy 0) (hcopy 1)

theorem State.fv_setFv (hlen : (s.ent 0x32 0 n).length = 4) (v : Nat) : (s.setFv n v).fv n = v % 2 ^ 64 := by
  rw [State.fv, State.setFv, (State.wrote_writeEnt (s := s) (id := 0x32) (.inl rfl) 0 n _).same, ew64_ePut64 (by omega)]

/-! ### Repair -/

section Repair

variable {tab : BitVec 8} {c : Fin 2} {n : BitVec 18} (hfab : s.fabricOn = true) (hrun : s.pair.halted = false)
include hfab

theorem exec_parityRepair (htab : tab ≠ 0x32) (c : Fin 2) (n : BitVec 18) :
    exec (.parityRepair tab c n) s = .next (s.repairEnt tab.toNat c n.toNat) := by
  have hgo : ¬ (!s.fabricOn) = true := by simp [hfab]
  exact congrArg Host.Outcome.next ((if_neg hgo).trans (if_neg htab))

/-- An entry without a failure stays as it is. -/
theorem exec_parityRepair_good (htab : tab ≠ 0x32) (hgood : s.entBad tab.toNat c n.toNat = false) :
    exec (.parityRepair tab c n) s = .next s :=
  (exec_parityRepair hfab htab c n).trans (congrArg _ (if_pos (by simp [hgood])))

include hrun

/-- A damaged freshness value that persists comes from MRAM (R369). -/
theorem parityRepair_freshness (hbad : s.entBad 0x32 0 n.toNat = true) (hpers : fpPersist (s.fparam s.epoch n.toNat) = true)
    (hlen : (s.ent 0x32 0 n.toNat).length = 4) (c : Fin 2) :
    ∃ u, exec (.parityRepair 0x32 c n) s = .next u ∧ u.fv n.toNat = s.freshStored n.toNat := by
  have hrep : s.freshRepair n.toNat = s.setFv n.toNat (s.freshStored n.toNat) :=
    (if_neg (by simp [hrun, hbad])).trans (if_pos hpers)
  refine ⟨s.freshRepair n.toNat, ?_, ?_⟩
  · have hgo : ¬ (!s.fabricOn) = true := by simp [hfab]
    exact congrArg Host.Outcome.next ((if_neg hgo).trans (if_pos rfl))
  · rw [hrep, State.fv_setFv hlen, Nat.mod_eq_of_lt (s.freshStored_lt _)]

variable (harm : s.on F.memFlipCtrl_arm = false)
include harm

/-- A damaged recovery state enters reset (R369). -/
theorem parityRepair_recovery (hbad : s.entBad 0x1B c n.toNat = true) (hlen : (s.strState n.toNat).length = 16) :
    ∃ u, exec (.parityRepair 0x1B c n) s = .next u ∧ strIsReset (s.strState n.toNat) (u.strState n.toNat) := by
  have hrep : s.repairEnt 0x1B c n.toNat = s.strReset n.toNat := (if_neg (by simp [hrun, hbad])).trans (if_pos rfl)
  exact ⟨_, (exec_parityRepair hfab (tab := 0x1B) (by decide) c n).trans (congrArg _ hrep), State.strReset_spec harm hlen⟩

variable (hbad : s.entBad tab.toNat c n.toNat = true) (hfresh : tab ≠ 0x32) (hrec : tab ≠ 0x1B)
include hbad hfresh hrec

/-- A damaged entry with a golden copy is written from it (R367). -/
theorem parityRepair_golden {g : List Word} (hg : tblFind s.net.golden (tabKey tab.toNat c n.toNat) = some g) :
    ∃ u, exec (.parityRepair tab c n) s = .next u ∧ u.ent tab.toNat c n.toNat = g ∧ u.ctr .memReloads = s.ctr .memReloads + 1 := by
  have hid : tab.toNat ≠ 0x1B := fun h => hrec (BitVec.eq_of_toNat_eq h)
  have hrep : s.repairEnt tab.toNat c n.toNat = (s.writeEnt tab.toNat c n.toNat g).bump .memReloads := by
    simp only [State.repairEnt, hrun, hbad, hid, hg, Bool.not_true, Bool.or_false, Bool.false_eq_true, if_false]
  have hw := State.wrote_writeEnt (s := s) (id := tab.toNat) (.inr harm) c n.toNat g
  refine ⟨_, (exec_parityRepair hfab hfresh c n).trans (congrArg _ hrep), hw.same, ?_⟩
  rw [State.ctr_bump, if_pos ⟨rfl, rfl⟩, hw.ctrs .memReloads 0 (by decide)]

/-- A damaged entry without a golden copy is deleted and reported (R367). -/
theorem parityRepair_deletes (hg : tblFind s.net.golden (tabKey tab.toNat c n.toNat) = none) :
    ∃ u, exec (.parityRepair tab c n) s = .next u ∧ u.ent tab.toNat c n.toNat = tabDefault tab.toNat ∧
      u.ctr .memReloadNone = s.ctr .memReloadNone + 1 ∧
      getBit (u.rd .evtStat (Ev.memReload / 32)) (Ev.memReload % 32) = true := by
  have hid : tab.toNat ≠ 0x1B := fun h => hrec (BitVec.eq_of_toNat_eq h)
  have hrep : s.repairEnt tab.toNat c n.toNat = ((s.delEnt tab.toNat c n.toNat).bump .memReloadNone).raise Ev.memReload := by
    simp only [State.repairEnt, hrun, hbad, hid, hg, Bool.not_true, Bool.or_false, Bool.false_eq_true, if_false]
  have hw := State.wrote_delEnt (s := s) (id := tab.toNat) (.inr harm) c n.toNat
  refine ⟨_, (exec_parityRepair hfab hfresh c n).trans (congrArg _ hrep), ?_, ?_, State.statBit_raise (by decide)⟩
  · rw [State.ent, State.raise_net]
    exact hw.same
  · rw [State.ctr_raise _ _ _ _ (by decide), State.ctr_bump, if_pos ⟨rfl, rfl⟩, hw.ctrs .memReloadNone 0 (by decide)]

end Repair

/-- Settles O37: each timeout tests its interval and writes one place, a reset adds one to cnt_resets and leaves hist, and a repair is
one write of the entry. -/
theorem streamResetsAndRepairs : Obligations.StreamResetsAndRepairs := by
  unfold Obligations.StreamResetsAndRepairs
  intro s harm
  refine ⟨fun fid mac hfab => ⟨_, congrArg Host.Outcome.next (if_pos hfab), by simp [keeps, Part.same, State.pendDrop], rfl⟩, ?_,
    fun k hlen => ?_, fun tab c n hfab hrun => ?_⟩
  · intro w hfab hw
    refine ⟨fun hend => ?_, fun hopen => ?_⟩
    · obtain ⟨hbegun, hnot⟩ := State.flapStart_window hw (show s.net.flapAt ≤ s.tim.lt by omega)
      exact ⟨_, (exec_flapWindowEnd hfab).trans (congrArg _ (s.flapRoll_eq.trans (if_pos hend))), rfl, hbegun, hnot, keeps_withFlaps s _ _⟩
    · exact (exec_flapWindowEnd hfab).trans (congrArg _ (s.flapRoll_eq.trans (if_neg (not_le.mpr hopen))))
  · intro isReset
    refine ⟨fun p data hs hk => ?_, ?_⟩
    · exact ⟨_, exec_streamResetWrite hs hk, State.strReset_spec (s := s.nextSeq p) harm hlen⟩
    · intro q hfab hused hrec hrst hdue
      exact ⟨_, exec_recoveryResetTimeout hfab hused hrec hrst hdue, State.strReset_spec harm hlen⟩
  · refine ⟨fun hbad hfresh hrec => ⟨fun g hg => parityRepair_golden hfab hrun harm hbad hfresh hrec hg,
      fun hg => parityRepair_deletes hfab hrun harm hbad hfresh hrec hg⟩, fun hbad hlen => ?_,
      fun hbad hpers hlen => parityRepair_freshness hfab hrun hbad hpers hlen c,
      fun hgood hfresh => exec_parityRepair_good hfab hfresh hgood⟩
    obtain ⟨u, he, hrst, hcnt, -⟩ := parityRepair_recovery hfab hrun harm hbad hlen
    exact ⟨u, he, hrst, hcnt⟩

end Sys2Proof.Machine
end

section
/-! ## Slots and contexts of the Harbour (R149 to R151)

What a command does to slots, contexts and the references of frames, and that it does nothing else. -/

namespace Sys2Proof.Machine

open Sys2Proof

variable {s t u : State}

/-- `t` is `s` but for its slots, its contexts and its frame records. -/
def Reslotted (s t : State) : Prop :=
  ∃ slots ctxs frames, t = { s with net := { s.net with slots := slots, ctxs := ctxs, frames := frames } }

namespace Reslotted

theorem refl (s : State) : Reslotted s s := ⟨_, _, _, rfl⟩

theorem trans (h : Reslotted s t) (k : Reslotted t u) : Reslotted s u := by
  obtain ⟨_, _, _, rfl⟩ := h
  obtain ⟨_, _, _, rfl⟩ := k
  exact ⟨_, _, _, rfl⟩

theorem ite {a b : State} {c : Prop} [Decidable c] (ha : Reslotted s a) (hb : Reslotted s b) : Reslotted s (if c then a else b) := by
  split
  exacts [ha, hb]

variable (h : Reslotted s t)
include h

theorem foldl {α : Type} {f : State → α → State} {l : List α} (hf : ∀ u a, Reslotted s u → Reslotted s (f u a)) :
    Reslotted s (l.foldl f t) := List.foldlRecOn l f h fun u hu a _ => hf u a hu

theorem setFrm {i : Nat} {f : Frm} : Reslotted s (t.setFrm i f) := h.trans ⟨_, _, _, rfl⟩

theorem holdFrm {i n : Nat} : Reslotted s (t.holdFrm i n) := h.setFrm

theorem dropRef {i : Nat} : Reslotted s (t.dropRef i) := h.setFrm

theorem setSlot {n : Nat} {x : Option Slot} : Reslotted s (t.setSlot n x) := h.trans ⟨_, _, _, rfl⟩

theorem setCtx {n : Nat} {c : Option Ctx} : Reslotted s (t.setCtx n c) := h.trans ⟨_, _, _, rfl⟩

theorem holdCtx {n : Nat} : Reslotted s (t.holdCtx n) := by
  unfold State.holdCtx
  split
  · exact h
  · refine ite h.setCtx ?_
    split <;> exact h.setCtx

theorem dropOuts {l : List SlotOut} : Reslotted s (t.dropOuts l) := h.foldl fun _ _ h1 => h1.dropRef

theorem slotTo {n : Nat} {st : SlotState} : Reslotted s (t.slotTo n st) := by
  unfold State.slotTo
  split
  · exact h
  · exact h.setSlot.dropOuts.holdCtx

theorem voidSlot {n : Option Nat} : Reslotted s (t.voidSlot n) := by
  unfold State.voidSlot
  split
  · exact h.slotTo
  · exact h

theorem regs : t.regs = s.regs := by
  obtain ⟨_, _, _, rfl⟩ := h
  rfl

theorem ctrs : t.ctrs = s.ctrs := by
  obtain ⟨_, _, _, rfl⟩ := h
  rfl

theorem tim : t.tim = s.tim := by
  obtain ⟨_, _, _, rfl⟩ := h
  rfl

theorem mem : t.mem = s.mem := by
  obtain ⟨_, _, _, rfl⟩ := h
  rfl

theorem sky : t.net.sky = s.net.sky := by
  obtain ⟨_, _, _, rfl⟩ := h
  rfl

theorem queues : t.net.queues = s.net.queues := by
  obtain ⟨_, _, _, rfl⟩ := h
  rfl

theorem rd (r : Reg) (i : Nat) : t.rd r i = s.rd r i := by
  rw [State.rd, h.regs, State.rd]

theorem ctr (c : Ctr) (i : Nat) : t.ctr c i = s.ctr c i := by
  rw [State.ctr, h.ctrs, State.ctr]

theorem skerry (k : Nat) : t.skerry k = s.skerry k := by
  rw [State.skerry, h.sky, State.skerry]

end Reslotted

/-! ### Slots -/

@[simp] theorem State.slots_setFrm (s : State) (i : Nat) (f : Frm) : (s.setFrm i f).net.slots = s.net.slots := rfl
@[simp] theorem State.slots_dropRef (s : State) (i : Nat) : (s.dropRef i).net.slots = s.net.slots := rfl
@[simp] theorem State.slots_holdFrm (s : State) (i n : Nat) : (s.holdFrm i n).net.slots = s.net.slots := rfl
@[simp] theorem State.slots_setCtx (s : State) (n : Nat) (c : Option Ctx) : (s.setCtx n c).net.slots = s.net.slots := rfl

@[simp] theorem State.frames_setCtx (s : State) (n : Nat) (c : Option Ctx) : (s.setCtx n c).net.frames = s.net.frames := rfl
@[simp] theorem State.frames_setSlot (s : State) (n : Nat) (x : Option Slot) : (s.setSlot n x).net.frames = s.net.frames := rfl

theorem State.tblFind_setSlot (s : State) (n m : Nat) (x : Option Slot) :
    tblFind (s.setSlot n x).net.slots m = if m = n then x else tblFind s.net.slots m := by
  cases x with
  | some x => exact tblFind_put ..
  | none => exact tblFind_del ..

/-- The hold timer of a context is kept in the context alone. -/
theorem State.holdCtx_eq_setCtx (s : State) (n : Nat) : s.holdCtx n = s ∨ ∃ c, s.holdCtx n = s.setCtx n c := by
  unfold State.holdCtx
  split
  · exact .inl rfl
  · split
    · exact .inr ⟨_, rfl⟩
    · split <;> exact .inr ⟨_, rfl⟩

@[simp] theorem State.slots_holdCtx (s : State) (n : Nat) : (s.holdCtx n).net.slots = s.net.slots := by
  obtain h | ⟨c, h⟩ := s.holdCtx_eq_setCtx n <;> simp [h]

@[simp] theorem State.frames_holdCtx (s : State) (n : Nat) : (s.holdCtx n).net.frames = s.net.frames := by
  obtain h | ⟨c, h⟩ := s.holdCtx_eq_setCtx n <;> simp [h]

@[simp] theorem State.slots_dropOuts (s : State) (l : List SlotOut) : (s.dropOuts l).net.slots = s.net.slots :=
  List.foldlRecOn (motive := fun u : State => u.net.slots = s.net.slots) l _ rfl fun _ hu _ _ => hu

theorem State.tblFind_slotTo (s : State) (n m : Nat) (st : SlotState) :
    tblFind (s.slotTo n st).net.slots m =
      if m = n then (tblFind s.net.slots n).map fun x => { x with st := st } else tblFind s.net.slots m := by
  unfold State.slotTo
  split
  · next h =>
    split
    · next hm => rw [hm, h, Option.map_none]
    · rfl
  · next x h => rw [State.slots_holdCtx, State.slots_dropOuts, State.tblFind_setSlot, h, Option.map_some]

/-- Slot `n` is listed and VOID. -/
def State.slotVoid (s : State) (n : Nat) : Prop := ∃ x, tblFind s.net.slots n = some x ∧ x.st = .void

theorem State.slotVoid_slotTo_same {n : Nat} (h : (tblFind s.net.slots n).isSome = true) : (s.slotTo n .void).slotVoid n := by
  obtain ⟨x, hx⟩ := Option.isSome_iff_exists.mp h
  exact ⟨{ x with st := .void }, by rw [State.tblFind_slotTo, if_pos rfl, hx, Option.map_some], rfl⟩

/-- A VOID slot stays so when slots become VOID. -/
theorem State.slotVoid.slotTo {n : Nat} (h : s.slotVoid n) (m : Nat) : (s.slotTo m .void).slotVoid n := by
  obtain ⟨x, hx, hv⟩ := h
  by_cases hn : n = m
  · exact hn ▸ State.slotVoid_slotTo_same (by rw [hx]; rfl)
  · exact ⟨x, by rw [State.tblFind_slotTo, if_neg hn, hx], hv⟩

theorem State.slotVoid.of_slots {n : Nat} (h : s.slotVoid n) (e : t.net.slots = s.net.slots) : t.slotVoid n := by
  obtain ⟨x, hx, hv⟩ := h
  exact ⟨x, by rw [e, hx], hv⟩

/-! ### Expiries of the hold timer (R151, R152) -/

/-- `t` is `s` after expiries of hold timers: slots, contexts and frame records have changed, and expiries were counted. -/
structure Expired (s t : State) : Prop where
  regs : t.regs = s.regs
  tim : t.tim = s.tim
  mem : t.mem = s.mem
  sky : t.net.sky = s.net.sky
  ctrs : ctrsBut [.hrbHoldTmo] s t

theorem Expired.refl (s : State) : Expired s s := ⟨rfl, rfl, rfl, rfl, fun _ _ _ => rfl⟩

theorem Expired.trans (h : Expired s t) (k : Expired t u) : Expired s u :=
  ⟨k.regs.trans h.regs, k.tim.trans h.tim, k.mem.trans h.mem, k.sky.trans h.sky,
    fun c i hc => (k.ctrs c i hc).trans (h.ctrs c i hc)⟩

theorem Expired.reslotted (h : Expired s t) (k : Reslotted t u) : Expired s u :=
  h.trans ⟨k.regs, k.tim, k.mem, k.sky, fun c i _ => k.ctr c i⟩

theorem Expired.bump (h : Expired s t) : Expired s (t.bump .hrbHoldTmo) :=
  h.trans ⟨rfl, rfl, rfl, rfl, fun c i hc => by rw [State.ctr_bump, if_neg fun e => hc (List.mem_singleton.mpr e.1)]⟩

theorem Expired.hrbExpire (h : Expired s t) {n : Nat} : Expired s (t.hrbExpire n) := by
  unfold State.hrbExpire
  split
  · exact h
  · split
    · dsimp only
      split
      · exact h.bump.reslotted (Reslotted.refl _).slotTo.setCtx
      · exact h.bump.reslotted (Reslotted.refl _).slotTo
    · exact h

theorem Expired.hrbRun (h : Expired s t) {fuel n : Nat} : Expired s (t.hrbRun fuel n) := by
  induction fuel generalizing t with
  | zero => exact h
  | succ fuel ih =>
    unfold State.hrbRun
    split
    · exact ih h.hrbExpire
    · exact h

theorem Expired.hrbHolds (h : Expired s t) {n : Nat} : Expired s (t.hrbHolds n) := by
  unfold State.hrbHolds
  split
  · exact h.hrbRun
  · exact h

/-- The hold timer of a flow has expired: it runs, for the slot that the flow waits for, since hold_ns or longer. -/
theorem State.hrbDue_iff {n : Nat} : s.hrbDue n = true ↔ ∃ c q at_ k h, tblFind s.net.ctxs n = some c ∧ c.hold = some (q, at_) ∧
    s.ctxWait n c = some (k, h) ∧ at_ + tkNs (s.fld F.hrbCfg_hold_ns) ≤ s.tim.lt := by
  unfold State.hrbDue
  cases hc : tblFind s.net.ctxs n with
  | none => simp
  | some c => cases hh : c.hold <;> cases hw : s.ctxWait n c <;> simp [hh, hw, Prod.ext_iff]

/-- An expiry makes the slot VOID that the flow waits for. -/
theorem State.slots_hrbExpire {n k : Nat} {c : Ctx} {h : Slot} {hold : Nat × Nat} (hc : tblFind s.net.ctxs n = some c)
    (hh : c.hold = some hold) (hw : s.ctxWait n c = some (k, h)) :
    (s.hrbExpire n).net.slots = ((s.bump .hrbHoldTmo).slotTo k .void).net.slots := by
  unfold State.hrbExpire
  simp only [hc, hh, hw]
  split <;> rfl

theorem State.slotVoid.hrbExpire {m : Nat} (h : s.slotVoid m) (n : Nat) : (s.hrbExpire n).slotVoid m := by
  unfold State.hrbExpire
  split
  · exact h
  · split
    · next k _ _ _ =>
      have hv : ((s.bump .hrbHoldTmo).slotTo k .void).slotVoid m := State.slotVoid.slotTo (s := s.bump .hrbHoldTmo) h k
      dsimp only
      split
      · exact hv
      · exact hv
    · exact h

theorem State.slotVoid.hrbRun {m : Nat} (h : s.slotVoid m) (fuel n : Nat) : (s.hrbRun fuel n).slotVoid m := by
  induction fuel generalizing s with
  | zero => exact h
  | succ fuel ih =>
    unfold State.hrbRun
    split
    · exact ih (h.hrbExpire n)
    · exact h

/-- Nothing expires in a flow whose timer is not due. -/
theorem State.hrbHolds_of_not_due {n : Nat} (h : ∀ x, tblFind s.net.slots n = some x → s.hrbDue x.ctx = false) : s.hrbHolds n = s := by
  unfold State.hrbHolds
  split
  · next x hx =>
    unfold State.hrbRun
    rw [h x hx]
    rfl
  · rfl

/-- The slot that a flow waits for is VOID after the expiries that are due. -/
theorem State.slotVoid_hrbHolds {n : Nat} {x h : Slot} {c : Ctx} (hx : tblFind s.net.slots n = some x)
    (hc : tblFind s.net.ctxs x.ctx = some c) (hw : s.ctxWait x.ctx c = some (n, h)) (hdue : s.hrbDue x.ctx = true) :
    (s.hrbHolds n).slotVoid n := by
  obtain ⟨c', q, at_, k, h', hc', hh, -, -⟩ := State.hrbDue_iff.mp hdue
  obtain rfl : c' = c := Option.some.inj (hc'.symm.trans hc)
  have hv : (s.hrbExpire x.ctx).slotVoid n :=
    State.slotVoid.of_slots (State.slotVoid_slotTo_same (s := s.bump .hrbHoldTmo) (by simp [hx])) (State.slots_hrbExpire hc hh hw)
  unfold State.hrbHolds
  rw [hx]
  show (if s.hrbDue x.ctx then (s.hrbExpire x.ctx).hrbRun 8191 x.ctx else s).slotVoid n
  rw [if_pos hdue]
  exact hv.hrbRun ..

end Sys2Proof.Machine
end

section
/-! ## The Harbour (R149 to R152) -/

namespace Sys2Proof.Machine

open Sys2Proof

variable {s : State}

/-! ### Buffer writes (R149) -/

/-- A buffer write that completes before its flow's hold expires makes the planned outputs those of a READY slot. -/
theorem exec_bufferWriteComplete {n : BitVec 13} {x : Slot} {outs : List SlotOut} (hx : tblFind s.net.slots n.toNat = some x)
    (hst : x.st = .pending (some outs)) (hdue : s.hrbDue x.ctx = false) :
    exec (.bufferWriteComplete n) s = .next ((s.setSlot n.toNat (some { x with st := .ready outs })).holdCtx x.ctx) := by
  have hhold : s.hrbHolds n.toNat = s := State.hrbHolds_of_not_due fun y hy => Option.some.inj (hx.symm.trans hy) ▸ hdue
  show execBufferWriteComplete n s = _
  simp only [execBufferWriteComplete, hhold, hx, hst]

/-! ### The head of a flow (R150) -/

/-- What becomes of slot `k`, in a given state at the head of flow `n` (R150). -/
def State.releaseHead (s : State) (n k : Nat) : SlotState → State
  | .ready outs => outs.foldl State.releaseOut (s.freeHead n k .hrbReleased)
  | .void => s.freeHead n k .hrbVoid
  | .pending _ => s

section Head

variable {c : BitVec 13} {x : Ctx} {k : Nat} {h : Slot} (hfab : s.fabricOn = true) (hx : tblFind s.net.ctxs c.toNat = some x)
  (hh : s.ctxHead c.toNat x = some (k, h)) (hm : s.memClean = true)

include hm in
theorem State.wordsRead_clean (mem inst addr n source : Nat) : s.wordsRead mem inst addr n source = (s, false) := if_pos hm

include hm in
theorem State.ctxRead_clean (n : Nat) : s.ctxRead n = s := by
  simp [State.ctxRead, State.wordsRead_clean hm]

include hm in
theorem State.headRead_clean (n : Nat) : s.headRead n = s := by
  unfold State.headRead
  split
  · simp [State.wordsRead_clean hm]
  · rfl

include hfab hx hh hm

/-- What becomes of the slot at the head of a flow when no word of it holds an error. -/
theorem exec_harbourRelease : exec (.harbourRelease c) s = .next (s.releaseHead c.toNat k h.st) := by
  show Host.Outcome.next (if s.fabricOn then s.release c.toNat else s) = _
  rw [if_pos hfab]
  unfold State.release
  simp only [State.ctxRead_clean hm, State.headRead_clean hm, hx, hh]
  cases h.st <;> rfl

end Head

theorem State.slots_freeHead (s : State) (n k : Nat) (c : Ctr) : tblFind (s.freeHead n k c).net.slots k = none := by
  rw [State.freeHead, State.slots_holdCtx]
  exact tblFind_del_same ..

/-- The state in which the slot at a head is free and counted, but for its context. -/
theorem State.reslotted_freeHead (s : State) (n k : Nat) (c : Ctr) : Reslotted (s.bump c) (s.freeHead n k c) :=
  have h : Reslotted (s.bump c) ((s.setSlot k none).bump c) := ⟨_, _, _, rfl⟩
  h.holdCtx

theorem State.ctr_freeHead (s : State) (n k : Nat) (c : Ctr) : (s.freeHead n k c).ctr c = s.ctr c + 1 := by
  rw [(s.reslotted_freeHead n k c).ctr, State.ctr_bump, if_pos ⟨rfl, rfl⟩]

/-! ### The offer of an output (R150, R172) -/

theorem State.frames_freeHead (s : State) (n k : Nat) (c : Ctr) : (s.freeHead n k c).net.frames = s.net.frames :=
  State.frames_holdCtx ..

theorem State.frm_freeHead (s : State) (n k : Nat) (c : Ctr) (i : Nat) : (s.freeHead n k c).frm i = s.frm i := by
  rw [State.frm, State.frames_freeHead, State.frm]

/-! Admission, and how a copy leaves, do not depend on slots. -/

namespace Reslotted

variable {t : State} (h : Reslotted s t)
include h

theorem fld (f : RegField) (i : Nat) : t.fld f i = s.fld f i := congrArg (getBits · f.hi f.lo) (h.rd f.reg i)

theorem on (f : RegField) (i : Nat) : t.on f i = s.on f i := congrArg (· != 0) (h.fld f i)

theorem qFld (q : Nat) (a b : RegField) : t.qFld q a b = s.qFld q a b := by
  rw [State.qFld, h.fld, h.fld, State.qFld]

theorem qMaxFrame (q p : Nat) : t.qMaxFrame q p = s.qMaxFrame q p := by
  rw [State.qMaxFrame, h.qFld, h.fld, State.qMaxFrame]

theorem occQ (q : Nat) : t.occQ q = s.occQ q := by
  obtain ⟨_, _, _, rfl⟩ := h
  rfl

theorem copies : t.copies = s.copies := by
  obtain ⟨_, _, _, rfl⟩ := h
  rfl

theorem occPort (p : Nat) : t.occPort p = s.occPort p := by
  rw [State.occPort, h.copies, State.occPort]

theorem sharedUsed : t.sharedUsed = s.sharedUsed := by
  simp only [State.sharedUsed, State.busyQueues, h.copies, h.occQ, State.qMin, h.qFld]

theorem sharedSize : t.sharedSize = s.sharedSize := by
  rw [State.sharedSize, State.sumMin, h.fld, h.regs, State.sharedSize, State.sumMin]

theorem linkUp (p : Nat) : t.linkUp p = s.linkUp p := by
  rw [State.linkUp, h.on, h.on, State.linkUp]

theorem quiet : t.quiet = s.quiet := by
  obtain ⟨_, _, _, rfl⟩ := h
  rfl

theorem pairOn (p : Nat) : t.pairOn p = s.pairOn p := by
  have hop : t.op = s.op := by
    obtain ⟨_, _, _, rfl⟩ := h
    rfl
  rw [State.pairOn, State.paired, State.pairPort, h.on, h.on, hop, State.pairOn, State.paired, State.pairPort]

theorem reserved (f : Frm) : t.reserved f = s.reserved f := by
  obtain ⟨_, _, _, rfl⟩ := h
  rfl

theorem qMin (q : Nat) : t.qMin q = s.qMin q := h.qFld ..

theorem admitTest (f : Frm) (q p k : Nat) (len : Option Nat) : t.admitTest f q p k len = s.admitTest f q p k len := by
  unfold State.admitTest
  rw [h.qMaxFrame, h.linkUp, h.quiet, h.pairOn, h.on, h.reserved, h.qFld, h.qFld, h.qFld, h.qMin, h.occQ, h.occPort, h.fld,
    h.sharedUsed, h.sharedSize]

theorem queueOf (f : Frm) (p : Nat) : t.queueOf f p = s.queueOf f p := by
  have hep : t.rdEp .qmgClassMap p f.epoch = s.rdEp .qmgClassMap p f.epoch := by
    obtain ⟨_, _, _, rfl⟩ := h
    rfl
  simp only [State.queueOf, State.classQueue, hep]

theorem copyLen (f : Frm) (x : Xf) : t.copyLen f x = s.copyLen f x := by
  have hc : t.parseCfg f.inPort = s.parseCfg f.inPort := by
    simp only [State.parseCfg, State.secyRx, h.on, h.fld]
  simp only [State.copyLen, State.copyBytes, State.parseCfgOf, hc]

end Reslotted

/-- A copy of frame `i` has been appended to queue `q`: slots stay, and of the counters only the queue's own changes. -/
structure Enqueued (s : State) (q : Nat) (y : Copy) (u : State) : Prop where
  queue : u.queue q = s.queue q ++ [y]
  slots : u.net.slots = s.net.slots
  ctrs : ctrsBut [.qmgQEnq] s u

/-- A queue that wakes gets a new tag, and nothing else changes. -/
theorem State.wake_eq_setQs (s : State) (p q c : Nat) : s.wake p q c = s ∨ ∃ x, s.wake p q c = s.setQs q x := by
  unfold State.wake
  split
  · exact .inr ⟨_, rfl⟩
  · exact .inl rfl

theorem State.queues_wake (s : State) (p q c : Nat) : (s.wake p q c).net.queues = s.net.queues := by
  obtain h | ⟨x, h⟩ := s.wake_eq_setQs p q c
  · rw [h]
  · exact h ▸ rfl

theorem State.slots_wake (s : State) (p q c : Nat) : (s.wake p q c).net.slots = s.net.slots := by
  obtain h | ⟨x, h⟩ := s.wake_eq_setQs p q c
  · rw [h]
  · exact h ▸ rfl

theorem State.ctrs_wake (s : State) (p q c : Nat) : (s.wake p q c).ctrs = s.ctrs := by
  obtain h | ⟨x, h⟩ := s.wake_eq_setQs p q c
  · rw [h]
  · exact h ▸ rfl

/-- A copy is appended to its queue, and its frame is held for it. -/
def State.enqueue (s : State) (y : Copy) : State :=
  let w := s.wake y.port y.q y.cls
  let v := (w.setQueue y.q (w.queue y.q ++ [y])).holdFrm y.frm 1
  (v.bump .qmgQEnq y.q).marks

theorem State.enqueued_enqueue (s : State) (y : Copy) : Enqueued s y.q y (s.enqueue y) := by
  unfold State.enqueue
  extract_lets w v
  have hm := marked_marks (v.bump .qmgQEnq y.q)
  refine ⟨?_, ?_, fun c j hc => ?_⟩
  · rw [State.queue, hm.net]
    exact (tblGet_set_same ..).trans (congrArg (fun l => tblGet l [] y.q ++ [y]) (s.queues_wake y.port y.q y.cls))
  · rw [hm.net]
    exact s.slots_wake y.port y.q y.cls
  · have hv : v.ctrs = s.ctrs := s.ctrs_wake y.port y.q y.cls
    rw [State.ctr, hm.ctrs, ← State.ctr, State.ctr_bump, if_neg fun e => hc (List.mem_singleton.mpr e.1), State.ctr, hv, ← State.ctr]

/-- A copy that passes the tests of R172 is appended to its queue. -/
theorem State.admitCopy_admitted {i p : Nat} {x : Xf} (hp : p < 18) (hbad : (s.frm i).bad = false) (htail : (s.frm i).tail = true)
    (hlen : s.copyLen (s.frm i) x ≤ 9216)
    (hadm : s.admitTest (s.frm i) (s.queueOf (s.frm i) p).1 p (s.frm i).cells (some (s.copyLen (s.frm i) x)) = none) :
    ∃ y : Copy, y.frm = i ∧ y.port = p ∧ y.xf = x ∧ Enqueued s (s.queueOf (s.frm i) p).1 y (s.admitCopy i p x) := by
  let q := s.queueOf (s.frm i) p
  let y : Copy := ⟨i, p, q.1, q.2, (s.frm i).cells, s.cutThrough (s.frm i) p q.1 q.2, x, (s.frm i).epoch⟩
  have e : s.admitCopy i p x = s.enqueue y := by
    unfold State.admitCopy
    simp only [hbad, htail, hadm, Nat.not_le.mpr hp, Nat.not_lt.mpr hlen, if_true, if_false, decide_false, Bool.or_self,
      Bool.false_eq_true, Option.any_some, and_false]
    rfl
  exact ⟨y, rfl, rfl, rfl, e ▸ s.enqueued_enqueue y⟩

theorem Enqueued.dropRef {q i : Nat} {y : Copy} {u : State} (h : Enqueued s q y u) : Enqueued s q y (u.dropRef i) :=
  ⟨h.queue, h.slots, h.ctrs⟩

/-- The offer of one output of a good frame to a port that has room for it. -/
theorem State.releaseOut_admitted {o : SlotOut} (hp : o.port < 18) (hbad : (s.frm o.frm).bad = false)
    (htail : (s.frm o.frm).tail = true) (hlen : s.copyLen (s.frm o.frm) o.xf ≤ 9216)
    (hadm : s.admitTest (s.frm o.frm) (s.queueOf (s.frm o.frm) o.port).1 o.port (s.frm o.frm).cells
      (some (s.copyLen (s.frm o.frm) o.xf)) = none) :
    ∃ y : Copy, y.frm = o.frm ∧ y.port = o.port ∧ y.xf = o.xf ∧
      Enqueued s (s.queueOf (s.frm o.frm) o.port).1 y (s.releaseOut o) := by
  obtain ⟨y, hy, hport, hxf, hq⟩ := State.admitCopy_admitted hp hbad htail hlen hadm
  refine ⟨y, hy, hport, hxf, ?_⟩
  have e : s.releaseOut o = (s.admitCopy o.frm o.port o.xf).dropRef o.frm := by
    simp only [State.releaseOut, hbad, hp, Bool.false_eq_true, if_false, if_true]
  exact e ▸ hq.dropRef

/-- A head with one output that its queue admits. -/
theorem State.releaseHead_admitted {n k : Nat} {o : SlotOut} (hp : o.port < 18) (hbad : (s.frm o.frm).bad = false)
    (htail : (s.frm o.frm).tail = true) (hlen : s.copyLen (s.frm o.frm) o.xf ≤ 9216)
    (hadm : s.admitTest (s.frm o.frm) (s.queueOf (s.frm o.frm) o.port).1 o.port (s.frm o.frm).cells
      (some (s.copyLen (s.frm o.frm) o.xf)) = none) :
    ∃ y : Copy, tblFind (s.releaseHead n k (.ready [o])).net.slots k = none ∧
      (s.releaseHead n k (.ready [o])).ctr .hrbReleased = s.ctr .hrbReleased + 1 ∧ y.frm = o.frm ∧ y.port = o.port ∧ y.xf = o.xf ∧
      (s.releaseHead n k (.ready [o])).queue (s.queueOf (s.frm o.frm) o.port).1 =
        s.queue (s.queueOf (s.frm o.frm) o.port).1 ++ [y] := by
  have hr := s.reslotted_freeHead n k .hrbReleased
  have hfrm := s.frm_freeHead n k .hrbReleased o.frm
  have hl : (s.freeHead n k .hrbReleased).copyLen (s.frm o.frm) o.xf = s.copyLen (s.frm o.frm) o.xf := hr.copyLen ..
  have hq : (s.freeHead n k .hrbReleased).queueOf (s.frm o.frm) o.port = s.queueOf (s.frm o.frm) o.port := hr.queueOf ..
  obtain ⟨y, hy, hport, hxf, he⟩ := State.releaseOut_admitted (s := s.freeHead n k .hrbReleased) (o := o) hp (hfrm ▸ hbad) (hfrm ▸ htail)
    (by rw [hfrm, hl]; exact hlen) (by rw [hfrm, hl, hq, hr.admitTest]; exact hadm)
  rw [hfrm, hq] at he
  refine ⟨y, ?_, ?_, hy, hport, hxf, ?_⟩
  · exact (congrArg (tblFind · k) he.slots).trans (s.slots_freeHead ..)
  · exact (he.ctrs .hrbReleased 0 (by decide)).trans (s.ctr_freeHead ..)
  · exact he.queue.trans (congrArg (fun l => tblGet l [] _ ++ [y]) hr.queues)

/-! ### The hold timer of a head (R151) -/

/-- A listed key is found. -/
theorem isSome_tblFind_of_mem {α : Type} {l : Tbl α} {k : Nat} {v : α} (h : (k, v) ∈ l) : (tblFind l k).isSome = true := by
  induction l with
  | nil => exact absurd h (by simp)
  | cons e l ih =>
    obtain ⟨j, w⟩ := e
    unfold tblFind
    split
    · rfl
    · next hne =>
      refine ih ((List.mem_cons.mp h).resolve_left fun e => hne (congrArg Prod.fst e))

/-- The slot that a flow waits for is one of its slots. -/
theorem State.ctxWait_mem {n k : Nat} {c : Ctx} {h : Slot} (hw : s.ctxWait n c = some (k, h)) : (k, h) ∈ s.net.slots := by
  suffices hs : ∀ b, s.ctxWait n c = some b → b ∈ s.net.slots from hs _ hw
  unfold State.ctxWait
  refine List.foldlRecOn (motive := fun b => ∀ y, b = some y → y ∈ s.net.slots) _ _ (by simp) fun b hb x hx y hy => ?_
  have hmem : x ∈ s.net.slots := List.mem_of_mem_filter (List.mem_of_mem_filter hx)
  split at hy
  · split at hy
    · exact Option.some.inj hy ▸ hmem
    · exact hb y hy
  · exact Option.some.inj hy ▸ hmem

theorem exec_harbourHoldTimeout {c : BitVec 13} (hdue : s.hrbDue c.toNat = true) :
    exec (.harbourHoldTimeout c) s = .next (s.hrbExpire c.toNat) := congrArg Host.Outcome.next (if_pos hdue)

theorem State.ctr_hrbExpire {n k : Nat} {c : Ctx} {h : Slot} {hold : Nat × Nat} (hc : tblFind s.net.ctxs n = some c)
    (hh : c.hold = some hold) (hw : s.ctxWait n c = some (k, h)) : (s.hrbExpire n).ctr .hrbHoldTmo = s.ctr .hrbHoldTmo + 1 := by
  have hr : Reslotted (s.bump .hrbHoldTmo) (s.hrbExpire n) := by
    unfold State.hrbExpire
    simp only [hc, hh, hw]
    split
    · exact (Reslotted.refl _).slotTo.setCtx
    · exact (Reslotted.refl _).slotTo
  rw [hr.ctr, State.ctr_bump, if_pos ⟨rfl, rfl⟩]

/-- Settles O39: each command is one change of a slot, and a head with one output that its queue admits is one more copy in that
queue. -/
theorem harbourReleasesInOrder : Obligations.HarbourReleasesInOrder := by
  unfold Obligations.HarbourReleasesInOrder
  intro s
  refine ⟨fun n x outs hx hst hdue => ?_, fun c x k h hfab hx hh hm => ?_, fun c x q at_ k h hx hhold hw hdue => ?_⟩
  · have hr : Reslotted s ((s.setSlot n.toNat (some { x with st := .ready outs })).holdCtx x.ctx) := (Reslotted.refl s).setSlot.holdCtx
    refine ⟨_, exec_bufferWriteComplete hx hst hdue, ?_, fun m hm => ?_, ?_, ?_⟩
    · rw [State.slots_holdCtx, State.tblFind_setSlot, if_pos rfl]
    · rw [State.slots_holdCtx, State.tblFind_setSlot, if_neg hm]
    · rw [State.frames_holdCtx, State.frames_setSlot]
    · simp [keeps, Part.same, hr.regs, hr.ctrs, hr.tim, hr.mem]
  · have hexec := exec_harbourRelease hfab hx hh hm
    refine ⟨fun hst => ?_, fun hst => ?_, fun hst => ?_, fun o => ?_⟩
    · have hr := s.reslotted_freeHead c.toNat k .hrbVoid
      rw [hst] at hexec
      exact ⟨_, hexec, s.slots_freeHead .., s.ctr_freeHead .., hr.queues, by simp [keeps, Part.same, State.releaseHead, hr.regs, hr.tim, hr.mem]⟩
    · cases hs : h.st with
      | pending plan => rwa [hs] at hexec
      | ready outs => rw [hs] at hst; cases hst
      | void => rw [hs] at hst; cases hst
    · have hr := s.reslotted_freeHead c.toNat k .hrbReleased
      rw [hst] at hexec
      exact ⟨_, hexec, s.slots_freeHead .., s.ctr_freeHead .., hr.queues⟩
    · intro f hst hp hbad htail _ hlen hadm
      obtain ⟨y, hslot, hctr, hy, hport, hxf, hq⟩ := State.releaseHead_admitted hp hbad htail hlen hadm
      exact ⟨_, y, hexec.trans (by rw [hst]), hslot, hctr, hy, hport, hxf, hq⟩
  · have hd : s.hrbDue c.toNat = true := State.hrbDue_iff.mpr ⟨x, q, at_, k, h, hx, hhold, hw, hdue⟩
    have hv : (s.hrbExpire c.toNat).slotVoid k := State.slotVoid.of_slots
      (State.slotVoid_slotTo_same (s := s.bump .hrbHoldTmo) (isSome_tblFind_of_mem (State.ctxWait_mem hw))) (State.slots_hrbExpire hx hhold hw)
    exact ⟨_, exec_harbourHoldTimeout hd, hv, State.ctr_hrbExpire hx hhold hw, (Expired.refl s).hrbExpire.ctrs⟩

end Sys2Proof.Machine
end

section
/-! ## Rising sources do not halt the cores

A source that is routed to FAULT_N is a fault of code 5, the only one that leaves the cores running (R335). -/

namespace Sys2Proof.Machine

open Sys2Proof

variable {s : State}

theorem State.halted_faultCore_event (s : State) (sub : Nat) : (s.faultCore 5 sub).pair.halted = s.pair.halted := by
  unfold State.faultCore
  extract_lets ss now old _ s1 s2 s3 s4 s5 s6
  have e1 : s1 = s := if_pos rfl
  have h2 : s2.pair = s.pair := by
    unfold s2
    rw [State.bump_pair, State.setBall_pair, e1]
  have h4 : s4.pair = s2.pair := (State.wr_pair ..).trans (State.wr_pair ..)
  have h5 : s5.pair = s2.pair := by
    unfold s5
    split
    · exact (State.setFld_pair ..).trans (State.setFld_pair ..)
    · rfl
  clear_value s2 s4 s5
  have h6 : s6.pair = s2.pair := by
    unfold s6
    split
    · exact (State.wr_pair ..).trans h4
    · split
      · exact (State.setFld_pair ..).trans h5
      · rfl
  rw [State.enterSafe_halted, h6, h2]

theorem State.halted_rise (s : State) (src : Nat) : (s.rise src).1.pair.halted = s.pair.halted := by
  unfold State.rise
  extract_lets x t
  have hn : Noted (s.wr .evtStat (src / 32) (putBits (s.rd .evtStat (src / 32)) (src % 32) (src % 32) 1)) t :=
    (Noted.refl _).riseLog.riseNotify
  split
  · exact (t.halted_faultCore_event 0).trans (congrArg Pair.halted hn.pair)
  · exact congrArg Pair.halted hn.pair

theorem State.halted_raiseFuel (n : Nat) (s : State) (l : List Nat) : (State.raiseFuel n s l).pair.halted = s.pair.halted := by
  induction n generalizing s l with
  | zero => rfl
  | succ n ih =>
    cases l with
    | nil => rfl
    | cons src rest =>
      unfold State.raiseFuel
      split
      · exact ih s rest
      · exact (ih _ _).trans (s.halted_rise src)

theorem State.halted_raise (s : State) (src : Nat) : (s.raise src).pair.halted = s.pair.halted := by
  show (State.settle _).pair.halted = _
  unfold State.settle
  simp only [State.setBall_pair]
  exact s.halted_raiseFuel 13 [src]

end Sys2Proof.Machine
end

section
/-! ## Freshness values (R155, R287)

Device firmware stores a value in MRAM after a split pair has re-paired (R342). This changes no table, and cores that run go on. -/

namespace Sys2Proof.Machine

open Sys2Proof

variable {s t u : State} {n : Nat}

/-! ### The re-pair -/

/-- `t` has the switching side of `s`, and its cores run if those of `s` do. -/
structure CoresKept (s t : State) : Prop where
  net : t.net = s.net
  cores : t.coresOff = s.coresOff

theorem CoresKept.refl (s : State) : CoresKept s s := ⟨rfl, rfl⟩

theorem CoresKept.trans (h : CoresKept s t) (k : CoresKept t u) : CoresKept s u := ⟨k.net.trans h.net, k.cores.trans h.cores⟩

theorem coresKept_raise (s : State) (src : Nat) : CoresKept s (s.raise src) := by
  have q := quiet_raise s src
  exact ⟨q.net, by rw [State.coresOff, State.inReset, s.halted_raise, q.op, q.boot, State.coresOff, State.inReset]⟩

theorem coresKept_sendStatus (s : State) : CoresKept s s.sendStatus := by
  unfold State.sendStatus State.emitPair
  dsimp only
  split <;> exact ⟨rfl, rfl⟩

theorem coresKept_flagsChanged (s old : State) : CoresKept s (s.flagsChanged old) := by
  unfold State.flagsChanged
  split
  · exact coresKept_sendStatus s
  · exact .refl s

theorem coresKept_splitDone (s : State) : CoresKept s s.splitDone := by
  unfold State.splitDone
  split
  · exact .refl s
  · have h : CoresKept s ((s.setMode .split).bump .glbLsSplits) := ⟨rfl, rfl⟩
    exact (h.trans (coresKept_raise ..)).trans (coresKept_flagsChanged ..)

/-- A re-pair whose injection test passes on every lane. -/
theorem coresKept_repair (s : State) : CoresKept s (s.repair 0) := by
  unfold State.repair
  split
  · exact .refl s
  · have h : CoresKept s ((s.bist 0).setMode .lockstep) := ⟨rfl, rfl⟩
    exact (h.trans (coresKept_raise ..)).trans (coresKept_flagsChanged ..)

/-! ### The store -/

theorem State.net_mramPut (s : State) (off : Nat) (bs : List Byte) : (s.mramPut off bs).net = s.net := by
  induction bs generalizing s off with
  | nil => rfl
  | cons b bs ih => exact ih ..

/-- What a store tests and keeps: cores that run store the value, and the tables stay. -/
theorem State.freshSave_spec (s : State) (n v : Nat) :
    (s.freshSave n v (some 0)).1.net = s.net ∧ (s.coresOff = false → (s.freshSave n v (some 0)).2 = true) := by
  unfold State.freshSave
  extract_lets t w
  have hw : CoresKept s w := by
    have ht := coresKept_splitDone s
    unfold w
    split
    · have hf : CoresKept s { t with free := t.free + 1 } := ⟨ht.net, ht.cores⟩
      exact hf.trans (coresKept_repair _)
    · exact ht
  clear_value w
  split
  · next hoff => exact ⟨hw.net, fun h => absurd (hoff.symm.trans (hw.cores.trans h)) (by decide)⟩
  · exact ⟨(w.net_mramPut _ _).trans hw.net, fun _ => rfl⟩

theorem State.net_sendFresh (s : State) (n : Nat) : (s.sendFresh n).net = s.net := by
  unfold State.sendFresh State.emitPair
  split
  · dsimp only
    split <;> rfl
  · rfl

/-! ### Words of a freshness entry -/

theorem ew64_ePut64_apart {e : List Word} {i j : Nat} (hi : i + 1 < e.length) (hj : j + 1 < i ∨ i + 1 < j) (v : Nat) :
    ew64 (ePut64 e i v) j = ew64 e j := by
  have hlen : i + 1 < (e.set i (BitVec.ofNat 32 v)).length := by rwa [List.length_set]
  rw [ew64, ePut64, ew_set _ hlen, ew_set _ hlen, if_neg (by omega), if_neg (by omega), ew_set _ (by omega), ew_set _ (by omega),
    if_neg (by omega), if_neg (by omega), ew64]

theorem length_ePut64 (e : List Word) (i v : Nat) : (ePut64 e i v).length = e.length := by
  simp [ePut64]

theorem ew64_lt (e : List Word) (i : Nat) : ew64 e i < 2 ^ 64 := by
  have hh := (ew e (i + 1)).isLt
  have hl := (ew e i).isLt
  unfold ew64
  omega

/-- The freshness entries of `t` are those of `s`, but for entry `n`, which is `e`. -/
structure FreshSet (s : State) (n : Nat) (e : List Word) (t : State) : Prop where
  same : t.ent 0x32 0 n = e
  other : ∀ m, m ≠ n → t.ent 0x32 0 m = s.ent 0x32 0 m

theorem freshSet_writeEnt (s : State) (n : Nat) (e : List Word) : FreshSet s n e (s.writeEnt 0x32 0 n e) :=
  have hw := State.wrote_writeEnt (s := s) (id := 0x32) (.inl rfl) 0 n e
  ⟨hw.same, fun _ hm => hw.ent_ne hm⟩

theorem State.ent_of_net (h : t.net = s.net) (id par n : Nat) : t.ent id par n = s.ent id par n := by
  rw [State.ent, h, State.ent]

theorem FreshSet.of_net {e : List Word} (h : FreshSet s n e t) (hu : u.net = t.net) : FreshSet s n e u :=
  ⟨(State.ent_of_net hu ..).trans h.same, fun m hm => (State.ent_of_net hu ..).trans (h.other m hm)⟩

theorem FreshSet.from_net {e : List Word} (h : FreshSet t n e u) (ht : t.net = s.net) : FreshSet s n e u :=
  ⟨h.same, fun m hm => (h.other m hm).trans (State.ent_of_net ht ..)⟩

theorem FreshSet.fv_ne {e : List Word} (h : FreshSet s n e t) {m : Nat} (hm : m ≠ n) : t.fv m = s.fv m := by
  rw [State.fv, h.other m hm, State.fv]

/-! ### GEN and COMMIT -/

section Ops

variable {epoch ord v : Nat} (hm : s.memClean = true) (hp : s.mem.parity = [])
include hm hp

theorem State.freshGen_stale (h : ord ≤ s.lastOrd n) (fail : Option (BitVec 8)) : s.freshGen epoch n ord fail = (s, none) := by
  simp only [State.freshGen, State.readEnt_clean hm hp, h, Bool.false_or, true_or, if_true, ite_self]

theorem State.freshCommit_stale (h : v ≤ s.fv n) (fail : Option (BitVec 8)) : s.freshCommit epoch n v fail = (s, false) := by
  simp only [State.freshCommit, State.readEnt_clean hm hp, h, decide_true, Bool.false_or, if_true]

variable (hlen : (s.ent 0x32 0 n).length = 4)

/-- GEN with a higher ordinal, where the value is stored or needs no store. -/
theorem State.freshGen_next (hrole : s.red.role ≠ .faulted) (hord : s.lastOrd n < ord) (hmax : s.fv n ≠ 2 ^ 64 - 1)
    (hcores : fpPersist (s.fparam epoch n) = true → s.coresOff = false) :
    (s.freshGen epoch n ord (some 0)).2 = some (s.fv n + 1) ∧
      FreshSet s n (ePut64 (ePut64 (s.ent 0x32 0 n) 0 (s.fv n + 1)) 2 ord) (s.freshGen epoch n ord (some 0)).1 := by
  unfold State.freshGen
  rw [State.readEnt_clean hm hp]
  extract_lets r t v p x w w'
  have hx : x.1.net = s.net ∧ x.2 = true := by
    unfold x
    split
    · next hstore =>
      obtain ⟨hnet, hsaved⟩ := s.freshSave_spec n (v + fpStride p)
      exact ⟨hnet, hsaved (hcores hstore.1)⟩
    · exact ⟨rfl, rfl⟩
  obtain ⟨hnet, hok⟩ := hx
  have hgo : ¬ (r.2.2 || t.red.role == .faulted) = true := by simpa [r, t] using hrole
  have hnew : ¬ (ord ≤ t.lastOrd n ∨ t.fv n = 2 ^ 64 - 1) := not_or.mpr ⟨not_le.mpr hord, hmax⟩
  rw [if_neg hgo, if_neg hnew, if_neg (by simp [hok])]
  refine ⟨rfl, FreshSet.of_net (t := w') ?_ (State.net_sendFresh ..)⟩
  have he : w.ent 0x32 0 n = s.ent 0x32 0 n := State.ent_of_net hnet ..
  exact he ▸ (freshSet_writeEnt w n _).from_net hnet

/-- COMMIT of a higher value. -/
theorem State.freshCommit_next (hv : s.fv n < v) :
    (s.freshCommit epoch n v (some 0)).2 = true ∧
      FreshSet s n (ePut64 (s.ent 0x32 0 n) 0 v) (s.freshCommit epoch n v (some 0)).1 := by
  unfold State.freshCommit
  rw [State.readEnt_clean hm hp]
  extract_lets r t w p c full _ w1 w2
  have hgo : ¬ (r.2.2 || decide (v ≤ t.fv n)) = true := by simpa [r, t] using hv
  have h1 : FreshSet s n (ePut64 (s.ent 0x32 0 n) 0 v) w1 := ⟨(freshSet_writeEnt s n _).same, (freshSet_writeEnt s n _).other⟩
  have h2 : w2.net = w1.net := by
    unfold w2
    split
    · exact (w1.freshSave_spec n v).1
    · rfl
  rw [if_neg hgo]
  exact ⟨rfl, h1.of_net ((State.net_sendFresh ..).trans h2)⟩

end Ops

theorem exec_freshnessGen {i : BitVec 12} {ord : BitVec 64} (hfab : s.fabricOn = true) :
    exec (.freshnessGen i ord) s = .next ((s.freshGen s.epoch i.toNat ord.toNat (some 0)).1.emit
      (.fresh (s.freshGen s.epoch i.toNat ord.toNat (some 0)).2)) := congrArg Host.Outcome.next (if_pos hfab)

theorem exec_freshnessCommit {i : BitVec 12} {v : BitVec 64} (hfab : s.fabricOn = true) :
    exec (.freshnessCommit i v) s = .next ((s.freshCommit s.epoch i.toNat v.toNat (some 0)).1.emit
      (.fresh (if (s.freshCommit s.epoch i.toNat v.toNat (some 0)).2 then some v.toNat else none))) :=
  congrArg Host.Outcome.next (if_pos hfab)

/-- Settles O41: an operation that answers a value writes one entry, and a STALE one changes nothing. -/
theorem freshnessGenAndCommit : Obligations.FreshnessGenAndCommit := by
  unfold Obligations.FreshnessGenAndCommit
  intro s i hfab hm hp hlen hcores
  have hne (j : BitVec 12) (hj : j ≠ i) : j.toNat ≠ i.toNat := mt BitVec.eq_of_toNat_eq hj
  have hput (v : Nat) : (ePut64 (s.ent 0x32 0 i.toNat) 0 v).length = 4 := (length_ePut64 ..).trans hlen
  refine ⟨fun ord => ⟨fun hrole hord hmax => ?_, fun hord => ?_⟩, fun v => ⟨fun hv => ?_, fun hv => ?_⟩⟩
  · obtain ⟨hans, hset⟩ := State.freshGen_next (epoch := s.epoch) hm hp hrole hord hmax hcores
    have hlt : s.fv i.toNat < 2 ^ 64 := ew64_lt ..
    refine ⟨_, _, exec_freshnessGen hfab, congrArg (Out.fresh · :: _) hans, ?_, ?_, fun j hj => hset.fv_ne (hne j hj)⟩
    · refine (congrArg (ew64 · 0) hset.same).trans ?_
      rw [ew64_ePut64_apart (by rw [hput]; decide) (by decide), ew64_ePut64 (by rw [hlen]; decide), Nat.mod_eq_of_lt (by omega)]
    · refine (congrArg (ew64 · 2) hset.same).trans ?_
      rw [ew64_ePut64 (by rw [hput]; decide), Nat.mod_eq_of_lt ord.isLt]
  · rw [exec_freshnessGen hfab, State.freshGen_stale hm hp hord]
  · obtain ⟨hans, hset⟩ := State.freshCommit_next (epoch := s.epoch) hm hp hv
    refine ⟨_, _, exec_freshnessCommit hfab, congrArg (Out.fresh · :: _) (if_pos hans), ?_, ?_, fun j hj => hset.fv_ne (hne j hj)⟩
    · refine (congrArg (ew64 · 0) hset.same).trans ?_
      rw [ew64_ePut64 (by rw [hlen]; decide), Nat.mod_eq_of_lt v.isLt]
    · refine (congrArg (ew64 · 2) hset.same).trans ?_
      exact ew64_ePut64_apart (by rw [hlen]; decide) (by decide) _
  · rw [exec_freshnessCommit hfab, State.freshCommit_stale hm hp hv]
    rfl

end Sys2Proof.Machine
end

section
/-! ## What reads of entries, freshness values and translation leave alone

`SkyKept s t` says what a translation program and the merge buffers of the memories leave as in `s`: the Skerries, the slots of the Harbour,
and their counters. For each function `f` that such a program calls, `SkyKept.f` says that it keeps this; its proof follows the text of `f`. -/

namespace Sys2Proof.Machine

open Sys2Proof

/-- Counters of the Skerries and of the Harbour that no program and no memory counts. -/
def skyCtrs : List Ctr := [.skyKFrames, .skyKWdog, .skyKFaults, .hrbLate, .hrbHoldTmo, .hrbVoid, .hrbReleased]

/-- `t` has the Skerries and the slots of `s`, and the counts of `skyCtrs`. -/
structure SkyKept (s t : State) : Prop where
  sky : t.net.sky = s.net.sky
  slots : t.net.slots = s.net.slots
  ctr : ∀ c ∈ skyCtrs, ∀ i, t.ctr c i = s.ctr c i

theorem skyCtrs_not_event : ∀ c ∈ skyCtrs, c ∉ eventCtrs := by decide

namespace SkyKept

-- A default tactic waits for all proofs before it, so these are elaborated in their order.
set_option Elab.async false

variable {s₀ s t : State}

theorem refl (s : State) : SkyKept s s := ⟨rfl, rfl, fun _ _ _ => rfl⟩

theorem ite {a b : State} {c : Prop} [Decidable c] (ha : SkyKept s₀ a) (hb : SkyKept s₀ b) : SkyKept s₀ (if c then a else b) := by
  split
  exacts [ha, hb]

theorem iteFst {α : Type} {a b : State × α} {c : Prop} [Decidable c] (ha : SkyKept s₀ a.1) (hb : SkyKept s₀ b.1) :
    SkyKept s₀ (if c then a else b).1 := by
  split
  exacts [ha, hb]

theorem foldlFst {α β : Type} {f : State × β → α → State × β} {x : State × β} {l : List α} (h : SkyKept s₀ x.1)
    (hf : ∀ u a, SkyKept s₀ u.1 → SkyKept s₀ (f u a).1) : SkyKept s₀ (l.foldl f x).1 :=
  List.foldlRecOn (motive := fun x => SkyKept s₀ x.1) l f h fun u hu a _ => hf u a hu

variable (h : SkyKept s₀ s)
include h

theorem trans (k : SkyKept s t) : SkyKept s₀ t :=
  ⟨k.sky.trans h.sky, k.slots.trans h.slots, fun c hc i => (k.ctr c hc i).trans (h.ctr c hc i)⟩

theorem skerry (k : Nat) : s.skerry k = s₀.skerry k := by
  rw [State.skerry, h.sky, State.skerry]

/-- Parts of the state other than the counters may change, and of the switching side all but the Skerries and slots. -/
theorem frame {pending now free out phys op prevOp cause leftOp regs hold stage tim hbr mqs mem pwr boot mram flash win pair red net keys}
    (hk : net.sky = s.net.sky := by rfl) (hs : net.slots = s.net.slots := by rfl) :
    SkyKept s₀ ⟨pending, now, free, out, phys, op, prevOp, cause, leftOp, regs, s.ctrs, hold, stage, tim, hbr, mqs, mem, pwr, boot, mram,
      flash, win, pair, red, net, keys⟩ := ⟨hk.trans h.sky, hs.trans h.slots, h.ctr⟩

theorem foldl {α : Type} {f : State → α → State} {l : List α} (hf : ∀ u a, SkyKept s₀ u → SkyKept s₀ (f u a)) :
    SkyKept s₀ (l.foldl f s) := List.foldlRecOn l f h fun u hu a _ => hf u a hu

theorem quiet (q : Quiet s t) : SkyKept s₀ t :=
  h.trans ⟨congrArg Net.sky q.net, congrArg Net.slots q.net, fun c hc i => q.ctr c i (skyCtrs_not_event c hc)⟩

/-! ### Memories -/

theorem wr {r i w} : SkyKept s₀ (s.wr r i w) := h.frame

theorem bump {c i} (hc : c ∉ skyCtrs := by decide) : SkyKept s₀ (s.bump c i) :=
  h.trans ⟨rfl, rfl, fun c' hc' j => (State.ctr_bump s c c' i j).trans (if_neg fun ⟨e, _⟩ => hc (e ▸ hc'))⟩

theorem raise {src} : SkyKept s₀ (s.raise src) := h.quiet (quiet_raise ..)

theorem applyFlip {mem inst addr enc} : SkyKept s₀ (s.applyFlip mem inst addr enc) := h.quiet (quiet_applyFlip ..)

theorem memWrite {mem inst addr} : SkyKept s₀ (s.memWrite mem inst addr) := h.quiet (quiet_memWrite ..)

theorem setMemErr {mem inst addr e} : SkyKept s₀ (s.setMemErr mem inst addr e) := h.frame

theorem logCe {mem inst addr synd source} : SkyKept s₀ (s.logCe mem inst addr synd source) := .ite h h.wr.wr.wr.wr

theorem logUe {type mem inst addr synd source} : SkyKept s₀ (s.logUe type mem inst addr synd source) := .ite h h.wr.wr.wr.wr

theorem addRepair {mem inst row} : SkyKept s₀ (s.addRepair mem inst row) := .ite h (.ite h.bump.raise h.frame)

theorem weakRow {mem inst addr} : SkyKept s₀ (s.weakRow mem inst addr) := h.wr.wr.bump.raise.addRepair

theorem offerTrk {mem inst addr} : SkyKept s₀ (s.offerTrk mem inst addr) := by
  unfold State.offerTrk
  dsimp only
  split
  · exact .ite h.frame.weakRow h.frame
  · exact .ite h.frame h.bump

theorem corrected {mem inst addr synd source} : SkyKept s₀ (s.corrected mem inst addr synd source) :=
  h.setMemErr.bump.logCe.raise.offerTrk

theorem reloadSlot {n} : SkyKept s₀ (s.reloadSlot n) := foldl h.frame fun _ _ h1 => h1.memWrite

theorem keyFail {mem addr} : SkyKept s₀ (s.keyFail mem addr) := .ite h.reloadSlot h

theorem saFail {mem addr} : SkyKept s₀ (s.saFail mem addr) :=
  .ite h (.raise (.frame (h.wr.foldl fun _ _ h1 => h1.setMemErr)))

theorem uncorrectable {mem inst addr synd source} : SkyKept s₀ (s.uncorrectable mem inst addr synd source) :=
  h.setMemErr.bump.logUe.raise.saFail.keyFail

theorem poisonRead {mem inst addr source} : SkyKept s₀ (s.poisonRead mem inst addr source) := h.bump.logUe.saFail.keyFail

theorem parityFail {mem addr source} : SkyKept s₀ (s.parityFail mem addr source) := h.frame.setMemErr.bump.logUe.raise.offerTrk

theorem setEnt {id par n e} : SkyKept s₀ (s.setEnt id par n e) := h.frame

theorem putRawWord {mem inst addr bs} : SkyKept s₀ (s.putRawWord mem inst addr bs) := h.frame

theorem putOperWord {p i w} : SkyKept s₀ (s.putOperWord p i w) := by
  unfold State.putOperWord
  dsimp only
  split
  · exact h.frame
  · exact h

theorem putMemWord {mem inst addr bs} : SkyKept s₀ (s.putMemWord mem inst addr bs) := by
  unfold State.putMemWord
  split
  · exact h.putRawWord
  · exact .setEnt h.setEnt
  · exact h.wr.putRawWord
  · exact h.putOperWord.putRawWord

theorem poisonWrite {mem inst addr} : SkyKept s₀ (s.poisonWrite mem inst addr) := .ite h.applyFlip h.setMemErr

theorem flushEnt {e} : SkyKept s₀ (s.flushEnt e) := by
  unfold State.flushEnt
  split
  · exact .ite h.putMemWord.memWrite h.putMemWord.memWrite
  · exact .ite h.putMemWord.memWrite h.corrected.putMemWord.memWrite
  · exact .ite h.putMemWord.memWrite h.putMemWord.poisonWrite.bump.logUe.raise
  · exact .ite h.putMemWord.memWrite h.putMemWord.poisonWrite.bump.logUe

theorem flushWhere {p} : SkyKept s₀ (s.flushWhere p) := h.frame.foldl fun _ _ h1 => h1.flushEnt

theorem flushBlk {b} : SkyKept s₀ (s.flushBlk b) := h.flushWhere

theorem memRead {mem inst addr u source} : SkyKept s₀ (s.memRead mem inst addr u source).1 := by
  have hf : SkyKept s₀ (s.flushWord mem inst addr) := h.flushWhere
  unfold State.memRead
  dsimp only
  split
  · exact hf
  · exact hf.corrected
  · exact hf.uncorrectable
  · exact hf.setMemErr.poisonRead

theorem wordsRead {mem inst addr n source} : SkyKept s₀ (s.wordsRead mem inst addr n source).1 :=
  .iteFst h (h.foldlFst fun _ _ h1 => h1.memRead)

theorem probeEntry {mem idx u source} : SkyKept s₀ (s.probeEntry mem idx u source) := .ite h (.ite h.parityFail h)

theorem readEnt {id par n src} : SkyKept s₀ (s.readEnt id par n src).1 := .iteFst h (.iteFst h.probeEntry h.wordsRead)

theorem writeEnt {id par n e} : SkyKept s₀ (s.writeEnt id par n e) := .setEnt (.ite h.memWrite (h.foldl fun _ _ h1 => h1.memWrite))

/-! ### Freshness values -/

theorem sendStatus : SkyKept s₀ s.sendStatus := h.quiet (quiet_sendStatus s)

theorem flagsChanged {old} : SkyKept s₀ (s.flagsChanged old) := .ite h.sendStatus h

theorem splitDone : SkyKept s₀ s.splitDone := .ite h (flagsChanged (raise (bump h.frame)))

theorem repair {fail} : SkyKept s₀ (s.repair fail) :=
  .ite h (.ite (flagsChanged (raise (wr h).frame)) (quiet (wr h).frame (quiet_fault ..)))

theorem mramPut {off bs} : SkyKept s₀ (s.mramPut off bs) := by
  induction bs generalizing s off with
  | nil => exact h
  | cons b bs ih => exact ih h.frame

theorem freshSave {n v fail} : SkyKept s₀ (s.freshSave n v fail).1 := by
  unfold State.freshSave
  extract_lets t u
  have hu : SkyKept s₀ u := .ite h.splitDone.frame.repair h.splitDone
  exact .iteFst hu hu.mramPut

theorem sendFresh {n} : SkyKept s₀ (s.sendFresh n) := .ite (.ite h h.frame) h

theorem freshGen {epoch n ord fail} : SkyKept s₀ (s.freshGen epoch n ord fail).1 :=
  .iteFst h.readEnt (.iteFst h.readEnt (.iteFst (.iteFst h.readEnt.freshSave h.readEnt) (.sendFresh (.writeEnt (.iteFst
    h.readEnt.freshSave h.readEnt)))))

theorem freshCommit {epoch n v fail} : SkyKept s₀ (s.freshCommit epoch n v fail).1 :=
  .iteFst h.readEnt (.sendFresh (.ite h.readEnt.writeEnt.frame.freshSave h.readEnt.writeEnt.frame))

/-! ### Translation -/

theorem secocCheck {f prof e data} : SkyKept s₀ (s.secocCheck f prof e data).1 := by
  unfold State.secocCheck
  dsimp only
  split
  · exact h
  · split
    · exact h
    · split
      · exact h
      · exact .iteFst h.bump (.iteFst h h.freshCommit)

theorem legacyOut {f prof x payload} : SkyKept s₀ (s.legacyOut f prof x payload).1 := by
  unfold State.legacyOut
  extract_lets e l sec p fvb macb room pdu g
  clear_value room
  refine .iteFst h (.iteFst h ?_)
  split
  · exact h.freshGen
  · exact .iteFst h.freshGen.bump h.freshGen

theorem addOut {f prof x payload acc} : SkyKept s₀ (s.addOut f prof x payload acc).1 := by
  unfold State.addOut
  dsimp only
  split <;> exact h.legacyOut

theorem acfIn {f prof p} : SkyKept s₀ (s.acfIn f prof p).1 := by
  unfold State.acfIn
  dsimp only
  split
  · exact h
  · refine .iteFst h (foldlFst h fun a m ha => ?_)
    split
    · exact ha
    · exact ha.addOut

theorem trailerCheck {f prof e svc mth client payload} : SkyKept s₀ (s.trailerCheck f prof e svc mth client payload).1 :=
  .iteFst h.bump (.iteFst h (.iteFst h h.freshCommit))

theorem sipIn {f prof p} : SkyKept s₀ (s.sipIn f prof p).1 := by
  unfold State.sipIn
  split
  · exact h
  · dsimp only
    split
    · exact h
    · split
      · exact h
      · split
        · exact .iteFst h.trailerCheck h
        · split <;> exact .addOut (.iteFst h.trailerCheck h)

theorem legacyIn {f prof l prog wrap gw} : SkyKept s₀ (s.legacyIn f prof l prog wrap gw).1 := by
  unfold State.legacyIn
  extract_lets dir hit
  clear_value hit
  split
  · exact h
  · extract_lets c
    have hc : SkyKept s₀ c.1 := .iteFst h.secocCheck h
    clear_value c
    split
    · exact hc
    · refine .iteFst ?_ (.iteFst hc (.iteFst hc hc))
      split <;> exact hc.addOut

theorem translate {f prof wraps gw} : SkyKept s₀ (s.translate f prof wraps gw).1 := by
  unfold State.translate
  split
  · exact .iteFst h.legacyIn h
  · exact .iteFst h.acfIn (.iteFst h.sipIn h)

theorem authPass {f prof} : SkyKept s₀ (s.authPass f prof).1 := by
  unfold State.authPass
  split
  · split
    · exact h
    · dsimp only
      split
      · exact h
      · exact h.trailerCheck
  · exact h

theorem lateRun {d v} : SkyKept s₀ (s.lateRun d v) := by
  unfold State.lateRun
  split
  · exact h.translate
  · exact h.authPass
  · exact h

end SkyKept

end Sys2Proof.Machine
end

section
/-! ## Threads of the Skerries (R136 to R139, R145, R152) -/

namespace Sys2Proof.Machine

open Sys2Proof

variable {s u : State} {k t : Nat}

/-! ### Skerries -/

@[simp] theorem State.skerry_setSky_same (s : State) (k : Nat) (x : Skerry) : (s.setSky k x).skerry k = x := tblGet_set_same ..

theorem State.skerry_setSky_other (s : State) {k j : Nat} (x : Skerry) (h : j ≠ k) : (s.setSky k x).skerry j = s.skerry j :=
  tblGet_set_other _ _ _ _ _ _ h

/-! ### Threads take descriptors (R136, R145) -/

/-- Thread `t` of Skerry `k` runs with a descriptor; `x` is the Skerry without it. -/
def State.startThread (s : State) (k t : Nat) (x : Skerry) (d : Desc) : State :=
  s.setSky k { x with threads := tblPut x.threads t ⟨d, s.tim.lt, (s.frm d.frm).window⟩, lastRun := s.tim.lt }

theorem State.startThread_runs (s : State) (k t : Nat) (x : Skerry) (d : Desc) :
    tblFind ((s.startThread k t x d).skerry k).threads t = some ⟨d, s.tim.lt, (s.frm d.frm).window⟩ := by
  rw [State.startThread, State.skerry_setSky_same, tblFind_put_same]

theorem State.keeps_startThread (s : State) (k t : Nat) (x : Skerry) (d : Desc) :
    keeps [.regs, .ctrs, .tim, .mem] s (s.startThread k t x d) := by
  simp [keeps, Part.same, State.startThread, State.setSky]

section Take

variable {d : Desc} {r : List Desc} (hfab : s.fabricOn = true) (hok : s.skyOk k = true)
  (hidle : tblFind (s.skerry k).threads t = none) (htail : (s.frm d.frm).tail = true)
include hfab hok hidle htail

/-- An idle thread that serves the normal queue starts on its head. -/
theorem State.threadTake_norm (hserves : ¬ (t = 0 ∧ s.skyResv k = true)) (hq : (s.skerry k).norm = d :: r) :
    s.threadTake k t = s.startThread k t { s.skerry k with norm := r } d := by
  simp only [State.threadTake, hfab, hok, hidle, hserves, hq, htail, Bool.not_true, Option.isSome_none, Bool.or_self,
    Bool.false_eq_true, if_false, if_true]
  rfl

/-- A thread that serves the reserved queue starts on its head. -/
theorem State.threadTake_resv (hserves : t = 0 ∧ s.skyResv k = true) (hq : (s.skerry k).resv = d :: r) :
    s.threadTake k t = s.startThread k t { s.skerry k with resv := r } d := by
  obtain ⟨rfl, hresv⟩ := hserves
  simp only [State.threadTake, hfab, hok, hidle, hresv, hq, htail, Bool.not_true, Option.isSome_none, Bool.or_self,
    Bool.false_eq_true, if_false, if_true, and_self]
  rfl

end Take

theorem exec_skerryThreadTake {k : Fin 32} {t : Fin 4} (hm : s.memClean = true) :
    exec (.skerryThreadTake k t) s = .next (s.threadTake k t) := by
  have hfetch : s.skyFetch k = s := if_pos hm
  show Host.Outcome.next ((if s.fabricOn && s.skyOk k then s.skyFetch k else s).threadTake k t) = _
  rw [hfetch, ite_self]

/-! ### Descriptors end -/

@[simp] theorem State.threads_threadEnd (s : State) (k t : Nat) : tblFind ((s.threadEnd k t).skerry k).threads t = none := by
  rw [State.threadEnd, State.skerry_setSky_same, tblFind_del_same]

/-- The slot is the PENDING slot of the frame. -/
theorem State.slotWaits_iff {n i : Nat} :
    s.slotWaits n i = true ↔ ∃ x, tblFind s.net.slots n = some x ∧ x.frm = i ∧ x.st.isPending = true := by
  unfold State.slotWaits
  cases tblFind s.net.slots n <;> simp

theorem State.slotVoid.not_waits {n : Nat} (h : s.slotVoid n) (i : Nat) : s.slotWaits n i = false := by
  obtain ⟨x, hx, hv⟩ := h
  simp [State.slotWaits, hx, hv, SlotState.isPending]

theorem State.isSome_of_slotWaits {n i : Nat} (h : s.slotWaits n i = true) : (tblFind s.net.slots n).isSome = true := by
  obtain ⟨x, hx, -⟩ := State.slotWaits_iff.mp h
  simp [hx]

/-- A slot of a listed number takes a state. -/
theorem State.slotTo_st {n : Nat} (h : (tblFind s.net.slots n).isSome = true) (st : SlotState) :
    ∃ y, tblFind (s.slotTo n st).net.slots n = some y ∧ y.st = st := by
  obtain ⟨x, hx⟩ := Option.isSome_iff_exists.mp h
  exact ⟨{ x with st := st }, by rw [State.tblFind_slotTo, if_pos rfl, hx, Option.map_some], rfl⟩

/-- The drop of a frame is counted under its cause; what else it changes are events. -/
theorem quiet_skyDrop (s : State) (cause k t prof x : Nat) (f : Frm) :
    Quiet (s.bump .skyDropCause (cause - 1)) (s.skyDrop cause k t prof x f) := by
  unfold State.skyDrop State.skyRecord
  dsimp only
  split
  · split
    · exact quiet_mqPost ..
    · exact .refl _
  · exact .refl _

theorem State.net_skyDrop (s : State) (cause k t prof x : Nat) (f : Frm) : (s.skyDrop cause k t prof x f).net = s.net :=
  (quiet_skyDrop ..).net

theorem State.ctr_skyDrop_cause (s : State) (cause k t prof x : Nat) (f : Frm) :
    (s.skyDrop cause k t prof x f).ctr .skyDropCause (cause - 1) = s.ctr .skyDropCause (cause - 1) + 1 := by
  rw [(quiet_skyDrop ..).ctr _ _ (by decide), State.ctr_bump, if_pos ⟨rfl, rfl⟩]

theorem skyKept_skyDrop (s : State) (cause k t prof x : Nat) (f : Frm) : SkyKept s (s.skyDrop cause k t prof x f) :=
  (SkyKept.refl s).bump.quiet (quiet_skyDrop ..)

theorem Reslotted.marks_dropRef (u : State) (i : Nat) : ((u.dropRef i).marks).net.slots = u.net.slots ∧
    (∀ k, ((u.dropRef i).marks).skerry k = u.skerry k) ∧ ∀ c j, ((u.dropRef i).marks).ctr c j = u.ctr c j := by
  have hm := marked_marks (u.dropRef i)
  refine ⟨by rw [hm.net]; rfl, fun k => by rw [State.skerry, hm.net]; rfl, fun c j => by rw [State.ctr, hm.ctrs]; rfl⟩

/-! ### Reads of a thread -/

theorem State.skyReads_clean (hm : s.memClean = true) (d : Desc) : s.skyReads d = (s, false) := by
  have hf : s.frameRead d.frm = (s, none) := if_pos hm
  have hx : s.xltRead (s.frm d.frm).epoch d.prof = (s, false) := if_pos hm
  rw [State.skyReads, hf, hx]
  rfl

/-- The state in which a verdict takes effect: the thread has ended, its frame is counted, and due expiries come first (R152). -/
def State.threadDone (s : State) (k t n : Nat) : State := ((s.threadEnd k t).bump .skyKFrames k).hrbHolds n

theorem expired_threadDone (s : State) (k t n : Nat) : Expired ((s.threadEnd k t).bump .skyKFrames k) (s.threadDone k t n) :=
  (Expired.refl _).hrbHolds

theorem State.threads_threadDone (s : State) (k t n : Nat) : tblFind ((s.threadDone k t n).skerry k).threads t = none := by
  rw [State.skerry, (expired_threadDone s k t n).sky]
  exact s.threads_threadEnd k t

theorem State.ctr_threadDone_frames (s : State) (k t n : Nat) : (s.threadDone k t n).ctr .skyKFrames k = s.ctr .skyKFrames k + 1 := by
  rw [(expired_threadDone s k t n).ctrs _ _ (by decide), State.ctr_bump, if_pos ⟨rfl, rfl⟩]
  rfl

theorem State.ctr_threadDone_other (s : State) (k t n : Nat) {c : Ctr} (i : Nat) (hh : c ≠ .hrbHoldTmo) (hf : c ≠ .skyKFrames) :
    (s.threadDone k t n).ctr c i = s.ctr c i := by
  rw [(expired_threadDone s k t n).ctrs _ _ (mt List.mem_singleton.mp hh), State.ctr_bump, if_neg fun e => hf e.1]
  rfl

theorem State.threadDone_not_due {n : Nat} (h : ∀ x, tblFind s.net.slots n = some x → s.hrbDue x.ctx = false) :
    s.threadDone k t n = (s.threadEnd k t).bump .skyKFrames k :=
  State.hrbHolds_of_not_due (s := (s.threadEnd k t).bump .skyKFrames k) h

theorem State.slotVoid_threadDone {n : Nat} {x h : Slot} {c : Ctx} (hx : tblFind s.net.slots n = some x)
    (hc : tblFind s.net.ctxs x.ctx = some c) (hw : s.ctxWait x.ctx c = some (n, h)) (hdue : s.hrbDue x.ctx = true) :
    (s.threadDone k t n).slotVoid n :=
  State.slotVoid_hrbHolds (s := (s.threadEnd k t).bump .skyKFrames k) hx hc hw hdue

section Done

variable {k : Fin 32} {t : Fin 4} {r : Running} {v : SkyVerdict}

theorem State.threadDone_reads (hm : s.memClean = true) (k t : Nat) (d : Desc) :
    (s.threadDone k t d.slot).skyReads d = (s.threadDone k t d.slot, false) := by
  refine State.skyReads_clean ?_ d
  rw [State.memClean, (expired_threadDone s k t d.slot).mem]
  exact hm

variable (hfab : s.fabricOn = true) (hr : tblFind (s.skerry k).threads t = some r) (hm : s.memClean = true)
include hfab hr hm

/-- The verdict of a thread whose slot waits. -/
theorem exec_skerryDescriptorDone (hw : (s.threadDone k t r.d.slot).slotWaits r.d.slot r.d.frm = true) :
    exec (.skerryDescriptorDone k t v) s =
      .next ((((s.threadDone k t r.d.slot).verdict k t r.d v).dropRef r.d.frm).marks) := by
  show Host.Outcome.next (if s.fabricOn then s.descDone k t v else s) = _
  have hreads := State.threadDone_reads hm k t r.d
  simp only [State.threadDone] at hreads hw ⊢
  simp only [hfab, if_true, State.descDone, hr, hreads, hw, Bool.false_eq_true, if_false]

/-- The verdict of a thread whose slot does not wait is late. -/
theorem exec_skerryDescriptorDone_late (hw : (s.threadDone k t r.d.slot).slotWaits r.d.slot r.d.frm = false) :
    exec (.skerryDescriptorDone k t v) s =
      .next (((((s.threadDone k t r.d.slot).lateRun r.d v).bump .hrbLate).dropRef r.d.frm).marks) := by
  show Host.Outcome.next (if s.fabricOn then s.descDone k t v else s) = _
  have hreads := State.threadDone_reads hm k t r.d
  simp only [State.threadDone] at hreads hw ⊢
  simp only [hfab, if_true, State.descDone, hr, hreads, hw, Bool.false_eq_true, if_false]

end Done

/-! ### Verdicts on a slot that waits (R137) -/

theorem State.verdict_drop {c : Fin 13} (hc : c ≠ 0) (s : State) (k t : Nat) (d : Desc) (e : Option (BitVec 12)) :
    s.verdict k t d (.drop c e) =
      (s.skyDrop c k t d.prof ((e.map BitVec.toNat).getD 0xFFF) (s.frm d.frm)).slotTo d.slot .void := if_neg hc

theorem State.verdict_trap (s : State) (k t : Nat) (d : Desc) :
    s.verdict k t d .trap = (s.holdFrm d.frm 1).slotTo d.slot (.ready [⟨d.frm, 17, .asReceived, none⟩]) := rfl

/-- A program whose profile asks for no check passes its frame unchecked (R161). -/
theorem State.authPass_of_off {prof : List Word} (h : ebit prof 0 19 = false) (f : Frm) : s.authPass f prof = (s, none) := by
  unfold State.authPass
  split
  · exact if_pos (by simp [h])
  · rfl

theorem State.verdict_pass {d : Desc} (hdest : d.dest ≠ []) (hauth : ebit (s.profOf d) 0 19 = false) (k t : Nat) :
    s.verdict k t d (.pass none) = (s.holdFrm d.frm d.dest.length).slotTo d.slot
      (.ready (d.dest.map fun o => ⟨d.frm, o.1, o.2, none⟩)) := by
  simp only [State.verdict, State.authPass_of_off hauth, List.isEmpty_eq_false_iff.mpr hdest, Bool.false_eq_true, if_false]
  rfl

/-- The end of a descriptor whose slot takes a state, from a state `t` that has counted the frame: the thread is free, and the counters
are those of `t`. -/
structure Ended (s : State) (k j n : Nat) (st : SlotState) (t u : State) : Prop where
  thread : tblFind (u.skerry k).threads j = none
  slot : ∃ y, tblFind u.net.slots n = some y ∧ y.st = st
  ctr : ∀ c i, u.ctr c i = t.ctr c i
  frames : u.ctr .skyKFrames k = s.ctr .skyKFrames k + 1

theorem ended_slotTo {k j n i : Nat} {st : SlotState} {t : State} (hn : (tblFind s.net.slots n).isSome = true)
    (h : SkyKept ((s.threadEnd k j).bump .skyKFrames k) t) : Ended s k j n st t (((t.slotTo n st).dropRef i).marks) := by
  obtain ⟨hslots, hsky, hctr⟩ := Reslotted.marks_dropRef (t.slotTo n st) i
  have hr : Reslotted t (t.slotTo n st) := (Reslotted.refl t).slotTo
  refine ⟨?_, ?_, fun c i => (hctr c i).trans (hr.ctr c i), ?_⟩
  · rw [hsky, hr.skerry, h.skerry]
    exact s.threads_threadEnd k j
  · rw [hslots]
    exact State.slotTo_st (by rw [h.slots]; exact hn) st
  · rw [hctr, hr.ctr, h.ctr _ (by decide), State.ctr_bump, if_pos ⟨rfl, rfl⟩]
    rfl

section Waits

variable {k : Fin 32} {t : Fin 4} {r : Running} (hfab : s.fabricOn = true) (hr : tblFind (s.skerry k).threads t = some r)
  (hm : s.memClean = true) (hw : s.slotWaits r.d.slot r.d.frm = true)
  (hdue : ∀ x, tblFind s.net.slots r.d.slot = some x → s.hrbDue x.ctx = false)
include hfab hr hm hw hdue

/-- A verdict on a slot that waits, in a flow whose hold timer is not due. -/
theorem exec_skerryDescriptorDone_waits {v : SkyVerdict} : exec (.skerryDescriptorDone k t v) s =
    .next (((((s.threadEnd k t).bump .skyKFrames k).verdict k t r.d v).dropRef r.d.frm).marks) := by
  have hnot := State.threadDone_not_due (k := k) (t := t) hdue
  rw [exec_skerryDescriptorDone hfab hr hm (by rw [hnot]; exact hw), hnot]

theorem descriptorDone_drop {c : Fin 13} (hc : c ≠ 0) (e : Option (BitVec 12)) :
    ∃ u v, exec (.skerryDescriptorDone k t (.drop c e)) s = .next u ∧ Ended s k t r.d.slot .void v u ∧
      v.ctr .skyDropCause (c.val - 1) = s.ctr .skyDropCause (c.val - 1) + 1 := by
  have hexec := exec_skerryDescriptorDone_waits hfab hr hm hw hdue (v := .drop c e)
  rw [State.verdict_drop hc] at hexec
  refine ⟨_, _, hexec, ended_slotTo (State.isSome_of_slotWaits hw) (skyKept_skyDrop ..), ?_⟩
  rw [State.ctr_skyDrop_cause, State.ctr_bump, if_neg (by simp)]
  rfl

theorem descriptorDone_trap : ∃ u v, exec (.skerryDescriptorDone k t .trap) s = .next u ∧
    Ended s k t r.d.slot (.ready [⟨r.d.frm, 17, .asReceived, none⟩]) v u := by
  have hexec := exec_skerryDescriptorDone_waits hfab hr hm hw hdue (v := .trap)
  rw [State.verdict_trap] at hexec
  exact ⟨_, _, hexec, ended_slotTo (State.isSome_of_slotWaits hw) (SkyKept.refl _).frame⟩

theorem descriptorDone_pass (hdest : r.d.dest ≠ []) (hauth : ebit (s.profOf r.d) 0 19 = false) :
    ∃ u v, exec (.skerryDescriptorDone k t (.pass none)) s = .next u ∧
      Ended s k t r.d.slot (.ready (r.d.dest.map fun o => ⟨r.d.frm, o.1, o.2, none⟩)) v u := by
  have hexec := exec_skerryDescriptorDone_waits hfab hr hm hw hdue (v := .pass none)
  rw [State.verdict_pass (s := (s.threadEnd k t).bump .skyKFrames k) hdest hauth] at hexec
  exact ⟨_, _, hexec, ended_slotTo (State.isSome_of_slotWaits hw) (SkyKept.refl _).frame⟩

end Waits

/-! ### Late verdicts (R152) -/

/-- A late verdict frees the thread and is counted; it changes no slot. -/
theorem descriptorDone_late {k : Fin 32} {t : Fin 4} {r : Running} {v : SkyVerdict} (hfab : s.fabricOn = true)
    (hr : tblFind (s.skerry k).threads t = some r) (hm : s.memClean = true)
    (hw : (s.threadDone k t r.d.slot).slotWaits r.d.slot r.d.frm = false) :
    ∃ u, exec (.skerryDescriptorDone k t v) s = .next u ∧ tblFind (u.skerry k).threads t = none ∧
      u.net.slots = (s.threadDone k t r.d.slot).net.slots ∧ u.ctr .hrbLate = s.ctr .hrbLate + 1 ∧
      u.ctr .skyKFrames k = s.ctr .skyKFrames k + 1 := by
  obtain ⟨hslots, hsky, hctr⟩ := Reslotted.marks_dropRef (((s.threadDone k t r.d.slot).lateRun r.d v).bump .hrbLate) r.d.frm
  have hl : SkyKept (s.threadDone k t r.d.slot) ((s.threadDone k t r.d.slot).lateRun r.d v) := (SkyKept.refl _).lateRun
  refine ⟨_, exec_skerryDescriptorDone_late hfab hr hm hw, ?_, hslots.trans hl.slots, ?_, ?_⟩
  · rw [hsky]
    exact (congrArg (fun x : Skerry => tblFind x.threads t) (hl.skerry k)).trans (s.threads_threadDone ..)
  · rw [hctr, State.ctr_bump, if_pos ⟨rfl, rfl⟩, hl.ctr _ (by decide), State.ctr_threadDone_other _ _ _ _ _ (by decide) (by decide)]
  · rw [hctr, State.ctr_bump, if_neg (by simp), hl.ctr _ (by decide), State.ctr_threadDone_frames]

/-! ### The watchdog (R139) -/

/-- The time that the watchdog gives a descriptor: the budget of its profile, or that of its program. -/
def State.skyLimit (s : State) (d : Desc) : Nat :=
  let b := eb (s.profOf d) 1 23 0
  if b = 0 then Config.progTime s.boot.fwimDig (eb (s.profOf d) 0 31 24) else b

section Watchdog

variable {k : Fin 32} {t : Fin 4} {r : Running} (hr : tblFind (s.skerry k).threads t = some r)
include hr

theorem exec_skerryWatchdog_early (h : s.tim.lt < r.since + tkNs (s.skyLimit r.d)) : exec (.skerryWatchdog k t) s = .next s := by
  show execSkerryWatchdog k t s = _
  unfold execSkerryWatchdog
  simp only [hr]
  exact congrArg _ (if_pos h)

/-- The watchdog stops a thread whose slot waits: its frame is dropped with cause 7. -/
theorem exec_skerryWatchdog_due (h : r.since + tkNs (s.skyLimit r.d) ≤ s.tim.lt) (hw : s.slotWaits r.d.slot r.d.frm = true) :
    exec (.skerryWatchdog k t) s = .next (((((s.threadEnd k t).skyDrop 7 k t r.d.prof 0xFFF (s.frm r.d.frm)).bump .skyKWdog k).slotTo
      r.d.slot .void).dropRef r.d.frm) := by
  have hw' : (((s.threadEnd k t).skyDrop 7 k t r.d.prof 0xFFF (s.frm r.d.frm)).bump .skyKWdog k).slotWaits r.d.slot r.d.frm = true := by
    rw [State.slotWaits, State.bump_net, State.net_skyDrop]
    exact hw
  show execSkerryWatchdog k t s = _
  unfold execSkerryWatchdog
  simp only [hr, hw', if_true]
  exact congrArg _ (if_neg (not_lt.mpr h))

theorem skerryWatchdog_due (h : r.since + tkNs (s.skyLimit r.d) ≤ s.tim.lt) (hw : s.slotWaits r.d.slot r.d.frm = true) :
    ∃ u, exec (.skerryWatchdog k t) s = .next u ∧ tblFind (u.skerry k).threads t = none ∧
      (∃ y, tblFind u.net.slots r.d.slot = some y ∧ y.st = .void) ∧ u.ctr .skyKWdog k = s.ctr .skyKWdog k + 1 ∧
      u.ctr .skyDropCause 6 = s.ctr .skyDropCause 6 + 1 := by
  let v := (s.threadEnd k t).skyDrop 7 k t r.d.prof 0xFFF (s.frm r.d.frm)
  have hv : SkyKept (s.threadEnd k t) v := skyKept_skyDrop ..
  have hu : Reslotted (v.bump .skyKWdog k) (((v.bump .skyKWdog k).slotTo r.d.slot .void).dropRef r.d.frm) :=
    (Reslotted.refl _).slotTo.dropRef
  refine ⟨_, exec_skerryWatchdog_due hr h hw, ?_, ?_, ?_, ?_⟩
  · rw [hu.skerry]
    exact (congrArg (fun x : Skerry => tblFind x.threads t) (hv.skerry k)).trans (s.threads_threadEnd ..)
  · exact State.slotTo_st (by rw [State.bump_net, hv.slots]; exact State.isSome_of_slotWaits hw) .void
  · rw [hu.ctr, State.ctr_bump, if_pos ⟨rfl, rfl⟩, hv.ctr _ (by decide)]
    rfl
  · rw [hu.ctr, State.ctr_bump, if_neg (by simp)]
    exact State.ctr_skyDrop_cause ..

end Watchdog

/-- Settles O38: a thread starts on the head of the queue that it serves, each verdict puts the slot in one state, a late one leaves the
slots as expiries have made them, and the watchdog drops the frame of a thread at its limit. -/
theorem skerryThreadsAndVerdicts : Obligations.SkerryThreadsAndVerdicts := by
  unfold Obligations.SkerryThreadsAndVerdicts
  intro s k t x
  refine ⟨fun hfab hok hidle hm => ⟨fun d l hserves hq htail => ?_, fun d l h0 hresv hq htail => ?_⟩, fun r hfab hr hm => ?_,
    fun r hr => ?_⟩
  · have hserves' : ¬ ((t : Nat) = 0 ∧ s.skyResv k = true) := fun h => by simpa [hserves (Fin.ext h.1)] using h.2
    have hexec := (exec_skerryThreadTake hm).trans (congrArg _ (State.threadTake_norm hfab hok hidle htail hserves' hq))
    refine ⟨_, hexec, s.startThread_runs .., ?_, ?_, fun j hj => s.skerry_setSky_other _ hj, s.keeps_startThread _ _ _ _⟩
    · rw [State.startThread, State.skerry_setSky_same]
    · rw [State.startThread, State.skerry_setSky_same]
  · have hexec := (exec_skerryThreadTake hm).trans
      (congrArg _ (State.threadTake_resv hfab hok hidle htail ⟨congrArg Fin.val h0, hresv⟩ hq))
    refine ⟨_, hexec, s.startThread_runs .., ?_, ?_, s.keeps_startThread _ _ _ _⟩
    · rw [State.startThread, State.skerry_setSky_same]
    · rw [State.startThread, State.skerry_setSky_same]
  · intro due
    have hnot (hdue : ¬ due) (z : Slot) (hz : tblFind s.net.slots r.d.slot = some z) : s.hrbDue z.ctx = false :=
      Bool.eq_false_iff.mpr fun h => hdue ⟨z, hz, h⟩
    refine ⟨fun hw hdue => ⟨fun c e hc => ?_, ?_, fun hdest hauth => ?_⟩, fun y c h hy hc hwait hdue v => ?_, fun hw hdue v => ?_⟩
    · obtain ⟨u, v, hexec, he, hcause⟩ := descriptorDone_drop hfab hr hm hw (hnot hdue) hc e
      exact ⟨u, hexec, he.thread, he.slot, he.frames, (he.ctr _ _).trans hcause⟩
    · obtain ⟨u, v, hexec, he⟩ := descriptorDone_trap hfab hr hm hw (hnot hdue)
      exact ⟨u, hexec, he.thread, he.slot⟩
    · obtain ⟨u, v, hexec, he⟩ := descriptorDone_pass hfab hr hm hw (hnot hdue) hdest hauth
      exact ⟨u, hexec, he.thread, he.slot⟩
    · have hv := State.slotVoid_threadDone (k := k) (t := t) hy hc hwait hdue
      obtain ⟨u, hexec, hthread, hslots, hlate, -⟩ := descriptorDone_late (v := v) hfab hr hm (hv.not_waits r.d.frm)
      exact ⟨u, hexec, hthread, hv.of_slots hslots, hlate⟩
    · have hdone := State.threadDone_not_due (k := k) (t := t) (hnot hdue)
      obtain ⟨u, hexec, hthread, hslots, hlate, hframes⟩ := descriptorDone_late (v := v) hfab hr hm (by rw [hdone]; exact hw)
      exact ⟨u, hexec, hthread, by rw [hslots, hdone]; rfl, hlate, hframes⟩
  · intro b lim
    exact ⟨fun h hw => skerryWatchdog_due hr h hw, fun h => exec_skerryWatchdog_early hr h⟩

end Sys2Proof.Machine
end

section
/-! ## Stealing (R146, R147) -/

namespace Sys2Proof.Machine

open Sys2Proof

variable {s : State} {k : Nat}

/-! ### Probes -/

theorem State.stealProbe_not_due (h : s.mayProbe k = false) : s.stealProbe k = s := if_pos (by simp [h])

/-- A probe does not change what a Skerry can lose: its queue stays. -/
theorem State.norm_probed (s : State) (k : Nat) (p : Option Nat) (j : Nat) :
    ((s.setSky k { s.skerry k with probeAt := p }).skerry j).norm = (s.skerry j).norm := by
  by_cases h : j = k
  · subst h
    rw [State.skerry_setSky_same]
  · rw [State.skerry_setSky_other _ _ h]

theorem State.stealPick_probed (s : State) (k : Nat) (p : Option Nat) (j : Nat) :
    (s.setSky k { s.skerry k with probeAt := p }).stealPick j = s.stealPick j := by
  have hv : (s.setSky k { s.skerry k with probeAt := p }).victims j = s.victims j := rfl
  have hm : (s.setSky k { s.skerry k with probeAt := p }).maySteal = s.maySteal := rfl
  have hf : (s.setSky k { s.skerry k with probeAt := p }).fld F.skyStealCfg_min_depth = s.fld F.skyStealCfg_min_depth := rfl
  simp only [State.stealPick, State.norm_probed, hv, hm, hf]

/-- A thief's own probe does not decide whether its selection goes to another. -/
theorem State.stealLost_probed (s : State) {k v : Nat} (hv : v ≠ k) (d : Desc) (p : Option Nat) :
    (s.setSky k { s.skerry k with probeAt := p }).stealLost k (v, d) = s.stealLost k (v, d) := by
  have hidle (j : Nat) (hj : j ≠ k) : (s.setSky k { s.skerry k with probeAt := p }).skyIdle j = s.skyIdle j := by
    rw [State.skyIdle, State.skerry_setSky_other _ _ hj]
    rfl
  have hprobe (j : Nat) (hj : j < k) : (s.setSky k { s.skerry k with probeAt := p }).mayProbe j = s.mayProbe j := by
    rw [State.mayProbe, hidle j hj.ne, State.skerry_setSky_other _ _ hj.ne]
    rfl
  have hany : ((List.range k).any fun j => (s.setSky k { s.skerry k with probeAt := p }).mayProbe j &&
      (s.setSky k { s.skerry k with probeAt := p }).stealPick j == some (v, d)) =
      (List.range k).any fun j => s.mayProbe j && s.stealPick j == some (v, d) := by
    rw [Bool.eq_iff_iff, List.any_eq_true, List.any_eq_true]
    refine exists_congr fun j => and_congr_right fun hj => ?_
    rw [hprobe j (List.mem_range.mp hj), State.stealPick_probed]
  unfold State.stealLost
  rw [State.norm_probed, hidle v hv, hany]
  rfl

/-! ### The thief and its victim -/

/-- The next Skerry, in service and with work enough, is the first victim, and the head of its queue goes when it may be stolen. -/
theorem State.stealPick_next {d : Desc} {r : List Desc} (hspan : 1 ≤ s.fld F.skyStealCfg_span) (hok : s.skyOk ((k + 1) % 32) = true)
    (hq : (s.skerry ((k + 1) % 32)).norm = d :: r) (hdepth : s.fld F.skyStealCfg_min_depth ≤ r.length + 1)
    (hd : s.maySteal d = true) : s.stealPick k = some ((k + 1) % 32, d) := by
  obtain ⟨l, hl⟩ : ∃ l, s.victims k = (k + 1) % 32 :: l := by
    obtain ⟨m, hm⟩ := Nat.exists_eq_add_of_le' hspan
    unfold State.victims
    rw [List.range_succ_eq_map, List.map_cons, List.filter_cons_of_pos hok, hm, List.take_succ_cons]
    exact ⟨_, rfl⟩
  have hnot : ¬ (d :: r).length < s.fld F.skyStealCfg_min_depth := not_lt.mpr hdepth
  rw [State.stealPick, hl, List.findSome?_cons]
  simp only [hq, if_neg hnot, List.take_succ_cons, List.find?_cons, hd, Option.map_some]

/-- The state after a theft: the victim without the descriptor, the thief with it. -/
def State.stolen (s : State) (k v : Nat) (d : Desc) : State :=
  let y := s.skerry v
  let s := s.setSky v { y with norm := y.norm.erase d }
  let x := s.skerry k
  let s := s.setSky k { x with norm := [{ d with stolen := true }], lastRun := if x.resv.isEmpty then s.tim.lt else x.lastRun }
  (s.bump .skyKStolenOut v).bump .skyKStolenIn k

/-- A thief whose probe is due and whose selection is `d` takes it, unless it goes to another. -/
theorem State.stealProbe_due {v : Nat} {d : Desc} (hv : v ≠ k) (hmay : s.mayProbe k = true) (hpick : s.stealPick k = some (v, d)) :
    s.stealProbe k =
      let p := s.setSky k { s.skerry k with probeAt := some s.tim.lt }
      if s.stealLost k (v, d) then p else p.stolen k v d := by
  unfold State.stealProbe
  simp only [hmay, hpick, Bool.not_true, Bool.false_eq_true, if_false, State.stealLost_probed s hv]
  rfl

section Stolen

variable (s) {k v : Nat} {d : Desc}

theorem State.skerry_stolen_thief (hv : v ≠ k) : ((s.stolen k v d).skerry k).norm = [{ d with stolen := true }] ∧
    ((s.stolen k v d).skerry k).probeAt = (s.skerry k).probeAt := by
  have hx : ∀ x, (s.setSky v x).skerry k = s.skerry k := fun x => State.skerry_setSky_other _ _ hv.symm
  have h : (s.stolen k v d).skerry k = { s.skerry k with
      norm := [{ d with stolen := true }], lastRun := if (s.skerry k).resv.isEmpty then s.tim.lt else (s.skerry k).lastRun } := by
    refine (State.skerry_setSky_same ..).trans ?_
    rw [hx]
    rfl
  rw [h]
  exact ⟨rfl, rfl⟩

theorem State.skerry_stolen_victim (hv : v ≠ k) :
    (s.stolen k v d).skerry v = { s.skerry v with norm := (s.skerry v).norm.erase d } :=
  (State.skerry_setSky_other _ _ hv).trans (State.skerry_setSky_same ..)

theorem State.ctr_stolen_in : (s.stolen k v d).ctr .skyKStolenIn k = s.ctr .skyKStolenIn k + 1 := by
  unfold State.stolen
  extract_lets y w x t
  rw [State.ctr_bump, if_pos ⟨rfl, rfl⟩, State.ctr_bump, if_neg (by simp)]
  rfl

theorem State.ctr_stolen_out : (s.stolen k v d).ctr .skyKStolenOut v = s.ctr .skyKStolenOut v + 1 := by
  unfold State.stolen
  extract_lets y w x t
  rw [State.ctr_bump, if_neg (by simp), State.ctr_bump, if_pos ⟨rfl, rfl⟩]
  rfl

end Stolen

end Sys2Proof.Machine
end

section
/-! ## The words of the home map (R142, R143) -/

namespace Sys2Proof.Machine

open Sys2Proof

theorem getBits_putBits_apart (w : Word) {hi lo a b : Nat} (v : Nat) (h : lo ≤ hi) (hab : b ≤ a) (ha : a < 32) (hd : hi < b ∨ a < lo) :
    getBits (putBits w hi lo v) a b = getBits w a b := by
  refine Nat.eq_of_testBit_eq fun j => ?_
  rw [testBit_getBits, testBit_getBits]
  by_cases hj : j < a - b + 1
  · rw [getBit_putBits w v h (by omega), if_neg (by omega)]
  · simp [hj]

/-- Field `i` of a word of the home map. -/
def homeFld (w : Word) (i : Nat) : Nat := getBits w (8 * i + 4) (8 * i)

/-- The word with field `i` replaced. -/
def putHome (w : Word) (i v : Nat) : Word := putBits w (8 * i + 4) (8 * i) v

theorem homeFld_lt (w : Word) (i : Nat) : homeFld w i < 32 := by
  unfold homeFld getBits
  rw [Nat.add_sub_cancel_left]
  exact Nat.mod_lt _ (by decide)

theorem homeFld_putHome (w : Word) {i j v : Nat} (hi : i < 4) (hj : j < 4) (hv : v < 32) :
    homeFld (putHome w i v) j = if j = i then v else homeFld w j := by
  by_cases h : j = i
  · rw [if_pos h, h, homeFld, putHome, getBits_putBits _ _ _ _ (by omega) (by omega), Nat.add_sub_cancel_left]
    exact Nat.mod_eq_of_lt hv
  · rw [if_neg h]
    exact getBits_putBits_apart w v (by omega) (by omega) (by omega) (by omega)

/-- The first `n` fields of a word, each replaced where a condition on it holds. -/
def putHomes (p : Nat → Nat → Bool) (v : Nat → Nat) (n : Nat) (w : Word) : Word :=
  (List.range n).foldl (fun w i => if p i (homeFld w i) then putHome w i (v i) else w) w

theorem putHomes_succ (p : Nat → Nat → Bool) (v : Nat → Nat) (n : Nat) (w : Word) : putHomes p v (n + 1) w =
    if p n (homeFld (putHomes p v n w) n) then putHome (putHomes p v n w) n (v n) else putHomes p v n w := by
  rw [putHomes, List.range_succ, List.foldl_append]
  rfl

theorem homeFld_putHomes {p : Nat → Nat → Bool} {v : Nat → Nat} (hv : ∀ i, v i < 32) {n i : Nat} (hn : n ≤ 4) (hi : i < 4) (w : Word) :
    homeFld (putHomes p v n w) i = if i < n ∧ p i (homeFld w i) = true then v i else homeFld w i := by
  induction n with
  | zero => simp [putHomes]
  | succ n ih =>
    have ih := ih (by omega)
    have hstep : homeFld (putHomes p v (n + 1) w) i =
        if i = n ∧ p i (homeFld (putHomes p v n w) i) = true then v i else homeFld (putHomes p v n w) i := by
      rw [putHomes_succ]
      by_cases hin : i = n
      · subst hin
        by_cases hp : p i (homeFld (putHomes p v i w) i) = true
        · rw [if_pos hp, homeFld_putHome _ hi hi (hv i), if_pos rfl, if_pos ⟨rfl, hp⟩]
        · rw [if_neg hp, if_neg fun h => hp h.2]
      · rw [if_neg (c := i = n ∧ _) fun h => hin h.1]
        split
        · rw [homeFld_putHome _ (by omega) hi (hv n), if_neg hin]
        · rfl
    rw [hstep, ih]
    by_cases hin : i = n
    · simp [hin]
    · have hlt : i < n + 1 ↔ i < n := by omega
      simp [hin, hlt]

variable {s : State} {k j : Nat}

/-- A home-map entry is a field of its word. -/
theorem State.homeOf_eq (s : State) (n : Nat) : s.homeOf n = homeFld (s.rd .skyHomeMap (n / 4)) (n % 4) := rfl

theorem State.homeOf_field (s : State) (n : Nat) {i : Nat} (hi : i < 4) : s.homeOf (4 * n + i) = homeFld (s.rd .skyHomeMap n) i := by
  rw [State.homeOf_eq, Nat.mul_add_div (by decide), Nat.div_eq_of_lt hi, Nat.mul_add_mod, Nat.mod_eq_of_lt hi, Nat.add_zero]

/-! ### Rehoming (R160) -/

/-- A word of the home map whose fields that name `k` name `j`. -/
def rehomed (k j : Nat) (w : Word) : Word := putHomes (fun _ h => h == k) (fun _ => j) 4 w

theorem homeFld_rehomed (hj : j < 32) (w : Word) {i : Nat} (hi : i < 4) :
    homeFld (rehomed k j w) i = if homeFld w i = k then j else homeFld w i := by
  rw [rehomed, homeFld_putHomes (fun _ => hj) (le_refl 4) hi]
  simp [hi]

/-- The rewrite of one word. -/
def State.rehomeWord (k j : Nat) (s : State) (n : Nat) : State :=
  let w := s.rd .skyHomeMap n
  if rehomed k j w = w then s else s.wr .skyHomeMap n (rehomed k j w)

theorem State.rehome_eq (s : State) (k j : Nat) : s.rehome k j = (List.range 64).foldl (State.rehomeWord k j) s := by
  have hword (w : Word) : rehomed k j w = (List.range 4).foldl (fun w i =>
      if getBits w (8 * i + 4) (8 * i) = k then putBits w (8 * i + 4) (8 * i) j else w) w := by
    simp only [rehomed, putHomes, beq_iff_eq]
    rfl
  unfold State.rehome State.rehomeWord
  simp only [hword]

theorem State.rd_rehomeWord (s : State) (k j n m : Nat) : (s.rehomeWord k j n).rd .skyHomeMap m =
    if m = n then rehomed k j (s.rd .skyHomeMap m) else s.rd .skyHomeMap m := by
  unfold State.rehomeWord
  extract_lets w
  split
  · next e =>
    split
    · next h => rw [h, e]
    · rfl
  · rw [State.rd_wr]
    by_cases h : m = n
    · rw [if_pos h, if_pos ⟨rfl, h⟩, h]
    · rw [if_neg h, if_neg fun e => h e.2]

theorem State.rd_foldl_rehomeWord (s : State) (k j N m : Nat) : ((List.range N).foldl (State.rehomeWord k j) s).rd .skyHomeMap m =
    if m < N then rehomed k j (s.rd .skyHomeMap m) else s.rd .skyHomeMap m := by
  induction N with
  | zero => rfl
  | succ N ih =>
    rw [List.range_succ, List.foldl_append, List.foldl_cons, List.foldl_nil, State.rd_rehomeWord, ih]
    rcases Nat.lt_trichotomy m N with h | rfl | h
    · rw [if_neg h.ne, if_pos h, if_pos (by omega)]
    · simp
    · rw [if_neg h.ne', if_neg (by omega), if_neg (by omega)]

theorem State.homeOf_rehome (s : State) (k : Nat) (hj : j < 32) {n : Nat} (hn : n < 256) :
    (s.rehome k j).homeOf n = if s.homeOf n = k then j else s.homeOf n := by
  rw [State.homeOf_eq, State.rehome_eq, State.rd_foldl_rehomeWord, if_pos (by omega), homeFld_rehomed hj _ (Nat.mod_lt _ (by decide))]
  rfl

theorem State.rd_rehome {r : Reg} (s : State) (k j i : Nat) (hr : r ≠ .skyHomeMap) : (s.rehome k j).rd r i = s.rd r i := by
  rw [State.rehome_eq]
  refine List.foldlRecOn (motive := fun u : State => u.rd r i = s.rd r i) _ _ rfl fun u hu n _ => ?_
  unfold State.rehomeWord
  extract_lets w
  split
  · exact hu
  · rw [State.rd_wr_reg _ _ _ _ _ _ hr, hu]

theorem SkyKept.rehome {s₀ : State} (h : SkyKept s₀ s) : SkyKept s₀ (s.rehome k j) := by
  rw [State.rehome_eq]
  exact h.foldl fun _ _ h1 => .ite h1 h1.wr

/-! ### Writes of the home map (R143) -/

/-- A word that is written, with the fields that name a Skerry out of service kept. -/
def State.homesTaken (s : State) (data w : Word) : Word := putHomes (fun i _ => s.skyOk (homeFld data i)) (homeFld data) 4 w

theorem State.homeFld_homesTaken (s : State) (data w : Word) {i : Nat} (hi : i < 4) :
    homeFld (s.homesTaken data w) i = if s.skyOk (homeFld data i) then homeFld data i else homeFld w i := by
  rw [State.homesTaken, homeFld_putHomes (homeFld_lt data) (le_refl 4) hi]
  simp [hi]

/-- A word of the home map is written, with an event where a field of it was kept. -/
def State.homeWritten (s : State) (n : Nat) (r : Word × Bool) : State :=
  let s := s.wr .skyHomeMap n r.1
  if r.2 then s.accessErr .sky else s

/-- A write takes the fields that name a Skerry in service, and the others raise an event. -/
theorem State.wrHomeMap_eq (s : State) (n : Nat) (data : Word) : s.wrHomeMap n data = s.homeWritten n
    (s.homesTaken data (s.rd .skyHomeMap n), (List.range 4).any fun i => !s.skyOk (homeFld data i)) := by
  have hfold (l : List Nat) (w : Word) (b : Bool) : l.foldl (fun (a : Word × Bool) i =>
      if s.skyOk (homeFld data i) then (putHome a.1 i (homeFld data i), a.2) else (a.1, true)) (w, b) =
      (l.foldl (fun w i => if s.skyOk (homeFld data i) then putHome w i (homeFld data i) else w) w,
        b || l.any fun i => !s.skyOk (homeFld data i)) := by
    induction l generalizing w b with
    | nil => simp
    | cons i l ih => cases hi : s.skyOk (homeFld data i) <;> simp [hi, ih]
  exact congrArg (s.homeWritten n) (hfold (List.range 4) (s.rd .skyHomeMap n) false)

theorem quiet_wrHomeMap (s : State) (n : Nat) (data : Word) :
    Quiet (s.wr .skyHomeMap n (s.homesTaken data (s.rd .skyHomeMap n))) (s.wrHomeMap n data) := by
  rw [State.wrHomeMap_eq, State.homeWritten]
  dsimp only
  split
  · exact quiet_accessErr _ _
  · exact Quiet.refl _

theorem State.homeOf_wrHomeMap (s : State) (n : Nat) (data : Word) {i : Nat} (hi : i < 4) : (s.wrHomeMap n data).homeOf (4 * n + i) =
    if s.skyOk (homeFld data i) then homeFld data i else s.homeOf (4 * n + i) := by
  rw [State.homeOf_field _ _ hi, (quiet_wrHomeMap s n data).rd _ _ (by decide), State.rd_wr_same, State.homeFld_homesTaken _ _ _ hi,
    State.homeOf_field _ _ hi]

theorem State.rd_wrHomeMap_other (s : State) (data : Word) {n m : Nat} (h : m ≠ n) :
    (s.wrHomeMap n data).rd .skyHomeMap m = s.rd .skyHomeMap m := by
  rw [(quiet_wrHomeMap s n data).rd _ _ (by decide), State.rd_wr, if_neg fun e => h e.2]

theorem State.statBit_wrHomeMap (s : State) (n : Nat) (data : Word) {i : Nat} (hi : i < 4) (h : s.skyOk (homeFld data i) = false) :
    getBit ((s.wrHomeMap n data).rd .evtStat (Ev.accessErr .sky / 32)) (Ev.accessErr .sky % 32) = true := by
  have hany : ((List.range 4).any fun i => !s.skyOk (homeFld data i)) = true :=
    List.any_eq_true.mpr ⟨i, List.mem_range.mpr hi, by rw [h]; rfl⟩
  rw [State.wrHomeMap_eq, State.homeWritten, if_pos hany]
  exact State.statBit_raise (by decide)

theorem exec_homeMapWrite {p : Path} {n : BitVec 6} {data : Word} (hs : s.servesReg p .skyHomeMap n.toNat = true) :
    exec (.homeMapWrite p n data) s = .next ((s.nextSeq p).wrHomeMap n.toNat data) :=
  congrArg Host.Outcome.next (State.access_of_serves hs)

end Sys2Proof.Machine
end

section
/-! ## Faults of a Skerry (R159, R160) -/

namespace Sys2Proof.Machine

open Sys2Proof

variable {s t u : State} {k cause : Nat}

/-! ### Its descriptors -/

theorem State.slotWaits_of_slots (h : t.net.slots = s.net.slots) (n i : Nat) : t.slotWaits n i = s.slotWaits n i := by
  rw [State.slotWaits, h, State.slotWaits]

/-- The slot of a descriptor is voided where it waits for it, and the reference to the frame is given back. -/
def State.voidDesc (s : State) (d : Desc) : State := (if s.slotWaits d.slot d.frm then s.voidSlot (some d.slot) else s).dropRef d.frm

theorem State.slots_voidDesc (s : State) (d : Desc) :
    (s.voidDesc d).net.slots = s.net.slots ∨ (s.voidDesc d).net.slots = (s.slotTo d.slot .void).net.slots := by
  rw [State.voidDesc, State.slots_dropRef]
  split
  · exact .inr rfl
  · exact .inl rfl

theorem State.slotVoid.voidDesc {n : Nat} (h : s.slotVoid n) (d : Desc) : (s.voidDesc d).slotVoid n :=
  (s.slots_voidDesc d).elim h.of_slots (h.slotTo d.slot).of_slots

theorem State.slotVoid_voidDesc {d : Desc} (h : s.slotWaits d.slot d.frm = true) : (s.voidDesc d).slotVoid d.slot := by
  rw [State.voidDesc, if_pos h]
  exact (State.slotVoid_slotTo_same (State.isSome_of_slotWaits h)).of_slots (State.slots_dropRef ..)

/-- A slot that waits waits on, or is VOID, when the descriptor of another is voided. -/
theorem State.waits_voidDesc {n i : Nat} (h : s.slotWaits n i = true) (d : Desc) :
    (s.voidDesc d).slotVoid n ∨ (s.voidDesc d).slotWaits n i = true := by
  rcases s.slots_voidDesc d with e | e
  · exact .inr ((State.slotWaits_of_slots e ..).trans h)
  · by_cases hn : n = d.slot
    · subst hn
      exact .inl ((State.slotVoid_slotTo_same (State.isSome_of_slotWaits h)).of_slots e)
    · refine .inr ?_
      rw [State.slotWaits, e, State.tblFind_slotTo, if_neg hn]
      exact h

theorem State.reslotted_voidDescs (s : State) (l : List Desc) : Reslotted s (s.voidDescs l) :=
  (Reslotted.refl s).foldl fun _ _ h => (Reslotted.ite h.voidSlot h).dropRef

theorem State.slotVoid.voidDescs {n : Nat} (h : s.slotVoid n) (l : List Desc) : (s.voidDescs l).slotVoid n :=
  List.foldlRecOn (motive := fun u : State => u.slotVoid n) l State.voidDesc h fun _ hu d _ => hu.voidDesc d

/-- The slots that wait for the descriptors of a list become VOID. -/
theorem State.slotVoid_voidDescs {l : List Desc} {d : Desc} (hd : d ∈ l) (h : s.slotWaits d.slot d.frm = true) :
    (s.voidDescs l).slotVoid d.slot := by
  induction l generalizing s with
  | nil => cases hd
  | cons e l ih =>
    rcases List.mem_cons.mp hd with rfl | hl
    · exact (State.slotVoid_voidDesc h).voidDescs l
    · rcases State.waits_voidDesc h e with hv | hw
      · exact hv.voidDescs l
      · exact ih hl hw

/-! ### Out of service -/

theorem State.slots_setSky (s : State) (k : Nat) (x : Skerry) : (s.setSky k x).net.slots = s.net.slots := rfl

theorem State.rd_setSky (s : State) (k : Nat) (x : Skerry) (r : Reg) (i : Nat) : (s.setSky k x).rd r i = s.rd r i := by
  have h : (s.setSky k x).regs = s.regs := rfl
  rw [State.rd, h, State.rd]

theorem State.ctr_setSky (s : State) (k : Nat) (x : Skerry) (c : Ctr) (i : Nat) : (s.setSky k x).ctr c i = s.ctr c i := by
  have h : (s.setSky k x).ctrs = s.ctrs := rfl
  rw [State.ctr, h, State.ctr]

/-- The registers when Skerry `k` leaves service with a cause. -/
def State.skyLeaves (s : State) (k cause : Nat) : State :=
  (s.wr .skyStatus 0 (putBits (s.rd .skyStatus) k k 0)).wr .skyFaultRec 0 (putBits (putBits 0 31 28 cause) 20 16 k)

/-- The descriptors that a Skerry holds. -/
def Skerry.descs (x : Skerry) : List Desc := (x.threads.map fun r => r.2.d) ++ x.resv ++ x.norm

/-- Skerry `k` has left service with a cause, and its descriptors are gone. -/
def State.skyDown (s : State) (k cause : Nat) : State :=
  ((s.skyLeaves k cause).setSky k Skerry.reset).voidDescs (s.skerry k).descs

theorem State.reslotted_skyDown (s : State) (k cause : Nat) :
    Reslotted ((s.skyLeaves k cause).setSky k Skerry.reset) (s.skyDown k cause) := State.reslotted_voidDescs ..

/-- The flows of `k` go to the next Skerry in service, if any. -/
def State.rehomeNext (s : State) (k : Nat) : State := match s.skyNext k fun _ => true with
  | some j => s.rehome k j
  | none => s

/-- The fault of `k` is counted and raised. -/
def State.skyRaised (s : State) (k : Nat) : State := (s.bump .skyKFaults k).raise Ev.skyFault

/-- The fault of `k` is counted, raised and recorded. -/
def State.skyNoted (s : State) (k : Nat) : State :=
  let d := s.skyRaised k |>.drawWord
  let e := d.2.drawWord
  let g := e.2.drawWord
  g.2.skyRecord 0 k (getBits g.1 1 0) (getBits g.1 9 2) d.1.toNat e.1.toNat (getBits g.1 15 10) 0xFFF

theorem State.skyFault_eq (h : s.skyOk k = true) : s.skyFault k cause = ((s.skyDown k cause).rehomeNext k).skyNoted k := by
  unfold State.skyFault
  rw [if_neg (by simp [h])]
  rfl

theorem State.rd_skyDown (s : State) (k cause : Nat) (r : Reg) (i : Nat) : (s.skyDown k cause).rd r i = (s.skyLeaves k cause).rd r i :=
  ((s.reslotted_skyDown k cause).rd r i).trans (State.rd_setSky ..)

theorem State.skyOk_skyDown (s : State) (cause : Nat) {k j : Nat} (hj : j < 32) :
    (s.skyDown k cause).skyOk j = (s.skyOk j && j != k) := by
  rw [State.skyOk, State.rd_skyDown, State.skyLeaves, State.rd_wr_reg _ _ _ _ _ _ (by decide), State.rd_wr_same,
    getBit_putBits _ _ (le_refl k) hj]
  by_cases h : j = k
  · simp [h]
  · have hnot : ¬ (k ≤ j ∧ j ≤ k) := by omega
    rw [if_neg hnot]
    simp [h, State.skyOk]

/-- The next Skerry in service after a fault of `k` is the next one before it other than `k`. -/
theorem State.skyNext_skyDown (s : State) (k cause : Nat) :
    ((s.skyDown k cause).skyNext k fun _ => true) = s.skyNext k fun j => j != k := by
  unfold State.skyNext
  refine List.find?_congr fun j hj => ?_
  obtain ⟨i, -, rfl⟩ := List.mem_map.mp hj
  rw [State.skyOk_skyDown s cause (Nat.mod_lt _ (by decide)), Bool.and_true]

theorem State.skyNext_lt {p : Nat → Bool} {j : Nat} (h : s.skyNext k p = some j) : j < 32 := by
  obtain ⟨i, -, rfl⟩ := List.mem_map.mp (List.mem_of_find?_eq_some h)
  exact Nat.mod_lt _ (by decide)

theorem State.slotVoid_skyDown (s : State) (k cause : Nat) {d : Desc}
    (hd : d ∈ (s.skerry k).descs) (hw : s.slotWaits d.slot d.frm = true) : (s.skyDown k cause).slotVoid d.slot := by
  have hslots : ((s.skyLeaves k cause).setSky k Skerry.reset).net.slots = s.net.slots := by
    rw [State.slots_setSky, State.skyLeaves, State.wr_net, State.wr_net]
  rw [State.skyDown]
  exact State.slotVoid_voidDescs hd ((State.slotWaits_of_slots hslots ..).trans hw)

theorem State.skerry_skyDown (s : State) (k cause : Nat) : (s.skyDown k cause).skerry k = Skerry.reset :=
  ((s.reslotted_skyDown k cause).skerry k).trans (State.skerry_setSky_same ..)

theorem State.ctr_skyDown (s : State) (k cause : Nat) (c : Ctr) (i : Nat) : (s.skyDown k cause).ctr c i = s.ctr c i := by
  rw [(s.reslotted_skyDown k cause).ctr, State.ctr_setSky, State.skyLeaves, State.ctr_wr, State.ctr_wr]

/-! ### Its flows -/

theorem skyKept_rehomeNext (s : State) (k : Nat) : SkyKept s (s.rehomeNext k) := by
  unfold State.rehomeNext
  split
  · exact (SkyKept.refl s).rehome
  · exact .refl s

theorem State.rd_rehomeNext {r : Reg} (s : State) (k i : Nat) (hr : r ≠ .skyHomeMap) : (s.rehomeNext k).rd r i = s.rd r i := by
  unfold State.rehomeNext
  split
  · exact State.rd_rehome _ _ _ _ hr
  · rfl

theorem State.homeOf_rehomeNext {j n : Nat} (h : (s.skyNext k fun _ => true) = some j) (hn : n < 256) :
    (s.rehomeNext k).homeOf n = if s.homeOf n = k then j else s.homeOf n := by
  rw [State.rehomeNext, h]
  exact State.homeOf_rehome s k (State.skyNext_lt h) hn

/-! ### Its record -/

theorem quiet_skyRecord (s : State) (cause k thr prof ord hash inPort xlt : Nat) :
    Quiet s (s.skyRecord cause k thr prof ord hash inPort xlt) := by
  unfold State.skyRecord
  split
  · exact quiet_mqPost _ _ _
  · exact Quiet.refl _

/-- A message that is posted clears no status bit. -/
theorem State.statBit_mqPost {i b : Nat} (hb : b < 32) (h : getBit (s.rd .evtStat i) b = true) (m : Nat) (it : MqItem) :
    getBit ((s.mqPost m it).1.rd .evtStat i) b = true := by
  have hcore : getBit ((s.mqPostCore m it).1.rd .evtStat i) b = true := by rw [(SameStat.refl s).mqPostCore]; exact h
  show getBit ((State.raiseFuel _ _ _).settle.rd .evtStat i) b = true
  rw [(SameStat.refl _).settle]
  exact State.statBit_raiseFuel hb hcore

theorem State.statBit_skyRecord {i b : Nat} (hb : b < 32) (h : getBit (s.rd .evtStat i) b = true)
    (cause k thr prof ord hash inPort xlt : Nat) :
    getBit ((s.skyRecord cause k thr prof ord hash inPort xlt).rd .evtStat i) b = true := by
  unfold State.skyRecord
  split
  · exact State.statBit_mqPost hb h _ _
  · exact h

theorem skyKept_skyNoted (s : State) (k : Nat) : SkyKept (s.bump .skyKFaults k) (s.skyNoted k) := by
  have h : SkyKept (s.bump .skyKFaults k) (s.skyRaised k) := (SkyKept.refl _).raise
  unfold State.skyNoted
  extract_lets d e g
  have hg : SkyKept (s.bump .skyKFaults k) g.2 := h.frame.frame.frame
  exact hg.quiet (quiet_skyRecord ..)

theorem State.rd_skyNoted {r : Reg} (s : State) (k i : Nat) (hr : r ∉ eventRegs) : (s.skyNoted k).rd r i = s.rd r i := by
  have h : (s.skyRaised k).rd r i = s.rd r i := (quiet_raise (s.bump .skyKFaults k) Ev.skyFault).rd r i hr
  unfold State.skyNoted
  extract_lets d e g
  have hg : g.2.rd r i = s.rd r i := h
  exact ((quiet_skyRecord ..).rd r i hr).trans hg

theorem State.statBit_skyNoted (s : State) (k : Nat) :
    getBit ((s.skyNoted k).rd .evtStat (Ev.skyFault / 32)) (Ev.skyFault % 32) = true := by
  have h : getBit ((s.skyRaised k).rd .evtStat (Ev.skyFault / 32)) (Ev.skyFault % 32) = true := State.statBit_raise (by decide)
  unfold State.skyNoted
  extract_lets d e g
  have hg : getBit (g.2.rd .evtStat (Ev.skyFault / 32)) (Ev.skyFault % 32) = true := h
  exact State.statBit_skyRecord (by decide) hg ..

/-! ### A fault as a whole -/

/-- `u` is `s` after a fault of Skerry `k` with a cause. -/
structure Faulted (s u : State) (k cause : Nat) : Prop where
  service : u.skyOk k = false
  record : u.rd .skyFaultRec = putBits (putBits 0 31 28 cause) 20 16 k
  skerry : u.skerry k = Skerry.reset
  ctr : u.ctr .skyKFaults k = s.ctr .skyKFaults k + 1
  event : getBit (u.rd .evtStat (Ev.skyFault / 32)) (Ev.skyFault % 32) = true
  slots : ∀ d ∈ (s.skerry k).descs, s.slotWaits d.slot d.frm = true → u.slotVoid d.slot
  homes : ∀ j, s.skyNext k (fun j => j != k) = some j →
    ∀ n < 256, u.homeOf n = if s.homeOf n = k then j else s.homeOf n

theorem State.faulted_skyFault (hk : k < 32) (h : s.skyOk k = true) (cause : Nat) : Faulted s (s.skyFault k cause) k cause := by
  rw [State.skyFault_eq h]
  have hnoted := skyKept_skyNoted ((s.skyDown k cause).rehomeNext k) k
  have hhome := skyKept_rehomeNext (s.skyDown k cause) k
  have hrd (r : Reg) (hr : r ∉ eventRegs) (hne : r ≠ .skyHomeMap) (i : Nat) :
      (((s.skyDown k cause).rehomeNext k).skyNoted k).rd r i = (s.skyDown k cause).rd r i :=
    (State.rd_skyNoted _ k i hr).trans (State.rd_rehomeNext _ k i hne)
  refine ⟨?_, ?_, ?_, ?_, State.statBit_skyNoted .., fun d hd hw => ?_, fun j hj n hn => ?_⟩
  · have hdown := State.skyOk_skyDown s cause (k := k) hk
    rw [State.skyOk, hrd _ (by decide) (by decide)]
    exact hdown.trans (by simp)
  · rw [hrd _ (by decide) (by decide), State.rd_skyDown, State.skyLeaves, State.rd_wr_same]
  · rw [hnoted.skerry]
    exact (hhome.skerry k).trans (State.skerry_skyDown ..)
  · rw [hnoted.ctr _ (by decide), State.ctr_bump, if_pos ⟨rfl, rfl⟩, hhome.ctr _ (by decide), State.ctr_skyDown]
  · exact (State.slotVoid_skyDown s k cause hd hw).of_slots (hnoted.slots.trans hhome.slots)
  · rw [State.homeOf, State.rd_skyNoted _ _ _ (by decide)]
    refine (State.homeOf_rehomeNext ((State.skyNext_skyDown s k cause).trans hj) hn).trans ?_
    rw [State.homeOf, State.rd_skyDown, State.skyLeaves, State.rd_wr_reg _ _ _ _ _ _ (by decide), State.rd_wr_reg _ _ _ _ _ _ (by decide)]
    rfl

/-- What keeps the Skerries, their slots and their registers may come before a fault. -/
theorem Faulted.after (h : Faulted t u k cause) (hkept : SkyKept s t) (hstat : ∀ i, t.rd .skyStatus i = s.rd .skyStatus i)
    (hhome : ∀ i, t.rd .skyHomeMap i = s.rd .skyHomeMap i) : Faulted s u k cause := by
  have hok : t.skyOk = s.skyOk := funext fun j => congrArg (getBit · j) (hstat 0)
  refine ⟨h.service, h.record, h.skerry, h.ctr.trans (by rw [hkept.ctr _ (by decide)]), h.event, fun d hd hw => ?_, fun j hj n hn => ?_⟩
  · exact h.slots d (by rw [hkept.skerry]; exact hd) ((State.slotWaits_of_slots hkept.slots ..).trans hw)
  · have hof : t.homeOf n = s.homeOf n := congrArg (getBits · (8 * (n % 4) + 4) (8 * (n % 4))) (hhome (n / 4))
    rw [h.homes j (by rw [State.skyNext, hok]; exact hj) n hn, hof]

end Sys2Proof.Machine
end

section
/-! ## Retirement and restoring (R161), and O40 -/

namespace Sys2Proof.Machine

open Sys2Proof

variable {s u : State} {k cause : Nat}

/-! ### Writes of SKY_CTRL -/

theorem State.writeReg_skyCtrl (s : State) (data : Word) :
    s.writeReg .skyCtrl 0 data = s.wr .skyCtrl 0 (putBits (s.rd .skyCtrl) 20 16 (getBits data 20 16)) := rfl

/-- A write of SKY_CTRL has reached the block, and its commands have not begun. -/
def State.skyCtrlTaken (s : State) (p : Path) (data : Word) : State := ((s.nextSeq p).writeReg .skyCtrl 0 data).flushBlk .sky

theorem skyKept_skyCtrlTaken (s : State) (p : Path) (data : Word) : SkyKept s (s.skyCtrlTaken p data) := by
  have h : SkyKept s (s.nextSeq p) := (SkyKept.refl s).frame
  rw [State.skyCtrlTaken, State.writeReg_skyCtrl]
  exact h.wr.flushBlk

theorem State.rd_skyCtrlTaken_of_piped {r : Reg} (s : State) (p : Path) (data : Word) (i : Nat) (hr : r ∉ pipeRegs) :
    (s.skyCtrlTaken p data).rd r i =
      ((s.nextSeq p).wr .skyCtrl 0 (putBits ((s.nextSeq p).rd .skyCtrl) 20 16 (getBits data 20 16))).rd r i := by
  rw [State.skyCtrlTaken, State.writeReg_skyCtrl]
  exact (Piped.refl _).flushWhere.rd r i hr

theorem State.rd_skyCtrlTaken {r : Reg} (s : State) (p : Path) (data : Word) (i : Nat) (hr : r ∉ pipeRegs) (hne : r ≠ .skyCtrl) :
    (s.skyCtrlTaken p data).rd r i = s.rd r i := by
  rw [State.rd_skyCtrlTaken_of_piped s p data i hr, State.rd_wr_reg _ _ _ _ _ _ hne, State.rd_nextSeq]

theorem State.skyOk_skyCtrlTaken (s : State) (p : Path) (data : Word) (j : Nat) : (s.skyCtrlTaken p data).skyOk j = s.skyOk j := by
  rw [State.skyOk, State.rd_skyCtrlTaken s p data 0 (by decide) (by decide), State.skyOk]

/-- The command word names its Skerry in restore_idx. -/
theorem State.restoreIdx_skyCtrlTaken (s : State) (p : Path) (w : Word) (hk : k < 32) :
    (s.skyCtrlTaken p (putBits w 20 16 k)).fld F.skyCtrl_restore_idx = k := by
  have hmod : k % 2 ^ (20 - 16 + 1) = k := Nat.mod_eq_of_lt hk
  show getBits ((s.skyCtrlTaken p (putBits w 20 16 k)).rd .skyCtrl) 20 16 = k
  rw [State.rd_skyCtrlTaken_of_piped _ _ _ _ (by decide), State.rd_wr_same, getBits_putBits _ _ _ _ (by decide) (by decide),
    getBits_putBits _ _ _ _ (by decide) (by decide), hmod, hmod]

/-- The command bits of a command word are those that it is made of. -/
theorem skyCtrl_retire_putBits (w : Word) (k : Nat) : F.skyCtrl_retire.of (putBits w 20 16 k) = F.skyCtrl_retire.of w :=
  getBits_putBits_above w k (by decide) (by decide) (by decide) (by decide)

theorem skyCtrl_restore_putBits (w : Word) (k : Nat) : F.skyCtrl_restore.of (putBits w 20 16 k) = F.skyCtrl_restore.of w :=
  getBits_putBits_above w k (by decide) (by decide) (by decide) (by decide)

/-- Skerry `k` is in service again when its self-test has passed. -/
def State.skyRestored (s : State) (k : Nat) (ok : Bool) : State :=
  if ok then (s.skyMemClear k).wr .skyStatus 0 (putBits ((s.skyMemClear k).rd .skyStatus) k k 1) else s.skyMemClear k

/-- The commands of a write of SKY_CTRL that has reached the block: retirement first, then restoring. -/
theorem State.wrSkyCtrl_taken (s : State) (p : Path) (data : Word) (ok : Bool) : (s.nextSeq p).wrSkyCtrl data ok =
    let t := s.skyCtrlTaken p data
    let k := t.fld F.skyCtrl_restore_idx
    let t := if F.skyCtrl_retire.of data = 1 then t.skyFault k 5 else t
    if F.skyCtrl_restore.of data = 1 ∧ t.skyOk k = false then t.skyRestored k ok else t := rfl

/-! ### Retirement -/

theorem exec_skerryRetire {p : Path} {k : Fin 32} (hs : s.servesReg p .skyCtrl 0 = true) : exec (.skerryRetire p k) s =
    .next ((s.skyCtrlTaken p (putBits 0x40000000 20 16 k)).skyFault k 5) := by
  have hretire : F.skyCtrl_retire.of (putBits 0x40000000 20 16 k) = 1 := (skyCtrl_retire_putBits ..).trans (by decide)
  have hrestore : F.skyCtrl_restore.of (putBits 0x40000000 20 16 k) = 0 := (skyCtrl_restore_putBits ..).trans (by decide)
  have hidx := State.restoreIdx_skyCtrlTaken s p 0x40000000 k.isLt
  refine congrArg Host.Outcome.next ((State.access_of_serves hs).trans ?_)
  rw [State.wrSkyCtrl_taken]
  dsimp only
  rw [hidx, if_pos hretire, if_neg fun h => absurd (hrestore.symm.trans h.1) (by decide)]

theorem State.faulted_retire {p : Path} {data : Word} (hk : k < 32) (h : s.skyOk k = true) (cause : Nat) :
    Faulted s ((s.skyCtrlTaken p data).skyFault k cause) k cause := by
  have hok : (s.skyCtrlTaken p data).skyOk k = true := (State.skyOk_skyCtrlTaken ..).trans h
  exact (State.faulted_skyFault hk hok cause).after (skyKept_skyCtrlTaken ..)
    (fun i => State.rd_skyCtrlTaken s p data i (by decide) (by decide)) fun i => State.rd_skyCtrlTaken s p data i (by decide) (by decide)

/-! ### Restoring -/

theorem rd_skyMemClear {r : Reg} (s : State) (k i : Nat) (hr : r ∉ eventRegs) : (s.skyMemClear k).rd r i = s.rd r i := by
  unfold State.skyMemClear
  extract_lets here t a
  refine List.foldlRecOn (motive := fun u : State => u.rd r i = s.rd r i) _ _ rfl fun u hu m _ => ?_
  split
  · exact ((quiet_applyFlip ..).rd r i hr).trans hu
  · exact hu

theorem exec_skerryRestore {p : Path} {k : Fin 32} {ok : Bool} (hs : s.servesReg p .skyCtrl 0 = true) (hk : s.skyOk k = false) :
    exec (.skerryRestore p k ok) s = .next ((s.skyCtrlTaken p (putBits 0x80000000 20 16 k)).skyRestored k ok) := by
  have hretire : F.skyCtrl_retire.of (putBits 0x80000000 20 16 k) = 0 := (skyCtrl_retire_putBits ..).trans (by decide)
  have hrestore : F.skyCtrl_restore.of (putBits 0x80000000 20 16 k) = 1 := (skyCtrl_restore_putBits ..).trans (by decide)
  have hidx := State.restoreIdx_skyCtrlTaken s p 0x80000000 k.isLt
  have hok := (State.skyOk_skyCtrlTaken s p (putBits 0x80000000 20 16 k) k).trans hk
  refine congrArg Host.Outcome.next ((State.access_of_serves hs).trans ?_)
  rw [State.wrSkyCtrl_taken]
  dsimp only
  rw [hidx, if_neg fun h => absurd (hretire.symm.trans h) (by decide), if_pos ⟨hrestore, hok⟩]

theorem State.rd_skyRestored_false (s : State) (k i : Nat) : (s.skyRestored k false).rd .skyStatus i = s.rd .skyStatus i :=
  rd_skyMemClear s k i (by decide)

theorem State.skyOk_skyRestored (s : State) {j : Nat} (hk : k < 32) (hj : j < 32) :
    (s.skyRestored k true).skyOk j = if j = k then true else s.skyOk j := by
  rw [State.skyRestored, if_pos rfl, State.skyOk, State.rd_wr_same, getBit_putBits_one _ hk hj, rd_skyMemClear _ _ _ (by decide)]
  rfl

theorem State.rd_skyRestored_true (s : State) (k n : Nat) : (s.skyRestored k true).rd .skyHomeMap n = s.rd .skyHomeMap n := by
  rw [State.skyRestored, if_pos rfl, State.rd_wr_reg _ _ _ _ _ _ (by decide), rd_skyMemClear _ _ _ (by decide)]

/-! ### Faults that are found -/

theorem exec_skerryFault {k : Fin 32} {c : Fin 3} (hfab : s.fabricOn = true) :
    exec (.skerryFault k c) s = .next (s.skyFault k (c + 1)) := congrArg Host.Outcome.next (if_pos hfab)

theorem exec_skerryStallTimeout {k : Fin 32} (hfab : s.fabricOn = true) (hq : (s.skerry k).norm ≠ [] ∨ (s.skerry k).resv ≠ [])
    (hlate : (s.skerry k).lastRun + tkUs 10 ≤ s.tim.lt) : exec (.skerryStallTimeout k) s = .next (s.skyFault k 4) := by
  have hwork : (!((s.skerry k).norm.isEmpty && (s.skerry k).resv.isEmpty)) = true := by
    rcases hq with h | h <;> simp [h]
  refine congrArg Host.Outcome.next (if_pos ?_)
  rw [hfab, hwork, decide_eq_true hlate]
  rfl

/-! ### Thieves -/

theorem exec_stealProbe {k : Fin 32} : exec (.stealProbe k) s = .next (s.stealProbe k) := rfl

theorem State.mayProbe_of_off (h : s.on F.skyStealCfg_en = false) : s.mayProbe k = false := by simp [State.mayProbe, h]

/-- A probe within 8 cycles of the last is not due. -/
theorem State.mayProbe_of_recent (h : ((s.skerry k).probeAt.any fun t => decide (s.tim.lt < t + 8)) = true) : s.mayProbe k = false := by
  obtain ⟨t, ht, hlt⟩ := (Option.any_eq_true ..).mp h
  have hnot : ¬ t + 8 ≤ s.tim.lt := not_le.mpr (of_decide_eq_true hlt)
  simp [State.mayProbe, ht, hnot]

/-- `t` is `s` but for the switching side, with the slots of `s`, and for the counters. -/
def Traded (s t : State) : Prop := ∃ net ctrs, t = { s with net := net, ctrs := ctrs } ∧ net.slots = s.net.slots

theorem Traded.refl (s : State) : Traded s s := ⟨_, _, rfl, rfl⟩

theorem Traded.setSky {t : State} (h : Traded s t) {k : Nat} {x : Skerry} : Traded s (t.setSky k x) := by
  obtain ⟨net, ctrs, rfl, hslots⟩ := h
  exact ⟨_, _, rfl, hslots⟩

theorem Traded.bump {t : State} (h : Traded s t) {c : Ctr} {i : Nat} : Traded s (t.bump c i) := by
  obtain ⟨net, ctrs, rfl, hslots⟩ := h
  exact ⟨_, _, rfl, hslots⟩

theorem Traded.stolen {t : State} (h : Traded s t) {k v : Nat} {d : Desc} : Traded s (t.stolen k v d) := h.setSky.setSky.bump.bump

theorem Traded.slots {t : State} (h : Traded s t) : t.net.slots = s.net.slots := by
  obtain ⟨net, ctrs, rfl, hslots⟩ := h
  exact hslots

theorem Traded.keeps {t : State} (h : Traded s t) : keeps [.regs, .tim, .mem] s t := by
  obtain ⟨net, ctrs, rfl, -⟩ := h
  intro q hq
  simp only [List.mem_cons, List.not_mem_nil, or_false] at hq
  rcases hq with rfl | rfl | rfl <;> rfl

/-- A theft moves the head of the victim's queue to the thief. -/
theorem State.stolen_head {v : Nat} {d : Desc} {r : List Desc} (hv : v ≠ k) (hq : (s.skerry v).norm = d :: r) (p : Option Nat) :
    let u := (s.setSky k { s.skerry k with probeAt := p }).stolen k v d
    (u.skerry k).norm = [{ d with stolen := true }] ∧ (u.skerry v).norm = r ∧ (u.skerry k).probeAt = p ∧
      (u.skerry v).resv = (s.skerry v).resv := by
  intro u
  have hother : (s.setSky k { s.skerry k with probeAt := p }).skerry v = s.skerry v := State.skerry_setSky_other _ _ hv
  obtain ⟨hnorm, hat⟩ := State.skerry_stolen_thief (s.setSky k { s.skerry k with probeAt := p }) (d := d) hv
  have hvictim := State.skerry_stolen_victim (s.setSky k { s.skerry k with probeAt := p }) (d := d) hv
  rw [hother] at hvictim
  rw [State.skerry_setSky_same] at hat
  refine ⟨hnorm, ?_, hat, by rw [hvictim]⟩
  rw [hvictim, hq]
  exact List.erase_cons_head ..

/-- Settles O40: probes take the head of the next Skerry's queue or nothing, a fault is `skyFault` whatever finds it, and home-map words
are written field by field. -/
theorem stealingFaultsAndHomes : Obligations.StealingFaultsAndHomes := by
  unfold Obligations.StealingFaultsAndHomes
  intro s k x faulted
  have hconj {u : State} {cause : Nat} (h : Faulted s u k cause) : faulted u cause :=
    ⟨h.service, h.record, h.skerry, h.ctr, h.event, h.slots, fun j hj n => h.homes j hj n n.isLt⟩
  refine ⟨fun hoff => ?_, ?_, fun hrecent => ?_, fun hok => ⟨fun hfab c => ?_, fun hfab hq hlate => ?_, fun p hs => ?_⟩,
    fun p hs hout => ⟨?_, ?_⟩, fun p n data hs => ?_⟩
  · exact exec_stealProbe.trans (congrArg _ (State.stealProbe_not_due (State.mayProbe_of_off hoff)))
  · intro d r v hfab hen hok hnorm hidle hspan hvok hq hdepth hmay hprobe
    have hv : v ≠ k := by omega
    have hdue : s.mayProbe k = true := by
      rw [State.mayProbe, hfab, hen, hok, hidle, hnorm, hprobe]
      rfl
    have hexec := exec_stealProbe.trans
      (congrArg Host.Outcome.next (State.stealProbe_due hv hdue (State.stealPick_next hspan hvok hq hdepth hmay)))
    refine ⟨fun hlost => ?_, fun hlost => ?_⟩
    · obtain ⟨hthief, hvictim, hat, hresv⟩ := State.stolen_head (s := s) hv hq (some s.tim.lt)
      have htraded : Traded s ((s.setSky k { s.skerry k with probeAt := some s.tim.lt }).stolen k v d) := (Traded.refl s).setSky.stolen
      rw [hlost] at hexec
      exact ⟨_, hexec, hthief, hvictim, hat, hresv, State.ctr_stolen_in .., State.ctr_stolen_out .., htraded.slots, htraded.keeps⟩
    · rw [hlost] at hexec
      exact hexec
  · exact exec_stealProbe.trans (congrArg _ (State.stealProbe_not_due (State.mayProbe_of_recent hrecent)))
  · exact ⟨_, exec_skerryFault hfab, hconj (State.faulted_skyFault k.isLt hok _)⟩
  · exact ⟨_, exec_skerryStallTimeout hfab hq hlate, hconj (State.faulted_skyFault k.isLt hok 4)⟩
  · exact ⟨_, exec_skerryRetire hs, hconj (State.faulted_retire k.isLt hok 5)⟩
  · refine ⟨_, exec_skerryRestore hs hout, ?_, fun j hj => ?_, fun n => ?_⟩
    · rw [State.skyOk_skyRestored _ k.isLt k.isLt, if_pos rfl]
    · rw [State.skyOk_skyRestored _ k.isLt j.isLt, if_neg (Fin.val_ne_of_ne hj), State.skyOk_skyCtrlTaken]
    · rw [State.rd_skyRestored_true, State.rd_skyCtrlTaken _ _ _ _ (by decide) (by decide)]
  · refine ⟨_, exec_skerryRestore hs hout, ?_⟩
    rw [State.rd_skyRestored_false, State.rd_skyCtrlTaken _ _ _ _ (by decide) (by decide)]
  · refine ⟨_, exec_homeMapWrite hs, fun i => State.homeOf_wrHomeMap _ _ _ i.isLt, fun m hm => State.rd_wrHomeMap_other _ _ hm,
      fun ⟨i, hi⟩ => State.statBit_wrHomeMap _ _ _ i.isLt hi⟩

end Sys2Proof.Machine
end

section
/-! ## What a write leaves in a register (R8 to R10, R487)

Where the fields of a register share no bit, each is as the write and its own access type have it. -/

namespace Sys2Proof.Machine

open Sys2Proof

variable {s : State} {r : Reg} {i : Nat} {data : Word} {fs : List FieldInfo}

/-! ### Fields of one register -/

/-- Two fields share no bit. -/
def FieldInfo.apart (f g : FieldInfo) : Bool := f.hi < g.lo || g.hi < f.lo

/-- The fields lie in a word of 32 bits and share no bit. -/
def fieldsApart : List FieldInfo → Bool
  | [] => true
  | f :: fs => f.lo ≤ f.hi && f.hi < 32 && fs.all f.apart && fieldsApart fs

theorem fieldsApart_cons {f : FieldInfo} (h : fieldsApart (f :: fs) = true) :
    f.lo ≤ f.hi ∧ f.hi < 32 ∧ (∀ g ∈ fs, f.hi < g.lo ∨ g.hi < f.lo) ∧ fieldsApart fs = true := by
  simpa [fieldsApart, FieldInfo.apart, and_assoc] using h

theorem getBits_clear_apart (w : Word) {hi lo a b : Nat} (v : Nat) (h : lo ≤ hi) (hab : b ≤ a) (ha : a < 32) (hd : hi < b ∨ a < lo) :
    getBits (w &&& ~~~(data &&& putBits 0 hi lo v)) a b = getBits w a b := by
  refine getBits_and_of_ones w fun j hj => ?_
  have hlt : j + b < 32 := by omega
  have hmask : (putBits 0 hi lo v).getLsbD (j + b) = false := by
    refine (getBit_putBits 0 v h hlt).trans ?_
    rw [if_neg (by omega)]
    simp [getBit]
  simp only [getBit, BitVec.getLsbD_not, BitVec.getLsbD_and, hmask, hlt, Bool.and_false, Bool.not_false, decide_true, Bool.and_self]

/-- What a write makes at one field of the word, and of the mark of a value that is not allowed. -/
def FieldInfo.take (f : FieldInfo) (data : Word) (x : Word × Bool) : Word × Bool := match f.acc with
  | .rw => if f.chk.ok (getBits data f.hi f.lo) then (putBits x.1 f.hi f.lo (getBits data f.hi f.lo), x.2) else (x.1, true)
  | .w1c => (x.1 &&& ~~~(data &&& putBits 0 f.hi f.lo (2 ^ (f.hi - f.lo + 1) - 1)), x.2)
  | _ => x

theorem mergeFields_cons (data : Word) (f : FieldInfo) (fs : List FieldInfo) (x : Word × Bool) :
    mergeFields data (f :: fs) x = mergeFields data fs (f.take data x) := by
  obtain ⟨hi, lo, acc, chk⟩ := f
  cases acc <;> simp only [mergeFields, FieldInfo.take]
  split <;> rfl

theorem FieldInfo.getBits_take_apart {f : FieldInfo} (x : Word × Bool) {a b : Nat} (h : f.lo ≤ f.hi) (hab : b ≤ a) (ha : a < 32)
    (hd : f.hi < b ∨ a < f.lo) : getBits (f.take data x).1 a b = getBits x.1 a b := by
  unfold FieldInfo.take
  split
  · split
    · exact getBits_putBits_apart _ _ h hab ha hd
    · rfl
  · exact getBits_clear_apart _ _ h hab ha hd
  · rfl

theorem FieldInfo.take_allowed {f : FieldInfo} (x : Word × Bool) (h : f.chk.ok (getBits data f.hi f.lo) = true) :
    (f.take data x).2 = x.2 := by
  unfold FieldInfo.take
  split
  · rw [if_pos h]
  · rfl
  · rfl

/-! ### All fields -/

/-- Bits that belong to none of the fields stay. -/
theorem getBits_mergeFields_apart (hfs : fieldsApart fs = true) (x : Word × Bool) {a b : Nat} (hab : b ≤ a) (ha : a < 32)
    (hd : ∀ f ∈ fs, f.hi < b ∨ a < f.lo) : getBits (mergeFields data fs x).1 a b = getBits x.1 a b := by
  induction fs generalizing x with
  | nil => rfl
  | cons f fs ih =>
    obtain ⟨hle, -, -, hrest⟩ := fieldsApart_cons hfs
    rw [mergeFields_cons, ih hrest _ fun g hg => hd g (List.mem_cons_of_mem _ hg)]
    exact FieldInfo.getBits_take_apart x hle hab ha (hd f List.mem_cons_self)

/-- A field that takes the written value shows it. -/
theorem getBits_mergeFields (hfs : fieldsApart fs = true) (x : Word × Bool) {g : FieldInfo} (hg : g ∈ fs) (hrw : g.acc = .rw)
    (hok : g.chk.ok (getBits data g.hi g.lo) = true) : getBits (mergeFields data fs x).1 g.hi g.lo = getBits data g.hi g.lo := by
  induction fs generalizing x with
  | nil => cases hg
  | cons f fs ih =>
    obtain ⟨hle, hlt, hapart, hrest⟩ := fieldsApart_cons hfs
    rw [mergeFields_cons]
    rcases List.mem_cons.mp hg with rfl | hg
    · have htake : (g.take data x).1 = putBits x.1 g.hi g.lo (getBits data g.hi g.lo) := by
        simp only [FieldInfo.take, hrw, hok, if_true]
      rw [getBits_mergeFields_apart hrest _ hle hlt fun f hf => (hapart f hf).symm, htake, getBits_putBits _ _ _ _ hle hlt]
      exact Nat.mod_mod _ _
    · exact ih hrest _ hg

theorem mergeFields_allowed (x : Word × Bool) (h : ∀ f ∈ fs, f.chk.ok (getBits data f.hi f.lo) = true) :
    (mergeFields data fs x).2 = x.2 := by
  induction fs generalizing x with
  | nil => rfl
  | cons f fs ih =>
    rw [mergeFields_cons, ih _ fun g hg => h g (List.mem_cons_of_mem _ hg)]
    exact FieldInfo.take_allowed x (h f List.mem_cons_self)

theorem word_eq_of_halves {w v : Word} (hhi : getBits w 31 16 = getBits v 31 16) (hlo : getBits w 15 0 = getBits v 15 0) : w = v := by
  have hw := w.isLt
  have hv := v.isLt
  refine BitVec.eq_of_toNat_eq ?_
  unfold getBits at hhi hlo
  omega

/-! ### The state after a write -/

/-- A served access to a register ends in what it does, after the request has taken its sequence number (R434). -/
theorem next_of_serves {p : Path} {f : State → State} {u : State} (hs : s.servesReg p r i = true) (hu : f (s.nextSeq p) = u) :
    (Host.Outcome.next (s.accessReg p r i data f) : Host.Outcome State Fault Refusal) = .next u :=
  congrArg Host.Outcome.next ((State.access_of_serves hs).trans hu)

/-- The word that a write leaves in a register. -/
def State.merged (s : State) (r : Reg) (i : Nat) (data : Word) : Word := (mergeFields data r.info.fields (s.rd r i, false)).1

/-- Beside the word, a write changes what ACCESS_ERR does. -/
theorem quiet_writeReg (s : State) (r : Reg) (i : Nat) (data : Word) : Quiet (s.wr r i (s.merged r i data)) (s.writeReg r i data) := by
  unfold State.writeReg
  dsimp only
  split
  · exact quiet_accessErr _ _
  · exact Quiet.refl _

theorem State.writeReg_allowed (h : ∀ f ∈ r.info.fields, f.chk.ok (getBits data f.hi f.lo) = true) :
    s.writeReg r i data = s.wr r i (s.merged r i data) := by
  unfold State.writeReg
  dsimp only
  rw [mergeFields_allowed _ h]
  rfl

@[simp] theorem State.writeReg_net (s : State) (r : Reg) (i : Nat) (data : Word) : (s.writeReg r i data).net = s.net :=
  (quiet_writeReg s r i data).net

theorem State.rd_writeReg_other {q : Reg} (j : Nat) (hq : q ≠ r) (he : q ∉ eventRegs) : (s.writeReg r i data).rd q j = s.rd q j :=
  ((quiet_writeReg s r i data).rd q j he).trans (State.rd_wr_reg _ _ _ _ _ _ hq)

theorem State.fld_writeReg_other {f : RegField} (j : Nat) (hq : f.reg ≠ r) (he : f.reg ∉ eventRegs) :
    (s.writeReg r i data).fld f j = s.fld f j :=
  congrArg (getBits · f.hi f.lo) (State.rd_writeReg_other j hq he)

/-- Software writes the field, with the values that `c` allows, and no event changes its register. -/
def RegField.written (f : RegField) (c : Chk) : Bool :=
  f.reg.info.fields.contains ⟨f.hi, f.lo, .rw, c⟩ && fieldsApart f.reg.info.fields && !eventRegs.contains f.reg

theorem State.fld_merged {f : RegField} (s : State) (i : Nat) (c : Chk) (hr : f.reg = r) (hf : f.written c = true)
    (hok : c.ok (f.of data) = true) : getBits (s.merged r i data) f.hi f.lo = f.of data := by
  subst hr
  simp only [RegField.written, Bool.and_eq_true, List.contains_iff_mem] at hf
  obtain ⟨⟨hmem, hapart⟩, -⟩ := hf
  exact getBits_mergeFields hapart _ hmem rfl hok

theorem State.fld_writeReg {f : RegField} (s : State) (i : Nat) (c : Chk) (hr : f.reg = r) (hf : f.written c = true)
    (hok : c.ok (f.of data) = true) : (s.writeReg r i data).fld f i = f.of data := by
  subst hr
  have he : f.reg ∉ eventRegs := by
    simp only [RegField.written, Bool.and_eq_true, Bool.not_eq_true', List.contains_eq_mem, decide_eq_false_iff_not] at hf
    exact hf.2
  unfold State.fld
  rw [(quiet_writeReg s f.reg i data).rd _ _ he, State.rd_wr_same, State.fld_merged s i c rfl hf hok]

/-! ### Registers of queues -/

section Queues

variable {c t : RegField}

theorem qReg_ne {cls str r : Reg} (q : Nat) (hc : cls ≠ r) (hs : str ≠ r) : (qReg q cls str).1 ≠ r := by
  unfold qReg
  split
  exacts [hc, hs]

/-- The fields of a class queue and of a stream queue, in their registers, stand at the same place. -/
theorem State.qFld_writeReg {cls str : Reg} (s : State) (q : Nat) (hcr : c.reg = cls) (htr : t.reg = str)
    (hc : c.written .any = true) (ht : t.written .any = true) (hhi : t.hi = c.hi) (hlo : t.lo = c.lo) :
    (s.writeReg (qReg q cls str).1 (qReg q cls str).2 data).qFld q c t = c.of data := by
  have hsame : t.of data = c.of data := by rw [RegField.of, hhi, hlo, RegField.of]
  unfold State.qFld qReg
  split
  · exact State.fld_writeReg s _ .any hcr hc rfl
  · exact (State.fld_writeReg s _ .any htr ht rfl).trans hsame

theorem State.qFld_writeReg_other (q : Nat) (hc : c.reg ≠ r) (ht : t.reg ≠ r) (hce : c.reg ∉ eventRegs) (hte : t.reg ∉ eventRegs) :
    (s.writeReg r i data).qFld q c t = s.qFld q c t := by
  unfold State.qFld
  rw [State.fld_writeReg_other _ hc hce, State.fld_writeReg_other _ ht hte]

end Queues

end Sys2Proof.Machine
end

section
/-! ## Shapers, meters and the starvation guard (R183, R185, R188, R192) -/

namespace Sys2Proof.Machine

open Sys2Proof

variable {s : State} {path : Path} {data : Word}

/-! ### Levels -/

theorem State.tbLevel_setLevel (s : State) (q : Nat) (l : Int) : (s.setLevel q l).tbLevel q = min l (s.tbFull q) := tblGet_set_same ..

theorem State.mtrLevel_setMtr (s : State) (m : Nat) (l : Int × Int) : (s.setMtr m l).mtrLevel m = l := tblGet_set_same ..

theorem State.credit_setCredit (s : State) (q : Nat) (v : Int) : (s.setCredit q v).credit q = v := tblGet_set_same ..

@[simp] theorem State.fld_setCredit (s : State) (q : Nat) (v : Int) (f : RegField) (i : Nat) : (s.setCredit q v).fld f i = s.fld f i := rfl
@[simp] theorem State.tbOn_setLevel (s : State) (q : Nat) (l : Int) (k : Nat) : (s.setLevel q l).tbOn k = s.tbOn k := rfl
@[simp] theorem State.tbFull_setLevel (s : State) (q : Nat) (l : Int) (k : Nat) : (s.setLevel q l).tbFull k = s.tbFull k := rfl

/-- The level of a bucket stays where neither the levels nor its depth change. -/
theorem State.tbLevel_congr {t : State} {q : Nat} (hnet : t.net = s.net) (hfull : t.tbFull q = s.tbFull q) : t.tbLevel q = s.tbLevel q := by
  unfold State.tbLevel
  rw [hnet, hfull]

/-! ### The rate of a bucket (R183) -/

section Bucket

variable (s : State) (q : Nat) (data : Word)

/-- The rate register of a bucket has been written, and its level has not been seen to. -/
def State.rateWritten : State := s.writeReg (qReg q .schTbRate .schSTbRate).1 (qReg q .schTbRate .schSTbRate).2 data

theorem State.wrTbRate_eq : s.wrTbRate q data = if s.tbOn q && (s.rateWritten q data).tbOn q then s.rateWritten q data
    else (s.rateWritten q data).setLevel q ((s.rateWritten q data).tbFull q) := rfl

theorem State.tbOn_rateWritten : (s.rateWritten q data).tbOn q = (F.schTbRate_en.of data == 1) :=
  congrArg (· == 1) (State.qFld_writeReg s q (c := F.schTbRate_en) (t := F.schSTbRate_en) rfl rfl (by decide) (by decide) rfl rfl)

theorem State.rate_rateWritten :
    (s.rateWritten q data).qFld q F.schTbRate_rate_kbps F.schSTbRate_rate_kbps = F.schTbRate_rate_kbps.of data :=
  State.qFld_writeReg s q rfl rfl (by decide) (by decide) rfl rfl

theorem State.tbLevel_rateWritten : (s.rateWritten q data).tbLevel q = s.tbLevel q := by
  have hdepth : (s.rateWritten q data).qFld q F.schTbDepth_depth F.schSTbDepth_depth = s.qFld q F.schTbDepth_depth F.schSTbDepth_depth :=
    State.qFld_writeReg_other q (qReg_ne q (by decide) (by decide)).symm (qReg_ne q (by decide) (by decide)).symm (by decide) (by decide)
  exact State.tbLevel_congr (State.writeReg_net ..) (by rw [State.tbFull, hdepth, State.tbFull])

section Enable

variable {s : State} {q : Nat} {data : Word} (hen : F.schTbRate_en.of data = 1)
include hen

theorem State.tbOn_rateWritten_of_en : (s.rateWritten q data).tbOn q = true := by rw [State.tbOn_rateWritten, hen, beq_self_eq_true]

/-- A new rate of an enabled bucket keeps its level. -/
theorem State.wrTbRate_of_on (hon : s.tbOn q = true) : s.wrTbRate q data = s.rateWritten q data := by
  rw [State.wrTbRate_eq, hon, State.tbOn_rateWritten_of_en hen, Bool.and_self, if_pos rfl]

/-- Enabling starts a bucket full. -/
theorem State.wrTbRate_of_off (hoff : s.tbOn q = false) :
    (s.wrTbRate q data).tbOn q = true ∧ (s.wrTbRate q data).tbLevel q = (s.wrTbRate q data).tbFull q := by
  rw [State.wrTbRate_eq, hoff, Bool.false_and, if_neg Bool.false_ne_true, State.tbOn_setLevel, State.tbFull_setLevel,
    State.tbLevel_setLevel]
  exact ⟨State.tbOn_rateWritten_of_en hen, min_self _⟩

end Enable

/-! ### The depth of a bucket (R183) -/

/-- The depth register of a bucket has been written, and its level has not been seen to. -/
def State.depthWritten : State := s.writeReg (qReg q .schTbDepth .schSTbDepth).1 (qReg q .schTbDepth .schSTbDepth).2 data

theorem State.tbOn_depthWritten : (s.depthWritten q data).tbOn q = s.tbOn q :=
  congrArg (· == 1) (State.qFld_writeReg_other q (qReg_ne q (by decide) (by decide)).symm (qReg_ne q (by decide) (by decide)).symm
    (by decide) (by decide))

theorem State.tbFull_depthWritten : (s.depthWritten q data).tbFull q = F.schTbDepth_depth.of data * unitB :=
  congrArg (fun n : Nat => (n : Int) * unitB)
    (State.qFld_writeReg s q (c := F.schTbDepth_depth) (t := F.schSTbDepth_depth) rfl rfl (by decide) (by decide) rfl rfl)

theorem State.wrTbDepth_of_on (h : s.tbOn q = true) : s.wrTbDepth q data = (s.depthWritten q data).setLevel q (s.tbLevel q) := by
  have hon : (s.depthWritten q data).tbOn q = true := (s.tbOn_depthWritten q data).trans h
  exact congrArg ((s.depthWritten q data).setLevel q) (if_pos hon)

theorem State.wrTbDepth_spec (h : s.tbOn q = true) : (s.wrTbDepth q data).tbFull q = F.schTbDepth_depth.of data * unitB ∧
    (s.wrTbDepth q data).tbLevel q = min (s.tbLevel q) ((s.wrTbDepth q data).tbFull q) := by
  rw [State.wrTbDepth_of_on s q data h, State.tbFull_setLevel, State.tbLevel_setLevel]
  exact ⟨State.tbFull_depthWritten .., rfl⟩

end Bucket

/-! ### The slope of a credit-based shaper (R185) -/

theorem State.wrCbsSlope_spec (s : State) (q : Nat) (data : Word) :
    (s.wrCbsSlope q data).fld F.schCbsSlope_idle_kbps q = F.schCbsSlope_idle_kbps.of data ∧ (s.wrCbsSlope q data).credit q =
      (if s.on F.schCbsSlope_en q ∧ F.schCbsSlope_en.of data = 1 then s.credit q else 0) := by
  have hidle : (s.writeReg .schCbsSlope q data).fld F.schCbsSlope_idle_kbps q = F.schCbsSlope_idle_kbps.of data :=
    State.fld_writeReg s q .any rfl (by decide) rfl
  have hen : (s.writeReg .schCbsSlope q data).on F.schCbsSlope_en q = (F.schCbsSlope_en.of data != 0) :=
    congrArg (· != 0) (State.fld_writeReg s q (f := F.schCbsSlope_en) .any rfl (by decide) rfl)
  have hbit : F.schCbsSlope_en.of data = 1 ↔ (F.schCbsSlope_en.of data != 0) = true := by
    have hlt : F.schCbsSlope_en.of data < 2 := Nat.mod_lt _ (by decide)
    rw [bne_iff_ne]
    omega
  have hnet : (s.writeReg .schCbsSlope q data).credit q = s.credit q := by rw [State.credit, State.writeReg_net, State.credit]
  unfold State.wrCbsSlope
  simp only [hbit, ← Bool.and_eq_true, hen]
  split
  · exact ⟨hidle, hnet⟩
  · exact ⟨(State.fld_setCredit ..).trans hidle, State.credit_setCredit _ q 0⟩

/-! ### The parameters of a meter (R192) -/

/-- A write of a meter register changes the registers as a write of any other does. -/
theorem State.fld_wrMeter (s : State) (r : Reg) (m : Nat) (data : Word) (f : RegField) (j : Nat) :
    (s.wrMeter r m data).fld f j = (s.writeReg r m data).fld f j := by
  unfold State.wrMeter
  dsimp only
  split <;> rfl

theorem State.fld_wrMeter_of_written {r : Reg} {f : RegField} (s : State) (m : Nat) (hr : f.reg = r) (hf : f.written .any = true) :
    (s.wrMeter r m data).fld f m = f.of data :=
  (State.fld_wrMeter ..).trans (State.fld_writeReg s m .any hr hf rfl)

theorem State.on_writeReg_other {r : Reg} {f : RegField} {i j : Nat} (hq : f.reg ≠ r) (he : f.reg ∉ eventRegs) :
    (s.writeReg r i data).on f j = s.on f j :=
  congrArg (· != 0) (State.fld_writeReg_other j hq he)

theorem State.mtrFull_writeReg {r : Reg} {i m : Nat} (hc : Reg.mtrCbs ≠ r) (he : Reg.mtrEbs ≠ r) :
    (s.writeReg r i data).mtrFull m = s.mtrFull m := by
  unfold State.mtrFull
  rw [State.fld_writeReg_other (f := F.mtrCbs_cbs) m hc (by decide), State.fld_writeReg_other (f := F.mtrEbs_ebs) m he (by decide)]

theorem State.mtrFull_writeCbs (s : State) (m : Nat) (data : Word) :
    (s.writeReg .mtrCbs m data).mtrFull m = (F.mtrCbs_cbs.of data * unitB, (s.mtrFull m).2) := by
  unfold State.mtrFull
  rw [State.fld_writeReg (r := .mtrCbs) (f := F.mtrCbs_cbs) s m .any rfl (by decide) rfl,
    State.fld_writeReg_other (f := F.mtrEbs_ebs) m (by decide) (by decide)]

theorem State.mtrFull_writeEbs (s : State) (m : Nat) (data : Word) :
    (s.writeReg .mtrEbs m data).mtrFull m = ((s.mtrFull m).1, F.mtrEbs_ebs.of data * unitB) := by
  unfold State.mtrFull
  rw [State.fld_writeReg (r := .mtrEbs) (f := F.mtrEbs_ebs) s m .any rfl (by decide) rfl,
    State.fld_writeReg_other (f := F.mtrCbs_cbs) m (by decide) (by decide)]

section Meter

variable {r : Reg} {m : Nat} (hon : s.on F.mtrCtrl_en m = true) (hstays : (s.writeReg r m data).on F.mtrCtrl_en m = true)
include hon hstays

/-- A meter that is enabled before and after a write keeps its levels, clamped at the sizes that then hold. -/
theorem State.mtrLevel_wrMeter : (s.wrMeter r m data).mtrLevel m =
    (min (s.mtrLevel m).1 ((s.writeReg r m data).mtrFull m).1, min (s.mtrLevel m).2 ((s.writeReg r m data).mtrFull m).2) := by
  have hboth : (s.on F.mtrCtrl_en m && (s.writeReg r m data).on F.mtrCtrl_en m) = true := by rw [hon, hstays, Bool.and_self]
  refine (congrArg (State.mtrLevel · m) (if_pos hboth)).trans ?_
  exact State.mtrLevel_setMtr _ m _

/-- A write that leaves the sizes alone clamps nothing. -/
theorem State.mtrLevel_wrMeter_of_size (hcr : Reg.mtrCbs ≠ r) (her : Reg.mtrEbs ≠ r) (hc : (s.mtrLevel m).1 ≤ (s.mtrFull m).1)
    (he : (s.mtrLevel m).2 ≤ (s.mtrFull m).2) : (s.wrMeter r m data).mtrLevel m = s.mtrLevel m := by
  rw [State.mtrLevel_wrMeter hon hstays, State.mtrFull_writeReg hcr her, min_eq_left hc, min_eq_left he]

end Meter

/-- A write of a register that is not MTR_CTRL leaves a meter enabled. -/
theorem State.mtrOn_writeReg {r : Reg} {m : Nat} (hr : Reg.mtrCtrl ≠ r) (hon : s.on F.mtrCtrl_en m = true) :
    (s.writeReg r m data).on F.mtrCtrl_en m = true :=
  (State.on_writeReg_other (f := F.mtrCtrl_en) hr (by decide)).trans hon

theorem State.mtrOn_writeCtrl (s : State) (m : Nat) (hen : F.mtrCtrl_en.of data = 1) :
    (s.writeReg .mtrCtrl m data).on F.mtrCtrl_en m = true := by
  rw [State.on, State.fld_writeReg (r := .mtrCtrl) (f := F.mtrCtrl_en) s m .any rfl (by decide) rfl, hen]
  rfl

theorem exec_meterParamWrite {m : BitVec 11} {w : Fin 5} (r : Reg)
    (hr : [Reg.mtrCtrl, .mtrCir, .mtrPir, .mtrCbs, .mtrEbs].getD w .mtrCtrl = r) (hs : s.servesReg path r m.toNat = true) :
    exec (.meterParamWrite path m w data) s = .next ((s.nextSeq path).wrMeter r m.toNat data) := by
  subst hr
  exact next_of_serves hs rfl

/-! ### The starvation guard (R188) -/

theorem State.qs_setQs (s : State) (q k : Nat) (x : QSched) : (s.setQs q x).qs k = if k = q then x else s.qs k :=
  tblGet_set _ _ _ _ _ _ fun _ => rfl

theorem State.starve_due {q : Nat} (hw : s.fld F.schMaxwait_max_wait_us q ≠ 0)
    (ht : tkUs (s.fld F.schMaxwait_max_wait_us q) ≤ (s.qs q).timer) (hu : (s.qs q).urgent = false) :
    s.starve q = s.setQs q { s.qs q with urgent := true, urgAt := s.tim.lt } :=
  if_pos ⟨hw, ht, by rw [hu]; rfl⟩

/-- Settles O32: each write is a plain register write with one rule for the level, and the guard sets one flag. -/
theorem shaperAndMeterParameters : Obligations.ShaperAndMeterParameters := by
  intro s path
  refine ⟨fun q data hs => ⟨fun hon hen => ?_, fun hoff hen => ?_⟩, fun q data hs hon => ?_, fun q data hs => ?_,
    fun m data hs hon => ?_, fun m data hs hon => ?_,
    fun m data hon hc he => ⟨fun hs hen => ?_, fun hs => ?_, fun hs => ?_⟩, fun q hw ht hu => ?_⟩
  · refine ⟨_, next_of_serves hs rfl, ?_⟩
    rw [State.wrTbRate_of_on (s := s.nextSeq path) hen hon]
    exact ⟨State.tbLevel_rateWritten .., State.tbOn_rateWritten_of_en hen, State.rate_rateWritten ..⟩
  · exact ⟨_, next_of_serves hs rfl, State.wrTbRate_of_off (s := s.nextSeq path) hen hoff⟩
  · exact ⟨_, next_of_serves hs rfl, State.wrTbDepth_spec (s.nextSeq path) q data hon⟩
  · exact ⟨_, next_of_serves hs rfl, State.wrCbsSlope_spec (s.nextSeq path) q data⟩
  · refine ⟨_, exec_meterParamWrite .mtrCbs rfl hs, State.fld_wrMeter_of_written _ _ rfl (by decide), ?_⟩
    rw [State.mtrLevel_wrMeter (s := s.nextSeq path) hon (State.mtrOn_writeReg (by decide) hon), State.mtrFull_writeCbs]
    rfl
  · refine ⟨_, exec_meterParamWrite .mtrEbs rfl hs, State.fld_wrMeter_of_written _ _ rfl (by decide), ?_⟩
    rw [State.mtrLevel_wrMeter (s := s.nextSeq path) hon (State.mtrOn_writeReg (by decide) hon), State.mtrFull_writeEbs]
    rfl
  · have hstays := State.mtrOn_writeCtrl (s.nextSeq path) m.toNat hen
    refine ⟨_, exec_meterParamWrite .mtrCtrl rfl hs, ?_, ?_⟩
    · exact (congrArg (· != 0) (State.fld_wrMeter ..)).trans hstays
    · exact State.mtrLevel_wrMeter_of_size (s := s.nextSeq path) hon hstays (by decide) (by decide) hc he
  · refine ⟨_, exec_meterParamWrite .mtrCir rfl hs, State.fld_wrMeter_of_written _ _ rfl (by decide), ?_⟩
    exact State.mtrLevel_wrMeter_of_size (s := s.nextSeq path) hon (State.mtrOn_writeReg (by decide) hon) (by decide) (by decide) hc he
  · refine ⟨_, exec_meterParamWrite .mtrPir rfl hs, State.fld_wrMeter_of_written _ _ rfl (by decide), ?_⟩
    exact State.mtrLevel_wrMeter_of_size (s := s.nextSeq path) hon (State.mtrOn_writeReg (by decide) hon) (by decide) (by decide) hc he
  · refine ⟨_, congrArg Host.Outcome.next (State.starve_due hw ht hu), ?_, fun k hk => ?_, ?_⟩
    · rw [State.qs_setQs, if_pos rfl]
    · rw [State.qs_setQs, if_neg hk]
    · simp [keeps, Part.same, State.setQs]

end Sys2Proof.Machine
end

section
/-! ## Limits of queues and ports, and high-water registers (R174, R175, R177) -/

namespace Sys2Proof.Machine

open Sys2Proof

variable {s : State} {path : Path} {data : Word}

theorem Quiet.fld {t : State} (q : Quiet s t) {f : RegField} {i : Nat} (hf : f.reg ∉ eventRegs) : t.fld f i = s.fld f i :=
  congrArg (getBits · f.hi f.lo) (q.rd f.reg i hf)

theorem regsBut_wr (s : State) (r : Reg) (i : Nat) (w : Word) : regsBut [r] s (s.wr r i w) :=
  fun _ _ h => State.rd_wr_reg _ _ _ _ _ _ (List.ne_of_not_mem_cons h)

/-! ### Registers of two halves -/

/-- A register of two fields of 16 bits takes the written word. -/
theorem State.writeReg_halves {r : Reg} {c : Chk} (s : State) (i : Nat)
    (hr : r.info.fields = [⟨31, 16, .rw, c⟩, ⟨15, 0, .rw, .any⟩]) (hok : c.ok (getBits data 31 16) = true) :
    s.writeReg r i data = s.wr r i data := by
  have hapart : fieldsApart r.info.fields = true := by rw [hr]; rfl
  have hword : s.merged r i data = data := word_eq_of_halves
    (getBits_mergeFields hapart _ (g := ⟨31, 16, .rw, c⟩) (by rw [hr]; exact List.mem_cons_self) rfl hok)
    (getBits_mergeFields hapart _ (g := ⟨15, 0, .rw, .any⟩) (by rw [hr]; exact List.mem_cons_of_mem _ List.mem_cons_self) rfl rfl)
  rw [State.writeReg_allowed, hword]
  intro f hf
  rw [hr] at hf
  rcases List.mem_pair.mp hf with rfl | rfl
  · exact hok
  · rfl

/-! ### Limits of queues (R175) -/

section Limit

variable {q : Nat}

theorem State.writeReg_qLim (s : State) (q : Nat) (hlim : 8 ≤ F.qmgQLim_limit.of data) :
    s.writeReg (qReg q .qmgQLim .qmgSLim).1 (qReg q .qmgQLim .qmgSLim).2 data =
      s.wr (qReg q .qmgQLim .qmgSLim).1 (qReg q .qmgQLim .qmgSLim).2 data := by
  have hmax : F.qmgQLim_limit.of data < 65536 := Nat.mod_lt _ (by decide)
  have hok : (Chk.rng 8 65535).ok (getBits data 31 16) = true := by
    rw [Chk.ok, Bool.and_eq_true, decide_eq_true_eq, decide_eq_true_eq]
    exact ⟨hlim, Nat.le_of_lt_succ hmax⟩
  unfold qReg
  split
  · exact State.writeReg_halves s _ rfl hok
  · exact State.writeReg_halves s _ rfl hok

theorem State.writeReg_qCol (s : State) (q : Nat) (data : Word) :
    s.writeReg (qReg q .qmgQCol .qmgSCol).1 (qReg q .qmgQCol .qmgSCol).2 data =
      s.wr (qReg q .qmgQCol .qmgSCol).1 (qReg q .qmgQCol .qmgSCol).2 data := by
  unfold qReg
  split
  · exact State.writeReg_halves s _ (c := .any) rfl rfl
  · exact State.writeReg_halves s _ (c := .any) rfl rfl

/-- A limit that the pool can keep applies, and the marks follow. -/
theorem State.wrQLim_fits (hlim : 8 ≤ F.qmgQLim_limit.of data)
    (h : s.sumMin - s.qMin q + F.qmgQLim_min.of data + 512 + s.fld F.skyCellLim_limit ≤ 65536) : s.wrQLim q data =
      (s.wr (qReg q .qmgQLim .qmgSLim).1 (qReg q .qmgQLim .qmgSLim).2 data).marks := by
  rw [← State.writeReg_qLim s q hlim]
  exact if_neg (Nat.not_lt.mpr h)

theorem State.wrQLim_overcommits
    (h : 65536 < s.sumMin - s.qMin q + F.qmgQLim_min.of data + 512 + s.fld F.skyCellLim_limit) :
    s.wrQLim q data = s.accessErr .qmg := if_pos h

theorem State.wrQLim_spec (hlim : 8 ≤ F.qmgQLim_limit.of data)
    (h : s.sumMin - s.qMin q + F.qmgQLim_min.of data + 512 + s.fld F.skyCellLim_limit ≤ 65536) :
    let r := qReg q .qmgQLim .qmgSLim
    (s.wrQLim q data).rd r.1 r.2 = data ∧ regsBut (r.1 :: markRegs) s (s.wrQLim q data) ∧ (s.wrQLim q data).ctrs = s.ctrs := by
  intro r
  have hm := marked_marks (s.wr r.1 r.2 data)
  have hr : r.1 ∉ markRegs := by
    show (qReg q .qmgQLim .qmgSLim).1 ∉ markRegs
    unfold qReg
    split
    · exact (by decide : Reg.qmgQLim ∉ markRegs)
    · exact (by decide : Reg.qmgSLim ∉ markRegs)
  rw [State.wrQLim_fits hlim h]
  refine ⟨(hm.rd _ _ hr).trans (State.rd_wr_same ..), fun g i hg => ?_, hm.ctrs⟩
  exact (hm.rd g i (List.not_mem_of_not_mem_cons hg)).trans (State.rd_wr_reg _ _ _ _ _ _ (List.ne_of_not_mem_cons hg))

end Limit

/-! ### Limits of ports and of the Skerry array (R175) -/

theorem State.writeReg_portLim (s : State) (p : Nat) (hmin : 8 ≤ F.qmgPortLim_limit.of data)
    (hmax : F.qmgPortLim_limit.of data ≤ 65536) :
    s.writeReg .qmgPortLim p data = s.wr .qmgPortLim p (s.merged .qmgPortLim p data) := by
  refine State.writeReg_allowed fun f hf => ?_
  rcases List.mem_pair.mp hf with rfl | rfl
  · rfl
  · exact Bool.and_eq_true_iff.mpr ⟨decide_eq_true hmin, decide_eq_true hmax⟩

theorem State.limit_writePortLim (s : State) (p : Nat) (hmin : 8 ≤ F.qmgPortLim_limit.of data)
    (hmax : F.qmgPortLim_limit.of data ≤ 65536) :
    (s.writeReg .qmgPortLim p data).fld F.qmgPortLim_limit p = F.qmgPortLim_limit.of data :=
  State.fld_writeReg s p (.rng 8 65536) rfl (by decide) (Bool.and_eq_true_iff.mpr ⟨decide_eq_true hmin, decide_eq_true hmax⟩)

theorem State.hostEn_writePortLim (s : State) (p : Nat) (data : Word) :
    (s.writeReg .qmgPortLim p data).fld F.qmgPortLim_host_en p = F.qmgPortLim_host_en.of data :=
  State.fld_writeReg s p .any rfl (by decide) rfl

theorem State.frame_writePortLim (s : State) (p : Nat) (hmin : 8 ≤ F.qmgPortLim_limit.of data)
    (hmax : F.qmgPortLim_limit.of data ≤ 65536) :
    regsBut [.qmgPortLim] s (s.writeReg .qmgPortLim p data) ∧ (s.writeReg .qmgPortLim p data).ctrs = s.ctrs := by
  rw [State.writeReg_portLim s p hmin hmax]
  exact ⟨regsBut_wr _ _ _ _, rfl⟩

/-- host_en of a word can be replaced beside its limit. -/
theorem portLim_limit_putBits (w : Word) (v : Nat) : F.qmgPortLim_limit.of (putBits w 31 31 v) = F.qmgPortLim_limit.of w :=
  getBits_putBits_apart w v (by decide) (by decide) (by decide) (.inr (by decide))

theorem portLim_hostEn_putBits (w : Word) {v : Nat} (hv : v < 2) : F.qmgPortLim_host_en.of (putBits w 31 31 v) = v :=
  (getBits_putBits w 31 31 v (by decide) (by decide)).trans (Nat.mod_eq_of_lt hv)

/-- host_en exists on P16 only. -/
theorem State.wrPortLim_of_ne {p : Nat} (hp : p ≠ 16) : s.wrPortLim p data = s.writeReg .qmgPortLim p (putBits data 31 31 0) := by
  unfold State.wrPortLim
  simp only [hp, if_false, false_and]
  exact if_neg (by simp [hp])

theorem State.wrPortLim_spec {p : Nat} (hp : p ≠ 16) (hmin : 8 ≤ F.qmgPortLim_limit.of data)
    (hmax : F.qmgPortLim_limit.of data ≤ 65536) :
    (s.wrPortLim p data).fld F.qmgPortLim_limit p = F.qmgPortLim_limit.of data ∧
      (s.wrPortLim p data).on F.qmgPortLim_host_en p = false ∧ regsBut [.qmgPortLim] s (s.wrPortLim p data) ∧
        (s.wrPortLim p data).ctrs = s.ctrs := by
  have hl := portLim_limit_putBits data 0
  rw [← hl] at hmin hmax
  have hlimit : (s.writeReg .qmgPortLim p (putBits data 31 31 0)).fld F.qmgPortLim_limit p = F.qmgPortLim_limit.of data := by
    rw [State.limit_writePortLim s p hmin hmax, hl]
  have hen : (s.writeReg .qmgPortLim p (putBits data 31 31 0)).on F.qmgPortLim_host_en p = false := by
    rw [State.on, State.hostEn_writePortLim, portLim_hostEn_putBits data (by decide)]
    rfl
  rw [State.wrPortLim_of_ne hp]
  exact ⟨hlimit, hen, State.frame_writePortLim s p hmin hmax⟩

theorem State.wrSkyCellLim_overcommits (h : 65536 < s.sumMin + 512 + F.skyCellLim_limit.of data) :
    s.wrSkyCellLim data = s.accessErr .sky := if_pos h

theorem State.wrSkyCellLim_spec (hmin : 64 ≤ F.skyCellLim_limit.of data) (hmax : F.skyCellLim_limit.of data ≤ 32768)
    (h : s.sumMin + 512 + F.skyCellLim_limit.of data ≤ 65536) :
    (s.wrSkyCellLim data).fld F.skyCellLim_limit = F.skyCellLim_limit.of data ∧ regsBut [.skyCellLim] s (s.wrSkyCellLim data) ∧
      (s.wrSkyCellLim data).ctrs = s.ctrs := by
  have hok : (Chk.rng 64 32768).ok (F.skyCellLim_limit.of data) = true :=
    Bool.and_eq_true_iff.mpr ⟨decide_eq_true hmin, decide_eq_true hmax⟩
  have happlies : s.wrSkyCellLim data = s.writeReg .skyCellLim 0 data := if_neg (Nat.not_lt.mpr h)
  rw [happlies]
  refine ⟨State.fld_writeReg s 0 (.rng 64 32768) rfl (by decide) hok, ?_⟩
  rw [State.writeReg_allowed fun f hf => by rw [List.mem_singleton.mp hf]; exact hok]
  exact ⟨regsBut_wr _ _ _ _, rfl⟩

/-- ACCESS_ERR sets its status bit, and changes no register but those of events. -/
theorem State.accessErr_spec (s : State) {b : Blk} (hb : Ev.listed (Ev.accessErr b) = true) : regsBut eventRegs s (s.accessErr b) ∧
    getBit ((s.accessErr b).rd .evtStat (Ev.accessErr b / 32)) (Ev.accessErr b % 32) = true :=
  ⟨fun r i h => State.rd_accessErr s b r i h, State.statBit_raise hb⟩

/-! ### The host port (R174) -/

theorem State.linkUp_host (s : State) : s.linkUp 16 = s.on F.qmgPortLim_host_en 16 := rfl

/-- A write at P16 keeps host_en set until the port is lost, and raises the event of a port that comes up. -/
theorem State.wrPortLim_host (s : State) (data : Word) : s.wrPortLim 16 data =
    if s.linkUp 16 = true ∧ (!(F.qmgPortLim_host_en.of data == 1)) = true
    then (s.writeReg .qmgPortLim 16 (putBits data 31 31 1)).hostDown
    else (s.writeReg .qmgPortLim 16 data).raiseIf (!s.linkUp 16 && F.qmgPortLim_host_en.of data == 1) (Ev.linkChange 16) := by
  unfold State.wrPortLim
  simp only [if_true, true_and, beq_self_eq_true, Bool.true_and]

/-- host_en takes P16 up. -/
theorem State.wrPortLim_rises (hdown : s.linkUp 16 = false) (hen : F.qmgPortLim_host_en.of data = 1) :
    s.wrPortLim 16 data = (s.writeReg .qmgPortLim 16 data).raise (Ev.linkChange 16) := by
  rw [State.wrPortLim_host, hdown, hen, if_neg (by decide), Bool.not_false, Bool.true_and, beq_self_eq_true]
  exact if_pos rfl

/-- host_en takes P16 down: the limit is written, and then the port is lost. -/
theorem State.wrPortLim_falls (hup : s.linkUp 16 = true) (hen : F.qmgPortLim_host_en.of data = 0) :
    s.wrPortLim 16 data = (s.writeReg .qmgPortLim 16 (putBits data 31 31 1)).hostDown := by
  rw [State.wrPortLim_host, hup, hen, if_pos (by decide)]

theorem State.hostUp_spec (s : State) (hmin : 8 ≤ F.qmgPortLim_limit.of data) (hmax : F.qmgPortLim_limit.of data ≤ 65536)
    (hen : F.qmgPortLim_host_en.of data = 1) :
    let u := (s.writeReg .qmgPortLim 16 data).raise (Ev.linkChange 16)
    u.linkUp 16 = true ∧ u.fld F.qmgPortLim_limit 16 = F.qmgPortLim_limit.of data ∧
      getBit (u.rd .evtStat (Ev.linkChange 16 / 32)) (Ev.linkChange 16 % 32) = true := by
  intro u
  have hq : Quiet (s.writeReg .qmgPortLim 16 data) u := quiet_raise ..
  have hup : u.fld F.qmgPortLim_host_en 16 = 1 := (hq.fld (by decide)).trans ((State.hostEn_writePortLim s 16 data).trans hen)
  refine ⟨?_, (hq.fld (by decide)).trans (State.limit_writePortLim s 16 hmin hmax), State.statBit_raise (by decide)⟩
  rw [State.linkUp_host, State.on, hup]
  rfl

/-- A port that goes down ends with its event: what follows the clearing of host_en leaves it cleared. -/
theorem State.hostDown_spec (h : s.linkUp 16 = true) : s.hostDown.linkUp 16 = false ∧
    getBit (s.hostDown.rd .evtStat (Ev.linkChange 16 / 32)) (Ev.linkChange 16 % 32) = true := by
  unfold State.hostDown
  rw [if_neg (by simp [h])]
  extract_lets t u
  have hu : Steady t u := .ite (Steady.refl t).fdbPurge (.refl t)
  have hdown : Steady t (u.raise (Ev.linkChange 16)) := hu.quiet (quiet_raise ..)
  refine ⟨?_, State.statBit_raise (by decide)⟩
  rw [State.linkUp_host, State.on, hdown.fld (by decide), State.fld_setFld_same _ _ _ _ (by decide) (by decide)]
  rfl

/-! ### High-water registers (R177) -/

/-- A high-water field of 17 bits takes an occupancy of the pool. -/
theorem State.setHwm_spec (s : State) {f : RegField} {r : Reg} (i : Nat) {v : Nat} (hr : f.reg = r) (hhi : f.hi = 16) (hlo : f.lo = 0)
    (hv : v ≤ 65536) : (s.setFld f i v).fld f i = v ∧ regsBut [r] s (s.setFld f i v) := by
  subst hr
  refine ⟨?_, regsBut_wr _ _ _ _⟩
  rw [State.fld_setFld_same _ _ _ _ (by omega) (by omega), hhi, hlo]
  exact Nat.mod_eq_of_lt (by omega)

/-- Settles O31: each limit is a plain register write or ACCESS_ERR, P16 goes up and down by host_en, and a high-water write sets one
field. -/
theorem limitsAndHighWaterMarks : Obligations.LimitsAndHighWaterMarks := by
  intro s path
  refine ⟨fun q data hs hlim => ⟨fun hfit => ?_, fun hover => ?_⟩, fun q data hs => ?_, fun i data hp hs hmin hmax => ?_,
    fun i data hs hmin hmax => ⟨fun hfit => ?_, fun hover => ?_⟩,
    fun data hs hmin hmax => ⟨fun hdown hen => ?_, fun hup hen => ?_⟩,
    fun p data => ⟨fun hs hv => ?_, fun hs hv => ?_, fun hs hv => ?_⟩⟩
  · exact ⟨_, next_of_serves hs rfl, State.wrQLim_spec (s := s.nextSeq path) hlim hfit⟩
  · refine ⟨_, next_of_serves hs (State.wrQLim_overcommits (s := s.nextSeq path) hover), ?_⟩
    exact State.accessErr_spec (s.nextSeq path) (by decide)
  · refine ⟨_, next_of_serves hs (State.writeReg_qCol (s.nextSeq path) q data), ?_⟩
    exact ⟨State.rd_wr_same .., regsBut_wr (s.nextSeq path) _ _ _, rfl⟩
  · exact ⟨_, next_of_serves hs rfl, State.wrPortLim_spec (s := s.nextSeq path) hp hmin hmax⟩
  · exact ⟨_, next_of_serves hs rfl, State.wrSkyCellLim_spec (s := s.nextSeq path) hmin hmax hfit⟩
  · refine ⟨_, next_of_serves hs (State.wrSkyCellLim_overcommits (s := s.nextSeq path) hover), ?_⟩
    exact State.accessErr_spec (s.nextSeq path) (by decide)
  · refine ⟨_, next_of_serves hs (State.wrPortLim_rises (s := s.nextSeq path) hdown hen), ?_⟩
    exact State.hostUp_spec (s.nextSeq path) hmin hmax hen
  · refine ⟨_, next_of_serves hs (State.wrPortLim_falls (s := s.nextSeq path) hup hen), ?_⟩
    refine State.hostDown_spec ?_
    rw [State.linkUp_host, State.on, State.hostEn_writePortLim, portLim_hostEn_putBits data (by decide)]
    rfl
  · exact ⟨_, next_of_serves hs rfl, State.setHwm_spec (s.nextSeq path) 0 rfl rfl rfl hv⟩
  · exact ⟨_, next_of_serves hs rfl, State.setHwm_spec (s.nextSeq path) 0 rfl rfl rfl hv⟩
  · exact ⟨_, next_of_serves hs rfl, State.setHwm_spec (s.nextSeq path) p rfl rfl rfl hv⟩

end Sys2Proof.Machine
end

section
/-! ## The start of a copy (R181, R240)

A port with one eligible head copy grants it: selection has no choice, a memory without errors adds nothing, and a port without a SecY
sends it in clear. -/

namespace Sys2Proof.Machine

open Sys2Proof

variable {s t : State} {p frac : Nat} {c : Copy} {urg : Bool}

/-! ### Selection -/

theorem State.gateTest_of_eligible (h : s.eligibleCopy c = true) : s.gateTest c = .pass ∨ s.gateTest c = .under := by
  unfold State.eligibleCopy at h
  simp only [Bool.and_eq_true] at h
  obtain ⟨-, hgate⟩ := h
  cases e : s.gateTest c <;> simp [e] at hgate ⊢

/-- A head copy that is eligible is not deferred. -/
theorem State.countDefers_of_eligible (hh : s.heads p = [c]) (h : s.eligibleCopy c = true) : s.countDefers p = s := by
  unfold State.countDefers
  rw [hh, List.foldl_cons, List.foldl_nil]
  rcases State.gateTest_of_eligible h with e | e <;> rw [e]

theorem State.countDefers_of_empty (hh : s.heads p = []) : s.countDefers p = s := by
  unfold State.countDefers
  rw [hh, List.foldl_nil]

theorem State.select_nil (s : State) (p : Nat) : s.select p [] = none := rfl

/-- Of one copy of a class queue, urgent or not, that copy is granted. -/
theorem State.select_singleton (s : State) (p : Nat) (hq : c.q < 144) : s.select p [c] = some c := by
  unfold State.select
  split
  · next h =>
    have hne : s.urgents p [c] ≠ [] := by
      simp only [State.urgentTurn, Bool.and_eq_true, Bool.not_eq_true', List.isEmpty_eq_false_iff] at h
      exact h.1
    have he : s.urgents p [c] = [c] := (List.sublist_singleton.mp List.filter_sublist).resolve_left hne
    rw [he]
    rfl
  · have hl : [c].filter (fun c => !s.inGroup p c.cls || decide (c.q < 144)) = [c] := by simp [hq]
    dsimp only
    rw [hl]
    rfl

/-! ### The reads of a grant -/

theorem State.stateRead_clean (h : s.memClean = true) (i : Nat) : s.stateRead i = (s, false) := if_pos h

theorem State.shaperRead_clean (h : s.memClean = true) (q : Nat) : s.shaperRead q = (s, false) := by
  simp [State.shaperRead, State.stateRead_clean h]

theorem State.frameRead_clean (h : s.memClean = true) (i : Nat) : s.frameRead i = (s, none) := if_pos h

theorem State.grant_clean (h : s.memClean = true) (c : Copy) (urg : Bool) (frac : Nat) :
    s.grant c urg frac .clean = s.begin_ c urg frac := by
  unfold State.grant
  simp only [State.shaperRead_clean h, State.frameRead_clean h, Bool.false_eq_true, if_false]

/-- An idle port grants its one eligible copy. -/
theorem State.opportunity_single (hexp : (s.port p).exp = none) (hpre : (s.port p).pre = none) (hh : s.heads p = [c]) (hq : c.q < 144)
    (he : s.eligibleCopy c = true) (hmem : s.memClean = true) : ∃ urg, s.opportunity p frac .clean = s.begin_ c urg frac := by
  have hl : [c].filter s.eligibleCopy = [c] := by simp [he]
  unfold State.opportunity
  rw [State.countDefers_of_eligible hh he]
  simp only [hexp, hpre, hh, hl, Option.isSome_none, Option.any_none, Bool.false_and, Bool.or_self, Bool.false_eq_true, if_false]
  cases hx : s.express p c.cls
  · simp only [List.filter, hx, State.select_nil, State.select_singleton s p hq, Bool.not_false]
    exact ⟨_, State.grant_clean hmem ..⟩
  · simp only [List.filter, hx, State.select_singleton s p hq]
    exact ⟨_, State.grant_clean hmem ..⟩

/-- An idle port with nothing in its queues grants nothing. -/
theorem State.opportunity_empty (hexp : (s.port p).exp = none) (hpre : (s.port p).pre = none) (hh : s.heads p = []) (rd : TxRead) :
    s.opportunity p frac rd = s := by
  unfold State.opportunity
  rw [State.countDefers_of_empty hh]
  simp only [hexp, hpre, hh, List.filter_nil, State.select_nil, Option.isSome_none, Option.any_none, Bool.false_and, Bool.or_self,
    Bool.false_eq_true, if_false]

/-! ### What a grant leaves alone -/

/-- `t` has the queues, the ports, the time and the registers of `s`. -/
structure Beside (s t : State) : Prop where
  queues : t.net.queues = s.net.queues
  ports : t.net.ports = s.net.ports
  tim : t.tim = s.tim
  regs : t.regs = s.regs

namespace Beside

theorem refl (s : State) : Beside s s := ⟨rfl, rfl, rfl, rfl⟩

theorem ite {a b : State} {c : Prop} [Decidable c] (ha : Beside s a) (hb : Beside s b) : Beside s (if c then a else b) := by
  split
  exacts [ha, hb]

variable (h : Beside s t)
include h

theorem bumpIf {b : Bool} {x : Ctr} {i : Nat} : Beside s (t.bumpIf b x i) := ite ⟨h.queues, h.ports, h.tim, h.regs⟩ h

theorem setFrm {i : Nat} {f : Frm} : Beside s (t.setFrm i f) := ⟨h.queues, h.ports, h.tim, h.regs⟩

theorem setQs {q : Nat} {x : QSched} : Beside s (t.setQs q x) := ⟨h.queues, h.ports, h.tim, h.regs⟩

theorem fenceSweep : Beside s t.fenceSweep := ⟨h.queues, h.ports, h.tim, h.regs⟩

theorem queue (q : Nat) : t.queue q = s.queue q := congrArg (tblGet · [] q) h.queues

theorem port (p : Nat) : t.port p = s.port p := congrArg (tblGet · PortSt.reset p) h.ports

theorem secyTx (p : Nat) : t.secyTx p = s.secyTx p := by
  unfold State.secyTx State.on State.fld State.rd
  rw [h.regs]

theorem express (p k : Nat) : t.express p k = s.express p k := by
  unfold State.express State.fld State.rd
  rw [h.regs, h.port]

end Beside

/-- The head copy of a queue has left it, and no deferral of it is kept. -/
def State.headGone (s : State) (c : Copy) : State := (s.setQueue c.q ((s.queue c.q).drop 1)).undefer c

theorem State.queue_headGone (s : State) (c : Copy) : (s.headGone c).queue c.q = (s.queue c.q).drop 1 := tblGet_set_same ..

theorem State.port_headGone (s : State) (c : Copy) : (s.headGone c).port c.port =
    { s.port c.port with defer := (s.port c.port).defer.filter fun d => d.1 != c.frm * 2048 + c.q } := tblGet_set_same ..

theorem State.express_headGone (s : State) (c : Copy) (k : Nat) : (s.headGone c).express c.port k = s.express c.port k := by
  unfold State.express
  rw [State.port_headGone]
  rfl

/-- The head copy leaves its queue, and only the state of the scheduler follows it. -/
theorem State.beside_popHead (s : State) (c : Copy) (urg : Bool) : Beside (s.headGone c) (s.popHead c urg) := by
  unfold State.popHead
  extract_lets s1 s2 x s3 net s4
  have h2 : Beside s1 s2 := (Beside.refl s1).bumpIf
  have h3 : Beside s1 s3 := .ite h2.setQs h2
  have h4 : Beside s1 s4 := .ite ⟨h3.queues, h3.ports, h3.tim, h3.regs⟩ h3
  exact h4.fenceSweep

/-! ### The start -/

/-- A copy of `c` in transmission whose preamble has started at tick `n`, and which nothing has stomped. -/
structure Started (c : Copy) (n : Nat) (tc : TxCopy) : Prop where
  cp : tc.cp = c
  atTick : tc.atTick = n
  sent : tc.sent = 0
  stomp : tc.stomp = none

theorem Started.aim {k : Nat} {tc : TxCopy} (h : Started c k tc) (hk : s.tim.lt = k) (n : Nat) : Started c k (s.aim tc n) := by
  unfold State.aim
  split
  · exact ⟨h.cp, hk, h.sent, h.stomp⟩
  · exact ⟨h.cp, h.atTick, h.sent, h.stomp⟩

theorem State.secyOut_clear (h : s.secyTx p = false) (bs : List Byte) (len : Option Nat) : s.secyOut p bs len = (s, .clear) :=
  if_pos (by rw [h]; rfl)

/-- A port with a copy that has started in the MAC of its class. -/
def PortSt.starts (x : PortSt) (express : Bool) (tc : TxCopy) : PortSt :=
  if express then { x with exp := some tc } else { x with pre := some tc }

/-- Without a SecY a copy that is granted starts in clear. -/
theorem State.begin_clear (h : s.secyTx c.port = false) : ∃ v tc, Beside (s.headGone c) v ∧ Started c s.tim.lt tc ∧
    s.begin_ c urg frac = v.setPort c.port ((v.port c.port).starts (v.express c.port c.cls) tc) := by
  have hpop := State.beside_popHead s c urg
  have hsecy : (s.popHead c urg).secyTx c.port = false := (hpop.secyTx c.port).trans h
  unfold State.begin_
  extract_lets p f under w bs sec w1 first w2 record w3 x
  have hsec : sec = (w, .clear) := by
    unfold sec
    split
    · rfl
    · exact State.secyOut_clear hsecy ..
  have hclear : sec.2 = .clear := congrArg Prod.snd hsec
  have h1 : Beside (s.headGone c) w1 := by
    unfold w1
    rw [hsec]
    exact hpop
  have h3 : Beside (s.headGone c) w3 := h1.bumpIf.setFrm
  have htim : w3.tim.lt = s.tim.lt := congrArg Tim.lt h3.tim
  rw [hclear]
  refine ⟨w3, _, h3, Started.aim ?_ htim _, rfl⟩
  exact ⟨rfl, htim, rfl, rfl⟩

/-- What the grant of an idle port leaves behind. -/
theorem State.begin_idle (hsecy : s.secyTx c.port = false) (hexp : (s.port c.port).exp = none) (hpre : (s.port c.port).pre = none) :
    ∃ tc, Started c s.tim.lt tc ∧ (s.begin_ c urg frac).queue c.q = (s.queue c.q).drop 1 ∧
      if s.express c.port c.cls then ((s.begin_ c urg frac).port c.port).exp = some tc ∧ ((s.begin_ c urg frac).port c.port).pre = none
      else ((s.begin_ c urg frac).port c.port).pre = some tc ∧ ((s.begin_ c urg frac).port c.port).exp = none := by
  obtain ⟨v, tc, hv, htc, e⟩ := State.begin_clear (urg := urg) (frac := frac) hsecy
  have hx : v.express c.port c.cls = s.express c.port c.cls := (hv.express ..).trans (State.express_headGone ..)
  have hq : (v.setPort c.port ((v.port c.port).starts (s.express c.port c.cls) tc)).queue c.q = (s.queue c.q).drop 1 :=
    (hv.queue c.q).trans (State.queue_headGone s c)
  rw [e, hx]
  refine ⟨tc, htc, hq, ?_⟩
  rw [State.port_setPort, hv.port, State.port_headGone]
  cases s.express c.port c.cls
  · exact ⟨rfl, hexp⟩
  · exact ⟨rfl, hpre⟩

end Sys2Proof.Machine
end

section
/-! ## The end of a copy (R44, R182) -/

namespace Sys2Proof.Machine

open Sys2Proof

variable {s t : State} {tc : TxCopy}

/-! ### What the end of a copy leaves alone -/

/-- `t` has the ports and the counts of sent copies of `s`, and all that `s` has sent. -/
structure Trails (s t : State) : Prop where
  ports : t.net.ports = s.net.ports
  ctr : ∀ i, t.ctr .qmgQTx i = s.ctr .qmgQTx i
  sent : ∀ o, Sent o s → Sent o t

namespace Trails

theorem refl (s : State) : Trails s s := ⟨rfl, fun _ => rfl, fun _ h => h⟩

theorem ite {a b : State} {c : Prop} [Decidable c] (ha : Trails s a) (hb : Trails s b) : Trails s (if c then a else b) := by
  split
  exacts [ha, hb]

variable (h : Trails s t)
include h

theorem trans {u : State} (k : Trails t u) : Trails s u :=
  ⟨k.ports.trans h.ports, fun i => (k.ctr i).trans (h.ctr i), fun o ho => k.sent o (h.sent o ho)⟩

theorem foldl {α : Type} {f : State → α → State} {l : List α} (hf : ∀ u a, Trails s u → Trails s (f u a)) :
    Trails s (l.foldl f t) := List.foldlRecOn l f h fun u hu a _ => hf u a hu

theorem bump {c : Ctr} {i : Nat} (hc : .qmgQTx ≠ c) : Trails s (t.bump c i) :=
  h.trans ⟨rfl, fun j => (State.ctr_bump t c _ i j).trans (if_neg fun e => hc e.1), fun _ ho => ho.bump⟩

theorem bumpIf {b : Bool} {c : Ctr} {i : Nat} (hc : .qmgQTx ≠ c) : Trails s (t.bumpIf b c i) := ite (h.bump hc) h

theorem emit {o : Out} : Trails s (t.emit o) := h.trans ⟨rfl, fun _ => rfl, fun _ ho => ho.emit⟩

theorem memWrite {mem inst addr : Nat} : Trails s (t.memWrite mem inst addr) :=
  h.trans ⟨congrArg Net.ports (State.memWrite_net ..), fun i => State.ctr_memWrite _ _ _ _ _ i (by decide), fun _ ho => ho.memWrite⟩

theorem raise {src : Nat} : Trails s (t.raise src) :=
  h.trans ⟨congrArg Net.ports (State.raise_net ..), fun i => (quiet_raise t src).ctr _ i (by decide), fun _ ho => ho.raise⟩

/-- Parts of the state other than the ports, the counters and what has been sent may change. -/
theorem frame {pending now free phys op prevOp cause leftOp regs hold stage tim hbr mqs mem pwr boot mram flash win pair red net keys}
    (hn : net.ports = t.net.ports := by rfl) : Trails s ⟨pending, now, free, t.out, phys, op, prevOp, cause, leftOp, regs, t.ctrs, hold,
      stage, tim, hbr, mqs, mem, pwr, boot, mram, flash, win, pair, red, net, keys⟩ :=
  ⟨hn.trans h.ports, h.ctr, h.sent⟩

theorem setLevel {q : Nat} {l : Int} : Trails s (t.setLevel q l) := h.frame

theorem tbDebit {q : Nat} {n : Int} : Trails s (t.tbDebit q n) := ite h.setLevel.memWrite h

theorem setQs {q : Nat} {x : QSched} : Trails s (t.setQs q x) := h.frame

theorem wfqEnd {c : Copy} {len : Int} : Trails s (t.wfqEnd c len) := ite h.setQs h

theorem setTxts {p : Nat} {l : List Rec8} : Trails s (t.setTxts p l) := h.frame

theorem itemWrite {addr n : Nat} : Trails s (t.itemWrite addr n) := h.foldl fun _ _ h1 => h1.memWrite

theorem txtsAppend {p : Nat} {r : Rec8} : Trails s (t.txtsAppend p r) :=
  ite (bump (setTxts h.itemWrite) (by decide)) (raise (h.bump (by decide)))

theorem txStamp {c : TxCopy} {bit : Option Nat} : Trails s (t.txStamp c bit) := ite h.txtsAppend h

theorem dropRef {i : Nat} : Trails s (t.dropRef i) := h.frame

end Trails

/-! ### A whole copy that leaves in clear -/

@[simp] theorem State.sendLast_net (s : State) (tc : TxCopy) (wire : List Byte) : (s.sendLast tc wire).net = s.net := by
  unfold State.sendLast
  split <;> rfl

theorem State.frm_congr (h : t.net = s.net) (i : Nat) : t.frm i = s.frm i := by rw [State.frm, h, State.frm]

theorem State.trails_sendLast (s : State) (tc : TxCopy) (wire : List Byte) : Trails s (s.sendLast tc wire) :=
  .ite (.refl s) (Trails.refl s).emit

theorem State.lateSec_clear (hpn : tc.pn = none) : s.lateSec tc = (s, tc) := by simp [State.lateSec, hpn]

theorem State.wireBytes_clear (hstomp : tc.stomp = none) (hpn : tc.pn = none) :
    s.wireBytes tc = s.copyBytes (s.frm tc.cp.frm) tc.cp.xf := by
  unfold State.wireBytes
  rw [hstomp, hpn]

/-- At an Ethernet port a copy leaves as a frame with its FCS. -/
theorem State.send_eth (hp : tc.cp.port < 16) (hstomp : tc.stomp = none) (hleg : (s.frm tc.cp.frm).leg = none) (wire : List Byte) :
    s.send tc wire = s.emit (.eth tc.cp.port (withFcs false wire) .complete) := by
  unfold State.send
  simp only [hleg, hstomp, Option.isSome_none, Option.isNone_none, Bool.false_eq_true, if_false]
  rw [if_neg (by omega), if_neg (by omega)]

/-- The MAC of a whole express copy is free, and its bytes have left. -/
def State.macFree (s : State) (tc : TxCopy) : State :=
  let wire := s.copyBytes (s.frm tc.cp.frm) tc.cp.xf
  let u := s.setPort tc.cp.port { s.port tc.cp.port with exp := none }
  (u.sendLast tc wire).send tc wire

/-- What follows the bytes of a whole copy are its count and what trails it. -/
theorem State.finish_whole (hstomp : tc.stomp = none) (hpn : tc.pn = none) :
    Trails ((s.macFree tc).bump .qmgQTx tc.cp.q) (s.finish tc true) := by
  unfold State.finish
  rw [State.lateSec_clear hpn]
  extract_lets c p r tc' u st wire late x u1 u2 u3 u4 len u5 u6 u7
  have hwire : wire = s.copyBytes (s.frm tc.cp.frm) tc.cp.xf := State.wireBytes_clear hstomp hpn
  have h2 : u2 = s.macFree tc := by
    unfold u2 State.macFree
    rw [hwire]
    rfl
  have h4 : Trails (u2.bump .qmgQTx c.q) u4 := (((Trails.refl _).bumpIf (by decide)).bumpIf (by decide)).bumpIf (by decide)
  have h6 : Trails (u2.bump .qmgQTx c.q) u6 := .ite h4.tbDebit.tbDebit h4.tbDebit
  rw [← h2]
  exact h6.wfqEnd.txStamp.dropRef

/-- The bytes of a copy that leaves an Ethernet port are on its way out, its MAC is free, and no count has changed yet. -/
theorem State.macFree_spec (hp : tc.cp.port < 16) (hstomp : tc.stomp = none) (hleg : (s.frm tc.cp.frm).leg = none) :
    ((s.macFree tc).port tc.cp.port).exp = none ∧ (∀ i, (s.macFree tc).ctr .qmgQTx i = s.ctr .qmgQTx i) ∧
      Sent (.eth tc.cp.port (withFcs false (s.copyBytes (s.frm tc.cp.frm) tc.cp.xf)) .complete) (s.macFree tc) := by
  unfold State.macFree
  extract_lets wire x u
  have hu : Trails u (u.sendLast tc wire) := State.trails_sendLast ..
  have hfrm : ((u.sendLast tc wire).frm tc.cp.frm).leg = none := by
    rw [State.frm_congr (State.sendLast_net u tc wire)]
    exact hleg
  rw [State.send_eth hp hstomp hfrm]
  refine ⟨?_, hu.ctr, List.mem_cons_self⟩
  have hport : ((u.sendLast tc wire).emit (.eth tc.cp.port (withFcs false wire) .complete)).port tc.cp.port = u.port tc.cp.port :=
    congrArg (tblGet · PortSt.reset tc.cp.port) hu.ports
  rw [hport]
  exact congrArg PortSt.exp (State.port_setPort ..)

/-- The end of a whole express copy at an Ethernet port. -/
theorem State.finish_spec (hp : tc.cp.port < 16) (hstomp : tc.stomp = none) (hpn : tc.pn = none)
    (hleg : (s.frm tc.cp.frm).leg = none) : ((s.finish tc true).port tc.cp.port).exp = none ∧
      Out.eth tc.cp.port (withFcs false (s.copyBytes (s.frm tc.cp.frm) tc.cp.xf)) .complete ∈ (s.finish tc true).out ∧
      (s.finish tc true).ctr .qmgQTx tc.cp.q = s.ctr .qmgQTx tc.cp.q + 1 := by
  have ht := State.finish_whole (s := s) hstomp hpn
  obtain ⟨hexp, hctr, hsent⟩ := State.macFree_spec hp hstomp hleg
  have hport : (s.finish tc true).port tc.cp.port = (s.macFree tc).port tc.cp.port :=
    congrArg (tblGet · PortSt.reset tc.cp.port) ht.ports
  refine ⟨by rw [hport, hexp], ht.sent _ hsent.bump, ?_⟩
  rw [ht.ctr, State.ctr_bump, if_pos ⟨rfl, rfl⟩, hctr]

/-- A whole express copy ends when the port has no fragment before it. -/
theorem State.copyEnd_whole {p frac : Nat} (hp : p < 16) (hexp : (s.port p).exp = some tc) (hpre : (s.port p).pre = none)
    (htail : (s.frm tc.cp.frm).tail = true) : s.copyEnd p true frac = s.finish tc true := by
  unfold State.copyEnd
  simp only [hexp, hpre, htail, if_true, Option.any_none, Bool.not_true, Bool.and_false, Bool.or_self, Bool.false_eq_true, if_false]
  exact if_neg fun h => absurd h.1 (by omega)

/-- Settles O28: with one eligible copy selection has no choice, and a whole copy leaves before anything else follows its end. -/
theorem copiesBeginAndEnd : Obligations.CopiesBeginAndEnd := by
  intro s p frac hfwd
  refine ⟨fun c hup hq hpair hplca hseg hexp hpre hh hport hcq he hsecy hmem => ?_, fun hup hq hplca hh hpre hexp => ?_,
    fun tc hp hlanes hexp hpre hport hstomp hpn htail hleg => ?_⟩
  · have hgo : (s.forwards && s.linkUp p && !s.quiet && !s.pairOn p && !s.plcaHeld p && !s.segBusy p) = true := by
      simp [hfwd, hup, hq, hpair, hplca, hseg]
    obtain ⟨urg, e⟩ := State.opportunity_single (frac := frac) hexp hpre hh hcq he hmem
    rw [← hport] at hsecy hexp hpre
    obtain ⟨tc, htc, hqueue, hmac⟩ := State.begin_idle (urg := urg) (frac := frac) hsecy hexp hpre
    rw [hport] at hmac
    exact ⟨_, tc, congrArg Host.Outcome.next ((if_pos hgo).trans e), hqueue, hmac, htc.cp, htc.atTick, htc.sent, htc.stomp⟩
  · refine congrArg Host.Outcome.next ?_
    split
    · exact State.opportunity_empty hexp hpre hh .clean
    · rfl
  · have hfin := State.finish_spec (s := s) (tc := tc) (by rw [hport]; exact hp) hstomp hpn hleg
    rw [hport] at hfin
    refine ⟨_, congrArg Host.Outcome.next ?_, hfin⟩
    rw [if_pos hfwd, hlanes]
    exact State.copyEnd_whole hp hexp hpre htail

end Sys2Proof.Machine
end

section
/-! ## Registers of the time base -/

namespace Sys2Proof.Machine

open Sys2Proof

variable {s t : State} {r : Reg} {i : Nat} {data : Word}

/-! ### Writes -/

@[simp] theorem State.writeReg_tim (s : State) (r : Reg) (i : Nat) (data : Word) : (s.writeReg r i data).tim = s.tim :=
  (quiet_writeReg s r i data).tim

/-- A write leaves every register but the one that it names, and those of events, as it is. -/
theorem State.rd_writeReg_ne {q : Reg} {j : Nat} (hq : ¬(q = r ∧ j = i)) (he : q ∉ eventRegs) :
    (s.writeReg r i data).rd q j = s.rd q j := by
  rw [(quiet_writeReg s r i data).rd q j he, State.rd_wr, if_neg hq]

theorem getBits_word (w : Word) : getBits w 31 0 = w.toNat := by
  have := w.isLt
  unfold getBits
  omega

/-- A register of one field that fills its word takes an allowed word. -/
theorem State.writeReg_word {c : Chk} (s : State) (i : Nat) (hr : r.info.fields = [⟨31, 0, .rw, c⟩]) (hok : c.ok data.toNat = true) :
    s.writeReg r i data = s.wr r i data := by
  have hfield : ∀ f ∈ r.info.fields, f.chk.ok (getBits data f.hi f.lo) = true := by
    rw [hr]
    intro f hf
    rw [List.mem_singleton.mp hf, getBits_word]
    exact hok
  have hword : getBits (s.merged r i data) 31 0 = getBits data 31 0 :=
    getBits_mergeFields (by rw [hr]; rfl) _ (g := ⟨31, 0, .rw, c⟩) (by rw [hr]; exact List.mem_cons_self) rfl
      (hfield _ (by rw [hr]; exact List.mem_cons_self))
  rw [getBits_word, getBits_word] at hword
  rw [State.writeReg_allowed hfield, BitVec.eq_of_toNat_eq hword]

/-- A register of one field keeps its word when the value is not allowed (R487). -/
theorem State.writeReg_refused {f : FieldInfo} (s : State) (i : Nat) (hr : r.info.fields = [f]) (hrw : f.acc = .rw)
    (hok : f.chk.ok (getBits data f.hi f.lo) = false) : s.writeReg r i data = (s.wr r i (s.rd r i)).accessErr r.info.blk := by
  have htake : mergeFields data r.info.fields (s.rd r i, false) = (s.rd r i, true) := by
    rw [hr, mergeFields_cons]
    simp only [FieldInfo.take, hrw, hok, Bool.false_eq_true, if_false, mergeFields]
  unfold State.writeReg
  simp only [htake, if_true]

/-! ### What a time base that is refused shows -/

/-- The status bit of ACCESS_ERR of the time base. -/
theorem State.statBit_accessErr_tim (s : State) :
    getBit ((s.accessErr .tim).rd .evtStat (Ev.accessErr .tim / 32)) (Ev.accessErr .tim % 32) = true :=
  State.statBit_raise (by decide)

/-- A refused write of a register of one field leaves its word. -/
theorem State.writeReg_refused_spec {f : FieldInfo} (s : State) (i : Nat) (hr : r.info.fields = [f]) (hrw : f.acc = .rw)
    (hb : r.info.blk = .tim) (hok : f.chk.ok (getBits data f.hi f.lo) = false) (he : r ∉ eventRegs) :
    (s.writeReg r i data).rd r i = s.rd r i ∧
      getBit ((s.writeReg r i data).rd .evtStat (Ev.accessErr .tim / 32)) (Ev.accessErr .tim % 32) = true := by
  rw [State.writeReg_refused s i hr hrw hok, hb]
  exact ⟨(State.rd_accessErr _ _ _ _ he).trans (State.rd_wr_same ..), State.statBit_accessErr_tim _⟩

end Sys2Proof.Machine
end

section
/-! ## What tide tables do when a domain leaves or jumps (R230, R231) -/

namespace Sys2Proof.Machine

open Sys2Proof

variable {s t : State}

/-- The registers that tide tables and stream gates change. -/
def tideRegs : List Reg := eventRegs ++ [.tgaStat, .schGateOper, .schGateOper0, .schGateOper1]

/-- `t` has the time base of `s`, and its registers but for `tideRegs`. -/
structure Tided (s t : State) : Prop where
  tim : t.tim = s.tim
  rd : ∀ r i, r ∉ tideRegs → t.rd r i = s.rd r i

namespace Tided

theorem refl (s : State) : Tided s s := ⟨rfl, fun _ _ _ => rfl⟩

theorem ite {a b : State} {c : Prop} [Decidable c] (ha : Tided s a) (hb : Tided s b) : Tided s (if c then a else b) := by
  split
  exacts [ha, hb]

variable (h : Tided s t)
include h

theorem fld {f : RegField} {i : Nat} (hf : f.reg ∉ tideRegs) : t.fld f i = s.fld f i :=
  congrArg (getBits · f.hi f.lo) (h.rd f.reg i hf)

/-- Parts of the state other than the time base and the registers may change. -/
theorem frame {pending now free out phys op prevOp cause leftOp ctrs hold stage hbr mqs mem pwr boot mram flash win pair red net keys} :
    Tided s ⟨pending, now, free, out, phys, op, prevOp, cause, leftOp, t.regs, ctrs, hold, stage, t.tim, hbr, mqs, mem, pwr, boot,
      mram, flash, win, pair, red, net, keys⟩ := ⟨h.tim, h.rd⟩

theorem quiet {u : State} (q : Quiet t u) : Tided s u :=
  ⟨q.tim.trans h.tim, fun r i hr => (q.rd r i (mt (List.mem_append_left _) hr)).trans (h.rd r i hr)⟩

theorem wr {r : Reg} {i : Nat} {w : Word} (hr : r ∈ tideRegs := by decide) : Tided s (t.wr r i w) :=
  ⟨h.tim, fun q j hq => (State.rd_wr_reg t r q i j w fun e => hq (e ▸ hr)).trans (h.rd q j hq)⟩

theorem foldl {α : Type} {f : State → α → State} {l : List α} (hf : ∀ u a, Tided s u → Tided s (f u a)) :
    Tided s (l.foldl f t) := List.foldlRecOn l f h fun u hu a _ => hf u a hu

theorem raise {src : Nat} : Tided s (t.raise src) := h.quiet (quiet_raise ..)

theorem memWrite {m a b : Nat} : Tided s (t.memWrite m a b) := h.quiet (quiet_memWrite ..)

theorem lateMark {p : Nat} : Tided s (t.lateMark p) := ite h h.frame

theorem tideTakeover {p : Nat} : Tided s (t.tideTakeover p) :=
  raise (lateMark (frame (h.foldl fun _ _ h1 => h1.memWrite.memWrite)))

theorem gateTakeover {g : Nat} : Tided s (t.gateTakeover g) := wr (frame (h.foldl fun _ _ h1 => h1.wr.wr))

theorem tideIdle {p : Nat} : Tided s (t.tideIdle p) := by
  unfold State.tideIdle
  split
  · exact raise (wr h.wr.frame)
  · exact raise (wr h.frame)

theorem tideDomainOff {d : Nat} : Tided s (t.tideDomainOff d) :=
  foldl (h.foldl fun _ _ h1 => ite h1.tideIdle h1) fun _ _ h1 => ite h1.frame.wr h1

theorem tideDomainJump {d : Nat} : Tided s (t.tideDomainJump d) := by
  refine foldl (h.foldl fun u x h1 => ?_) fun _ _ h1 => ite h1.gateTakeover (ite h1.frame h1)
  have hx : Tided s (if x.2.dom = d then u.setPort x.1 { u.port x.1 with defer := [] } else u) := ite h1.frame h1
  exact ite hx.tideTakeover (ite hx.frame.lateMark hx)

end Tided

end Sys2Proof.Machine
end

section
/-! ## Domain clocks (R197 to R201, R211) -/

namespace Sys2Proof.Machine

open Sys2Proof

variable {s : State} {p : Path} {d : Nat} {data : Word}

theorem State.dom_setDom (s : State) (d e : Nat) (x : Dom) : (s.setDom d x).dom e = if e = d then x else s.dom e :=
  tblGet_set _ _ _ _ _ _ fun _ => rfl

theorem State.dom_congr {t : State} (h : t.tim = s.tim) (d : Nat) : t.dom d = s.dom d := by
  rw [State.dom, h, State.dom]

/-! ### TIM_DOM_CFG (R211) -/

/-- A write of TIM_DOM_CFG enables a domain under the number of another enabled one. -/
def State.domClash (s : State) (d : Fin 4) (data : Word) : Prop :=
  F.timDomCfg_en.of data = 1 ∧
    ∃ e : Fin 4, e ≠ d ∧ s.on F.timDomCfg_en e = true ∧ s.fld F.timDomCfg_ptp_dom e = F.timDomCfg_ptp_dom.of data

theorem RegField.of_bit {f : RegField} (h : f.hi = f.lo) (w : Word) : f.of w = 0 ∨ f.of w = 1 := by
  have hlt : f.of w < 2 ^ (f.hi - f.lo + 1) := Nat.mod_lt _ (by positivity)
  rw [h, Nat.sub_self] at hlt
  omega

/-- A field of one bit that is on is 1. -/
theorem State.on_iff {f : RegField} (h : f.hi = f.lo) (i : Nat) : s.on f i = true ↔ s.fld f i = 1 := by
  have hbit : s.fld f i = 0 ∨ s.fld f i = 1 := RegField.of_bit h (s.rd f.reg i)
  rw [State.on, bne_iff_ne]
  omega

theorem ptpDom_allowed (h : F.timDomCfg_ptp_dom.of data ≤ 127) : (Chk.rng 0 127).ok (F.timDomCfg_ptp_dom.of data) = true := by
  simpa [Chk.ok] using h

theorem State.wrDomCfg_eq (s : State) (d : Fin 4) (hdom : F.timDomCfg_ptp_dom.of data ≤ 127) [Decidable (s.domClash d data)] :
    s.wrDomCfg d data = if s.domClash d data then s.accessErr .tim
      else if s.on F.timDomCfg_en d && !(s.writeReg .timDomCfg d data).on F.timDomCfg_en d
        then (s.writeReg .timDomCfg d data).tideDomainOff d else s.writeReg .timDomCfg d data := by
  have hen : F.timDomCfg_en.of (s.merged .timDomCfg d data) = F.timDomCfg_en.of data :=
    State.fld_merged s d .any rfl (by decide) rfl
  have hptp : F.timDomCfg_ptp_dom.of (s.merged .timDomCfg d data) = F.timDomCfg_ptp_dom.of data :=
    State.fld_merged s d (.rng 0 127) rfl (by decide) (ptpDom_allowed hdom)
  have hbit := RegField.of_bit (f := F.timDomCfg_en) rfl data
  have hclash : (F.timDomCfg_en.of (s.merged .timDomCfg d data) != 0 && (List.range 4).any fun e => e != d.val &&
      s.on F.timDomCfg_en e && s.fld F.timDomCfg_ptp_dom e == F.timDomCfg_ptp_dom.of (s.merged .timDomCfg d data)) = true ↔
      s.domClash d data := by
    rw [hen, hptp, Bool.and_eq_true, List.any_eq_true, bne_iff_ne, State.domClash]
    refine and_congr (by omega) ⟨fun ⟨e, he, h⟩ => ?_, fun ⟨e, hne, hon, hf⟩ => ⟨e.val, List.mem_range.mpr e.isLt, ?_⟩⟩
    · simp only [Bool.and_eq_true, bne_iff_ne, beq_iff_eq] at h
      exact ⟨⟨e, List.mem_range.mp he⟩, fun h1 => h.1.1 (congrArg Fin.val h1), h.1.2, h.2⟩
    · simp only [Bool.and_eq_true, bne_iff_ne, beq_iff_eq]
      exact ⟨⟨fun h1 => hne (Fin.ext h1), hon⟩, hf⟩
  unfold State.wrDomCfg
  exact if_congr hclash rfl rfl

theorem State.wrDomCfg_clash {d : Fin 4} (hdom : F.timDomCfg_ptp_dom.of data ≤ 127) (h : s.domClash d data) :
    s.wrDomCfg d data = s.accessErr .tim := by
  classical
  rw [State.wrDomCfg_eq s d hdom, if_pos h]

/-- A write without a clash writes the register; a domain that it disables takes its tide tables with it (R230). -/
theorem State.wrDomCfg_free {d : Fin 4} (hdom : F.timDomCfg_ptp_dom.of data ≤ 127) (h : ¬s.domClash d data) :
    Tided (s.writeReg .timDomCfg d data) (s.wrDomCfg d data) := by
  classical
  rw [State.wrDomCfg_eq s d hdom, if_neg h]
  exact .ite (Tided.refl _).tideDomainOff (.refl _)

theorem State.wrDomCfg_free_spec {d : Fin 4} (hdom : F.timDomCfg_ptp_dom.of data ≤ 127) (h : ¬s.domClash d data) :
    (s.wrDomCfg d data).fld F.timDomCfg_en d = F.timDomCfg_en.of data ∧
      (s.wrDomCfg d data).fld F.timDomCfg_ptp_dom d = F.timDomCfg_ptp_dom.of data ∧ (s.wrDomCfg d data).tim = s.tim := by
  have ht := State.wrDomCfg_free hdom h
  refine ⟨(ht.fld (by decide)).trans ?_, (ht.fld (by decide)).trans ?_, ht.tim.trans (State.writeReg_tim ..)⟩
  · exact State.fld_writeReg s d .any rfl (by decide) rfl
  · exact State.fld_writeReg s d (.rng 0 127) rfl (by decide) (ptpDom_allowed hdom)

/-! ### Frequencies and slew rates (R198, R200) -/

/-- The tick of a write of a rate: the time base changes in nothing but the kept rates, and no domain's rates change. -/
def RatesKept (s t : State) : Prop := t.tim = { s.tim with rates := t.tim.rates } ∧ ∀ e : Fin 4, t.domRates e = s.domRates e

theorem State.rd_wrDomRate (s : State) (r q : Reg) (d j : Nat) (data : Word) :
    (s.wrDomRate r d data).rd q j = (s.writeReg r d data).rd q j := rfl

theorem State.wrDomRate_ratesKept {r : Reg} (s : State) (d : Nat) (data : Word) :
    RatesKept s (s.wrDomRate r d data) := by
  have hrates : (s.wrDomRate r d data).tim.rates = tblSet s.tim.rates none d (some (s.domRates d)) :=
    congrArg (fun m : Tim => tblSet m.rates none d (some (s.domRates d))) (State.writeReg_tim s r d data)
  refine ⟨?_, fun e => ?_⟩
  · exact congrArg (fun m : Tim => { m with rates := (s.wrDomRate r d data).tim.rates }) (State.writeReg_tim s r d data)
  · rw [State.domRates, hrates, tblGet_set _ _ _ _ _ _ fun _ => rfl]
    by_cases he : e.val = d
    · rw [if_pos he, Option.getD_some, he]
    · have hfreq : (s.wrDomRate r d data).rd .timDomFreq e = s.rd .timDomFreq e :=
        State.rd_writeReg_ne (fun h => he h.2) (by decide)
      have hslew : (s.wrDomRate r d data).rd .timDomSlewCfg e = s.rd .timDomSlewCfg e :=
        State.rd_writeReg_ne (fun h => he h.2) (by decide)
      rw [if_neg he, hfreq, hslew, State.domRates]

theorem freq_ok_iff : (Chk.srng 32 (-1024000000) 1024000000).ok data.toNat = true ↔
    -1024000000 ≤ data.toInt ∧ data.toInt ≤ 1024000000 := by
  simp only [Chk.ok, BitVec.ofNat_toNat, BitVec.setWidth_eq, Bool.and_eq_true, decide_eq_true_eq]

theorem State.wrDomFreq_allowed (s : State) (d : Nat) (hlo : -1024000000 ≤ data.toInt) (hhi : data.toInt ≤ 1024000000) :
    (s.wrDomRate .timDomFreq d data).rd .timDomFreq d = data ∧ regsBut [.timDomFreq] s (s.wrDomRate .timDomFreq d data) := by
  have hw : s.writeReg .timDomFreq d data = s.wr .timDomFreq d data := State.writeReg_word s d rfl (freq_ok_iff.mpr ⟨hlo, hhi⟩)
  have hrd (q : Reg) (j : Nat) := (State.rd_wrDomRate s .timDomFreq q d j data).trans (congrArg (fun u : State => u.rd q j) hw)
  exact ⟨(hrd ..).trans (State.rd_wr_same ..), fun q j hq => (hrd q j).trans (regsBut_wr s _ _ _ q j hq)⟩

theorem State.wrDomFreq_refused (s : State) (d : Nat) (h : data.toInt < -1024000000 ∨ 1024000000 < data.toInt) :
    (s.wrDomRate .timDomFreq d data).rd .timDomFreq d = s.rd .timDomFreq d ∧
      getBit ((s.wrDomRate .timDomFreq d data).rd .evtStat (Ev.accessErr .tim / 32)) (Ev.accessErr .tim % 32) = true := by
  refine State.writeReg_refused_spec s d rfl rfl rfl ?_ (by decide)
  rw [getBits_word, Bool.eq_false_iff, ne_eq, freq_ok_iff]
  omega

theorem State.wrSlewRate_allowed (s : State) (d : Nat) (h1 : 1 ≤ F.timDomSlewCfg_slew_ppm.of data)
    (h2 : F.timDomSlewCfg_slew_ppm.of data ≤ 1000) :
    (s.wrDomRate .timDomSlewCfg d data).fld F.timDomSlewCfg_slew_ppm d = F.timDomSlewCfg_slew_ppm.of data :=
  State.fld_writeReg s d (.rng 1 1000) rfl (by decide) (by simp [Chk.ok, h1, h2])

theorem State.wrSlewRate_refused (s : State) (d : Nat)
    (h : F.timDomSlewCfg_slew_ppm.of data = 0 ∨ 1000 < F.timDomSlewCfg_slew_ppm.of data) :
    (s.wrDomRate .timDomSlewCfg d data).fld F.timDomSlewCfg_slew_ppm d = s.fld F.timDomSlewCfg_slew_ppm d ∧
      getBit ((s.wrDomRate .timDomSlewCfg d data).rd .evtStat (Ev.accessErr .tim / 32)) (Ev.accessErr .tim % 32) = true := by
  have hok : (Chk.rng 1 1000).ok (F.timDomSlewCfg_slew_ppm.of data) = false := by
    simp only [Chk.ok, Bool.and_eq_false_iff, decide_eq_false_iff_not]
    omega
  obtain ⟨hrd, hbit⟩ := State.writeReg_refused_spec (r := .timDomSlewCfg) s d rfl rfl rfl hok (by decide)
  exact ⟨congrArg (getBits · 9 0) hrd, hbit⟩

/-! ### Sets and steps are committed (R199) -/

theorem ptpNs_cut (a b c : Word) : ptpNs (a, b, BitVec.ofNat 32 (c.toNat % 65536)) = ptpNs (a, b, c) := by
  have h : (BitVec.ofNat 32 (c.toNat % 65536)).toNat % 65536 = c.toNat % 65536 := by
    rw [BitVec.toNat_ofNat]
    omega
  simp only [ptpNs, h]

theorem State.wrDomSet_inRange {ns w1 w2 : Word} (h : ns.toNat < 1000000000)
    (h1 : tblFind s.stage (pairKey p (Reg.timDomSet.addr (3 * d) + 4)) = some w1)
    (h2 : tblFind s.stage (pairKey p (Reg.timDomSet.addr (3 * d) + 8)) = some w2) :
    (s.wrDomSet p d ns).tim = { s.tim with jumps := s.tim.jumps ++ [⟨s.tim.lt, d, true, ptpNs (ns, w1, w2)⟩] } := by
  unfold State.wrDomSet
  rw [State.ptpTake_inRange h h1 h2, ← ptpNs_cut ns w1 w2]
  rfl

theorem domHolds_iff {v : Int} : domHolds v = true ↔ 0 ≤ v ∧ v < 2 ^ 48 * 1000000000 * 2 ^ 48 := by
  rw [domHolds, Bool.and_eq_true, decide_eq_true_eq, decide_eq_true_eq]

/-- The state in which a committed step has been taken from the staging register into TIM_DOM_STEP. -/
def State.stepTaken (s : State) (p : Path) (d : Nat) (lo hi : Word) : State :=
  ((s.unstage p (Reg.timDomStep.addr (2 * d) + 4) 0).2.wr .timDomStep (2 * d) lo).wr .timDomStep (2 * d + 1) hi

section Step

variable {lo hi : Word} {step : Int} (hst : tblFind s.stage (pairKey p (Reg.timDomStep.addr (2 * d) + 4)) = some hi)
  (hstep : (BitVec.ofNat 64 (hi.toNat * 4294967296 + lo.toNat)).toInt = step)
include hst hstep

/-- A step is tested on the time that the commits before it leave. -/
theorem State.wrDomStep_eq : s.wrDomStep p d lo =
    if step.natAbs < 2 ^ 62 ∧ domHolds (s.domNext d + step * 2 ^ 48) = true then (s.stepTaken p d lo hi).domCommit d false step
    else (s.stepTaken p d lo hi).accessErr .tim := by
  subst hstep
  unfold State.wrDomStep State.unstage
  simp only [hst, Option.getD_some]
  rfl

theorem State.wrDomStep_held (hsize : step.natAbs < 2 ^ 62) (hheld : domHolds (s.domNext d + step * 2 ^ 48) = true) :
    (s.wrDomStep p d lo).tim = { s.tim with jumps := s.tim.jumps ++ [⟨s.tim.lt, d, false, step⟩] } := by
  rw [State.wrDomStep_eq hst hstep, if_pos ⟨hsize, hheld⟩]
  rfl

theorem State.wrDomStep_refused (hno : ¬(step.natAbs < 2 ^ 62 ∧ domHolds (s.domNext d + step * 2 ^ 48) = true)) :
    (s.wrDomStep p d lo).tim = s.tim ∧
      getBit ((s.wrDomStep p d lo).rd .evtStat (Ev.accessErr .tim / 32)) (Ev.accessErr .tim % 32) = true ∧
      (s.wrDomStep p d lo).fld F.timDomStat_step_count d = s.fld F.timDomStat_step_count d := by
  rw [State.wrDomStep_eq hst hstep, if_neg hno]
  refine ⟨State.accessErr_tim .., State.statBit_accessErr_tim _, ((quiet_accessErr _ .tim).fld (by decide)).trans ?_⟩
  exact congrArg (getBits · 15 0) ((State.rd_wr_reg _ _ _ _ _ _ (by decide)).trans (State.rd_wr_reg _ _ _ _ _ _ (by decide)))

end Step

/-! ### Sets and steps take effect (R199) -/

/-- A jump of a domain sets its time, cancels its slew, counts and raises TIME_STEP. -/
theorem State.domJump_spec (s : State) (d val : Nat) : (s.domJump d val).dom d = ⟨val, 0, false⟩ ∧
    (s.domJump d val).tim.jumps = s.tim.jumps ∧
    (s.domJump d val).fld F.timDomStat_step_count d = (s.fld F.timDomStat_step_count d + 1) % 65536 ∧
    getBit ((s.domJump d val).rd .evtStat (Ev.timeStep / 32)) (Ev.timeStep % 32) = true := by
  let u := (s.setDom d ⟨val, 0, false⟩).setFld F.timDomStat_step_count d (s.fld F.timDomStat_step_count d + 1)
  have ht : Tided (u.ppsJump d) (s.domJump d val) := (Tided.refl _).tideDomainJump.raise
  refine ⟨?_, (congrArg Tim.jumps ht.tim).trans rfl, ?_, State.statBit_raise (by decide)⟩
  · exact (State.dom_congr ht.tim d).trans ((s.dom_setDom d d _).trans (if_pos rfl))
  · refine (ht.fld (by decide)).trans ?_
    exact State.fld_setFld_same (s.setDom d ⟨val, 0, false⟩) _ _ _ (by decide) (by decide)

section Jump

variable {j : Jump} (hj : s.tim.jumps = [j])
include hj

/-- A set or step of an earlier tick leaves the queue and takes effect. -/
theorem State.applyJumps_due (h : j.at_ < s.tim.lt) : s.applyJumps = State.applyJump { s with tim := { s.tim with jumps := [] } } j := by
  have hdue : decide (j.at_ < s.tim.lt) = true := decide_eq_true h
  unfold State.applyJumps
  simp only [hj, List.filter_cons, List.filter_nil, hdue, Bool.not_true, Bool.false_eq_true, if_false, if_true, List.foldl_cons,
    List.foldl_nil]

theorem State.applyJumps_early (h : s.tim.lt ≤ j.at_) : s.applyJumps = s := by
  have hdue : decide (j.at_ < s.tim.lt) = false := decide_eq_false (Nat.not_lt.mpr h)
  unfold State.applyJumps
  simp only [hj, List.filter_cons, List.filter_nil, hdue, Bool.not_false, Bool.false_eq_true, if_false, if_true, List.foldl_nil]
  rw [← hj]

variable {v : Int} (hv : j.to (s.dom j.dom).val = v) (hdue : j.at_ < s.tim.lt)
include hv hdue

theorem State.applyJumps_held (hheld : domHolds v = true) :
    s.applyJumps = State.domJump { s with tim := { s.tim with jumps := [] } } j.dom v.toNat := by
  subst hv
  rw [State.applyJumps_due hj hdue]
  exact if_pos hheld

theorem State.applyJumps_refused (hout : domHolds v = false) :
    s.applyJumps = State.accessErr { s with tim := { s.tim with jumps := [] } } .tim := by
  subst hv
  rw [State.applyJumps_due hj hdue]
  exact if_neg (Bool.eq_false_iff.mp hout)

end Jump

/-! ### Slews and snapshots (R200, R201) -/

theorem State.dom_wrDomSlew (s : State) (d : Nat) (a : Word) :
    (s.wrDomSlew d a).dom d = { s.dom d with rem := a.toInt * 800000, slewing := decide (a.toInt ≠ 0) } := by
  refine (State.dom_setDom ..).trans ((if_pos rfl).trans ?_)
  rw [decide_not, bne, beq_eq_decide]

theorem State.dom_wrDomSlew_other {e : Nat} (s : State) (a : Word) (h : e ≠ d) : (s.wrDomSlew d a).dom e = s.dom e :=
  (State.dom_setDom ..).trans (if_neg h)

/-- A slew whose remainder is zero ends. -/
theorem exec_slewEnd {d : Fin 4} (hslew : (s.dom d).slewing = true) (hrem : (s.dom d).rem = 0) :
    exec (.slewEnd d) s = .next (s.setDom d ⟨(s.dom d).val, 0, false⟩) := by
  rw [← hrem]
  exact congrArg Host.Outcome.next (if_pos (by rw [hslew, hrem]; rfl))

/-- The snapshots of the first `n` domains. -/
def State.snapDoms (s : State) (n : Nat) : State :=
  (List.range n).foldl (fun s d => s.ptpWrite .timSnapDom (3 * d) (ptpOf (s.domNs d))) s

theorem State.snapDoms_succ (s : State) (n : Nat) :
    s.snapDoms (n + 1) = (s.snapDoms n).ptpWrite .timSnapDom (3 * n) (ptpOf ((s.snapDoms n).domNs n)) := by
  simp only [State.snapDoms, List.range_succ, List.foldl_append, List.foldl_cons, List.foldl_nil]

theorem State.rd_ptpWrite_other {r q : Reg} (s : State) (i j : Nat) (v : Word × Word × Word) (h : q ≠ r) :
    (s.ptpWrite r i v).rd q j = s.rd q j := by
  simp only [State.ptpWrite, State.rd_wr, h, false_and, if_false]

theorem State.ptpRead_ptpWrite (s : State) (r : Reg) (d e : Nat) (v : Word × Word × Word) :
    (s.ptpWrite r (3 * d) v).ptpRead r (3 * e) = if e = d then v else s.ptpRead r (3 * e) := by
  simp only [State.ptpRead, State.ptpWrite, State.rd_wr, true_and]
  by_cases h : e = d
  · subst h
    simp
  · simp only [h, if_false, show ¬3 * e = 3 * d + 2 by omega, show ¬3 * e = 3 * d + 1 by omega, show ¬3 * e = 3 * d by omega,
      show ¬3 * e + 1 = 3 * d + 2 by omega, show ¬3 * e + 1 = 3 * d + 1 by omega, show ¬3 * e + 1 = 3 * d by omega,
      show ¬3 * e + 2 = 3 * d + 2 by omega, show ¬3 * e + 2 = 3 * d + 1 by omega, show ¬3 * e + 2 = 3 * d by omega]

/-- The snapshots are all of one tick: they leave the time base and every other register as they are. -/
theorem State.snapDoms_spec (s : State) (n : Nat) : (s.snapDoms n).tim = s.tim ∧ regsBut [.timSnapDom] s (s.snapDoms n) ∧
    ∀ e < n, (s.snapDoms n).ptpRead .timSnapDom (3 * e) = ptpOf (s.domNs e) := by
  induction n with
  | zero => exact ⟨rfl, fun _ _ _ => rfl, fun e he => absurd he (Nat.not_lt_zero e)⟩
  | succ n ih =>
    obtain ⟨htim, hregs, hread⟩ := ih
    rw [State.snapDoms_succ]
    refine ⟨htim, fun q j hq => ?_, fun e he => ?_⟩
    · exact (State.rd_ptpWrite_other _ _ _ _ (List.ne_of_not_mem_cons hq)).trans (hregs q j hq)
    · rw [State.ptpRead_ptpWrite]
      by_cases hen : e = n
      · rw [if_pos hen, hen, State.domNs, State.dom_congr htim, State.domNs]
      · rw [if_neg hen, hread e (by omega)]

theorem State.snapshot_spec (s : State) :
    (s.snapshot.rd .timSnapLt 1).toNat * 4294967296 + (s.snapshot.rd .timSnapLt 0).toNat = s.ltNs % 2 ^ 64 ∧
      (∀ e : Fin 4, s.snapshot.ptpRead .timSnapDom (3 * e) = ptpOf (s.domNs e)) ∧ regsBut [.timSnapLt, .timSnapDom] s s.snapshot := by
  let u := (s.wr .timSnapLt 0 (BitVec.ofNat 32 s.ltNs)).wr .timSnapLt 1 (BitVec.ofNat 32 (s.ltNs / 4294967296))
  obtain ⟨-, hregs, hread⟩ : (u.snapDoms 4).tim = u.tim ∧ regsBut [.timSnapDom] u (u.snapDoms 4) ∧ _ := u.snapDoms_spec 4
  refine ⟨?_, fun e => hread e e.isLt, fun q j hq => ?_⟩
  · have h1 : s.snapshot.rd .timSnapLt 1 = BitVec.ofNat 32 (s.ltNs / 4294967296) :=
      (hregs _ _ (by decide)).trans (State.rd_wr_same ..)
    have h0 : s.snapshot.rd .timSnapLt 0 = BitVec.ofNat 32 s.ltNs :=
      (hregs _ _ (by decide)).trans (by simp [u, State.rd_wr])
    rw [h1, h0, BitVec.toNat_ofNat, BitVec.toNat_ofNat]
    omega
  · have hlt : q ≠ .timSnapLt := List.ne_of_not_mem_cons hq
    exact (hregs q j (List.not_mem_of_not_mem_cons hq)).trans ((State.rd_wr_reg _ _ _ _ _ _ hlt).trans (State.rd_wr_reg _ _ _ _ _ _ hlt))

/-- Settles O42: each write is a write of a register with one rule for the domain, and a jump that is due is the only one that waits. -/
theorem domainClockCommands : Obligations.DomainClockCommands := by
  intro s p d tim later waits jumped
  refine ⟨fun data hs hdom => ⟨fun hclash => ?_, fun hfree => ?_⟩, fun data hs => ⟨fun hlo hhi => ?_, fun hout => ?_⟩,
    fun ns w1 w2 hs h1 h2 => ⟨fun hns => ?_, fun hns => ?_⟩, fun lo hi hs hst => ?_, fun at_ set v hj => ?_, fun a hs => ?_,
    fun data hs => ⟨fun hlo hhi => ?_, fun hout => ?_⟩, fun hslew hrem => ?_, fun hs => ?_⟩
  · refine ⟨_, next_of_serves hs (State.wrDomCfg_clash (s := s.nextSeq p) hdom hclash), ?_, State.statBit_accessErr_tim _⟩
    exact State.rd_accessErr (s.nextSeq p) .tim _ _ (by decide)
  · exact ⟨_, next_of_serves hs rfl, State.wrDomCfg_free_spec (s := s.nextSeq p) hdom hfree⟩
  · obtain ⟨hrd, hregs⟩ := State.wrDomFreq_allowed (s.nextSeq p) d hlo hhi
    exact ⟨_, next_of_serves hs rfl, hrd, hregs, State.wrDomRate_ratesKept (s.nextSeq p) d data⟩
  · exact ⟨_, next_of_serves hs rfl, State.wrDomFreq_refused (s.nextSeq p) d hout⟩
  · exact ⟨_, next_of_serves hs rfl, State.wrDomSet_inRange (s := s.nextSeq p) hns h1 h2⟩
  · refine ⟨_, next_of_serves hs (State.wrDomSet_outOfRange (s.nextSeq p) p d hns), ?_, State.statBit_accessErr_tim _⟩
    exact State.accessErr_tim ..
  · intro step new
    refine ⟨fun hsize hlo hhi => ⟨_, next_of_serves hs rfl, ?_⟩, fun hout => ⟨_, next_of_serves hs rfl, ?_⟩⟩
    · exact State.wrDomStep_held (s := s.nextSeq p) hst rfl hsize (domHolds_iff.mpr ⟨hlo, hhi⟩)
    · refine State.wrDomStep_refused (s := s.nextSeq p) hst rfl fun ⟨hsize, hheld⟩ => ?_
      have hnew : 0 ≤ new ∧ new < 2 ^ 48 * 1000000000 * 2 ^ 48 := domHolds_iff.mp hheld
      omega
  · intro new
    refine ⟨fun hdue hlo hhi => ?_, fun hdue hneg => ?_, State.applyJumps_early hj⟩
    · rw [State.applyJumps_held hj (v := new) rfl hdue (domHolds_iff.mpr ⟨hlo, hhi⟩)]
      exact State.domJump_spec ..
    · have hout : domHolds new = false := Bool.eq_false_iff.mpr fun h => absurd (domHolds_iff.mp h).1 (Int.not_le.mpr hneg)
      rw [State.applyJumps_refused hj (v := new) rfl hdue hout]
      exact ⟨State.dom_congr (State.accessErr_tim ..) d, State.statBit_accessErr_tim _⟩
  · refine ⟨_, next_of_serves hs rfl, State.dom_wrDomSlew (s.nextSeq p) d a, fun e => State.dom_wrDomSlew_other (s.nextSeq p) a, ?_⟩
    simp [keeps, Part.same, State.wrDomSlew, State.setDom]
  · exact ⟨_, next_of_serves hs rfl, State.wrSlewRate_allowed (s.nextSeq p) d hlo hhi,
      State.wrDomRate_ratesKept (s.nextSeq p) d data⟩
  · exact ⟨_, next_of_serves hs rfl, State.wrSlewRate_refused (s.nextSeq p) d hout⟩
  · refine ⟨_, exec_slewEnd hslew hrem, (State.dom_setDom ..).trans (if_pos rfl), ?_⟩
    simp [keeps, Part.same, State.setDom]
  · exact ⟨_, next_of_serves hs rfl, State.snapshot_spec (s.nextSeq p)⟩

end Sys2Proof.Machine
end

section
/-! ## Periodic outputs (R218, R219) -/

namespace Sys2Proof.Machine

open Sys2Proof

variable {s : State} {p : Path} {m : Nat} {data : Word}

theorem State.pps_setPps (s : State) (m : Nat) (x : Pps) : (s.setPps m x).pps m = x := tblGet_set_same ..

@[simp] theorem State.on_setPps (s : State) (m : Nat) (x : Pps) (f : RegField) (i : Nat) : (s.setPps m x).on f i = s.on f i := rfl
@[simp] theorem State.pps_setFld (s : State) (f : RegField) (i v m : Nat) : (s.setFld f i v).pps m = s.pps m := rfl

theorem State.pps_congr {t : State} (h : t.tim = s.tim) (m : Nat) : t.pps m = s.pps m := by
  rw [State.pps, h, State.pps]

/-! ### The configuration -/

/-- The configuration register of an output has been written, and nothing has followed from it. -/
def State.ppsWritten (s : State) (m : Nat) (data : Word) : State := s.writeReg .timPpsCfg m data

@[simp] theorem State.ppsWritten_tim (s : State) (m : Nat) (data : Word) : (s.ppsWritten m data).tim = s.tim :=
  State.writeReg_tim ..

theorem State.rd_ppsWritten {r : Reg} (s : State) (m i : Nat) (data : Word) (hr : r ≠ .timPpsCfg) (he : r ∉ eventRegs) :
    (s.ppsWritten m data).rd r i = s.rd r i := State.rd_writeReg_other i hr he

theorem State.en_ppsWritten (s : State) (m : Nat) (data : Word) :
    (s.ppsWritten m data).on F.timPpsCfg_en m = (F.timPpsCfg_en.of data != 0) :=
  congrArg (· != 0) (State.fld_writeReg s m (f := F.timPpsCfg_en) .any rfl (by decide) rfl)

theorem State.dom_ppsWritten (s : State) (m : Nat) (data : Word) :
    (s.ppsWritten m data).fld F.timPpsCfg_dom m = F.timPpsCfg_dom.of data :=
  State.fld_writeReg s m .any rfl (by decide) rfl

/-- A write of the configuration leaves the schedule in the registers as it is. -/
theorem State.ppsValid_ppsWritten (s : State) (m : Nat) (data : Word) : (s.ppsWritten m data).ppsValid m = s.ppsValid m := by
  simp only [State.ppsValid, State.rd_ppsWritten s m _ data (r := .timPpsPeriod) (by decide) (by decide),
    State.rd_ppsWritten s m _ data (r := .timPpsWidth) (by decide) (by decide),
    State.rd_ppsWritten s m _ data (r := .timPpsStart) (by decide) (by decide)]

/-- en = 0 cancels what is pending and rests the output. -/
theorem State.wrPpsCfg_off (hen : F.timPpsCfg_en.of data = 0) :
    s.wrPpsCfg m data = (s.ppsWritten m data).setPps m { s.pps m with pend := none, active := false } := by
  have hoff : (s.writeReg .timPpsCfg m data).on F.timPpsCfg_en m = false := (State.en_ppsWritten s m data).trans (by rw [hen]; rfl)
  rw [← State.pps_congr (State.ppsWritten_tim s m data)]
  unfold State.wrPpsCfg
  exact if_pos (by rw [hoff, Bool.not_false])

theorem State.wrPpsCfg_off_spec (hen : F.timPpsCfg_en.of data = 0) :
    (s.wrPpsCfg m data).pps m = { s.pps m with pend := none, active := false } ∧
      (s.wrPpsCfg m data).on F.timPpsCfg_en m = false := by
  rw [State.wrPpsCfg_off hen]
  refine ⟨State.pps_setPps .., ?_⟩
  rw [State.on_setPps, State.en_ppsWritten, hen]
  rfl

/-- A commit to an output that is enabled before and after the write. -/
theorem State.wrPpsCfg_commit (hen : F.timPpsCfg_en.of data = 1) (hcommit : F.timPpsCfg_commit.of data = 1)
    (hon : s.on F.timPpsCfg_en m = true) : s.wrPpsCfg m data = (s.ppsWritten m data).ppsCommit m := by
  have hstays : (s.writeReg .timPpsCfg m data).on F.timPpsCfg_en m = true := (State.en_ppsWritten s m data).trans (by rw [hen]; rfl)
  unfold State.wrPpsCfg
  simp only [hstays, hon, hcommit, Bool.not_true, Bool.false_eq_true, if_false, if_true]
  rfl

/-! ### Commits (R219) -/

/-- The schedule that a commit makes pending for a domain: the first target that lies 1 us or more away. -/
def State.ppsPending (s : State) (m d : Nat) : PpsSched :=
  let st := ptpNs (s.ptpRead .timPpsStart (3 * m))
  let per := (s.rd .timPpsPeriod m).toNat
  ⟨if st < s.domUp d + 1000 then firstTarget st per (s.domUp d + 1000) else st, per, (s.rd .timPpsWidth m).toNat, d⟩

theorem State.ppsPending_ppsWritten (s : State) (m d : Nat) (data : Word) : (s.ppsWritten m data).ppsPending m d = s.ppsPending m d := by
  have hup : (s.ppsWritten m data).domUp d = s.domUp d := by
    rw [State.domUp, State.dom_congr (State.ppsWritten_tim s m data), State.domUp]
  simp only [State.ppsPending, State.ptpRead, hup, State.rd_ppsWritten s m _ data (r := .timPpsPeriod) (by decide) (by decide),
    State.rd_ppsWritten s m _ data (r := .timPpsWidth) (by decide) (by decide),
    State.rd_ppsWritten s m _ data (r := .timPpsStart) (by decide) (by decide)]
  rfl

section Commit

variable {d : Nat} (hpend : (s.pps m).pend = none)
include hpend

theorem State.ppsCommit_invalid (hv : s.ppsValid m = false) : s.ppsCommit m = s.accessErr .tim := by
  unfold State.ppsCommit
  simp only [hpend, hv, Option.isSome_none, Bool.not_false, Bool.false_eq_true, if_false, if_true]

theorem State.ppsCommit_valid (hv : s.ppsValid m = true) (hd : s.fld F.timPpsCfg_dom m = d) :
    s.ppsCommit m =
      let u := s.setPps m { s.pps m with pend := some (s.ppsPending m d) }
      if ptpNs (s.ptpRead .timPpsStart (3 * m)) < s.domUp d + 1000 then u.setFld F.timPpsStat_late m 1 else u := by
  subst hd
  unfold State.ppsCommit
  simp only [hpend, hv, Option.isSome_none, Bool.not_true, Bool.false_eq_true, if_false, decide_eq_true_eq]
  rfl

theorem State.ppsCommit_spec (hv : s.ppsValid m = true) (hd : s.fld F.timPpsCfg_dom m = d) :
    (s.ppsCommit m).pps m = { s.pps m with pend := some (s.ppsPending m d) } ∧
      (ptpNs (s.ptpRead .timPpsStart (3 * m)) < s.domUp d + 1000 → (s.ppsCommit m).on F.timPpsStat_late m = true) := by
  rw [State.ppsCommit_valid hpend hv hd]
  dsimp only
  split
  · next hlate =>
    refine ⟨by rw [State.pps_setFld, State.pps_setPps], fun _ => ?_⟩
    rw [State.on, State.fld_setFld_same _ _ _ _ (by decide) (by decide)]
    rfl
  · next hlate => exact ⟨State.pps_setPps .., fun h => absurd h hlate⟩

section Write

variable (hen : F.timPpsCfg_en.of data = 1) (hcommit : F.timPpsCfg_commit.of data = 1) (hon : s.on F.timPpsCfg_en m = true)
include hen hcommit hon

theorem State.wrPpsCfg_commit_spec (hv : s.ppsValid m = true) :
    (s.wrPpsCfg m data).pps m = { s.pps m with pend := some (s.ppsPending m (F.timPpsCfg_dom.of data)) } ∧
      (ptpNs (s.ptpRead .timPpsStart (3 * m)) < s.domUp (F.timPpsCfg_dom.of data) + 1000 →
        (s.wrPpsCfg m data).on F.timPpsStat_late m = true) := by
  have hpps : (s.ppsWritten m data).pps m = s.pps m := State.pps_congr (State.ppsWritten_tim s m data) m
  have hup : (s.ppsWritten m data).domUp (F.timPpsCfg_dom.of data) = s.domUp (F.timPpsCfg_dom.of data) := by
    rw [State.domUp, State.dom_congr (State.ppsWritten_tim s m data), State.domUp]
  have hstart : (s.ppsWritten m data).ptpRead .timPpsStart (3 * m) = s.ptpRead .timPpsStart (3 * m) := by
    simp only [State.ptpRead, State.rd_ppsWritten s m _ data (r := .timPpsStart) (by decide) (by decide)]
  have hspec := State.ppsCommit_spec (s := s.ppsWritten m data) (by rw [hpps, hpend])
    ((State.ppsValid_ppsWritten s m data).trans hv) (State.dom_ppsWritten s m data)
  rw [hpps, hup, hstart, State.ppsPending_ppsWritten] at hspec
  rw [State.wrPpsCfg_commit hen hcommit hon]
  exact hspec

theorem State.wrPpsCfg_invalid (hv : s.ppsValid m = false) : s.wrPpsCfg m data = (s.ppsWritten m data).accessErr .tim := by
  rw [State.wrPpsCfg_commit hen hcommit hon]
  exact State.ppsCommit_invalid (by rw [State.pps_congr (State.ppsWritten_tim s m data), hpend])
    ((State.ppsValid_ppsWritten s m data).trans hv)

end Write

end Commit

/-! ### Edges and pulses (R218) -/

/-- The running schedule drives its next edge. -/
def Pps.driven (x : Pps) (r : PpsSched) : Pps := { x with next := x.next + r.period, active := true, began := x.next }

section Edge

variable (hfab : s.fabricOn = true) (hon : s.on F.timPpsCfg_en m = true)
include hfab hon

/-- The pending schedule takes over at its start. -/
theorem State.ppsEdge_takeover {q : PpsSched} (hq : (s.pps m).pend = some q) (hdue : q.start ≤ s.domNs q.dom) :
    s.ppsEdge m = (s.setPps m ⟨some q, none, q.start + q.period, true, q.start⟩).bump .timPpsEdges m := by
  unfold State.ppsEdge
  simp only [hfab, hon, hq, hdue, Bool.not_true, Bool.or_self, Bool.false_eq_true, if_false, if_true]

variable {r : PpsSched} (hrun : (s.pps m).run = some r) (hwait : ∀ q, (s.pps m).pend = some q → s.domNs q.dom < q.start)
include hrun hwait

theorem State.ppsEdge_running : s.ppsEdge m =
    if (s.pps m).next ≤ s.domNs r.dom then (s.setPps m ((s.pps m).driven r)).bump .timPpsEdges m else s := by
  unfold State.ppsEdge
  simp only [hfab, hon, hrun, Bool.not_true, Bool.or_self, Bool.false_eq_true, if_false]
  cases hpend : (s.pps m).pend with
  | none => simp only [Pps.driven, hrun, hpend]
  | some q => simp only [Pps.driven, hrun, hpend, Nat.not_le.mpr (hwait q hpend), if_false]

theorem State.ppsEdge_due (hdue : (s.pps m).next ≤ s.domNs r.dom) :
    (s.ppsEdge m).pps m = (s.pps m).driven r ∧ (s.ppsEdge m).ctr .timPpsEdges m = s.ctr .timPpsEdges m + 1 := by
  rw [State.ppsEdge_running hfab hon hrun hwait, if_pos hdue]
  exact ⟨State.pps_setPps .., (State.ctr_bump ..).trans (if_pos ⟨rfl, rfl⟩)⟩

theorem State.ppsEdge_early (hnot : s.domNs r.dom < (s.pps m).next) : s.ppsEdge m = s := by
  rw [State.ppsEdge_running hfab hon hrun hwait, if_neg (Nat.not_le.mpr hnot)]

end Edge

@[simp] theorem State.ppsLevel_bump (s : State) (c : Ctr) (i m : Nat) : (s.bump c i).ppsLevel m = s.ppsLevel m := rfl

/-- In RUN an output shows its active level while it is enabled and a pulse runs. -/
theorem State.ppsLevel_setPps (hop : s.op = .run) (hrst : s.phys.rstLow = false) (m : Nat) (x : Pps) :
    (s.setPps m x).ppsLevel m = ((s.on F.timPpsCfg_en m && x.active) != s.on F.timPpsCfg_pol m) := by
  have hop' : (s.setPps m x).op = .run := hop
  have hrst' : (s.setPps m x).phys.rstLow = false := hrst
  simp [State.ppsLevel, hop', hrst', State.pps_setPps]

theorem exec_ppsPulseEnd {m : Fin 2} {r : PpsSched} (hrun : (s.pps m).run = some r) : exec (.ppsPulseEnd m) s =
    .next (if ((s.pps m).active && decide ((s.pps m).began + r.width ≤ s.domNs r.dom)) = true
      then s.setPps m { s.pps m with active := false } else s) := by
  show execPpsPulseEnd m s = _
  unfold execPpsPulseEnd
  simp only [hrun]

/-- Settles O44: a commit is a write of the configuration and one of the pending schedule, and edges and ends of pulses follow the time of
the domain. -/
theorem periodicOutputs : Obligations.PeriodicOutputs := by
  intro s m
  refine ⟨fun p data hs => ⟨fun hen hcommit hon hpend => ⟨fun hv => ?_, fun hv => ?_⟩, fun hen => ?_⟩, fun hfab hon =>
    ⟨fun q hq hdue => ?_, fun q r hq hnot hrun hdue => ?_, fun r hnone hrun => ?_⟩, fun r hrun hact => ⟨fun hdue => ?_, fun hnot => ?_⟩⟩
  · exact ⟨_, next_of_serves hs rfl, State.wrPpsCfg_commit_spec (s := s.nextSeq p) hpend hen hcommit hon hv⟩
  · refine ⟨_, next_of_serves hs (State.wrPpsCfg_invalid (s := s.nextSeq p) hpend hen hcommit hon hv), ?_,
      State.statBit_accessErr_tim _⟩
    rw [State.accessErr_tim, State.ppsWritten_tim]
    rfl
  · exact ⟨_, next_of_serves hs rfl, State.wrPpsCfg_off_spec (s := s.nextSeq p) hen⟩
  · refine ⟨_, congrArg Host.Outcome.next (State.ppsEdge_takeover hfab hon hq hdue), State.pps_setPps .., fun hop hrst => ?_,
      (State.ctr_bump ..).trans (if_pos ⟨rfl, rfl⟩)⟩
    rw [State.ppsLevel_bump, State.ppsLevel_setPps hop hrst, hon]
    exact Bool.true_bne _
  · refine ⟨_, rfl, State.ppsEdge_due hfab hon hrun (fun q' hq' => ?_) hdue⟩
    rw [← Option.some.inj (hq.symm.trans hq')]
    exact hnot
  · have hwait : ∀ q, (s.pps m).pend = some q → s.domNs q.dom < q.start := fun q hq => by rw [hnone] at hq; cases hq
    exact ⟨fun hdue => ⟨_, rfl, State.ppsEdge_due hfab hon hrun hwait hdue⟩, fun hnot =>
      congrArg Host.Outcome.next (State.ppsEdge_early hfab hon hrun hwait hnot)⟩
  · refine ⟨_, (exec_ppsPulseEnd hrun).trans (congrArg _ (if_pos (by rw [hact, decide_eq_true hdue]; rfl))), State.pps_setPps ..,
      by simp [keeps, Part.same, State.setPps], fun hop hrst => ?_⟩
    rw [State.ppsLevel_setPps hop hrst, Bool.and_false]
    exact Bool.false_bne _
  · exact (exec_ppsPulseEnd hrun).trans (congrArg _ (if_neg (by rw [decide_eq_false (Nat.not_le.mpr hnot), Bool.and_false]; decide)))

end Sys2Proof.Machine
end

section
/-! ## Transmit timestamps (R210) -/

namespace Sys2Proof.Machine

open Sys2Proof

variable {s : State} {p : Path} {n : Nat} {data : Word}

/-- No item of a queue is found poisoned while no word is in error. -/
theorem State.txtsFront_clean (h : s.memClean = true) (fuel p : Nat) : s.txtsFront fuel p = s := by
  cases fuel with
  | zero => rfl
  | succ fuel => exact if_pos (by rw [h, Bool.true_or])

theorem State.txts_txtsDrop (s : State) (n m : Nat) : (s.txtsDrop n).txts m = if m = n then (s.txts n).drop 1 else s.txts m :=
  tblGet_set _ _ _ _ _ _ fun _ => rfl

/-- The path is the owner's exactly when it is the host's for a queue that the host owns. -/
theorem State.owner_iff (s : State) (p : Path) (n : Nat) :
    ((p != .fw) == s.on F.timPortCfg_owner n) = true ↔ (s.on F.timPortCfg_owner n = true ↔ p ≠ .fw) := by
  rw [beq_iff_eq, Bool.eq_iff_iff, bne_iff_ne]
  exact iff_comm

theorem State.txtsPop_clean (h : s.memClean = true) (p : Path) (n : Nat) : s.txtsPop p n =
    if ((p != .fw) == s.on F.timPortCfg_owner n && s.txts n != []) = true then s.txtsDrop n else s.accessErr .tim := by
  unfold State.txtsPop
  rw [State.txtsFront_clean h]

theorem State.txtsPop_owner (h : s.memClean = true) (hown : s.on F.timPortCfg_owner n = true ↔ p ≠ .fw) (hq : s.txts n ≠ []) :
    s.txtsPop p n = s.txtsDrop n := by
  rw [State.txtsPop_clean h, (s.owner_iff p n).mpr hown, Bool.true_and]
  exact if_pos (bne_iff_ne.mpr hq)

theorem State.txtsPop_refused (h : s.memClean = true) (hno : ¬(s.on F.timPortCfg_owner n = true ↔ p ≠ .fw) ∨ s.txts n = []) :
    s.txtsPop p n = s.accessErr .tim := by
  rw [State.txtsPop_clean h]
  refine if_neg fun hb => ?_
  rw [Bool.and_eq_true, State.owner_iff, bne_iff_ne] at hb
  exact hno.elim (· hb.1) hb.2

/-- A write of 1 to pop pops. -/
theorem exec_txtsPop {n : Fin 16} (hs : s.servesReg p .timTxtsPop n = true) (hpop : F.timTxtsPop_pop.of data = 1) :
    exec (.txtsPop p n data) s = .next ((s.nextSeq p).txtsPop p n) := next_of_serves hs (if_pos hpop)

end Sys2Proof.Machine
end

section
/-! ## Capture inputs and their configuration (R215, R217) -/

namespace Sys2Proof.Machine

open Sys2Proof

variable {s : State} {n : Nat} {data : Word}

@[simp] theorem State.tsc_setTsc (s : State) (n : Nat) (x : Tsc) : (s.setTsc n x).tsc n = x := tblGet_set_same ..
@[simp] theorem State.tsc_bump (s : State) (c : Ctr) (i n : Nat) : (s.bump c i).tsc n = s.tsc n := rfl
@[simp] theorem State.tsc_setFld (s : State) (f : RegField) (i v n : Nat) : (s.setFld f i v).tsc n = s.tsc n := rfl
@[simp] theorem State.rd_setTsc (s : State) (n : Nat) (x : Tsc) (r : Reg) (i : Nat) : (s.setTsc n x).rd r i = s.rd r i := rfl
@[simp] theorem State.on_setTsc (s : State) (n : Nat) (x : Tsc) (f : RegField) (i : Nat) : (s.setTsc n x).on f i = s.on f i := rfl
@[simp] theorem State.ctr_setTsc (s : State) (n : Nat) (x : Tsc) (c : Ctr) (i : Nat) : (s.setTsc n x).ctr c i = s.ctr c i := rfl
@[simp] theorem State.lt_setTsc (s : State) (n : Nat) (x : Tsc) : (s.setTsc n x).tim.lt = s.tim.lt := rfl
@[simp] theorem State.domPast_setTsc (s : State) (n : Nat) (x : Tsc) (d : Nat) : (s.setTsc n x).domPast d = s.domPast d := rfl
@[simp] theorem State.domPast_bump (s : State) (c : Ctr) (i d : Nat) : (s.bump c i).domPast d = s.domPast d := rfl
@[simp] theorem State.edgeTick_setTsc (s : State) (n : Nat) (x : Tsc) : (s.setTsc n x).edgeTick = s.edgeTick := rfl
@[simp] theorem State.edgeTick_bump (s : State) (c : Ctr) (i : Nat) : (s.bump c i).edgeTick = s.edgeTick := rfl

theorem State.tsc_congr {t : State} (h : t.tim = s.tim) (n : Nat) : t.tsc n = s.tsc n := by
  rw [State.tsc, h, State.tsc]

/-! ### A change of configuration takes effect -/

section Settled

variable (hold : (s.tsc n).old = none)
include hold

theorem State.tscSettle_none : s.tscSettle n = s := by
  unfold State.tscSettle
  simp only [hold]

theorem State.tscCfg_none : s.tscCfg n = s.rd .timTscCfg n := by
  unfold State.tscCfg
  simp only [hold]

theorem State.tscStorm_none : s.tscStorm n = s.rd .timTscStorm n := by
  unfold State.tscStorm
  simp only [hold]

end Settled

section Settling

variable {w0 v0 : Word} {t : Nat} (hold : (s.tsc n).old = some (w0, v0, t)) (ht : t < s.tim.lt)
include hold ht

/-- A disabled input discards the record that was open. -/
theorem State.tscSettle_off (hoff : s.on F.timTscCfg_en n = false) :
    s.tscSettle n = s.setTsc n { s.tsc n with old := none, openRec := none, closing := none } := by
  unfold State.tscSettle
  simp only [hold, ht, hoff, Bool.not_false, if_true]

/-- An input that stays enabled goes on, and one that was enabled has its first storm window. -/
theorem State.tscSettle_on (hon : s.on F.timTscCfg_en n = true) : s.tscSettle n = s.setTsc n
    (if F.timTscCfg_en.of w0 = 0 then { s.tsc n with old := none, winStart := t + 1, winCnt := 0 } else { s.tsc n with old := none }) := by
  unfold State.tscSettle
  simp only [hold, ht, hon, Bool.not_true, Bool.false_eq_true, if_false, if_true]

end Settling

/-- A write of the configuration waits for the next tick: the input works under the words before it for the rest of this one. -/
theorem State.wrTscCfg_spec (hold : (s.tsc n).old = none) : (s.wrTscCfg n data).fld F.timTscCfg_en n = F.timTscCfg_en.of data ∧
    (s.wrTscCfg n data).tsc n = { s.tsc n with old := some (s.rd .timTscCfg n, s.rd .timTscStorm n, s.tim.lt) } ∧
      (s.wrTscCfg n data).tscCfg n = s.rd .timTscCfg n := by
  have heq : s.wrTscCfg n data = (s.writeReg .timTscCfg n data).setTsc n
      { s.tsc n with old := some (s.rd .timTscCfg n, s.rd .timTscStorm n, s.tim.lt) } := by
    unfold State.wrTscCfg State.wrTscReg
    simp only [State.tscSettle_none hold, State.tsc_congr (State.writeReg_tim s .timTscCfg n data), hold, Option.orElse_none]
  rw [heq]
  refine ⟨State.fld_writeReg s n .any rfl (by decide) rfl, State.tsc_setTsc .., ?_⟩
  have hlt : (s.writeReg .timTscCfg n data).tim.lt = s.tim.lt := congrArg Tim.lt (State.writeReg_tim ..)
  unfold State.tscCfg
  simp only [State.tsc_setTsc, State.lt_setTsc, hlt, if_true]

/-! ### Storm windows (R215) -/

theorem State.tscRoll_within (h : s.tim.lt < (s.tsc n).winStart + tkUs (F.timTscStorm_storm_win_us.of (s.tscStorm n))) :
    s.tscRoll n = s := if_neg (Nat.not_le.mpr h)

/-- The storm window that holds the present tick, for windows of `w` ticks. -/
def State.windowNow (s : State) (n w : Nat) : Nat := (s.tsc n).winStart + (s.tim.lt - (s.tsc n).winStart) / w * w

theorem State.tscRoll_due {w : Nat} (hw : tkUs (F.timTscStorm_storm_win_us.of (s.tscStorm n)) = w)
    (h : (s.tsc n).winStart + w ≤ s.tim.lt) :
    s.tscRoll n = s.setTsc n { s.tsc n with winStart := s.windowNow n w, winCnt := 0 } := by
  subst hw
  exact if_pos h

theorem State.tscRoll_spec {w : Nat} (hw : tkUs (F.timTscStorm_storm_win_us.of (s.tscStorm n)) = w) (hpos : 0 < w)
    (h : (s.tsc n).winStart + w ≤ s.tim.lt) : ((s.tscRoll n).tsc n).winCnt = 0 ∧ ((s.tscRoll n).tsc n).winStart ≤ s.tim.lt ∧
      s.tim.lt < ((s.tscRoll n).tsc n).winStart + w ∧ ((s.tscRoll n).tsc n).fifo = (s.tsc n).fifo := by
  rw [State.tscRoll_due hw h, State.tsc_setTsc]
  obtain ⟨hstart, hend⟩ := window_holds hpos ((Nat.le_add_right _ w).trans h)
  exact ⟨rfl, hstart, hend, rfl⟩

/-! ### Re-arming (R215) -/

/-- A settled input that is locked is re-armed with a new window. -/
theorem State.wrTscStat_locked (hw : F.timTscStat_locked.of data = 1) (hlocked : (s.tscSettle n).on F.timTscStat_locked n = true) :
    s.wrTscStat n data = ((s.tscSettle n).setFld F.timTscStat_locked n 0).setTsc n
      { (s.tscSettle n).tsc n with winStart := (s.tscSettle n).tim.lt, winCnt := 0 } := if_pos ⟨hw, hlocked⟩

/-- Settling changes no register and not the time. -/
theorem State.tscSettle_frame (s : State) (n : Nat) : (s.tscSettle n).regs = s.regs ∧ (s.tscSettle n).tim.lt = s.tim.lt := by
  unfold State.tscSettle
  dsimp only
  split
  · split <;> exact ⟨rfl, rfl⟩
  · exact ⟨rfl, rfl⟩

/-! ### The FIFO (R217) -/

theorem State.tscFront_clean (h : s.memClean = true) (fuel n : Nat) : s.tscFront fuel n = s := by
  cases fuel with
  | zero => rfl
  | succ fuel => exact if_pos (by rw [h, Bool.true_or])

theorem State.wrTscPop_clean (h : s.memClean = true) (hpop : F.timTscPop_pop.of data = 1) :
    s.wrTscPop n data = if (s.tsc n).fifo = [] then s.accessErr .tim else s.tscDrop n := by
  unfold State.wrTscPop
  rw [if_neg (by omega), State.tscFront_clean h]

end Sys2Proof.Machine
end

section
/-! ## Edges and records of capture inputs (R212 to R216) -/

namespace Sys2Proof.Machine

open Sys2Proof

variable {s : State} {n : Nat} {up : Bool}

/-! ### Recognition (R212, R213) -/

/-- A level is not recognised before 16 ticks have sampled it, all after the one before it, or while the fabric clock stands. -/
theorem exec_tscEdge_ignored {n : Fin 8} {ticks : Nat} (h : ticks < 16 ∨ s.tim.lt < 15 ∨
    (∃ t, (s.tsc n).levelAt = some t ∧ s.tim.lt < t + 16) ∨ (s.tsc n).level = up ∨ s.fabricOn = false) :
    exec (.tscEdge n up ticks) s = .next s := by
  refine congrArg Host.Outcome.next (if_pos ?_)
  rcases h with h | h | ⟨t, hl, h⟩ | h | h
  · simp [h]
  · simp [h]
  · simp [hl, h]
  · simp [h]
  · simp [h]

theorem exec_tscEdge_recognised {n : Fin 8} {ticks : Nat} (hfab : s.fabricOn = true) (hticks : 16 ≤ ticks) (hlt : 15 ≤ s.tim.lt)
    (hlast : ∀ t, (s.tsc n).levelAt = some t → t + 16 ≤ s.tim.lt) (hne : (s.tsc n).level ≠ up) :
    exec (.tscEdge n up ticks) s = .next ((s.tscSettle n).tscEdge n up) := by
  have hfree : (s.tsc n).levelAt.any (fun t => decide (s.tim.lt < t + 16)) = false := by
    cases hl : (s.tsc n).levelAt with
    | none => rfl
    | some t => exact decide_eq_false (Nat.not_lt.mpr (hlast t hl))
  refine congrArg Host.Outcome.next (if_neg ?_)
  rw [hfree, hfab, decide_eq_false (Nat.not_lt.mpr hticks), decide_eq_false (Nat.not_lt.mpr hlt), beq_false_of_ne hne]
  decide

/-- An edge that is recognised changes the level of its input, and of the record whose window runs. -/
theorem State.tsc_tscLevel (s : State) (n : Nat) (up : Bool) : (s.tscLevel n up).tsc n = { s.tsc n with
    level := up, levelAt := some s.tim.lt,
    openRec := (s.tsc n).openRec.map fun r => if s.edgeTick < r.ltTick + 80 then { r with level := up } else r } :=
  State.tsc_setTsc ..

@[simp] theorem State.rd_tscLevel (s : State) (n : Nat) (up : Bool) (r : Reg) (i : Nat) : (s.tscLevel n up).rd r i = s.rd r i := rfl
@[simp] theorem State.ctr_tscLevel (s : State) (n : Nat) (up : Bool) (c : Ctr) (i : Nat) : (s.tscLevel n up).ctr c i = s.ctr c i := rfl

/-- A locked input follows its level alone. -/
theorem State.tscEdge_locked (hlocked : s.on F.timTscStat_locked n = true) : s.tscEdge n up = s.tscLevel n up := by
  unfold State.tscEdge
  dsimp only
  rw [if_pos (by rw [hlocked, Bool.or_true, Bool.true_or])]

theorem exec_tscEdge_locked {n : Fin 8} (ticks : Nat) (hlocked : s.on F.timTscStat_locked n = true) (hold : (s.tsc n).old = none) :
    exec (.tscEdge n up ticks) s = .next s ∨ exec (.tscEdge n up ticks) s = .next (s.tscLevel n up) := by
  rw [← State.tscEdge_locked hlocked]
  show execTscEdge n up s ticks = _ ∨ execTscEdge n up s ticks = _
  unfold execTscEdge
  rw [State.tscSettle_none hold]
  split
  · exact .inl rfl
  · exact .inr rfl

/-! ### Selected edges (R214, R215) -/

/-- The record that an edge opens now. -/
def State.freshRec (s : State) (n : Nat) (up : Bool) : TscOpen :=
  ⟨s.tim.lt - 15, s.fld F.timTscCfg_dom n, s.domPast (s.fld F.timTscCfg_dom n), up, 0, up⟩

theorem State.freshRec_level (s : State) (n : Nat) (up : Bool) : { s.freshRec n up with level := up } = s.freshRec n up := rfl

section Captured

theorem State.tscCapture_joins {r : TscOpen} (h : (s.tsc n).openRec = some r) (hin : s.edgeTick < r.ltTick + 80) :
    s.tscCapture n up = ((s.bump .timTscEdges n).setTsc n
      { s.tsc n with openRec := some { r with merge := min 255 (r.merge + 1) } }).bump .timTscMerged n := by
  unfold State.tscCapture
  simp only [State.tsc_bump, h, State.edgeTick_bump, hin, if_true]

/-- An edge within the window of the open record joins it. -/
theorem State.captured_joins {r : TscOpen} (h : (s.tsc n).openRec = some r) (hin : s.tim.lt - 15 < r.ltTick + 80) :
    let u := (s.tscCapture n up).tscLevel n up
    u.tsc n = { s.tsc n with
      level := up, levelAt := some s.tim.lt, openRec := some { r with merge := min 255 (r.merge + 1), level := up } } ∧
    u.ctr .timTscEdges n = s.ctr .timTscEdges n + 1 ∧ u.ctr .timTscMerged n = s.ctr .timTscMerged n + 1 := by
  rw [State.tscCapture_joins h hin]
  refine ⟨?_, ?_, ?_⟩
  · have hin' : s.edgeTick < r.ltTick + 80 := hin
    simp only [State.tsc_tscLevel, State.tsc_bump, State.tsc_setTsc, Option.map_some, State.edgeTick_bump, State.edgeTick_setTsc, hin',
      if_true, State.bump_tim, State.lt_setTsc]
  · rw [State.ctr_tscLevel, State.ctr_bump, if_neg (by simp), State.ctr_setTsc, State.ctr_bump, if_pos ⟨rfl, rfl⟩]
  · rw [State.ctr_tscLevel, State.ctr_bump, if_pos ⟨rfl, rfl⟩, State.ctr_setTsc, State.ctr_bump, if_neg (by simp)]

variable (hold : (s.tsc n).old = none)
include hold

theorem State.tscCapture_opens (h : (s.tsc n).openRec = none) : s.tscCapture n up =
    (s.bump .timTscEdges n).setTsc n { s.tsc n with openRec := some (s.freshRec n up) } := by
  have hcfg : (s.bump .timTscEdges n).tscCfg n = s.rd .timTscCfg n := State.tscCfg_none (s := s.bump .timTscEdges n) hold
  unfold State.tscCapture
  simp only [hcfg, State.tsc_bump, h]
  rfl

/-- An edge opens a record where none is open. -/
theorem State.captured_opens (h : (s.tsc n).openRec = none) :
    let u := (s.tscCapture n up).tscLevel n up
    u.tsc n = { s.tsc n with level := up, levelAt := some s.tim.lt, openRec := some (s.freshRec n up) } ∧
    u.ctr .timTscEdges n = s.ctr .timTscEdges n + 1 ∧ u.regs = s.regs ∧ u.net = s.net := by
  rw [State.tscCapture_opens hold h]
  refine ⟨?_, ?_, rfl, rfl⟩
  · simp only [State.tsc_tscLevel, State.tsc_setTsc, Option.map_some, State.freshRec_level, ite_self, State.lt_setTsc, State.bump_tim]
  · rw [State.ctr_tscLevel, State.ctr_setTsc, State.ctr_bump, if_pos ⟨rfl, rfl⟩]

theorem State.tscCapture_follows {r : TscOpen} (h : (s.tsc n).openRec = some r) (hclosing : (s.tsc n).closing = none)
    (hout : r.ltTick + 80 ≤ s.edgeTick) (hnot : s.tim.lt < r.ltTick + 96) : s.tscCapture n up =
      (s.bump .timTscEdges n).setTsc n { s.tsc n with openRec := some (s.freshRec n up), closing := some r } := by
  have hcfg : (s.bump .timTscEdges n).tscCfg n = s.rd .timTscCfg n := State.tscCfg_none (s := s.bump .timTscEdges n) hold
  unfold State.tscCapture
  simp only [State.tsc_bump, h, State.edgeTick_bump, Nat.not_lt.mpr hout, hclosing, Option.isSome_none, Bool.false_eq_true, if_false,
    hcfg, State.bump_tim, Nat.not_le.mpr hnot]
  rfl

/-- An edge after the window of the open record, before that closes, opens another. -/
theorem State.captured_follows {r : TscOpen} (h : (s.tsc n).openRec = some r) (hclosing : (s.tsc n).closing = none)
    (hout : r.ltTick + 80 ≤ s.tim.lt - 15) (hnot : s.tim.lt < r.ltTick + 96) :
    let u := (s.tscCapture n up).tscLevel n up
    u.tsc n = { s.tsc n with
      level := up, levelAt := some s.tim.lt, closing := some r, openRec := some (s.freshRec n up) } ∧
    u.ctr .timTscEdges n = s.ctr .timTscEdges n + 1 ∧ u.ctr .timTscMerged n = s.ctr .timTscMerged n := by
  rw [State.tscCapture_follows hold h hclosing hout hnot]
  refine ⟨?_, ?_, ?_⟩
  · simp only [State.tsc_tscLevel, State.tsc_setTsc, Option.map_some, State.freshRec_level, ite_self, State.lt_setTsc, State.bump_tim]
  · rw [State.ctr_tscLevel, State.ctr_setTsc, State.ctr_bump, if_pos ⟨rfl, rfl⟩]
  · rw [State.ctr_tscLevel, State.ctr_setTsc, State.ctr_bump, if_neg (by simp)]

end Captured

/-- An edge has been counted in the storm window of its input. -/
def State.counted (s : State) (n : Nat) : State := s.setTsc n { s.tsc n with winCnt := (s.tsc n).winCnt + 1 }

theorem State.tsc_counted (s : State) (n : Nat) : (s.counted n).tsc n = { s.tsc n with winCnt := (s.tsc n).winCnt + 1 } :=
  State.tsc_setTsc ..

@[simp] theorem State.ctr_counted (s : State) (n : Nat) (c : Ctr) (i : Nat) : (s.counted n).ctr c i = s.ctr c i := rfl
section Selected

variable (hold : (s.tsc n).old = none) (hen : s.on F.timTscCfg_en n = true) (hfree : s.on F.timTscStat_locked n = false)
  (hsel : getBit (s.rd .timTscCfg n) (if up then 29 else 30) = true)
  (hwin : s.tim.lt < (s.tsc n).winStart + tkUs (s.fld F.timTscStorm_storm_win_us n))
include hold hen hfree hsel hwin

/-- A selected edge of an input that is not locked counts in its window, and is captured or locks the input out. -/
theorem State.tscEdge_selected : s.tscEdge n up =
    if s.fld F.timTscStorm_storm_max n ≠ 0 ∧ s.fld F.timTscStorm_storm_max n < (s.tsc n).winCnt + 1 then
      ((((s.counted n).setFld F.timTscStat_locked n 1).tscLevel n up).bump .timTscLockouts n).raise (Ev.tscLockout n)
    else ((s.counted n).tscCapture n up).tscLevel n up := by
  have hon : F.timTscCfg_en.of (s.rd .timTscCfg n) ≠ 0 := bne_iff_ne.mp hen
  have hroll : s.tscRoll n = s := State.tscRoll_within (by rw [State.tscStorm_none hold]; exact hwin)
  unfold State.tscEdge
  simp only [State.tscCfg_none hold, hon, hfree, hsel, decide_false, Bool.not_true, Bool.or_self, Bool.false_eq_true, if_false, hroll,
    State.tscStorm_none hold]
  rfl

section Room

variable (hroom : s.fld F.timTscStorm_storm_max n = 0 ∨ (s.tsc n).winCnt + 1 ≤ s.fld F.timTscStorm_storm_max n)
include hroom

theorem State.tscEdge_captured : s.tscEdge n up = ((s.counted n).tscCapture n up).tscLevel n up := by
  rw [State.tscEdge_selected hold hen hfree hsel hwin]
  exact if_neg (by omega)

theorem State.tscEdge_opens (hopen : (s.tsc n).openRec = none) :
    (s.tscEdge n up).tsc n = { s.tsc n with
      winCnt := (s.tsc n).winCnt + 1, level := up, levelAt := some s.tim.lt, openRec := some (s.freshRec n up) } ∧
    (s.tscEdge n up).ctr .timTscEdges n = s.ctr .timTscEdges n + 1 ∧ keeps [.regs, .net] s (s.tscEdge n up) := by
  obtain ⟨htsc, hctr, hsame⟩ := State.captured_opens (s := s.counted n) (n := n) (up := up) (by rw [State.tsc_counted, hold])
    (by rw [State.tsc_counted, hopen])
  rw [State.tsc_counted] at htsc
  rw [State.tscEdge_captured hold hen hfree hsel hwin hroom]
  have hsame' : _ = s.regs ∧ _ = s.net := hsame
  exact ⟨htsc, hctr, by simpa [keeps, Part.same] using hsame'⟩

theorem State.tscEdge_joins {r : TscOpen} (hopen : (s.tsc n).openRec = some r) (hin : s.tim.lt - 15 < r.ltTick + 80) :
    (s.tscEdge n up).tsc n = { s.tsc n with
      winCnt := (s.tsc n).winCnt + 1, level := up, levelAt := some s.tim.lt,
      openRec := some { r with merge := min 255 (r.merge + 1), level := up } } ∧
    (s.tscEdge n up).ctr .timTscEdges n = s.ctr .timTscEdges n + 1 ∧
    (s.tscEdge n up).ctr .timTscMerged n = s.ctr .timTscMerged n + 1 := by
  have h := State.captured_joins (s := s.counted n) (n := n) (r := r) (up := up) (by rw [State.tsc_counted, hopen]) hin
  rw [State.tsc_counted] at h
  rw [State.tscEdge_captured hold hen hfree hsel hwin hroom]
  exact h

theorem State.tscEdge_follows {r : TscOpen} (hopen : (s.tsc n).openRec = some r) (hclosing : (s.tsc n).closing = none)
    (hout : r.ltTick + 80 ≤ s.tim.lt - 15) (hnot : s.tim.lt < r.ltTick + 96) :
    (s.tscEdge n up).tsc n = { s.tsc n with
      winCnt := (s.tsc n).winCnt + 1, level := up, levelAt := some s.tim.lt, closing := some r,
      openRec := some (s.freshRec n up) } ∧
    (s.tscEdge n up).ctr .timTscEdges n = s.ctr .timTscEdges n + 1 ∧
    (s.tscEdge n up).ctr .timTscMerged n = s.ctr .timTscMerged n := by
  have h := State.captured_follows (s := s.counted n) (n := n) (r := r) (up := up) (by rw [State.tsc_counted, hold])
    (by rw [State.tsc_counted, hopen]) (by rw [State.tsc_counted, hclosing]) hout hnot
  rw [State.tsc_counted] at h
  rw [State.tscEdge_captured hold hen hfree hsel hwin hroom]
  exact h

end Room

/-- A storm locks the input out (R215). -/
theorem State.tscEdge_storm (hlisted : Ev.listed (Ev.tscLockout n) = true) (hmax : s.fld F.timTscStorm_storm_max n ≠ 0)
    (hover : s.fld F.timTscStorm_storm_max n < (s.tsc n).winCnt + 1) :
    (s.tscEdge n up).on F.timTscStat_locked n = true ∧ ((s.tscEdge n up).tsc n).fifo = (s.tsc n).fifo ∧
    (s.tscEdge n up).ctr .timTscLockouts n = s.ctr .timTscLockouts n + 1 ∧
    (s.tscEdge n up).ctr .timTscEdges n = s.ctr .timTscEdges n ∧
    getBit ((s.tscEdge n up).rd .evtStat (Ev.tscLockout n / 32)) (Ev.tscLockout n % 32) = true := by
  rw [State.tscEdge_selected hold hen hfree hsel hwin, if_pos ⟨hmax, hover⟩]
  refine ⟨?_, ?_, ?_, ?_, State.statBit_raise hlisted⟩
  · have hset := State.fld_setFld_same (s.counted n) F.timTscStat_locked n 1 (by decide) (by decide)
    rw [State.on, (quiet_raise _ _).fld (by decide), State.fld, State.rd_bump, State.rd_tscLevel, ← State.fld, hset]
    rfl
  · rw [State.tsc_congr (State.raise_tim ..), State.tsc_bump, State.tsc_tscLevel, State.tsc_setFld, State.tsc_counted]
  · rw [State.ctr_raise _ _ _ _ (by decide), State.ctr_bump, if_pos ⟨rfl, rfl⟩, State.ctr_tscLevel, State.ctr_setFld,
      State.ctr_counted]
  · rw [State.ctr_raise _ _ _ _ (by decide), State.ctr_bump, if_neg (by simp), State.ctr_tscLevel, State.ctr_setFld,
      State.ctr_counted]

end Selected

/-! ### Records close (R214, R216) -/

section Close

variable {r : TscOpen} (hopen : (s.tsc n).openRec = some r) (hclosing : (s.tsc n).closing = none)
include hopen hclosing

theorem Tsc.oldest_open : (s.tsc n).oldest = some r := by
  rw [Tsc.oldest, hclosing, hopen]
  rfl

/-- A record enters the FIFO while there is room. -/
theorem State.tsc_tscClose_room (hroom : (s.tsc n).fifo.length < 16) : (s.tscClose n).tsc n = { s.tsc n with
    openRec := none, seq := ((s.tsc n).seq + 1) % 4294967296, lost := false,
    fifo := (s.tsc n).fifo ++ [r.words (s.tsc n).lost (s.tsc n).seq] } := by
  unfold State.tscClose
  simp only [Tsc.oldest_open hopen hclosing, hclosing, hroom, Option.isSome_none, Bool.false_eq_true, if_false, if_true,
    State.tsc_setTsc]

/-- A record is lost when the FIFO is full. -/
theorem State.tscClose_full (hfull : 16 ≤ (s.tsc n).fifo.length) : s.tscClose n = ((s.setTsc n { s.tsc n with
    openRec := none, seq := ((s.tsc n).seq + 1) % 4294967296, lost := true }).bump .timTscOvf n).raise (Ev.tscOvf n) := by
  unfold State.tscClose
  simp only [Tsc.oldest_open hopen hclosing, hclosing, Nat.not_lt.mpr hfull, Option.isSome_none, Bool.false_eq_true, if_false]

theorem State.tscClose_full_spec (hlisted : Ev.listed (Ev.tscOvf n) = true) (hfull : 16 ≤ (s.tsc n).fifo.length) :
    (s.tscClose n).tsc n = { s.tsc n with openRec := none, seq := ((s.tsc n).seq + 1) % 4294967296, lost := true } ∧
    (s.tscClose n).ctr .timTscOvf n = s.ctr .timTscOvf n + 1 ∧
    getBit ((s.tscClose n).rd .evtStat (Ev.tscOvf n / 32)) (Ev.tscOvf n % 32) = true := by
  rw [State.tscClose_full hopen hclosing hfull]
  refine ⟨?_, ?_, State.statBit_raise hlisted⟩
  · rw [State.tsc_congr (State.raise_tim ..), State.tsc_bump, State.tsc_setTsc]
  · rw [State.ctr_raise _ _ _ _ (by decide), State.ctr_bump, if_pos ⟨rfl, rfl⟩]
    rfl

end Close

/-- The record of a settled input closes 120 ns after its first edge. -/
theorem exec_tscRecordClose_eq {n : Fin 8} {t : State} {r : TscOpen} (hset : s.tscSettle n = t) (hold : (t.tsc n).oldest = some r) :
    exec (.tscRecordClose n) s = .next (if r.ltTick + 96 ≤ t.tim.lt then t.tscClose n else t) := by
  show execTscRecordClose n s = _
  unfold execTscRecordClose
  simp only [hset, hold]

/-- An input without a record is settled alone. -/
theorem exec_tscRecordClose_none {n : Fin 8} {t : State} (hset : s.tscSettle n = t) (hopen : (t.tsc n).openRec = none)
    (hclosing : (t.tsc n).closing = none) : exec (.tscRecordClose n) s = .next t := by
  have hold : (t.tsc n).oldest = none := by
    rw [Tsc.oldest, hclosing, hopen]
    rfl
  show execTscRecordClose n s = _
  unfold execTscRecordClose
  simp only [hset, hold]

theorem tscEvents_listed : ∀ n : Fin 8, Ev.listed (Ev.tscLockout n) = true ∧ Ev.listed (Ev.tscOvf n) = true := by decide

end Sys2Proof.Machine
end

section
/-! ## Timestamps and captures (R210 to R217) -/

namespace Sys2Proof.Machine

open Sys2Proof

variable {s : State} {p : Path} {n : Fin 8} {data : Word}

/-- Re-arming unlocks an input, and starts a storm window on what settling has left. -/
theorem State.wrTscStat_spec {n : Nat} (hw : F.timTscStat_locked.of data = 1) (hlocked : s.on F.timTscStat_locked n = true) :
    (s.wrTscStat n data).on F.timTscStat_locked n = false ∧
      (s.wrTscStat n data).tsc n = { (s.tscSettle n).tsc n with winStart := s.tim.lt, winCnt := 0 } := by
  obtain ⟨hregs, hlt⟩ := s.tscSettle_frame n
  have hl : (s.tscSettle n).on F.timTscStat_locked n = true := by
    rw [State.on, State.fld, State.rd, hregs]
    exact hlocked
  rw [State.wrTscStat_locked hw hl, State.on_setTsc, State.tsc_setTsc, hlt, State.on,
    State.fld_setFld_same _ _ _ _ (by decide) (by decide)]
  exact ⟨rfl, rfl⟩

theorem exec_tscPop (hs : s.servesReg p .timTscPop n = true) (hc : s.memClean = true) (hpop : F.timTscPop_pop.of data = 1) :
    exec (.tscPop p n data) s = .next (if (s.tsc n).fifo = [] then (s.nextSeq p).accessErr .tim else (s.nextSeq p).tscDrop n) :=
  next_of_serves hs (State.wrTscPop_clean (s := s.nextSeq p) hc hpop)

theorem exec_tscStormWindowEnd (hon : s.on F.timTscCfg_en n = true) (hfree : s.on F.timTscStat_locked n = false)
    (hold : (s.tsc n).old = none) : exec (.tscStormWindowEnd n) s = .next (s.tscRoll n) := by
  have hen : F.timTscCfg_en.of (s.rd .timTscCfg n) = 1 := (State.on_iff (f := F.timTscCfg_en) rfl n).mp hon
  show execTscStormWindowEnd n s = _
  unfold execTscStormWindowEnd
  simp only [State.tscSettle_none hold, State.tscCfg_none hold, hen, hfree, decide_true, Bool.not_false, Bool.and_self, if_true]

/-- Settles O43: an edge of a settled input is captured or locks it out, and a record closes, is popped or is discarded by one rule each. -/
theorem timestampsAndCaptures : Obligations.TimestampsAndCaptures := by
  intro s p tim
  refine ⟨fun n data hs hpop hc => ⟨fun hown hq => ?_, fun hno => ?_⟩, fun n => ?_⟩
  · refine ⟨_, (exec_txtsPop hs hpop).trans (congrArg _ (State.txtsPop_owner (s := s.nextSeq p) hc hown hq)), ?_, fun m hm => ?_, ?_⟩
    · exact (State.txts_txtsDrop ..).trans (if_pos rfl)
    · exact (State.txts_txtsDrop ..).trans (if_neg hm)
    · simp [keeps, Part.same, State.txtsDrop, State.setTxts]
  · refine ⟨_, (exec_txtsPop hs hpop).trans (congrArg _ (State.txtsPop_refused (s := s.nextSeq p) hc hno)), ?_,
      State.statBit_accessErr_tim _⟩
    exact State.accessErr_tim ..
  intro x w
  refine ⟨fun up ticks => exec_tscEdge_ignored, fun up ticks hfab hticks hlt hlast hne hold hclosing hen hfree hsel hwin => ?_,
    fun up ticks hlocked hold => ?_, fun r hopen hclosing hold _ _ => ?_, fun hon hfree hold hpos hend => ?_,
    fun data hs hw hlocked => ?_, fun data hs hpop hc => ⟨fun hq => ?_, fun hq => ?_⟩, fun data hs hold => ?_,
    fun w0 v0 t hold ht => ⟨fun hoff => ?_, fun hon hw0 hopen hclosing => ?_⟩⟩
  · have hexec := exec_tscEdge_recognised hfab hticks hlt hlast hne
    rw [State.tscSettle_none hold] at hexec
    intro mx d
    exact ⟨fun hroom hopen => ⟨_, hexec, State.tscEdge_opens hold hen hfree hsel hwin hroom hopen⟩,
      fun r hroom hopen hin => ⟨_, hexec, State.tscEdge_joins hold hen hfree hsel hwin hroom hopen hin⟩,
      fun r hroom hopen hout hnot => ⟨_, hexec, State.tscEdge_follows hold hen hfree hsel hwin hroom hopen hclosing hout hnot⟩,
      fun hmax hover => ⟨_, hexec, State.tscEdge_storm hold hen hfree hsel hwin (tscEvents_listed n).1 hmax hover⟩⟩
  · rcases exec_tscEdge_locked (up := up) ticks hlocked hold with h | h
    · exact ⟨_, h, rfl, rfl, by simp [keeps, Part.same]⟩
    · refine ⟨_, h, ?_, ?_, by simp [keeps, Part.same, State.tscLevel, State.setTsc]⟩
      · rw [State.tsc_tscLevel]
      · rw [State.tsc_tscLevel]
  · have hexec := exec_tscRecordClose_eq (State.tscSettle_none hold) (Tsc.oldest_open hopen hclosing)
    refine ⟨fun hdue hroom => ⟨_, hexec, ?_⟩, fun hdue hfull => ⟨_, hexec, ?_⟩, fun hnot => hexec.trans ?_⟩
    · rw [if_pos hdue]
      exact State.tsc_tscClose_room hopen hclosing hroom
    · rw [if_pos hdue]
      exact State.tscClose_full_spec hopen hclosing (tscEvents_listed n).2 hfull
    · rw [if_neg (Nat.not_le.mpr hnot)]
  · have hw : tkUs (F.timTscStorm_storm_win_us.of (s.tscStorm n)) = w := by
      rw [State.tscStorm_none hold]
      rfl
    exact ⟨_, exec_tscStormWindowEnd hon hfree hold, State.tscRoll_spec hw hpos hend⟩
  · obtain ⟨hoff, htsc⟩ := State.wrTscStat_spec (s := s.nextSeq p) hw hlocked
    refine ⟨_, next_of_serves hs rfl, hoff, fun hold => ?_, fun w0 v0 t hold ht hon => ?_⟩
    · rw [htsc, State.tscSettle_none (s := s.nextSeq p) hold]
      rfl
    · rw [htsc, State.tscSettle_on (s := s.nextSeq p) hold ht hon, State.tsc_setTsc]
      split <;> rfl
  · refine ⟨_, (exec_tscPop hs hc hpop).trans (congrArg _ (if_neg hq)), ?_⟩
    exact State.tsc_setTsc ..
  · exact ⟨_, (exec_tscPop hs hc hpop).trans (congrArg _ (if_pos hq)), State.accessErr_tim .., State.statBit_accessErr_tim _⟩
  · exact ⟨_, next_of_serves hs rfl, State.wrTscCfg_spec (s := s.nextSeq p) hold⟩
  · exact ⟨_, exec_tscRecordClose_none (State.tscSettle_off hold ht hoff) (by rw [State.tsc_setTsc]) (by rw [State.tsc_setTsc]),
      State.tsc_setTsc ..⟩
  · have hset := State.tscSettle_on hold ht hon
    rw [if_pos hw0] at hset
    exact ⟨_, exec_tscRecordClose_none hset (by rw [State.tsc_setTsc]; exact hopen) (by rw [State.tsc_setTsc]; exact hclosing),
      State.tsc_setTsc ..⟩

end Sys2Proof.Machine
end

section
/-! ## A step with no command waiting (assumption 3)

`Resting s t` says what a tick with empty queues leaves as in `s` once LT has advanced: the time, the queue of commands, the operating
state, and the queues that a tick serves. For each function `f` that such a tick calls, `Resting.f` says that it keeps this; its proof
follows the text of `f`. -/

namespace Sys2Proof.Machine

open Sys2Proof

/-- `t` has the time, the operating state and the waiting queues of `s`. -/
structure Resting (s t : State) : Prop where
  now : t.now = s.now
  pending : t.pending = s.pending
  op : t.op = s.op
  lt : t.tim.lt = s.tim.lt
  jumps : t.tim.jumps = s.tim.jumps
  spiQ : t.hbr.spiQ = s.hbr.spiQ
  pcieQ : t.hbr.pcieQ = s.hbr.pcieQ
  legRx : t.net.legRx = s.net.legRx

namespace Resting

-- A default tactic waits for all proofs before it, so these are elaborated in their order.
set_option Elab.async false

variable {s₀ s t : State}

theorem refl (s : State) : Resting s s := ⟨rfl, rfl, rfl, rfl, rfl, rfl, rfl, rfl⟩

theorem ite {a b : State} {c : Prop} [Decidable c] (ha : Resting s₀ a) (hb : Resting s₀ b) : Resting s₀ (if c then a else b) := by
  split
  exacts [ha, hb]

theorem iteFst {α : Type} {a b : State × α} {c : Prop} [Decidable c] (ha : Resting s₀ a.1) (hb : Resting s₀ b.1) :
    Resting s₀ (if c then a else b).1 := by
  split
  exacts [ha, hb]

theorem foldlFst {α β : Type} {f : State × β → α → State × β} {x : State × β} {l : List α} (h : Resting s₀ x.1)
    (hf : ∀ u a, Resting s₀ u.1 → Resting s₀ (f u a).1) : Resting s₀ (l.foldl f x).1 :=
  List.foldlRecOn (motive := fun x => Resting s₀ x.1) l f h fun u hu a _ => hf u a hu

variable (h : Resting s₀ s)
include h

theorem trans (k : Resting s t) : Resting s₀ t :=
  ⟨k.now.trans h.now, k.pending.trans h.pending, k.op.trans h.op, k.lt.trans h.lt, k.jumps.trans h.jumps, k.spiQ.trans h.spiQ,
    k.pcieQ.trans h.pcieQ, k.legRx.trans h.legRx⟩

/-- Parts of the state other than those that `Resting` names may change. -/
theorem frame {free out phys prevOp cause leftOp regs ctrs hold stage tim hbr mqs mem pwr boot mram flash win pair red net keys}
    (ht : tim.lt = s.tim.lt := by rfl) (hj : tim.jumps = s.tim.jumps := by rfl) (hs : hbr.spiQ = s.hbr.spiQ := by rfl)
    (hp : hbr.pcieQ = s.hbr.pcieQ := by rfl) (hl : net.legRx = s.net.legRx := by rfl) :
    Resting s₀ ⟨s.pending, s.now, free, out, phys, s.op, prevOp, cause, leftOp, regs, ctrs, hold, stage, tim, hbr, mqs, mem, pwr, boot,
      mram, flash, win, pair, red, net, keys⟩ :=
  ⟨h.now, h.pending, h.op, ht.trans h.lt, hj.trans h.jumps, hs.trans h.spiQ, hp.trans h.pcieQ, hl.trans h.legRx⟩

theorem foldl {α : Type} {f : State → α → State} {l : List α} (hf : ∀ u a, Resting s₀ u → Resting s₀ (f u a)) :
    Resting s₀ (l.foldl f s) := List.foldlRecOn l f h fun u hu a _ => hf u a hu

theorem quiet (q : Quiet s t) : Resting s₀ t :=
  h.trans ⟨q.now, q.pending, q.op, congrArg Tim.lt q.tim, congrArg Tim.jumps q.tim, q.hbr_spiQ, q.hbr_pcieQ, congrArg Net.legRx q.net⟩

/-! ### Registers, counters and memories -/

theorem wr {r i w} : Resting s₀ (s.wr r i w) := h.frame

theorem bump {c i} : Resting s₀ (s.bump c i) := h.frame

theorem bumpIf {b c i} : Resting s₀ (s.bumpIf b c i) := .ite h.bump h

theorem raise {src} : Resting s₀ (s.raise src) := h.quiet (quiet_raise ..)

theorem memWrite {mem inst addr} : Resting s₀ (s.memWrite mem inst addr) := h.quiet (quiet_memWrite ..)

theorem applyFlip {mem inst addr enc} : Resting s₀ (s.applyFlip mem inst addr enc) := h.quiet (quiet_applyFlip ..)

theorem setMemErr {mem inst addr e} : Resting s₀ (s.setMemErr mem inst addr e) := h.frame

theorem logCe {mem inst addr synd source} : Resting s₀ (s.logCe mem inst addr synd source) := .ite h h.wr.wr.wr.wr

theorem logUe {type mem inst addr synd source} : Resting s₀ (s.logUe type mem inst addr synd source) := .ite h h.wr.wr.wr.wr

theorem addRepair {mem inst row} : Resting s₀ (s.addRepair mem inst row) := .ite h (.ite h.bump.raise h.frame)

theorem weakRow {mem inst addr} : Resting s₀ (s.weakRow mem inst addr) := h.wr.wr.bump.raise.addRepair

theorem offerTrk {mem inst addr} : Resting s₀ (s.offerTrk mem inst addr) := by
  unfold State.offerTrk
  dsimp only
  split
  · exact .ite h.frame.weakRow h.frame
  · exact .ite h.frame h.bump

theorem corrected {mem inst addr synd source} : Resting s₀ (s.corrected mem inst addr synd source) :=
  h.setMemErr.bump.logCe.raise.offerTrk

theorem reloadSlot {n} : Resting s₀ (s.reloadSlot n) := foldl h.frame fun _ _ h1 => h1.memWrite

theorem keyFail {mem addr} : Resting s₀ (s.keyFail mem addr) := .ite h.reloadSlot h

theorem saFail {mem addr} : Resting s₀ (s.saFail mem addr) :=
  .ite h (.raise (.frame (h.wr.foldl fun _ _ h1 => h1.setMemErr)))

theorem uncorrectable {mem inst addr synd source} : Resting s₀ (s.uncorrectable mem inst addr synd source) :=
  h.setMemErr.bump.logUe.raise.saFail.keyFail

theorem poisonRead {mem inst addr source} : Resting s₀ (s.poisonRead mem inst addr source) := h.bump.logUe.saFail.keyFail

theorem setEnt {id par n e} : Resting s₀ (s.setEnt id par n e) := h.frame

theorem putRawWord {mem inst addr bs} : Resting s₀ (s.putRawWord mem inst addr bs) := h.frame

theorem putOperWord {p i w} : Resting s₀ (s.putOperWord p i w) := by
  unfold State.putOperWord
  dsimp only
  split
  · exact h.frame
  · exact h

theorem putMemWord {mem inst addr bs} : Resting s₀ (s.putMemWord mem inst addr bs) := by
  unfold State.putMemWord
  split
  · exact h.putRawWord
  · exact .setEnt h.setEnt
  · exact h.wr.putRawWord
  · exact h.putOperWord.putRawWord

theorem poisonWrite {mem inst addr} : Resting s₀ (s.poisonWrite mem inst addr) := .ite h.applyFlip h.setMemErr

theorem flushEnt {e} : Resting s₀ (s.flushEnt e) := by
  unfold State.flushEnt
  split
  · exact .ite h.putMemWord.memWrite h.putMemWord.memWrite
  · exact .ite h.putMemWord.memWrite h.corrected.putMemWord.memWrite
  · exact .ite h.putMemWord.memWrite h.putMemWord.poisonWrite.bump.logUe.raise
  · exact .ite h.putMemWord.memWrite h.putMemWord.poisonWrite.bump.logUe

theorem flushWord {mem inst addr} : Resting s₀ (s.flushWord mem inst addr) := h.frame.foldl fun _ _ h1 => h1.flushEnt

theorem memRead {mem inst addr u source} : Resting s₀ (s.memRead mem inst addr u source).1 := by
  unfold State.memRead
  dsimp only
  split
  · exact h.flushWord
  · exact h.flushWord.corrected
  · exact h.flushWord.uncorrectable
  · exact h.flushWord.setMemErr.poisonRead

theorem useRead {mem inst addr n} : Resting s₀ (s.useRead mem inst addr n).1 :=
  .iteFst h (h.foldlFst fun _ _ h1 => h1.flushWord.memRead.bumpIf)

/-! ### The sleep entry, the clocks and the outputs -/

theorem sendStatus : Resting s₀ s.sendStatus := h.quiet (quiet_sendStatus s)

theorem setRole {r} : Resting s₀ (s.setRole r) := .ite h (.ite h.frame.sendStatus h.frame)

theorem setRing {r} : Resting s₀ (s.setRing r) := h.frame

theorem emit {o} : Resting s₀ (s.emit o) := h.frame

theorem sendBall {type k} : Resting s₀ (s.sendBall type k) := .ite h (.ite (.ite h h.emit.bump) h.emit)

theorem tickCommit : Resting s₀ s.tickCommit :=
  .ite (foldl (.ite h.setRing.setRole h.setRing) fun _ _ h1 => h1.sendBall) h

theorem keepPast : Resting s₀ s.keepPast := h.frame

theorem tickDoms : Resting s₀ s.tickDoms := .frame (h.foldl fun _ _ h1 => .ite h1.frame h1)

theorem tickPoints : Resting s₀ s.tickPoints := h.foldl fun _ _ h1 => .ite h1 h1.frame

theorem tickCredit {q} : Resting s₀ (s.tickCredit q) := .ite h (.ite h.frame (.ite h.frame (.ite h.frame h)))

theorem tickStarve : Resting s₀ s.tickStarve := by
  refine h.foldl fun u x hu => ?_
  dsimp only
  split
  · exact .ite hu.frame hu
  · exact hu

theorem tickSched : Resting s₀ s.tickSched :=
  tickStarve (foldl (foldl (h.foldl fun _ _ h1 => h1.frame) fun _ _ h1 => h1.frame) fun _ _ h1 => h1.tickCredit)

/-! ### REDLINK and the control pair -/

theorem setBall {b level} : Resting s₀ (s.setBall b level) := .ite h h.wr.wr

theorem tickRedlink : Resting s₀ s.tickRedlink := .ite (.ite h.setBall h) h.setBall

theorem flagsChanged {old} : Resting s₀ (s.flagsChanged old) := .ite h.sendStatus h

theorem splitDone : Resting s₀ s.splitDone := .ite h (flagsChanged (raise (bump h.frame)))

theorem repair {fail} : Resting s₀ (s.repair fail) :=
  .ite h (.ite (flagsChanged (raise (wr h).frame)) (quiet (wr h).frame (quiet_fault ..)))

end Resting

variable {s t : State}

/-! ### The queues that a tick serves, empty -/

theorem State.applyJumps_nil (hq : s.tim.jumps = []) : s.applyJumps = s := by
  show List.foldl _ { s with tim := { s.tim with jumps := _ } } _ = s
  rw [hq]
  show { s with tim := { s.tim with jumps := [] } } = s
  rw [← hq]

theorem State.drainHost_nil (hspi : s.hbr.spiQ = []) (hpcie : s.hbr.pcieQ = []) : s.drainHost = s := by
  have hdrain (p : Path) (hp : s.postQ p = []) : s.drain p = s := if_pos (by rw [hp]; rfl)
  rw [State.drainHost, hdrain .pcie hpcie, hdrain .spi hspi]

theorem State.drainLeg_nil (hq : s.net.legRx = []) : s.drainLeg = s := by
  rw [State.drainLeg, hq]
  show { s with net := { s.net with legRx := [] } } = s
  rw [← hq]

/-- `s` with LT one tick later. -/
def State.ltNext (s : State) : State := { s with tim := { s.tim with lt := s.tim.lt + 1 } }

theorem Resting.ltNext (h : Resting s t) : Resting s.ltNext t.ltNext :=
  ⟨h.now, h.pending, h.op, congrArg (· + 1) h.lt, h.jumps, h.spiQ, h.pcieQ, h.legRx⟩

theorem Resting.tickTime (h : Resting s t) : Resting s.ltNext t.tickTime := h.ltNext.tickDoms

/-! ### What a tick can do -/

theorem State.enterBoot_keeps (cause : Nat) (hard : Bool) :
    (s.enterBoot cause hard).now = s.now ∧ (s.enterBoot cause hard).pending = s.pending ∧ (s.enterBoot cause hard).op = .boot :=
  let q := quiet_raiseIf (s := State.wr _ _ _ _) _ _
  ⟨q.now, q.pending, q.op⟩

theorem State.restart_keeps : s.restart.now = s.now ∧ s.restart.pending = s.pending ∧ s.restart.op = .boot := by
  unfold State.restart
  split
  · exact State.enterBoot_keeps (s := s.setBcr _) 7 false
  · exact State.enterBoot_keeps 7 false

/-- `t` goes on where `s` is at rest, or has restarted out of RUN. -/
def RestsOrRestarts (s t : State) : Prop :=
  Resting s t ∨ (t.now = s.now ∧ t.pending = s.pending ∧ s.op = .run ∧ t.op = .boot)

theorem State.pairFetch_restsOrRestarts : RestsOrRestarts s s.pairFetch := by
  unfold State.pairFetch
  extract_lets lo l r t u
  split
  · exact .inl (.refl s)
  next hguard =>
    have hrun : s.op = .run := by
      simp only [Bool.or_eq_true, not_or, bne_iff_ne, ne_eq, not_not] at hguard
      obtain ⟨⟨⟨-, hop⟩, -⟩, -⟩ := hguard
      exact hop
    have ht : Resting s t := .foldlFst (.refl s) fun _ _ hu => hu.useRead
    have hu : Resting s u := ht.frame
    split
    · exact .inl ht
    · split
      · exact .inl hu.repair
      · obtain ⟨hnow, hpending, hop⟩ := u.restart_keeps
        exact .inr ⟨hnow.trans hu.now, hpending.trans hu.pending, hrun, hop⟩

/-- With empty queues, a tick of the fabric clock advances LT and leaves the device at rest, or the device restarts out of RUN. -/
theorem State.tickFabric_restsOrRestarts (hspi : s.hbr.spiQ = []) (hpcie : s.hbr.pcieQ = []) (hleg : s.net.legRx = [])
    (hjumps : s.tim.jumps = []) : RestsOrRestarts s.ltNext s.tickFabric := by
  have hpast : Resting s s.tickCommit.keepPast := (Resting.refl s).tickCommit.keepPast
  have hsched : Resting s.ltNext s.tickCommit.keepPast.tickTime.tickPoints.tickSched := hpast.tickTime.tickPoints.tickSched
  have hdone := hsched.tickRedlink.splitDone
  rw [State.tickFabric, State.applyJumps_nil (hpast.jumps.trans hjumps), State.drainHost_nil (hsched.spiQ.trans hspi)
    (hsched.pcieQ.trans hpcie), State.drainLeg_nil (hsched.legRx.trans hleg)]
  obtain hrest | ⟨hnow, hpending, hrun, hop⟩ := State.pairFetch_restsOrRestarts
  · exact .inl (hdone.trans hrest)
  · exact .inr ⟨hnow.trans hdone.now, hpending.trans hdone.pending, hdone.op.symm.trans hrun, hop⟩

theorem step_of_idle (hpending : s.pending = []) : step s = .next s.tick := by
  rw [step, hpending]

theorem State.tick_fabricOn (hfab : s.fabricOn = true) : s.tick = { s with now := s.now + 1 }.tickFabric := if_pos hfab

theorem State.tick_stopped (hfab : s.fabricOn = false) : s.tick = { s with now := s.now + 1 } := if_neg (Bool.eq_false_iff.mp hfab)

/-- Settles O2: a step without a command is a tick, which serves only empty queues. -/
theorem idleStepIsOneTick : Obligations.IdleStepIsOneTick := by
  unfold Obligations.IdleStepIsOneTick
  refine fun s hpending => ⟨step_of_idle hpending, fun hfab hspi hpcie hleg hjumps => ?_, State.tick_stopped⟩
  rw [State.tick_fabricOn hfab]
  obtain hrest | ⟨hnow, hwaits, hrun, hboot⟩ :=
    State.tickFabric_restsOrRestarts (s := { s with now := s.now + 1 }) hspi hpcie hleg hjumps
  · exact ⟨hrest.now, hrest.pending.trans hpending, .inl hrest.lt, fun _ => hrest.lt⟩
  · exact ⟨hnow, hwaits.trans hpending, .inr ⟨hrun, hboot⟩, fun hop => absurd hrun hop⟩

end Sys2Proof.Machine
end

section
/-! ## Schedules, their commits and their takeovers (R225 to R229)

Tide tables and stream gates have one kind of schedule: what a takeover and the end of a window make of one is said here for both. -/

namespace Sys2Proof.Machine

open Sys2Proof

variable {s t : State}

/-! ### Writes of a register that takes every value -/

section Write

variable {r : Reg} {i : Nat} {data : Word} (hany : ∀ f ∈ r.info.fields, f.chk = .any)
include hany

theorem State.writeReg_of_any : s.writeReg r i data = s.wr r i (s.merged r i data) :=
  State.writeReg_allowed fun f hf => by rw [hany f hf]; rfl

theorem regsBut_writeReg_of_any : regsBut [r] s (s.writeReg r i data) := by
  rw [State.writeReg_of_any hany]
  exact regsBut_wr s r i _

theorem State.flushBlk_writeReg_of_any (hmerge : s.mem.merge = []) (b : Blk) :
    (s.writeReg r i data).flushBlk b = s.writeReg r i data := by
  rw [State.writeReg_of_any hany]
  exact State.flushBlk_of_merge_nil (s := s.wr r i _) hmerge b

end Write

/-- A one-bit field that has taken a written bit is on when that bit is 1. -/
theorem State.on_of_fld {f : RegField} {i : Nat} {data : Word} (hbit : f.hi = f.lo) (h : s.fld f i = f.of data) :
    s.on f i = (f.of data == 1) := by
  rw [Bool.eq_iff_iff, State.on_iff hbit, beq_iff_eq, h]

theorem State.fld_of_regsBut {l : List Reg} (h : regsBut l s t) {f : RegField} (hf : f.reg ∉ l) (i : Nat) : t.fld f i = s.fld f i :=
  congrArg (getBits · f.hi f.lo) (h f.reg i hf)

/-! ### Schedules -/

theorem State.schedOk_congr (h : ∀ d, t.rd .timDomCfg d = s.rd .timDomCfg d) (n : Nat) (r : Sched) :
    t.schedOk n r = s.schedOk n r := by
  simp only [State.schedOk, State.on, State.fld, F.timDomCfg_en, h]

theorem State.changeTime_congr (h : t.tim = s.tim) (r : Sched) : t.changeTime r = s.changeTime r := by
  rw [State.changeTime, State.dom_congr h, State.changeTime]

theorem State.refresh_schedules (s : State) (x : Tide) :
    (s.refresh x).run = x.run ∧ (s.refresh x).pend = x.pend ∧ (s.refresh x).busy = x.busy := by
  unfold State.refresh
  split <;> exact ⟨rfl, rfl, rfl⟩

/-- At a takeover the pending schedule becomes the operational one, and the admin values stay closed for 4 us. -/
theorem State.takeOver_spec {x : Tide} {q : Sched} {c : Nat} (h : x.pend = some (q, c)) :
    (s.takeOver x).run = some q ∧ (s.takeOver x).pend = none ∧ (s.takeOver x).busy = some (s.tim.lt + tkUs 4) := by
  unfold State.takeOver
  rw [h]
  exact State.refresh_schedules ..

theorem State.tideClosed_of_busy {x : Tide} {b : Nat} (hbusy : x.busy = some b) (hlt : s.tim.lt < b) : s.tideClosed x = true := by
  simp [State.tideClosed, hbusy, hlt]

end Sys2Proof.Machine
end

section
/-! ## Tide tables (R225 to R229) -/

namespace Sys2Proof.Machine

open Sys2Proof

variable {s t : State} {p : Nat} {data : Word}

/-! ### The table of a port -/

@[simp] theorem State.tide_setTide_same (s : State) (p : Nat) (x : Tide) : (s.setTide p x).tide p = x := tblGet_set_same ..

theorem State.tide_setTide_other (s : State) {p q : Nat} (x : Tide) (h : q ≠ p) : (s.setTide p x).tide q = s.tide q :=
  tblGet_set_other _ _ _ _ _ _ h

theorem State.tide_congr (h : t.net = s.net) (p : Nat) : t.tide p = s.tide p := by
  rw [State.tide, h, State.tide]

/-- The mark of copies that outlast their gate changes nothing but ports. -/
theorem State.lateMark_eq (s : State) (p : Nat) : ∃ ports, s.lateMark p = { s with net := { s.net with ports := ports } } := by
  unfold State.lateMark
  dsimp only
  split
  · exact ⟨_, rfl⟩
  · exact ⟨_, rfl⟩

theorem State.tide_lateMark (s : State) (p q : Nat) : (s.lateMark p).tide q = s.tide q := by
  obtain ⟨ports, e⟩ := s.lateMark_eq p
  rw [e]
  rfl

/-! ### Commit and cancel -/

theorem State.tideAdmin_congr (h : regsBut [.tgaCfg] s t) (hdom : t.fld F.tgaCfg_dom p = s.fld F.tgaCfg_dom p) :
    t.tideAdmin p = s.tideAdmin p := by
  simp only [State.tideAdmin, State.ptpRead, hdom, h .tgaAdminBase _ (by decide), h .tgaAdminCycle _ (by decide),
    h .tgaAdminExt _ (by decide), State.fld_of_regsBut h (f := F.tgaAdminLen_list_len) (by decide),
    State.fld_of_regsBut h (f := F.tgaAdminEntry_gates) (by decide), State.fld_of_regsBut h (f := F.tgaAdminEntry_interval_ns) (by decide)]

@[simp] theorem State.tide_setFld (s : State) (f : RegField) (i v p : Nat) : (s.setFld f i v).tide p = s.tide p := rfl

@[simp] theorem State.tide_ptpWrite (s : State) (r : Reg) (i p : Nat) (v : Word × Word × Word) :
    (s.ptpWrite r i v).tide p = s.tide p := rfl

/-- The admin values of port `p` are pending for the change time `c`. -/
def State.tidePending (s : State) (p c : Nat) : State :=
  (s.setTide p { s.tide p with pend := some (s.tideAdmin p, c) }).ptpWrite .tgaChangeTime (3 * p) (ptpOf c)

theorem State.tidePending_spec (s : State) (p c : Nat) :
    (s.tidePending p c).tide p = { s.tide p with pend := some (s.tideAdmin p, c) } ∧
      (s.tidePending p c).ptpRead .tgaChangeTime (3 * p) = ptpOf c ∧ regsBut [.tgaChangeTime] s (s.tidePending p c) := by
  refine ⟨?_, (State.ptpRead_ptpWrite ..).trans (if_pos rfl), fun q i hq => ?_⟩
  · rw [State.tidePending, State.tide_ptpWrite, State.tide_setTide_same]
  · exact State.rd_ptpWrite_other _ _ _ _ (List.ne_of_not_mem_cons hq)

/-- A commit of allowed values makes them pending; base_past tells whether the base time has passed (R227). -/
theorem State.tideCommit_allowed (hpend : (s.tide p).pend = none)
    (hok : s.schedOk (s.fld F.tgaAdminLen_list_len p) (s.tideAdmin p) = true) : s.tideCommit p =
      let u := s.tidePending p (s.changeTime (s.tideAdmin p))
      if s.changeTime (s.tideAdmin p) = (s.tideAdmin p).base then u else u.setFld F.tgaStat_base_past p 1 := by
  unfold State.tideCommit
  simp only [hpend, hok, Option.isSome_none, Bool.not_true, Bool.false_eq_true, if_false, State.tidePending]

theorem State.tideCommit_spec {c : Nat} (hpend : (s.tide p).pend = none)
    (hok : s.schedOk (s.fld F.tgaAdminLen_list_len p) (s.tideAdmin p) = true) (hc : s.changeTime (s.tideAdmin p) = c) :
    (s.tideCommit p).tide p = { s.tide p with pend := some (s.tideAdmin p, c) } ∧
      (s.tideCommit p).ptpRead .tgaChangeTime (3 * p) = ptpOf c ∧ (s.tideCommit p).rd .tgaCfg p = s.rd .tgaCfg p := by
  obtain ⟨htide, hread, hregs⟩ := s.tidePending_spec p c
  have hcfg := hregs .tgaCfg p (by decide)
  rw [State.tideCommit_allowed hpend hok, hc]
  dsimp only
  split
  · exact ⟨htide, hread, hcfg⟩
  · have hstat (r : Reg) (i : Nat) (hr : r ≠ .tgaStat) :
        ((s.tidePending p c).setFld F.tgaStat_base_past p 1).rd r i = (s.tidePending p c).rd r i := State.rd_wr_reg _ _ _ _ _ _ hr
    refine ⟨(State.tide_setFld ..).trans htide, ?_, (hstat .tgaCfg p (by decide)).trans hcfg⟩
    rw [← hread]
    simp only [State.ptpRead, hstat .tgaChangeTime _ (by decide)]

theorem State.tideCommit_refused (hpend : (s.tide p).pend = none)
    (hok : s.schedOk (s.fld F.tgaAdminLen_list_len p) (s.tideAdmin p) = false) : s.tideCommit p = s.accessErr .tga := by
  unfold State.tideCommit
  simp only [hpend, hok, Option.isSome_none, Bool.not_false, Bool.false_eq_true, if_false, if_true]

theorem tgaCfg_any : ∀ f ∈ Reg.tgaCfg.info.fields, f.chk = .any := by decide

section Config

variable (hdom : F.tgaCfg_dom.of data = s.fld F.tgaCfg_dom p)
include hdom

theorem State.tgaCfg_dom_kept : (s.writeReg .tgaCfg p data).fld F.tgaCfg_dom p = s.fld F.tgaCfg_dom p :=
  (State.fld_writeReg (f := F.tgaCfg_dom) s p .any rfl (by decide) rfl).trans hdom

/-- A write that keeps the domain cancels first and then commits. -/
theorem State.wrTgaCfg_eq : s.wrTgaCfg p data =
    let u := s.writeReg .tgaCfg p data
    let u := if F.tgaCfg_cancel.of data = 1 then u.setTide p { u.tide p with pend := none } else u
    if F.tgaCfg_commit.of data = 1 then (u.flushBlk .tga).tideCommit p else u := by
  unfold State.wrTgaCfg
  simp only [State.tgaCfg_dom_kept hdom, bne_self_eq_false, Bool.and_false, Bool.false_eq_true, if_false]

theorem State.wrTgaCfg_cancel (hcancel : F.tgaCfg_cancel.of data = 1) (hcommit : F.tgaCfg_commit.of data = 0) :
    (s.wrTgaCfg p data).tide p = { s.tide p with pend := none } := by
  have hno : ¬F.tgaCfg_commit.of data = 1 := by rw [hcommit]; decide
  rw [State.wrTgaCfg_eq hdom]
  simp only [if_pos hcancel, if_neg hno, State.tide_setTide_same, State.tide_congr (State.writeReg_net ..)]

/-- The admin values that a write commits are those before it. -/
theorem State.tideAdmin_kept_tgaCfg (hpend : (s.tide p).pend = none) {ok : Bool}
    (hok : s.schedOk (s.fld F.tgaAdminLen_list_len p) (s.tideAdmin p) = ok) :
    let u := s.writeReg .tgaCfg p data
    u.tideAdmin p = s.tideAdmin p ∧ (u.tide p).pend = none ∧
      u.schedOk (u.fld F.tgaAdminLen_list_len p) (u.tideAdmin p) = ok := by
  intro u
  have hregs : regsBut [.tgaCfg] s u := regsBut_writeReg_of_any tgaCfg_any
  have hadmin : u.tideAdmin p = s.tideAdmin p := State.tideAdmin_congr hregs (State.tgaCfg_dom_kept hdom)
  have hlen : u.fld F.tgaAdminLen_list_len p = s.fld F.tgaAdminLen_list_len p := State.fld_writeReg_other _ (by decide) (by decide)
  refine ⟨hadmin, (congrArg Tide.pend (State.tide_congr (State.writeReg_net ..) p)).trans hpend, ?_⟩
  rw [hadmin, hlen, State.schedOk_congr (fun d => hregs .timDomCfg d (by decide)), hok]

variable (hmerge : s.mem.merge = []) (hcancel : F.tgaCfg_cancel.of data = 0) (hcommit : F.tgaCfg_commit.of data = 1)
include hmerge hcancel hcommit

theorem State.wrTgaCfg_commit : s.wrTgaCfg p data = (s.writeReg .tgaCfg p data).tideCommit p := by
  have hno : ¬F.tgaCfg_cancel.of data = 1 := by rw [hcancel]; decide
  rw [State.wrTgaCfg_eq hdom]
  simp only [if_neg hno, if_pos hcommit]
  rw [State.flushBlk_writeReg_of_any tgaCfg_any hmerge]

variable (hpend : (s.tide p).pend = none)
include hpend

theorem State.wrTgaCfg_allowed (hok : s.schedOk (s.fld F.tgaAdminLen_list_len p) (s.tideAdmin p) = true) :
    let c := s.changeTime (s.tideAdmin p)
    let u := s.wrTgaCfg p data
    (u.tide p).pend = some (s.tideAdmin p, c) ∧ (u.tide p).run = (s.tide p).run ∧
      u.on F.tgaCfg_en p = (F.tgaCfg_en.of data == 1) ∧ u.ptpRead .tgaChangeTime (3 * p) = ptpOf c := by
  intro c u
  obtain ⟨hadmin, hnone, hok'⟩ := State.tideAdmin_kept_tgaCfg hdom hpend hok
  have htime : (s.writeReg .tgaCfg p data).changeTime ((s.writeReg .tgaCfg p data).tideAdmin p) = s.changeTime (s.tideAdmin p) := by
    rw [hadmin, State.changeTime_congr (State.writeReg_tim ..)]
  have hen : (s.writeReg .tgaCfg p data).fld F.tgaCfg_en p = F.tgaCfg_en.of data := State.fld_writeReg s p .any rfl (by decide) rfl
  obtain ⟨htide, hread, hcfg⟩ := State.tideCommit_spec hnone hok' htime
  rw [hadmin, State.tide_congr (State.writeReg_net ..)] at htide
  unfold u
  rw [State.wrTgaCfg_commit hdom hmerge hcancel hcommit, htide]
  exact ⟨rfl, rfl, State.on_of_fld rfl ((congrArg (getBits · 31 31) hcfg).trans hen), hread⟩

theorem State.wrTgaCfg_refused (hok : s.schedOk (s.fld F.tgaAdminLen_list_len p) (s.tideAdmin p) = false) :
    s.wrTgaCfg p data = (s.writeReg .tgaCfg p data).accessErr .tga ∧ ((s.wrTgaCfg p data).tide p).pend = none := by
  obtain ⟨-, hnone, hok'⟩ := State.tideAdmin_kept_tgaCfg hdom hpend hok
  have e : s.wrTgaCfg p data = (s.writeReg .tgaCfg p data).accessErr .tga :=
    (State.wrTgaCfg_commit hdom hmerge hcancel hcommit).trans (State.tideCommit_refused hnone hok')
  refine ⟨e, ?_⟩
  rw [e, State.tide_congr (State.accessErr_net ..), hnone]

end Config

/-! ### Takeover and entry change -/

/-- The lists are copied word by word in the memory of the tide tables. -/
theorem quiet_tideCopy (s : State) (p n : Nat) : Quiet s ((List.range n).foldl
    (fun s i => (s.memWrite 5 p (tideOperWord i)).memWrite 5 p (tideAdminWord i)) s) :=
  List.foldlRecOn _ _ (Quiet.refl s) fun _ h _ _ => (h.trans (quiet_memWrite ..)).trans (quiet_memWrite ..)

theorem listed_tideTakeover : ∀ p : Fin 16, Ev.listed (Ev.tideTakeover p) = true := by decide

theorem State.tideTakeover_spec {q : Sched} {c : Nat} (hpend : (s.tide p).pend = some (q, c)) :
    let u := s.tideTakeover p
    (u.tide p).run = some q ∧ (u.tide p).pend = none ∧ (u.tide p).busy = some (s.tim.lt + tkUs 4) ∧ u.tim = s.tim := by
  unfold State.tideTakeover
  extract_lets n u
  have hu : Quiet s u := quiet_tideCopy s p n
  obtain ⟨ports, e⟩ := (u.setTide p (u.takeOver (u.tide p))).lateMark_eq p
  have hpend' : (u.tide p).pend = some (q, c) := by rw [State.tide_congr hu.net, hpend]
  obtain ⟨hrun, hnone, hbusy⟩ := State.takeOver_spec (s := u) hpend'
  rw [State.tide_congr (State.raise_net ..), State.tide_lateMark, State.tide_setTide_same, State.raise_tim, e, ← hu.tim]
  exact ⟨hrun, hnone, hbusy, rfl⟩

theorem State.tideCheck_clean (h : s.memClean = true) : s.tideCheck p = s := by
  unfold State.tideCheck
  split
  · rfl
  · exact if_pos h

theorem State.tideEntryChange_spec (s : State) (p : Nat) :
    let u := (s.setTide p (s.refresh (s.tide p))).lateMark p
    u.tide p = s.refresh (s.tide p) ∧ (∀ q, q ≠ p → u.tide q = s.tide q) ∧ keeps [.regs, .ctrs, .tim, .mem] s u := by
  refine ⟨?_, fun q hq => ?_, ?_⟩
  · rw [State.tide_lateMark, State.tide_setTide_same]
  · rw [State.tide_lateMark, State.tide_setTide_other _ _ hq]
  · obtain ⟨ports, e⟩ := (s.setTide p (s.refresh (s.tide p))).lateMark_eq p
    rw [e]
    simp [keeps, Part.same, State.setTide]

end Sys2Proof.Machine
end

section
/-! ## Stream gates (R190) -/

namespace Sys2Proof.Machine

open Sys2Proof

variable {s t : State} {g : Nat} {data : Word}

@[simp] theorem State.gate_setGate_same (s : State) (g : Nat) (x : Tide) : (s.setGate g x).gate g = x := tblGet_set_same ..

theorem State.gate_setGate_other (s : State) {g k : Nat} (x : Tide) (h : k ≠ g) : (s.setGate g x).gate k = s.gate k :=
  tblGet_set_other _ _ _ _ _ _ h

@[simp] theorem State.fld_setGate (s : State) (g : Nat) (x : Tide) (f : RegField) (i : Nat) : (s.setGate g x).fld f i = s.fld f i := rfl

@[simp] theorem State.gate_wr (s : State) (r : Reg) (i : Nat) (w : Word) (g : Nat) : (s.wr r i w).gate g = s.gate g := rfl

theorem State.gate_congr (h : t.net = s.net) (g : Nat) : t.gate g = s.gate g := by
  rw [State.gate, h, State.gate]

/-! ### Commit -/

theorem State.gateAdmin_congr (h : regsBut [.schGateCfg] s t) (hdom : t.fld F.schGateCfg_domain g = s.fld F.schGateCfg_domain g) :
    t.gateAdmin g = s.gateAdmin g := by
  simp only [State.gateAdmin, State.ptpRead, hdom, h .schGateBase _ (by decide), h .schGateCycle _ (by decide),
    h .schGateAdmin1 _ (by decide), State.fld_of_regsBut h (f := F.schGateList_list_base) (by decide),
    State.fld_of_regsBut h (f := F.schGateList_list_len) (by decide), State.fld_of_regsBut h (f := F.schGateAdmin0_open) (by decide),
    State.fld_of_regsBut h (f := F.schGateAdmin0_interval_ns) (by decide)]

/-- A commit of allowed values makes them pending, with their change time. -/
theorem State.gateCommit_allowed {r : Sched} (hpend : (s.gate g).pend = none) (hadmin : s.gateAdmin g = some r)
    (hok : s.schedOk (s.fld F.schGateList_list_len g) r = true) :
    s.gateCommit g = s.setGate g { s.gate g with pend := some (r, s.changeTime r) } := by
  unfold State.gateCommit
  simp only [hpend, hadmin, hok, Option.isSome_none, Bool.not_true, Bool.false_eq_true, if_false]

theorem schGateCfg_any : ∀ f ∈ Reg.schGateCfg.info.fields, f.chk = .any := by decide

section Config

variable (hdom : F.schGateCfg_domain.of data = s.fld F.schGateCfg_domain g)
include hdom

theorem State.schGateCfg_domain_kept : (s.writeReg .schGateCfg g data).fld F.schGateCfg_domain g = s.fld F.schGateCfg_domain g :=
  (State.fld_writeReg (f := F.schGateCfg_domain) s g .any rfl (by decide) rfl).trans hdom

theorem State.wrGateCfg_commit (hmerge : s.mem.merge = []) (hcommit : F.schGateCfg_commit.of data = 1) :
    s.wrGateCfg g data = (s.writeReg .schGateCfg g data).gateCommit g := by
  unfold State.wrGateCfg
  simp only [State.schGateCfg_domain_kept hdom, bne_self_eq_false, Bool.and_false, Bool.false_eq_true, if_false, if_pos hcommit]
  rw [State.flushBlk_writeReg_of_any schGateCfg_any hmerge]

theorem State.wrGateCfg_allowed (hmerge : s.mem.merge = []) (hcommit : F.schGateCfg_commit.of data = 1)
    (hpend : (s.gate g).pend = none) {r : Sched} (hadmin : s.gateAdmin g = some r)
    (hok : s.schedOk (s.fld F.schGateList_list_len g) r = true) :
    (s.wrGateCfg g data).gate g = { s.gate g with pend := some (r, s.changeTime r) } ∧
      (s.wrGateCfg g data).on F.schGateCfg_en g = (F.schGateCfg_en.of data == 1) := by
  have hregs : regsBut [.schGateCfg] s (s.writeReg .schGateCfg g data) := regsBut_writeReg_of_any schGateCfg_any
  have hgate := State.gate_congr (State.writeReg_net s .schGateCfg g data) g
  have hlen : (s.writeReg .schGateCfg g data).fld F.schGateList_list_len g = s.fld F.schGateList_list_len g :=
    State.fld_writeReg_other _ (by decide) (by decide)
  have hadmin' := (State.gateAdmin_congr hregs (State.schGateCfg_domain_kept hdom)).trans hadmin
  have hok' := (State.schedOk_congr (fun d => hregs .timDomCfg d (by decide)) _ r).trans (hlen ▸ hok)
  rw [State.wrGateCfg_commit hdom hmerge hcommit, State.gateCommit_allowed (by rw [hgate, hpend]) hadmin' hok',
    State.gate_setGate_same, hgate, State.changeTime_congr (State.writeReg_tim ..)]
  refine ⟨rfl, State.on_of_fld rfl ?_⟩
  rw [State.fld_setGate]
  exact State.fld_writeReg s g .any rfl (by decide) rfl

end Config

/-! ### Takeover -/

/-- The list of gate `g` has been copied from the admin pool to the operational pool. -/
def State.gateCopied (s : State) (g : Nat) : State :=
  let b := s.fld F.schGateList_list_base g
  (List.range (s.fld F.schGateList_list_len g)).foldl (fun s i =>
    (s.wr .schGateOper0 (b + i) (s.rd .schGateAdmin0 (b + i))).wr .schGateOper1 (b + i) (s.rd .schGateAdmin1 (b + i))) s

theorem State.gateCopied_spec (s : State) (g : Nat) :
    (s.gateCopied g).net = s.net ∧ (s.gateCopied g).tim = s.tim ∧ regsBut [.schGateOper0, .schGateOper1] s (s.gateCopied g) := by
  refine List.foldlRecOn (motive := fun u : State => u.net = s.net ∧ u.tim = s.tim ∧ regsBut [.schGateOper0, .schGateOper1] s u)
    _ _ ⟨rfl, rfl, fun _ _ _ => rfl⟩ fun u h i _ => ?_
  obtain ⟨hnet, htim, hregs⟩ := h
  refine ⟨hnet, htim, fun r j hr => ?_⟩
  have h0 : r ≠ .schGateOper0 := List.ne_of_not_mem_cons hr
  have h1 : r ≠ .schGateOper1 := List.ne_of_not_mem_cons (List.not_mem_of_not_mem_cons hr)
  exact (State.rd_wr_reg _ _ _ _ _ _ h1).trans ((State.rd_wr_reg _ _ _ _ _ _ h0).trans (hregs r j hr))

/-- Once its list is copied, a gate takes its pending schedule over and shows it in SCH_GATE_OPER. -/
theorem State.gateTakeover_eq (s : State) (g : Nat) : ∃ w, s.gateTakeover g =
    ((s.gateCopied g).setGate g ((s.gateCopied g).takeOver ((s.gateCopied g).gate g))).wr .schGateOper g w := ⟨_, rfl⟩

theorem State.gateTakeover_spec {q : Sched} {c : Nat} (hpend : (s.gate g).pend = some (q, c)) :
    let u := s.gateTakeover g
    (u.gate g).run = some q ∧ (u.gate g).pend = none ∧ (u.gate g).busy = some (s.tim.lt + tkUs 4) ∧
      regsBut [.schGateOper0, .schGateOper1, .schGateOper] s u := by
  obtain ⟨hnet, htim, hregs⟩ := s.gateCopied_spec g
  obtain ⟨w, e⟩ := s.gateTakeover_eq g
  have hgate : (s.gateTakeover g).gate g = (s.gateCopied g).takeOver (s.gate g) := by
    rw [e, State.gate_wr, State.gate_setGate_same, State.gate_congr hnet]
  obtain ⟨hrun, hnone, hbusy⟩ := State.takeOver_spec (s := s.gateCopied g) hpend
  dsimp only
  rw [hgate, ← htim]
  refine ⟨hrun, hnone, hbusy, fun r i hr => ?_⟩
  have hoper : r ≠ .schGateOper := fun e => hr (by simp [e])
  rw [e]
  exact (State.rd_wr_reg _ _ _ _ _ _ hoper).trans (hregs r i fun h => hr (List.mem_append_left [Reg.schGateOper] h))

/-- Settles O33: a commit is a write of the configuration and one of the pending schedule, a takeover is `takeOver`, and the end of a
window is `refresh`. -/
theorem tideTablesAndStreamGates : Obligations.TideTablesAndStreamGates := by
  refine ⟨fun s p => ⟨fun path data hs hpend hcommit hmerge hcancel hdom => ⟨fun hok => ?_, fun hok => ?_⟩,
    fun path data hs hcancel hcommit hdom => ?_, fun q c hfab hpend hdue => ?_, ?_, fun hfab hclean => ?_⟩,
    fun s g => ⟨fun path data r hs hpend hmerge hcommit hdom hadmin hok => ?_, fun q c hfab hpend hdue => ?_, fun hfab => ?_⟩⟩
  · exact ⟨_, next_of_serves hs rfl, State.wrTgaCfg_allowed (s := s.nextSeq path) hdom hmerge hcancel hcommit hpend hok⟩
  · obtain ⟨e, hnone⟩ := State.wrTgaCfg_refused (s := s.nextSeq path) hdom hmerge hcancel hcommit hpend hok
    refine ⟨_, next_of_serves hs rfl, hnone, ?_⟩
    rw [e]
    exact State.statBit_raise (by decide)
  · exact ⟨_, next_of_serves hs rfl, State.wrTgaCfg_cancel (s := s.nextSeq path) hdom hcancel hcommit⟩
  · obtain ⟨hrun, hnone, hbusy, htim⟩ := State.tideTakeover_spec hpend
    refine ⟨_, congrArg Host.Outcome.next (if_pos (by rw [hfab, hdue]; rfl)), hrun, hnone, hbusy, ?_,
      State.statBit_raise (listed_tideTakeover p)⟩
    exact State.tideClosed_of_busy hbusy (by rw [htim]; exact Nat.lt_add_of_pos_right (by decide))
  · exact ⟨_, rfl, State.tide_setTide_same .., rfl⟩
  · have hclean' : (s.setTide p (s.refresh (s.tide p))).memClean = true := hclean
    obtain ⟨htide, hother, hkeeps⟩ := s.tideEntryChange_spec p
    exact ⟨_, congrArg Host.Outcome.next ((if_pos hfab).trans (by rw [State.tideCheck_clean hclean'])), htide, hother, hkeeps⟩
  · exact ⟨_, next_of_serves hs rfl, State.wrGateCfg_allowed (s := s.nextSeq path) hdom hmerge hcommit hpend hadmin hok⟩
  · exact ⟨_, congrArg Host.Outcome.next (if_pos (by rw [hfab, hdue]; rfl)), State.gateTakeover_spec hpend⟩
  · refine ⟨_, congrArg Host.Outcome.next (if_pos hfab), State.gate_setGate_same .., fun k hk => State.gate_setGate_other _ _ hk, ?_⟩
    simp [keeps, Part.same, State.setGate]

end Sys2Proof.Machine
end

section
/-! ## Preemption (R234, R238, R239) -/

namespace Sys2Proof.Machine

open Sys2Proof

variable {s : State} {p : Nat} {tc : TxCopy}

/-! ### Verification (R238) -/

/-- A verify mPacket leaves a port that transmits, and is counted as an attempt. -/
theorem State.sendVerify_spec (hquiet : s.quiet = false) : (s.sendVerify p).regs = s.regs ∧
    ((s.sendVerify p).port p).ver = ⟨2, false, (s.port p).ver.attempts + 1, s.tim.lt⟩ ∧
    (s.sendVerify p).out = .mpacket p false :: s.out := by
  have e : s.sendVerify p =
      (s.setPort p { s.port p with ver := ⟨2, false, (s.port p).ver.attempts + 1, s.tim.lt⟩ }).emit (.mpacket p false) :=
    if_neg (by rw [hquiet]; decide)
  rw [e]
  exact ⟨rfl, congrArg PortSt.ver (State.port_setPort ..), rfl⟩

section Exec

variable {p : Fin 16}

theorem exec_verifyMpacketTimer (hfab : s.fabricOn = true) (hstatus : (s.port p).ver.status = 2)
    (hdue : (s.port p).ver.since + tkMs (s.fld F.tgaPreemptCfg_verify_ms p) ≤ s.tim.lt) : exec (.verifyMpacketTimer p) s =
      .next (if (s.port p).ver.attempts < 3 then s.sendVerify p
        else s.setPort p { s.port p with ver := { (s.port p).ver with status := 4 } }) :=
  congrArg Host.Outcome.next (if_pos (by simp [hfab, hstatus, hdue]))

theorem exec_verifyMpacketRx (hfab : s.fabricOn = true) (hup : s.linkUp p = true) (hen : s.on F.tgaPreemptCfg_en p = true)
    (hquiet : s.quiet = false) : exec (.verifyMpacketRx p) s = .next (s.emit (.mpacket p true)) :=
  congrArg Host.Outcome.next (if_pos (by simp [hfab, hup, hen, hquiet]))

theorem exec_respondMpacketRx (hfab : s.fabricOn = true) (hup : s.linkUp p = true) (hstatus : (s.port p).ver.status = 2) :
    exec (.respondMpacketRx p) s = .next (s.setPort p { s.port p with ver := { (s.port p).ver with status := 3, active := true } }) :=
  congrArg Host.Outcome.next (if_pos (by simp [hfab, hup, hstatus]))

end Exec

/-! ### Fragments (R239) -/

theorem State.rxMore_nil (s : State) (p : Nat) (pre : Bool) : s.rxMore p pre [] = s := by
  unfold State.rxMore
  split
  · rfl
  · exact if_pos (Bool.or_true _)

theorem State.txMore_nil (s : State) (i : Nat) : s.txMore i [] = s := by
  unfold State.txMore
  dsimp only
  split
  · exact State.rxMore_nil ..
  · rfl

/-- The start of an express copy that waited leaves the preemptable copy as it is. -/
@[simp] theorem State.expressStarts_pre (s : State) (p frac : Nat) : ((s.expressStarts p frac).port p).pre = (s.port p).pre := by
  rw [State.expressStarts, State.port_setPort]

@[simp] theorem State.expressStarts_ctrs (s : State) (p frac : Nat) : (s.expressStarts p frac).ctrs = s.ctrs := rfl

@[simp] theorem State.expressStarts_out (s : State) (p frac : Nat) : (s.expressStarts p frac).out = s.out := rfl

/-- The mPacket of the next `sent` bytes of a copy. -/
def State.mPacket (s : State) (p : Nat) (tc : TxCopy) (sent : Nat) : Out :=
  .fragment p (if tc.frags = 0 then none else some ((tc.frags - 1) % 4)) (((s.wireBytes tc).take (tc.sent + sent)).drop tc.sent)

section Cut

variable {asked sent : Nat} (hpre : (s.port p).pre = some tc) (hactive : (s.port p).ver.active = true) (hcut : tc.cut = some asked)
  (hpaused : tc.paused = false) (hsent : sent = s.cutPoint p asked) (hrest : tc.sent + sent + 64 ≤ s.txLen tc)
include hpre hactive hcut hpaused hsent hrest

/-- A copy that is to be cut is cut at the first legal point, when enough of it remains. -/
theorem State.fragEnd_cut (frac : Nat) : s.fragEnd p sent frac [] =
    ((s.emit (s.mPacket p tc sent)).setPort p
      { s.port p with pre := some { tc with paused := true, sent := tc.sent + sent } }).expressStarts p frac := by
  unfold State.fragEnd
  simp only [hpre, State.txMore_nil, hcut, hpaused, hactive, ← hsent, Nat.not_lt.mpr hrest, Option.isNone_some, Option.getD_some,
    Bool.not_true, bne_self_eq_false, decide_false, Bool.or_self, Bool.false_eq_true, if_false]
  rfl

theorem State.fragEnd_spec (frac : Nat) : ((s.fragEnd p sent frac []).port p).pre =
      some { tc with paused := true, sent := tc.sent + sent } ∧
    (s.fragEnd p sent frac []).ctrs = s.ctrs ∧ (s.fragEnd p sent frac []).out = s.mPacket p tc sent :: s.out := by
  rw [State.fragEnd_cut hpre hactive hcut hpaused hsent hrest]
  refine ⟨?_, State.expressStarts_ctrs .., State.expressStarts_out ..⟩
  rw [State.expressStarts_pre, State.port_setPort]

end Cut

/-! ### Holds (R234) -/

/-- What a hold asks of the MAC: to cut the copy, unless it is paused or to be cut already. -/
def State.holdCut (s : State) (p : Nat) (tc : TxCopy) : State := if tc.paused || tc.cut.isSome then s else s.cutPre p

theorem State.holdCut_spec (hpre : (s.port p).pre = some tc) : ((s.holdCut p tc).port p).pre =
      some { tc with cut := if tc.paused || tc.cut.isSome then tc.cut else some (s.fragSent p tc) } ∧
    (s.holdCut p tc).tideNow p = s.tideNow p ∧ (s.holdCut p tc).ctrs = s.ctrs := by
  unfold State.holdCut
  split
  · exact ⟨hpre, rfl, rfl⟩
  · refine ⟨?_, rfl, rfl⟩
    rw [State.cutPre, State.port_setPort, hpre]
    rfl

section Due

variable (hpre : (s.port p).pre = some tc) (hactive : (s.port p).ver.active = true) (hunder : tc.under = true) (hhold : tc.hold = none)
  (hopen : s.gateOpen p tc.cp.cls = true) (hdue : s.holdDue p tc.cp.cls = true)
include hpre hactive hunder hhold hopen hdue

/-- The hold of a copy that started under R234, once its time has come. -/
theorem State.hold_due : s.hold_ p =
    let u := s.holdCut p tc
    (u.setPort p { u.port p with pre := (u.port p).pre.map fun t => { t with hold := some (u.tideNow p) } }).bump .tgaTxHold p := by
  unfold State.hold_
  simp only [hpre, hactive, hunder, hhold, hopen, hdue, Option.any_none, Bool.not_false, Bool.and_self, if_true]
  rfl

theorem State.hold_spec : (s.hold_ p).ctr .tgaTxHold p = s.ctr .tgaTxHold p + 1 ∧ ((s.hold_ p).port p).pre = some { tc with
      hold := some (s.tideNow p)
      cut := if tc.paused || tc.cut.isSome then tc.cut else some (s.fragSent p tc) } := by
  obtain ⟨hcut, hnow, hctrs⟩ := State.holdCut_spec hpre
  rw [State.hold_due hpre hactive hunder hhold hopen hdue]
  dsimp only
  refine ⟨?_, ?_⟩
  · rw [State.ctr_bump, if_pos ⟨rfl, rfl⟩]
    exact congrArg (fun m => tblGet m 0 (ctrKey .tgaTxHold p) + 1) hctrs
  · have hport (u : State) : (u.bump .tgaTxHold p).port p = u.port p := rfl
    rw [hport, State.port_setPort, hcut, hnow]
    rfl

end Due

/-- Settles O29: each command of verification sets its port's state, a fragment ends at the first legal point, and a hold marks its
copy. -/
theorem preemptionProtocol : Obligations.PreemptionProtocol := by
  intro s p
  refine ⟨fun hfab hquiet hstatus hdue => ?_, fun hfab hup hen hquiet => exec_verifyMpacketRx hfab hup hen hquiet,
    fun hfab hup hstatus => ?_, fun tc asked sent frac hfwd hpre hexp hactive hcut hpaused hlanes hsent hrest => ?_,
    fun tc e hfwd hpre hactive hunder hhold hopen hclosing hslack => ?_⟩
  · refine ⟨_, exec_verifyMpacketTimer hfab hstatus hdue, ?_⟩
    by_cases hfew : (s.port p).ver.attempts < 3
    · rw [if_pos hfew, if_pos hfew]
      exact State.sendVerify_spec hquiet
    · rw [if_neg hfew, if_neg hfew]
      exact ⟨rfl, congrArg PortSt.ver (State.port_setPort ..), rfl⟩
  · refine ⟨_, exec_respondMpacketRx hfab hup hstatus, congrArg PortSt.ver (State.port_setPort ..), ?_⟩
    simp [keeps, Part.same, State.setPort]
  · exact ⟨_, congrArg Host.Outcome.next ((if_pos hfwd).trans (if_neg (by rw [hlanes]; decide))),
      State.fragEnd_spec hpre hactive hcut hpaused hsent hrest frac⟩
  · have hdue : s.holdDue p tc.cp.cls = true := by
      rw [State.holdDue, hclosing, Option.any_some, decide_eq_true hslack]
    exact ⟨_, congrArg Host.Outcome.next (if_pos hfwd), State.hold_spec hpre hactive hunder hhold hopen hdue⟩

end Sys2Proof.Machine
end

section
/-! ## What the way of a frame through the switch leaves of the legacy channels

`Confined s t` says what reads of memories and the way of a received frame to its queues leave as in `s`: the fault confinement of each
CAN channel (R249), the receive FIFOs (R248, R257), the counters of bus activity, and what has been sent. For each function `f` on that way,
`Confined.f` says that it keeps this; its proof follows the text of `f`. -/

namespace Sys2Proof.Machine

open Sys2Proof

/-- What fault confinement knows of a channel: its error counters and state, the tick of bus-off, and whether it takes part in the bus. -/
def Can.confinement (c : Can) : Nat × Nat × Nat × Nat × Bool := (c.tec, c.rec_, c.fc, c.offAt, c.joined)

/-- Counters of what happens on the buses, which nothing behind the receive FIFOs counts. -/
def busCtrs : List Ctr := [.canErrBit, .canErrStuff, .canErrCrc, .canErrForm, .canErrAck, .canBusoff, .canTxFrames, .canRxFrames]

/-- `t` has the fault confinement, the receive FIFOs and the counts of `busCtrs` of `s`, and all that `s` has sent. -/
structure Confined (s t : State) : Prop where
  can : ∀ n, (t.canCh n).confinement = (s.canCh n).confinement
  legRx : t.net.legRx = s.net.legRx
  ctr : ∀ c ∈ busCtrs, ∀ i, t.ctr c i = s.ctr c i
  sent : ∀ o, Sent o s → Sent o t

theorem busCtrs_not_event : ∀ c ∈ busCtrs, c ∉ eventCtrs := by decide

theorem State.canCh_setCan (s : State) (n m : Nat) (c : Can) : (s.setCan n c).canCh m = if m = n then c else s.canCh m :=
  tblGet_set _ _ _ _ _ _ fun _ => rfl

@[simp] theorem State.canCh_setCan_same (s : State) (n : Nat) (c : Can) : (s.setCan n c).canCh n = c := tblGet_set_same ..

namespace Confined

-- A default tactic waits for all proofs before it, so these are elaborated in their order.
set_option Elab.async false

variable {s₀ s t : State}

theorem refl (s : State) : Confined s s := ⟨fun _ => rfl, rfl, fun _ _ _ => rfl, fun _ h => h⟩

theorem ite {a b : State} {c : Prop} [Decidable c] (ha : Confined s₀ a) (hb : Confined s₀ b) : Confined s₀ (if c then a else b) := by
  split
  exacts [ha, hb]

theorem iteFst {α : Type} {a b : State × α} {c : Prop} [Decidable c] (ha : Confined s₀ a.1) (hb : Confined s₀ b.1) :
    Confined s₀ (if c then a else b).1 := by
  split
  exacts [ha, hb]

theorem foldlFst {α β : Type} {f : State × β → α → State × β} {x : State × β} {l : List α} (h : Confined s₀ x.1)
    (hf : ∀ u a, Confined s₀ u.1 → Confined s₀ (f u a).1) : Confined s₀ (l.foldl f x).1 :=
  List.foldlRecOn (motive := fun x => Confined s₀ x.1) l f h fun u hu a _ => hf u a hu

variable (h : Confined s₀ s)
include h

theorem trans (k : Confined s t) : Confined s₀ t :=
  ⟨fun n => (k.can n).trans (h.can n), k.legRx.trans h.legRx, fun c hc i => (k.ctr c hc i).trans (h.ctr c hc i),
    fun o ho => k.sent o (h.sent o ho)⟩

theorem pair {α : Type} {a : α} : Confined s₀ (s, a).1 := h

/-- Parts of the state other than those that `Confined` names may change. -/
theorem frame {pending now free phys op prevOp cause leftOp regs hold stage tim hbr mqs mem pwr boot mram flash win pair red net keys}
    (hc : net.can = s.net.can := by rfl) (hl : net.legRx = s.net.legRx := by rfl) : Confined s₀ ⟨pending, now, free, s.out, phys, op,
      prevOp, cause, leftOp, regs, s.ctrs, hold, stage, tim, hbr, mqs, mem, pwr, boot, mram, flash, win, pair, red, net, keys⟩ :=
  ⟨fun n => (congrArg (fun t => (tblGet t Can.reset n).confinement) hc).trans (h.can n), hl.trans h.legRx, h.ctr, h.sent⟩

theorem foldl {α : Type} {f : State → α → State} {l : List α} (hf : ∀ u a, Confined s₀ u → Confined s₀ (f u a)) :
    Confined s₀ (l.foldl f s) := List.foldlRecOn l f h fun u hu a _ => hf u a hu

theorem quiet (q : Quiet s t) (hs : ∀ {o}, Sent o s → Sent o t) : Confined s₀ t :=
  h.trans ⟨fun n => congrArg (fun x : Net => (tblGet x.can Can.reset n).confinement) q.net, congrArg Net.legRx q.net,
    fun c hc i => q.ctr c i (busCtrs_not_event c hc), fun _ => hs⟩

/-! ### Registers, counters and memories -/

theorem wr {r i w} : Confined s₀ (s.wr r i w) := h.frame

theorem setFld {f i v} : Confined s₀ (s.setFld f i v) := h.frame

theorem bump {c i} (hc : c ∉ busCtrs := by decide) : Confined s₀ (s.bump c i) :=
  h.trans ⟨fun _ => rfl, rfl, fun c' hc' j => (State.ctr_bump s c c' i j).trans (if_neg fun ⟨e, _⟩ => hc (e ▸ hc')),
    fun _ ho => ho.bump⟩

theorem bumpIf {b c i} (hc : c ∉ busCtrs := by decide) : Confined s₀ (s.bumpIf b c i) := ite (h.bump hc) h

theorem emit {o} : Confined s₀ (s.emit o) := h.trans ⟨fun _ => rfl, rfl, fun _ _ _ => rfl, fun _ ho => ho.emit⟩

theorem raise {src} : Confined s₀ (s.raise src) := h.quiet (quiet_raise ..) fun ho => ho.raise

theorem mqPost {k it} : Confined s₀ (s.mqPost k it).1 := h.quiet (quiet_mqPost ..) fun ho => ho.mqPostCore.raiseFuel.settle

theorem applyFlip {mem inst addr enc} : Confined s₀ (s.applyFlip mem inst addr enc) := h.quiet (quiet_applyFlip ..) fun ho => ho.applyFlip

theorem memWrite {mem inst addr} : Confined s₀ (s.memWrite mem inst addr) := h.quiet (quiet_memWrite ..) fun ho => ho.memWrite

theorem setMemErr {mem inst addr e} : Confined s₀ (s.setMemErr mem inst addr e) := h.frame

theorem memFill {mem inst lo n} : Confined s₀ (s.memFill mem inst lo n) := ite h.frame.applyFlip h.frame

theorem drawWord : Confined s₀ s.drawWord.2 := h.frame

theorem logCe {mem inst addr synd source} : Confined s₀ (s.logCe mem inst addr synd source) := .ite h h.wr.wr.wr.wr

theorem logUe {type mem inst addr synd source} : Confined s₀ (s.logUe type mem inst addr synd source) := .ite h h.wr.wr.wr.wr

theorem addRepair {mem inst row} : Confined s₀ (s.addRepair mem inst row) := .ite h (.ite h.bump.raise h.frame)

theorem weakRow {mem inst addr} : Confined s₀ (s.weakRow mem inst addr) := h.wr.wr.bump.raise.addRepair

theorem offerTrk {mem inst addr} : Confined s₀ (s.offerTrk mem inst addr) := by
  unfold State.offerTrk
  dsimp only
  split
  · exact .ite h.frame.weakRow h.frame
  · exact .ite h.frame h.bump

theorem corrected {mem inst addr synd source} : Confined s₀ (s.corrected mem inst addr synd source) :=
  h.setMemErr.bump.logCe.raise.offerTrk

theorem reloadSlot {n} : Confined s₀ (s.reloadSlot n) := foldl h.frame fun _ _ h1 => h1.memWrite

theorem keyFail {mem addr} : Confined s₀ (s.keyFail mem addr) := .ite h.reloadSlot h

theorem saFail {mem addr} : Confined s₀ (s.saFail mem addr) :=
  .ite h (.raise (.frame (h.wr.foldl fun _ _ h1 => h1.setMemErr)))

theorem uncorrectable {mem inst addr synd source} : Confined s₀ (s.uncorrectable mem inst addr synd source) :=
  h.setMemErr.bump.logUe.raise.saFail.keyFail

theorem poisonRead {mem inst addr source} : Confined s₀ (s.poisonRead mem inst addr source) := h.bump.logUe.saFail.keyFail

theorem parityFail {mem addr source} : Confined s₀ (s.parityFail mem addr source) := h.frame.setMemErr.bump.logUe.raise.offerTrk

theorem setEnt {id par n e} : Confined s₀ (s.setEnt id par n e) := h.frame

theorem putRawWord {mem inst addr bs} : Confined s₀ (s.putRawWord mem inst addr bs) := h.frame

theorem putOperWord {p i w} : Confined s₀ (s.putOperWord p i w) := by
  unfold State.putOperWord
  dsimp only
  split
  · exact h.frame
  · exact h

theorem putMemWord {mem inst addr bs} : Confined s₀ (s.putMemWord mem inst addr bs) := by
  unfold State.putMemWord
  split
  · exact h.putRawWord
  · exact .setEnt h.setEnt
  · exact h.wr.putRawWord
  · exact h.putOperWord.putRawWord

theorem poisonWrite {mem inst addr} : Confined s₀ (s.poisonWrite mem inst addr) := .ite h.applyFlip h.setMemErr

theorem flushEnt {e} : Confined s₀ (s.flushEnt e) := by
  unfold State.flushEnt
  split
  · exact .ite h.putMemWord.memWrite h.putMemWord.memWrite
  · exact .ite h.putMemWord.memWrite h.corrected.putMemWord.memWrite
  · exact .ite h.putMemWord.memWrite h.putMemWord.poisonWrite.bump.logUe.raise
  · exact .ite h.putMemWord.memWrite h.putMemWord.poisonWrite.bump.logUe

theorem flushWord {mem inst addr} : Confined s₀ (s.flushWord mem inst addr) := h.frame.foldl fun _ _ h1 => h1.flushEnt

theorem memRead {mem inst addr u source} : Confined s₀ (s.memRead mem inst addr u source).1 := by
  unfold State.memRead
  dsimp only
  split
  · exact h.flushWord
  · exact h.flushWord.corrected
  · exact h.flushWord.uncorrectable
  · exact h.flushWord.setMemErr.poisonRead

theorem wordsRead {mem inst addr n source} : Confined s₀ (s.wordsRead mem inst addr n source).1 :=
  .iteFst h (h.foldlFst fun _ _ h1 => h1.memRead)

theorem itemRead {addr n} : Confined s₀ (s.itemRead addr n).1 := h.wordsRead

theorem itemWrite {addr n} : Confined s₀ (s.itemWrite addr n) := h.foldl fun _ _ h1 => h1.memWrite

theorem stateRead {i} : Confined s₀ (s.stateRead i).1 := .iteFst h (.iteFst h.memRead.memWrite.bump h.memRead)

/-! ### The CAN channels as senders -/

theorem setCan {n c} (hc : c.confinement = (s.canCh n).confinement := by rfl) : Confined s₀ (s.setCan n c) := by
  refine ⟨fun m => ?_, h.legRx, h.ctr, h.sent⟩
  rw [State.canCh_setCan]
  split
  · next e => rw [hc, e, h.can]
  · exact h.can m

theorem canChooseN {k n} : Confined s₀ (State.canChooseN k s n) := by
  induction k generalizing s with
  | zero => exact h
  | succ k ih =>
    have hread {a m : Nat} : (s.canCh n).confinement = ((s.itemRead a m).1.canCh n).confinement := (((refl s).itemRead).can n).symm
    unfold State.canChooseN
    dsimp only
    split
    · exact h.setCan
    · exact .ite (ih h.setCan.bump) (.ite (ih (bump (h.itemRead.setCan (by exact hread)))) (h.itemRead.setCan (by exact hread)))

theorem canChoose {n} : Confined s₀ (s.canChoose n) := .ite h.canChooseN h.setCan

theorem canOffer {n l ord} : Confined s₀ (s.canOffer n l ord) :=
  .ite h.bump (.ite h.bump (.ite h.bump (.ite h.bump (.ite h.bump (.ite h.setCan.itemWrite.canChoose h.setCan.itemWrite)))))

theorem setLin {n c} : Confined s₀ (s.setLin n c) := h.frame

theorem linOffer {n l ord} : Confined s₀ (s.linOffer n l ord) :=
  .ite h.bump (.ite h.bump (.ite h.bump (.ite (.ite h.bump h.setLin.itemWrite) h.setLin.bumpIf.itemWrite)))

theorem legOffer {port l ord} : Confined s₀ (s.legOffer port l ord) := .ite h.canOffer (.ite h.linOffer h)

/-! ### Tables -/

theorem probeEntry {mem idx u source} : Confined s₀ (s.probeEntry mem idx u source) := .ite h (.ite h.parityFail h)

theorem readEnt {id par n src} : Confined s₀ (s.readEnt id par n src).1 := .iteFst h (.iteFst h.probeEntry h.wordsRead)

theorem writeEnt {id par n e} : Confined s₀ (s.writeEnt id par n e) := .setEnt (.ite h.memWrite (h.foldl fun _ _ h1 => h1.memWrite))

theorem delEnt {id par n} : Confined s₀ (s.delEnt id par n) := h.writeEnt.frame

theorem readAll {id par src idx} : Confined s₀ (s.readAll id par src idx).1 := h.foldlFst fun _ _ h1 => .iteFst h1.readEnt h1.readEnt

theorem cfgEnt {id par n} : Confined s₀ (s.cfgEnt id par n).1 := .iteFst h.readEnt.bump h.readEnt

/-! ### Frames and admission -/

theorem setFrm {i f} : Confined s₀ (s.setFrm i f) := h.frame

theorem holdFrm {i n} : Confined s₀ (s.holdFrm i n) := h.setFrm

theorem dropRef {i} : Confined s₀ (s.dropRef i) := h.setFrm

theorem storeFrm {cells a b} : Confined s₀ (s.storeFrm cells a b) := h.foldl fun _ _ h1 => .ite h1.memFill h1

theorem frameRead {i} : Confined s₀ (s.frameRead i).1 := .iteFst h (h.foldlFst fun _ _ h1 => h1.wordsRead)

theorem newFrm {f} : Confined s₀ (s.newFrm f).1 := h.frame.storeFrm

theorem setQueue {q l} : Confined s₀ (s.setQueue q l) := h.frame

theorem hwm {f i v} : Confined s₀ (s.hwm f i v) := .ite h.setFld h

theorem marks : Confined s₀ s.marks := .hwm (.hwm (h.hwm.hwm.foldl fun _ _ h1 => h1.hwm))

theorem wake {p q c} : Confined s₀ (s.wake p q c) := .ite h.frame h

omit h in
/-- No test of admission counts what happens on a bus. -/
theorem admitTest_count {f q p k len c} (e : s.admitTest f q p k len = some c) : c ∉ busCtrs := by
  unfold State.admitTest at e
  dsimp only at e
  repeat' split at e
  all_goals cases e
  all_goals decide

theorem admitCopy {i p x} : Confined s₀ (s.admitCopy i p x) := by
  unfold State.admitCopy
  extract_lets f qc len k
  clear_value k
  refine .ite h (.ite h.bump ?_)
  split
  · next e => exact h.bump (admitTest_count e)
  · exact h.wake.setQueue.holdFrm.bump.marks

theorem mirrorCopy {i d} : Confined s₀ (s.mirrorCopy i d) := by
  unfold State.mirrorCopy
  split
  · exact h.admitCopy
  · exact h

/-! ### Classification -/

theorem ctFind {key : List Byte} {hash} : Confined s₀ (s.ctFind key hash).1 := h.readAll.foldl fun _ _ h1 => .ite h1.delEnt h1

theorem ctLookup {x key dir hash} : Confined s₀ (s.ctLookup x key dir hash).1 := by
  unfold State.ctLookup
  extract_lets fl r t
  have ht : Confined s₀ t := h.ctFind (key := key)
  clear_value t
  refine .iteFst h ?_
  split
  · exact .iteFst ht ht
  · exact .iteFst ht ht.writeEnt

theorem ctCreate {x key dir hash rule} : Confined s₀ (s.ctCreate x key dir hash rule).1 := by
  unfold State.ctCreate
  dsimp only
  split
  · exact .pair h.ctFind.bump.writeEnt.bump
  · split
    · exact .pair h.ctFind.writeEnt.bump
    · exact .pair h.ctFind

theorem probeRules {par ct port prio x sel} : Confined s₀ (s.probeRules par ct port prio x sel).1 := by
  refine h.foldlFst fun a bank ha => ?_
  dsimp only
  split
  · exact ha
  · split
    · exact ha.cfgEnt
    · exact ha.cfgEnt.readAll

theorem ruleStage {port prio par ct x key dir hash} : Confined s₀ (s.ruleStage port prio par ct x key dir hash).1 := by
  unfold State.ruleStage
  extract_lets c
  have hc : Confined s₀ c.1 := h.cfgEnt
  clear_value c
  split
  · exact hc
  · extract_lets p u t
    have hp : Confined s₀ p.1 := hc.probeRules
    have ht : Confined s₀ t := hp.foldl fun _ _ hu => hu.setEnt
    clear_value t p
    refine .iteFst hp (.iteFst hp.bump ?_)
    split
    · exact .ite ht.bump (.ite ht.bump ht)
    · exact .iteFst ht.bump (.iteFst ht.bump (.iteFst (.iteFst ht.ctCreate ht.ctCreate.bump) ht))

theorem classify {port prio par x key dir hash} : Confined s₀ (s.classify port prio par x key dir hash).1 :=
  .iteFst h (.iteFst h.ctLookup.bump h.ctLookup.ruleStage)

theorem applyEdits {port par d bytes} : Confined s₀ (s.applyEdits port par d bytes).1 := by
  unfold State.applyEdits
  split
  · exact h
  · split
    · exact h.bumpIf
    · split <;> dsimp only <;> split
      · exact h.cfgEnt
      · exact h.cfgEnt.bumpIf
      · exact h.cfgEnt
      · exact h.cfgEnt.bumpIf

/-! ### Forwarding and learning -/

theorem fdbLookup {par fid mac} : Confined s₀ (s.fdbLookup par fid mac).1 := h.readAll

theorem daLookup {par v da} : Confined s₀ (s.daLookup par v da).1 := by
  unfold State.daLookup
  extract_lets r
  have hr : Confined s₀ r.1 := h.fdbLookup
  clear_value r
  split
  · exact .iteFst hr (.iteFst (.iteFst hr.readEnt hr.readEnt) hr)
  · exact hr

omit h in
/-- No lookup of a destination ends in a count of what happens on a bus. -/
theorem daLookup_drop {par v da c} (e : (s.daLookup par v da).2 = .drop c) : c ∉ busCtrs := by
  unfold State.daLookup at e
  dsimp only at e
  split at e
  · split at e
    · cases e; decide
    · split at e
      · split at e <;> cases e; decide
      · cases e
  · split at e
    · cases e
    · split at e <;> cases e

theorem refine {port epoch v routed x} (hx : ∀ c, x = .drop c → c ∉ busCtrs) : Confined s₀ (s.refine port epoch v routed x).1 := by
  unfold State.refine
  split
  · exact h.bump (hx _ rfl)
  · exact .iteFst h.bump (.iteFst h.bump h)
  · exact .iteFst h.bump h
  · extract_lets u
    have hu : Confined s₀ u := h.bump (by split <;> [decide; split <;> decide])
    exact .iteFst hu.bump hu

theorem postNotice {x} : Confined s₀ (s.postNotice x).1 := .iteFst h h.mqPost

theorem offerNotice {ty fid mac old port arr} : Confined s₀ (s.offerNotice ty fid mac old port arr) := by
  unfold State.offerNotice
  split <;> exact .ite h.bump (.ite h.postNotice.bump.frame h.postNotice.bump)

theorem saLookup {port epoch v sa arr} : Confined s₀ (s.saLookup port epoch v sa arr).1 := by
  unfold State.saLookup
  extract_lets fid learn r t
  have ht : Confined s₀ t := h.fdbLookup
  clear_value t
  refine .iteFst h ?_
  split
  · exact .ite ht.offerNotice ht
  · exact .iteFst (.iteFst ht.bump ht) (.iteFst (.ite ht ht.writeEnt) (.ite ht.offerNotice ht))

theorem trieWalk {id par l e best} : Confined s₀ (s.trieWalk id par l e best).1 := by
  induction l generalizing s e best with
  | nil => exact h
  | cons x l ih => exact .iteFst h (.iteFst h.readEnt (ih h.readEnt))

theorem lpm {par v6 da} : Confined s₀ (s.lpm par v6 da).1 := by
  unfold State.lpm
  split
  · exact .iteFst h.readEnt h.readEnt.trieWalk
  · dsimp only
    split
    · split
      · exact h.readAll.readEnt
      · split <;> exact h.readAll.readEnt
    · split
      · exact h.readAll.readEnt.trieWalk
      · split <;> exact h.readAll.readEnt.trieWalk

theorem route {port epoch x y vid bytes} : Confined s₀ (s.route port epoch x y vid bytes).1 := by
  unfold State.route
  refine .iteFst h.bump ?_
  extract_lets v6 r
  have hr : Confined s₀ r.1 := h.lpm
  clear_value r
  refine .iteFst hr.bump ?_
  split
  · exact hr.bump
  · refine .iteFst hr.bump (.iteFst hr.bump ?_)
    extract_lets n nh nvid rm mac b v d f
    have hn : Confined s₀ n.1 := hr.readEnt
    have hv : Confined s₀ v.1 := hn.readEnt
    have hd : Confined s₀ d.1 := .iteFst hv.daLookup hv
    have hc : ∀ c, d.2 = .drop c → c ∉ busCtrs := by
      intro c e
      unfold d at e
      split at e
      · exact daLookup_drop e
      · cases e
    exact .iteFst hn.bump (.iteFst hn.bump (.iteFst hv.bump (.iteFst hv.bump (hd.refine hc))))

theorem vlan {par vid} : Confined s₀ (s.vlan par vid).1 := h.readEnt

theorem ethLookup {port epoch x bytes arr} : Confined s₀ (s.ethLookup port epoch x bytes arr).1 :=
  .iteFst h.vlan.bump (.iteFst h.vlan.bump (.iteFst h.vlan.saLookup (.iteFst h.vlan.saLookup.vlan.bump (.iteFst
    h.vlan.saLookup.vlan.route (.iteFst h.vlan.saLookup.vlan.bump (h.vlan.saLookup.vlan.daLookup.refine fun _ => daLookup_drop))))))

theorem fdbDonePair {e res idx} : Confined s₀ (s.fdbDonePair e res idx) := .wr h.frame

theorem flapRoll : Confined s₀ s.flapRoll := .ite h.frame h

theorem setFlapN {n : Nat} : Confined s₀ { s with net := { s.net with flapN := n } } := h.frame

theorem flapHeld {e} : Confined s₀ (s.flapHeld e) := .ite h.bump.flapRoll.setFlapN.wr.wr.wr.raise h.bump.flapRoll.setFlapN

theorem fdbLearn {e} : Confined s₀ (s.fdbLearn e) := by
  unfold State.fdbLearn
  extract_lets idx same
  clear_value same
  split
  · exact h.fdbDonePair
  · split
    · exact .ite h.writeEnt.fdbDonePair (.ite h.writeEnt.fdbDonePair (.ite h.flapHeld.fdbDonePair h.writeEnt.fdbDonePair))
    · split
      · exact h.writeEnt.fdbDonePair
      · exact h.bump.fdbDonePair

theorem runtimeLearn : Confined s₀ s.runtimeLearn := .ite (h.foldl fun _ _ h1 => h1.fdbLearn) h

/-! ### Streams and policing -/

theorem sidProbe {port epoch x m} : Confined s₀ (s.sidProbe port epoch x m).1 := h.readAll

theorem identify {port epoch x} : Confined s₀ (s.identify port epoch x).1 := by
  unfold State.identify
  split
  · exact h
  · extract_lets r bad
    have hr : Confined s₀ r.1 := h.foldlFst fun _ _ hu => hu.sidProbe (epoch := epoch)
    have hb {u} (hu : Confined s₀ u) : Confined s₀ (bad u).1 := .iteFst hu.bump hu
    clear_value r bad
    split
    · exact hb hr
    · split
      · exact hr
      · exact .iteFst (hb hr.readEnt) (.iteFst hr.readEnt hr.readEnt)

theorem readStr {k} : Confined s₀ (s.readStr k) := .ite h.readEnt.writeEnt h.readEnt

theorem setStr {k e} : Confined s₀ (s.setStr k e) := h.writeEnt

theorem recovery {k par seq} : Confined s₀ (s.recovery k par seq).1 := .ite h.readStr.setStr.frame h.readStr.setStr

theorem seqGen {k par echo} : Confined s₀ (s.seqGen k par echo).1 := by
  unfold State.seqGen
  split
  · exact h
  · split
    · exact h
    · exact .iteFst h.readStr.setStr (h.bump (by split <;> decide))

theorem setMtr {m l} : Confined s₀ (s.setMtr m l) := h.frame

theorem mtrRead {m} : Confined s₀ (s.mtrRead m).1 := .iteFst (.frame (.iteFst h.stateRead h)) (.iteFst h.stateRead h)

theorem meter {m len dei st} : Confined s₀ (s.meter m len dei st).1 := by
  unfold State.meter
  extract_lets rd t first c0 c1 l r u st' y z
  have ht : Confined s₀ t := h.mtrRead
  have hu : Confined s₀ u := .ite ht.setMtr.memWrite ht
  have hy : Confined s₀ y := hu.bump
  have hz : Confined s₀ z := hu.bump.bump
  exact .iteFst ht (.iteFst hu.bump (.iteFst (.iteFst hy.bump hy) (.iteFst hu.bump (.ite hz.setFld hz))))

theorem setGate {g t} : Confined s₀ (s.setGate g t) := h.frame

theorem gateCheck {g len st} : Confined s₀ (s.gateCheck g len st).1 := by
  unfold State.gateCheck
  extract_lets drop rd t u
  have hd {u c} (hu : Confined s₀ u) (hc : c ∉ busCtrs := by decide) : Confined s₀ (drop u c).1 := (hu.bump hc).bump
  clear_value drop
  refine .iteFst h.bump (.iteFst (hd h) (.iteFst (hd h) ?_))
  split
  · exact h.bump
  · extract_lets m
    have hu : Confined s₀ u := h.stateRead.setGate
    exact .iteFst hu (.iteFst (hd (.ite hu.setFld hu)) (.iteFst hu.bump (.iteFst (hd (.ite hu.setFld hu))
      hu.setGate.memWrite.bump)))

theorem police {port x par rule dei len sdu maxLen sec} : Confined s₀ (s.police port x par rule dei len sdu maxLen sec).1 := by
  unfold State.police
  extract_lets maxSdu base l st g m m' t
  have hg : Confined s₀ g.1 := by
    unfold g
    split
    · exact .iteFst h.gateCheck h
    · exact h
  have hm : Confined s₀ m.1 := by
    unfold m
    split
    · exact .iteFst hg.meter hg
    · exact hg
  have hm' : Confined s₀ m'.1 := by
    unfold m'
    split
    · exact hm.meter
    · exact hm
  have ht : Confined s₀ t := .ite hm' (.ite hm'.bump (.ite hm'.bump hm'))
  exact .iteFst h (.iteFst h.bump ht)

theorem policeFrm {i x d} : Confined s₀ (s.policeFrm i x d).1 := h.police.setFrm

theorem emitPair {bs} : Confined s₀ (s.emitPair bs) := .ite h h.emit

theorem sendEcho {f} : Confined s₀ (s.sendEcho f) := by
  unfold State.sendEcho
  split
  · exact h.emitPair.bump
  · exact h

theorem streamStage {i x echo} : Confined s₀ (s.streamStage i x echo).1 := by
  unfold State.streamStage
  extract_lets f
  split
  · exact h
  · extract_lets par g f' t u
    have hg : Confined s₀ g.1 := h.seqGen
    have hu : Confined s₀ u := .ite hg.setFrm.sendEcho hg.setFrm
    exact .iteFst hg (.iteFst hu.recovery hu)

/-! ### Skerries and the Harbour -/

theorem reslotted (k : Reslotted s t) : Confined s₀ t := by
  obtain ⟨_, _, _, rfl⟩ := k
  exact h.frame

theorem voidSlot {n} : Confined s₀ (s.voidSlot n) := h.reslotted (Reslotted.refl s).voidSlot

theorem skyRecord {cause k thr prof ord hash inPort xlt} : Confined s₀ (s.skyRecord cause k thr prof ord hash inPort xlt) :=
  .ite h.mqPost h

theorem skyDrop {cause k thr prof xlt f} : Confined s₀ (s.skyDrop cause k thr prof xlt f) := .ite h.bump.skyRecord h.bump

theorem dispatch {i prof slot dest} : Confined s₀ (s.dispatch i prof slot dest) := by
  unfold State.dispatch
  dsimp only
  split
  · exact h.cfgEnt.voidSlot
  · split
    · exact h.cfgEnt.drawWord.skyDrop.voidSlot
    · exact .ite h.cfgEnt.skyDrop.voidSlot (.ite h.cfgEnt.bump.voidSlot (marks h.cfgEnt.setFrm.frame))

theorem ctxFail {n} : Confined s₀ (s.ctxFail n) := .frame (h.foldl fun _ _ h1 => .bump h1.voidSlot.frame)

theorem ctxRead {n} : Confined s₀ (s.ctxRead n) := .ite h.wordsRead.ctxFail h.wordsRead

theorem takeSlot {i n steer} : Confined s₀ (s.takeSlot i n steer).1 := by
  unfold State.takeSlot
  split
  · exact h
  · split
    · exact h.bump
    · split
      · exact h.bump.reslotted (Reslotted.refl _).holdCtx
      · exact reslotted (setFrm (memFill (frame (memFill h.frame)))) (Reslotted.refl _).holdCtx

theorem sequence {i steer} : Confined s₀ (s.sequence i steer).1 := by
  unfold State.sequence
  extract_lets f t
  have ht : Confined s₀ t := by
    unfold t
    split
    · exact h.ctxRead
    · exact h
  clear_value t
  split
  · exact ht.takeSlot
  · refine .iteFst ht ?_
    split
    · exact ht.bump
    · exact takeSlot ht.frame

theorem slotPlan {i n dest} : Confined s₀ (s.slotPlan i n dest) := by
  unfold State.slotPlan
  split
  · exact holdFrm h.frame
  · exact h

/-! ### All stages -/

theorem legDest {f m d} : Confined s₀ (s.legDest f m d).1 :=
  .iteFst h.bump (.iteFst h.bump (.iteFst h (.iteFst (h.bump (by split <;> decide)) h)))

theorem ethDest {i x d} : Confined s₀ (s.ethDest i x d).1 := by
  unfold State.ethDest
  extract_lets f e
  have he : Confined s₀ e.1 := h.applyEdits
  clear_value e
  refine .iteFst h ?_
  split
  · exact he
  · refine .iteFst he.bump ?_
    split
    · extract_lets t fv v u _ f' w
      have hv : Confined s₀ v.1 := .iteFst he.setFrm.vlan he.setFrm
      have hw : Confined s₀ w := hv.setFrm
      exact .iteFst hv.bump (.iteFst hw hw.bump)
    · extract_lets t r
      have hr : Confined s₀ r.1 := he.setFrm.ethLookup
      clear_value r
      split
      · exact hr
      · exact hr.setFrm

theorem legCopy {i p l} : Confined s₀ (s.legCopy i p l) := .ite h.frameRead.bump h.frameRead.legOffer

theorem deliver {i p x} : Confined s₀ (s.deliver i p x) := by
  unfold State.deliver
  split
  · exact h.admitCopy
  · split
    · exact h.legCopy
    · exact h

theorem stage7 {i d slot dest} : Confined s₀ (s.stage7 i d slot dest) := by
  unfold State.stage7
  split
  · exact .ite h.slotPlan h.dispatch
  · exact h.slotPlan
  · exact h.foldl fun _ _ h1 => h1.deliver

theorem saAlone {f x d} : Confined s₀ (s.saAlone f x d) := .ite h (.ite h.vlan h.vlan.saLookup)

theorem plan {i x m d echo} : Confined s₀ (s.plan i x m d echo).1 := by
  unfold State.plan
  extract_lets f r _ t g e
  have hg : Confined s₀ g.1 := h.identify.setFrm.streamStage
  have he : Confined s₀ e.1 := by
    unfold e
    split
    · exact hg.legDest
    · exact hg.ethDest
  clear_value e
  refine .iteFst h.identify.saAlone (.iteFst hg.saAlone ?_)
  split
  · exact he
  · exact he.policeFrm

theorem stages {i x m d slot echo} : Confined s₀ (s.stages i x m d slot echo) := by
  unfold State.stages
  dsimp only
  split
  · exact h.plan.mirrorCopy.voidSlot
  · exact h.plan.mirrorCopy.stage7

theorem flow {i x m echo} : Confined s₀ (s.flow i x m echo) := by
  unfold State.flow
  dsimp only
  split
  · exact h.admitCopy
  · split
    · exact h.classify
    · split
      · exact h.classify.setFrm.mirrorCopy
      · split
        · exact h.classify.setFrm.sequence.mirrorCopy
        · exact h.classify.setFrm.sequence.stages

theorem ingest {f echo} : Confined s₀ (s.ingest f echo).1 := by
  unfold State.ingest
  extract_lets ep ord net s1 x s2 m s3 prio k f1 n
  have h2 : Confined s₀ s2 := bumpIf h.frame
  have hm : Confined s₀ m.1 := by
    unfold m
    split
    · exact h2.readAll
    · exact h2
  have hn : Confined s₀ n.1 := hm.newFrm
  clear_value n
  exact .pair hn.marks.flow.runtimeLearn.dropRef

end Confined

end Sys2Proof.Machine
end

section
/-! ## Items of the FIFOs in memory 0x0F (R357, R371) -/

namespace Sys2Proof.Machine

open Sys2Proof

variable {s t : State}

/-- `t` is `s` but for its memories, which hold no error where those of `s` hold none. -/
def Written (s t : State) : Prop := ∃ m, t = { s with mem := m } ∧ (s.memClean = true → t.memClean = true)

theorem Written.refl (s : State) : Written s s := ⟨_, rfl, id⟩

/-- A full write without an armed flip mask replaces what was recorded at its word. -/
theorem Written.memWrite (h : Written s t) (harm : s.on F.memFlipCtrl_arm = false) (mem inst addr : Nat) :
    Written s (t.memWrite mem inst addr) := by
  obtain ⟨m, rfl, hclean⟩ := h
  refine ⟨_, if_neg (Bool.eq_false_iff.mp (State.flipArmed_unarmed (by exact harm) ..)), fun hs => ?_⟩
  have hm := hclean hs
  rw [State.memWrite, if_neg (Bool.eq_false_iff.mp (State.flipArmed_unarmed (by exact harm) ..))]
  simp only [State.memClean, Bool.and_eq_true, List.isEmpty_iff] at hm ⊢
  exact ⟨(congrArg (tblDel · _) hm.1 :), hm.2⟩

theorem written_itemWrite (harm : s.on F.memFlipCtrl_arm = false) (addr n : Nat) : Written s (s.itemWrite addr n) :=
  List.foldlRecOn _ _ (.refl s) fun _ ht _ _ => ht.memWrite harm ..

theorem quiet_itemWrite (s : State) (addr n : Nat) : Quiet s (s.itemWrite addr n) :=
  List.foldlRecOn (motive := Quiet s) _ _ (.refl s) fun t ht _ _ => ht.trans (quiet_memWrite t ..)

theorem State.itemRead_clean (h : s.memClean = true) (addr n : Nat) : s.itemRead addr n = (s, false) := if_pos h

end Sys2Proof.Machine
end

section
/-! ## Fault confinement (R249) -/

namespace Sys2Proof.Machine

open Sys2Proof

variable {s t : State} {n : Nat}

theorem Quiet.canCh (q : Quiet s t) (n : Nat) : t.canCh n = s.canCh n := congrArg (fun x : Net => tblGet x.can Can.reset n) q.net

theorem Quiet.on (q : Quiet s t) {f : RegField} (hf : f.reg ∉ eventRegs) (i : Nat) : t.on f i = s.on f i :=
  congrArg (fun w => getBits w f.hi f.lo != 0) (q.rd f.reg i hf)

namespace Confined

variable (h : Confined s t) (n : Nat)
include h

theorem tec : (t.canCh n).tec = (s.canCh n).tec := congrArg Prod.fst (h.can n)

theorem rec_ : (t.canCh n).rec_ = (s.canCh n).rec_ := congrArg (fun x => x.2.1) (h.can n)

theorem fc : (t.canCh n).fc = (s.canCh n).fc := congrArg (fun x => x.2.2.1) (h.can n)

theorem offAt : (t.canCh n).offAt = (s.canCh n).offAt := congrArg (fun x => x.2.2.2.1) (h.can n)

theorem joined : (t.canCh n).joined = (s.canCh n).joined := congrArg (fun x => x.2.2.2.2) (h.can n)

end Confined

/-! ### The choice of the frame to offer (R250) -/

/-- A channel in bus-off offers no frame. -/
theorem State.canChoose_busoff (h : (s.canCh n).fc = 2) : s.canChoose n = s.setCan n { s.canCh n with offer := none } :=
  if_neg (by simp [h])

/-- A channel that takes part in the bus, with frames of any age and no error in the memory of its queue, offers the best of the oldest
frames of each identifier. -/
theorem State.canChoose_clean (hopen : s.canOpen n = true) (hjoined : (s.canCh n).joined = true) (hfc : (s.canCh n).fc < 2)
    (hage : s.fld F.canTxCfg_max_age_us n = 0) (hclean : s.memClean = true) :
    s.canChoose n = s.setCan n { s.canCh n with offer := canBest (canOldest [] (s.canCh n).txq) } := by
  unfold State.canChoose
  dsimp only
  rw [if_pos (by simp [hopen, hjoined, hfc])]
  unfold State.canChooseN
  dsimp only
  split
  · next hbest => rw [hbest]
  · next x hbest =>
    have hyoung : ¬s.canAged n x = true := by simp [State.canAged, hage]
    rw [if_neg hyoung, State.itemRead_clean hclean, if_neg Bool.false_ne_true, hbest]

/-! ### Counts of errors -/

theorem canState_eq_busoff {tec rec_ : Nat} : canState tec rec_ = 2 ↔ 255 < tec := by
  unfold canState
  split
  · next h => simp [h]
  · split <;> simp_all

/-- While TEC stays in range, only the counters and the state change. -/
theorem State.canCount_active {tec rec_ : Nat} (h : tec ≤ 255) : s.canCount n tec rec_ =
    s.setCan n { s.canCh n with tec := tec, rec_ := rec_, fc := canState tec rec_ } :=
  if_neg (by rw [canState_eq_busoff]; omega)

/-- A channel enters bus-off: it offers nothing more, and the entry is counted and raised. -/
def State.goBusoff (s : State) (n : Nat) : State :=
  ((s.setCan n { s.canCh n with offAt := s.tim.lt, offer := none }).bump .canBusoff n).raise (Ev.canBusoff n)

/-- TEC above 255 puts the channel into bus-off, which drops its queue with bo_flush. -/
theorem State.canCount_busoff {tec rec_ : Nat} (h : 255 < tec) : s.canCount n tec rec_ =
    let u := (s.setCan n { s.canCh n with tec := tec, rec_ := rec_, fc := 2 }).goBusoff n
    if u.on F.canCtrl_bo_flush n then u.canFlush n .canTxDropBusoff else u := by
  have hst : canState tec rec_ = 2 := canState_eq_busoff.mpr h
  unfold State.canCount
  dsimp only
  rw [hst, if_pos rfl]
  rfl

theorem State.canCh_goBusoff : (s.goBusoff n).canCh n = { s.canCh n with offAt := s.tim.lt, offer := none } :=
  (Quiet.canCh (quiet_raise ..) n).trans (State.canCh_setCan_same ..)

theorem State.ctr_goBusoff {c : Ctr} (hc : c ∉ eventCtrs) (i : Nat) :
    (s.goBusoff n).ctr c i = if c = .canBusoff ∧ i = n then s.ctr .canBusoff n + 1 else s.ctr c i :=
  ((quiet_raise _ (Ev.canBusoff n)).ctr c i hc).trans (State.ctr_bump ..)

theorem State.on_goBusoff (i : Nat) : (s.goBusoff n).on F.canCtrl_bo_flush i = s.on F.canCtrl_bo_flush i :=
  (quiet_raise _ (Ev.canBusoff n)).on (by decide) i

theorem State.statBit_goBusoff (hn : n < 16) :
    getBit ((s.goBusoff n).rd .evtStat (Ev.canBusoff n / 32)) (Ev.canBusoff n % 32) = true :=
  State.statBit_raise (by interval_cases n <;> rfl)

theorem State.canCh_canFlush (c : Ctr) : (s.canFlush n c).canCh n = { s.canCh n with txq := [], offer := none } :=
  State.canCh_setCan_same ..

theorem State.ctr_canFlush (c c' : Ctr) (i : Nat) : (s.canFlush n c).ctr c' i =
    if c' = c ∧ i = n then s.ctr c n + BitVec.ofNat 64 (s.canCh n).txq.length else s.ctr c' i := State.ctr_bumpBy ..

/-- The counters take the values that they are given, and these give the state. -/
theorem State.canCount_counters (s : State) (n tec rec_ : Nat) : ((s.canCount n tec rec_).canCh n).tec = tec ∧
    ((s.canCount n tec rec_).canCh n).rec_ = rec_ ∧ ((s.canCount n tec rec_).canCh n).fc = canState tec rec_ := by
  by_cases h : tec ≤ 255
  · rw [State.canCount_active h, State.canCh_setCan_same]
    exact ⟨rfl, rfl, rfl⟩
  · have h' : 255 < tec := by omega
    rw [State.canCount_busoff h', canState_eq_busoff.mpr h']
    dsimp only
    split
    · rw [State.canCh_canFlush, State.canCh_goBusoff, State.canCh_setCan_same]
      exact ⟨rfl, rfl, rfl⟩
    · rw [State.canCh_goBusoff, State.canCh_setCan_same]
      exact ⟨rfl, rfl, rfl⟩

/-- The counters of errors and of sent frames do not depend on the state that the error counters give. -/
theorem State.ctr_canCount {c : Ctr} (hc : c ∉ eventCtrs) (hoff : c ≠ .canBusoff) (hdrop : c ≠ .canTxDropBusoff) (tec rec_ i : Nat) :
    (s.canCount n tec rec_).ctr c i = s.ctr c i := by
  by_cases h : tec ≤ 255
  · rw [State.canCount_active h]
    rfl
  · rw [State.canCount_busoff (by omega)]
    dsimp only
    split
    · rw [State.ctr_canFlush, if_neg fun e => hdrop e.1, State.ctr_goBusoff hc, if_neg fun e => hoff e.1]
      rfl
    · rw [State.ctr_goBusoff hc, if_neg fun e => hoff e.1]
      rfl

/-- In bus-off the tick of its entry is kept, the entry is counted and raised, and bo_flush drops and counts the queue. -/
theorem State.canCount_busoff_spec {tec : Nat} (rec_ : Nat) (h : 255 < tec) (hn : n < 16) :
    ((s.canCount n tec rec_).canCh n).offAt = s.tim.lt ∧
    (s.canCount n tec rec_).ctr .canBusoff n = s.ctr .canBusoff n + 1 ∧
    getBit ((s.canCount n tec rec_).rd .evtStat (Ev.canBusoff n / 32)) (Ev.canBusoff n % 32) = true ∧
    (s.on F.canCtrl_bo_flush n = true → ((s.canCount n tec rec_).canCh n).txq = [] ∧
      (s.canCount n tec rec_).ctr .canTxDropBusoff n = s.ctr .canTxDropBusoff n + BitVec.ofNat 64 (s.canCh n).txq.length) := by
  rw [State.canCount_busoff h]
  extract_lets c u
  have hcan : u.canCh n = { s.canCh n with tec := tec, rec_ := rec_, fc := 2, offAt := s.tim.lt, offer := none } := by
    unfold u
    rw [State.canCh_goBusoff, State.canCh_setCan_same]
    rfl
  have hcount : u.ctr .canBusoff n = s.ctr .canBusoff n + 1 := (State.ctr_goBusoff (by decide) n).trans (if_pos ⟨rfl, rfl⟩)
  have hdrop : u.ctr .canTxDropBusoff n = s.ctr .canTxDropBusoff n :=
    (State.ctr_goBusoff (by decide) n).trans (if_neg fun e => by cases e.1)
  have hstat : getBit (u.rd .evtStat (Ev.canBusoff n / 32)) (Ev.canBusoff n % 32) = true := State.statBit_goBusoff hn
  have hflush : u.on F.canCtrl_bo_flush n = s.on F.canCtrl_bo_flush n := State.on_goBusoff n
  clear_value u
  split
  · refine ⟨?_, ?_, hstat, fun _ => ⟨?_, ?_⟩⟩
    · rw [State.canCh_canFlush, hcan]
    · rw [State.ctr_canFlush, if_neg (by rintro ⟨⟨⟩, -⟩), hcount]
    · rw [State.canCh_canFlush]
    · rw [State.ctr_canFlush, if_pos ⟨rfl, rfl⟩, hdrop, hcan]
  · next hoff => exact ⟨by rw [hcan], hcount, hstat, fun hon => absurd (hflush.trans hon) hoff⟩

theorem Sent.setCan {o : Out} {c : Can} (ho : Sent o s) : Sent o (s.setCan n c) := ho

theorem Sent.goBusoff {o : Out} (ho : Sent o s) : Sent o (s.goBusoff n) := by
  unfold State.goBusoff
  exact ho.setCan.bump.raise

theorem Sent.canFlush {o : Out} {c : Ctr} (ho : Sent o s) : Sent o (s.canFlush n c) := ho

theorem Sent.canCount {o : Out} (ho : Sent o s) (n tec rec_ : Nat) : Sent o (s.canCount n tec rec_) := by
  by_cases h : tec ≤ 255
  · rw [State.canCount_active h]
    exact ho
  · rw [State.canCount_busoff (by omega)]
    exact .ite ho.setCan.goBusoff.canFlush ho.setCan.goBusoff

end Sys2Proof.Machine
end

section
/-! ## Errors and recovery of a CAN channel (R249, R265) -/

namespace Sys2Proof.Machine

open Sys2Proof

variable {s : State}

theorem State.canOn_iff {n : Nat} : s.canOn n = true ↔
    s.fabricOn = true ∧ s.on F.canCtrl_en n = true ∧ (s.canCh n).joined = true ∧ (s.canCh n).fc < 2 := by
  simp [State.canOn, and_assoc]

theorem canErrCtr_mem_busCtrs (e : CanErr) : canErrCtr e ∈ busCtrs := by
  cases e <;> decide

theorem canErrCtr_kind (e : CanErr) : canErrCtr e ∉ eventCtrs ∧ canErrCtr e ≠ .canBusoff ∧ canErrCtr e ≠ .canTxDropBusoff := by
  cases e <;> decide

section Errors

variable {n : Fin 16} {e : CanErr} {tx : Bool} {step : CanStep}

theorem exec_canError (hon : s.canOn n = true) (hbusy : s.quiet = false ∨ (s.canCh n).offer.isSome = true) :
    exec (.canError n e tx step) s = .next (s.canError n e tx step) := by
  refine congrArg Host.Outcome.next (if_pos ?_)
  rw [hon, Bool.true_and, Bool.or_eq_true, Bool.not_eq_true']
  exact hbusy

variable (s n e) in
/-- What an error makes of a channel whose counters become `tec` and `rec_`: it counts, and chooses again. -/
def State.canErrored (tec rec_ : Nat) : State := ((s.bump (canErrCtr e) n).canCount n tec rec_).canChoose n

theorem State.canErrored_spec (tec rec_ : Nat) :
    (s.canErrored n e tec rec_).ctr (canErrCtr e) n = s.ctr (canErrCtr e) n + 1 ∧ ((s.canErrored n e tec rec_).canCh n).tec = tec ∧
      ((s.canErrored n e tec rec_).canCh n).rec_ = rec_ ∧ ((s.canErrored n e tec rec_).canCh n).fc = canState tec rec_ := by
  obtain ⟨hevent, hoff, hdrop⟩ := canErrCtr_kind e
  obtain ⟨htec, hrec, hfc⟩ := State.canCount_counters (s.bump (canErrCtr e) n) n tec rec_
  have hchoose : Confined _ (s.canErrored n e tec rec_) := (Confined.refl _).canChoose
  refine ⟨?_, (hchoose.tec n).trans htec, (hchoose.rec_ n).trans hrec, (hchoose.fc n).trans hfc⟩
  rw [hchoose.ctr _ (canErrCtr_mem_busCtrs e), State.ctr_canCount hevent hoff hdrop, State.ctr_bump, if_pos ⟨rfl, rfl⟩]

theorem State.canErrored_busoff {tec : Nat} (rec_ : Nat) (h : 255 < tec) : ((s.canErrored n e tec rec_).canCh n).offAt = s.tim.lt ∧
    (s.canErrored n e tec rec_).ctr .canBusoff n = s.ctr .canBusoff n + 1 ∧
    getBit ((s.canErrored n e tec rec_).rd .evtStat (Ev.canBusoff n / 32)) (Ev.canBusoff n % 32) = true ∧
    (s.on F.canCtrl_bo_flush n = true → ((s.canErrored n e tec rec_).canCh n).txq = [] ∧
      (s.canErrored n e tec rec_).ctr .canTxDropBusoff n = s.ctr .canTxDropBusoff n + BitVec.ofNat 64 (s.canCh n).txq.length) := by
  obtain ⟨hevent, hoff, hdrop⟩ := canErrCtr_kind e
  obtain ⟨-, -, hfc⟩ := State.canCount_counters (s.bump (canErrCtr e) n) n tec rec_
  obtain ⟨hat, hcount, hstat, hflush⟩ := State.canCount_busoff_spec (s := s.bump (canErrCtr e) n) rec_ h n.isLt
  rw [State.canErrored, State.canChoose_busoff (hfc.trans (canState_eq_busoff.mpr h)), State.canCh_setCan_same]
  rw [State.ctr_bump, if_neg fun e => hoff e.1.symm] at hcount
  refine ⟨hat, hcount, hstat, fun hon => ?_⟩
  obtain ⟨hempty, hdropped⟩ := hflush hon
  rw [State.ctr_bump, if_neg fun e => hdrop e.1.symm] at hdropped
  exact ⟨hempty, hdropped⟩

end Errors

end Sys2Proof.Machine
end

section
/-! ## Recovery, integration and transmission of a CAN channel (R247, R249, R250) -/

namespace Sys2Proof.Machine

open Sys2Proof

variable {s : State} {n : Fin 16}

/-! ### Recovery -/

theorem exec_canBusoffDelayExpiry (hfc : (s.canCh n).fc = 2) (hfab : s.fabricOn = true) (hauto : s.on F.canCtrl_bo_auto n = true)
    (hdue : (s.canCh n).offAt + tkMs (s.fld F.canBoCfg_bo_delay_ms n) ≤ s.tim.lt) :
    exec (.canBusoffDelayExpiry n) s = .next (s.canRecover n) :=
  congrArg Host.Outcome.next (if_pos (by simp [hfc, hfab, hauto, hdue]))

theorem exec_canBusoffDelayExpiry_manual (hauto : s.on F.canCtrl_bo_auto n = false) : exec (.canBusoffDelayExpiry n) s = .next s :=
  congrArg Host.Outcome.next (if_neg (by simp [hauto]))

theorem State.canCh_canRecover (n : Nat) : (s.canRecover n).canCh n = { s.canCh n with fc := 3 } := State.canCh_setCan_same ..

section Command

variable {n : Nat} {data : Word} (hrec : F.canBoCfg_recover.of data = 1)
include hrec

theorem State.wrBoCfg_busoff (hfc : (s.canCh n).fc = 2) : s.wrBoCfg n data = (s.writeReg .canBoCfg n data).canRecover n := by
  have hfc' : ((s.writeReg .canBoCfg n data).canCh n).fc = 2 := by rwa [State.canCh, State.writeReg_net]
  unfold State.wrBoCfg
  dsimp only
  rw [if_neg (by omega), if_pos hfc']

theorem State.wrBoCfg_running (hfc : (s.canCh n).fc < 2) : s.wrBoCfg n data = (s.writeReg .canBoCfg n data).accessErr .can := by
  have hfc' : ((s.writeReg .canBoCfg n data).canCh n).fc < 2 := by rwa [State.canCh, State.writeReg_net]
  unfold State.wrBoCfg
  dsimp only
  rw [if_neg (by omega), if_neg (by omega)]

end Command

theorem exec_canRecover_busoff {p : Path} {data : Word} (hs : s.servesReg p .canBoCfg n = true) (hrec : F.canBoCfg_recover.of data = 1)
    (hfc : (s.canCh n).fc = 2) : ∃ u, exec (.canRecover p n data) s = .next u ∧ u.canCh n = { s.canCh n with fc := 3 } := by
  refine ⟨_, next_of_serves hs (State.wrBoCfg_busoff hrec hfc), ?_⟩
  rw [State.canCh_canRecover, State.canCh, State.writeReg_net]
  rfl

theorem exec_canRecover_running {p : Path} {data : Word} (hs : s.servesReg p .canBoCfg n = true) (hrec : F.canBoCfg_recover.of data = 1)
    (hfc : (s.canCh n).fc < 2) : ∃ u, exec (.canRecover p n data) s = .next u ∧ u.canCh n = s.canCh n ∧
      getBit (u.rd .evtStat (Ev.accessErr .can / 32)) (Ev.accessErr .can % 32) = true := by
  refine ⟨_, next_of_serves hs (State.wrBoCfg_running hrec hfc), ?_, State.statBit_raise (by decide)⟩
  rw [Quiet.canCh (quiet_accessErr ..), State.canCh, State.writeReg_net]
  rfl

theorem exec_canRecoveryComplete (hfab : s.fabricOn = true) (hfc : (s.canCh n).fc = 3) (hmode : s.canMode n ≠ 2) :
    ∃ u, exec (.canRecoveryComplete n) s = .next u ∧ (u.canCh n).tec = 0 ∧ (u.canCh n).rec_ = 0 ∧ (u.canCh n).fc = 0 := by
  refine ⟨_, congrArg Host.Outcome.next (if_pos (by simp [hfab, hfc, hmode])), ?_⟩
  have h := (Confined.refl (s.setCan n { s.canCh n with tec := 0, rec_ := 0, fc := 0 })).canChoose (n := n)
  rw [h.tec, h.rec_, h.fc, State.canCh_setCan_same]
  exact ⟨rfl, rfl, rfl⟩

theorem exec_canRecoveryComplete_selective (hmode : s.canMode n = 2) : exec (.canRecoveryComplete n) s = .next s :=
  congrArg Host.Outcome.next (if_neg (by simp [hmode]))

/-! ### Integration -/

theorem exec_canIntegrationComplete (hfab : s.fabricOn = true) (hen : s.on F.canCtrl_en n = true) :
    ∃ u, exec (.canIntegrationComplete n) s = .next u ∧ (u.canCh n).joined = true ∧ (u.canCh n).tec = (s.canCh n).tec ∧
      (u.canCh n).fc = (s.canCh n).fc := by
  refine ⟨s.canJoin n, congrArg Host.Outcome.next (if_pos (by simp [hfab, hen])), ?_⟩
  have h : Confined _ (s.canJoin n) := (Confined.refl (s.setCan n { s.canCh n with joined := true })).canChoose
  rw [h.joined, h.tec, h.fc, State.canCh_setCan_same]
  exact ⟨rfl, rfl, rfl⟩

/-! ### Transmission -/

/-- A frame that has been sent is counted, TEC falls by one, and the frame has left. -/
theorem State.canSent_spec {x : LegTx} (hx : (s.canCh n).offer = some x) :
    (s.canSent n).ctr .canTxFrames n = s.ctr .canTxFrames n + 1 ∧
    Out.can n (x.leg.fmt == 1 && s.on F.canCtrl_brs n) x.leg ∈ (s.canSent n).out ∧
    ((s.canSent n).canCh n).tec = (s.canCh n).tec - 1 := by
  let t := ((s.setCan n { s.canCh n with txq := txqDrop x (s.canCh n).txq, offer := none }).bump .canTxFrames n).emit
    (.can n (x.leg.fmt == 1 && s.on F.canCtrl_brs n) x.leg)
  have hend : s.canEnd n = t.canCount n ((s.canCh n).tec - 1) (s.canCh n).rec_ := by
    unfold State.canEnd
    dsimp only
    rw [hx]
    rfl
  have hsent : s.canSent n = (s.canEnd n).canChoose n := if_neg (by simp [hx])
  have h : Confined (s.canEnd n) (s.canSent n) := hsent ▸ (Confined.refl (s.canEnd n)).canChoose
  have hout : Sent (.can n (x.leg.fmt == 1 && s.on F.canCtrl_brs n) x.leg) t := List.mem_cons_self
  obtain ⟨htec, -, -⟩ := State.canCount_counters t n ((s.canCh n).tec - 1) (s.canCh n).rec_
  have hcount : t.ctr .canTxFrames n = s.ctr .canTxFrames n + 1 := (State.ctr_bump ..).trans (if_pos ⟨rfl, rfl⟩)
  refine ⟨?_, h.sent _ ?_, (h.tec n).trans ?_⟩
  · rw [h.ctr _ (by decide), hend, State.ctr_canCount (by decide) (by decide) (by decide), hcount]
  · rw [hend]
    exact hout.canCount ..
  · rw [hend, htec]

theorem exec_canTxComplete (hon : s.canOn n = true) (hsafe : s.pair.safe ≠ some .linkDown) :
    exec (.canTxComplete n) s = .next (s.canSent n) := congrArg Host.Outcome.next (if_pos (by simp [hon, hsafe]))

theorem exec_canTxComplete_linkDown (hsafe : s.pair.safe = some .linkDown) : exec (.canTxComplete n) s = .next s :=
  congrArg Host.Outcome.next (if_neg (by simp [hsafe]))

theorem exec_canTxComplete_nothing (hoffer : (s.canCh n).offer = none) : exec (.canTxComplete n) s = .next s := by
  have hsent : s.canSent n = s := if_pos (by rw [hoffer]; rfl)
  refine congrArg Host.Outcome.next ?_
  rw [hsent, ite_self]

theorem exec_canArbLost (hon : s.canOn n = true) (hoffer : (s.canCh n).offer.isSome = true) (hopen : s.canOpen n = true)
    (hage : s.fld F.canTxCfg_max_age_us n = 0) (hclean : s.memClean = true) :
    exec (.canArbLost n) s = .next ((s.bump .canArbLost n).setCan n { s.canCh n with
      offer := canBest (canOldest [] (s.canCh n).txq) }) := by
  obtain ⟨-, -, hjoined, hfc⟩ := State.canOn_iff.mp hon
  exact congrArg Host.Outcome.next ((if_pos (by simp [hon, hoffer])).trans
    (State.canChoose_clean (s := s.bump .canArbLost n) hopen hjoined hfc hage hclean))

/-! ### Admission to the transmit queue (R250) -/

section Offer

variable {l : LegRec} {ord : BitVec 64}

theorem exec_legacyTxOffer (hfab : s.fabricOn = true) : exec (.legacyTxOffer n l ord) s = .next (s.canOffer n l ord.toNat) :=
  congrArg Host.Outcome.next (if_pos hfab)

variable {n k : Nat}

/-- The channel with a frame queued behind the others, and its ordinal kept. -/
def State.canQueued (s : State) (n : Nat) (l : LegRec) (k : Nat) : Can :=
  { s.canCh n with
    txq := (s.canCh n).txq ++ [⟨l, k, s.tim.lt, txqPlace (s.canCh n).txq⟩], ords := tblSet (s.canCh n).ords 0 l.ident k }

/-- A frame that passes every test is queued. -/
def State.canQueue (s : State) (n : Nat) (l : LegRec) (k : Nat) : State :=
  (s.setCan n (s.canQueued n l k)).itemWrite (canWord n (txqPlace (s.canCh n).txq)) l.words

theorem State.canCh_canQueue : (s.canQueue n l k).canCh n = s.canQueued n l k :=
  (Quiet.canCh (quiet_itemWrite ..) n).trans (State.canCh_setCan_same ..)

theorem written_canQueue (harm : s.on F.memFlipCtrl_arm = false) : Written (s.setCan n (s.canQueued n l k)) (s.canQueue n l k) :=
  written_itemWrite (s := s.setCan n (s.canQueued n l k)) harm ..

theorem State.canOffer_closed (hopen : s.canOpen n = false) : s.canOffer n l k = s.bump .canTxDropState n := if_pos (by rw [hopen]; rfl)

variable (hopen : s.canOpen n = true)
include hopen

theorem State.canOffer_busoff (hfc : 2 ≤ (s.canCh n).fc) (hflush : s.on F.canCtrl_bo_flush n = true) :
    s.canOffer n l k = s.bump .canTxDropBusoff n :=
  (if_neg (by rw [hopen]; decide)).trans (if_pos ⟨hfc, hflush⟩)

variable (hfc : (s.canCh n).fc < 2 ∨ s.on F.canCtrl_bo_flush n = false)
include hfc

/-- Past the tests of the state and of bus-off, the tests of the frame decide. -/
theorem State.canOffer_tests : s.canOffer n l k =
    if !s.canFmtOk n l.fmt then s.bump .canTxDropFmt n
    else if k < tblGet (s.canCh n).ords 0 l.ident then s.bump .canTxDropOrder n
    else if 64 ≤ (s.canCh n).txq.length ∨
        16384 < ((s.canCh n).txq.foldl (fun a x => a + x.leg.data.length) 0) + l.data.length then s.bump .canTxDropFull n
    else if ((s.canQueue n l k).canCh n).offer.isNone then (s.canQueue n l k).canChoose n else s.canQueue n l k := by
  have hstate : ¬(2 ≤ (s.canCh n).fc ∧ s.on F.canCtrl_bo_flush n = true) := by
    rintro ⟨hoff, hflush⟩
    rcases hfc with hlt | hkeep
    · omega
    · exact absurd hflush (by simp [hkeep])
  exact (if_neg (by rw [hopen]; decide)).trans (if_neg hstate)

theorem State.canOffer_format (hfmt : s.canFmtOk n l.fmt = false) : s.canOffer n l k = s.bump .canTxDropFmt n :=
  (State.canOffer_tests hopen hfc).trans (if_pos (by rw [hfmt]; rfl))

variable (hfmt : s.canFmtOk n l.fmt = true)
include hfmt

theorem State.canOffer_late (hord : k < tblGet (s.canCh n).ords 0 l.ident) : s.canOffer n l k = s.bump .canTxDropOrder n := by
  rw [State.canOffer_tests hopen hfc, if_neg (by rw [hfmt]; decide), if_pos hord]

variable (hord : tblGet (s.canCh n).ords 0 l.ident ≤ k)
include hord

theorem State.canOffer_full (hfull : 64 ≤ (s.canCh n).txq.length ∨
    16384 < ((s.canCh n).txq.foldl (fun a x => a + x.leg.data.length) 0) + l.data.length) :
    s.canOffer n l k = s.bump .canTxDropFull n := by
  rw [State.canOffer_tests hopen hfc, if_neg (by rw [hfmt]; decide), if_neg (by omega), if_pos hfull]

variable (hroom : ¬(64 ≤ (s.canCh n).txq.length ∨
  16384 < ((s.canCh n).txq.foldl (fun a x => a + x.leg.data.length) 0) + l.data.length)) (harm : s.on F.memFlipCtrl_arm = false)
include hroom harm

/-- A frame queued while another is on offer leaves that offer. -/
theorem State.canOffer_behind (hoffer : (s.canCh n).offer.isSome = true) : ((s.canOffer n l k).canCh n).txq =
    (s.canCh n).txq ++ [⟨l, k, s.tim.lt, txqPlace (s.canCh n).txq⟩] ∧ ((s.canOffer n l k).canCh n).offer = (s.canCh n).offer ∧
    tblGet ((s.canOffer n l k).canCh n).ords 0 l.ident = k ∧ keeps [.regs, .ctrs, .tim] s (s.canOffer n l k) := by
  have heq : s.canOffer n l k = s.canQueue n l k := by
    rw [State.canOffer_tests hopen hfc, if_neg (by rw [hfmt]; decide), if_neg (by omega), if_neg hroom, State.canCh_canQueue]
    exact if_neg (by simpa [State.canQueued, Option.isSome_iff_ne_none] using hoffer)
  rw [heq, State.canCh_canQueue]
  refine ⟨rfl, rfl, tblGet_set_same .., ?_⟩
  obtain ⟨m, hm, -⟩ := written_canQueue (n := n) (l := l) (k := k) harm
  rw [hm]
  simp [keeps, Part.same, State.setCan]

/-- A frame that a channel on the bus queues alone is on offer at once. -/
theorem State.canOffer_alone (hoffer : (s.canCh n).offer = none) (hempty : (s.canCh n).txq = []) (hjoined : (s.canCh n).joined = true)
    (hactive : (s.canCh n).fc < 2) (hage : s.fld F.canTxCfg_max_age_us n = 0) (hclean : s.memClean = true) :
    ((s.canOffer n l k).canCh n).txq = [⟨l, k, s.tim.lt, 0⟩] ∧ ((s.canOffer n l k).canCh n).offer = some ⟨l, k, s.tim.lt, 0⟩ ∧
      keeps [.regs, .ctrs, .tim] s (s.canOffer n l k) := by
  have hcan : s.canQueued n l k = { s.canCh n with txq := [⟨l, k, s.tim.lt, 0⟩], ords := tblSet (s.canCh n).ords 0 l.ident k } := by
    rw [State.canQueued, hempty]
    rfl
  obtain ⟨m, hm, hmem⟩ := written_canQueue (n := n) (l := l) (k := k) harm
  have hchoose := State.canChoose_clean (s := s.canQueue n l k) (n := n) (by rw [hm]; exact hopen)
    (by rw [State.canCh_canQueue]; exact hjoined) (by rw [State.canCh_canQueue]; exact hactive) (by rw [hm]; exact hage) (hmem hclean)
  have heq : s.canOffer n l k = (s.canQueue n l k).canChoose n := by
    rw [State.canOffer_tests hopen hfc, if_neg (by rw [hfmt]; decide), if_neg (by omega), if_neg hroom, State.canCh_canQueue]
    exact if_pos (by rw [State.canQueued, hoffer]; rfl)
  rw [heq, hchoose, State.canCh_setCan_same, State.canCh_canQueue, hcan, hm]
  refine ⟨rfl, rfl, ?_⟩
  simp [keeps, Part.same, State.setCan]

end Offer

end Sys2Proof.Machine
end

section
/-! ## Reception on a CAN channel (R248, R336) -/

namespace Sys2Proof.Machine

open Sys2Proof

variable {s t : State}

/-! ### The receive FIFO of a channel (R248, R257) -/

section Fifo

variable {port cap ago ch : Nat} {l : LegRec} {stall : Bool} {got lost : Ctr}

theorem State.legPut_full (h : cap ≤ s.legHeld port) : s.legPut port cap l stall ago got lost ch = s.bump lost ch := if_pos h

/-- The place of the next frame in the FIFO of a virtual port. -/
def State.legPlace (s : State) (port cap : Nat) : Nat :=
  ((List.range cap).find? fun i => !(s.net.legRx.any fun x => x.port == port && x.pos == i)).getD 0

/-- A frame in the FIFO of a virtual port, as it is received now. -/
def State.legIn (s : State) (port cap : Nat) (l : LegRec) (ago : Nat) : LegIn :=
  ⟨port, l, s.tim.lt - ago, s.tim.lt, s.legPlace port cap⟩

/-- The state with a counted frame behind the others in the FIFOs. -/
def State.legPush (s : State) (port cap : Nat) (l : LegRec) (ago : Nat) (got : Ctr) (ch : Nat) : State :=
  let u := (s.bump got ch).itemWrite (legWord port (s.legPlace port cap)) l.words
  { u with net := { u.net with legRx := u.net.legRx ++ [s.legIn port cap l ago] } }

theorem State.legPut_room (h : s.legHeld port < cap) : s.legPut port cap l stall ago got lost ch =
    if stall then s.legPush port cap l ago got ch else (s.legPush port cap l ago got ch).drainLeg := by
  have htim := (quiet_itemWrite (s.bump got ch) (legWord port (s.legPlace port cap)) l.words).tim
  unfold State.legPush State.legIn
  rw [show s.tim = _ from htim.symm]
  exact if_neg (Nat.not_le.mpr h)

theorem State.legPush_net : (s.legPush port cap l ago got ch).net =
    { s.net with legRx := s.net.legRx ++ [s.legIn port cap l ago] } :=
  congrArg (fun x : Net => { x with legRx := x.legRx ++ [s.legIn port cap l ago] }) (quiet_itemWrite (s.bump got ch) _ _).net

theorem State.ctr_legPush (hgot : got ∉ eventCtrs) : (s.legPush port cap l ago got ch).ctr got ch = s.ctr got ch + 1 :=
  ((quiet_itemWrite (s.bump got ch) (legWord port (s.legPlace port cap)) l.words).ctr got ch hgot).trans
    ((State.ctr_bump ..).trans (if_pos ⟨rfl, rfl⟩))

/-- A frame of a FIFO without errors goes to classification. -/
theorem State.legTake_clean (hclean : s.memClean = true) (x : LegIn) : s.legTake x = s.chanIn x := by
  unfold State.legTake
  rw [State.itemRead_clean hclean]
  rfl

/-- The state with empty FIFOs. -/
def State.fifosEmptied (s : State) : State := { s with net := { s.net with legRx := [] } }

/-- The frame that waits alone goes to classification. -/
theorem State.drainLeg_single {x : LegIn} (hx : s.net.legRx = [x]) (hclean : s.memClean = true) :
    s.drainLeg = s.fifosEmptied.chanIn x := by
  have hdrain : s.drainLeg = s.net.legRx.foldl State.legTake s.fifosEmptied := rfl
  have hclean' : s.fifosEmptied.memClean = true := hclean
  rw [hdrain, hx, List.foldl_cons, State.legTake_clean hclean', List.foldl_nil]

theorem State.memClean_legPush (harm : s.on F.memFlipCtrl_arm = false) (hclean : s.memClean = true) :
    (s.legPush port cap l ago got ch).memClean = true := by
  obtain ⟨m, hm, hmem⟩ := written_itemWrite (s := s.bump got ch) harm (legWord port (s.legPlace port cap)) l.words
  exact hmem hclean

end Fifo

/-! ### The way to classification -/

/-- Outside STANDBY and DISCOVER a received frame takes one ordinal, and leaves the channels as the stages do. -/
theorem State.chanIn_spec (hrole : s.legacyStandby = false) (x : LegIn) :
    Confined s (s.chanIn x) ∧ (s.chanIn x).net.ord = s.net.ord + 1 := by
  unfold State.chanIn
  rw [hrole, if_neg Bool.false_ne_true]
  exact ⟨(Confined.refl s).ingest, (piped_ingest ..).ord⟩

/-- A frame that finds its FIFO empty, with the classifier free, is counted, takes one ordinal and leaves the FIFO. -/
theorem State.legPush_drained {port cap ago ch : Nat} {l : LegRec} {got : Ctr} (hgot : got ∈ busCtrs) (hempty : s.net.legRx = [])
    (hclean : s.memClean = true) (harm : s.on F.memFlipCtrl_arm = false) (hrole : s.legacyStandby = false) :
    let u := (s.legPush port cap l ago got ch).drainLeg
    u.ctr got ch = s.ctr got ch + 1 ∧ u.net.ord = s.net.ord + 1 ∧ (∀ n, (u.canCh n).rec_ = (s.canCh n).rec_) ∧
      u.net.legRx = [] := by
  have hnet := State.legPush_net (s := s) (port := port) (cap := cap) (l := l) (ago := ago) (got := got) (ch := ch)
  have hcount := State.ctr_legPush (s := s) (port := port) (cap := cap) (l := l) (ago := ago) (ch := ch) (busCtrs_not_event _ hgot)
  have hmem := State.memClean_legPush (port := port) (cap := cap) (l := l) (ago := ago) (got := got) (ch := ch) harm hclean
  have hred : (s.legPush port cap l ago got ch).legacyStandby = false := by
    obtain ⟨m, hm, -⟩ := written_itemWrite (s := s.bump got ch) harm (legWord port (s.legPlace port cap)) l.words
    unfold State.legPush
    rw [hm]
    exact hrole
  generalize s.legPush port cap l ago got ch = w at *
  have hone : w.net.legRx = [s.legIn port cap l ago] := by rw [hnet, hempty]; rfl
  rw [State.drainLeg_single hone hmem]
  obtain ⟨hconf, hord⟩ := State.chanIn_spec (s := w.fifosEmptied) hred (s.legIn port cap l ago)
  have hcan : w.net.can = s.net.can := by rw [hnet]
  have hord' : w.net.ord = s.net.ord := by rw [hnet]
  exact ⟨(hconf.ctr got hgot ch).trans hcount, hord.trans (congrArg (· + 1) hord'),
    fun n => (hconf.rec_ n).trans (congrArg (fun x => (tblGet x Can.reset n).rec_) hcan), hconf.legRx⟩

/-! ### A COMMIT of the partner (R393) -/

/-- `t` is `s` after ball frames: they leave, and CAN frames among them are counted. -/
structure Balled (s t : State) : Prop where
  net : t.net = s.net
  ctr : ∀ c i, c ∉ eventCtrs → c ≠ .canTxFrames → t.ctr c i = s.ctr c i

theorem Balled.refl (s : State) : Balled s s := ⟨rfl, fun _ _ _ _ => rfl⟩

theorem Balled.trans {u : State} (h : Balled s t) (k : Balled t u) : Balled s u :=
  ⟨k.net.trans h.net, fun c i he hc => (k.ctr c i he hc).trans (h.ctr c i he hc)⟩

theorem balled_sendBall (s : State) (type k : Nat) : Balled s (s.sendBall type k) := by
  unfold State.sendBall
  dsimp only
  split
  · exact .refl s
  · split
    · split
      · exact .refl s
      · exact ⟨rfl, fun c i _ hc => (State.ctr_bump ..).trans (if_neg fun e => hc e.1)⟩
    · exact ⟨rfl, fun _ _ _ _ => rfl⟩

theorem balled_sleepEntry (s : State) : Balled s s.sleepEntry := by
  unfold State.sleepEntry
  extract_lets r t u
  have hu : Balled s u := by
    unfold u
    split
    · have q := quiet_setRole t .detached
      exact ⟨q.net, fun c i he _ => q.ctr c i he⟩
    · exact ⟨rfl, fun _ _ _ _ => rfl⟩
  exact List.foldlRecOn (motive := Balled s) _ _ hu fun v hv k _ => hv.trans (balled_sendBall v 3 k)

theorem balled_partnerCommit (s : State) (n : Nat) (l : LegRec) : Balled s (s.partnerCommit n l) := by
  unfold State.partnerCommit
  dsimp only
  split
  · have h := balled_sleepEntry ((s.setRing { s.pwr.ring with round := fieldAt l.data 2 2 }).commitTo (byteAt l.data 5 == 2) none)
    exact ⟨h.net, h.ctr⟩
  · exact .refl s

/-! ### Frames on the bus -/

section Frame

variable {n : Fin 16} {l : LegRec} {ago : BitVec 32} {rtr stall : Bool}

theorem exec_canFrameRx (hfwd : s.forwards = true) (hon : s.canOn n = true) : exec (.canFrameRx n l rtr stall ago) s =
    .next (if rtr || !s.canTakes n l.fmt || decide (32 ≤ s.legHeld (32 + n)) then s.canRx n l rtr stall ago.toNat
      else (s.canRx n l rtr stall ago.toNat).partnerCommit n l) :=
  congrArg Host.Outcome.next (if_pos (by rw [hfwd, hon]; rfl))

/-- A frame is received: REC falls by one, and the state follows the counters. -/
def State.canHeard (s : State) (n : Nat) : State :=
  s.setCan n { s.canCh n with rec_ := (s.canCh n).rec_ - 1, fc := canState (s.canCh n).tec ((s.canCh n).rec_ - 1) }

variable (hmode : s.canMode n ≠ 2) (hfmt : s.canFmtOk n l.fmt = true) (hquiet : s.quiet = false) (hrec : (s.canCh n).rec_ ≤ 127)
  (htec : (s.canCh n).tec ≤ 255)
include hmode hfmt hquiet hrec htec

theorem State.canRx_heard : s.canRx n l rtr stall ago.toNat = if rtr then (s.canHeard n).bump .canRxDropRtr n
    else (s.canHeard n).legPut (32 + n) 32 l stall ago.toNat .canRxFrames .canRxDropOvf n := by
  have htakes : s.canTakes n l.fmt = true := by simp [State.canTakes, hmode, hfmt]
  have hok : s.canRxOk n = s.canHeard n := (if_neg (by omega)).trans (State.canCount_active htec)
  unfold State.canRx
  rw [if_neg (by simp [htakes, State.stillRx, hquiet])]
  dsimp only
  rw [hok]

variable (hfwd : s.forwards = true) (hon : s.canOn n = true)
include hfwd hon

theorem exec_canFrameRx_remote : exec (.canFrameRx n l true stall ago) s = .next ((s.canHeard n).bump .canRxDropRtr n) := by
  rw [exec_canFrameRx hfwd hon, State.canRx_heard hmode hfmt hquiet hrec htec]
  rfl

theorem exec_canFrameRx_full (hfull : 32 ≤ s.legHeld (32 + n)) :
    exec (.canFrameRx n l false stall ago) s = .next ((s.canHeard n).bump .canRxDropOvf n) := by
  have hfull' : 32 ≤ (s.canHeard n).legHeld (32 + n) := hfull
  rw [exec_canFrameRx hfwd hon, if_pos (by simp [hfull]), State.canRx_heard hmode hfmt hquiet hrec htec, if_neg Bool.false_ne_true,
    State.legPut_full hfull']

theorem exec_canFrameRx_room (hroom : s.legHeld (32 + n) < 32) : exec (.canFrameRx n l false stall ago) s = .next
    ((if stall then (s.canHeard n).legPush (32 + n) 32 l ago.toNat .canRxFrames n
      else ((s.canHeard n).legPush (32 + n) 32 l ago.toNat .canRxFrames n).drainLeg).partnerCommit n l) := by
  have htakes : s.canTakes n l.fmt = true := by simp [State.canTakes, hmode, hfmt]
  have hroom' : (s.canHeard n).legHeld (32 + n) < 32 := hroom
  rw [exec_canFrameRx hfwd hon, if_neg (by simp [htakes, hroom]), State.canRx_heard hmode hfmt hquiet hrec htec,
    if_neg Bool.false_ne_true, State.legPut_room hroom']

end Frame

end Sys2Proof.Machine
end

section
/-! ## CAN channels (R247 to R250, R265) -/

namespace Sys2Proof.Machine

open Sys2Proof

variable {s : State} {n : Fin 16} {l : LegRec} {ago : BitVec 32}

section Heard

variable (hmode : s.canMode n ≠ 2) (hfmt : s.canFmtOk n l.fmt = true) (hquiet : s.quiet = false) (hrec : (s.canCh n).rec_ ≤ 127)
  (htec : (s.canCh n).tec ≤ 255) (hfwd : s.forwards = true) (hon : s.canOn n = true)
include hmode hfmt hquiet hrec htec hfwd hon

/-- A frame that finds the FIFOs empty goes to classification at once. -/
theorem canFrameRx_classified (hempty : s.net.legRx = []) (hclean : s.memClean = true) (harm : s.on F.memFlipCtrl_arm = false)
    (hrole : s.legacyStandby = false) : ∃ u, exec (.canFrameRx n l false false ago) s = .next u ∧
      u.ctr .canRxFrames n = s.ctr .canRxFrames n + 1 ∧ u.net.ord = s.net.ord + 1 ∧ (u.canCh n).rec_ = (s.canCh n).rec_ - 1 ∧
      u.net.legRx = [] := by
  have hroom : s.legHeld (32 + n) < 32 := by simp [State.legHeld, hempty]
  refine ⟨_, exec_canFrameRx_room hmode hfmt hquiet hrec htec hfwd hon hroom, ?_⟩
  obtain ⟨hcount, hord, hrec', hfifo⟩ := State.legPush_drained (s := s.canHeard n) (port := 32 + n) (cap := 32) (ago := ago.toNat)
    (ch := n) (l := l) (got := .canRxFrames) (by decide) hempty hclean harm hrole
  rw [if_neg Bool.false_ne_true]
  generalize ((s.canHeard n).legPush (32 + n) 32 l ago.toNat .canRxFrames n).drainLeg = t at *
  have hball := balled_partnerCommit t n l
  refine ⟨(hball.ctr _ _ (by decide) (by decide)).trans hcount, ?_, ?_, ?_⟩
  · rw [hball.net, hord]
    rfl
  · rw [State.canCh, hball.net]
    exact (hrec' n).trans (congrArg Can.rec_ (State.canCh_setCan_same ..))
  · rw [hball.net, hfifo]

/-- A stalled classifier leaves the frame behind the others in the FIFO. -/
theorem canFrameRx_stalled (hroom : s.legHeld (32 + n) < 32) : ∃ u, exec (.canFrameRx n l false true ago) s = .next u ∧
    u.ctr .canRxFrames n = s.ctr .canRxFrames n + 1 ∧ u.net.ord = s.net.ord ∧ (u.canCh n).rec_ = (s.canCh n).rec_ - 1 ∧
    ∃ k, u.net.legRx = s.net.legRx ++ [⟨32 + n, l, s.tim.lt - ago.toNat, s.tim.lt, k⟩] := by
  refine ⟨_, exec_canFrameRx_room hmode hfmt hquiet hrec htec hfwd hon hroom, ?_⟩
  have hnet := State.legPush_net (s := s.canHeard n) (port := 32 + n) (cap := 32) (l := l) (ago := ago.toNat) (got := .canRxFrames)
    (ch := n)
  have hcount := State.ctr_legPush (s := s.canHeard n) (port := 32 + n) (cap := 32) (l := l) (ago := ago.toNat) (ch := n)
    (got := .canRxFrames) (by decide)
  rw [if_pos rfl]
  generalize (s.canHeard n).legPush (32 + n) 32 l ago.toNat .canRxFrames n = t at *
  have hball := balled_partnerCommit t n l
  refine ⟨(hball.ctr _ _ (by decide) (by decide)).trans hcount, ?_, ?_, (s.canHeard n).legPlace (32 + n) 32, ?_⟩
  · rw [hball.net, hnet]
    rfl
  · rw [State.canCh, hball.net, hnet]
    exact congrArg Can.rec_ (State.canCh_setCan_same ..)
  · rw [hball.net, hnet]
    rfl

end Heard

/-- Settles O45: each command's effect, command by command; what follows it in the memories and in classification keeps the channel's fault
confinement. -/
theorem canChannels : Obligations.CanChannels := by
  intro s n c
  refine ⟨fun l ord hfab => ⟨fun hclosed => ?_, fun hopen hfc hflush => ?_, fun hopen hfc => ⟨fun hfmt => ?_, fun hfmt hord => ?_,
      fun hfmt hord => ⟨fun hfull => ?_, fun hroom hoffer harm => ?_,
        fun hroom hoffer hempty hjoined hactive hage hclean harm => ?_⟩⟩⟩,
    fun l ago hfwd hon hmode hfmt hquiet hrole hpos hrec htec => ⟨fun hempty hclean harm => ?_, fun hroom => ?_, fun hfull stall => ?_,
      fun stall => ?_⟩,
    fun hon hbusy e step => ⟨fun hmode tx => ?_, fun hmode => ⟨?_, ?_⟩⟩,
    fun hfc => ⟨fun hfab hauto hdue => ?_, exec_canBusoffDelayExpiry_manual⟩,
    fun p data hs hrec => ⟨exec_canRecover_busoff hs hrec, exec_canRecover_running hs hrec⟩,
    fun hfab hfc => ⟨exec_canRecoveryComplete hfab hfc, exec_canRecoveryComplete_selective⟩,
    fun hon => ⟨fun x hx => ⟨fun hsafe => ?_, exec_canTxComplete_linkDown, fun hopen hage hclean => ?_⟩,
      exec_canTxComplete_nothing⟩,
    exec_canIntegrationComplete⟩
  · rw [exec_legacyTxOffer hfab, State.canOffer_closed hclosed]
  · rw [exec_legacyTxOffer hfab, State.canOffer_busoff hopen hfc hflush]
  · rw [exec_legacyTxOffer hfab, State.canOffer_format hopen hfc hfmt]
  · rw [exec_legacyTxOffer hfab, State.canOffer_late hopen hfc hfmt hord]
  · rw [exec_legacyTxOffer hfab, State.canOffer_full hopen hfc hfmt hord hfull]
  · exact ⟨_, exec_legacyTxOffer hfab, State.canOffer_behind hopen hfc hfmt hord hroom harm hoffer⟩
  · exact ⟨_, exec_legacyTxOffer hfab, State.canOffer_alone hopen hfc hfmt hord hroom harm hoffer hempty hjoined hactive hage hclean⟩
  · exact canFrameRx_classified hmode hfmt hquiet hrec htec hfwd hon hempty hclean harm hrole
  · exact canFrameRx_stalled hmode hfmt hquiet hrec htec hfwd hon hroom
  · exact ⟨_, exec_canFrameRx_full hmode hfmt hquiet hrec htec hfwd hon hfull, (State.ctr_bump ..).trans (if_pos ⟨rfl, rfl⟩),
      rfl, rfl⟩
  · exact ⟨_, exec_canFrameRx_remote hmode hfmt hquiet hrec htec hfwd hon, (State.ctr_bump ..).trans (if_pos ⟨rfl, rfl⟩), rfl⟩
  · rw [exec_canError hon hbusy]
    exact congrArg Host.Outcome.next (if_pos hmode)
  · obtain ⟨hcount, htec, hrec, hfc⟩ := State.canErrored_spec (s := s) (n := n) (e := e) (c.tec + step.n) c.rec_
    have heq : s.canError n e true step = s.canErrored n e (c.tec + step.n) c.rec_ := (if_neg hmode).trans (if_pos rfl)
    refine ⟨_, exec_canError hon hbusy, ?_⟩
    rw [heq]
    exact ⟨hcount, htec, hrec, hfc, State.canErrored_busoff c.rec_⟩
  · obtain ⟨hcount, htec, hrec, -⟩ := State.canErrored_spec (s := s) (n := n) (e := e) c.tec (min 255 (c.rec_ + step.n))
    have heq : s.canError n e false step = s.canErrored n e c.tec (min 255 (c.rec_ + step.n)) :=
      (if_neg hmode).trans (if_neg Bool.false_ne_true)
    refine ⟨_, exec_canError hon hbusy, ?_⟩
    rw [heq]
    exact ⟨hcount, htec, hrec⟩
  · refine ⟨_, exec_canBusoffDelayExpiry hfc hfab hauto hdue, State.canCh_canRecover .., ?_⟩
    simp [keeps, Part.same, State.canRecover, State.setCan]
  · exact ⟨_, exec_canTxComplete hon hsafe, State.canSent_spec hx⟩
  · have hcount : (s.bump .canArbLost n).ctr .canArbLost n = s.ctr .canArbLost n + 1 := (State.ctr_bump ..).trans (if_pos ⟨rfl, rfl⟩)
    refine ⟨_, exec_canArbLost hon (by rw [hx]; rfl) hopen hage hclean, hcount, State.canCh_setCan_same .., ?_⟩
    simp [keeps, Part.same, State.setCan]

end Sys2Proof.Machine
end

section
/-! ## A log that overwrites itself starves the events behind it (R451, R455)

Where MQ_LOST is logged, a rise that is logged into a full queue in overwrite mode makes MQ_LOST rise, whose own log entry does the same.
`State.raiseFuel` follows such a chain until its fuel ends, and the sources that waited behind it never rise. -/

namespace Sys2Proof.Machine

open Sys2Proof

/-- A PLCA follower on P12 in RUN hears the beacon. PLCA_CHANGE of P12 and MQ_LOST are logged to MQ0, which holds 512 unread items in
overwrite mode. -/
def State.logFull : State :=
  let s : State := { State.reset with op := .run, mqs := [(0, { Mq.reset with items := List.replicate 512 ⟨[0, 0, 0, 0]⟩ })] }
  [(F.tssPhyCfg_en, 0, 1), (F.tssPlcaCtrl_en, 0, 1), (F.tssPlcaCtrl_node_id, 0, 1), (F.tssPlcaStat_plca_status, 0, 1),
    (F.mqCfg_en, 0, 1), (F.mqCfg_depth_log, 0, 9), (F.evtLogCfg_en, 0, 1), (F.evtRoute_log, Ev.plcaChange 0, 1),
    (F.evtRoute_log, Ev.mqLost, 1)].foldl (fun s x => s.setFld x.1 x.2.1 x.2.2) s

theorem logFull_follows : State.logFull.fabricOn = true ∧ State.logFull.plcaOn 0 = true ∧ State.logFull.plcaLead 0 = false ∧
    State.logFull.on F.tssPlcaStat_plca_status 0 = true := by decide +kernel

/-- The state after the loss of the beacon. -/
def State.beaconLost : State :=
  ((State.logFull.setFld F.tssPlcaStat_plca_status 0 0).bump .tssPlcaLoss 0).raiseAll [Ev.plcaChange 0, Ev.rateChange 12]

theorem exec_plcaBeaconLoss_logFull : exec (.plcaBeaconLoss 0) State.logFull = .next State.beaconLost := by
  obtain ⟨hfab, hon, hlead, hstatus⟩ := logFull_follows
  exact congrArg Host.Outcome.next (if_pos (by simp [hfab, hon, hlead, hstatus]))

/-- MQ_LOST rises for all the fuel that is left after PLCA_CHANGE, and RATE_CHANGE of P12 never rises. -/
theorem beaconLost_starved : State.beaconLost.ctr .mqLost = 14 ∧
    getBit (State.beaconLost.rd .evtStat (Ev.rateChange 12 / 32)) (Ev.rateChange 12 % 32) = false := by decide +kernel

/-- Refutes O46, by its clause on the loss of the beacon: PLCA_CHANGE and RATE_CHANGE rise together, and R451 sets the bit of each, but the
model never comes to the second where the log of the first overwrites unread items and logs that too. The bound of log entry 8 on chains
of rises is what fails. -/
theorem not_linChannelsAndPlca : ¬ Obligations.LinChannelsAndPlca := by
  intro h
  obtain ⟨-, -, -, -, -, -, hplca⟩ := h State.logFull 0
  obtain ⟨hfab, hon, hlead, hstatus⟩ := logFull_follows
  obtain ⟨hloss, -⟩ := hplca 0 hfab hon
  obtain ⟨u, hu, -, -, -, hrate⟩ := hloss hlead hstatus
  obtain rfl : State.beaconLost = u := Host.Outcome.next.inj (exec_plcaBeaconLoss_logFull.symm.trans hu)
  obtain ⟨-, hsilent⟩ := beaconLost_starved
  exact Bool.false_ne_true (hsilent.symm.trans hrate)

end Sys2Proof.Machine
end
